-- ==== Sys2Proof/Word.lean ====
section
/-! DEFINITION. The words of the machine and their plainest arithmetic. -/
namespace Sys2Proof

/-- A 64-bit scalar, pointer or unit image. -/
abbrev Word := BitVec 64
/-- A 256-byte vector operand (R129): 64 lanes of 32 bits, lane 0 lowest. -/
abbrev Vec := BitVec 2048
/-- The 128 bytes of a line (R71). -/
abbrev LineData := BitVec 1024
/-- One bit for each byte of a line. -/
abbrev ByteMask := BitVec 128
/-- One bit for each 4-byte word of a line (R71). -/
abbrev WordMask := BitVec 32
/-- Sparse data by number, in strictly rising order of the number. -/
abbrev Map (α : Type) := List (Nat × α)

/-- Bits [lo+w-1 : lo] of x (R2). -/
abbrev bits (x : BitVec n) (lo w : Nat) : BitVec w := x.extractLsb' lo w

/-- Sign extension to 64 bits (R212). -/
abbrev sext (x : BitVec n) : Word := x.signExtend 64
/-- Zero extension to 64 bits (R212). -/
abbrev zext (x : BitVec n) : Word := x.setWidth 64
/-- 1 or 0 as a word. -/
abbrev ofBool (b : Bool) : Word := if b then 1#64 else 0#64

end Sys2Proof
end

