-- ==== Sys2Proof/Config.lean ====
section
/-! DEFINITION. What the spec gives no value for and a package fixes: fused secrets and the two named cryptographic
functions of R374 and R375, whose results the spec names by standard only. None has a body. -/
namespace Sys2Proof.Config

/-- SHA3-256 of a byte string given as a number and its length in bytes (R374). Assumption 9. -/
opaque sha3 : Nat → Nat → BitVec 256
/-- Whether an ML-DSA-44 signature verifies under FIPS 204: key, message, signature, as numbers (R374). Assumption 9. -/
opaque mldsaVerify : Nat → Nat → Nat → Bool
/-- The public key that ML-DSA-44 key generation gives for a seed (R375). Assumption 9. -/
opaque mldsaKeygen : BitVec 256 → Nat
/-- The signature that the key of a seed gives a message (R376). Assumption 9. -/
opaque mldsaSign : BitVec 256 → Nat → Nat
/-- The 32-byte fused secret of package p (R375). Assumption 9. -/
opaque uds : Nat → BitVec 256
/-- The vendor key hash in the fuses (R374). Assumption 9. -/
opaque vendorKeyHash : BitVec 256
/-- The firmware image (its header and payload as one number) that package p holds for measurement register n. Assumption 9. -/
opaque firmware : Nat → Nat → Nat

/-- The digest that the boot ROM of package p measures of itself (R374, R375). Assumption 9. -/
opaque romDigest : Nat → BitVec 256
/-- Fiquin's signature of the DeviceID certificate of package p, made at manufacture (R375). Assumption 9. -/
opaque makerSig : Nat → Nat
/-- The key of a kind (0: CXL IDE, 1: UEC transport) that package p derives in a session, after so many answers (R376). Assumption 9. -/
opaque sessionKey : Nat → Nat → Nat → BitVec 256

/-- What TRAPVAL holds when the lone TASKQ meets an input set at this record pointer that is bad with no handle to name (R301).
Assumption 10. -/
opaque badSetVal : Word → Word

/-- Bit [1] of what CSTEP and CDISS return on a tile at a boundary that a lost member leaves incomplete (R125, R127).
Assumption 11. -/
opaque anyAtLoss : Nat → Nat → Bool

/-- What a byte of memory that nothing has written reads as. Assumption 1. -/
def unwrittenByte : BitVec 8 := 0#8

end Sys2Proof.Config
end

