-- ==== Sys2Proof/Syntax.lean ====
section
/-! DEFINITION. The instructions and events of the opcode table, one constructor a row (R189 to R206 give the fields
of the encoded ones; the event rows are performed by the agenda and have no encoding). Field records keep every bit of a
word that the opcode itself does not fix, so that nothing is lost between a word and its instruction. -/
namespace Sys2Proof

/-- Format C.R (R192): X, d, a and b; fn is the constructor's. -/
structure CR where
  x : Bool
  d : BitVec 5
  a : BitVec 5
  b : BitVec 5
  deriving DecidableEq, Repr

/-- Format C.I (R192). -/
structure CI where
  x : Bool
  d : BitVec 5
  a : BitVec 5
  imm : BitVec 14
  deriving DecidableEq, Repr

/-- Format C.B (R192). -/
structure CB where
  x : Bool
  a : BitVec 5
  b : BitVec 5
  off : BitVec 14
  deriving DecidableEq, Repr

/-- Format C.M (R192, R193). -/
structure CM where
  x : Bool
  d : BitVec 5
  a : BitVec 5
  sz : BitVec 3
  off : BitVec 11
  deriving DecidableEq, Repr

/-- AMO (R197): format C.R with fn split into the constructor's op, an order and a size. -/
structure AF where
  x : Bool
  d : BitVec 5
  a : BitVec 5
  b : BitVec 5
  order : BitVec 2
  size : BitVec 2
  deriving DecidableEq, Repr

/-- Format C.F (R192, R198); sub is the constructor's. -/
structure CF where
  x : Bool
  d : BitVec 5
  a : BitVec 5
  b : BitVec 5
  p5 : BitVec 5
  deriving DecidableEq, Repr

/-- An A-word (R200): stall count, mask select, type, destination and source codes. -/
structure AW where
  w : BitVec 3
  k : BitVec 2
  t : BitVec 3
  d : BitVec 6
  a : BitVec 6
  b : BitVec 6
  deriving DecidableEq, Repr

/-- A lone unit (R205); LOP is the constructor's. -/
structure LF where
  x : Bool
  ra : BitVec 5
  rb : BitVec 5
  f0 : BitVec 12
  w : BitVec 3
  rc : BitVec 5
  f1 : BitVec 24
  deriving DecidableEq, Repr

/-- The CSR number of SYSR and SYSW (R198): cat(b, p5). -/
def CF.csr (f : CF) : Nat := f.b.toNat * 32 + f.p5.toNat

/-- imm32 of a lone unit (R205): cat(f0[7:0], f1). -/
def LF.imm32 (f : LF) : BitVec 32 := f.f0.extractLsb' 0 8 ++ f.f1

/-- One constructor for each row of the opcode table. In the event rows t names a tile (package * 4096 + tile number),
c a context of it, dev a package, gl a global line number and h a held request. -/
inductive Instr where
  /-- R194: Empty C-word that does nothing. -/
  | cnop
  /-- R215: Writes s[a] + s[b] modulo 2^64. -/
  | add (f : CR)
  /-- R215: Writes s[a] - s[b] modulo 2^64. -/
  | sub (f : CR)
  /-- R215: Writes the bitwise AND of s[a] and s[b]. -/
  | and (f : CR)
  /-- R215: Writes the bitwise OR of s[a] and s[b]. -/
  | or (f : CR)
  /-- R215: Writes the bitwise XOR of s[a] and s[b]. -/
  | xor (f : CR)
  /-- R215: Writes s[a] AND NOT s[b]. -/
  | andn (f : CR)
  /-- R215: Shifts s[a] left by s[b][5:0], filling with zeros. -/
  | shl (f : CR)
  /-- R215: Shifts s[a] right by s[b][5:0], filling with zeros. -/
  | shr (f : CR)
  /-- R215: Shifts s[a] right by s[b][5:0], filling with copies of bit 63. -/
  | sar (f : CR)
  /-- R215: Writes the low 64 bits of the product. -/
  | mul (f : CR)
  /-- R215: Writes the high 64 bits of the signed product. -/
  | mulh (f : CR)
  /-- R215: Writes the high 64 bits of the unsigned product. -/
  | mulhu (f : CR)
  /-- R216: Signed quotient rounded toward zero; division by zero sets DZ. -/
  | div (f : CR)
  /-- R216: Unsigned quotient; division by zero sets DZ. -/
  | divu (f : CR)
  /-- R216: Signed remainder with the sign of the dividend. -/
  | rem (f : CR)
  /-- R216: Unsigned remainder. -/
  | remu (f : CR)
  /-- R215: Writes the signed minimum. -/
  | min (f : CR)
  /-- R215: Writes the signed maximum. -/
  | max (f : CR)
  /-- R215: Writes the unsigned minimum. -/
  | minu (f : CR)
  /-- R215: Writes the unsigned maximum. -/
  | maxu (f : CR)
  /-- R215: Writes 1 if s[a] < s[b] as signed values. -/
  | slt (f : CR)
  /-- R215: Writes 1 if s[a] < s[b] as unsigned values. -/
  | sltu (f : CR)
  /-- R215: Writes 1 if s[a] = s[b]. -/
  | seq (f : CR)
  /-- R215: Counts the leading zero bits of s[a]. -/
  | clz (f : CR)
  /-- R215: Counts the trailing zero bits of s[a]. -/
  | ctz (f : CR)
  /-- R215: Counts the one bits of s[a]. -/
  | popc (f : CR)
  /-- R215: Writes s[a] into s[d] if s[b] is nonzero. -/
  | csel (f : CR)
  /-- R219: Adds a signed integer to the address bits of a pointer; carry out takes PTROVF. -/
  | padd (f : CR)
  /-- R219: Subtracts a signed integer from the address bits of a pointer. -/
  | psub (f : CR)
  /-- R217: Extracts a bit field, optionally sign-extended. -/
  | bfx (f : CR)
  /-- R218: Adds a sign-extended 14-bit immediate. -/
  | addi (f : CI)
  /-- R218: ANDs with a sign-extended immediate. -/
  | andi (f : CI)
  /-- R218: ORs with a sign-extended immediate. -/
  | ori (f : CI)
  /-- R218: XORs with a sign-extended immediate. -/
  | xori (f : CI)
  /-- R218: Signed compare with an immediate. -/
  | slti (f : CI)
  /-- R218: Unsigned compare with an immediate. -/
  | sltiu (f : CI)
  /-- R218: Shifts left by an immediate count of 0 to 63. -/
  | shli (f : CI)
  /-- R218: Shifts right logically by an immediate count. -/
  | shri (f : CI)
  /-- R218: Shifts right arithmetically by an immediate count. -/
  | sari (f : CI)
  /-- R219: Adds a signed byte immediate to a pointer's address bits. -/
  | paddi (f : CI)
  /-- R220: Writes the FMT, BLOG and SPACE tags of a pointer and keeps its address. -/
  | ptag (f : CI)
  /-- R222: Branches if s[a] = s[b]. -/
  | beq (f : CB)
  /-- R222: Branches if s[a] differs from s[b]. -/
  | bne (f : CB)
  /-- R222: Branches if s[a] < s[b], signed. -/
  | blt (f : CB)
  /-- R222: Branches if s[a] >= s[b], signed. -/
  | bge (f : CB)
  /-- R222: Branches if s[a] < s[b], unsigned. -/
  | bltu (f : CB)
  /-- R222: Branches if s[a] >= s[b], unsigned. -/
  | bgeu (f : CB)
  /-- R223: Decrements s[a] and branches while the new value is nonzero. -/
  | loop (f : CB)
  /-- R224: Jumps to a register target plus 8n and writes a link. -/
  | jr (f : CI)
  /-- R228: Loads from local space (space 1). -/
  | ldl (f : CM)
  /-- R228: Stores to local space (space 1). -/
  | stl (f : CM)
  /-- R228: Global load whose destination stays pending until a covering QWAIT. -/
  | ldg (f : CM)
  /-- R228: Global store, delivering store to a pip, or reduce-aperture store. -/
  | stg (f : CM)
  /-- R229: Load that acquires and flashes the tile's unowned words. -/
  | ldacq (f : CM)
  /-- R229: Store performed as a release after earlier loads and grants. -/
  | strel (f : CM)
  /-- R231: Atomic add at the word's home. -/
  | amoadd (f : AF)
  /-- R231: Atomic bitwise AND. -/
  | amoand (f : AF)
  /-- R231: Atomic bitwise OR. -/
  | amoor (f : AF)
  /-- R231: Atomic bitwise XOR. -/
  | amoxor (f : AF)
  /-- R231: Atomic signed minimum. -/
  | amomin (f : AF)
  /-- R231: Atomic signed maximum. -/
  | amomax (f : AF)
  /-- R231: Atomic unsigned minimum. -/
  | amominu (f : AF)
  /-- R231: Atomic unsigned maximum. -/
  | amomaxu (f : AF)
  /-- R231: Atomic swap. -/
  | amoswp (f : AF)
  /-- R231: Atomic compare-and-swap against s[d]. -/
  | amocas (f : AF)
  /-- R231: Atomic f32 add under RNE. -/
  | amofadd (f : AF)
  /-- R231: Atomic f32 maximum. -/
  | amofmax (f : AF)
  /-- R233: Acquire: flash the tile's unowned words. -/
  | acq (f : CF)
  /-- R233: Release: waits for earlier loads' values and stores' grants. -/
  | rel (f : CF)
  /-- R233: Release, then acquire, then refetch of fetched unissued units. -/
  | fence (f : CF)
  /-- R234: Waits until at most n of the context's loads are outstanding. -/
  | qwait (f : CF)
  /-- R235: Writes a value into one of the context's mailboxes. -/
  | mbw (f : CF)
  /-- R235: Blocks until the mailbox is full, then reads value and tag and empties it. -/
  | mbr (f : CF)
  /-- R235: Reads the FULL bit of a mailbox. -/
  | mbtest (f : CF)
  /-- R246: Waits for earlier commits and traps ARITH if a masked flag is set. -/
  | tfence (mask : BitVec 11)
  /-- R238: Initialises a local or global barrier's counts and phase. -/
  | binit (f : CF)
  /-- R238: Changes a barrier's expected counts for the next reload. -/
  | bexpect (f : CF)
  /-- R239: Releases, then sends one arrival to a barrier. -/
  | barrive (f : CF)
  /-- R240: Blocks until a barrier has an unobserved phase, then acquires. -/
  | bwait (f : CF)
  /-- R241: Tests a barrier for an unobserved phase without waiting. -/
  | btest (f : CF)
  /-- R242: Finds and observes the next local barrier of a mask with an unobserved phase. -/
  | bwany (f : CF)
  /-- R243: Tests whether every chunk of a mask has landed. -/
  | chtest (f : CF)
  /-- R243: Blocks until every chunk of a mask has landed, then acquires them. -/
  | chwait (f : CF)
  /-- R243: Clears the chunk bits of a mask. -/
  | chclr (f : CF)
  /-- R289: Allocates a landing slot at a requested local offset and returns its handle. -/
  | lsalloc (f : CF)
  /-- R290: Frees a landing slot and advances its generation. -/
  | lsfree (f : CF)
  /-- R291: Mints a pip bound to a mailbox with a lifetime. -/
  | pmint (f : CF)
  /-- R292: Drops a live pip of this context. -/
  | pdrop (f : CF)
  /-- R293: Reports whether a pip is live, landed or spent. -/
  | pstat (f : CF)
  /-- R285: Starts a copy channel's walk of a transfer-record chain. -/
  | cpych (f : CF)
  /-- R286: Reads the status word of a channel or of the direct queue. -/
  | cpystat (f : CF)
  /-- R285: Waits until a channel or the context's direct transfers are done, then acquires. -/
  | cpywait (f : CF)
  /-- R287: Stops a running channel or the context's direct transfers with KILLED. -/
  | cpykill (f : CF)
  /-- R294: Sets up or arms a store tracker from a descriptor. -/
  | trkset (f : CF)
  /-- R295: Returns a store tracker to FREE. -/
  | trkclr (f : CF)
  /-- R296: Starts a helper context with entry, argument, banks and priority. -/
  | hstart (f : CF)
  /-- R298: Ends a helper, committing its tentative writes and held arrivals. -/
  | hend (f : CF)
  /-- R299: Waits until a helper has ended and reports how. -/
  | hjoin (f : CF)
  /-- R300: Removes a helper and discards its tentative writes. -/
  | hkill (f : CF)
  /-- R301: Pair form: queues a task in the task gate and returns a status. -/
  | taskq (f : CF)
  /-- R301: Lone form: queues a task, stalling while the gate is full. -/
  | taskqLone (f : LF)
  /-- R303: Requests a gang of cluster members and waits until all have asked. -/
  | gfuse (f : CF)
  /-- R304: Dissolves the gang. -/
  | gsplit (f : CF)
  /-- R122: Checks, pins and binds a member's ranges and signs the compact. -/
  | csign (f : CF)
  /-- R125: Ends a superstep: publishes, runs the chain, arrives at the tree and acquires. -/
  | cstep (f : CF)
  /-- R126: Performs a final boundary and dissolves the compact line by line. -/
  | cdiss (f : CF)
  /-- R306: Releases and sends 56 bytes to a control context's receive ring. -/
  | send (f : CF)
  /-- R307: Blocks until a message is held, copies it out and acquires. -/
  | recv (f : CF)
  /-- R307: Like RECV but waits at most s[b] cycles. -/
  | recvt (f : CF)
  /-- R308: Pair form: starts a collective program from an argument block. -/
  | coll (f : CF)
  /-- R308: Lone form: starts a collective program from registers. -/
  | collLone (f : LF)
  /-- R309: Waits for a collective to complete, reports its status and acquires its buffers. -/
  | cwait (f : CF)
  /-- R283: Opens a matrix chain, ordered or not, and resets RSTEP. -/
  | mbegin (f : CF)
  /-- R283: Closes the open matrix chain. -/
  | mend (f : CF)
  /-- R283: Clears an accumulator bank to EMPTY. -/
  | mzero (f : CF)
  /-- R283: Waits until every earlier matrix command has retired. -/
  | msync (f : CF)
  /-- R277: Multiplies A by B slices into an accumulator bank over k-steps. -/
  | mma (f : LF)
  /-- R279: Loads one or two B slices into free latch buffers. -/
  | mldb (f : LF)
  /-- R280: Hands the consume buffer to the next ring member without accumulating. -/
  | mrot (f : LF)
  /-- R281: Writes a bank's 32x64 values with conversion and optional block scales. -/
  | mstore (f : LF)
  /-- R282: Reads 2,048 values into a bank. -/
  | mload (f : LF)
  /-- R63: The matrix engine completes one k-step of an accepted command and accumulates it. -/
  | matrixKstep (t : Nat)
  /-- R154: A consumed latch buffer arrives at the next ring member's receive buffer, or is refused. -/
  | ringHandover (t : Nat)
  /-- R160: A fault met after acceptance is taken by the control context at its next unit boundary. -/
  | matrixTrap (t : Nat)
  /-- R312: Traps with cause ECALL. -/
  | ecall (f : CF)
  /-- R343: Returns from a trap, resuming a held long instruction or command. -/
  | eret (f : CF)
  /-- R313: Reads a CSR after earlier units commit. -/
  | sysr (f : CF)
  /-- R313: Writes a CSR that has no behaviour of its own. -/
  | sysw (f : CF)
  /-- R314: Deschedules the control context until a listed event occurs. -/
  | waiti (f : CF)
  /-- R314: Makes the context ineligible for 16 cycles while others are ready. -/
  | yield (f : CF)
  /-- R312: Traps with cause BRK. -/
  | brk (f : CF)
  /-- R315: Ends the control context and the tile's part in its launch. -/
  | halt (f : CF)
  /-- R316: Fires the package snapshot trigger. -/
  | snap (f : CF)
  /-- R40: Invalidates a page's translations and unpinned lines in the issuing tile's region. -/
  | tlbinv (f : CF)
  /-- R117: Changes the tile's pin limit. -/
  | resize (f : CF)
  /-- R47: Clears a poisoned line to zero at its home. -/
  | lineclr (f : CF)
  /-- R318: Writes back a local-array line's dirty words. -/
  | cwb (f : CF)
  /-- R318: Writes back and invalidates a line, also in the instruction cache. -/
  | cinv (f : CF)
  /-- R320: Moves the halted tile image out of the shadow bank. -/
  | ctxsave (f : CF)
  /-- R320: Copies an image into the shadow bank for restore. -/
  | ctxload (f : CF)
  /-- R319: Halts and saves every tile of a live partition. -/
  | preempt (f : CF)
  /-- R236: Reads a mask register. -/
  | kget (f : CF)
  /-- R236: Writes a mask register. -/
  | kset (f : CF)
  /-- R268: Reserves a data-queue entry and fetches a vector ahead. -/
  | vld (f : CM)
  /-- R269: Probes and pushes a vector store address. -/
  | vsta (f : CM)
  /-- R139: A paired VSTA and VSTD is performed as a store once both are present. -/
  | vstorePair (t : Nat) (c : Nat)
  /-- R221: Loads a sign-extended 32-bit immediate. -/
  | li (f : LF)
  /-- R221: Loads the upper 32 bits of a register. -/
  | lih (f : LF)
  /-- R225: Jumps by a 32-bit unit offset. -/
  | j (f : LF)
  /-- R225: Jumps and links. -/
  | jal (f : LF)
  /-- R221: Loads a PC-relative space-0 address. -/
  | lia (f : LF)
  /-- R284: Places one direct transfer in the copy engine's queue. -/
  | cpy (f : LF)
  /-- R271: Gathers 4-byte words by index into a data-queue entry, resumable at PIX. -/
  | vgather (f : LF)
  /-- R272: Scatters data lanes by index in lane order, resumable at PIX. -/
  | vscatter (f : LF)
  /-- R200: Empty A-word that counts as an issue. -/
  | anop (w : BitVec 3)
  /-- R251: Element-wise integer add. -/
  | vadd (f : AW)
  /-- R251: Element-wise integer subtract. -/
  | vsub (f : AW)
  /-- R251: Low half of element-wise product. -/
  | vmul (f : AW)
  /-- R251: High half of element-wise product. -/
  | vmulh (f : AW)
  /-- R251: Element-wise integer minimum. -/
  | vmin (f : AW)
  /-- R251: Element-wise integer maximum. -/
  | vmax (f : AW)
  /-- R251: Bitwise AND. -/
  | vand (f : AW)
  /-- R251: Bitwise OR. -/
  | vor (f : AW)
  /-- R251: Bitwise XOR. -/
  | vxor (f : AW)
  /-- R251: Bitwise AND NOT. -/
  | vandn (f : AW)
  /-- R251: Element-wise shift left. -/
  | vshl (f : AW)
  /-- R251: Element-wise logical shift right. -/
  | vshr (f : AW)
  /-- R251: Element-wise arithmetic shift right. -/
  | vsar (f : AW)
  /-- R251: Element-wise absolute value. -/
  | vabs (f : AW)
  /-- R251: Element-wise leading-zero count. -/
  | vclz (f : AW)
  /-- R251: Element-wise population count. -/
  | vpopc (f : AW)
  /-- R251: Saturating add. -/
  | vadds (f : AW)
  /-- R251: Saturating subtract. -/
  | vsubs (f : AW)
  /-- R252: Floating add, rounded once. -/
  | vfadd (f : AW)
  /-- R252: Floating subtract. -/
  | vfsub (f : AW)
  /-- R252: Floating multiply. -/
  | vfmul (f : AW)
  /-- R253: Fused multiply-add into the destination's old value. -/
  | vfma (f : AW)
  /-- R252: Floating minimum. -/
  | vfmin (f : AW)
  /-- R252: Floating maximum. -/
  | vfmax (f : AW)
  /-- R254: Correctly rounded reciprocal. -/
  | vrcp (f : AW)
  /-- R254: Correctly rounded reciprocal square root. -/
  | vrsq (f : AW)
  /-- R254: Correctly rounded exp2. -/
  | vexp2 (f : AW)
  /-- R254: Correctly rounded log2. -/
  | vlog2 (f : AW)
  /-- R254: Correctly rounded square root. -/
  | vsqrt (f : AW)
  /-- R255: Converts elements between types with rounding and overflow policy. -/
  | vcvt (f : AW)
  /-- R204: Escape form with DT = T converting to or from the narrow formats, unmasked. -/
  | vcvtNarrow (f : AW)
  /-- R256: Produces a mask of equal lanes. -/
  | vceq (f : AW)
  /-- R256: Produces a mask of unequal lanes. -/
  | vcne (f : AW)
  /-- R256: Produces a mask of less-than lanes. -/
  | vclt (f : AW)
  /-- R256: Produces a mask of less-or-equal lanes. -/
  | vcle (f : AW)
  /-- R257: Selects lanes of A or B by the mask-select field. -/
  | vsel (f : AW)
  /-- R259: Sum reduction in the fixed pairwise tree. -/
  | vrsum (f : AW)
  /-- R259: Maximum reduction. -/
  | vrmax (f : AW)
  /-- R259: Minimum reduction. -/
  | vrmin (f : AW)
  /-- R262: Permutes lanes by index. -/
  | vshuf (f : AW)
  /-- R262: Rotates lanes. -/
  | vrotl (f : AW)
  /-- R262: Broadcasts one lane. -/
  | vbcast (f : AW)
  /-- R263: Compresses the selected lanes downward. -/
  | vcompr (f : AW)
  /-- R263: Expands consecutive lanes into the selected lanes. -/
  | vexpnd (f : AW)
  /-- R265: Merges the heads of 16 attention partials and leaves a coefficient. -/
  | vtmrg (f : AW)
  /-- R266: Merges weighted vectors using the coefficient. -/
  | vtscl (f : AW)
  /-- R264: Hashes keys with fmix and a seed. -/
  | vhash (f : AW)
  /-- R264: Maps hashes to buckets 0..n-1. -/
  | vpart (f : AW)
  /-- R264: Counter-based random numbers per lane. -/
  | vrng (f : AW)
  /-- R260: Inclusive prefix sums from the reduction tree. -/
  | vscan (f : AW)
  /-- R261: Ranks active lanes' keys. -/
  | vrank (f : AW)
  /-- R269: Pushes vector store data with a lane mask. -/
  | vstd (f : AW)
  /-- R258: Makes a mask of nonzero lanes. -/
  | vmkmask (f : AW)
  /-- R258: AND of two masks. -/
  | kand (f : AW)
  /-- R258: OR of two masks. -/
  | kor (f : AW)
  /-- R258: XOR of two masks. -/
  | kxor (f : AW)
  /-- R258: AND NOT of two masks. -/
  | kandn (f : AW)
  /-- R258: Complement of a mask. -/
  | knot (f : AW)
  /-- R258: Counts the one bits of a mask into every lane. -/
  | kpopc (f : AW)
  /-- R244: Writing FLAGS sets all eleven flags and clears FIRSTPC.V. -/
  | syswFlags (f : CF)
  /-- R153: Writing RINGCFG waits for an idle engine, empties both latch buffers and zeroes RSTEP. -/
  | syswRingcfg (f : CF)
  /-- R305: Writing RECVBASE sets the ring base and empties the ring. -/
  | syswRecvbase (f : CF)
  /-- R305: Writing RECVSIZE sets the ring size and empties the ring. -/
  | syswRecvsize (f : CF)
  /-- R305: Writing 1 to RECVTAIL.CLR empties the receive ring. -/
  | recvtailClr (f : CF)
  /-- R364: Begins draining every old path of the Gloam fabric. -/
  | glDrainGo (f : CF)
  /-- R364: Requests a relock of the shadow tables at rotation AT. -/
  | glRelockGo (f : CF)
  /-- R365: Withdraws a lane, or asks a FAILED lane to retrain. -/
  | glLanestatEn (f : CF)
  /-- R363: Stops or resumes granting allowance to a source position. -/
  | glAllowWithhold (f : CF)
  /-- R325: Host write to YQTBASE sets the queue table and enables or disables Yarrow's service. -/
  | yqtbaseWrite (dev : Nat) (v : Word)
  /-- R377: Host write accepting features, effective only while Yarrow is disabled. -/
  | featackWrite (dev : Nat) (v : Word)
  /-- R344: A stopped helper's trap is taken by the control context at its next unit boundary. -/
  | helpertrap (t : Nat)
  /-- R353: Quarantines a tile: pre-empts, shifts the row's map and moves the shifted tiles' state. -/
  | quarantine (t : Nat) (arrayError : Bool)
  /-- R355: A consumed uncorrectable error fences, records and resets the tile's rectangle. -/
  | fenceRectangle (t : Nat) (cause : Nat)
  /-- R355: A fenced rectangle's tiles become ready for placement again. -/
  | rectangleReady (t : Nat)
  /-- R77: The home serves a READ: recalls owners of the span and returns it. -/
  | homeRead (t : Nat) (gl : Nat) (mask : WordMask)
  /-- R77: The home serves a REGISTER: write-recalls owners, invalidates copies and grants ownership. -/
  | homeRegister (t : Nat) (gl : Nat) (mask : WordMask)
  /-- R77: The home writes back dirty words and clears them from the sender's record. -/
  | homeWriteback (t : Nat) (gl : Nat) (mask : WordMask)
  /-- R77: The home clears returned words from the sender's record. -/
  | homeReturn (t : Nat) (gl : Nat) (mask : WordMask)
  /-- R86: The home recalls the word's owner and performs an atomic. -/
  | homeAmo (t : Nat) (addr : Nat) (op : Nat) (dbl : Bool) (x : Word) (cmp : Word)
  /-- R73: An owner tile answers a read recall, writing back dirty words. -/
  | readRecall (t : Nat) (gl : Nat) (mask : WordMask)
  /-- R73: An owner tile answers a write recall and invalidates the words. -/
  | writeRecall (t : Nat) (gl : Nat) (mask : WordMask)
  /-- R79: A grant returns to the storing tile, completing the registration. -/
  | registerGrant (h : Nat)
  /-- R72: A fill arrives at a tile and is installed, evicting aliases of the same physical line. -/
  | fillReturn (t : Nat) (c : Nat) (gl : Nat) (va : Nat) (perm : BitVec 3)
  /-- R84: A visitor slice receives an invalidation or recall of a remote line. -/
  | remoteInvalidate (dev : Nat) (gl : Nat)
  /-- R85: An Ultra Ethernet operation packet is served at the target home as one access. -/
  | operationPacket (t : Nat) (gl : Nat) (mask : ByteMask) (data : LineData)
  /-- R87: A host read through CXL.mem read-recalls owners at the home. -/
  | hostRead (gl : Nat)
  /-- R87: A host write or read for ownership write-recalls owners and records HOSTC. -/
  | hostWrite (gl : Nat) (own : Bool) (mask : ByteMask) (data : LineData)
  /-- R42: A host snoop reaches the proxy, which recalls and writes back owners' words first. -/
  | hostSnoop (gl : Nat)
  /-- R43: The host answers a back-invalidate snoop and the waiting tile request completes. -/
  | backInvalidateAnswer (gl : Nat) (mask : ByteMask) (data : LineData)
  /-- R367: Loss of the CXL link: host lines poisoned, host accesses UNREACH, host queues stop. -/
  | cxlLinkDown (dev : Nat)
  /-- R367: The CXL link retrains and host-window accesses are served again. -/
  | cxlLinkUp (dev : Nat)
  /-- R298: A home commits a helper's tentative writes and answers deferred reads. -/
  | tentativeCommit (t : Nat) (c : Nat)
  /-- R300: A home discards a killed helper's tentative writes. -/
  | tentativeDiscard (t : Nat) (c : Nat)
  /-- R39: A page walk finishes and fills the TLBs of every joined slice. -/
  | walkComplete (dev : Nat) (region : Nat) (n : Nat)
  /-- R27: The scrubber reads and corrects each stack's words once every 24 hours. -/
  | patrolScrub (gl : Nat) (bad : Bool)
  /-- R92: The copy engine moves one 512-byte piece of a transfer and credits it. -/
  | copyPiece (t : Nat) (ch : Nat)
  /-- R96: A transfer record ends: status written, OWN cleared, the walk continues or stops. -/
  | recordComplete (t : Nat) (ch : Nat)
  /-- R96: A direct transfer ends and reports its code in the direct status. -/
  | directTransferDone (t : Nat)
  /-- R101: Bytes land in a landing slot; when verified the chunk bit is set and barriers credited. -/
  | slotLanding (t : Nat) (slot : Nat) (gen : Nat) (chunk : Nat) (mask : BitVec 512) (data : BitVec 4096)
  /-- R104: A barrier applies an arrival or byte credit, flipping the phase when both counts reach 0. -/
  | barrierUpdate (glob : Bool) (a : Nat) (arr : Bool) (bytes : Nat)
  /-- R109: The version word is raised to odd once even, serialising AON writers. -/
  | aonVersionRaise (a : Nat)
  /-- R113: A home's report of granted bytes in a tracker's range raises its count. -/
  | trackerReport (cl : Nat) (gl : Nat) (mask : ByteMask)
  /-- R113: A held CHAIN start takes the channel when it stops running. -/
  | trackerHeldStart (t : Nat) (ch : Nat)
  /-- R122: The coordinator serves a signature; the last one forms the compact. -/
  | compactSignature (t : Nat)
  /-- R126: The coordinator serves a pre-empted member's withdrawal. -/
  | compactWithdrawal (t : Nat)
  /-- R125: A member's arrival reaches the compact's barrier tree. -/
  | compactTreeArrival (t : Nat) (own : Bool)
  /-- R127: Loss of a member is reported to every other member's barrier tree. -/
  | memberLoss (t : Nat)
  /-- R175: A delivering store reaches a pip slot and is accepted or refused. -/
  | pipDelivery (t : Nat) (slot : Nat) (gen : Nat) (v : Word) (poison : Bool)
  /-- R175: A live pip passes its expiry time. -/
  | pipExpiry (t : Nat) (slot : Nat)
  /-- R175: A quarantined pip slot becomes free 64 us after entry. -/
  | pipQuarEnd (t : Nat) (slot : Nat)
  /-- R352: An END message at ORIGIN ends the moved context's pip slots. -/
  | pipEnd (origin : Nat) (t : Nat)
  /-- R306: A SEND reaches the receiver, which stores it in its ring or refuses it. -/
  | messageArrival (t : Nat) (sender : Word) (body : BitVec 448)
  /-- R307: A RECVT's count of cycles expires with no message. -/
  | recvtTimeout (t : Nat)
  /-- R310: Vetch executes one step of a collective program. -/
  | vetchStep (dev : Nat) (region : Nat) (id : Nat)
  /-- R181: A verified contribution reaches a receiving step and is applied once. -/
  | contributionArrival (dev : Nat) (region : Nat) (id : Nat)
  /-- R183: Vetch applies an aperture store to a buffer and forwards multicasts. -/
  | apertureApply (dev : Nat) (region : Nat) (id : Nat) (inst : Nat) (op : Nat) (buf : Nat) (off : Nat) (len : Nat) (data : BitVec 2048)
  /-- R172: A receiver checks a span's tag, releasing its effects or asking again. -/
  | spanReceive (h : Nat) (ok : Bool)
  /-- R359: A fabric slot begins and matched ports send queued flits. -/
  | slotEdge (dev : Nat) (k : Nat)
  /-- R363: A receiver returns allowance for consumed flits. -/
  | allowanceReturn (dev : Nat) (pos : Nat) (n : Nat)
  /-- R364: A drain marker arrives; when all have, the device goes DARK. -/
  | drainMarker (dev : Nat) (src : Nat)
  /-- R364: 1 ms passes in DRAIN and the device goes DARK with TIMEOUT. -/
  | drainTimeout (dev : Nat)
  /-- R364: At rotation AT the shadow tables are copied to active and locking starts. -/
  | relockRotation (dev : Nat)
  /-- R364: Within two rotations entries lock or fail and the device returns to RUN. -/
  | relockDone (dev : Nat) (locked : BitVec 64)
  /-- R365: In the idle port-slot PEND lanes are withdrawn and retrained. -/
  | laneRetrain (dev : Nat) (lane : Nat)
  /-- R365: A retrained lane is handed back after the next guard interval. -/
  | laneHandback (dev : Nat) (lane : Nat) (locked : Bool)
  /-- R327: A snoop or notification on a tail line makes Yarrow reread the tail and take records. -/
  | tailWake (dev : Nat) (q : Nat)
  /-- R331: Yarrow serves the highest-class eligible head, starting it or making it the reserver. -/
  | launchSelect (dev : Nat)
  /-- R331: An eligible head's effective class rises after each AGE interval. -/
  | launchAging (dev : Nat) (q : Nat)
  /-- R333: A placeable record starts its control contexts on every tile of the shape. -/
  | launchStart (dev : Nat) (q : Nat)
  /-- R329: A forwarded FORM 2 or 3 record reaches another device's Yarrow. -/
  | launchForward (dev : Nat) (pid : Nat)
  /-- R330: Yarrow writes the completion word after every tile has halted or on refusal. -/
  | launchComplete (pid : Nat)
  /-- R350: Yarrow starts a save-service context on a tile whose save store holds an image. -/
  | saveServiceStart (t : Nat)
  /-- R352: A pre-empted partition resumes from its images. -/
  | partitionResume (pid : Nat)
  /-- R335: The task gate starts the oldest eligible task as a helper. -/
  | taskStart (t : Nat)
  /-- R336: A context ready for 256 cycles without issuing rises one level. -/
  | issuePriorityRaise (t : Nat) (c : Nat) (aSlot : Bool)
  /-- R314: The 16 cycles of a YIELD end and the context becomes eligible again. -/
  | yieldExpiry (t : Nat) (c : Nat)
  /-- R373: Reset runs the boot stages and releases the tiles. -/
  | powerOnReset (dev : Nat)
  /-- R376: SPDM request answered by the device. -/
  | getVersion (dev : Nat)
  /-- R376: SPDM request answered by the device. -/
  | getCapabilities (dev : Nat)
  /-- R376: SPDM request selecting ML-DSA-44 and SHA3-256. -/
  | negotiateAlgorithms (dev : Nat) (offer : Nat)
  /-- R376: SPDM request for certificate digests. -/
  | getDigests (dev : Nat)
  /-- R376: SPDM request for a certificate chain. -/
  | getCertificate (dev : Nat)
  /-- R376: SPDM challenge signed by the Alias key. -/
  | challenge (dev : Nat) (nonce : Nat)
  /-- R376: SPDM request returning measurement blocks 0 to 7. -/
  | getMeasurements (dev : Nat) (nonce : Nat)
  /-- R376: SPDM session key exchange. -/
  | keyExchange (dev : Nat) (nonce : Nat)
  /-- R376: SPDM session establishment finish. -/
  | finish (dev : Nat)
  /-- R376: SPDM session key update started by the requester. -/
  | keyUpdate (dev : Nat)
  /-- R376: SPDM session heartbeat. -/
  | heartbeat (dev : Nat)
  /-- R376: SPDM session end. -/
  | endSession (dev : Nat)
  /-- R374: PLDM firmware update, possibly burning a higher fused SVN. -/
  | pldmFirmwareUpdate (dev : Nat) (kind : Nat) (image : Nat) (burn : Bool)
  /-- R381: PLDM command setting the package power cap. -/
  | pldmSetPcap (dev : Nat) (watts : Nat)
  /-- R380: A PLDM or fabric trigger latches the snapshot registers or counts a drop. -/
  | snapTrigger (dev : Nat)
  /-- R380: Reading the snapshot set over PLDM clears SNAPV. -/
  | snapRead (dev : Nat)
  /-- R379: The management controller sends the next queued event record. -/
  | mgmtEventSend (dev : Nat)
  /-- R381: Each 1 ms window the clock is stepped to keep average power within the cap. -/
  | powerWindow (dev : Nat) (watts : Nat)
  /-- R381: A die reaching 105 or 115 C forces the lowest clock or removes power. -/
  | thermalTrip (dev : Nat) (celsius : Nat)
  /-- R207: A unit whose C-word, A-word or lone-unit encoding matches no defined instruction traps precisely as ILLEGAL when its stream issues it. -/
  | reservedEncoding (u : Word) (compute : Bool)
  /-- R150: The matrix engine finishes an accepted MLDB, MSTORE, MLOAD or MZERO and retires it in program order, starting the next queued command. -/
  | matrixCommandRetirement (t : Nat)
  /-- R131: A register bank whose holding contexts are all descheduled or halted is placed in retention. -/
  | bankRetention (t : Nat) (c : Nat)
  /-- R379: The IEEE 1588 clock synchronises and sets the TIME that slots, pip expiry and fabric snapshot triggers count from. -/
  | ieee1588Synchronisation (dev : Nat) (ns : Nat)
  /-- R14: The fabric manager assigns the domain and position that the management controller writes into DEVID during bring-up. -/
  | devidAssignment (dev : Nat) (domain : Nat) (pos : Nat)
  deriving DecidableEq, Repr

end Sys2Proof
end

