-- ==== Sys2Proof/WellFormed.lean ====
section
/-! DEFINITION. When an encoded instruction's fields are ones the spec defines (R192 to R207): every reserved value, unused
field that is not 0, range, source or destination code and element type. An encoding whose fields fail here is one of R207's
ILLEGAL encodings. Event rows have no encoding and are always well formed. -/
namespace Sys2Proof

/-- Source codes other than 63 (R201). -/
def srcOk (c : BitVec 6) : Bool := c != 63
/-- Destination codes of every result producer (R202): queue only, queue and vN, queue and mbK, discard. -/
def dstOk (c : BitVec 6) : Bool := c == 0 || (16 ≤ c.toNat && c.toNat ≤ 56)
/-- Destination codes of a mask producer (R202). -/
def dstMaskOk (c : BitVec 6) : Bool := dstOk c || (57 ≤ c.toNat && c.toNat ≤ 59)
/-- Mask codes 56 to 59 (R203): k0 to k3. -/
def kSrcOk (c : BitVec 6) : Bool := 56 ≤ c.toNat && c.toNat ≤ 59
/-- Destination codes of KOP (R203). -/
def kDstOk (c : BitVec 6) : Bool := 48 ≤ c.toNat && c.toNat ≤ 59

/-- Types i32, n32, i16, i8, x64 (R251). -/
def tyInt (t : BitVec 3) : Bool := t == 0 || t == 1 || t.toNat ≥ 5
/-- Every type (R251, R256, R257, R259, R262, R263). -/
def tyAny (_ : BitVec 3) : Bool := true
/-- Types of VABS (R251): all but n32. -/
def tyAbs (t : BitVec 3) : Bool := t != 1
/-- Types f32, bf16, f16 (R252). -/
def tyFloat (t : BitVec 3) : Bool := t == 2 || t == 3 || t == 4
/-- Type f32 only (R148, R265). -/
def tyF32 (t : BitVec 3) : Bool := t == 2
/-- Types i32, n32, x64 (R258, R264). -/
def tyHash (t : BitVec 3) : Bool := t == 0 || t == 1 || t == 7
/-- Types i32, n32 (R264). -/
def tyRng (t : BitVec 3) : Bool := t == 0 || t == 1
/-- Types i32, n32, f32, x64 (R261). -/
def tyRank (t : BitVec 3) : Bool := t == 0 || t == 1 || t == 2 || t == 7
/-- Types of the narrow escape (R204). -/
def tyNarrow (t : BitVec 3) : Bool := t == 2 || t == 3 || t == 4 || t == 6

/-- Shape 2 (R203). -/
def AW.two (f : AW) : Bool := srcOk f.a && srcOk f.b && dstOk f.d
/-- Shape 1 (R203): B is 56. -/
def AW.one (f : AW) : Bool := srcOk f.a && f.b == 56 && dstOk f.d
/-- DT, the destination type of VCVT's control field (R204). -/
def AW.dt (f : AW) : BitVec 3 := f.b.extractLsb' 3 3

/-- G of a barrier instruction (R237). -/
def CF.isGlobal (f : CF) : Bool := f.p5.getLsbD 4
/-- N of a barrier instruction (R237). -/
def CF.localN (f : CF) : Nat := f.p5.toNat % 16

/-- The CSR numbers of R199. -/
def csrAssigned (n : Nat) : Bool :=
  n ≤ 0x00E || (0x010 ≤ n && n ≤ 0x016) || n == 0x018 || n == 0x019 || (0x01C ≤ n && n ≤ 0x020) ||
    (0x200 ≤ n && n ≤ 0x209)
/-- The indexed CSRs of R199. -/
def csrIndexed (n : Nat) : Bool := n == 0x200 || n == 0x203 || n == 0x204 || n == 0x205 || n == 0x208
/-- CSRs whose SYSW is a row of the opcode table of its own. -/
def csrOwnRow (n : Nat) : Bool :=
  n == 0x001 || n == 0x009 || n == 0x00C || n == 0x00D || n == 0x00E || n == 0x204 || n == 0x207 || n == 0x208 || n == 0x209

/-- The fields of the instruction are ones its encoding tables define. -/
def Instr.wf : Instr → Bool
  | .cnop => true
  | .add _ => true
  | .sub _ => true
  | .and _ => true
  | .or _ => true
  | .xor _ => true
  | .andn _ => true
  | .shl _ => true
  | .shr _ => true
  | .sar _ => true
  | .mul _ => true
  | .mulh _ => true
  | .mulhu _ => true
  | .div _ => true
  | .divu _ => true
  | .rem _ => true
  | .remu _ => true
  | .min _ => true
  | .max _ => true
  | .minu _ => true
  | .maxu _ => true
  | .slt _ => true
  | .sltu _ => true
  | .seq _ => true
  | .clz f => f.b == 0
  | .ctz f => f.b == 0
  | .popc f => f.b == 0
  | .csel _ => true
  | .padd _ => true
  | .psub _ => true
  | .bfx _ => true
  | .addi _ => true
  | .andi _ => true
  | .ori _ => true
  | .xori _ => true
  | .slti _ => true
  | .sltiu _ => true
  | .shli f => f.imm.toNat < 64
  | .shri f => f.imm.toNat < 64
  | .sari f => f.imm.toNat < 64
  | .paddi _ => true
  | .ptag f => f.imm.extractLsb' 0 2 == 0
  | .beq _ => true
  | .bne _ => true
  | .blt _ => true
  | .bge _ => true
  | .bltu _ => true
  | .bgeu _ => true
  | .loop f => f.b == 0 && f.a != 0
  | .jr _ => true
  | .ldl f => f.sz != 7
  | .stl f => f.sz.toNat % 2 == 0
  | .ldg f => f.sz != 7
  | .stg f => f.sz.toNat % 2 == 0
  | .ldacq f => f.sz == 4 || f.sz == 6
  | .strel f => f.sz == 4 || f.sz == 6
  | .amoadd f => f.size.toNat < 2
  | .amoand f => f.size.toNat < 2
  | .amoor f => f.size.toNat < 2
  | .amoxor f => f.size.toNat < 2
  | .amomin f => f.size.toNat < 2
  | .amomax f => f.size.toNat < 2
  | .amominu f => f.size.toNat < 2
  | .amomaxu f => f.size.toNat < 2
  | .amoswp f => f.size.toNat < 2
  | .amocas f => f.size.toNat < 2
  | .amofadd f => f.size == 0
  | .amofmax f => f.size == 0
  | .acq f => f.d == 0 && f.a == 0 && f.b == 0 && f.p5 == 0
  | .rel f => f.d == 0 && f.a == 0 && f.b == 0 && f.p5 == 0
  | .fence f => f.d == 0 && f.a == 0 && f.b == 0 && f.p5 == 0
  | .qwait f => f.d == 0 && f.a == 0 && f.b == 0
  | .mbw f => f.d == 0 && f.b == 0 && f.p5.toNat < 8
  | .mbr f => f.a = 0 && f.p5.toNat < 8
  | .mbtest f => f.a == 0 && f.b == 0 && f.p5.toNat < 8
  | .tfence _ => true
  | .binit f => (if f.isGlobal then f.localN == 0 else f.d == 0)
  | .bexpect f => (if f.isGlobal then f.localN == 0 else f.d == 0)
  | .barrive f => f.d == 0 && f.b == 0 && (if f.isGlobal then f.localN == 0 else f.a == 0)
  | .bwait f => (if f.isGlobal then f.localN == 0 else f.d == 0 && f.a == 0 && f.b == 0)
  | .btest f => (if f.isGlobal then f.localN == 0 else f.a == 0 && f.b == 0)
  | .bwany f => f.b == 0 && f.p5 == 0
  | .chtest f => f.p5.toNat < 2
  | .chwait f => f.d == 0 && f.p5.toNat < 2
  | .chclr f => f.d == 0 && f.p5.toNat < 2
  | .lsalloc f => f.a == 0 && f.b.toNat < 4
  | .lsfree f => f.d == 0 && f.b == 0 && f.p5 == 0
  | .pmint f => f.a == 0 && f.b.toNat < 8 && f.p5.toNat ≤ 20
  | .pdrop f => f.d == 0 && f.b == 0 && f.p5 == 0
  | .pstat f => f.b == 0 && f.p5 == 0
  | .cpych f => f.b == 0 && f.p5.toNat < 4
  | .cpystat f => f.a == 0 && f.b == 0 && f.p5.toNat ≤ 4
  | .cpywait f => f.d == 0 && f.a == 0 && f.b == 0 && f.p5.toNat ≤ 4
  | .cpykill f => f.d == 0 && f.a == 0 && f.b == 0 && f.p5.toNat ≤ 4
  | .trkset f => f.b.toNat < 2
  | .trkclr f => f.a == 0 && f.b.toNat < 2
  | .hstart f => f.p5.toNat % 8 ≤ 4
  | .hend f => f.d == 0 && f.a == 0 && f.b == 0 && f.p5 == 0
  | .hjoin f => f.b == 0 && f.p5 == 0
  | .hkill f => f.d == 0 && f.b == 0 && f.p5 == 0
  | .taskq f => f.p5.toNat % 8 ≤ 4
  | .taskqLone f => f.rc == 0 && f.f1 == 0 && f.f0.toNat < 64 && f.f0.toNat % 16 ≤ 4
  | .gfuse f => f.b == 0 && f.p5 == 0
  | .gsplit f => f.d == 0 && f.a == 0 && f.b == 0 && f.p5 == 0
  | .csign f => !f.x && f.b == 0 && f.p5 == 0
  | .cstep f => !f.x && f.b == 0 && f.p5 == 0
  | .cdiss f => !f.x && f.a == 0 && f.b == 0 && f.p5 == 0
  | .send f => f.p5 == 0
  | .recv f => f.b == 0 && f.p5 == 0
  | .recvt f => f.p5 == 0
  | .coll f => f.b == 0 && f.p5 == 0
  | .collLone f => f.f1 == 0
  | .cwait f => f.b == 0 && f.p5 == 0
  | .mbegin f => f.d == 0 && f.a == 0 && f.b == 0 && f.p5.toNat < 2
  | .mend f => f.d == 0 && f.a == 0 && f.b == 0 && f.p5 == 0
  | .mzero f => f.d == 0 && f.a == 0 && f.b == 0 && f.p5.toNat < 2
  | .msync f => f.d == 0 && f.a == 0 && f.b == 0 && f.p5 == 0
  | .mma f => (f.f0.getLsbD 1 || f.rb == 0) && (f.f0.getLsbD 2 || f.f0.extractLsb' 6 6 == 0 || f.rc == 0)
  | .mldb f => f.rb == 0 && f.rc == 0 && f.f0.toNat < 64 && f.f1.toNat < 4096
  | .mrot f => f.ra == 0 && f.rb == 0 && f.rc == 0 && f.f1 == 0 && f.f0.toNat < 2
  | .mstore f => f.rc == 0 && f.f0.toNat < 128 && f.f1.toNat < 4096 && (f.f0.getLsbD 6 || f.rb == 0)
  | .mload f => f.rb == 0 && f.rc == 0 && f.f1 == 0 && f.f0.toNat < 4
  | .matrixKstep _ => true
  | .ringHandover _ => true
  | .matrixTrap _ => true
  | .ecall f => f.d == 0 && f.a == 0 && f.b == 0
  | .eret f => f.d == 0 && f.a == 0 && f.b == 0 && f.p5 == 0
  | .sysr f => csrAssigned f.csr && (csrIndexed f.csr || f.a == 0)
  | .sysw f => csrAssigned f.csr && !csrOwnRow f.csr && (csrIndexed f.csr || f.d == 0)
  | .waiti f => f.d == 0 && f.a == 0 && f.b == 0 && f.p5 == 0
  | .yield f => f.d == 0 && f.a == 0 && f.b == 0 && f.p5 == 0
  | .brk f => f.d == 0 && f.a == 0 && f.b == 0
  | .halt f => f.d == 0 && f.a == 0 && f.b == 0 && f.p5 == 0
  | .snap f => f.d == 0 && f.a == 0 && f.b == 0 && f.p5 == 0
  | .tlbinv f => f.d == 0 && f.p5.toNat < 2
  | .resize f => !f.x && f.a == 0 && f.b == 0 && f.p5.toNat ≤ 20
  | .lineclr f => f.d == 0 && f.b == 0 && f.p5 == 0
  | .cwb f => f.d == 0 && f.b == 0 && f.p5 == 0
  | .cinv f => f.d == 0 && f.b == 0 && f.p5 == 0
  | .ctxsave f => f.b == 0 && f.p5 == 0
  | .ctxload f => f.b == 0 && f.p5 == 0
  | .preempt f => f.b == 0 && f.p5 == 0
  | .kget f => f.a == 0 && f.b == 0 && 1 ≤ f.p5.toNat && f.p5.toNat ≤ 3
  | .kset f => f.d == 0 && f.b == 0 && 1 ≤ f.p5.toNat && f.p5.toNat ≤ 3
  | .vld f => f.sz != 5 && f.sz != 7 && f.d.toNat < 4
  | .vsta f => f.sz.toNat < 3 && f.d == 0
  | .vstorePair _ _ => true
  | .li f => f.rb == 0 && f.rc == 0 && f.f0.toNat < 256
  | .lih f => f.rb == 0 && f.rc == 0 && f.f0.toNat < 256
  | .j f => f.ra == 0 && f.rb == 0 && f.rc == 0 && f.f0.toNat < 256
  | .jal f => f.rb == 0 && f.rc == 0 && f.f0.toNat < 256
  | .lia f => f.rb == 0 && f.rc == 0 && f.f0.toNat < 256
  | .cpy f => f.f0.toNat < 128 && f.f1 == 0 && (f.f0.toNat % 32 < 16 || f.f0.toNat % 32 == 31)
  | .vgather f => f.x && f.rb == 0 && f.rc == 0 && f.f0.toNat < 256 && srcOk (f.f0.extractLsb' 2 6) && f.f1.toNat < 256 && f.f1.toNat % 64 == 0
  | .vscatter f => f.x && f.rb == 0 && f.rc == 0 && f.f0.toNat < 256 && f.f0.toNat % 4 == 0 && srcOk (f.f0.extractLsb' 2 6) && f.f1.toNat < 256 && srcOk (f.f1.extractLsb' 0 6)
  | .anop _ => true
  | .vadd f => f.two && tyInt f.t
  | .vsub f => f.two && tyInt f.t
  | .vmul f => f.two && tyInt f.t
  | .vmulh f => f.two && tyInt f.t
  | .vmin f => f.two && tyInt f.t
  | .vmax f => f.two && tyInt f.t
  | .vand f => f.two && tyAny f.t
  | .vor f => f.two && tyAny f.t
  | .vxor f => f.two && tyAny f.t
  | .vandn f => f.two && tyAny f.t
  | .vshl f => f.two && tyInt f.t
  | .vshr f => f.two && tyInt f.t
  | .vsar f => f.two && tyInt f.t
  | .vabs f => f.one && tyAbs f.t
  | .vclz f => f.one && tyInt f.t
  | .vpopc f => f.one && tyInt f.t
  | .vadds f => f.two && tyInt f.t
  | .vsubs f => f.two && tyInt f.t
  | .vfadd f => f.two && tyFloat f.t
  | .vfsub f => f.two && tyFloat f.t
  | .vfmul f => f.two && tyFloat f.t
  | .vfma f => f.two && f.d != 56 && tyFloat f.t
  | .vfmin f => f.two && tyFloat f.t
  | .vfmax f => f.two && tyFloat f.t
  | .vrcp f => f.one && tyF32 f.t
  | .vrsq f => f.one && tyF32 f.t
  | .vexp2 f => f.one && tyF32 f.t
  | .vlog2 f => f.one && tyF32 f.t
  | .vsqrt f => f.one && tyF32 f.t
  | .vcvt f => srcOk f.a && dstOk f.d && f.dt != f.t
  | .vcvtNarrow f => srcOk f.a && dstOk f.d && f.dt == f.t && tyNarrow f.t && (f.t != 6 || f.b.extractLsb' 0 3 == 0)
  | .vceq f => srcOk f.a && srcOk f.b && dstMaskOk f.d && tyAny f.t
  | .vcne f => srcOk f.a && srcOk f.b && dstMaskOk f.d && tyAny f.t
  | .vclt f => srcOk f.a && srcOk f.b && dstMaskOk f.d && tyAny f.t
  | .vcle f => srcOk f.a && srcOk f.b && dstMaskOk f.d && tyAny f.t
  | .vsel f => f.two && tyAny f.t
  | .vrsum f => f.one && tyAny f.t
  | .vrmax f => f.one && tyAny f.t
  | .vrmin f => f.one && tyAny f.t
  | .vshuf f => f.two && tyAny f.t
  | .vrotl f => f.two && tyAny f.t
  | .vbcast f => f.two && tyAny f.t
  | .vcompr f => f.one && tyAny f.t
  | .vexpnd f => f.one && tyAny f.t
  | .vtmrg f => f.two && tyF32 f.t
  | .vtscl f => f.two && tyF32 f.t
  | .vhash f => f.two && tyHash f.t
  | .vpart f => f.two && tyHash f.t
  | .vrng f => f.two && tyRng f.t
  | .vscan f => f.one && tyAny f.t
  | .vrank f => f.one && tyRank f.t
  | .vstd f => srcOk f.a && f.b == 56 && f.d == 56 && tyAny f.t
  | .vmkmask f => srcOk f.a && f.b == 56 && dstMaskOk f.d && tyHash f.t
  | .kand f => f.t == 0 && f.k == 0 && kSrcOk f.a && kSrcOk f.b && kDstOk f.d
  | .kor f => f.t == 1 && f.k == 0 && kSrcOk f.a && kSrcOk f.b && kDstOk f.d
  | .kxor f => f.t == 2 && f.k == 0 && kSrcOk f.a && kSrcOk f.b && kDstOk f.d
  | .kandn f => f.t == 3 && f.k == 0 && kSrcOk f.a && kSrcOk f.b && kDstOk f.d
  | .knot f => f.t == 4 && f.k == 0 && kSrcOk f.a && f.b == 56 && kDstOk f.d
  | .kpopc f => f.t == 0 && f.k == 0 && kSrcOk f.a && f.b == 56 && dstOk f.d
  | .syswFlags f => f.csr == 1 && f.d == 0
  | .syswRingcfg f => f.csr == 9 && f.d == 0
  | .syswRecvbase f => f.csr == 12 && f.d == 0
  | .syswRecvsize f => f.csr == 13 && f.d == 0
  | .recvtailClr f => f.csr == 14 && f.d == 0
  | .glDrainGo f => f.csr == 519 && f.d == 0
  | .glRelockGo f => f.csr == 521 && f.d == 0
  | .glLanestatEn f => f.csr == 516
  | .glAllowWithhold f => f.csr == 520
  | .yqtbaseWrite _ _ => true
  | .featackWrite _ _ => true
  | .helpertrap _ => true
  | .quarantine _ _ => true
  | .fenceRectangle _ _ => true
  | .rectangleReady _ => true
  | .homeRead _ _ _ => true
  | .homeRegister _ _ _ => true
  | .homeWriteback _ _ _ => true
  | .homeReturn _ _ _ => true
  | .homeAmo _ _ _ _ _ _ => true
  | .readRecall _ _ _ => true
  | .writeRecall _ _ _ => true
  | .registerGrant _ => true
  | .fillReturn _ _ _ _ _ => true
  | .remoteInvalidate _ _ => true
  | .operationPacket _ _ _ _ => true
  | .hostRead _ => true
  | .hostWrite _ _ _ _ => true
  | .hostSnoop _ => true
  | .backInvalidateAnswer _ _ _ => true
  | .cxlLinkDown _ => true
  | .cxlLinkUp _ => true
  | .tentativeCommit _ _ => true
  | .tentativeDiscard _ _ => true
  | .walkComplete _ _ _ => true
  | .patrolScrub _ _ => true
  | .copyPiece _ _ => true
  | .recordComplete _ _ => true
  | .directTransferDone _ => true
  | .slotLanding _ _ _ _ _ _ => true
  | .barrierUpdate _ _ _ _ => true
  | .aonVersionRaise _ => true
  | .trackerReport _ _ _ => true
  | .trackerHeldStart _ _ => true
  | .compactSignature _ => true
  | .compactWithdrawal _ => true
  | .compactTreeArrival _ _ => true
  | .memberLoss _ => true
  | .pipDelivery _ _ _ _ _ => true
  | .pipExpiry _ _ => true
  | .pipQuarEnd _ _ => true
  | .pipEnd _ _ => true
  | .messageArrival _ _ _ => true
  | .recvtTimeout _ => true
  | .vetchStep _ _ _ => true
  | .contributionArrival _ _ _ => true
  | .apertureApply _ _ _ _ _ _ _ _ _ => true
  | .spanReceive _ _ => true
  | .slotEdge _ _ => true
  | .allowanceReturn _ _ _ => true
  | .drainMarker _ _ => true
  | .drainTimeout _ => true
  | .relockRotation _ => true
  | .relockDone _ _ => true
  | .laneRetrain _ _ => true
  | .laneHandback _ _ _ => true
  | .tailWake _ _ => true
  | .launchSelect _ => true
  | .launchAging _ _ => true
  | .launchStart _ _ => true
  | .launchForward _ _ => true
  | .launchComplete _ => true
  | .saveServiceStart _ => true
  | .partitionResume _ => true
  | .taskStart _ => true
  | .issuePriorityRaise _ _ _ => true
  | .yieldExpiry _ _ => true
  | .powerOnReset _ => true
  | .getVersion _ => true
  | .getCapabilities _ => true
  | .negotiateAlgorithms _ _ => true
  | .getDigests _ => true
  | .getCertificate _ => true
  | .challenge _ _ => true
  | .getMeasurements _ _ => true
  | .keyExchange _ _ => true
  | .finish _ => true
  | .keyUpdate _ => true
  | .heartbeat _ => true
  | .endSession _ => true
  | .pldmFirmwareUpdate _ _ _ _ => true
  | .pldmSetPcap _ _ => true
  | .snapTrigger _ => true
  | .snapRead _ => true
  | .mgmtEventSend _ => true
  | .powerWindow _ _ => true
  | .thermalTrip _ _ => true
  | .reservedEncoding _ _ => true
  | .matrixCommandRetirement _ => true
  | .bankRetention _ _ => true
  | .ieee1588Synchronisation _ _ => true
  | .devidAssignment _ _ _ => true

end Sys2Proof
end

