-- ==== Sys2Proof/Decode.lean ====
section
/-! DEFINITION. From bits to instructions and back (R189 to R207). A unit splits into a C-word and an A-word, or is one
lone unit; each is read into its fields and accepted when the fields are well formed. What is not accepted is an ILLEGAL
encoding (R207), which the machine executes as RESERVED_ENCODING. The encoder is written from the same tables. -/
namespace Sys2Proof

/-- The layouts of R192, most significant field first. -/
def packCR (cop : Nat) (fn : Nat) (f : CR) : BitVec 32 :=
  0#1 ++ BitVec.ofBool f.x ++ BitVec.ofNat 6 cop ++ f.d ++ f.a ++ f.b ++ BitVec.ofNat 9 fn
def packCI (cop : Nat) (f : CI) : BitVec 32 :=
  0#1 ++ BitVec.ofBool f.x ++ BitVec.ofNat 6 cop ++ f.d ++ f.a ++ f.imm
def packCB (cop : Nat) (f : CB) : BitVec 32 :=
  0#1 ++ BitVec.ofBool f.x ++ BitVec.ofNat 6 cop ++ f.a ++ f.b ++ f.off
def packCM (cop : Nat) (f : CM) : BitVec 32 :=
  0#1 ++ BitVec.ofBool f.x ++ BitVec.ofNat 6 cop ++ f.d ++ f.a ++ f.sz ++ f.off
def packAF (op : Nat) (f : AF) : BitVec 32 :=
  0#1 ++ BitVec.ofBool f.x ++ 0x1B#6 ++ f.d ++ f.a ++ f.b ++ BitVec.ofNat 5 op ++ f.order ++ f.size
def packCF (cop : Nat) (sub : Nat) (f : CF) : BitVec 32 :=
  0#1 ++ BitVec.ofBool f.x ++ BitVec.ofNat 6 cop ++ f.d ++ f.a ++ f.b ++ BitVec.ofNat 4 sub ++ f.p5
/-- R246: TFENCE always carries X = 1. -/
def packTFENCE (mask : BitVec 11) : BitVec 32 := 0x6100#16 ++ 0#5 ++ mask
/-- The layout of R200. -/
def packAW (aop : Nat) (f : AW) : BitVec 32 :=
  f.w ++ BitVec.ofNat 6 aop ++ f.k ++ f.t ++ f.d ++ f.a ++ f.b
/-- The layout of R205: word 1 above word 0 (R2). -/
def packLF (lop : Nat) (f : LF) : Word :=
  (f.w ++ f.rc ++ f.f1 : BitVec 32) ++ (1#1 ++ BitVec.ofBool f.x ++ BitVec.ofNat 8 lop ++ f.ra ++ f.rb ++ f.f0 : BitVec 32)

def getCR (w : BitVec 32) : CR := ⟨w.getLsbD 30, bits w 19 5, bits w 14 5, bits w 9 5⟩
def getCI (w : BitVec 32) : CI := ⟨w.getLsbD 30, bits w 19 5, bits w 14 5, bits w 0 14⟩
def getCB (w : BitVec 32) : CB := ⟨w.getLsbD 30, bits w 19 5, bits w 14 5, bits w 0 14⟩
def getCM (w : BitVec 32) : CM := ⟨w.getLsbD 30, bits w 19 5, bits w 14 5, bits w 11 3, bits w 0 11⟩
def getAF (w : BitVec 32) : AF := ⟨w.getLsbD 30, bits w 19 5, bits w 14 5, bits w 9 5, bits w 2 2, bits w 0 2⟩
def getCF (w : BitVec 32) : CF := ⟨w.getLsbD 30, bits w 19 5, bits w 14 5, bits w 9 5, bits w 0 5⟩
def getAW (w : BitVec 32) : AW := ⟨bits w 29 3, bits w 21 2, bits w 18 3, bits w 12 6, bits w 6 6, bits w 0 6⟩
def getLF (u : Word) : LF :=
  ⟨u.getLsbD 30, bits u 17 5, bits u 12 5, bits u 0 12, bits u 61 3, bits u 56 5, bits u 32 24⟩

/-- R195: the ALU operation of fn. -/
def aluOf : Nat → Option (CR → Instr)
  | 0 => some .add
  | 1 => some .sub
  | 2 => some .and
  | 3 => some .or
  | 4 => some .xor
  | 5 => some .andn
  | 6 => some .shl
  | 7 => some .shr
  | 8 => some .sar
  | 9 => some .mul
  | 10 => some .mulh
  | 11 => some .mulhu
  | 12 => some .div
  | 13 => some .divu
  | 14 => some .rem
  | 15 => some .remu
  | 16 => some .min
  | 17 => some .max
  | 18 => some .minu
  | 19 => some .maxu
  | 20 => some .slt
  | 21 => some .sltu
  | 22 => some .seq
  | 23 => some .clz
  | 24 => some .ctz
  | 25 => some .popc
  | 26 => some .csel
  | 27 => some .padd
  | 28 => some .psub
  | 29 => some .bfx
  | _ => none

/-- R194: the C.I instruction of COP. -/
def ciOf : Nat → Option (CI → Instr)
  | 2 => some .addi
  | 3 => some .andi
  | 4 => some .ori
  | 5 => some .xori
  | 6 => some .slti
  | 7 => some .sltiu
  | 8 => some .shli
  | 9 => some .shri
  | 10 => some .sari
  | 11 => some .paddi
  | 12 => some .ptag
  | 20 => some .jr
  | _ => none

/-- R194: the C.B instruction of COP. -/
def cbOf : Nat → Option (CB → Instr)
  | 13 => some .beq
  | 14 => some .bne
  | 15 => some .blt
  | 16 => some .bge
  | 17 => some .bltu
  | 18 => some .bgeu
  | 19 => some .loop
  | _ => none

/-- R194: the C.M instruction of COP. -/
def cmOf : Nat → Option (CM → Instr)
  | 21 => some .ldl
  | 22 => some .stl
  | 23 => some .ldg
  | 24 => some .stg
  | 25 => some .ldacq
  | 26 => some .strel
  | 31 => some .vld
  | 32 => some .vsta
  | _ => none

/-- R197: the atomic of op. -/
def amoOf : Nat → Option (AF → Instr)
  | 0 => some .amoadd
  | 1 => some .amoand
  | 2 => some .amoor
  | 3 => some .amoxor
  | 4 => some .amomin
  | 5 => some .amomax
  | 6 => some .amominu
  | 7 => some .amomaxu
  | 8 => some .amoswp
  | 9 => some .amocas
  | 10 => some .amofadd
  | 11 => some .amofmax
  | _ => none

/-- R198: the C.F instruction of COP * 16 + sub (SYSW by its CSR in syswOf). -/
def cfOf : Nat → Option (CF → Instr)
  | 448 => some .acq
  | 449 => some .rel
  | 450 => some .fence
  | 464 => some .qwait
  | 480 => some .mbw
  | 481 => some .mbr
  | 482 => some .mbtest
  | 544 => some .binit
  | 545 => some .bexpect
  | 546 => some .barrive
  | 547 => some .bwait
  | 548 => some .btest
  | 549 => some .bwany
  | 560 => some .chtest
  | 561 => some .chwait
  | 562 => some .chclr
  | 576 => some .lsalloc
  | 577 => some .lsfree
  | 592 => some .pmint
  | 593 => some .pdrop
  | 594 => some .pstat
  | 608 => some .cpych
  | 609 => some .cpystat
  | 610 => some .cpywait
  | 611 => some .cpykill
  | 624 => some .trkset
  | 625 => some .trkclr
  | 640 => some .hstart
  | 641 => some .hend
  | 642 => some .hjoin
  | 643 => some .hkill
  | 644 => some .taskq
  | 656 => some .gfuse
  | 657 => some .gsplit
  | 672 => some .csign
  | 673 => some .cstep
  | 674 => some .cdiss
  | 688 => some .send
  | 689 => some .recv
  | 690 => some .recvt
  | 704 => some .coll
  | 705 => some .cwait
  | 720 => some .mbegin
  | 721 => some .mend
  | 722 => some .mzero
  | 723 => some .msync
  | 736 => some .ecall
  | 737 => some .eret
  | 738 => some .sysr
  | 739 => some .sysw
  | 740 => some .waiti
  | 741 => some .yield
  | 742 => some .brk
  | 743 => some .halt
  | 744 => some .snap
  | 752 => some .tlbinv
  | 753 => some .resize
  | 754 => some .lineclr
  | 755 => some .cwb
  | 756 => some .cinv
  | 768 => some .ctxsave
  | 769 => some .ctxload
  | 770 => some .preempt
  | 784 => some .kget
  | 785 => some .kset
  | _ => none

/-- R199, R313: the SYSW rows of the opcode table that name one CSR. -/
def syswOf : Nat → Option (CF → Instr)
  | 1 => some .syswFlags
  | 9 => some .syswRingcfg
  | 12 => some .syswRecvbase
  | 13 => some .syswRecvsize
  | 14 => some .recvtailClr
  | 519 => some .glDrainGo
  | 521 => some .glRelockGo
  | 516 => some .glLanestatEn
  | 520 => some .glAllowWithhold
  | _ => none

/-- R203: the A-word operation of AOP (KOP and VCVT by their fields below). -/
def aopOf : Nat → Option (AW → Instr)
  | 1 => some .vadd
  | 2 => some .vsub
  | 3 => some .vmul
  | 4 => some .vmulh
  | 5 => some .vmin
  | 6 => some .vmax
  | 7 => some .vand
  | 8 => some .vor
  | 9 => some .vxor
  | 10 => some .vandn
  | 11 => some .vshl
  | 12 => some .vshr
  | 13 => some .vsar
  | 14 => some .vabs
  | 15 => some .vclz
  | 16 => some .vpopc
  | 17 => some .vadds
  | 18 => some .vsubs
  | 19 => some .vfadd
  | 20 => some .vfsub
  | 21 => some .vfmul
  | 22 => some .vfma
  | 23 => some .vfmin
  | 24 => some .vfmax
  | 25 => some .vrcp
  | 26 => some .vrsq
  | 27 => some .vexp2
  | 28 => some .vlog2
  | 29 => some .vsqrt
  | 30 => some .vcvt
  | 31 => some .vceq
  | 32 => some .vcne
  | 33 => some .vclt
  | 34 => some .vcle
  | 35 => some .vsel
  | 36 => some .vrsum
  | 37 => some .vrmax
  | 38 => some .vrmin
  | 39 => some .vshuf
  | 40 => some .vrotl
  | 41 => some .vbcast
  | 42 => some .vcompr
  | 43 => some .vexpnd
  | 44 => some .vtmrg
  | 45 => some .vtscl
  | 46 => some .vhash
  | 47 => some .vpart
  | 48 => some .vrng
  | 49 => some .vscan
  | 50 => some .vrank
  | 51 => some .vstd
  | 52 => some .vmkmask
  | 54 => some .kpopc
  | _ => none

/-- R203: the function of KOP by its type field. -/
def kopOf : Nat → Option (AW → Instr)
  | 0 => some .kand
  | 1 => some .kor
  | 2 => some .kxor
  | 3 => some .kandn
  | 4 => some .knot
  | _ => none

/-- R205: the lone unit of LOP. -/
def lopOf : Nat → Option (LF → Instr)
  | 0 => some .li
  | 1 => some .lih
  | 2 => some .j
  | 3 => some .jal
  | 4 => some .lia
  | 16 => some .mma
  | 18 => some .mldb
  | 19 => some .mrot
  | 20 => some .mstore
  | 21 => some .mload
  | 32 => some .cpy
  | 34 => some .vgather
  | 35 => some .vscatter
  | 40 => some .taskqLone
  | 44 => some .collLone
  | _ => none

/-- The instruction whose opcode a C-word holds, its fields as they stand. -/
def rawC (w : BitVec 32) : Option Instr :=
  if w.getLsbD 31 then none
  else
    let cop := (bits w 24 6).toNat
    if cop = 0 then if w = 0 then some .cnop else none
    else if cop = 1 then (aluOf (bits w 0 9).toNat).map fun c => c (getCR w)
    else if cop = 0x1B then (amoOf (bits w 4 5).toNat).map fun c => c (getAF w)
    else if cop = 0x21 then
      if w.getLsbD 30 && bits w 11 13 == 0 then some (.tfence (bits w 0 11)) else none
    else match ciOf cop, cbOf cop, cmOf cop with
      | some c, _, _ => some (c (getCI w))
      | none, some c, _ => some (c (getCB w))
      | none, none, some c => some (c (getCM w))
      | none, none, none =>
        let key := cop * 16 + (bits w 5 4).toNat
        let f := getCF w
        match (if key = 0x2E3 then syswOf f.csr else none) with
        | some c => some (c f)
        | none => (cfOf key).map fun c => c f

/-- The instruction whose opcode an A-word holds, its fields as they stand. -/
def rawA (w : BitVec 32) : Option Instr :=
  let aop := (bits w 23 6).toNat
  let f := getAW w
  if aop = 0 then if bits w 0 29 == 0 then some (.anop f.w) else none
  else if aop = 30 then some (if f.dt == f.t then .vcvtNarrow f else .vcvt f)
  else if aop = 53 then (kopOf f.t.toNat).map fun c => c f
  else (aopOf aop).map fun c => c f

/-- The instruction whose opcode a lone unit holds, its fields as they stand. -/
def rawLone (u : Word) : Option Instr :=
  if u.getLsbD 31 then (lopOf (bits u 22 8).toNat).map fun c => c (getLF u) else none

/-- A C-word the encoding tables define (R192 to R199). -/
def decodeC (w : BitVec 32) : Option Instr := (rawC w).filter Instr.wf
/-- An A-word the encoding tables define (R200 to R204). -/
def decodeA (w : BitVec 32) : Option Instr := (rawA w).filter Instr.wf
/-- A lone unit the encoding tables define (R205). -/
def decodeLone (u : Word) : Option Instr := (rawLone u).filter Instr.wf

/-- A unit split as R189 says; a word that no table defines is none (R207). -/
inductive UnitParts where
  | pair (c a : Option Instr)
  | lone (i : Option Instr)
  deriving DecidableEq, Repr

/-- R189: bit 31 of word 0 tells a lone unit from a pair. -/
def decodeUnit (u : Word) : UnitParts :=
  if u.getLsbD 31 then .lone (decodeLone u) else .pair (decodeC (bits u 0 32)) (decodeA (bits u 32 32))

/-- The stream a word 0 goes to (R189): true is the compute stream. -/
def unitX (u : Word) : Bool := u.getLsbD 30

/-- The stall count W of a unit (R141): bits [31:29] of word 1 in either form. -/
def unitW (u : Word) : Nat := (bits u 61 3).toNat

/-- R203, R207: what TRAPVAL holds for an encoding trap of an A-word: the type, when the operation exists and does not
accept it, else none (the unit image). -/
def typeRefused (w : BitVec 32) : Option (BitVec 3) :=
  let f := getAW w
  let aop := (bits w 23 6).toNat
  let accepted (t : BitVec 3) : Bool :=
    match (if aop = 53 then kopOf t.toNat else if aop = 30 then
        some (if f.dt == f.t then Instr.vcvtNarrow else Instr.vcvt) else aopOf aop) with
    | some c =>
      let one : AW := { f with t := t, d := if aop = 51 then 56 else 48, a := 56, b := 56, k := 0 }
      let two : AW := { one with b := if aop = 30 then t.zeroExtend 6 <<< 3 else 56 }
      if aop = 30 then (if f.dt == f.t then (Instr.vcvtNarrow two).wf else true) else (c one).wf
    | none => false
  if aop = 0 || 54 < aop then none else if accepted f.t then none else some f.t

/-- The bytes of a unit in memory order (R2): word 0 first, each little-endian. -/
def unitOfBytes : List (BitVec 8) → Option Word
  | [b0, b1, b2, b3, b4, b5, b6, b7] => some (b7 ++ b6 ++ b5 ++ b4 ++ b3 ++ b2 ++ b1 ++ b0)
  | _ => none

/-- How an instruction is written. -/
inductive Form where
  | cword | aword | lone | event
  deriving DecidableEq, Repr

/-- The form of each constructor. -/
def Instr.form : Instr → Form
  | .cnop => .cword
  | .add _ => .cword
  | .sub _ => .cword
  | .and _ => .cword
  | .or _ => .cword
  | .xor _ => .cword
  | .andn _ => .cword
  | .shl _ => .cword
  | .shr _ => .cword
  | .sar _ => .cword
  | .mul _ => .cword
  | .mulh _ => .cword
  | .mulhu _ => .cword
  | .div _ => .cword
  | .divu _ => .cword
  | .rem _ => .cword
  | .remu _ => .cword
  | .min _ => .cword
  | .max _ => .cword
  | .minu _ => .cword
  | .maxu _ => .cword
  | .slt _ => .cword
  | .sltu _ => .cword
  | .seq _ => .cword
  | .clz _ => .cword
  | .ctz _ => .cword
  | .popc _ => .cword
  | .csel _ => .cword
  | .padd _ => .cword
  | .psub _ => .cword
  | .bfx _ => .cword
  | .addi _ => .cword
  | .andi _ => .cword
  | .ori _ => .cword
  | .xori _ => .cword
  | .slti _ => .cword
  | .sltiu _ => .cword
  | .shli _ => .cword
  | .shri _ => .cword
  | .sari _ => .cword
  | .paddi _ => .cword
  | .ptag _ => .cword
  | .beq _ => .cword
  | .bne _ => .cword
  | .blt _ => .cword
  | .bge _ => .cword
  | .bltu _ => .cword
  | .bgeu _ => .cword
  | .loop _ => .cword
  | .jr _ => .cword
  | .ldl _ => .cword
  | .stl _ => .cword
  | .ldg _ => .cword
  | .stg _ => .cword
  | .ldacq _ => .cword
  | .strel _ => .cword
  | .amoadd _ => .cword
  | .amoand _ => .cword
  | .amoor _ => .cword
  | .amoxor _ => .cword
  | .amomin _ => .cword
  | .amomax _ => .cword
  | .amominu _ => .cword
  | .amomaxu _ => .cword
  | .amoswp _ => .cword
  | .amocas _ => .cword
  | .amofadd _ => .cword
  | .amofmax _ => .cword
  | .acq _ => .cword
  | .rel _ => .cword
  | .fence _ => .cword
  | .qwait _ => .cword
  | .mbw _ => .cword
  | .mbr _ => .cword
  | .mbtest _ => .cword
  | .tfence _ => .cword
  | .binit _ => .cword
  | .bexpect _ => .cword
  | .barrive _ => .cword
  | .bwait _ => .cword
  | .btest _ => .cword
  | .bwany _ => .cword
  | .chtest _ => .cword
  | .chwait _ => .cword
  | .chclr _ => .cword
  | .lsalloc _ => .cword
  | .lsfree _ => .cword
  | .pmint _ => .cword
  | .pdrop _ => .cword
  | .pstat _ => .cword
  | .cpych _ => .cword
  | .cpystat _ => .cword
  | .cpywait _ => .cword
  | .cpykill _ => .cword
  | .trkset _ => .cword
  | .trkclr _ => .cword
  | .hstart _ => .cword
  | .hend _ => .cword
  | .hjoin _ => .cword
  | .hkill _ => .cword
  | .taskq _ => .cword
  | .taskqLone _ => .lone
  | .gfuse _ => .cword
  | .gsplit _ => .cword
  | .csign _ => .cword
  | .cstep _ => .cword
  | .cdiss _ => .cword
  | .send _ => .cword
  | .recv _ => .cword
  | .recvt _ => .cword
  | .coll _ => .cword
  | .collLone _ => .lone
  | .cwait _ => .cword
  | .mbegin _ => .cword
  | .mend _ => .cword
  | .mzero _ => .cword
  | .msync _ => .cword
  | .mma _ => .lone
  | .mldb _ => .lone
  | .mrot _ => .lone
  | .mstore _ => .lone
  | .mload _ => .lone
  | .matrixKstep _ => .event
  | .ringHandover _ => .event
  | .matrixTrap _ => .event
  | .ecall _ => .cword
  | .eret _ => .cword
  | .sysr _ => .cword
  | .sysw _ => .cword
  | .waiti _ => .cword
  | .yield _ => .cword
  | .brk _ => .cword
  | .halt _ => .cword
  | .snap _ => .cword
  | .tlbinv _ => .cword
  | .resize _ => .cword
  | .lineclr _ => .cword
  | .cwb _ => .cword
  | .cinv _ => .cword
  | .ctxsave _ => .cword
  | .ctxload _ => .cword
  | .preempt _ => .cword
  | .kget _ => .cword
  | .kset _ => .cword
  | .vld _ => .cword
  | .vsta _ => .cword
  | .vstorePair _ _ => .event
  | .li _ => .lone
  | .lih _ => .lone
  | .j _ => .lone
  | .jal _ => .lone
  | .lia _ => .lone
  | .cpy _ => .lone
  | .vgather _ => .lone
  | .vscatter _ => .lone
  | .anop _ => .aword
  | .vadd _ => .aword
  | .vsub _ => .aword
  | .vmul _ => .aword
  | .vmulh _ => .aword
  | .vmin _ => .aword
  | .vmax _ => .aword
  | .vand _ => .aword
  | .vor _ => .aword
  | .vxor _ => .aword
  | .vandn _ => .aword
  | .vshl _ => .aword
  | .vshr _ => .aword
  | .vsar _ => .aword
  | .vabs _ => .aword
  | .vclz _ => .aword
  | .vpopc _ => .aword
  | .vadds _ => .aword
  | .vsubs _ => .aword
  | .vfadd _ => .aword
  | .vfsub _ => .aword
  | .vfmul _ => .aword
  | .vfma _ => .aword
  | .vfmin _ => .aword
  | .vfmax _ => .aword
  | .vrcp _ => .aword
  | .vrsq _ => .aword
  | .vexp2 _ => .aword
  | .vlog2 _ => .aword
  | .vsqrt _ => .aword
  | .vcvt _ => .aword
  | .vcvtNarrow _ => .aword
  | .vceq _ => .aword
  | .vcne _ => .aword
  | .vclt _ => .aword
  | .vcle _ => .aword
  | .vsel _ => .aword
  | .vrsum _ => .aword
  | .vrmax _ => .aword
  | .vrmin _ => .aword
  | .vshuf _ => .aword
  | .vrotl _ => .aword
  | .vbcast _ => .aword
  | .vcompr _ => .aword
  | .vexpnd _ => .aword
  | .vtmrg _ => .aword
  | .vtscl _ => .aword
  | .vhash _ => .aword
  | .vpart _ => .aword
  | .vrng _ => .aword
  | .vscan _ => .aword
  | .vrank _ => .aword
  | .vstd _ => .aword
  | .vmkmask _ => .aword
  | .kand _ => .aword
  | .kor _ => .aword
  | .kxor _ => .aword
  | .kandn _ => .aword
  | .knot _ => .aword
  | .kpopc _ => .aword
  | .syswFlags _ => .cword
  | .syswRingcfg _ => .cword
  | .syswRecvbase _ => .cword
  | .syswRecvsize _ => .cword
  | .recvtailClr _ => .cword
  | .glDrainGo _ => .cword
  | .glRelockGo _ => .cword
  | .glLanestatEn _ => .cword
  | .glAllowWithhold _ => .cword
  | .yqtbaseWrite _ _ => .event
  | .featackWrite _ _ => .event
  | .helpertrap _ => .event
  | .quarantine _ _ => .event
  | .fenceRectangle _ _ => .event
  | .rectangleReady _ => .event
  | .homeRead _ _ _ => .event
  | .homeRegister _ _ _ => .event
  | .homeWriteback _ _ _ => .event
  | .homeReturn _ _ _ => .event
  | .homeAmo _ _ _ _ _ _ => .event
  | .readRecall _ _ _ => .event
  | .writeRecall _ _ _ => .event
  | .registerGrant _ => .event
  | .fillReturn _ _ _ _ _ => .event
  | .remoteInvalidate _ _ => .event
  | .operationPacket _ _ _ _ => .event
  | .hostRead _ => .event
  | .hostWrite _ _ _ _ => .event
  | .hostSnoop _ => .event
  | .backInvalidateAnswer _ _ _ => .event
  | .cxlLinkDown _ => .event
  | .cxlLinkUp _ => .event
  | .tentativeCommit _ _ => .event
  | .tentativeDiscard _ _ => .event
  | .walkComplete _ _ _ => .event
  | .patrolScrub _ _ => .event
  | .copyPiece _ _ => .event
  | .recordComplete _ _ => .event
  | .directTransferDone _ => .event
  | .slotLanding _ _ _ _ _ _ => .event
  | .barrierUpdate _ _ _ _ => .event
  | .aonVersionRaise _ => .event
  | .trackerReport _ _ _ => .event
  | .trackerHeldStart _ _ => .event
  | .compactSignature _ => .event
  | .compactWithdrawal _ => .event
  | .compactTreeArrival _ _ => .event
  | .memberLoss _ => .event
  | .pipDelivery _ _ _ _ _ => .event
  | .pipExpiry _ _ => .event
  | .pipQuarEnd _ _ => .event
  | .pipEnd _ _ => .event
  | .messageArrival _ _ _ => .event
  | .recvtTimeout _ => .event
  | .vetchStep _ _ _ => .event
  | .contributionArrival _ _ _ => .event
  | .apertureApply _ _ _ _ _ _ _ _ _ => .event
  | .spanReceive _ _ => .event
  | .slotEdge _ _ => .event
  | .allowanceReturn _ _ _ => .event
  | .drainMarker _ _ => .event
  | .drainTimeout _ => .event
  | .relockRotation _ => .event
  | .relockDone _ _ => .event
  | .laneRetrain _ _ => .event
  | .laneHandback _ _ _ => .event
  | .tailWake _ _ => .event
  | .launchSelect _ => .event
  | .launchAging _ _ => .event
  | .launchStart _ _ => .event
  | .launchForward _ _ => .event
  | .launchComplete _ => .event
  | .saveServiceStart _ => .event
  | .partitionResume _ => .event
  | .taskStart _ => .event
  | .issuePriorityRaise _ _ _ => .event
  | .yieldExpiry _ _ => .event
  | .powerOnReset _ => .event
  | .getVersion _ => .event
  | .getCapabilities _ => .event
  | .negotiateAlgorithms _ _ => .event
  | .getDigests _ => .event
  | .getCertificate _ => .event
  | .challenge _ _ => .event
  | .getMeasurements _ _ => .event
  | .keyExchange _ _ => .event
  | .finish _ => .event
  | .keyUpdate _ => .event
  | .heartbeat _ => .event
  | .endSession _ => .event
  | .pldmFirmwareUpdate _ _ _ _ => .event
  | .pldmSetPcap _ _ => .event
  | .snapTrigger _ => .event
  | .snapRead _ => .event
  | .mgmtEventSend _ => .event
  | .powerWindow _ _ => .event
  | .thermalTrip _ _ => .event
  | .reservedEncoding _ _ => .event
  | .matrixCommandRetirement _ => .event
  | .bankRetention _ _ => .event
  | .ieee1588Synchronisation _ _ => .event
  | .devidAssignment _ _ _ => .event

/-- The words of an instruction: the 32 bits of a C-word or an A-word, the 64 bits of a lone unit, 0 for an event, which
has none. -/
def encode : Instr → Word
  | .cnop => 0
  | .add f => (packCR 1 0 f).setWidth 64
  | .sub f => (packCR 1 1 f).setWidth 64
  | .and f => (packCR 1 2 f).setWidth 64
  | .or f => (packCR 1 3 f).setWidth 64
  | .xor f => (packCR 1 4 f).setWidth 64
  | .andn f => (packCR 1 5 f).setWidth 64
  | .shl f => (packCR 1 6 f).setWidth 64
  | .shr f => (packCR 1 7 f).setWidth 64
  | .sar f => (packCR 1 8 f).setWidth 64
  | .mul f => (packCR 1 9 f).setWidth 64
  | .mulh f => (packCR 1 10 f).setWidth 64
  | .mulhu f => (packCR 1 11 f).setWidth 64
  | .div f => (packCR 1 12 f).setWidth 64
  | .divu f => (packCR 1 13 f).setWidth 64
  | .rem f => (packCR 1 14 f).setWidth 64
  | .remu f => (packCR 1 15 f).setWidth 64
  | .min f => (packCR 1 16 f).setWidth 64
  | .max f => (packCR 1 17 f).setWidth 64
  | .minu f => (packCR 1 18 f).setWidth 64
  | .maxu f => (packCR 1 19 f).setWidth 64
  | .slt f => (packCR 1 20 f).setWidth 64
  | .sltu f => (packCR 1 21 f).setWidth 64
  | .seq f => (packCR 1 22 f).setWidth 64
  | .clz f => (packCR 1 23 f).setWidth 64
  | .ctz f => (packCR 1 24 f).setWidth 64
  | .popc f => (packCR 1 25 f).setWidth 64
  | .csel f => (packCR 1 26 f).setWidth 64
  | .padd f => (packCR 1 27 f).setWidth 64
  | .psub f => (packCR 1 28 f).setWidth 64
  | .bfx f => (packCR 1 29 f).setWidth 64
  | .addi f => (packCI 2 f).setWidth 64
  | .andi f => (packCI 3 f).setWidth 64
  | .ori f => (packCI 4 f).setWidth 64
  | .xori f => (packCI 5 f).setWidth 64
  | .slti f => (packCI 6 f).setWidth 64
  | .sltiu f => (packCI 7 f).setWidth 64
  | .shli f => (packCI 8 f).setWidth 64
  | .shri f => (packCI 9 f).setWidth 64
  | .sari f => (packCI 10 f).setWidth 64
  | .paddi f => (packCI 11 f).setWidth 64
  | .ptag f => (packCI 12 f).setWidth 64
  | .beq f => (packCB 13 f).setWidth 64
  | .bne f => (packCB 14 f).setWidth 64
  | .blt f => (packCB 15 f).setWidth 64
  | .bge f => (packCB 16 f).setWidth 64
  | .bltu f => (packCB 17 f).setWidth 64
  | .bgeu f => (packCB 18 f).setWidth 64
  | .loop f => (packCB 19 f).setWidth 64
  | .jr f => (packCI 20 f).setWidth 64
  | .ldl f => (packCM 21 f).setWidth 64
  | .stl f => (packCM 22 f).setWidth 64
  | .ldg f => (packCM 23 f).setWidth 64
  | .stg f => (packCM 24 f).setWidth 64
  | .ldacq f => (packCM 25 f).setWidth 64
  | .strel f => (packCM 26 f).setWidth 64
  | .amoadd f => (packAF 0 f).setWidth 64
  | .amoand f => (packAF 1 f).setWidth 64
  | .amoor f => (packAF 2 f).setWidth 64
  | .amoxor f => (packAF 3 f).setWidth 64
  | .amomin f => (packAF 4 f).setWidth 64
  | .amomax f => (packAF 5 f).setWidth 64
  | .amominu f => (packAF 6 f).setWidth 64
  | .amomaxu f => (packAF 7 f).setWidth 64
  | .amoswp f => (packAF 8 f).setWidth 64
  | .amocas f => (packAF 9 f).setWidth 64
  | .amofadd f => (packAF 10 f).setWidth 64
  | .amofmax f => (packAF 11 f).setWidth 64
  | .acq f => (packCF 28 0 f).setWidth 64
  | .rel f => (packCF 28 1 f).setWidth 64
  | .fence f => (packCF 28 2 f).setWidth 64
  | .qwait f => (packCF 29 0 f).setWidth 64
  | .mbw f => (packCF 30 0 f).setWidth 64
  | .mbr f => (packCF 30 1 f).setWidth 64
  | .mbtest f => (packCF 30 2 f).setWidth 64
  | .tfence mask => (packTFENCE mask).setWidth 64
  | .binit f => (packCF 34 0 f).setWidth 64
  | .bexpect f => (packCF 34 1 f).setWidth 64
  | .barrive f => (packCF 34 2 f).setWidth 64
  | .bwait f => (packCF 34 3 f).setWidth 64
  | .btest f => (packCF 34 4 f).setWidth 64
  | .bwany f => (packCF 34 5 f).setWidth 64
  | .chtest f => (packCF 35 0 f).setWidth 64
  | .chwait f => (packCF 35 1 f).setWidth 64
  | .chclr f => (packCF 35 2 f).setWidth 64
  | .lsalloc f => (packCF 36 0 f).setWidth 64
  | .lsfree f => (packCF 36 1 f).setWidth 64
  | .pmint f => (packCF 37 0 f).setWidth 64
  | .pdrop f => (packCF 37 1 f).setWidth 64
  | .pstat f => (packCF 37 2 f).setWidth 64
  | .cpych f => (packCF 38 0 f).setWidth 64
  | .cpystat f => (packCF 38 1 f).setWidth 64
  | .cpywait f => (packCF 38 2 f).setWidth 64
  | .cpykill f => (packCF 38 3 f).setWidth 64
  | .trkset f => (packCF 39 0 f).setWidth 64
  | .trkclr f => (packCF 39 1 f).setWidth 64
  | .hstart f => (packCF 40 0 f).setWidth 64
  | .hend f => (packCF 40 1 f).setWidth 64
  | .hjoin f => (packCF 40 2 f).setWidth 64
  | .hkill f => (packCF 40 3 f).setWidth 64
  | .taskq f => (packCF 40 4 f).setWidth 64
  | .taskqLone f => packLF 40 f
  | .gfuse f => (packCF 41 0 f).setWidth 64
  | .gsplit f => (packCF 41 1 f).setWidth 64
  | .csign f => (packCF 42 0 f).setWidth 64
  | .cstep f => (packCF 42 1 f).setWidth 64
  | .cdiss f => (packCF 42 2 f).setWidth 64
  | .send f => (packCF 43 0 f).setWidth 64
  | .recv f => (packCF 43 1 f).setWidth 64
  | .recvt f => (packCF 43 2 f).setWidth 64
  | .coll f => (packCF 44 0 f).setWidth 64
  | .collLone f => packLF 44 f
  | .cwait f => (packCF 44 1 f).setWidth 64
  | .mbegin f => (packCF 45 0 f).setWidth 64
  | .mend f => (packCF 45 1 f).setWidth 64
  | .mzero f => (packCF 45 2 f).setWidth 64
  | .msync f => (packCF 45 3 f).setWidth 64
  | .mma f => packLF 16 f
  | .mldb f => packLF 18 f
  | .mrot f => packLF 19 f
  | .mstore f => packLF 20 f
  | .mload f => packLF 21 f
  | .matrixKstep _ => 0
  | .ringHandover _ => 0
  | .matrixTrap _ => 0
  | .ecall f => (packCF 46 0 f).setWidth 64
  | .eret f => (packCF 46 1 f).setWidth 64
  | .sysr f => (packCF 46 2 f).setWidth 64
  | .sysw f => (packCF 46 3 f).setWidth 64
  | .waiti f => (packCF 46 4 f).setWidth 64
  | .yield f => (packCF 46 5 f).setWidth 64
  | .brk f => (packCF 46 6 f).setWidth 64
  | .halt f => (packCF 46 7 f).setWidth 64
  | .snap f => (packCF 46 8 f).setWidth 64
  | .tlbinv f => (packCF 47 0 f).setWidth 64
  | .resize f => (packCF 47 1 f).setWidth 64
  | .lineclr f => (packCF 47 2 f).setWidth 64
  | .cwb f => (packCF 47 3 f).setWidth 64
  | .cinv f => (packCF 47 4 f).setWidth 64
  | .ctxsave f => (packCF 48 0 f).setWidth 64
  | .ctxload f => (packCF 48 1 f).setWidth 64
  | .preempt f => (packCF 48 2 f).setWidth 64
  | .kget f => (packCF 49 0 f).setWidth 64
  | .kset f => (packCF 49 1 f).setWidth 64
  | .vld f => (packCM 31 f).setWidth 64
  | .vsta f => (packCM 32 f).setWidth 64
  | .vstorePair _ _ => 0
  | .li f => packLF 0 f
  | .lih f => packLF 1 f
  | .j f => packLF 2 f
  | .jal f => packLF 3 f
  | .lia f => packLF 4 f
  | .cpy f => packLF 32 f
  | .vgather f => packLF 34 f
  | .vscatter f => packLF 35 f
  | .anop w => (packAW 0 ⟨w, 0, 0, 0, 0, 0⟩).setWidth 64
  | .vadd f => (packAW 1 f).setWidth 64
  | .vsub f => (packAW 2 f).setWidth 64
  | .vmul f => (packAW 3 f).setWidth 64
  | .vmulh f => (packAW 4 f).setWidth 64
  | .vmin f => (packAW 5 f).setWidth 64
  | .vmax f => (packAW 6 f).setWidth 64
  | .vand f => (packAW 7 f).setWidth 64
  | .vor f => (packAW 8 f).setWidth 64
  | .vxor f => (packAW 9 f).setWidth 64
  | .vandn f => (packAW 10 f).setWidth 64
  | .vshl f => (packAW 11 f).setWidth 64
  | .vshr f => (packAW 12 f).setWidth 64
  | .vsar f => (packAW 13 f).setWidth 64
  | .vabs f => (packAW 14 f).setWidth 64
  | .vclz f => (packAW 15 f).setWidth 64
  | .vpopc f => (packAW 16 f).setWidth 64
  | .vadds f => (packAW 17 f).setWidth 64
  | .vsubs f => (packAW 18 f).setWidth 64
  | .vfadd f => (packAW 19 f).setWidth 64
  | .vfsub f => (packAW 20 f).setWidth 64
  | .vfmul f => (packAW 21 f).setWidth 64
  | .vfma f => (packAW 22 f).setWidth 64
  | .vfmin f => (packAW 23 f).setWidth 64
  | .vfmax f => (packAW 24 f).setWidth 64
  | .vrcp f => (packAW 25 f).setWidth 64
  | .vrsq f => (packAW 26 f).setWidth 64
  | .vexp2 f => (packAW 27 f).setWidth 64
  | .vlog2 f => (packAW 28 f).setWidth 64
  | .vsqrt f => (packAW 29 f).setWidth 64
  | .vcvt f => (packAW 30 f).setWidth 64
  | .vcvtNarrow f => (packAW 30 f).setWidth 64
  | .vceq f => (packAW 31 f).setWidth 64
  | .vcne f => (packAW 32 f).setWidth 64
  | .vclt f => (packAW 33 f).setWidth 64
  | .vcle f => (packAW 34 f).setWidth 64
  | .vsel f => (packAW 35 f).setWidth 64
  | .vrsum f => (packAW 36 f).setWidth 64
  | .vrmax f => (packAW 37 f).setWidth 64
  | .vrmin f => (packAW 38 f).setWidth 64
  | .vshuf f => (packAW 39 f).setWidth 64
  | .vrotl f => (packAW 40 f).setWidth 64
  | .vbcast f => (packAW 41 f).setWidth 64
  | .vcompr f => (packAW 42 f).setWidth 64
  | .vexpnd f => (packAW 43 f).setWidth 64
  | .vtmrg f => (packAW 44 f).setWidth 64
  | .vtscl f => (packAW 45 f).setWidth 64
  | .vhash f => (packAW 46 f).setWidth 64
  | .vpart f => (packAW 47 f).setWidth 64
  | .vrng f => (packAW 48 f).setWidth 64
  | .vscan f => (packAW 49 f).setWidth 64
  | .vrank f => (packAW 50 f).setWidth 64
  | .vstd f => (packAW 51 f).setWidth 64
  | .vmkmask f => (packAW 52 f).setWidth 64
  | .kand f => (packAW 53 f).setWidth 64
  | .kor f => (packAW 53 f).setWidth 64
  | .kxor f => (packAW 53 f).setWidth 64
  | .kandn f => (packAW 53 f).setWidth 64
  | .knot f => (packAW 53 f).setWidth 64
  | .kpopc f => (packAW 54 f).setWidth 64
  | .syswFlags f => (packCF 46 3 f).setWidth 64
  | .syswRingcfg f => (packCF 46 3 f).setWidth 64
  | .syswRecvbase f => (packCF 46 3 f).setWidth 64
  | .syswRecvsize f => (packCF 46 3 f).setWidth 64
  | .recvtailClr f => (packCF 46 3 f).setWidth 64
  | .glDrainGo f => (packCF 46 3 f).setWidth 64
  | .glRelockGo f => (packCF 46 3 f).setWidth 64
  | .glLanestatEn f => (packCF 46 3 f).setWidth 64
  | .glAllowWithhold f => (packCF 46 3 f).setWidth 64
  | .yqtbaseWrite _ _ => 0
  | .featackWrite _ _ => 0
  | .helpertrap _ => 0
  | .quarantine _ _ => 0
  | .fenceRectangle _ _ => 0
  | .rectangleReady _ => 0
  | .homeRead _ _ _ => 0
  | .homeRegister _ _ _ => 0
  | .homeWriteback _ _ _ => 0
  | .homeReturn _ _ _ => 0
  | .homeAmo _ _ _ _ _ _ => 0
  | .readRecall _ _ _ => 0
  | .writeRecall _ _ _ => 0
  | .registerGrant _ => 0
  | .fillReturn _ _ _ _ _ => 0
  | .remoteInvalidate _ _ => 0
  | .operationPacket _ _ _ _ => 0
  | .hostRead _ => 0
  | .hostWrite _ _ _ _ => 0
  | .hostSnoop _ => 0
  | .backInvalidateAnswer _ _ _ => 0
  | .cxlLinkDown _ => 0
  | .cxlLinkUp _ => 0
  | .tentativeCommit _ _ => 0
  | .tentativeDiscard _ _ => 0
  | .walkComplete _ _ _ => 0
  | .patrolScrub _ _ => 0
  | .copyPiece _ _ => 0
  | .recordComplete _ _ => 0
  | .directTransferDone _ => 0
  | .slotLanding _ _ _ _ _ _ => 0
  | .barrierUpdate _ _ _ _ => 0
  | .aonVersionRaise _ => 0
  | .trackerReport _ _ _ => 0
  | .trackerHeldStart _ _ => 0
  | .compactSignature _ => 0
  | .compactWithdrawal _ => 0
  | .compactTreeArrival _ _ => 0
  | .memberLoss _ => 0
  | .pipDelivery _ _ _ _ _ => 0
  | .pipExpiry _ _ => 0
  | .pipQuarEnd _ _ => 0
  | .pipEnd _ _ => 0
  | .messageArrival _ _ _ => 0
  | .recvtTimeout _ => 0
  | .vetchStep _ _ _ => 0
  | .contributionArrival _ _ _ => 0
  | .apertureApply _ _ _ _ _ _ _ _ _ => 0
  | .spanReceive _ _ => 0
  | .slotEdge _ _ => 0
  | .allowanceReturn _ _ _ => 0
  | .drainMarker _ _ => 0
  | .drainTimeout _ => 0
  | .relockRotation _ => 0
  | .relockDone _ _ => 0
  | .laneRetrain _ _ => 0
  | .laneHandback _ _ _ => 0
  | .tailWake _ _ => 0
  | .launchSelect _ => 0
  | .launchAging _ _ => 0
  | .launchStart _ _ => 0
  | .launchForward _ _ => 0
  | .launchComplete _ => 0
  | .saveServiceStart _ => 0
  | .partitionResume _ => 0
  | .taskStart _ => 0
  | .issuePriorityRaise _ _ _ => 0
  | .yieldExpiry _ _ => 0
  | .powerOnReset _ => 0
  | .getVersion _ => 0
  | .getCapabilities _ => 0
  | .negotiateAlgorithms _ _ => 0
  | .getDigests _ => 0
  | .getCertificate _ => 0
  | .challenge _ _ => 0
  | .getMeasurements _ _ => 0
  | .keyExchange _ _ => 0
  | .finish _ => 0
  | .keyUpdate _ => 0
  | .heartbeat _ => 0
  | .endSession _ => 0
  | .pldmFirmwareUpdate _ _ _ _ => 0
  | .pldmSetPcap _ _ => 0
  | .snapTrigger _ => 0
  | .snapRead _ => 0
  | .mgmtEventSend _ => 0
  | .powerWindow _ _ => 0
  | .thermalTrip _ _ => 0
  | .reservedEncoding _ _ => 0
  | .matrixCommandRetirement _ => 0
  | .bankRetention _ _ => 0
  | .ieee1588Synchronisation _ _ => 0
  | .devidAssignment _ _ _ => 0

/-- The instruction that the words of encode decode to, by the form of what was encoded. -/
def decodeAs (k : Form) (u : Word) : Option Instr :=
  match k with
  | .cword => decodeC (bits u 0 32)
  | .aword => decodeA (bits u 0 32)
  | .lone => decodeLone u
  | .event => none

/-- A unit that holds the instruction: a C-word with ANOP, an A-word with CNOP, or the lone unit. -/
def unitOf (i : Instr) : Word :=
  match i.form with
  | .cword => encode i
  | .aword => encode i <<< 32
  | .lone => encode i
  | .event => 0

/-- The unit that a probe word stands for: 32 bits are a C-word with ANOP where they decode as one, else an A-word with CNOP
where they decode as one; anything else is a whole unit. -/
def tableUnit (nbits w : Nat) : Word :=
  let v := BitVec.ofNat 32 w
  if nbits ≤ 32 then
    if (decodeC v).isSome then v.setWidth 64
    else if (decodeA v).isSome then v.setWidth 64 <<< 32
    else v.setWidth 64
  else BitVec.ofNat 64 w

/-- The instruction the decoder reads from a probe word: of a pair, the C-word unless it is CNOP. The opcode table gives
C-words and A-words in 32 bits each, and many A-word patterns are also C-word patterns: the C-word reading is taken first. -/
def decodeTableWord (nbits w : Nat) : Option Instr :=
  match decodeUnit (tableUnit nbits w) with
  | .lone i => i
  | .pair (some .cnop) a => if bits (tableUnit nbits w) 32 32 == 0 then some .cnop else a
  | .pair c _ => c

end Sys2Proof
end

