-- ==== Sys2Proof/Machine/State.lean ====
section
/-! DEFINITION. The state of a system of Bluril N8 packages: every piece of state the spec names, as plain data. Sparse
tables are sorted lists by number; what a table does not list is at its reset value. A tile is named by
package * 4096 + tile number (R11), a line by package * 2^45 + line of its 52-bit physical address (R28). -/
namespace Sys2Proof.Machine

/-! ## Registers and queues of a context (R128 to R145) -/

/-- An entry of the result queue: its value, the cycle from which it may be read, and what its slot held before (R129, R144). -/
structure QEntry where
  val : Vec
  ready : Nat
  old : Vec
  deriving DecidableEq, Repr

/-- A named register: value, ready cycle and previous value (R130, R144). -/
structure VReg where
  val : Vec
  ready : Nat
  prev : Vec
  deriving DecidableEq, Repr

/-- A mask register (R133, R144). -/
structure KReg where
  val : Word
  ready : Nat
  prev : Word
  deriving DecidableEq, Repr

/-- A mailbox (R132), and the cycle from which what was written last may be read. -/
structure Mailbox where
  val : Word
  full : Bool
  tag : BitVec 2
  src : Bool
  ready : Nat
  deriving DecidableEq, Repr

/-- Bytes of a value that a home has not answered yet: held request, offset in its line, length, place in the value. -/
structure Await where
  req : Nat
  off : Nat
  len : Nat
  pos : Nat
  deriving DecidableEq, Repr

/-- An entry of a data queue (R138): filled when filled holds and no bytes are awaited. seq is the unit that made it; dec is the format from
which the bytes are converted once they are all there (R268), 0 for none. -/
structure DqEntry where
  val : Vec
  filled : Bool
  awaits : List Await
  dec : Nat
  seq : Nat
  deriving DecidableEq, Repr

/-- An LDG, LDACQ or AMO whose destination is pending (R140): raw bytes, their number, sign extension, pointer; acq when its
acquire waits for the value (R229). -/
structure PendLoad where
  d : BitVec 5
  raw : Word
  size : Nat
  signed : Bool
  awaits : List Await
  ptr : Word
  seq : Nat
  acq : Bool
  deriving DecidableEq, Repr

/-- A VSTA that has no VSTD yet (R139, R269): pointer, width in bytes and, for space 0, the global byte address and leaf
that the probe found for each line; for space 4, the collective's instance (R183). -/
structure VstaEntry where
  ptr : Word
  width : Nat
  addrs : List (Nat × Word)
  inst : Nat
  seq : Nat
  deriving DecidableEq, Repr

/-- A VSTD that has no VSTA yet (R139, R269): lane mask over 32-bit lanes, and data. -/
structure VstdEntry where
  lanes : Word
  data : Vec
  seq : Nat
  deriving DecidableEq, Repr

/-- The kept operands of a stopped VGATHER or VSCATTER (R273). -/
structure Kept where
  unit : BitVec 49
  index : Vec
  data : Vec
  deriving DecidableEq, Repr

/-- A unit whose compute part has not issued (R134), with what its address part left behind (R137); onlyA when PIX.C had its
C-word skipped (R343), held while the effect of its address part waits for the compute parts before it (R136). rules are FRM and
CHECKMODE before its C-word, when that wrote them: they hold from the next unit (R142, R313). -/
structure Part where
  pc : Word
  image : Word
  seq : Nat
  flags : BitVec 11
  sregs : Vector Word 32
  kregs : Vector KReg 3
  pend : List PendLoad
  onlyA : Bool
  held : Bool
  rules : Option (BitVec 2 × Bool)
  deriving DecidableEq, Repr

/-- One effect lost before the next release of the context (R167): cause, pointer, order. -/
structure Loss where
  cause : BitVec 8
  ptr : Word
  seq : Nat
  deriving DecidableEq, Repr

/-- A load or AMO that is lost and is no longer pending: the first QWAIT that covers it traps (R370). after lists, by unit, the loads issued after
it (R140). -/
structure LostLoad where
  cause : BitVec 8
  ptr : Word
  seq : Nat
  after : List Nat
  deriving DecidableEq, Repr

/-- A line of a helper's effect buffer (R297): global line, set, written bytes and data, and the pointer and unit of its first store. -/
structure EffLine where
  gl : Nat
  set : Nat
  mask : ByteMask
  data : LineData
  ptr : Word
  seq : Nat
  deriving DecidableEq, Repr

/-- What the ECC of a bank in retention will find when it wakes (R131). -/
inductive BankFlaw where
  | none | corrected | uncorrectable
  deriving DecidableEq, Repr

/-- A context (R16): its registers, queues, streams, CSRs and waits. targets tells, by unit, where an X = 0 jump leads whose unit has
still its A-word to execute (R137, R343); birth tells a helper from others that have had its CTXID; since tells from when the context has been ready for a slot without issuing
in it (R336), startFrom the cycle from which its first unit may issue (R335); probed names the unit whose delivering store has passed its probe and waits (R176). -/
structure Ctx where
  /- streams -/
  pc : Word
  npc : Word
  unit : Word
  upc : Word
  seq : Nat
  useq : Nat
  skipC : Bool
  targets : Map Word
  backlog : List Part
  lastA : Option Nat
  lastC : Option Nat
  sinceA : Option Nat
  sinceC : Option Nat
  levelA : Nat
  levelC : Nat
  prio : Nat
  /- scalar side -/
  sregs : Vector Word 32
  sready : Vector Nat 32
  pend : List PendLoad
  late : BitVec 11
  /- vector side -/
  banks : Nat
  retained : Bool
  wakeAt : Nat
  flaw : BankFlaw
  queue : Vector QEntry 16
  vregs : List VReg
  kregs : Vector KReg 3
  mbs : Vector Mailbox 8
  dqs : Vector (List DqEntry) 4
  vsta : List VstaEntry
  vstd : List VstdEntry
  /- CSRs -/
  asid : BitVec 16
  flags : BitVec 11
  firstV : Bool
  firstUnit : BitVec 49
  frm : BitVec 2
  trust : Bool
  priv : Bool
  ppriv : Bool
  tip : Bool
  nr : Bool
  trapPc : BitVec 49
  mx : Bool
  stream : Bool
  cause : BitVec 8
  trapVal : Word
  pixK : Bool
  pixC : Bool
  pixIndex : BitVec 16
  evBase : BitVec 49
  bwanyLow : BitVec 3
  bwanyHigh : BitVec 3
  recvBase : BitVec 14
  recvSize : BitVec 11
  recvCount : BitVec 11
  recvTail : BitVec 11
  dirMoved : BitVec 40
  dirErr : Bool
  dirCode : BitVec 8
  seen : Vector (BitVec 16) 16
  kept : Option Kept
  losses : List Loss
  lostLoads : List LostLoad
  probed : Option Nat
  /- helpers -/
  effects : List EffLine
  heldArrivals : List Nat
  stopped : Bool
  entry : Word
  arg : Word
  birth : Nat
  /- waits -/
  wakes : Nat
  waitFrom : Option Nat
  yieldTo : Nat
  startFrom : Nat
  timeFrom : Option Nat
  joined : Bool
  deriving DecidableEq, Repr

/-! ## The tile -/

/-- R19. -/
inductive Mode where
  | idle | free | signing | member
  deriving DecidableEq, Repr

/-- A cached line of the local array (R71). va is the line number of its virtual address; gl names PHYS. perm is R, W, C. -/
structure Line where
  va : Nat
  asid : BitVec 16
  gl : Nat
  valid : WordMask
  own : WordMask
  dirty : WordMask
  perm : BitVec 3
  data : LineData
  deriving DecidableEq, Repr

/-- Why a line is pinned (R115). -/
inductive PinKind where
  | reserved | slot | compact
  deriving DecidableEq, Repr

/-- A pinned line, named by its local line number o / 128 (R114). For a bound compact line: its global line, HELD and DIRTY
words (R123, R125) and the virtual line it returns to (R126). pid is the partition that pinned it. -/
structure PinLine where
  kind : PinKind
  pid : Nat
  gl : Option Nat
  va : Nat
  dirty : WordMask
  data : LineData
  deriving DecidableEq, Repr

/-- A landing slot (R99), and the partition that allocated it. -/
structure Slot where
  alloc : Bool
  pid : Nat
  size : Nat
  off : Nat
  chunks : BitVec 128
  gen : BitVec 7
  deriving DecidableEq, Repr

/-- R174. -/
inductive PipState where
  | free | hw | live | landed | quar
  deriving DecidableEq, Repr

/-- A pip slot (R174, R175). expiry and quarEnd are TIME values; order is that of the events that made it LANDED;
pid and self name the image that its context belongs to. -/
structure Pip where
  st : PipState
  pid : Nat
  self : Nat
  gen : BitVec 13
  cid : Nat
  mb : Nat
  expiry : Option Nat
  quarEnd : Nat
  order : Nat
  tag : BitVec 2
  delivered : Bool
  val : Word
  deriving DecidableEq, Repr

/-- A local barrier (R103). -/
structure Barrier where
  expArr : BitVec 16
  expBytes : BitVec 40
  phase : Bool
  ovf : Bool
  pendArr : BitVec 16
  pendBytes : BitVec 40
  done : BitVec 16
  deriving DecidableEq, Repr

/-- The fields of a barrier, global or local, as numbers. -/
structure BarV where
  expArr : Nat
  expBytes : Nat
  phase : Bool
  ovf : Bool
  pendArr : Nat
  pendBytes : Nat
  done : Nat
  deriving DecidableEq, Repr

/-- The update that a barrier's home has applied in cycle at (R104): the barrier before and after it, whether it had an arrival and a credit,
and the updates, as arrivals and bytes, that wait for later cycles. name is that of barName. -/
structure BarPort where
  name : Nat
  at' : Nat
  pre : BarV
  post : BarV
  arr : Bool
  credit : Option Nat
  later : List (Nat × Nat)
  deriving DecidableEq, Repr

/-- R96, R286. -/
inductive ChanState where
  | idle | running | stopped (code : BitVec 8)
  deriving DecidableEq, Repr

/-- Who armed a walk or issued a transfer: partition, tile, context, unit and privilege (R96, R113). self names the tile's image of the
partition, wherever it is (R352), birth the context among those that have had its CTXID (0: whichever has it). -/
structure Armer where
  pid : Nat
  tile : Nat
  self : Nat
  cid : Nat
  unit : BitVec 49
  asid : BitVec 16
  priv : Bool
  birth : Nat
  deriving DecidableEq, Repr

/-- A transfer in progress (R92 to R110). pos is the next byte, wrote how far any try of it has written, moved what was credited; v1 is an AON
read's version, ver where the version stands that an AON write has raised to odd; inst is the instance of the collective that a transfer to
the aperture found, next the NEXT of its record, flags the word of it that holds OWN. begun tells that a MIGRATE's lines have entered
MIGRATING, or that a piece to the aperture is applied and its copies are on their way (R184). -/
structure Xfer where
  kind : Nat
  aon : Bool
  src : Word
  dst : Word
  len : Nat
  bx : Nat
  bar : Option Nat
  pos : Nat
  wrote : Nat
  moved : Nat
  retry : Nat
  v1 : Option Word
  ver : Option Nat
  begun : Bool
  stale : Bool
  code : BitVec 8
  finished : Bool
  inst : Nat
  next : Word
  flags : BitVec 32
  armer : Armer
  deriving DecidableEq, Repr

/-- A copy channel (R92, R96). -/
structure Chan where
  st : ChanState
  head : Word
  cur : Option Xfer
  moved : Nat
  armer : Armer
  deriving DecidableEq, Repr

/-- A CHAIN start held until its channel stops running (R113). -/
structure HeldStart where
  chan : Nat
  head : Word
  cluster : Nat
  tracker : Nat
  armer : Armer
  deriving DecidableEq, Repr

/-- A latch buffer (R154, R278): data with the format, block length, scales and origin that MLDB recorded. -/
structure Latch where
  data : BitVec 65536
  fmt : BitVec 5
  blog : BitVec 4
  band : BitVec 16
  scales : BitVec 8192
  origin : Nat
  deriving DecidableEq, Repr

/-- R158. -/
inductive BankMode where
  | empty | float | int
  deriving DecidableEq, Repr

/-- An accumulator bank (R158): 2,048 values of 56 bits, row-major, element 0 lowest. -/
structure Bank where
  vals : BitVec 114688
  mode : BankMode
  taint : Bool
  deriving DecidableEq, Repr

/-- An accepted matrix command (R150, R160): unit, the registers read at acceptance, k-step reached, its place in program order,
and for a space-0 MSTORE or MLOAD the global address of each line as acceptance translated it (none: no such package). -/
structure MCmd where
  image : Word
  pc : Word
  ra : Word
  rb : Word
  rc : Word
  step : Nat
  seq : Nat
  addrs : List (Option Nat)
  deriving DecidableEq, Repr

/-- A matrix trap that waits to be taken (R160). -/
structure MTrap where
  code : BitVec 8
  val : Word
  index : Nat
  deriving DecidableEq, Repr

/-- The matrix engine of a tile (R150 to R163). -/
structure Engine where
  bank0 : Bank
  bank1 : Bank
  consume : Option Latch
  receive : Option Latch
  reserved : Nat
  outgoing : Option Latch
  refused : Option Nat
  order : BitVec 24
  logp : BitVec 2
  en : Bool
  rstep : BitVec 8
  chain : Option Bool
  queue : List MCmd
  trap : Option MTrap
  stopped : Bool
  badScale : Bool
  deriving DecidableEq, Repr

/-- A task of the gate (R301, R302): entry, record, inputs as (handle, chunk mask), banks, priority, its TASKQ unit. -/
structure Task where
  entry : Word
  record : Word
  inputs : List (Word × BitVec 128)
  banks : Nat
  prio : Nat
  unit : BitVec 49
  deriving DecidableEq, Repr

/-- A stopped helper's trap that the control context has not taken (R344). -/
structure Post where
  cid : Nat
  cause : BitVec 8
  pc : BitVec 49
  deriving DecidableEq, Repr

/-- A fence record (R355): cause and unit, the helpers and tasks as (entry, s1, banks, priority, NR), the tiles fenced with it, and
whether one of them is quarantined. -/
structure FenceRec where
  cause : BitVec 8
  unit : BitVec 49
  work : List (Word × Word × Nat × Nat × Bool)
  tiles : List Nat
  quarantined : Bool
  deriving DecidableEq, Repr

/-- A saved tile image (R347, R348): its contexts, engine, local barriers and helper traps still to be taken, its partition, the
tile on which its contexts started, and where it was saved. -/
structure Image where
  ctxs : Map Ctx
  engine : Engine
  bars : Vector Barrier 16
  posts : List Post
  pid : Nat
  self : Nat
  origin : Nat
  deriving DecidableEq, Repr

/-- A line of the instruction cache (R191), named by virtual line and ASID. -/
structure ILine where
  va : Nat
  asid : BitVec 16
  user : Bool
  data : LineData
  deriving DecidableEq, Repr

/-- Where a member stands in its compact: its CSIGN has not been answered; it has, and no boundary is in progress; the boundary's
words are published; its chain runs; it has arrived; the boundary is complete (R122, R125). -/
inductive Phase where
  | signing | formed | between | published | chained | arrived (own : Bool) | complete (any own : Bool)
  deriving DecidableEq, Repr

/-- A tile's part in a compact (R119, R125): the compact's pair, the copy channel and first chain of its entry, the phase, the
boundaries it has completed, and whether a member was lost (R127). -/
structure Member where
  dev : Nat
  cid : Nat
  chan : Nat
  chain0 : Word
  phase : Phase
  boundary : Nat
  lost : Bool
  deriving DecidableEq, Repr

/-- What of a pre-empted partition stays with its tile (R288, R346): channels, direct transfers, held starts, queued tasks, the
statuses for HJOIN, the compact and the gang, and its pinned lines at local lines that a later launch has pinned too (R115, R127). -/
structure Parked where
  pid : Nat
  chans : Vector Chan 4
  direct : List Xfer
  held : List HeldStart
  gate : List Task
  joins : Map Nat
  member : Option Member
  gang : Option Nat
  lines : Map PinLine
  deriving DecidableEq, Repr

/-- A tile. save is the image in its save store, saved its bytes that have left, loaded that CTXLOAD put it there (R348, R350,
R352); origin is the tile on which its contexts were saved last, self the one on which they started. quiet names the only
context that issues while its RESIZE waits (R117); gateFrom is the cycle from which the gate may start a task, after an HSTART (R335). -/
structure Tile where
  mode : Mode
  pid : Nat
  self : Nat
  ctxs : Map Ctx
  lines : List Line
  pins : Map PinLine
  pinLimit : Nat
  icache : List ILine
  slots : Map Slot
  pips : Map Pip
  landings : Nat
  bars : Vector Barrier 16
  chans : Vector Chan 4
  direct : List Xfer
  held : List HeldStart
  engine : Engine
  gate : List Task
  joins : Map Nat
  posts : List Post
  gang : Option Nat
  fuse : Option (BitVec 8)
  sfuBusy : Nat
  flashUntil : Nat
  save : Option Image
  saved : Nat
  loaded : Bool
  origin : Nat
  parked : List Parked
  fenceRec : Option FenceRec
  fenced : Bool
  mismatches : Nat
  member : Option Member
  born : Nat
  gateFrom : Nat
  quiet : Option Nat
  deriving DecidableEq, Repr

/-! ## Clusters, regions, homes -/

/-- A leaf translation in a slice's TLB (R38): page is VA / 64 KiB or VA / 512 MiB. attr is the leaf entry. -/
structure TlbEntry where
  asid : BitVec 16
  page : Nat
  large : Bool
  attr : Word
  deriving DecidableEq, Repr

/-- R113. -/
inductive TrkState where
  | free | counting | armed | fired
  deriving DecidableEq, Repr

/-- A store tracker (R112, R113), bound to a physical range and, for CREDIT, a physical barrier. -/
structure Tracker where
  st : TrkState
  base : Nat
  len : Nat
  thresh : Nat
  count : Nat
  act : Nat
  tile : Nat
  aux : Nat
  opd0 : Word
  opd1 : Word
  bar : Nat
  desc : Word
  armer : Armer
  deriving DecidableEq, Repr

/-- A cluster: slice TLB (R38), most recently used first; the lines its slice holds (R75); trackers (R112). -/
structure Cluster where
  tlb : List TlbEntry
  slice : List Nat
  trackers : Map Tracker
  offline : Bool
  deriving DecidableEq, Repr

/-- A page walk in flight (R39): ASID, page, the slices joined, whether its fill is to be discarded (R40). -/
structure Walk where
  asid : BitVec 16
  va : Nat
  slices : List Nat
  discard : Bool
  deriving DecidableEq, Repr

/-- A contribution that a Vetch program sends (R178, R181, R371): the rank, package and region it goes to, its key, the buffer and offset of its
bytes; pulled is its place in the queues once its receiver has asked for it, when data is read; via is the package that relays its spans. Of its
spans, landed are verified and relay wait in the relay; part has the flits that a port has sent of the span under way. -/
structure Contrib where
  dst : Nat
  pkg : Nat
  region : Nat
  step : Nat
  src : Nat
  buf : Word
  off : Nat
  len : Nat
  data : Nat
  pulled : Option Nat
  via : Option Nat
  landed : List Nat
  relay : List Nat
  part : Map Nat
  acked : Bool
  deriving DecidableEq, Repr

/-- A store to the aperture that Vetch has applied and must still forward to the ranks listed (R183, R184): who stored, its pointer and unit's
place, operator, buffer, offset, bytes and their mask. -/
structure Forward where
  tile : Nat
  pid : Nat
  cid : Nat
  ptr : Word
  seq : Nat
  op : Nat
  buf : Nat
  off : Nat
  len : Nat
  mask : Nat
  data : Nat
  ranks : List Nat
  deriving DecidableEq, Repr

/-- A live collective program (R178 to R184, R308 to R311). -/
structure Prog where
  id : Nat
  inst : Nat
  tile : Nat
  cid : Nat
  pid : Nat
  asid : BitVec 16
  priv : Bool
  prog : Word
  table : Word
  rank : Nat
  nranks : Nat
  pc : Word
  steps : Nat
  ctrs : List (BitVec 24)
  flags : BitVec 11
  checked : Bool
  halfway : Bool
  out : Option Contrib
  applied : List (Nat × Nat × Nat)
  forwards : List Forward
  signals : Nat
  aperBytes : Map Nat
  stopped : Bool
  deriving DecidableEq, Repr

/-- A region: walkers and miss FIFO (R39), Vetch (R178) and completed statuses (R309). -/
structure Region where
  walks : List Walk
  fifo : List Walk
  progs : List Prog
  done : Map Word
  insts : Nat
  deriving DecidableEq, Repr

/-- The state of a line at its home (R44, R76). -/
inductive LineState where
  | normal | migrating | forward (gl : Nat) | poison | held
  deriving DecidableEq, Repr

/-- An owner record (R76), oldest first in the directory entry. -/
structure Owner where
  tile : Nat
  mask : WordMask
  deriving DecidableEq, Repr

/-- R76: a host copy under CXL.mem. -/
inductive HostCopy where
  | none | shared | modified
  deriving DecidableEq, Repr

/-- R76: remote copies in the domain. -/
inductive Remote where
  | none | shared (mask : BitVec 64) | modified (pos : Nat)
  deriving DecidableEq, Repr

/-- Words of a line that are tentative for a helper (R297), named by its tile and by CTXID + 16 * partition. -/
structure Tent where
  tile : Nat
  helper : Nat
  mask : WordMask
  deriving DecidableEq, Repr

/-- A directory entry (R76), with the holder of a HELD line (R123), and its tentative words (R297). -/
structure Dir where
  st : LineState
  owners : List Owner
  host : HostCopy
  remote : Remote
  holder : Nat
  tentative : List Tent
  deriving DecidableEq, Repr

/-- What a held request does when it is served. A register store's bytes stand in the array already, marked D (R79); a tentative one's
in a helper's effect buffer (R297). An update changes a barrier at byte off of the line: BINIT, BEXPECT or an arrival; await is a
BWAIT that waits there for a DONE other than seen (R238, R240). A delivering store reaches the pip that its pointer names (R176); desc is
the descriptor of the tracker whose delivery it is (R113). -/
inductive HeldWork where
  | read
  | store (mask : ByteMask) (data : LineData)
  | register (mask : ByteMask) (data : LineData)
  | tentative
  | amo (op : Nat) (dbl : Bool) (off : Nat) (x cmp : Word)
  | update (off kind arr bytes : Nat)
  | await (off seen : Nat)
  | deliver (v : Word) (desc : Option Nat)
  deriving DecidableEq, Repr

/-- Where a request is: in its package's send queue, in the relay buffer of package q (R168), or at the home of its line. -/
inductive Stage where
  | queue
  | relay (q : Nat)
  | home
  deriving DecidableEq, Repr

/-- The name, line and permissions under which words are kept in the array (R71). -/
structure Fill where
  gl : Nat
  va : Nat
  asid : BitVec 16
  perm : BitVec 3
  deriving DecidableEq, Repr

/-- A request a home has not answered: one that waits in the fabric (R370) or at its home (R44, R87, R124, R297). words are those
it needs; via is the relay of its path, by position, none for a direct one (R168); slot is its hardware pip slot (R166); mine lists bytes
of the line that the asker had of its own when it asked. cause is that of a loss. -/
structure Held where
  id : Nat
  tile : Nat
  pid : Nat
  self : Nat
  cid : Nat
  unit : BitVec 49
  gl : Nat
  words : WordMask
  work : HeldWork
  ptr : Word
  seq : Nat
  stage : Stage
  via : Option Nat
  slot : Option Nat
  fill : Option Fill
  mine : ByteMask
  mineData : LineData
  answer : Option LineData
  lost : Bool
  cause : BitVec 8
  deriving DecidableEq, Repr

/-! ## Launches, compacts, packages -/

/-- R21: what a partition is doing. -/
inductive PartState where
  | live | preempted
  deriving DecidableEq, Repr

/-- A partition (R21): its launch record, record class, tiles, those that halted and those whose images were loaded. -/
structure Partition where
  pid : Nat
  st : PartState
  asid : BitVec 16
  record : List Word
  rclass : Nat
  dev : Nat
  tiles : List Nat
  halted : List Nat
  loaded : List Nat
  cplCode : Nat
  deriving DecidableEq, Repr

/-- A compact (R118 to R127) as its coordinator holds it, known by (device number of member 0, CID): descriptor pointer, members
in rank order, signatures, whether it has formed, the arrivals at the boundary in progress with their own, those of them that
are CDISS, and lost members. -/
structure Compact where
  dev : Nat
  cid : Nat
  desc : Word
  members : List Nat
  signed : List Nat
  formed : Bool
  arrived : List (Nat × Bool)
  leaving : List Nat
  lost : List Nat
  deriving DecidableEq, Repr

/-- A launch queue as Yarrow holds it (R326, R327, R331): HEAD, ERR, records taken, waiting time and aging of its head; watch tells that the line of
its tail word is held, lost that a loss of the host link took it and the queue is still to be set ERR (R367). -/
structure YQueue where
  head : Nat
  err : Bool
  watch : Bool
  lost : Bool
  records : List (List Word)
  since : Nat
  raise : Nat
  lastServed : Nat
  reserver : Bool
  deriving DecidableEq, Repr

/-- Yarrow's BAR0 registers and queues (R325, R351, R354, R368); acked tells that the host driver has written FEATACK (R373). -/
structure Yarrow where
  acked : Bool
  qtBase : BitVec 40
  en : Bool
  gtBase : BitVec 40
  age : Nat
  svEntry : BitVec 49
  svEn : Bool
  svAsid : BitVec 16
  ftBase : BitVec 33
  evEntry : BitVec 49
  evEn : Bool
  queues : Map YQueue
  credit : Map Nat
  serves : Nat
  pids : Nat
  deriving DecidableEq, Repr

/-- R364. -/
inductive FabricState where
  | run | drain | dark | relock
  deriving DecidableEq, Repr

/-- A lane (R365). -/
structure Lane where
  st : BitVec 2
  en : Bool
  pend : Bool
  retrains : Nat
  prefec : BitVec 48
  inRotation : Nat
  failTimes : List Nat
  deriving DecidableEq, Repr

/-- Allowance toward a destination (R363): owed is what it has consumed and not returned, and after the first slot in which it may (R372); up
tells that a path is up (R369). -/
structure Allow where
  withhold : Bool
  send : Nat
  owed : Nat
  after : Nat
  up : Bool
  deriving DecidableEq, Repr

/-- What a span belongs to: a held request, a transfer of a channel (4: the direct queue), a contribution of a collective. -/
inductive SpanOwner where
  | request (id : Nat)
  | xfer (tile ch : Nat)
  | vetch (region id : Nat)
  deriving DecidableEq, Repr

/-- A span whose tag has failed n times, and that its path sends again before any other (R172). -/
structure Failing where
  owner : SpanOwner
  n : Nat
  deriving DecidableEq, Repr

/-- Transmissions that a path will still change on the way: their number, and the bits of a span's data that change. -/
structure Garble where
  n : Nat
  flip : Nat
  deriving DecidableEq, Repr

/-- The Gloam registers and state of a package (R358 to R372). failing and garbled are by path (pathKey); used has the flits that each port has
sent in slot usedSlot; calRot is one more than the last rotation in which the calibration path was used (R365). -/
structure Fabric where
  st : FabricState
  code : Nat
  since : Nat
  slots : Map Word
  shadowSlots : Map Word
  paths : Map Word
  shadowPaths : Map Word
  len : BitVec 2
  lenNext : BitVec 2
  guard : BitVec 10
  guardNext : BitVec 10
  at' : BitVec 48
  relockGo : Bool
  allows : Map Allow
  markers : List Nat
  lanes : Map Lane
  replay : Map Nat
  usedSlot : Nat
  used : Map Nat
  calPort : Nat
  calRot : Nat
  retraining : List Nat
  failn : BitVec 8
  thresh : BitVec 32
  failing : Map Failing
  garbled : Map Garble
  deriving DecidableEq, Repr

/-- A snapshot set (R380): TIME and the hub cycle of its trigger. -/
structure Snap where
  time : Nat
  cycle : Nat
  deriving DecidableEq, Repr

/-- A PLDM event record (R379): TIME, class, source and class data. -/
structure MgmtEvent where
  time : Nat
  cls : Nat
  source : Nat
  data : Nat
  deriving DecidableEq, Repr

/-- The SPDM responder (R376): what was negotiated, the session, the CXL IDE and UEC transport keys that one has established, and the answer to the
last request. -/
structure Spdm where
  versioned : Bool
  capable : Bool
  negotiated : Bool
  session : Bool
  finished : Bool
  ide : Option (BitVec 256)
  uec : Option (BitVec 256)
  keys : Nat
  transcript : Nat
  response : Nat
  payload : List Nat
  deriving DecidableEq, Repr

/-- The management controller and security root (R373 to R381): measurement registers that have been extended since the boot that
left the machine at reset, firmware images that an update has stored, by kind, the hub cycle of the last snapshot trigger, fabric triggers that
wait for their TIME (R380), and records of corrected errors whose second runs (R379). -/
structure Mgmt where
  stage : Nat
  failed : Bool
  measures : Map (BitVec 256)
  images : Map Nat
  svnMin : Map Nat
  spdm : Spdm
  events : List MgmtEvent
  sent : List (BitVec 248)
  lostEvents : Nat
  pcap : Nat
  clockStep : Nat
  trip : Bool
  powered : Bool
  hot : Bool
  snap : Option Snap
  snapLost : Nat
  snapAt : Option Nat
  triggers : List Nat
  ecc : Map Nat
  merging : List MgmtEvent
  deriving DecidableEq, Repr

/-- A package. -/
structure Device where
  domain : BitVec 6
  pos : BitVec 6
  dark : Bool
  featAck : BitVec 8
  rows : Map Nat
  clusters : Map Cluster
  regions : Map Region
  fabric : Fabric
  yarrow : Yarrow
  mgmt : Mgmt
  cxlUp : Bool
  timeBase : Nat
  timeFrom : Nat
  cycBase : Nat
  cycFrom : Nat
  deriving DecidableEq, Repr

/-! ## The system -/

/-- What acts next when the agenda says so: an event or outside input of the opcode table, the issue slots of a tile, a host
write to a BAR0 register (R325), an uncorrectable error in the next ring or scale operand of a tile's matrix engine (R161),
symbols that a lane has corrected (R365), a flit that arrives at a port (R171), spans that a path changes on the way (R172), an error that comes
into a context's bank in retention (R131), an event that the supervisor posts to a tile (R314), a first mismatch of a tile's checker (R162), a fabric trigger message (R380),
a digest with which the host driver extends a measurement register (R374), the end of a partition by the supervisor (R330), or time passing. -/
inductive Turn where
  | event (i : Instr)
  | tile (t : Nat)
  | upset (t : Nat)
  | post (t : Nat)
  | bankError (t c : Nat) (flaw : BankFlaw)
  | bar0 (dev off : Nat) (v : Word)
  | symbols (dev lane n : Nat)
  | flit (dev port : Nat) (bits : BitVec 2048)
  | garble (dev path n flip : Nat)
  | mismatch (t : Nat)
  | trigger (dev time : Nat)
  | extend (dev n : Nat) (digest : BitVec 256)
  | endPartition (pid : Nat)
  | idle (cycles : Nat)
  deriving DecidableEq, Repr

/-- What became of the part issued last. -/
inductive Fate where
  | done | trapped | waited | stopped
  deriving DecidableEq, Repr

/-- The whole machine. heldIds numbers requests and helpers; ports are the updates of barriers in this cycle, and those that wait (R104).
away lists the images that have left their save stores (R350); cur and cid name the context whose part is being issued, compute its
stream; slots are the tiles whose issue slots cycle now has still to grant (R336), turns counts the hardware that has acted in it. -/
structure State where
  mem : List Host.Cell
  dirs : Map Dir
  held : List Held
  heldIds : Nat
  present : List Nat
  devices : Map Device
  tiles : Map Tile
  partitions : List Partition
  compacts : List Compact
  away : List Image
  aonHolds : List (Nat × Nat)
  aonWaits : List (Nat × Nat)
  ports : List BarPort
  agenda : List Turn
  cur : Nat
  cid : Nat
  compute : Bool
  fate : Fate
  now : Nat
  slots : List Nat
  turns : Nat
  deriving DecidableEq, Repr

/-! ## Stops -/

/-- The machine stops with a fault. No instruction or event of this spec raises one: R5 leaves no outcome open, and every
trap of R341 is taken. -/
inductive Fault where
  /-- Raised by no instruction: a tile number, register or table index outside the machine cannot be reached. Safe. -/
  | outside (what : String)
  deriving DecidableEq, Repr

/-- No meaning for the instruction. -/
inductive Refusal where
  /-- Raised by an arm of exec that has no meaning yet. Safe: no step is claimed of it. -/
  | notModelled (mnemonic : String)
  deriving DecidableEq, Repr

/-- Why a meaning does not complete: it traps with nothing changed (R341); it traps and leaves a changed state; it traps with a
long instruction stopped at an element (R343); it waits, and is tried again; or it waits having changed the state. -/
inductive Stop where
  | trap (code : BitVec 8) (val : Word)
  | trapWith (code : BitVec 8) (val : Word) (s : State)
  | trapLong (code : BitVec 8) (val : Word) (index : Nat) (s : State)
  | wait
  | waitWith (s : State)
  deriving DecidableEq, Repr

/-! ## Reset values (R3, and the log's choices) -/

def Mailbox.reset : Mailbox := ⟨0, false, 0, false, 0⟩
def QEntry.reset : QEntry := ⟨0, 0, 0⟩
def VReg.reset : VReg := ⟨0, 0, 0⟩
/-- R133: all ones at context start. -/
def KReg.reset : KReg := ⟨BitVec.allOnes 64, 0, BitVec.allOnes 64⟩
def Barrier.reset : Barrier := ⟨0, 0, false, false, 0, 0, 0⟩
def Armer.reset : Armer := ⟨0, 0, 0, 0, 0, 0, false, 0⟩

/-- A context as R128 to R133 leave it at its start, before the launch or HSTART sets its few registers. -/
def Ctx.reset : Ctx where
  pc := 0
  npc := 0
  unit := 0
  upc := 0
  seq := 0
  useq := 0
  skipC := false
  targets := []
  backlog := []
  lastA := none
  lastC := none
  sinceA := none
  sinceC := none
  levelA := 0
  levelC := 0
  prio := 2
  sregs := Vector.replicate 32 0
  sready := Vector.replicate 32 0
  pend := []
  late := 0
  banks := 0
  retained := false
  wakeAt := 0
  flaw := .none
  queue := Vector.replicate 16 QEntry.reset
  vregs := []
  kregs := Vector.replicate 3 KReg.reset
  mbs := Vector.replicate 8 Mailbox.reset
  dqs := Vector.replicate 4 []
  vsta := []
  vstd := []
  asid := 0
  flags := 0
  firstV := false
  firstUnit := 0
  frm := 0
  trust := false
  priv := false
  ppriv := false
  tip := false
  nr := false
  trapPc := 0
  mx := false
  stream := false
  cause := 0
  trapVal := 0
  pixK := false
  pixC := false
  pixIndex := 0
  evBase := 0
  bwanyLow := 0
  bwanyHigh := 0
  recvBase := 0
  recvSize := 0
  recvCount := 0
  recvTail := 0
  dirMoved := 0
  dirErr := false
  dirCode := 0
  seen := Vector.replicate 16 0
  kept := none
  losses := []
  lostLoads := []
  probed := none
  effects := []
  heldArrivals := []
  stopped := false
  entry := 0
  arg := 0
  birth := 0
  wakes := 0
  waitFrom := none
  yieldTo := 0
  startFrom := 0
  timeFrom := none
  joined := false

def Slot.reset : Slot := ⟨false, 0, 0, 0, 0, 0⟩
def Pip.reset : Pip := ⟨.free, 0, 0, 0, 0, 0, none, 0, 0, 0, false, 0⟩
def Chan.reset : Chan := ⟨.idle, 0, none, 0, Armer.reset⟩
def Bank.reset : Bank := ⟨0, .empty, false⟩

/-- R153, R154, R158. -/
def Engine.reset : Engine where
  bank0 := Bank.reset
  bank1 := Bank.reset
  consume := none
  receive := none
  reserved := 0
  outgoing := none
  refused := none
  order := 0
  logp := 0
  en := false
  rstep := 0
  chain := none
  queue := []
  trap := none
  stopped := false
  badScale := false

/-- A tile after reset: IDLE (R373), pin limit 10 (R116), every slot and pip free. -/
def Tile.reset : Tile where
  mode := .idle
  pid := 0
  self := 0
  ctxs := []
  lines := []
  pins := []
  pinLimit := 10
  icache := []
  slots := []
  pips := []
  landings := 0
  bars := Vector.replicate 16 Barrier.reset
  chans := Vector.replicate 4 Chan.reset
  direct := []
  held := []
  engine := Engine.reset
  gate := []
  joins := []
  posts := []
  gang := none
  fuse := none
  sfuBusy := 0
  flashUntil := 0
  save := none
  saved := 0
  loaded := false
  origin := 0
  parked := []
  fenceRec := none
  fenced := false
  mismatches := 0
  member := none
  born := 0
  gateFrom := 0
  quiet := none

def Tracker.reset : Tracker := ⟨.free, 0, 0, 0, 0, 0, 0, 0, 0, 0, 0, 0, Armer.reset⟩
def Cluster.reset : Cluster := ⟨[], [], [], false⟩
def Region.reset : Region := ⟨[], [], [], [], 0⟩
def Dir.reset : Dir := ⟨.normal, [], .none, .none, 0, []⟩
def YQueue.reset : YQueue := ⟨0, false, false, false, [], 0, 0, 0, false⟩

/-- R325 (AGE 1,000), R351, R354, R368. -/
def Yarrow.reset : Yarrow where
  acked := false
  qtBase := 0
  en := false
  gtBase := 0
  age := 1000
  svEntry := 0
  svEn := false
  svAsid := 0
  ftBase := 0
  evEntry := 0
  evEn := false
  queues := []
  credit := []
  serves := 0
  pids := 1

/-- R365: EN 1, every other field 0. -/
def Lane.reset : Lane := ⟨0, true, false, 0, 0, 0, []⟩
def Allow.reset : Allow := ⟨false, 0, 0, 0, false⟩

/-- R361 to R365. -/
def Fabric.reset : Fabric where
  st := .run
  code := 0
  since := 0
  slots := []
  shadowSlots := []
  paths := []
  shadowPaths := []
  len := 1
  lenNext := 1
  guard := 20
  guardNext := 20
  at' := 0
  relockGo := false
  allows := []
  markers := []
  lanes := []
  replay := []
  usedSlot := 0
  used := []
  calPort := 0
  calRot := 0
  retraining := []
  failn := 8
  thresh := 4096
  failing := []
  garbled := []

def Spdm.reset : Spdm := ⟨false, false, false, false, false, none, none, 0, 0, 0, []⟩

/-- Bring-up has reached stage 6 (R373); PCAP stands at the package's 3,000 W. -/
def Mgmt.reset : Mgmt where
  stage := 6
  failed := false
  measures := []
  images := []
  svnMin := []
  spdm := Spdm.reset
  events := []
  sent := []
  lostEvents := 0
  pcap := 3000
  clockStep := 0
  trip := false
  powered := true
  hot := false
  snap := none
  snapLost := 0
  snapAt := none
  triggers := []
  ecc := []
  merging := []

/-- A package after reset: DEVID 0 (R13), FEATACK 0 (R377), TIME from 0 (R379). -/
def Device.reset : Device where
  domain := 0
  pos := 0
  dark := false
  featAck := 0
  rows := []
  clusters := []
  regions := []
  fabric := Fabric.reset
  yarrow := Yarrow.reset
  mgmt := Mgmt.reset
  cxlUp := true
  timeBase := 0
  timeFrom := 0
  cycBase := 0
  cycFrom := 0

/-- The machine right after reset: one package, every tile IDLE, memory with nothing listed, nothing on the agenda. -/
def State.reset : State where
  mem := []
  dirs := []
  held := []
  heldIds := 0
  present := [0]
  devices := []
  tiles := []
  partitions := []
  compacts := []
  away := []
  aonHolds := []
  aonWaits := []
  ports := []
  agenda := []
  cur := 0
  cid := 0
  compute := false
  fate := .done
  now := 0
  slots := []
  turns := 0

end Sys2Proof.Machine
end

