-- ==== Sys2Proof/Machine/Maps.lean ====
section
/-! DEFINITION. Sorted tables, and main memory as a sorted list of bytes in one canonical form (R26, R28). -/
namespace Sys2Proof.Machine

/-- The entry of number k, or d where the table does not list it. -/
def mget (d : α) : Map α → Nat → α
  | [], _ => d
  | (j, v) :: m, k => if k < j then d else if k = j then v else mget d m k

/-- Entry k becomes v. -/
def mset : Map α → Nat → α → Map α
  | [], k, v => [(k, v)]
  | (j, w) :: m, k, v =>
    if k < j then (k, v) :: (j, w) :: m else if k = j then (k, v) :: m else (j, w) :: mset m k v

/-- Entry k is no longer listed. -/
def mdel : Map α → Nat → Map α
  | [], _ => []
  | (j, w) :: m, k => if k < j then (j, w) :: m else if k = j then m else (j, w) :: mdel m k

/-- The table lists k. -/
def mhas (m : Map α) (k : Nat) : Bool := m.any fun e => e.1 == k

/-- The numbers of a table strictly rise, each above lo. -/
def Map.risesFrom : Nat → Map α → Bool
  | _, [] => true
  | lo, (j, _) :: m => decide (lo ≤ j) && risesFrom (j + 1) m

/-- The numbers of a table strictly rise. -/
def Map.rises (m : Map α) : Bool := Map.risesFrom 0 m

/-! ## Bytes of memory -/

/-- Memory is in canonical form: addresses strictly rise and no byte listed equals what an unlisted address reads as. -/
def Memory.wf (m : List Host.Cell) : Bool :=
  Map.rises m && m.all fun c => c.2 != Config.unwrittenByte

/-- The byte at an address. -/
def readByte (m : List Host.Cell) (a : Nat) : BitVec 8 := mget Config.unwrittenByte m a

/-- The listed bytes of [a, a + n) as a little-endian number (R2); an unlisted byte is 0. -/
def readNat : List Host.Cell → Nat → Nat → Nat
  | [], _, _ => 0
  | (k, b) :: m, a, n =>
    if k < a then readNat m a n
    else if k < a + n then b.toNat * 256 ^ (k - a) + readNat m a n else 0

/-- The n bytes at a as a little-endian word of 8n bits. -/
def readMem (m : List Host.Cell) (a n : Nat) : BitVec (8 * n) := BitVec.ofNat (8 * n) (readNat m a n)

/-- The cells that hold the low n bytes of v at a, without those an unlisted address already reads as. -/
def cellsOf : Nat → Nat → Nat → List Host.Cell
  | _, 0, _ => []
  | a, n + 1, v =>
    let b := BitVec.ofNat 8 v
    if b = Config.unwrittenByte then cellsOf (a + 1) n (v / 256) else (a, b) :: cellsOf (a + 1) n (v / 256)

/-- The n bytes at a become the low n bytes of v. -/
def writeNat (m : List Host.Cell) (a n v : Nat) : List Host.Cell :=
  m.takeWhile (fun c => c.1 < a) ++ cellsOf a n v ++ m.dropWhile (fun c => c.1 < a + n)

/-- The line numbered gl. -/
def readLine (m : List Host.Cell) (gl : Nat) : LineData := BitVec.ofNat 1024 (readNat m (gl * 128) 128)

/-- Each bit of a mask spread over k bits. -/
def spread (k : Nat) : (n : Nat) → BitVec n → Nat
  | 0, _ => 0
  | n + 1, x => (if x.getLsbD 0 then 2 ^ k - 1 else 0) + 2 ^ k * spread k n (x.extractLsb' 1 n)

/-- The bits of the bytes of a mask. -/
def byteBits (mask : ByteMask) : LineData := BitVec.ofNat 1024 (spread 8 128 mask)
/-- The bits of the words of a mask. -/
def wordBits (mask : WordMask) : LineData := BitVec.ofNat 1024 (spread 32 32 mask)
/-- The bytes of the words of a mask. -/
def wordBytes (mask : WordMask) : ByteMask := BitVec.ofNat 128 (spread 4 32 mask)
/-- The words that a byte mask touches. -/
def touched (mask : ByteMask) : WordMask :=
  BitVec.ofNat 32 ((List.range 32).foldl (fun acc i => if bits mask (4 * i) 4 = 0 then acc else acc + 2 ^ i) 0)
/-- Where sel is 1, new; elsewhere old. -/
def blend (sel old new : BitVec n) : BitVec n := (new &&& sel) ||| (old &&& ~~~sel)

/-- The bytes of a mask at line gl become those of data. -/
def writeLine (m : List Host.Cell) (gl : Nat) (mask : ByteMask) (data : LineData) : List Host.Cell :=
  writeNat m (gl * 128) 128 (blend (byteBits mask) (readLine m gl) data).toNat

/-- Bytes [off, off + n) of a line as a mask. -/
def spanBytes (off n : Nat) : ByteMask := BitVec.ofNat 128 ((2 ^ n - 1) * 2 ^ off)
/-- The words that hold bytes [off, off + n) of a line. -/
def spanWords (off n : Nat) : WordMask := touched (spanBytes off n)
/-- n ones. -/
def ones (n : Nat) : Nat := 2 ^ n - 1

end Sys2Proof.Machine
end

