-- ==== Sys2Proof/Machine/Float.lean ====
section
/-! DEFINITION. Number formats and exact arithmetic (R48 to R61): values are decoded to exact dyadic numbers, computed
exactly, and rounded once. -/
namespace Sys2Proof.Machine

/-- An exact value: NaN, an infinity, or (-1)^s * m * 2^e (a zero keeps its sign). -/
inductive FV where
  | nan
  | inf (s : Bool)
  | fin (s : Bool) (m : Nat) (e : Int)
  deriving DecidableEq, Repr

/-- What a format holds besides finite values (R49). -/
inductive Special where
  | ieee | nanOnly | none
  deriving DecidableEq, Repr

/-- A floating-point format (R49): exponent and fraction widths, bias, special values, canonical NaN, largest finite code. -/
structure Fmt where
  eb : Nat
  mb : Nat
  bias : Nat
  sp : Special
  nan : Nat
  maxFin : Nat
  deriving DecidableEq, Repr

def f32 : Fmt := ⟨8, 23, 127, .ieee, 0x7FC00000, 0x7F7FFFFF⟩
def f16 : Fmt := ⟨5, 10, 15, .ieee, 0x7E00, 0x7BFF⟩
def bf16 : Fmt := ⟨8, 7, 127, .ieee, 0x7FC0, 0x7F7F⟩
def e4m3 : Fmt := ⟨4, 3, 7, .nanOnly, 0x7F, 0x7E⟩
def e5m2 : Fmt := ⟨5, 2, 15, .ieee, 0x7E, 0x7B⟩
def e2m1 : Fmt := ⟨2, 1, 1, .none, 0, 7⟩
def fp56 : Fmt := ⟨11, 44, 1023, .ieee, 0x7FF80000000000, 0x7FEFFFFFFFFFFF⟩
/-- e3m5 (R53) as an unsigned format: no sign, no infinity, one NaN. -/
def e3m5 : Fmt := ⟨3, 5, 3, .nanOnly, 0xFF, 0xFE⟩

/-- Bits of a code. -/
def Fmt.width (f : Fmt) : Nat := 1 + f.eb + f.mb
/-- The exponent of the last place of the subnormal grid: 1 - bias - mb. -/
def Fmt.grid (f : Fmt) : Int := 1 - (f.bias : Int) - f.mb

/-- The value of a magnitude code (exponent and fraction fields), R49. -/
def Fmt.magVal (f : Fmt) (s : Bool) (c : Nat) : FV :=
  let e := c / 2 ^ f.mb
  let m := c % 2 ^ f.mb
  match f.sp with
  | .ieee =>
    if e = 2 ^ f.eb - 1 then (if m = 0 then .inf s else .nan)
    else if e = 0 then .fin s m f.grid else .fin s (2 ^ f.mb + m) (f.grid + e - 1)
  | .nanOnly =>
    if c = 2 ^ (f.eb + f.mb) - 1 then .nan
    else if e = 0 then .fin s m f.grid else .fin s (2 ^ f.mb + m) (f.grid + e - 1)
  | .none => if e = 0 then .fin s m f.grid else .fin s (2 ^ f.mb + m) (f.grid + e - 1)

/-- The value of a code. -/
def Fmt.decode (f : Fmt) (c : Nat) : FV :=
  f.magVal ((c / 2 ^ (f.eb + f.mb)) % 2 = 1) (c % 2 ^ (f.eb + f.mb))

/-- The value of an e3m5 scale (R53). -/
def scaleVal (c : Nat) : FV :=
  if c % 256 = 255 then .nan
  else
    let e := c % 256 / 32
    let m := c % 32
    if e = 0 then .fin false m (-7) else .fin false (32 + m) ((e : Int) - 8)

/-! ## Flags (R57, R244) -/

def fNV : BitVec 11 := 1#11
def fDZ : BitVec 11 := 2#11
def fOF : BitVec 11 := 4#11
def fUF : BitVec 11 := 8#11
def fNX : BitVec 11 := 16#11
def fCV : BitVec 11 := 32#11
def fSP : BitVec 11 := 64#11
def fSA : BitVec 11 := 128#11
def fGD : BitVec 11 := 256#11
def fTG : BitVec 11 := 512#11
def fEE : BitVec 11 := 1024#11

/-- A flag when a condition holds. -/
def flagIf (c : Bool) (f : BitVec 11) : BitVec 11 := if c then f else 0

/-! ## Rounding (R55 to R59) -/

/-- What a narrowing does on overflow: R59's policies, or the rule of arithmetic results (R56, R57). -/
inductive Policy where
  | sat | inf | nan | trap | arith
  deriving DecidableEq, Repr

/-- The policy of a 2-bit code (R59). -/
def policyOf : Nat → Policy
  | 0 => .sat
  | 1 => .inf
  | 2 => .nan
  | _ => .trap

/-- m * 2^e as a whole number of units 2^q, with what was lost: 0 exact, 1 below half, 2 half, 3 above half. -/
def toUnits (m : Nat) (e q : Int) : Nat × Nat :=
  if q ≤ e then (m * 2 ^ (e - q).toNat, 0)
  else
    let k := (q - e).toNat
    let r := m % 2 ^ k
    let h := 2 ^ (k - 1)
    (m / 2 ^ k, if r = 0 then 0 else if r < h then 1 else if r = h then 2 else 3)

/-- Whether a magnitude is rounded up (R56): modes 0 RNE, 1 RTZ, 2 RDN, 3 RUP. -/
def roundsUp (mode : Nat) (s : Bool) (n lost : Nat) : Bool :=
  match mode with
  | 0 => lost = 3 || (lost = 2 && n % 2 = 1)
  | 1 => false
  | 2 => s && lost ≠ 0
  | _ => !s && lost ≠ 0

/-- The rounded whole number of units and whether it is inexact. -/
def roundUnits (mode : Nat) (s : Bool) (m : Nat) (e q : Int) : Nat × Bool :=
  let (n, lost) := toUnits m e q
  (if roundsUp mode s n lost then n + 1 else n, lost ≠ 0)

/-- The code of a magnitude of n units of the subnormal grid, when it is at most the largest finite one. -/
def Fmt.codeOfGrid (f : Fmt) (n : Nat) : Nat :=
  if n < 2 ^ f.mb then n
  else
    let l := Nat.log2 n
    (l - f.mb) * 2 ^ f.mb + n / 2 ^ (l - f.mb)

/-- The sign bit of a code. -/
def Fmt.signed (f : Fmt) (s : Bool) (c : Nat) : Nat := (if s then 2 ^ (f.eb + f.mb) else 0) + c

/-- The result of an overflow of sign s under R59, or IEEE's for arithmetic results. -/
def Fmt.overflow (f : Fmt) (mode : Nat) (pol : Policy) (s : Bool) : Nat :=
  let infCode := if f.sp = .ieee then (2 ^ f.eb - 1) * 2 ^ f.mb else f.maxFin
  match pol with
  | .sat | .trap => f.signed s f.maxFin
  | .inf => f.signed s infCode
  | .nan => if f.sp = .none then f.signed s f.maxFin else f.nan
  | .arith =>
    let toMax := mode = 1 || (mode = 2 && !s) || (mode = 3 && s)
    f.signed s (if toMax then f.maxFin else infCode)

/-- The largest finite magnitude in units of the subnormal grid. -/
def Fmt.maxUnits (f : Fmt) : Nat :=
  let e := f.maxFin / 2 ^ f.mb
  (2 ^ f.mb + f.maxFin % 2 ^ f.mb) * 2 ^ (e - 1)

/-- Round an exact value to a format (R56 to R59): its code and the flags raised. A zero keeps its sign. -/
def Fmt.round (f : Fmt) (mode : Nat) (pol : Policy) : FV → Nat × BitVec 11
  | .nan => if f.sp = .none then (0, fNV) else (f.nan, 0)
  | .inf s =>
    if f.sp = .ieee && (pol = .inf || pol = .arith) then (f.signed s ((2 ^ f.eb - 1) * 2 ^ f.mb), 0)
    else (f.overflow mode pol s, fOF ||| fNX ||| flagIf (pol = .trap) fCV)
  | .fin s m e =>
    if m = 0 then (f.signed s 0, 0)
    else
      let top := (Nat.log2 m : Int) + e
      let qn := top - f.mb
      let q := if qn < f.grid then f.grid else qn
      let (n, inexact) := roundUnits mode s m e q
      let units := n * 2 ^ (q - f.grid).toNat
      if f.maxUnits < units then
        (f.overflow mode pol s, fOF ||| fNX ||| flagIf (pol = .trap) fCV)
      else
        let (n', _) := roundUnits mode s m e qn
        let tiny := decide (qn < f.grid) && decide (n' < 2 ^ (f.grid + f.mb - qn).toNat)
        (f.signed s (f.codeOfGrid units), flagIf inexact fNX ||| flagIf (inexact && tiny) fUF)

/-! ## Exact operations -/

/-- The sign of an exact zero sum of opposite signs (R56). -/
def zeroSign (mode : Nat) : Bool := mode = 2

/-- Signed mantissa. -/
def sgn (s : Bool) (m : Nat) : Int := if s then -(m : Int) else m

/-- Exact x + y; NV for infinities of opposite sign (R56, R57). -/
def FV.add (mode : Nat) : FV → FV → FV × BitVec 11
  | .nan, _ => (.nan, 0)
  | _, .nan => (.nan, 0)
  | .inf s, .inf t => if s = t then (.inf s, 0) else (.nan, fNV)
  | .inf s, _ => (.inf s, 0)
  | _, .inf t => (.inf t, 0)
  | .fin s m e, .fin t n g =>
    let q := if e ≤ g then e else g
    let x := sgn s (m * 2 ^ (e - q).toNat) + sgn t (n * 2 ^ (g - q).toNat)
    if x = 0 then
      (.fin (if m = 0 ∧ n = 0 then (if s = t then s else zeroSign mode) else zeroSign mode) 0 q, 0)
    else (.fin (x < 0) x.natAbs q, 0)

/-- Exact x * y; NV for infinity times zero. -/
def FV.mul : FV → FV → FV × BitVec 11
  | .nan, _ => (.nan, 0)
  | _, .nan => (.nan, 0)
  | .inf s, .inf t => (.inf (s != t), 0)
  | .inf s, .fin t m _ => if m = 0 then (.nan, fNV) else (.inf (s != t), 0)
  | .fin s m _, .inf t => if m = 0 then (.nan, fNV) else (.inf (s != t), 0)
  | .fin s m e, .fin t n g => (.fin (s != t) (m * n) (e + g), 0)

/-- Sign reversed. -/
def FV.neg : FV → FV
  | .nan => .nan
  | .inf s => .inf (!s)
  | .fin s m e => .fin (!s) m e

/-- Sign cleared. -/
def FV.abs : FV → FV
  | .nan => .nan
  | .inf _ => .inf false
  | .fin _ m e => .fin false m e

/-- Exact x * y + z with the flags of the fused operation (R253): infinity times zero sets NV even when z is NaN. -/
def FV.fma (mode : Nat) (x y z : FV) : FV × BitVec 11 :=
  let (p, f) := x.mul y
  let (r, g) := p.add mode z
  (r, f ||| g)

/-- Numeric order of two values that are not NaN; -0 equals +0. -/
def FV.cmp : FV → FV → Ordering
  | .fin s m e, .fin t n g =>
    let q := if e ≤ g then e else g
    compare (sgn s (m * 2 ^ (e - q).toNat)) (sgn t (n * 2 ^ (g - q).toNat))
  | .inf s, .inf t => if s = t then .eq else if s then .lt else .gt
  | .inf s, _ => if s then .lt else .gt
  | _, .inf t => if t then .gt else .lt
  | .nan, _ => .eq
  | _, .nan => .eq

def FV.isNan : FV → Bool
  | .nan => true
  | _ => false
def FV.isInf : FV → Bool
  | .inf _ => true
  | _ => false
def FV.isZero : FV → Bool
  | .fin _ m _ => m = 0
  | _ => false
def FV.sign : FV → Bool
  | .nan => false
  | .inf s => s
  | .fin s _ _ => s

/-- Zero of a sign. -/
def FV.zero (s : Bool) : FV := .fin s 0 0
/-- A signed integer. -/
def FV.ofInt (x : Int) : FV := .fin (x < 0) x.natAbs 0

/-- The exact quotient x / y narrowed once, with a last bit that stands for what lies below (R56, R61). prec is the number of
quotient bits kept, more than any target's fraction. Division by zero and of infinities as R61 lists them. -/
def FV.div (prec : Nat) : FV → FV → FV × BitVec 11
  | .nan, _ => (.nan, 0)
  | _, .nan => (.nan, 0)
  | .inf _, .inf _ => (.nan, fNV)
  | .inf s, .fin t _ _ => (.inf (s != t), 0)
  | .fin s _ _, .inf t => (.fin (s != t) 0 0, 0)
  | .fin s m e, .fin t n g =>
    if n = 0 then if m = 0 then (.nan, fNV) else (.inf (s != t), fDZ)
    else
      let k := prec + Nat.log2 n
      let num := m * 2 ^ k
      (.fin (s != t) (2 * (num / n) + (if num % n = 0 then 0 else 1)) (e - g - k - 1), 0)

/-- R60: an exact value rounded to an integer type of w bits, with bounds lo and hi. -/
def FV.toInt (mode : Nat) (trap : Bool) (lo hi : Int) : FV → Int × BitVec 11
  | .nan => (0, fNV)
  | .inf s => (if s then lo else hi, fNV ||| flagIf trap fCV)
  | .fin s m e =>
    let (n, inexact) := roundUnits mode s m e 0
    let x := sgn s n
    if x < lo then (lo, fNV ||| flagIf trap fCV)
    else if hi < x then (hi, fNV ||| flagIf trap fCV)
    else (x, flagIf inexact fNX)

/-- R204: conversion to e3m5 treats its operand as unsigned. -/
def toE3m5 (mode : Nat) (pol : Policy) : FV → Nat × BitVec 11
  | .nan => (0xFF, 0)
  | .inf true => (0, fNV)
  | .fin true m _ => if m = 0 then (0, 0) else (0, fNV)
  | x => e3m5.round mode pol x

end Sys2Proof.Machine
end

