-- ==== Sys2Proof/Machine/Special.lean ====
section
/-! DEFINITION. The correctly rounded special functions (R66) and the triple merge (R68), by integer arithmetic carried far
beyond the rounding position: 280 fraction bits for exp2 and log2, exact quotients and roots for the rest. -/
namespace Sys2Proof.Machine

/-- Fraction bits of the fixed-point numbers below. -/
def workBits : Nat := 280

/-- floor(ln 2 * 2^320). -/
def ln2Fixed : Nat := 0xB17217F7D1CF79ABC9E3B39803F2F6AF40F343267298B62D8A0D175B8BAAFA2BE7B876206DEBAC98

/-- ln 2 in the working precision. -/
def ln2Work : Nat := ln2Fixed / 2 ^ (320 - workBits)

/-- sum of the terms y^n / n! from the n-th on, term being the present one: exp of y in the working precision. -/
def expSeries : Nat → Nat → Nat → Nat → Nat
  | 0, _, _, _ => 0
  | fuel + 1, y, n, term => term + expSeries fuel y (n + 1) (term * y / 2 ^ workBits / (n + 1))

/-- 2^f for f in [0, 1), both in the working precision. -/
def pow2Frac (f : Nat) : Nat := expSeries 80 (f * ln2Work / 2 ^ workBits) 0 (2 ^ workBits)

/-- sum of z^(2k+1) / (2k+1) from the k-th term on, term being z^(2k+1). -/
def atanhSeries : Nat → Nat → Nat → Nat → Nat
  | 0, _, _, _ => 0
  | fuel + 1, z2, k, term => term / (2 * k + 1) + atanhSeries fuel z2 (k + 1) (term * z2 / 2 ^ workBits)

/-- log2 of r in [1, 2), both in the working precision. -/
def log2Frac (r : Nat) : Nat :=
  let one := 2 ^ workBits
  let z := (r - one) * one / (r + one)
  2 * atanhSeries 100 (z * z / one) 0 z * one / ln2Work

/-- floor of the square root, one bit of the result at a time from bit k - 1 down. -/
def isqrtBits : Nat → Nat → Nat → Nat
  | 0, _, r => r
  | k + 1, n, r => if (r + 2 ^ k) * (r + 2 ^ k) ≤ n then isqrtBits k n (r + 2 ^ k) else isqrtBits k n r

/-- floor(sqrt n). -/
def isqrt (n : Nat) : Nat := isqrtBits (Nat.log2 n / 2 + 1) n 0

/-- An f32 result rounded RNE from a value. -/
def rne32 (v : FV) : Nat × BitVec 11 := f32.round 0 .arith v

/-- exp2_cr (R66). -/
def exp2Cr (x : FV) : Nat × BitVec 11 :=
  match x with
  | .nan => (f32.nan, 0)
  | .inf false => (0x7F800000, 0)
  | .inf true => (0, 0)
  | .fin s m e =>
    if m = 0 then (0x3F800000, 0)
    else
      -- the integer part floor(x) and whether x is whole
      let whole := decide (0 ≤ e) || m % 2 ^ (-e).toNat = 0
      let mag := if 0 ≤ e then m * 2 ^ e.toNat else m / 2 ^ (-e).toNat
      if 1024 ≤ mag then (if s then (0, fUF ||| fNX) else (0x7F800000, fOF ||| fNX))
      else if whole then rne32 (.fin false 1 (sgn s mag))
      else
        let i : Int := if s then -(mag : Int) - 1 else mag
        let fracMag := (m % 2 ^ (-e).toNat) * 2 ^ workBits / 2 ^ (-e).toNat
        let f := if s then 2 ^ workBits - fracMag else fracMag
        -- a fraction too small for the working precision still leaves the result inexact on its own side of 2^i
        rne32 (.fin false (2 * pow2Frac f + 1) (i - workBits - 1))

/-- log2_cr (R66). -/
def log2Cr (x : FV) : Nat × BitVec 11 :=
  match x with
  | .nan => (f32.nan, 0)
  | .inf false => (0x7F800000, 0)
  | .inf true => (f32.nan, fNV)
  | .fin s m e =>
    if m = 0 then (0xFF800000, fDZ)
    else if s then (f32.nan, fNV)
    else
      let l := Nat.log2 m
      let i : Int := l + e
      if m = 2 ^ l then rne32 (FV.ofInt i)
      else
        let v : Int := i * 2 ^ workBits + log2Frac (m * 2 ^ workBits / 2 ^ l)
        rne32 (.fin (v < 0) (2 * v.natAbs + 1) (-(workBits : Int) - 1))

/-- rcp_cr (R66). -/
def rcpCr (x : FV) : Nat × BitVec 11 :=
  match x with
  | .nan => (f32.nan, 0)
  | .inf s => (f32.signed s 0, 0)
  | .fin s m e =>
    if m = 0 then (f32.signed s 0x7F800000, fDZ) else rne32 ((FV.fin false 1 0).div 64 (.fin s m e)).1

/-- A positive value with an even exponent. -/
def evenExp (m : Nat) (e : Int) : Nat × Int := if e % 2 = 0 then (m, e) else (2 * m, e - 1)

/-- rsq_cr (R66). -/
def rsqCr (x : FV) : Nat × BitVec 11 :=
  match x with
  | .nan => (f32.nan, 0)
  | .inf false => (0, 0)
  | .inf true => (f32.nan, fNV)
  | .fin s m e =>
    if m = 0 then (f32.signed s 0x7F800000, fDZ)
    else if s then (f32.nan, fNV)
    else
      let (m, e) := evenExp m e
      let n := 2 ^ 160
      let r := isqrt (n / m)
      rne32 (.fin false (2 * r + (if r * r * m = n then 0 else 1)) (-(e / 2) - 81))

/-- sqrt_cr (R66). -/
def sqrtCr (x : FV) : Nat × BitVec 11 :=
  match x with
  | .nan => (f32.nan, 0)
  | .inf false => (0x7F800000, 0)
  | .inf true => (f32.nan, fNV)
  | .fin s m e =>
    if m = 0 then (f32.signed s 0, 0)
    else if s then (f32.nan, fNV)
    else
      let (m, e) := evenExp m e
      let n := m * 2 ^ 80
      let r := isqrt n
      rne32 (.fin false (2 * r + (if r * r = n then 0 else 1)) (e / 2 - 41))

/-! ## The triple merge (R68), shared by VTMRG, VTSCL (R265, R266) and Vetch (R180) -/

/-- round_rne of a sum or difference of two f32 values. -/
def f32Add (x y : FV) : Nat × BitVec 11 :=
  let (v, f) := x.add 0 y
  let (r, g) := rne32 v
  (r, f ||| g)

/-- fma_rne of a merge on f32 codes: only infinity times zero sets NV in it (R68). -/
def f32Fma (x y z : Nat) : Nat × BitVec 11 :=
  let (p, f) := (f32.decode x).mul (f32.decode y)
  let (r, g) := rne32 (p.add 0 (f32.decode z)).1
  (r, f ||| g)

/-- The head of a merge (R265): m, s and the coefficient c of a left and a right head, as f32 codes, and the flags. -/
def mergeHead (m1 s1 m2 s2 : Nat) : Nat × Nat × Nat × BitVec 11 :=
  let v1 := f32.decode m1
  let v2 := f32.decode m2
  if v1.isNan || v2.isNan || v1 = .inf false || v2 = .inf false then (f32.nan, f32.nan, f32.nan, fNV)
  else if v2 = .inf true then (m1, s1, 0x7F800000, 0)
  else if v1 = .inf true then (m2, s2, 0xFF800000, 0)
  else
    let left := v1.cmp v2 != .lt
    let (mL, sL, mS, sS) := if left then (m1, s1, m2, s2) else (m2, s2, m1, s1)
    let (t, f) := f32Add (f32.decode mS) (f32.decode mL).neg
    let (a, g) := exp2Cr (f32.decode t)
    let (s, h) := f32Fma sS a sL
    (mL, s, (if left then 0 else 0x80000000) + a % 0x80000000, f ||| g ||| h)

/-- One element of the merged vector under the coefficient c (R266). -/
def mergeElem (l r c : Nat) : Nat × BitVec 11 :=
  let v := f32.decode c
  if v.isNan then (f32.nan, 0)
  else if v = .inf false then (l, 0)
  else if v = .inf true then (r, 0)
  else if v.sign then f32Fma l (c % 0x80000000) r
  else f32Fma r c l

/-- One element of operators 0 to 3 of R180: SUM.f32, SUM.bf16, MAX.f32, MIN.f32. -/
def reduceElem (op l r : Nat) : Nat × BitVec 11 :=
  match op with
  | 0 => f32Add (f32.decode l) (f32.decode r)
  | 1 =>
    let (v, f) := (bf16.decode l).add 0 (bf16.decode r)
    let (c, g) := bf16.round 0 .arith v
    (c, f ||| g)
  | _ =>
    let a := f32.decode l
    let b := f32.decode r
    if a.isNan || b.isNan then (f32.nan, 0)
    else
      let lt := a.cmp b = .lt || (a.isZero && b.isZero && a.sign && !b.sign)
      if op = 2 then (if lt then r else l, 0) else (if lt then l else r, 0)

end Sys2Proof.Machine
end

