-- ==== Sys2Proof/Machine/Ops.lean ====
section
/-! DEFINITION. The operations every meaning is built from: reaching the parts of the state, the scalar registers with their
pending loads (R128, R140), flags (R244, R245), taking a trap and returning from one (R343 to R345). -/
namespace Sys2Proof.Machine

/-- A meaning in progress: it reads and changes the state, or stops. -/
abbrev M := StateT State (Except Stop)

/-- The meaning stops with a trap and nothing it did stands. -/
def trap (code : BitVec 8) (val : Word) : M α := fun _ => .error (.trap code val)
/-- The meaning stops with a trap and what it did so far stands. -/
def trapKeep (code : BitVec 8) (val : Word) : M α := fun s => .error (.trapWith code val s)
/-- The part cannot complete yet; nothing changes. -/
def wait : M α := fun _ => .error .wait
/-- The part cannot complete yet; what it did so far stands. -/
def waitKeep : M α := fun s => .error (.waitWith s)
/-- A pure change of the state. -/
def upd (f : State → State) : M Unit := fun s => .ok ((), f s)
/-- A value read from the state. -/
def ask (f : State → α) : M α := fun s => .ok (f s, s)
/-- Trap unless a condition holds. -/
def need (ok : Bool) (code : BitVec 8) (val : Word) : M Unit := if ok then pure () else trap code val

/-! ## Causes (R341) -/
def cILLEGAL : BitVec 8 := 0x01
def cPRIV : BitVec 8 := 0x02
def cREGRANGE : BitVec 8 := 0x03
def cSTALLCOUNT : BitVec 8 := 0x04
def cEARLYREAD : BitVec 8 := 0x05
def cHELPERWAIT : BitVec 8 := 0x06
def cPAGE : BitVec 8 := 0x10
def cPROT : BitVec 8 := 0x11
def cALIGN : BitVec 8 := 0x12
def cSPACE : BitVec 8 := 0x13
def cPOISON : BitVec 8 := 0x14
def cUNREACH : BitVec 8 := 0x15
def cCOMPACTHELD : BitVec 8 := 0x16
def cPIPSPENT : BitVec 8 := 0x17
def cPTROVF : BitVec 8 := 0x18
def cBADGEOM : BitVec 8 := 0x19
def cBADHANDLE : BitVec 8 := 0x1A
def cARITH : BitVec 8 := 0x20
def cHELPERTRAP : BitVec 8 := 0x21
def cSAVEFAULT : BitVec 8 := 0x22
def cECALL : BitVec 8 := 0x30
def cBRK : BitVec 8 := 0x31

/-! ## Reaching the state -/

def State.tile (s : State) (t : Nat) : Tile := mget Tile.reset s.tiles t
def State.setTile (s : State) (t : Nat) (x : Tile) : State := { s with tiles := mset s.tiles t x }
def State.modTile (s : State) (t : Nat) (f : Tile → Tile) : State := s.setTile t (f (s.tile t))
def Tile.ctx (x : Tile) (c : Nat) : Ctx := mget Ctx.reset x.ctxs c
def Tile.setCtx (x : Tile) (c : Nat) (k : Ctx) : Tile := { x with ctxs := mset x.ctxs c k }
def State.ctxAt (s : State) (t c : Nat) : Ctx := (s.tile t).ctx c
def State.setCtxAt (s : State) (t c : Nat) (k : Ctx) : State := s.modTile t fun x => x.setCtx c k
def State.modCtxAt (s : State) (t c : Nat) (f : Ctx → Ctx) : State := s.setCtxAt t c (f (s.ctxAt t c))
/-- The context whose part is being issued. -/
def State.ctx (s : State) : Ctx := s.ctxAt s.cur s.cid
def State.setCtx (s : State) (k : Ctx) : State := s.setCtxAt s.cur s.cid k
def State.dev (s : State) (p : Nat) : Device := mget Device.reset s.devices p
def State.setDev (s : State) (p : Nat) (x : Device) : State := { s with devices := mset s.devices p x }
def State.modDev (s : State) (p : Nat) (f : Device → Device) : State := s.setDev p (f (s.dev p))
def Device.cluster (x : Device) (n : Nat) : Cluster := mget Cluster.reset x.clusters n
def Device.region (x : Device) (n : Nat) : Region := mget Region.reset x.regions n
def State.modCluster (s : State) (p n : Nat) (f : Cluster → Cluster) : State :=
  s.modDev p fun x => { x with clusters := mset x.clusters n (f (x.cluster n)) }
def State.modRegion (s : State) (p n : Nat) (f : Region → Region) : State :=
  s.modDev p fun x => { x with regions := mset x.regions n (f (x.region n)) }
def State.dir (s : State) (k : Nat) : Dir := mget Dir.reset s.dirs k
def State.modDir (s : State) (k : Nat) (f : Dir → Dir) : State := { s with dirs := mset s.dirs k (f (s.dir k)) }
def State.modMgmt (s : State) (p : Nat) (f : Mgmt → Mgmt) : State := s.modDev p fun x => { x with mgmt := f x.mgmt }

def getC : M Ctx := ask State.ctx
def modC (f : Ctx → Ctx) : M Unit := upd fun s => s.setCtx (f s.ctx)
def getT : M Tile := ask fun s => s.tile s.cur
def modT (f : Tile → Tile) : M Unit := upd fun s => s.modTile s.cur f

/-! ## Places (R11, R12, R13) -/

/-- Package of a tile. -/
def pkgOf (t : Nat) : Nat := t / 4096
/-- Package tile number. -/
def numOf (t : Nat) : Nat := t % 4096
/-- cnum. -/
def clusterOf (t : Nat) : Nat := numOf t / 8
/-- member. -/
def memberOf (t : Nat) : Nat := numOf t % 8
/-- region. -/
def regionOf (t : Nat) : Nat := numOf t / 336
/-- cir. -/
def cirOf (t : Nat) : Nat := clusterOf t % 42
/-- Die, logical column and row (R11). -/
def dieOf (t : Nat) : Nat := regionOf t / 2
def lcolOf (t : Nat) : Nat := (regionOf t % 2) * 14 + 2 * (cirOf t % 7) + memberOf t % 2
def rowOf (t : Nat) : Nat := 4 * (cirOf t / 7) + memberOf t / 2
/-- The tile number at a die, column and row (R11). -/
def numAt (d c y : Nat) : Nat :=
  let region := 2 * d + c / 14
  8 * (42 * region + 7 * (y / 4) + (c % 14) / 2) + 2 * (y % 4) + c % 2
/-- The physical column behind a logical one (R10, R23); q is 1 + the row's quarantined column, or 0. -/
def pcolOf (q c : Nat) : Nat :=
  let base := if c ≤ 13 then c else c + 1
  if q = 0 then base
  else
    let p := q - 1
    if p ≤ 13 then (if p ≤ base ∧ base ≤ 13 then base + 1 else base)
    else (if 15 ≤ base ∧ base ≤ p then base - 1 else base)
/-- DEVID of a package: 64 * DOMAIN + POS (R14). -/
def Device.number (x : Device) : Nat := 64 * x.domain.toNat + x.pos.toNat
def State.devNum (s : State) (p : Nat) : Nat := (s.dev p).number
/-- The package that a device number names, if one of the system has it. -/
def State.pkgOfDev (s : State) (n : Nat) : Option Nat :=
  s.present.find? fun p => (s.dev p).number = n && !(s.dev p).dark
/-- Two packages share a Gloam domain. -/
def State.sameDomain (s : State) (p q : Nat) : Bool := (s.dev p).domain == (s.dev q).domain

/-! ## Clocks -/

/-- TIME of a package (R379): ns, at 1.9 GHz. -/
def State.time (s : State) (p : Nat) : Nat :=
  let d := s.dev p
  d.timeBase + (s.now - d.timeFrom) * 10 / 19
/-- The cycle in which TIME of a package comes to t. -/
def State.nowAt (s : State) (p t : Nat) : Nat :=
  let d := s.dev p
  d.timeFrom + ((t - d.timeBase) * 19 + 9) / 10
/-- Stages 1 to 4 of a package's bring-up have passed, and it has power: BAR0 is open, and the host link has trained (R373, R381). -/
def Device.barOpen (d : Device) : Bool := d.mgmt.powered && !d.mgmt.failed && decide (5 ≤ d.mgmt.stage)
/-- Cycles that a package's tile clock has run (R334, R381): 1,900 MHz less 50 MHz a step. -/
def State.cycles (s : State) (p : Nat) : Nat :=
  let d := s.dev p
  d.cycBase + (s.now - d.cycFrom) * (1900 - 50 * d.mgmt.clockStep) / 1900

/-! ## Flags (R244, R245) -/

/-- A flag update by the instruction at a unit: new bits stick, and the first one is recorded. -/
def Ctx.raise (k : Ctx) (f : BitVec 11) (unit : BitVec 49) : Ctx :=
  let fresh := f &&& ~~~k.flags
  if fresh = 0 then k
  else if k.firstV then { k with flags := k.flags ||| f }
  else { k with flags := k.flags ||| f, firstV := true, firstUnit := unit }

/-- UNIT of a pc. -/
def unitAddr (pc : Word) : BitVec 49 := bits pc 3 49

/-- The flags of the part being issued. A C-word that runs ahead of the compute stream leaves them for its unit's commit. -/
def raise (f : BitVec 11) : M Unit := upd fun s =>
  let k := s.ctx
  if s.compute || k.backlog.isEmpty then s.setCtx (k.raise f (unitAddr k.upc))
  else s.setCtx { k with late := k.late ||| f }

/-- The image of a partition whose contexts started on tile self, with context c of it changed. -/
def Image.modCtx (im : Image) (pid self c : Nat) (f : Ctx → Ctx) : Image :=
  if im.pid = pid && im.self = self && mhas im.ctxs c then { im with ctxs := mset im.ctxs c (f (mget Ctx.reset im.ctxs c)) } else im

/-- A context is the one that armed a walk: a later helper of its CTXID is not (R113). -/
def Armer.is (a : Armer) (k : Ctx) : Bool := a.birth = 0 || k.birth = a.birth
/-- A change of the context that armed a walk. -/
def Armer.change (a : Armer) (f : Ctx → Ctx) (k : Ctx) : Ctx := if a.is k then f k else k

/-- The context that armed a walk or issued a transfer changes, where it runs or in its saved image (R177, R286, R352). -/
def State.modIssuer (s : State) (a : Armer) (f : Ctx → Ctx) : State :=
  match s.tiles.find? fun e => e.2.pid = a.pid && e.2.self = a.self && mhas e.2.ctxs a.cid with
  | some (t, _) => s.modCtxAt t a.cid (a.change f)
  | none => { s with
      tiles := s.tiles.map fun e => (e.1, { e.2 with save := e.2.save.map fun im => im.modCtx a.pid a.self a.cid (a.change f) })
      away := s.away.map fun im => im.modCtx a.pid a.self a.cid (a.change f) }

/-- A flag update an engine makes in the context that armed it (R113, R245). -/
def State.raiseIn (s : State) (a : Armer) (f : BitVec 11) : State :=
  s.modIssuer a fun k => k.raise f a.unit

/-- The issuing context as an armer. -/
def armer : M Armer := ask fun s => ⟨(s.tile s.cur).pid, s.cur, (s.tile s.cur).self, s.cid, unitAddr s.ctx.upc, s.ctx.asid, s.ctx.priv,
  s.ctx.birth⟩

/-! ## Scalar registers (R128, R140) -/

def Ctx.sreg (k : Ctx) (r : BitVec 5) : Word := if r = 0 then 0 else k.sregs.getD r.toNat 0
def Ctx.setSreg (k : Ctx) (r : BitVec 5) (v : Word) : Ctx :=
  if r = 0 then k else { k with sregs := k.sregs.setIfInBounds r.toNat v }

/-- The bytes of an awaited piece taken from the answered line. -/
def Await.merge (a : Await) (v : Nat) (line : LineData) : Nat :=
  v ||| ((line.toNat / 2 ^ (8 * a.off)) % 2 ^ (8 * a.len)) * 2 ^ (8 * a.pos)

/-- Fill what held requests have been answered: the value, what is still awaited, whether a piece was lost. -/
def settle (held : List Held) : List Await → Nat → Nat × List Await × Bool
  | [], v => (v, [], false)
  | a :: as, v =>
    match held.find? fun h => h.id = a.req with
    | some h =>
      if h.lost then let (v', r, _) := settle held as v; (v', r, true)
      else match h.answer with
        | some line => settle held as (a.merge v line)
        | none => let (v', r, l) := settle held as v; (v', a :: r, l)
    | none => settle held as v

/-- The value a load returns: sign- or zero-extended from its bytes (R228). -/
def extendLoad (size : Nat) (signed : Bool) (v : Word) : Word :=
  match size with
  | 1 => if signed then sext (bits v 0 8) else zext (bits v 0 8)
  | 2 => if signed then sext (bits v 0 16) else zext (bits v 0 16)
  | 4 => if signed then sext (bits v 0 32) else zext (bits v 0 32)
  | _ => v

/-- A write of s[r] by the compute stream is also in what a later unit of the address stream had before it (R135, R137). -/
def Ctx.writeSreg (k : Ctx) (compute : Bool) (r : BitVec 5) (v : Word) : Ctx :=
  if r = 0 then k
  else
    let k := k.setSreg r v
    if compute then { k with backlog := k.backlog.map fun p => { p with sregs := p.sregs.setIfInBounds r.toNat v } } else k

/-- The cause with which a lost request traps (R124, R370). -/
def State.lossCause (s : State) (as : List Await) : BitVec 8 :=
  match s.held.find? fun h => h.lost && as.any fun a => a.req = h.id with
  | some h => h.cause
  | none => cUNREACH

/-- R81: every V word of the tile's local array becomes I; owned words and pinned lines stay. -/
def Tile.flash (x : Tile) : Tile := { x with lines := x.lines.map fun l => { l with valid := l.own } }

/-- The flash of an acquire (R81). For 4 cycles no context of the tile accesses the local array. -/
def State.flashTile (s : State) (t : Nat) : State := s.modTile t fun x => { x.flash with flashUntil := s.now + 4 }

/-- An answered or lost request leaves the list once its bytes are taken. -/
def State.dropDone (s : State) (id : Nat) : State :=
  { s with held := s.held.filter fun h => h.id ≠ id || !(h.answer.isSome || h.lost) }

/-- The load of unit seq has been retired: in the compute stream no unit after it has it pending; ahead of the compute stream, a unit to
which the context may return still has, with the bytes it has taken (R137). -/
def Part.retire (p : Part) (compute : Bool) (seq : Nat) (raw : Word) (left : List Await) : Part :=
  if compute then { p with pend := p.pend.filter fun x => x.seq ≠ seq }
  else { p with pend := p.pend.map fun x => if x.seq = seq then { x with raw := raw, awaits := left } else x }

/-- The oldest load leaves the pending state (R140): its value is written; one that is lost is left for the first QWAIT that covers it (R370). -/
def retireLoad : M Unit := do
  let s ← get
  let k := s.ctx
  match k.pend with
  | [] => pure ()
  | l :: rest =>
    let (v, left, lost) := settle s.held l.awaits l.raw.toNat
    let cause := s.lossCause l.awaits
    let s := if left = [] then l.awaits.foldl (fun s a => s.dropDone a.req) s else s
    let k : Ctx := { k with
      pend := rest
      backlog := k.backlog.map fun p => p.retire s.compute l.seq (BitVec.ofNat 64 v) left }
    if lost then set (s.setCtx { k with lostLoads := k.lostLoads ++ [⟨cause, l.ptr, l.seq, rest.map fun m => m.seq⟩] })
    else if left ≠ [] then wait
    else
      set (s.setCtx (k.writeSreg s.compute l.d (extendLoad l.size l.signed (BitVec.ofNat 64 v))))
      if l.acq then upd fun s => s.flashTile s.cur

/-- Retire the n oldest loads. -/
def retireLoads : Nat → M Unit
  | 0 => pure ()
  | n + 1 => do retireLoad; retireLoads n

/-- How many loads must leave the pending state for register r to leave it: up to the last that names r. -/
def Ctx.pendingUpTo (k : Ctx) (r : BitVec 5) : Nat :=
  k.pend.length - (k.pend.reverse.takeWhile fun l => l.d ≠ r).length

/-- Register r is the destination of a pending load. -/
def Ctx.pendingReg (k : Ctx) (r : BitVec 5) : Bool := r ≠ 0 && k.pend.any fun l => l.d == r

/-- An interlocked operand holds the part back: it issues in cycle n at the earliest (R141, R185). -/
def State.issueAt (s : State) (n : Nat) : State := { s with now := max s.now n }

/-- Read s[r]: wait for its last write (R128); an early read traps under STRICT and gives the old value under TRUST. -/
def rs (r : BitVec 5) : M Word := do
  let k ← getC
  if k.pendingReg r && !k.trust then trap cEARLYREAD (zext r)
  else
    upd fun s => s.issueAt (k.sready.getD r.toNat 0)
    pure (k.sreg r)

/-- Write s[r], ready lat cycles from now. A write to a pending destination waits for its load (R140). -/
def wsLat (lat : Nat) (r : BitVec 5) (v : Word) : M Unit := do
  if r = 0 then pure ()
  else
    let k ← getC
    if k.pendingReg r then retireLoads (k.pendingUpTo r)
    upd fun s =>
      let k := s.ctx
      s.setCtx { k.writeSreg s.compute r v with sready := k.sready.setIfInBounds r.toNat (s.now + lat) }

/-- Write s[r] with the latency of a scalar ALU operation (R141). -/
def ws (r : BitVec 5) (v : Word) : M Unit := wsLat 1 r v

/-! ## Pointers (R31 to R33, R212) -/

/-- Bits [51:0]. -/
def addrOf (p : Word) : Nat := (bits p 0 52).toNat
/-- SPACE. -/
def spaceOf (p : Word) : Nat := (bits p 52 3).toNat
/-- BLOG. -/
def blogOf (p : Word) : Nat := (bits p 55 4).toNat
/-- FMT. -/
def fmtOf (p : Word) : Nat := (bits p 59 5).toNat
/-- A pointer with the tags of p and another address. -/
def withAddr (p : Word) (a : Nat) : Word := bits p 52 12 ++ BitVec.ofNat 52 a
/-- R212: p + n within bits [51:0], none on a carry or borrow out of bit 51. -/
def padd? (p : Word) (n : Int) : Option Word :=
  let t := (addrOf p : Int) + n
  if t < 0 ∨ 2 ^ 52 ≤ t then none else some (withAddr p t.toNat)
/-- padd with its fault; val is what TRAPVAL holds. -/
def padd (p : Word) (n : Int) (val : Word) : M Word :=
  match padd? p n with
  | some q => pure q
  | none => trap cPTROVF val

/-! ## Taking a trap and returning from one (R343 to R345) -/

/-- Every event that R314 lists wakes a waiting context. -/
def State.wake (s : State) (t c : Nat) : State :=
  if mhas (s.tile t).ctxs c then s.modCtxAt t c fun k => { k with wakes := k.wakes + 1 } else s

/-- The units of the backlog after the one in hand. -/
def Ctx.behind (k : Ctx) : List Part := k.backlog.filter fun p => decide (k.useq < p.seq)

/-- The unit that follows the one in hand, which the compute stream has reached: the next of the backlog, or the one at the pc. -/
def Ctx.follower (k : Ctx) : Word := (k.behind.head?.map fun p => p.pc).getD k.pc

/-- Lost loads of the units after one are forgotten with what those did ahead. -/
def Ctx.keepLost (k : Ctx) (seq : Nat) : List LostLoad :=
  (k.lostLoads.filter fun l => decide (l.seq ≤ seq)).map fun l => { l with after := l.after.filter fun m => decide (m ≤ seq) }

/-- What the address stream did beyond the unit at which the compute stream stops is undone (R137): registers, masks and pending
loads as its C-word left them, VLD and VSTA entries and flags of later units removed. Where an X = 0 jump of it leads is kept. -/
def Ctx.rollback (k : Ctx) : Ctx :=
  match k.backlog.find? fun p => p.seq = k.useq with
  | some p =>
    let k := k.raise p.flags (unitAddr p.pc)
    { k with
      targets := if k.follower = p.pc + 8 then mdel k.targets (unitAddr p.pc).toNat else mset k.targets (unitAddr p.pc).toNat k.follower
      sregs := p.sregs, kregs := p.kregs, pend := p.pend, lostLoads := k.keepLost p.seq, backlog := [], late := 0,
      dqs := k.dqs.map fun q => q.filter fun e => e.seq ≤ p.seq,
      vsta := k.vsta.filter fun e => e.seq ≤ p.seq }
  | none => { k with backlog := [] }

/-- The units after the one in hand that the context has fetched are fetched again, and what they did ahead is undone (R191). -/
def Ctx.refetch (k : Ctx) : Ctx :=
  match k.backlog.find? fun p => p.seq = k.useq with
  | some p => { k with
      pc := p.pc + 8, seq := p.seq + 1, skipC := false
      sregs := p.sregs, kregs := p.kregs, pend := p.pend, lostLoads := k.keepLost p.seq, backlog := [p], late := 0
      dqs := k.dqs.map fun q => q.filter fun e => e.seq ≤ p.seq
      vsta := k.vsta.filter fun e => e.seq ≤ p.seq }
  | none => k

/-- The unit that the compute part belongs to has an address-stream C-word, which has executed (R137). -/
def State.cWordDone (s : State) : Bool := s.compute && !(s.ctx.unit.getLsbD 31) && !(unitX s.ctx.unit)

/-- R343 for the current context, at the unit being issued. long is the element at which a long instruction stopped. A
helper's trap stops it and is posted (R344); a trap while TIP = 1 fences the tile's rectangle (R345). -/
def State.takeTrap (s : State) (code : BitVec 8) (val : Word) (long : Option Nat) : State :=
  let t := s.cur
  let done := s.cWordDone || (!s.compute && s.ctx.skipC)
  let k := if s.compute then s.ctx.rollback else { s.ctx with backlog := [] }
  let k := if long.isSome then k else
    { k with dqs := k.dqs.map fun q => q.filter fun e => e.filled || e.seq ≠ k.useq }
  let u := unitAddr k.upc
  if s.cid ≠ 0 then
    let k := { k with trapPc := u, mx := false, stream := s.compute, cause := code, trapVal := val, stopped := true, pc := k.upc }
    let s := (s.setCtx k).modTile t fun x =>
      { x with posts := x.posts ++ [⟨s.cid, code, u⟩], joins := mset x.joins s.cid 2 }
    { s.wake t 0 with fate := .trapped }
  else if k.tip && code ≠ cHELPERTRAP then
    let s := s.setCtx { k with stopped := true }
    { s with agenda := .event (.fenceRectangle t (0x100 + code.toNat)) :: s.agenda, fate := .stopped }
  else
    let k := match long with
      | some i => { k with pixK := true, pixIndex := BitVec.ofNat 16 i }
      | none => k
    let k := { k with
      trapPc := u, mx := false, stream := s.compute, cause := code, trapVal := val
      pixC := done, ppriv := k.priv, priv := true, tip := true
      pc := zext (k.evBase ++ 0#3), npc := zext (k.evBase ++ 0#3), skipC := false
      waitFrom := none, timeFrom := none, late := 0 }
    { (s.setCtx k) with fate := .trapped }

/-- R160, R344: a trap that the control context takes before the unit u issues: HELPERTRAP, or one of the matrix engine, with its k-step. -/
def State.takeOuterTrap (s : State) (t : Nat) (mx : Bool) (code : BitVec 8) (val : Word) (index : Option Nat) : State :=
  let k := s.ctxAt t 0
  let (u, c) := match k.backlog with
    | p :: _ => (p.pc, !p.held && !(p.image.getLsbD 31) && !(unitX p.image))
    | [] => (k.pc, k.skipC)
  let k := match k.backlog with
    | p :: _ => { k with upc := p.pc, unit := p.image, useq := p.seq }.rollback
    | [] => k
  let k := match index with
    | some i => { k with pixK := false, pixIndex := BitVec.ofNat 16 i }
    | none => k
  (s.modTile t fun x => { x with fuse := none, quiet := none }).setCtxAt t 0 { k with
    trapPc := unitAddr u, mx := mx, stream := true, cause := code, trapVal := val
    pixC := c, ppriv := k.priv, priv := true, tip := true
    pc := zext (k.evBase ++ 0#3), npc := zext (k.evBase ++ 0#3), skipC := false
    waitFrom := none, timeFrom := none, late := 0 }

/-- The entry that a stopped gather left partial in its queue is discarded with its kept operands (R273, R343). -/
def Ctx.dropKept (k : Ctx) : Ctx :=
  match k.kept with
  | none => { k with pixK := false, pixIndex := 0 }
  | some _ => { k with
      kept := none, pixK := false, pixIndex := 0
      dqs := k.dqs.map fun q => q.filter fun e => e.filled }

/-- R343: ERET's change of the context's own registers. The held matrix command is resumed by the engine (R160). -/
def Ctx.eret (k : Ctx) : Ctx :=
  let pc := zext (k.trapPc ++ 0#3)
  let k := { k with priv := k.ppriv, tip := false, pc := pc, npc := pc, skipC := k.pixC, pixC := false }
  if k.mx then { k with pixIndex := 0 }
  else match k.kept with
    | some kept => if k.pixK && kept.unit = k.trapPc then k else k.dropKept
    | none => { k with pixK := false, pixIndex := 0 }

/-! ## The outcome of a meaning -/

/-- What a meaning makes of a state: it completed, trapped (and the trap is taken), or waits. -/
def settleStop (s : State) : Except Stop (Unit × State) → State
  | .ok (_, s') => { s' with fate := .done }
  | .error (.trap c v) => s.takeTrap c v none
  | .error (.trapWith c v s') => s'.takeTrap c v none
  | .error (.trapLong c v i s') => s'.takeTrap c v (some i)
  | .error .wait => { s with fate := .waited }
  | .error (.waitWith s') => { s' with fate := .waited }

/-- The outcome of an instruction's meaning. -/
def finish (m : M Unit) (s : State) : Host.Outcome State Fault Refusal := .next (settleStop s (m s))

/-- The outcome of an event. -/
def happen (f : State → State) (s : State) : Host.Outcome State Fault Refusal := .next { f s with fate := .done }

/-! ## Common checks -/

/-- The image of the unit being issued: what TRAPVAL holds for ILLEGAL and PRIV (R207, R341). -/
def unitImage : M Word := ask fun s => s.ctx.unit
/-- The instruction needs supervisor privilege (R198). -/
def supervisor : M Unit := do
  let k ← getC
  need k.priv cPRIV k.unit
/-- The issuing context is a helper. -/
def inHelper : M Bool := ask fun s => s.cid ≠ 0
/-- R275: refused in a helper, with the group's TRAPVAL. -/
def notHelper (group : Word) : M Unit := do
  if ← inHelper then trap cILLEGAL group else pure ()
/-- A blocking instruction whose condition fails (R214): the control context waits, a helper traps. -/
def block (val : Word) : M α := do
  if ← inHelper then trap cHELPERWAIT val else wait

end Sys2Proof.Machine
end

