-- ==== Sys2Proof/Machine/Paths.lean ====
section
/-! DEFINITION. Addresses and their places (R28 to R30, R74), which packages reach one another (R361, R378), the paths of the Gloam
fabric (R168 to R170), its flits and spans (R171, R172) and send allowances (R363). -/
namespace Sys2Proof.Machine

/-! ## Addresses -/

/-- The direct address of a striped-window address (R29). -/
def unstripe (a : Nat) : Nat :=
  let g := a / 8192 % 2 ^ 26
  let f := (g / 8 % 8) ^^^ (g / 64 % 8) ^^^ (g / 512 % 8) ^^^ (g / 4096 % 8) ^^^ (g / 32768 % 8) ^^^ (g / 262144 % 8) ^^^
    (g / 2097152 % 8) ^^^ (g / 16777216 % 4)
  (((g % 8) ^^^ f) * 2 ^ 36) + (g / 8) * 8192 + a % 8192

/-- Where a physical address is served (R28). -/
inductive Place where
  | dram (p off : Nat)
  | host (p h : Nat)
  | peer (num off : Nat)
  | reserved
  deriving DecidableEq, Repr

/-- R28 with R29: the target of a physical address. -/
def placeOf (p pa : Nat) : Place :=
  if pa < 2 ^ 39 then .dram p pa
  else if 2 ^ 40 ≤ pa ∧ pa < 2 ^ 40 + 2 ^ 39 then .dram p (unstripe (pa - 2 ^ 40))
  else if 2 ^ 44 ≤ pa ∧ pa < 2 ^ 45 then .host p (pa - 2 ^ 44)
  else if 2 ^ 51 ≤ pa ∧ pa < 2 ^ 52 then .peer (pa / 2 ^ 39 % 4096) (pa % 2 ^ 39)
  else .reserved

/-- A frame in local DRAM, for table nodes (R36). The spec does not say whether another name of local DRAM counts: the striped alias
does here, the peer window of the own device does not (log entry 52). -/
def inLocalDram (p pa : Nat) : Bool :=
  match placeOf p pa with
  | .dram _ _ => true
  | _ => false

/-- The global byte address of a place: package * 2^52 + direct address; the peer window reaches its package's DRAM, the
device's own number its own (R28). none: no such package. -/
def State.globalAddr (s : State) (p pa : Nat) : Option Nat :=
  match placeOf p pa with
  | .dram p off => some (p * 2 ^ 52 + off)
  | .host p h => some (p * 2 ^ 52 + 2 ^ 44 + h)
  | .peer n off => if n = s.devNum p then some (p * 2 ^ 52 + off) else (s.pkgOfDev n).map fun q => q * 2 ^ 52 + off
  | .reserved => none

/-- Package, physical address and host membership of a line. -/
def pkgOfGl (gl : Nat) : Nat := gl / 2 ^ 45
def paOfGl (gl : Nat) : Nat := gl % 2 ^ 45 * 128
def isHostGl (gl : Nat) : Bool := 2 ^ 44 ≤ paOfGl gl

/-- home_of (R74). -/
def homeOf (pa : Nat) : Nat :=
  let x := pa / 128 % 2 ^ 29
  let h := (x % 2 ^ 15) ^^^ (x / 2 ^ 15)
  42 * (pa / 2 ^ 36 % 8) + h * 42 / 2 ^ 15
/-- proxy_of (R74). -/
def proxyOf (pa : Nat) : Nat :=
  let x := pa / 128
  let h := (x % 2 ^ 16) ^^^ (x / 2 ^ 16 % 2 ^ 16) ^^^ (x / 2 ^ 32)
  h * 336 / 2 ^ 16

/-- The PA by which package v names a line: its own, or the peer window (R28). -/
def State.paAt (s : State) (v gl : Nat) : Nat :=
  if v = pkgOfGl gl then paOfGl gl else 2 ^ 51 + s.devNum (pkgOfGl gl) * 2 ^ 39 + paOfGl gl
/-- The cluster of package v whose slice homes, proxies or visits a line (R42, R74, R84). -/
def State.sliceOf (s : State) (v gl : Nat) : Nat :=
  if v = pkgOfGl gl && !isHostGl gl then homeOf (paOfGl gl) else proxyOf (s.paAt v gl)
/-- The directory entry of a line at its home, or at the visitor slice of package v (R84). -/
def dirKey (v gl : Nat) : Nat := if v = pkgOfGl gl then gl else (v + 1) * 2 ^ 57 + gl
/-- R75: the set of a slice that holds a line. -/
def sliceSet (pa : Nat) : Nat :=
  let x := pa / 128
  (x % 1024) ^^^ (x / 1024 % 1024)
/-- Visitor lines: same domain, not the home's package (R84). -/
def State.isVisitor (s : State) (v gl : Nat) : Bool := v ≠ pkgOfGl gl && s.sameDomain v (pkgOfGl gl)

/-- Fields of a pip pointer or landing handle: device and tile. -/
def ptrDev (p : Word) : Nat := (bits p 40 12).toNat
def ptrTile (p : Word) : Nat := (bits p 28 12).toNat
def pipSlot (p : Word) : Nat := (bits p 21 7).toNat
def pipGen (p : Word) : Nat := (bits p 8 13).toNat

/-! ## Reach -/

/-- Package p reaches package q (R167, R361, R378): the same package; in one domain, an active path entry with V = 1 and the
GLOAM feature; across domains, the UEC feature. -/
def State.reaches (s : State) (p q : Nat) : Bool :=
  if p = q then true
  else if (s.dev q).dark then false
  else if s.sameDomain p q then
    (s.dev p).featAck.getLsbD 3 &&
      (List.range 4).any fun c => (mget 0 (s.dev p).fabric.paths (4 * (s.dev q).pos.toNat + c)).getLsbD 6
  else (s.dev p).featAck.getLsbD 4

/-- The slice of package v that homes, proxies or visits a line takes it: a slice that is offline takes no new lines (R24). -/
def State.sliceTakes (s : State) (v gl : Nat) : Bool :=
  let c := (s.dev v).cluster (s.sliceOf v gl)
  !c.offline || c.slice.contains gl

/-- The home of a global line answers package p: the package is reached, the host window is enabled and its link is up, and
the slices that serve the line take it. -/
def State.lineReached (s : State) (p gl : Nat) : Bool :=
  (if isHostGl gl then (s.dev p).featAck.getLsbD 6 && (s.dev p).cxlUp && pkgOfGl gl = p else s.reaches p (pkgOfGl gl)) &&
    s.sliceTakes (pkgOfGl gl) gl && (!s.isVisitor p gl || s.sliceTakes p gl)

/-- A tile answers: its package is reached and it is not fenced (R355). -/
def State.tileReached (s : State) (p t : Nat) : Bool := s.reaches p (pkgOf t) && !(s.tile t).fenced

/-! ## Matchings and paths (R168) -/

def Fabric.allow (f : Fabric) (n : Nat) : Allow := mget Allow.reset f.allows n
def State.modFabric (s : State) (p : Nat) (f : Fabric → Fabric) : State := s.modDev p fun d => { d with fabric := f d.fabric }
def State.modAllow (s : State) (p n : Nat) (f : Allow → Allow) : State :=
  s.modFabric p fun g => { g with allows := mset g.allows n (f (g.allow n)) }
/-- Package p has an active path entry with V = 1 toward a position. -/
def Fabric.pathTo (f : Fabric) (n : Nat) : Bool := (List.range 4).any fun c => (mget 0 f.paths (4 * n + c)).getLsbD 6
/-- Package q grants the packets of package p no further allowance: software withholds it (R363), or q has no path toward p (R369). -/
def State.withheld (s : State) (p q : Nat) : Bool :=
  let f := (s.dev q).fabric
  let n := (s.dev p).pos.toNat
  (f.allow n).withhold || !f.pathTo n
def Fabric.lane (f : Fabric) (n : Nat) : Lane := mget Lane.reset f.lanes n
/-- Bits set. -/
def popCount (x : BitVec n) : Nat := (List.range n).foldl (fun acc i => if x.getLsbD i then acc + 1 else acc) 0
/-- The active lanes of a port, as a mask. -/
def Fabric.lanesUp (f : Fabric) (p : Nat) : Nat :=
  (List.range 8).foldl (fun m i => if (f.lane (8 * p + i)).st = 1 then m + 2 ^ i else m) 0
def Fabric.nact (f : Fabric) (p : Nat) : Nat := popCount (BitVec.ofNat 8 (f.lanesUp p))
/-- Port p names position n in matching j (R361). -/
def Fabric.names (f : Fabric) (p j n : Nat) : Bool :=
  let e := mget 0 f.slots (4 * p + j)
  e.getLsbD 15 && (bits e 8 6 : BitVec 6).toNat = n
/-- A port with an active lane meets position n in matching j (R359, R361). -/
def Fabric.meets (f : Fabric) (j n : Nat) : Bool := (List.range 16).any fun p => f.names p j n && decide (0 < f.nact p)
/-- Some matching of the rotation meets position n. -/
def Fabric.meetsSome (f : Fabric) (n : Nat) : Bool := (List.range 4).any fun j => f.meets j n
/-- The intermediate of relay column c toward position n, if the entry has V = 1. -/
def Fabric.relay (f : Fabric) (n c : Nat) : Option Nat :=
  let e := mget 0 f.paths (4 * n + c)
  if e.getLsbD 6 then some (bits e 0 6 : BitVec 6).toNat else none

def fmix32 (h : Nat) : Nat :=
  let h := h ^^^ (h / 2 ^ 16)
  let h := h * 0x85EBCA6B % 2 ^ 32
  let h := h ^^^ (h / 2 ^ 13)
  let h := h * 0xC2B2AE35 % 2 ^ 32
  h ^^^ (h / 2 ^ 16)

/-- path_of (R168): the intermediate, by position, of a packet for line address a from package p to position n; none: DIRECT. T is taken as
the position, and a relay column whose entry has V = 0 while another has V = 1 as DIRECT (log entry 53). -/
def State.pathOf (s : State) (p n a : Nat) : Option Nat :=
  let sel := fmix32 ((a % 2 ^ 32) ^^^ (a / 2 ^ 32 % 2 ^ 13) ^^^ n) % 8
  if sel < 4 then none else (s.dev p).fabric.relay n (sel - 4)

/-- The path of a packet of package p to package q about a line, and that of a request for it, which goes to its home. -/
def State.viaTo (s : State) (p q gl : Nat) : Option Nat := s.pathOf p (s.dev q).pos.toNat (s.paAt p gl / 128)
def State.lineVia (s : State) (p gl : Nat) : Option Nat := s.viaTo p (pkgOfGl gl) gl
/-- The path of a delivery to a pip pointer or landing handle. -/
def State.ptrVia (s : State) (p : Nat) (ptr : Word) : Option Nat :=
  match s.pkgOfDev (ptrDev ptr) with
  | some q => s.pathOf p (s.dev q).pos.toNat (bits ptr 7 45 : BitVec 45).toNat
  | none => none

/-- A path of a package, by target position and intermediate; the paths of Vetch toward a position: by port, 16 through a relay (R371). -/
def pathKey (n : Nat) (via : Option Nat) : Nat := 65 * n + via.elim 64 id
def vetchKey (n port : Nat) : Nat := 4160 + 17 * n + port

/-- The package at a position of a package's domain. -/
def State.pkgAtPos (s : State) (p pos : Nat) : Option Nat := s.pkgOfDev (64 * (s.dev p).domain.toNat + pos)

/-! ## Flits and spans (R171, R172) -/

/-- One byte into a CRC-64 of polynomial 0x42F0_E1EB_A9EA_3693, most significant bit first. -/
def crcByte (c : BitVec 64) (b : Nat) : BitVec 64 :=
  (List.range 8).foldl (fun c _ => if c.getLsbD 63 then (c <<< 1) ^^^ 0x42F0E1EBA9EA3693#64 else c <<< 1)
    (c ^^^ BitVec.ofNat 64 (b % 256 * 2 ^ 56))
/-- The CRC-64 of the n low bytes of v, lowest first, from 0. The spec gives the polynomial; the order of bits and the start value are the
model's choice (log entry 54). -/
def crc64 (n v : Nat) : BitVec 64 := (List.range n).foldl (fun c i => crcByte c (v / 256 ^ i)) 0

/-- A flit: header, payload of 240 bytes, CRC over both. -/
def flitOf (header : BitVec 64) (payload : BitVec 1920) : BitVec 2048 :=
  header ++ payload ++ crc64 248 (header ++ payload).toNat
/-- The CRC of a flit passes. -/
def flitOk (f : BitVec 2048) : Bool := (bits f 0 64 : BitVec 64) = crc64 248 (bits f 64 1984 : BitVec 1984).toNat

/-- Flits of a span of n data bytes: 240 payload bytes each, the last 8 of them the tag. -/
def spanFlits (n : Nat) : Nat := (n + 8 + 239) / 240
/-- Data bytes of a full span: 32 flits. -/
def spanMax : Nat := 32 * 240 - 8
/-- The tag of a span: over the payload bytes of all its flits before it. -/
def spanTag (n v : Nat) : BitVec 64 := crc64 (240 * spanFlits n - 8) (v % 256 ^ n)

/-! ## Sending (R169, R170, R363) -/

/-- A request is on its way: in a send queue or a relay buffer. -/
def Held.away (h : Held) : Bool := h.stage ≠ .home && h.answer.isNone && !h.lost
/-- A request waits at its home. -/
def Held.waits (h : Held) : Bool := h.stage = .home && h.answer.isNone && !h.lost
/-- A request of package p to package q on a path is on its way. -/
def State.onPath (s : State) (p q : Nat) (via : Option Nat) : Bool :=
  s.held.any fun h => h.away && pkgOf h.tile = p && pkgOfGl h.gl = q && h.via = via

/-- Data bytes of a span of a contribution, and the flits of its span k (R371). -/
def vetchSpan : Nat := 7168
def Contrib.flits (c : Contrib) (k : Nat) : Nat := (72 + min vetchSpan (c.len - vetchSpan * k) + 239) / 240
/-- Spans of a contribution, and those that wait in the send queue. -/
def Contrib.spans (c : Contrib) : Nat := max 1 ((c.len + vetchSpan - 1) / vetchSpan)
def Contrib.waiting (c : Contrib) : List Nat := (List.range c.spans).filter fun k => !c.landed.contains k && !c.relay.contains k
/-- Every span has passed its tag. -/
def Contrib.whole (c : Contrib) : Bool := (List.range c.spans).all fun k => c.landed.contains k
/-- The place in part of flits that have left a relay, and of those on their way to it. -/
def partOut : Nat := 16
def partIn : Nat := 17
/-- Flits of a contribution that wait in the send queue, and that a relay holds. -/
def Contrib.queued (c : Contrib) : Nat :=
  (c.waiting.map c.flits).sum - (c.part.map fun e => if e.1 = partOut then 0 else e.2).sum
def Contrib.relayed (c : Contrib) : Nat := (c.relay.map c.flits).sum + mget 0 c.part partIn - mget 0 c.part partOut
/-- Flits that the relay buffer of package i holds for package q: requests, and spans of contributions (R371). -/
def State.relayed (s : State) (i q : Nat) : Nat :=
  (s.held.filter fun h => h.away && h.stage = .relay i && pkgOfGl h.gl = q).length +
    ((s.present.flatMap fun p => (s.dev p).regions.flatMap fun r => r.2.progs).map fun g =>
      g.out.elim 0 fun c => if c.via = some i && c.pkg = q then c.relayed else 0).sum
/-- An intermediate's reserve for one target: 1 MiB of its relay buffer, in flits (R363). -/
def relayReserve : Nat := 4096

/-- The owner of a span that has failed still stands. -/
def State.ownerLive (s : State) (p : Nat) (o : SpanOwner) : Bool :=
  match o with
  | .request id => s.held.any fun h => h.id = id && h.away
  | .xfer t ch => if ch < 4 then ((s.tile t).chans.getD ch Chan.reset).cur.isSome else !(s.tile t).direct.isEmpty
  | .vetch r id => ((s.dev p).region r).progs.any fun g => g.id = id && g.out.isSome
/-- A failed span of another owner holds the path back (R172). -/
def State.pathBlocked (s : State) (p key : Nat) (o : Option SpanOwner) : Bool :=
  match (s.dev p).fabric.failing.find? fun e => e.1 = key with
  | some e => some e.2.owner ≠ o && s.ownerLive p e.2.owner
  | none => false

/-! ## Slots (R359) -/

/-- ns of a slot, and of its guard. -/
def Fabric.slotNs (f : Fabric) : Nat := 2500 * 2 ^ f.len.toNat
def Fabric.guardNs (f : Fabric) : Nat := 10 * f.guard.toNat
/-- flits_per_slot: whole flits that a number of lanes sends in one slot. -/
def Fabric.slotFlits (f : Fabric) (lanes : Nat) : Nat := (f.slotNs - f.guardNs) * lanes * 50 / 256
/-- The slot and the rotation of a TIME. -/
def Fabric.slotOf (f : Fabric) (time : Nat) : Nat := time / f.slotNs
def Fabric.rotOf (f : Fabric) (time : Nat) : Nat := time / (4 * f.slotNs)
/-- The guard of the slot of a TIME is over. -/
def Fabric.pastGuard (f : Fabric) (time : Nat) : Bool := decide (f.guardNs ≤ time % f.slotNs)
/-- The last 0.5 µs of a slot (R372). -/
def Fabric.late (f : Fabric) (time : Nat) : Bool := decide (f.slotNs ≤ time % f.slotNs + 500)

/-- Slot k has come: a new slot has sent nothing, and a new rotation has no corrected symbols (R365). -/
def Fabric.turnSlot (f : Fabric) (k : Nat) : Fabric :=
  if f.usedSlot = k then f
  else { f with
    usedSlot := k, used := []
    lanes := if f.usedSlot / 4 = k / 4 then f.lanes else f.lanes.map fun l => (l.1, { l.2 with inRotation := 0 }) }

/-- Lanes that are active at both ends of a port of package p that meets position n (R371). -/
def State.pairLanes (s : State) (p port n : Nat) : Nat :=
  popCount (BitVec.ofNat 8 ((s.dev p).fabric.lanesUp port &&& (match s.pkgAtPos p n with
    | some q => (s.dev q).fabric.lanesUp port
    | none => 255)))
/-- Flits that a port of package p may still send to position n in the slot of its TIME: none in its guard, nor in a slot that does not match
them (R359). -/
def State.portRoom (s : State) (p port n : Nat) : Nat :=
  let f := (s.dev p).fabric
  let k := f.slotOf (s.time p)
  if f.pastGuard (s.time p) && f.names port (k % 4) n then
    f.slotFlits (s.pairLanes p port n) - (if f.usedSlot = k then mget 0 f.used port else 0)
  else 0
/-- The same of all its ports. -/
def State.slotRoom (s : State) (p n : Nat) : Nat := ((List.range 16).map fun port => s.portRoom p port n).sum
/-- A port sends flits in the slot of TIME. -/
def State.chargePort (s : State) (p port flits : Nat) : State :=
  s.modFabric p fun f =>
    let f := f.turnSlot (f.slotOf (s.time p))
    { f with used := mset f.used port (mget 0 f.used port + flits) }
/-- Flits go to position n on the ports that meet it, lowest port first. -/
def State.charge (s : State) (p n flits : Nat) : State :=
  ((List.range 16).foldl (fun (r : Nat × State) port =>
    let m := min r.1 (r.2.portRoom p port n)
    if m = 0 then r else (r.1 - m, r.2.chargePort p port m)) (flits, s)).2

/-- Package p sends from its queues: in RUN, and in DRAIN up to the next slot edge (R364). -/
def State.sends (s : State) (p : Nat) : Bool :=
  let f := (s.dev p).fabric
  f.st = .run || (f.st = .drain && f.slotOf f.since = f.slotOf (s.time p))
/-- Package p sends, and flits toward q may be sent: allowances are not HELD, and q's and a relay's reserve are not used up (R363, R365, R370). -/
def State.hopOpen (s : State) (p q : Nat) (via : Option Nat) (flits : Nat) : Bool :=
  let f := (s.dev p).fabric
  let n := (s.dev q).pos.toNat
  s.sends p && decide (flits ≤ (f.allow n).send) &&
    match via with
    | none => true
    | some i => match s.pkgAtPos p i with
      | some r => decide (s.relayed r q + flits ≤ relayReserve)
      | none => false
/-- The whole path has its matchings. -/
def State.pathMeets (s : State) (p q : Nat) (via : Option Nat) : Bool :=
  let f := (s.dev p).fabric
  let n := (s.dev q).pos.toNat
  match via with
  | none => f.meetsSome n
  | some i => f.meetsSome i && match s.pkgAtPos p i with
    | some r => ((s.dev r).fabric.st = .run || (s.dev r).fabric.st = .drain) && (s.dev r).fabric.meetsSome n
    | none => false

/-- The first hop of a path from package p to package q. -/
def State.firstHop (s : State) (q : Nat) (via : Option Nat) : Nat := via.getD (s.dev q).pos.toNat
/-- Package q is reached through the fabric. -/
def State.crosses (s : State) (p q : Nat) : Bool := p ≠ q && s.sameDomain p q
/-- The path of a packet of package p toward q is open, and none of it waits before it, but for a span of its own that failed. -/
def State.pathOpen (s : State) (p q : Nat) (via : Option Nat) (flits key : Nat) (own : Option SpanOwner) : Bool :=
  s.hopOpen p q via flits && s.pathMeets p q via && !s.onPath p q via && !s.pathBlocked p key own
/-- A packet of package p toward q finds its path open, whatever the slot. -/
def State.netOpen (s : State) (p q : Nat) (via : Option Nat) (flits : Nat) : Bool :=
  !s.crosses p q || s.pathOpen p q via flits (pathKey (s.dev q).pos.toNat via) none
/-- It may leave at once: this slot takes it too. The wait for the second hop of a packet that leaves no record is timing (log entry 88). -/
def State.netReady (s : State) (p q : Nat) (via : Option Nat) (flits : Nat) : Bool :=
  s.netOpen p q via flits && (!s.crosses p q || decide (flits ≤ s.slotRoom p (s.firstHop q via)))
/-- A request may cross at once: one that a relay forwards goes through its buffer. -/
def State.asksNow (s : State) (p q : Nat) (via : Option Nat) (flits : Nat) : Bool :=
  s.netReady p q via flits && (!s.crosses p q || via.isNone)

/-- The 31 bytes of a record, the first lowest (R379): TIME as 48-bit seconds and 32-bit ns, class, source (die, logical column, row, block), class
data. The order of the bytes within a field is the model's (log entry 87). -/
def MgmtEvent.record (e : MgmtEvent) : BitVec 248 :=
  BitVec.ofNat 128 e.data ++ BitVec.ofNat 32 e.source ++ BitVec.ofNat 8 e.cls ++ BitVec.ofNat 32 (e.time % 10 ^ 9) ++ BitVec.ofNat 48 (e.time / 10 ^ 9)

/-- An event record of a package is queued, or counted when the queue of 1,024 is full (R379). -/
def State.logEvent (s : State) (p cls source data : Nat) : State :=
  let time := s.time p
  s.modMgmt p fun m =>
    if 1024 ≤ m.events.length then { m with lostEvents := m.lostEvents + 1 }
    else { m with events := m.events ++ [⟨time, cls, source, data⟩] }
/-- The class of a record of a link or path (R379). -/
def evLINK : Nat := 5
/-- Source of a record (R379) of a block off the grid of tiles: the hub, or a Gloam port. The numbers of blocks are the model's (log entry 87). -/
def hubSource : Nat := 2 * 2 ^ 24
def portSource (port : Nat) : Nat := (16 + port) * 2 ^ 24

/-- What becomes of a span that is sent. -/
inductive Sent where
  | ok
  | again
  | lost
  deriving DecidableEq, Repr

/-- One transmission of a span of n bytes v on a path of package p: its tag passes, or fails for the how-manieth time; after 8 failures the
path is reported, and what the span belongs to ends UNREACH (R172). -/
def State.transmit (s : State) (p key : Nat) (o : SpanOwner) (n v : Nat) : Sent × State :=
  let f := (s.dev p).fabric
  let failed := (f.failing.find? fun e => e.1 = key && e.2.owner = o).elim 0 fun e => e.2.n
  match f.garbled.find? fun e => e.1 = key with
  | some (_, g) =>
    let s := s.modFabric p fun f => { f with
      garbled := if g.n ≤ 1 then mdel f.garbled key else mset f.garbled key { g with n := g.n - 1 } }
    if spanTag n (v ^^^ g.flip) = spanTag n v then (.ok, s.modFabric p fun f => { f with failing := mdel f.failing key })
    else if failed + 1 < 8 then (.again, s.modFabric p fun f => { f with failing := mset f.failing key ⟨o, failed + 1⟩ })
    else (.lost, (s.modFabric p fun f => { f with failing := mdel f.failing key }).logEvent p evLINK hubSource key)
  | none => (.ok, s.modFabric p fun f => { f with failing := mdel f.failing key })

/-- A span that a receiver holds whole until its tag passes, sent until it does or has failed 8 times. -/
def State.deliverSpan (s : State) (p key n v : Nat) : Nat → Sent × State
  | 0 => (.lost, s)
  | fuel + 1 =>
    match s.transmit p key (.request s.heldIds) n v with
    | (.again, s) => s.deliverSpan p key n v fuel
    | r => r

/-- Flits leave package p for q; their allowance comes back as q consumes them, unless q withholds it; what q consumes in the last 0.5 µs of a
slot comes back in a later one (R363, R372). -/
def State.netSend (s : State) (p q flits : Nat) : State := s.modAllow p (s.dev q).pos.toNat fun a => { a with send := a.send - flits }
def State.netConsume (s : State) (p q flits : Nat) : State :=
  let f := (s.dev p).fabric
  let time := s.time p
  s.modAllow p (s.dev q).pos.toNat fun a =>
    if s.withheld p q then { a with owed := a.owed + flits }
    else if f.late time then { a with owed := a.owed + flits, after := f.slotOf time + 1 } else { a with send := a.send + flits }
/-- A packet is sent and consumed. -/
def State.netAllow (s : State) (p q flits : Nat) : State :=
  if s.crosses p q && (s.withheld p q || (s.dev p).fabric.late (s.time p)) then (s.netSend p q flits).netConsume p q flits else s
/-- A packet goes all its way in the slot of TIME. -/
def State.netPay (s : State) (p q : Nat) (via : Option Nat) (flits : Nat) : State :=
  if s.crosses p q then (s.charge p (s.firstHop q via) flits).netAllow p q flits else s

/-- A recall of a line, an invalidation or what is written back may cross from package p to package q (R84, R165), and it does: sent until its
tag passes (R172). Its wait for a slot is timing (log entry 88). -/
def State.lineCrosses (s : State) (p q gl : Nat) : Bool := s.netOpen p q (s.viaTo p q gl) (spanFlits 128)
def State.crossLine (s : State) (p q gl : Nat) : State :=
  if !s.crosses p q then s
  else (s.deliverSpan p (pathKey (s.dev q).pos.toNat (s.viaTo p q gl)) 128 0 8).2.netAllow p q (spanFlits 128)

end Sys2Proof.Machine
end

