-- ==== Sys2Proof/Machine/Home.lean ====
section
/-! DEFINITION. Homes: recalls and the directory (R73 to R78, R84, R87), barriers (R103, R104), pip slots (R174, R175), channel starts
and store trackers (R112, R113). What may be served is served whole at its home, in one step. -/
namespace Sys2Proof.Machine

/-! ## Recalls (R73, R77) -/

/-- The request registers words of line gl of a tile's array, and waits (R79). -/
def Held.registers (h : Held) (t gl : Nat) : Bool :=
  h.tile = t && h.answer.isNone && !h.lost && (h.fill.any fun f => f.gl = gl) &&
    match h.work with
    | .register _ _ => true
    | _ => false
/-- Words of a line that a tile has marked D while their registration is outstanding. -/
def State.pendingWords (s : State) (t gl : Nat) : WordMask :=
  (s.held.filter fun h => h.registers t gl).foldl (fun m h => m ||| h.words) 0

/-- An owner tile answers a recall of words of a line: dirty words are written back; a write recall also invalidates. Words whose
registration is outstanding are not the tile's yet. -/
def State.recallTile (s : State) (t gl : Nat) (mask : WordMask) (inv : Bool) : State :=
  match (s.tile t).lines.find? fun l => l.gl = gl with
  | none => s
  | some l =>
    let mask := mask &&& ~~~s.pendingWords t gl
    let d := l.dirty &&& mask
    let l' := { l with
      own := l.own &&& ~~~mask, dirty := l.dirty &&& ~~~mask
      valid := if inv then l.valid &&& ~~~mask else l.valid }
    let s := if d = 0 then s else { s with mem := writeLine s.mem gl (wordBytes d) l.data }
    s.modTile t fun x => { x with lines := x.lines.map fun m => if m.gl = gl then l' else m }

/-- Recall words from every owner of a directory entry but the tile skip. -/
def State.recallOwners (s : State) (key gl : Nat) (mask : WordMask) (inv : Bool) (skip : Option Nat) : State :=
  let d := s.dir key
  let hit := d.owners.filter fun o => some o.tile ≠ skip && o.mask &&& mask ≠ 0
  if hit.isEmpty then s
  else
    let s := hit.foldl (fun s o => s.recallTile o.tile gl (o.mask &&& mask) inv) s
    s.modDir key fun d => { d with
      owners := (d.owners.map fun o => if some o.tile = skip then o else { o with mask := o.mask &&& ~~~mask }).filter
        fun o => o.mask ≠ 0 }

/-- The packages that share a line, by the mask of their positions (R84). -/
def State.sharers (s : State) (gl : Nat) (m : BitVec 64) : List Nat :=
  (List.range 64).filterMap fun i => if m.getLsbD i then s.pkgAtPos (pkgOfGl gl) i else none

/-- R84: a request from an agent of package v recalls a MODIFIED visitor, and a write invalidates every SHARED copy. -/
def State.clearRemote (s : State) (gl v : Nat) (write : Bool) : State :=
  let h := pkgOfGl gl
  match (s.dir gl).remote with
  | .none => s
  | .shared m =>
    if write then ((s.sharers gl m).foldl (fun s w => s.crossLine h w gl) s).modDir gl fun d => { d with remote := .none } else s
  | .modified pos =>
    match s.pkgAtPos h pos with
    | some w =>
      if w = v then s
      else (((s.crossLine h w gl).recallOwners (dirKey w gl) gl (BitVec.allOnes 32) true none).crossLine w h gl).modDir gl
        fun d => { d with remote := .none }
    | none => s.modDir gl fun d => { d with remote := .none }

/-- A line has nothing a slice must recall before it replaces it (R75). -/
def Dir.quiet (d : Dir) : Bool := d.owners.isEmpty && d.host = .none && d.remote = .none

/-- What a slice does for a new line: it has a way free, replaces a line, or has none that it may replace yet: the lines of the set are all
in MIGRATING or FORWARD, poisoned or compact-held, or the host must first give up a copy that it has changed, or what is written back cannot
cross the fabric. -/
inductive Way where
  | free
  | replace (g : Nat)
  | none
  deriving DecidableEq, Repr

/-- A line that the slice of package v replaces must go back to its home in another package, and can (R84, R165). -/
def State.goesBack (s : State) (v g : Nat) : Bool := v ≠ pkgOfGl g && (s.dir g).remote = .modified (s.dev v).pos.toNat
def State.mayLeave (s : State) (v g : Nat) : Bool := !s.goesBack v g || s.lineCrosses v (pkgOfGl g) g

/-- R75: a line that nothing must be recalled from is preferred, and the least recently used of several. -/
def State.wayFor (s : State) (v gl : Nat) : Way :=
  let slice := ((s.dev v).cluster (s.sliceOf v gl)).slice
  let set := sliceSet (s.paAt v gl)
  let inSet := slice.filter fun g => sliceSet (s.paAt v g) = set
  if slice.contains gl || inSet.length < 16 then .free
  else
    let cands := inSet.reverse.filter fun g => (s.dir (dirKey v g)).st = .normal && s.mayLeave v g
    match (cands.find? fun g => (s.dir (dirKey v g)).quiet).orElse fun _ => cands.head? with
    | some g => if (s.dir (dirKey v g)).host = .modified then .none else .replace g
    | none => .none

/-- The slice of package v takes a line in use, most recently used first; the line it replaces is recalled. One that it has no way for is
served past it. -/
def State.touchSlice (s : State) (v gl : Nat) : State :=
  let n := s.sliceOf v gl
  let put := fun (s : State) => s.modCluster v n fun c => { c with slice := gl :: c.slice.filter (· ≠ gl) }
  if !s.sliceTakes v gl then s
  else match s.wayFor v gl with
    | .free => put s
    | .none => s
    | .replace g =>
      let s := s.recallOwners (dirKey v g) g (BitVec.allOnes 32) true none
      let s := if v = pkgOfGl g then (s.clearRemote g v true).modDir g fun d => { d with host := .none }
        else if s.goesBack v g then (s.crossLine v (pkgOfGl g) g).modDir g fun d => { d with remote := .none } else s
      put (s.modCluster v n fun c => { c with slice := c.slice.filter (· ≠ g) })

/-! ## Service at a home (R77, R78, R84) -/

/-- READ by tile t of words of a line. -/
def State.serveRead (s : State) (t gl : Nat) (mask : WordMask) : State :=
  let v := pkgOf t
  let h := pkgOfGl gl
  let s := s.clearRemote gl v false
  if v = h then (s.recallOwners gl gl mask false (some t)).touchSlice h gl
  else
    let s := (s.recallOwners gl gl mask false none).touchSlice h gl
    if s.isVisitor v gl then
      let pos := (s.dev v).pos.toNat
      let s := s.modDir gl fun d => { d with
        remote := match d.remote with
          | .none => .shared (BitVec.ofNat 64 (2 ^ pos))
          | .shared m => .shared (m ||| BitVec.ofNat 64 (2 ^ pos))
          | r => r }
      (s.recallOwners (dirKey v gl) gl mask false (some t)).touchSlice v gl
    else s

/-- R78: the tile's record gains the words; a fifth tile takes the place of the oldest record, whose words are recalled. -/
def State.addOwner (s : State) (key gl t : Nat) (mask : WordMask) : State :=
  let d := s.dir key
  if d.owners.any fun o => o.tile = t then
    s.modDir key fun d => { d with
      owners := d.owners.map fun o => if o.tile = t then { o with mask := o.mask ||| mask } else o }
  else
    match d.owners with
    | o :: _ :: _ :: _ :: _ =>
      (s.recallTile o.tile gl o.mask true).modDir key fun d => { d with owners := d.owners.tail ++ [⟨t, mask⟩] }
    | _ => s.modDir key fun d => { d with owners := d.owners ++ [⟨t, mask⟩] }

/-- REGISTER by tile t of words of a line: other owners, SHARED and host copies go, and ownership is granted. -/
def State.serveRegister (s : State) (t gl : Nat) (mask : WordMask) : State :=
  let v := pkgOf t
  let h := pkgOfGl gl
  if v = h then
    let s := (s.clearRemote gl v true).recallOwners gl gl mask true (some t)
    ((s.modDir gl fun d => { d with host := .none }).addOwner gl gl t mask).touchSlice h gl
  else
    let pos := (s.dev v).pos.toNat
    let s := if (s.dir gl).remote = .modified pos then s
      else (((s.clearRemote gl v true).recallOwners gl gl (BitVec.allOnes 32) true none).modDir gl fun d =>
        { d with host := .none, remote := .modified pos }).touchSlice h gl
    let s := s.recallOwners (dirKey v gl) gl mask true (some t)
    (s.addOwner (dirKey v gl) gl t mask).touchSlice v gl

/-- The words leave the sender's owner record (WRITEBACK and RETURN, R77). -/
def State.clearOwner (s : State) (t gl : Nat) (mask : WordMask) : State :=
  s.modDir (dirKey (pkgOf t) gl) fun d => { d with
    owners := (d.owners.map fun o => if o.tile = t then { o with mask := o.mask &&& ~~~mask } else o).filter
      fun o => o.mask ≠ 0 }

/-- Write access by an agent that keeps no copy: every owner of the words is recalled and invalidated, the issuing tile's
words too, with SHARED and host copies (R84, R86, R93). -/
def State.serveWrite (s : State) (v gl : Nat) (mask : WordMask) : State :=
  let s := (s.clearRemote gl (pkgOfGl gl) true).recallOwners gl gl mask true none
  let s := if v ≠ pkgOfGl gl then s.recallOwners (dirKey v gl) gl mask true none else s
  (s.modDir gl fun d => { d with host := .none }).touchSlice (pkgOfGl gl) gl

/-- Read access by an agent that keeps no copy. -/
def State.servePeek (s : State) (gl : Nat) (mask : WordMask) : State :=
  ((s.clearRemote gl (pkgOfGl gl) false).recallOwners gl gl mask false none).touchSlice (pkgOfGl gl) gl

/-! ## Reports (R379) -/

/-- Classes of event records (R379). -/
def evCORRECTED : Nat := 0
def evPOISON : Nat := 1
def evQUARANTINE : Nat := 2
def evFENCE : Nat := 3
def evOFFLINE : Nat := 4
def evQUEUE : Nat := 6
def evFIRMWARE : Nat := 7
def evSNAP : Nat := 8
def evTHERMAL : Nat := 9
def evLOST : Nat := 10

/-- Source of a record: die, logical column, row, block. -/
def sourceOf (t block : Nat) : Nat := dieOf t + lcolOf t * 2 ^ 8 + rowOf t * 2 ^ 16 + block * 2 ^ 24

/-- The second of a record of corrected errors has passed at a TIME. -/
def MgmtEvent.over (e : MgmtEvent) (time : Nat) : Bool := decide (e.time + 1000000000 ≤ time)
/-- A record is queued before those of a later TIME, or counted when the queue is full. -/
def Mgmt.enqueue (m : Mgmt) (e : MgmtEvent) : Mgmt :=
  if 1024 ≤ m.events.length then { m with lostEvents := m.lostEvents + 1 }
  else { m with events := m.events.filter (fun f => decide (f.time ≤ e.time)) ++ [e] ++ m.events.filter fun f => decide (e.time < f.time) }
/-- Records of corrected errors whose second has passed are queued. -/
def State.flushMerged (s : State) (p : Nat) : State :=
  let time := s.time p
  s.modMgmt p fun m => ((m.merging.filter fun e => e.over time).foldl Mgmt.enqueue { m with merging := m.merging.filter fun e => !e.over time })

/-- A corrected error: counted under key n, and in one record with others of its source and second (R379). -/
def State.countCorrected (s : State) (p n source : Nat) : State :=
  let s := s.flushMerged p
  let time := s.time p
  s.modMgmt p fun m =>
    let same := fun (e : MgmtEvent) => e.source = source
    { m with
      ecc := mset m.ecc n (mget 0 m.ecc n + 1)
      merging := if m.merging.any same then m.merging.map fun e => if same e then { e with data := e.data + 1 } else e
        else m.merging ++ [⟨time, evCORRECTED, source, 1⟩] }

/-! ## Barriers (R103, R104) -/

/-- apply (R104) with DONE counting modulo m: an arrival or not, and a byte credit. -/
def BarV.apply (b : BarV) (m : Nat) (arr bytes : Nat) : BarV :=
  if b.expArr = 0 ∧ b.expBytes = 0 then { b with ovf := true }
  else
    let b := { b with
      ovf := b.ovf || decide (b.pendArr < arr) || decide (b.pendBytes < bytes)
      pendArr := b.pendArr - arr, pendBytes := b.pendBytes - bytes }
    if b.pendArr = 0 ∧ b.pendBytes = 0 then
      { b with phase := !b.phase, done := (b.done + 1) % m, pendArr := b.expArr, pendBytes := b.expBytes }
    else b

/-- BINIT (R238). -/
def BarV.init (arr bytes : Nat) : BarV := ⟨arr, bytes, false, false, arr, bytes, 0⟩

def Barrier.toV (b : Barrier) : BarV :=
  ⟨b.expArr.toNat, b.expBytes.toNat, b.phase, b.ovf, b.pendArr.toNat, b.pendBytes.toNat, b.done.toNat⟩
def BarV.toLocal (b : BarV) : Barrier :=
  ⟨BitVec.ofNat 16 b.expArr, BitVec.ofNat 40 b.expBytes, b.phase, b.ovf, BitVec.ofNat 16 b.pendArr,
    BitVec.ofNat 40 b.pendBytes, BitVec.ofNat 16 b.done⟩

/-- A global barrier object from its first 24 bytes (R103). -/
def BarV.ofNat (v : Nat) : BarV :=
  let a := v % 2 ^ 64
  let b := v / 2 ^ 64 % 2 ^ 64
  ⟨a / 2 ^ 40 % 2 ^ 16, a % 2 ^ 40, b / 2 ^ 63 = 1, b / 2 ^ 62 % 2 = 1, b / 2 ^ 40 % 2 ^ 16, b % 2 ^ 40, v / 2 ^ 128 % 2 ^ 32⟩
def BarV.toNat (b : BarV) : Nat :=
  (b.expArr * 2 ^ 40 + b.expBytes) + ((if b.phase then 2 ^ 63 else 0) + (if b.ovf then 2 ^ 62 else 0) + b.pendArr * 2 ^ 40 +
    b.pendBytes) * 2 ^ 64 + b.done * 2 ^ 128

/-- The name of a barrier's updates: of the global object at an address, of barrier n of a tile. -/
def globalName (a : Nat) : Nat := 2 * a
def localName (t n : Nat) : Nat := 2 * (16 * t + n) + 1

/-- An update reaches a barrier whose fields are b (R104). It is applied, merged with that of the same cycle where one is an arrival and the
other a credit; none: it waits for a later cycle. -/
def State.updateBar (s : State) (name m : Nat) (b : BarV) (arr bytes : Nat) : Option BarV × State :=
  let credit := if arr = 0 || bytes ≠ 0 then some bytes else none
  let put := fun (p : BarPort) => { s with ports := s.ports.filter (fun q => q.name ≠ name) ++ [p] }
  match s.ports.find? fun p => p.name = name with
  | some p =>
    if p.at' ≠ s.now || p.post ≠ b then
      let v := b.apply m arr bytes
      (some v, put { p with at' := s.now, pre := b, post := v, arr := decide (arr ≠ 0), credit := credit })
    else if (arr ≠ 0 && p.arr) || (credit.isSome && p.credit.isSome) then (none, put { p with later := p.later ++ [(arr, bytes)] })
    else
      let v := p.pre.apply m (if p.arr then 1 else arr) (p.credit.getD bytes)
      (some v, put { p with post := v, arr := p.arr || decide (arr ≠ 0), credit := p.credit.orElse fun _ => credit })
  | none =>
    let v := b.apply m arr bytes
    (some v, put ⟨name, s.now, b, v, decide (arr ≠ 0), credit, []⟩)

/-- BINIT or BEXPECT has given a barrier the fields b: what follows in the cycle is applied to them. -/
def State.restartBar (s : State) (name : Nat) (b : BarV) : State :=
  { s with ports := s.ports.map fun p => if p.name = name then { p with pre := b, post := b, arr := false, credit := none } else p }

/-- Updates of barriers wait for a later cycle; those of them that are arrivals. -/
def State.updatesWait (s : State) : Bool := s.ports.any fun p => !p.later.isEmpty
def State.arrivalsWait (s : State) : Bool := s.ports.any fun p => p.later.any fun u => u.1 ≠ 0

def Tile.setHw (x : Tile) (n : Option Nat) (st : PipState) : Tile :=
  match n with
  | some n => { x with pips := mset x.pips n { mget Pip.reset x.pips n with st := st } }
  | none => x
/-- The reply to a request has arrived: the hardware slot is free. -/
def State.freeSlotOf (s : State) (h : Held) : State :=
  if h.slot.isNone then s else s.modTile h.tile fun x => x.setHw h.slot .free
/-- The record of a request changes. -/
def State.modHeld (s : State) (id : Nat) (f : Held → Held) : State :=
  { s with held := s.held.map fun h => if h.id = id then f h else h }

/-- The BWAITs that wait at a barrier's home with a seen value other than DONE are answered with DONE (R238, R240); bit 32 of the answer says
that BINIT set it, so that nothing is acquired. -/
def State.answerAwaits (s : State) (a done : Nat) (init : Bool) : State :=
  s.held.foldl (fun s h =>
    match h.work with
    | .await off seen =>
      if h.waits && h.gl * 128 + off = a && seen ≠ done then
        (s.freeSlotOf h).modHeld h.id fun h =>
          { h with answer := some (BitVec.ofNat 1024 (done + if init then 2 ^ 32 else 0)), slot := none }
      else s
    | _ => s) s

/-- Change the global barrier object at a global byte address, at its home; init for BINIT. -/
def State.changeBarrier (s : State) (a : Nat) (init : Bool) (f : BarV → BarV) : State :=
  let gl := a / 128
  let s := s.serveWrite (pkgOfGl gl) gl (spanWords (a % 128) 32)
  let b := f (BarV.ofNat (readNat s.mem a 32))
  (({ s with mem := writeNat s.mem a 32 b.toNat } : State).restartBar (globalName a) b).answerAwaits a b.done init

/-- An arrival and a credit are applied to the global object at a global byte address, at its home (R104). -/
def State.countBarrier (s : State) (a arr bytes : Nat) : State :=
  let gl := a / 128
  let s := s.serveWrite (pkgOfGl gl) gl (spanWords (a % 128) 32)
  match s.updateBar (globalName a) (2 ^ 32) (BarV.ofNat (readNat s.mem a 32)) arr bytes with
  | (some b, s) => ({ s with mem := writeNat s.mem a 32 b.toNat } : State).answerAwaits a b.done false
  | (none, s) => s

/-- The line at which requests for a line are served: a forwarded one names the next (R44). -/
def State.forwarded (s : State) : Nat → Nat → Nat
  | 0, gl => gl
  | n + 1, gl =>
    match (s.dir gl).st with
    | .forward g => s.forwarded n g
    | _ => gl

/-- The tile number under which a home holds requests of its own: no tile has it. -/
def homeAgent (p : Nat) : Nat := p * 4096 + 4095
/-- A request of a home, not of a tile. -/
def Held.ofHome (h : Held) : Bool := numOf h.tile = 4095

/-- The number under which requests go on for which no context waits, those of a context that has ended too. -/
def goneCid : Nat := 12

/-- A request of tile t for which no context waits is held. tag is that of what it belongs to. -/
def State.holdFor (s : State) (t gl : Nat) (words : WordMask) (work : HeldWork) (ptr : Word) (tag : Nat) (stage : Stage) (via : Option Nat) : State :=
  { s with
    heldIds := s.heldIds + 1
    held := s.held ++ [{
      id := s.heldIds, tile := t, pid := (s.tile t).pid, self := (s.tile t).self, cid := goneCid, unit := 0, gl := gl, words := words
      work := work, ptr := ptr, seq := tag, stage := stage, via := via, slot := none, fill := none, mine := 0, mineData := 0
      answer := none, lost := false, cause := 0 }] }

/-- A write that nobody asked a home for must wait at a line: it is moved (R44), the host has a copy (R87), a compact holds it (R124), or some of
its words are tentative (R297). -/
def Dir.shut (d : Dir) : Bool := d.st = .migrating || d.st = .held || d.host ≠ .none || !d.tentative.isEmpty

/-- An arrival, or a credit for which no context waits, reaches a global barrier (R104, R107): at the home of a forwarded line, and after what
holds the line back. tag is that of the transfer it belongs to, or 0. -/
def State.barrierUpdate (s : State) (a arr bytes tag : Nat) : State :=
  let gl := s.forwarded 8 (a / 128)
  let d := s.dir gl
  if d.st = .poison then s
  else if d.shut then
    s.holdFor (homeAgent (pkgOfGl gl)) gl (spanWords (a % 128) 32) (.update (a % 128) 2 arr bytes) 0 tag .home none
  else s.countBarrier (gl * 128 + a % 128) arr bytes

/-- A tracker of package p credits its barrier: a far one through the fabric (R104, R113, R370). -/
def State.trackerCredit (s : State) (p a bytes : Nat) : State :=
  let gl := a / 128
  if p = pkgOfGl gl || !s.sameDomain p (pkgOfGl gl) then s.barrierUpdate a 0 bytes 0
  else s.holdFor (homeAgent p) gl (spanWords (a % 128) 32) (.update (a % 128) 2 0 bytes) 0 0 .queue (s.lineVia p gl)

/-- An arrival or credit reaches local barrier n of a tile; a completed phase is an event of R314. -/
def State.localBarrier (s : State) (t n arr bytes : Nat) : State :=
  let b := (s.tile t).bars.getD n Barrier.reset
  match s.updateBar (localName t n) (2 ^ 16) b.toV arr bytes with
  | (some v, s) =>
    let s := s.modTile t fun x => { x with bars := x.bars.setIfInBounds n v.toLocal }
    if v.toLocal.done = b.done then s else s.wake t 0
  | (none, s) => s

/-- A new cycle: the updates that waited for one reach their barriers again, in their order (R104). -/
def State.nextUpdates (s : State) : State :=
  let due := s.ports.filter fun p => decide (p.at' < s.now)
  let s := { s with ports := s.ports.filter fun p => decide (s.now ≤ p.at') }
  due.foldl (fun s p => p.later.foldl (fun s u =>
    if p.name % 2 = 1 then s.localBarrier (p.name / 32) (p.name / 2 % 16) u.1 u.2 else s.barrierUpdate (p.name / 2) u.1 u.2 0) s) s

/-! ## Pip slots (R174, R175, R324) -/

def Tile.pip (x : Tile) (n : Nat) : Pip := mget Pip.reset x.pips n
def State.modPip (s : State) (t n : Nat) (f : Pip → Pip) : State :=
  s.modTile t fun x => { x with pips := mset x.pips n (f (x.pip n)) }

/-- A slot holds a fill for a mailbox of an image's context. -/
def Pip.fills (p : Pip) (pid self c mb : Nat) : Bool := p.st = .landed && p.pid = pid && p.self = self && p.cid = c && p.mb = mb

/-- LANDED slots on tile o of the mailbox of a context on tile t enter it when it is empty, in the order of their events (R175, R324); those that wait
on a tile which the context has left go before (R177). -/
def State.pipFrom (s : State) (o t c mb : Nat) : State :=
  let x := s.tile t
  let k := x.ctx c
  let b := k.mbs.getD mb Mailbox.reset
  let fills := fun (p : Pip) => p.fills x.pid x.self c mb
  let waiting := (s.tile o).pips.filter fun e => fills e.2
  if b.full || !mhas x.ctxs c || waiting.isEmpty || (o = t && s.tiles.any fun e => e.1 ≠ t && e.2.pips.any fun q => fills q.2) then s
  else
    match waiting.foldl (fun (best : Option (Nat × Pip)) e =>
        match best with
        | some b => if e.2.order < b.2.order then some e else best
        | none => some e) none with
    | none => s
    | some (n, p) =>
      let s := s.modCtxAt t c fun k => { k with mbs := k.mbs.setIfInBounds mb ⟨p.val, true, p.tag, true, s.now + 2⟩ }
      let s := s.modPip o n fun p =>
        if o = t && p.tag = 1 then { p with st := .quar, quarEnd := s.time (pkgOf t) + 64000 } else { p with st := .free }
      s.wake t c

/-- LANDED slots of a context's own tile enter its mailbox. -/
def State.pipTurn (s : State) (t c mb : Nat) : State := s.pipFrom t t c mb

/-- A LIVE slot ends: its generation advances and the fill it holds waits for its mailbox. -/
def State.pipLand (s : State) (t n : Nat) (tag : BitVec 2) (v : Word) (delivered : Bool) : State :=
  let x := s.tile t
  let p := x.pip n
  let s := s.modPip t n fun p => { p with
    st := .landed, gen := p.gen + 1, tag := tag, val := v, delivered := delivered, order := x.landings }
  let s := s.modTile t fun x => { x with landings := x.landings + 1 }
  if x.pid = p.pid && x.self = p.self then s.pipTurn t p.cid p.mb else s

/-- An expiry while the slot's context is saved on its tile fills the image, if the mailbox is empty and no fill waits for it (R175, R177). -/
def State.fillSaved (s : State) (t n : Nat) : State :=
  let x := s.tile t
  let p := x.pip n
  match x.save with
  | some im =>
    let b := (mget Ctx.reset im.ctxs p.cid).mbs.getD p.mb Mailbox.reset
    let others := x.pips.any fun e => e.1 ≠ n && e.2.fills p.pid p.self p.cid p.mb
    if p.st ≠ .landed || im.pid ≠ p.pid || im.self ≠ p.self || !mhas im.ctxs p.cid || b.full || others then s
    else
      let im := im.modCtx p.pid p.self p.cid fun k => { k with mbs := k.mbs.setIfInBounds p.mb ⟨p.val, true, p.tag, true, s.now⟩ }
      (s.modTile t fun x => { x with save := some im }).modPip t n fun p => { p with st := .quar, quarEnd := s.time (pkgOf t) + 64000 }
  | none => s

/-- A delivering store reaches a slot; a poisoned source delivers tag 3 and value 0 (R176). The second part tells whether it
was accepted. -/
def State.pipDeliver (s : State) (t n gen : Nat) (v : Word) (poison : Bool) : State × Bool :=
  let p := (s.tile t).pip n
  if p.st = .live && p.gen.toNat = gen && 64 ≤ n then
    (s.pipLand t n (if poison then 3 else 0) (if poison then 0 else v) true, true)
  else (s, false)

/-- The name of slot n of a tile (R173). -/
def State.pipPtr (s : State) (t n : Nat) : Word :=
  0#5 ++ 0#4 ++ 2#3 ++ BitVec.ofNat 12 (s.devNum (pkgOf t)) ++ BitVec.ofNat 12 (numOf t) ++ BitVec.ofNat 7 n ++
    ((s.tile t).pip n).gen ++ 0#8

/-! ## Channel starts and trackers (R96, R112, R113) -/

def Tile.chan (x : Tile) (n : Nat) : Chan := x.chans.getD n Chan.reset
def State.modChan (s : State) (t n : Nat) (f : Chan → Chan) : State :=
  s.modTile t fun x => { x with chans := x.chans.setIfInBounds n (f (x.chan n)) }

/-- A walk starts at a head (R96). -/
def State.startWalk (s : State) (t n : Nat) (head : Word) (a : Armer) : State :=
  s.modChan t n fun c => { c with st := .running, head := head, cur := none, moved := 0, armer := a }

/-- CODE and FIRED of a tracker's descriptor (R112), at the home of a forwarded line, and after what holds the line back; a poisoned line keeps
neither. -/
def State.markFired (s : State) (desc code : Nat) : State :=
  let gl := s.forwarded 8 (desc / 128)
  let off := desc % 128 + 0x30
  let words := spanWords off 4
  let v := code % 256 + 256
  let d := s.dir gl
  if d.st = .poison then s
  else if d.shut then
    s.holdFor (homeAgent (pkgOfGl gl)) gl words (.store (spanBytes off 2) (BitVec.ofNat 1024 (v * 2 ^ (8 * off)))) 0 0 .home none
  else
    let s := s.serveWrite (pkgOfGl gl) gl words
    { s with mem := writeNat s.mem (gl * 128 + off) 2 v }

def Cluster.tracker (c : Cluster) (n : Nat) : Tracker := mget Tracker.reset c.trackers n
def State.modTracker (s : State) (p cl n : Nat) (f : Tracker → Tracker) : State :=
  s.modCluster p cl fun c => { c with trackers := mset c.trackers n (f (c.tracker n)) }

/-- The delivering store of a tracker of package p: the checks of a delivering store (R12, R32, R176), then what the slot does with it (R97, R175),
and its CODE. One that its path holds back goes as the requests of the path do (R169, R172). R12 names no CODE for a tracker whose pointer has a
tile field of 2,688 or more: here it is SPENT (log entry 81). -/
def State.trackerDeliver (s : State) (p desc : Nat) (ptr v : Word) : State :=
  if bits ptr 52 3 ≠ (2 : BitVec 3) then s.markFired desc 7
  else if bits ptr 0 8 ≠ (0 : BitVec 8) then s.markFired desc 8
  else if 2688 ≤ ptrTile ptr || pipSlot ptr < 64 then s.markFired desc 0x0A
  else match s.pkgOfDev (ptrDev ptr) with
    | none => s.markFired desc 3
    | some q =>
      let t := q * 4096 + ptrTile ptr
      let via := s.ptrVia p ptr
      if !s.tileReached p t then s.markFired desc 3
      else if !s.asksNow p q via (spanFlits 8) then s.holdFor (homeAgent p) (q * 2 ^ 45) 0 (.deliver v (some desc)) ptr 0 .queue via
      else
        let sent := if p = q || !s.sameDomain p q then (Sent.ok, s) else s.deliverSpan p (pathKey (s.dev q).pos.toNat via) 8 v.toNat 8
        match sent with
        | (.ok, s) =>
          let (s, ok) := (s.netPay p q via (spanFlits 8)).pipDeliver t (pipSlot ptr) (pipGen ptr) v false
          s.markFired desc (if ok then 0 else 0x0A)
        | (_, s) => s.markFired desc 3

/-- The action of a tracker that fires (R113). -/
def State.fireTracker (s : State) (p cl n : Nat) : State :=
  let k := ((s.dev p).cluster cl).tracker n
  let s := s.modTracker p cl n fun k => { k with st := .fired }
  let desc := k.desc.toNat
  match k.act with
  | 1 =>
    let t := p * 4096 + k.tile
    let ch := k.aux % 4
    let h : HeldStart := ⟨ch, k.opd0, cl, n, k.armer⟩
    if (s.tile t).pid ≠ k.armer.pid && (s.tile t).parked.any fun q => q.pid = k.armer.pid then
      s.modTile t fun x =>
        { x with parked := x.parked.map fun q => if q.pid = k.armer.pid then { q with held := q.held ++ [h] } else q }
    else if ((s.tile t).chan ch).st = .running then
      s.modTile t fun x => { x with held := x.held ++ [h] }
    else (s.startWalk t ch k.opd0 k.armer).markFired desc 0
  | 2 => (s.trackerCredit p k.bar (k.opd1.toNat % 2 ^ 40)).markFired desc 0
  | 3 => s.trackerDeliver p desc k.opd0 k.opd1
  | 4 =>
    (s.modRegion p (cl / 42) fun r => { r with
      progs := r.progs.map fun g => if g.id = k.aux then { g with signals := g.signals + 1 } else g }).markFired desc 0
  | _ => s

/-- Bytes of a line's mask that lie in [base, base + len). -/
def bytesIn (gl : Nat) (mask : ByteMask) (base len : Nat) : Nat :=
  (List.range 128).foldl (fun acc i =>
    if mask.getLsbD i && decide (base ≤ gl * 128 + i) && decide (gl * 128 + i < base + len) then acc + 1 else acc) 0

/-- One tracker counts reported bytes and fires at its threshold (R113). -/
def State.countBytes (s : State) (p cl n gl : Nat) (mask : ByteMask) : State :=
  let k := ((s.dev p).cluster cl).tracker n
  if k.st = .free then s
  else
    let b := bytesIn gl mask k.base k.len
    let s := s.modTracker p cl n fun k => { k with count := k.count + b }
    if k.st = .armed && k.act ≠ 0 && k.thresh ≤ k.count + b then s.fireTracker p cl n else s

/-- A home reports written bytes of a line to every tracker of its region (R113). -/
def State.report (s : State) (gl : Nat) (mask : ByteMask) : State :=
  let p := pkgOfGl gl
  let r := paOfGl gl / 2 ^ 36
  ((s.dev p).clusters.filter fun c => c.1 / 42 = r).foldl (fun s c =>
    c.2.trackers.foldl (fun s k => s.countBytes p c.1 k.1 gl mask) s) s

/-- An engine's write of bytes of a line, write-through at its home (R93), reported to trackers. -/
def State.engineWrite (s : State) (v gl : Nat) (mask : ByteMask) (data : LineData) : State :=
  let s := s.serveWrite v gl (touched mask)
  ({ s with mem := writeLine s.mem gl mask data } : State).report gl mask

end Sys2Proof.Machine
end

