-- ==== Sys2Proof/Machine/Walk.lean ====
section
/-! DEFINITION. Translation: the TLB of a slice, the walk, walkers and their FIFO (R35 to R39), permission (R36), the gate of
a line at its home (R44, R46, R87, R124, R297), and the reads and writes that engines make through translation (R93). -/
namespace Sys2Proof.Machine

/-! ## The gate of a line -/

/-- Who asks: a tile, a context of it (11: one of its engines), an ASID and a privilege. -/
structure Asker where
  tile : Nat
  cid : Nat
  asid : BitVec 16
  priv : Bool
  deriving DecidableEq, Repr

/-- The engines of a tile ask as context 11 of it (R124). -/
def engineCid : Nat := 11
def Armer.asker (a : Armer) : Asker := ⟨a.tile, engineCid, a.asid, a.priv⟩
/-- The issuing context asks. -/
def State.asker (s : State) : Asker := ⟨s.cur, s.cid, s.ctx.asid, s.ctx.priv⟩

/-- What a home does with a request for words of a line: serves it (at the line that a forwarded one names), defers it, or
meets poison, a compact's hold, or a forwarded line whose new home is lost (R45). -/
inductive Gate where
  | ok (gl : Nat)
  | defer (gl : Nat)
  | poison (gl : Nat)
  | held (gl : Nat)
  | lost (gl : Nat)
  deriving DecidableEq, Repr

/-- A helper, as its home knows it by its tentative words (R297): its tile, and CTXID + 16 * partition. -/
def State.commitName (s : State) (t c : Nat) : Nat × Nat := (t, c + 16 * (s.tile t).pid)
/-- Words of a line that are tentative for a helper, and for others. -/
def Dir.tentOf (d : Dir) (n : Nat × Nat) : WordMask :=
  d.tentative.foldl (fun m e => if (e.tile, e.helper) = n then m ||| e.mask else m) 0
def Dir.tentOthers (d : Dir) (n : Nat × Nat) : WordMask :=
  d.tentative.foldl (fun m e => if (e.tile, e.helper) = n then m else m ||| e.mask) 0
/-- Words become tentative for a helper, or are so no longer. -/
def Dir.addTent (d : Dir) (n : Nat × Nat) (mask : WordMask) : Dir :=
  { d with tentative := d.tentative.filter (fun e => (e.tile, e.helper) ≠ n) ++ [⟨n.1, n.2, d.tentOf n ||| mask⟩] }
def Dir.dropTent (d : Dir) (n : Nat × Nat) (mask : WordMask) : Dir :=
  { d with
    tentative := (d.tentative.map fun e => if (e.tile, e.helper) = n then { e with mask := e.mask &&& ~~~mask } else e).filter
      fun e => e.mask ≠ 0 }

/-- The recalls that a request of package v needs of other packages can cross the fabric (R84, R364). -/
def State.remoteOpen (s : State) (gl v : Nat) (write : Bool) : Bool :=
  let h := pkgOfGl gl
  match (s.dir gl).remote with
  | .none => true
  | .shared m => !write || (s.sharers gl m).all fun w => w = v || s.lineCrosses h w gl
  | .modified pos =>
    match s.pkgAtPos h pos with
    | some w => w = v || (s.lineCrosses h w gl && s.lineCrosses w h gl)
    | none => true

/-- The gate of a line for words of it. Forwarding is followed at most eight times. A request for a line of which the host has a copy
waits for its answer to a snoop (R43, R87); one for a tentative word of a helper, for its commit or discard (R297). -/
def State.gateFrom (s : State) (k : Asker) (write : Bool) (mask : WordMask) : Nat → Nat → Gate
  | 0, gl => .defer gl
  | fuel + 1, gl =>
    let d := s.dir gl
    let v := pkgOf k.tile
    if s.isVisitor v gl && (s.dir (dirKey v gl)).st = .poison then .poison gl
    else match d.st with
    | .poison => .poison gl
    | .migrating => .defer gl
    | .forward g => if s.lineReached (pkgOfGl gl) g then s.gateFrom k write mask fuel g else .lost g
    | .held => .held gl
    | .normal =>
      if d.tentOthers (s.commitName k.tile k.cid) &&& mask ≠ 0 then .defer gl
      else if d.host ≠ .none || !s.remoteOpen gl v write || s.wayFor (pkgOfGl gl) gl = .none ||
          (s.isVisitor v gl && s.wayFor v gl = .none) then .defer gl
      else .ok gl

/-- The helper of a tentative request, as its home knows it (R297). -/
def Held.commitName (h : Held) : Nat × Nat := (h.tile, h.cid + 16 * h.pid)

/-- The words of its line for which a request that waits at its home keeps later ones back: every word, for the home serves a line's requests in
their order (R77). One that waits for another helper's tentative words alone is set aside, and keeps back only those that share a word with it
(log entry 7); a BWAIT or delivery keeps back none. -/
def State.keepsBack (s : State) (h : Held) : WordMask :=
  let d := s.dir h.gl
  match h.work with
  | .await _ _ | .deliver _ _ => 0
  | _ => if d.st = .normal && d.tentOthers h.commitName &&& h.words ≠ 0 then h.words else BitVec.allOnes 32

/-- A request waits at the line's home that comes before one for these words (R77). A helper's requests for a line with tentative words of its
own do not wait so, for those that wait may wait for it. -/
def State.behind (s : State) (k : Asker) (mask : WordMask) (gl : Nat) : Bool :=
  (s.dir gl).tentOf (s.commitName k.tile k.cid) = 0 && s.held.any fun h => h.waits && h.gl = gl && s.keepsBack h &&& mask ≠ 0

/-- What a home does with a request that arrives now. -/
def State.gate (s : State) (k : Asker) (write : Bool) (mask : WordMask) (gl : Nat) : Gate :=
  match s.gateFrom k write mask 8 gl with
  | .ok g => if s.behind k mask g then .defer g else .ok g
  | r => r

/-- A request is one of context c of the image that runs on tile t, wherever it was when it asked (R352). -/
def State.asks (s : State) (h : Held) (t c : Nat) : Bool := h.cid = c && h.pid = (s.tile t).pid && h.self = (s.tile t).self

/-- R124: the holding member's control context reads a HELD line at once. -/
def State.holds (s : State) (k : Asker) (gl : Nat) : Bool :=
  k.cid = 0 && (s.dir gl).holder = k.tile && (s.tile k.tile).member.isSome && (s.tile k.tile).pins.any fun e =>
    e.2.gl = some gl && e.2.pid = (s.tile k.tile).pid

/-- The record of a read that the unit seq of an asker has made of a line, or the same state with a new one, which waits at the home. -/
def State.askHeld (s : State) (k : Asker) (gl : Nat) (mask : WordMask) (p : Word) (seq : Nat) (stage : Stage := .home) : State × Held :=
  match s.held.find? fun h => h.tile = k.tile && s.asks h k.tile k.cid && h.gl = gl && h.work = .read && h.ptr = p && h.seq = seq with
  | some h => (s, h)
  | none =>
    let h : Held := ⟨s.heldIds, k.tile, (s.tile k.tile).pid, (s.tile k.tile).self, k.cid, 0, gl, mask, .read, p, seq, stage,
      if stage = .queue then s.lineVia (pkgOf k.tile) gl else none, none, none, 0, 0, none, false, 0⟩
    ({ s with held := s.held ++ [h], heldIds := s.heldIds + 1 }, h)

/-- A record leaves the list. -/
def State.dropHeld (s : State) (id : Nat) : State := { s with held := s.held.filter fun h => h.id ≠ id }

/-- The reads of lines that an asker has made for the pointer p and no unit are done: it has read now, or reads no more. -/
def State.dropAsks (s : State) (k : Asker) (p : Word) (lines : Nat → Bool) : State :=
  { s with held := s.held.filter fun h =>
      !(h.tile = k.tile && s.asks h k.tile k.cid && h.work = .read && h.ptr = p && h.seq = 0 && lines h.gl) }

/-- What an engine's access meets. -/
inductive EngRes (α : Type) where
  | ok (v : α)
  | fault (code : BitVec 8)
  | wait
  deriving DecidableEq, Repr

/-- A packet of n data bytes v goes from package p to package q, waits for its path, or is lost with 8 failed tags (R172). -/
def State.sendNow (s : State) (p q : Nat) (via : Option Nat) (n v : Nat) : EngRes Unit × State :=
  if !s.crosses p q then (.ok (), s)
  else if !s.netReady p q via (spanFlits n) then (.wait, s)
  else match s.deliverSpan p (pathKey (s.dev q).pos.toNat via) n v 8 with
    | (.ok, s) => (.ok (), s.netPay p q via (spanFlits n))
    | (_, s) => (.fault cUNREACH, s)
/-- The same of a request, which has a record while it waits, and in a relay's buffer (R168). -/
def State.sendAsk (s : State) (p q : Nat) (via : Option Nat) (n v : Nat) : EngRes Unit × State :=
  if s.crosses p q && via.isSome then (.wait, s) else s.sendNow p q via n v

/-- A write by package p to a line, or a request for it, crosses the fabric. -/
def State.sendLine (s : State) (p gl : Nat) : EngRes Unit × State := s.sendNow p (pkgOfGl gl) (s.lineVia p gl) 128 0
def State.askLine (s : State) (p gl : Nat) : EngRes Unit × State := s.sendAsk p (pkgOfGl gl) (s.lineVia p gl) 128 0

/-- What a read that waits for its answer meets. -/
inductive ReadRes where
  | line (data : LineData)
  | wait
  | fault (code : BitVec 8)
  deriving DecidableEq, Repr

/-- A coherent read of words of a line by an agent that keeps no copy: walkers, engines, instruction fetch. One that cannot cross at once waits in
the send queue. -/
def State.peekLine (s : State) (k : Asker) (gl : Nat) (mask : WordMask) (p : Word) : ReadRes × State :=
  let here := fun (l : Nat) => decide (l = gl) || decide (l = s.forwarded 8 gl)
  let deferred := fun (g : Nat) (stage : Stage) =>
    let (s, h) := s.askHeld k g mask p 0 stage
    match h.answer with
    | some d => (ReadRes.line d, s.dropHeld h.id)
    | none => if h.lost then (.fault h.cause, s.dropHeld h.id) else (.wait, s)
  match s.gate k false mask gl with
  | .poison _ => (.fault cPOISON, s)
  | .lost _ => (.fault cUNREACH, s)
  | g =>
    if !s.lineReached (pkgOf k.tile) gl then (.fault cUNREACH, s)
    else match g with
      | .ok g =>
        match s.askLine (pkgOf k.tile) gl with
        | (.ok _, s) => let s := (s.servePeek g mask).dropAsks k p here; (.line (readLine s.mem g), s)
        | (.fault c, s) => (.fault c, s.dropAsks k p here)
        | (.wait, _) => deferred gl .queue
      | .held g => if s.holds k g then (.line (readLine s.mem g), s.dropAsks k p here) else deferred g .home
      | .defer g => deferred g .home
      | _ => (.wait, s)

/-! ## The walk (R35 to R37) -/

/-- What a translation gives: a leaf, its fault (PAGE, or that of a table entry that is poisoned or not reached), or it waits. -/
inductive TRes where
  | leaf (e : Word) (large : Bool)
  | fault (code : BitVec 8)
  | wait
  deriving DecidableEq, Repr

/-- FRAME of an entry as a byte address. -/
def frameOf (e : Word) : Nat := (bits e 16 36).toNat * 65536
/-- V = 1 and KIND. -/
def entryValid (e : Word) : Bool := e.getLsbD 63
def entryKind (e : Word) : BitVec 2 := bits e 61 2
/-- A reserved bit of an entry is set (R35). -/
def entryReserved (e : Word) : Bool := bits e 52 3 ≠ 0 || bits e 0 16 ≠ 0
/-- R36: a frame in a reserved range, or H that does not say where the frame lies. -/
def leafBad (p : Nat) (e : Word) : Bool :=
  match placeOf p (frameOf e) with
  | .reserved => true
  | .host _ _ => !e.getLsbD 60
  | _ => e.getLsbD 60

/-- index(va, lvl). -/
def walkIndex (va lvl : Nat) : Nat :=
  match lvl with
  | 1 => va / 2 ^ 42 % 1024
  | 2 => va / 2 ^ 29 % 8192
  | _ => va / 2 ^ 16 % 8192

/-- read_pa: an 8-byte coherent read in a package's local DRAM. -/
def State.readEntry (s : State) (k : Asker) (pa : Nat) (p : Word) : ReadRes × State :=
  match s.globalAddr (pkgOf k.tile) pa with
  | none => (.fault cUNREACH, s)
  | some a => s.peekLine k (a / 128) (spanWords (a % 128) 8) p

/-- The doubleword of a line at a byte of it. -/
def dwordAt (d : LineData) (off : Nat) : Word := BitVec.ofNat 64 (d.toNat / 2 ^ (8 * off))

/-- The levels that remain from a table entry (R36). -/
def State.walkFrom (s : State) (k : Asker) (va : Nat) (p : Word) : List Nat → Word → TRes × State
  | [], e =>
    if !entryValid e || entryKind e ≠ 1 || entryReserved e || leafBad (pkgOf k.tile) e then (.fault cPAGE, s) else (.leaf e false, s)
  | lvl :: more, e =>
    if !entryValid e || entryKind e ≠ 0 || entryReserved e then (.fault cPAGE, s)
    else if !inLocalDram (pkgOf k.tile) (frameOf e) then (.fault cPAGE, s)
    else
      let a := frameOf e + 8 * walkIndex va lvl
      match s.readEntry k a p with
      | (.wait, s) => (.wait, s)
      | (.fault c, s) => (.fault c, s)
      | (.line d, s) =>
        let e := dwordAt d (a % 128)
        if entryValid e && entryKind e = 1 && lvl = 2 then
          if entryReserved e || bits e 16 13 ≠ 0 || leafBad (pkgOf k.tile) e then (.fault cPAGE, s) else (.leaf e true, s)
        else s.walkFrom k va p more e

/-- The whole walk of a virtual address (R36). -/
def State.walkAll (s : State) (k : Asker) (va : Nat) (p : Word) : TRes × State :=
  let a := k.asid.toNat * 8
  match s.readEntry k a p with
  | (.wait, s) => (.wait, s)
  | (.fault c, s) => (.fault c, s)
  | (.line d, s) => s.walkFrom k va p [1, 2, 3] (dwordAt d (a % 128))

/-! ## TLB and walkers (R38, R39) -/

def TlbEntry.hits (e : TlbEntry) (asid : BitVec 16) (va : Nat) : Bool :=
  e.asid = asid && e.page = (if e.large then va / 2 ^ 29 else va / 2 ^ 16)

/-- A leaf enters a slice's TLB; the least recently used of a full set leaves. -/
def Cluster.fillTlb (c : Cluster) (e : TlbEntry) : Cluster :=
  let rest := c.tlb.filter fun x => !(x.asid = e.asid && x.page = e.page && x.large = e.large)
  let inSet := rest.filter fun x => x.page % 256 = e.page % 256
  let rest := match inSet.drop 7 with
    | [] => rest
    | out :: _ => rest.filter fun x => x ≠ out
  { c with tlb := e :: rest }

/-- A hit makes an entry the most recently used. -/
def Cluster.useTlb (c : Cluster) (e : TlbEntry) : Cluster := { c with tlb := e :: c.tlb.filter fun x => x ≠ e }

/-- The misses of one walk: those of an ASID for a page. Whether the page is one of 64 KiB or of 512 MiB is known only when a walk ends, so
misses are told apart by 64 KiB page (log entry 55). -/
def Walk.sameMiss (w : Walk) (asid : BitVec 16) (va : Nat) : Bool := w.asid = asid && w.va / 2 ^ 16 = va / 2 ^ 16

/-- A miss joins a walk of its page in flight with room, or takes a free walker. none: it can do neither. -/
def Region.place (r : Region) (w : Walk) : Option Region :=
  let join := fun (u : Walk) => if u.sameMiss w.asid w.va then { u with slices := u.slices ++ w.slices.filter fun c => !u.slices.contains c } else u
  if r.walks.any fun u => u.sameMiss w.asid w.va && decide (u.slices.length < 64) then some { r with walks := r.walks.map join }
  else if r.walks.length < 32 then some { r with walks := r.walks ++ [w] }
  else none

/-- A miss reaches the region's pool: it joins a walk, starts one, or enters the FIFO. none: the FIFO is full. -/
def Region.miss (r : Region) (asid : BitVec 16) (va slice : Nat) : Option Region :=
  match r.place ⟨asid, va, [slice], false⟩ with
  | some r => some r
  | none =>
    if r.fifo.any fun w => w.sameMiss asid va && w.slices.contains slice then some r
    else if r.fifo.length < 1024 then some { r with fifo := r.fifo ++ [⟨asid, va, [slice], false⟩] }
    else none

/-- Walkers are free: the FIFO's misses are placed in arrival order, by the same rules. -/
def Region.refillFrom (r : Region) : List Walk → Region
  | [] => { r with fifo := [] }
  | w :: ws =>
    match r.place w with
    | some r => r.refillFrom ws
    | none => { r with fifo := w :: ws }
def Region.refill (r : Region) : Region := r.refillFrom r.fifo

/-- A walk ends: it fills the TLB of every joined slice, unless its fill is to be discarded (R40), and frees its walker. -/
def State.endWalk (s : State) (p reg : Nat) (w : Walk) (res : TRes) : State :=
  let s := s.modRegion p reg fun r => ({ r with walks := r.walks.erase w } : Region).refill
  match res with
  | .leaf e large =>
    if w.discard then s
    else w.slices.foldl (fun s c => s.modCluster p c fun x =>
      x.fillTlb ⟨w.asid, if large then w.va / 2 ^ 29 else w.va / 2 ^ 16, large, e⟩) s
  | _ => s

/-- Translate for an asker at its cluster's slice. A walk that meets a deferred entry stays in flight (R124); one whose fill is to be discarded
gives nothing, and its misses walk again (R40). -/
def State.translate (s : State) (k : Asker) (va : Nat) (p : Word) : TRes × State :=
  let d := pkgOf k.tile
  let c := clusterOf k.tile
  match ((s.dev d).cluster c).tlb.find? fun e => e.hits k.asid va with
  | some e => (.leaf e.attr e.large, s.modCluster d c fun x => x.useTlb e)
  | none =>
    let reg := c / 42
    match ((s.dev d).region reg).miss k.asid va c with
    | none => (.wait, s)
    | some r =>
      match r.walks.find? fun w => w.sameMiss k.asid va with
      | none => (.wait, s.modRegion d reg fun _ => r)
      | some w =>
        match s.walkAll k va p with
        | (.wait, s) => (.wait, s.modRegion d reg fun _ => r)
        | (res, s) =>
          let s := (s.modRegion d reg fun _ => r).endWalk d reg w res
          if w.discard then (.wait, s.dropAsks k p fun _ => true) else (res, s)

/-- The physical address that a leaf gives. -/
def leafPa (e : Word) (large : Bool) (va : Nat) : Nat :=
  if large then frameOf e + va % 2 ^ 29 else frameOf e + va % 2 ^ 16

/-! ## Permission (R36) and reach (R165, R378) -/

/-- What an access is. -/
inductive Acc where
  | load | store | amo | fetch
  deriving DecidableEq, Repr

def permits (e : Word) (a : Acc) (priv : Bool) : Bool :=
  (match a with
    | .load => e.getLsbD 59
    | .store => e.getLsbD 58
    | .amo => e.getLsbD 59 && e.getLsbD 58
    | .fetch => e.getLsbD 55) && (priv || e.getLsbD 56)

/-- An address translated and checked: its global byte address and leaf, or the cause of its fault. -/
inductive Addr where
  | ok (a : Nat) (leaf : Word)
  | fault (code : BitVec 8)
  | wait
  deriving DecidableEq, Repr

/-- Translation, permission and the package of the frame; whether the line is reached is left open. -/
def State.locate (s : State) (k : Asker) (va : Nat) (acc : Acc) (p : Word) : Addr × State :=
  match s.translate k va p with
  | (.wait, s) => (.wait, s)
  | (.fault c, s) => (.fault c, s)
  | (.leaf e large, s) =>
    if !permits e acc k.priv then (.fault cPROT, s)
    else match s.globalAddr (pkgOf k.tile) (leafPa e large va) with
      | none => (.fault cUNREACH, s)
      | some a => (.ok a e, s)

/-- The same for an engine, and the line is reached. -/
def State.resolve (s : State) (k : Asker) (va : Nat) (acc : Acc) (p : Word) : Addr × State :=
  match s.locate k va acc p with
  | (.ok a e, s) => if s.lineReached (pkgOf k.tile) (a / 128) then (.ok a e, s) else (.fault cUNREACH, s)
  | r => r

/-! ## Engine reads and writes (R93) -/

/-- The lines that n bytes at a virtual address touch: virtual address of the piece, offset in its line, length, place. -/
def pieces (va n : Nat) : List (Nat × Nat × Nat × Nat) :=
  (List.range (if n = 0 then 0 else (va % 128 + n + 127) / 128)).map fun i =>
    let lo := if i = 0 then va else (va / 128 + i) * 128
    let hi := min (va + n) ((va / 128 + i + 1) * 128)
    (lo, lo % 128, hi - lo, lo - va)

/-- One line of an engine's read, added to what the lines before it gave. -/
def readPiece (k : Asker) (p : Word) (r : EngRes Nat × State) (q : Nat × Nat × Nat × Nat) : EngRes Nat × State :=
  match r with
  | (.ok v, s) =>
    match s.resolve k q.1 .load p with
    | (.wait, s) => (.wait, s)
    | (.fault c, s) => (.fault c, s)
    | (.ok a _, s) =>
      match s.peekLine k (a / 128) (spanWords q.2.1 q.2.2.1) (withAddr p q.1) with
      | (.wait, s) => (.wait, s)
      | (.fault c, s) => (.fault c, s)
      | (.line d, s) => (.ok (v + (d.toNat / 2 ^ (8 * q.2.1)) % 2 ^ (8 * q.2.2.1) * 2 ^ (8 * q.2.2.2)), s)
  | r => r

/-- A coherent read of n bytes at a virtual address by an engine. -/
def State.engineRead (s : State) (k : Asker) (p : Word) (va n : Nat) : EngRes Nat × State :=
  (pieces va n).foldl (readPiece k p) (.ok 0, s)

/-- An engine's write of enabled bytes of one line at its home; a compact's hold is PROT (R124). -/
def State.engineWriteAt (s : State) (k : Asker) (gl : Nat) (mask : ByteMask) (data : LineData) : EngRes Unit × State :=
  match s.gate k true (touched mask) gl with
  | .ok g =>
    match s.sendLine (pkgOf k.tile) gl with
    | (.ok _, s) => (.ok (), s.engineWrite (pkgOf k.tile) g mask data)
    | r => r
  | .defer _ => (.wait, s)
  | .poison _ => (.fault cPOISON, s)
  | .held _ => (.fault cPROT, s)
  | .lost _ => (.fault cUNREACH, s)

/-- A line of data with n bytes of v from a byte of it. -/
def placeBytes (v pos off len : Nat) : LineData := BitVec.ofNat 1024 ((v / 2 ^ (8 * pos)) % 2 ^ (8 * len) * 2 ^ (8 * off))

/-- An engine writes the n bytes of v at a virtual address, line by line; the count says how many bytes were granted. -/
def State.engineStore (s : State) (k : Asker) (p : Word) (va n v : Nat) : EngRes Unit × Nat × State :=
  (pieces va n).foldl (fun (r : EngRes Unit × Nat × State) q =>
    match r with
    | (.ok _, done, s) =>
      match s.resolve k q.1 .store p with
      | (.wait, s) => (.wait, done, s)
      | (.fault c, s) => (.fault c, done, s)
      | (.ok a _, s) =>
        match s.engineWriteAt k (a / 128) (spanBytes q.2.1 q.2.2.1) (placeBytes v q.2.2.2 q.2.1 q.2.2.1) with
        | (.ok _, s) => (.ok (), done + q.2.2.1, s)
        | (.wait, s) => (.wait, done, s)
        | (.fault c, s) => (.fault c, done, s)
    | r => r) (.ok (), 0, s)

end Sys2Proof.Machine
end

