-- ==== Sys2Proof/Machine/LocalArray.lean ====
section
/-! DEFINITION. The local array of a tile: scratch (R114), pinning (R115, R116), cached lines and their replacement (R71 to
R73), and landing slots (R99 to R102). -/
namespace Sys2Proof.Machine

/-! ## Scratch (R114) -/

/-- local_line: the line of an offset is pinned. -/
def Tile.pinnedAt (x : Tile) (o : Nat) : Bool := decide (o < 0xA0000) && mhas x.pins (o / 128)

/-- Every line that n bytes at an offset touch is pinned. -/
def Tile.pinnedSpan (x : Tile) (o n : Nat) : Bool := (pieces o n).all fun q => x.pinnedAt q.1

def PinLine.zero : PinLine := ⟨.reserved, 0, none, 0, 0, 0⟩
def Tile.pin (x : Tile) (l : Nat) : PinLine := mget PinLine.zero x.pins l

/-- The n bytes at a local offset. -/
def Tile.localRead (x : Tile) (o n : Nat) : Nat :=
  (pieces o n).foldl (fun v q =>
    v + ((x.pin (q.1 / 128)).data.toNat / 2 ^ (8 * q.2.1)) % 2 ^ (8 * q.2.2.1) * 2 ^ (8 * q.2.2.2)) 0

/-- Enabled bytes of a pinned line become those of data; a compact-held line marks the words DIRTY (R228). -/
def PinLine.write (p : PinLine) (mask : ByteMask) (data : LineData) : PinLine :=
  { p with
    data := blend (byteBits mask) p.data data
    dirty := if p.gl.isSome then p.dirty ||| touched mask else p.dirty }
def Tile.localLine (x : Tile) (l : Nat) (mask : ByteMask) (data : LineData) : Tile :=
  { x with pins := mset x.pins l ((x.pin l).write mask data) }

/-- The n bytes at a local offset become those of v. -/
def Tile.localWrite (x : Tile) (o n v : Nat) : Tile :=
  (pieces o n).foldl (fun x q =>
    x.localLine (q.1 / 128) (spanBytes q.2.1 q.2.2.1) (placeBytes v q.2.2.2 q.2.1 q.2.2.1)) x

/-! ## Lines of a pre-empted partition (R115, R127) -/

/-- Pinned line l of a partition changes: one whose place a later launch has pinned too is kept with the partition. Lines of two partitions under
one local line number stand side by side in the set (log entry 68). -/
def Tile.modPinOf (x : Tile) (pid l : Nat) (f : PinLine → PinLine) : Tile :=
  if mhas x.pins l && (x.pin l).pid = pid then { x with pins := mset x.pins l (f (x.pin l)) }
  else { x with parked := x.parked.map fun q =>
    if q.pid = pid && mhas q.lines l then { q with lines := mset q.lines l (f (mget PinLine.zero q.lines l)) } else q }

/-- Enabled bytes of a line of a partition become those of data. -/
def Tile.slotLine (x : Tile) (pid l : Nat) (mask : ByteMask) (data : LineData) : Tile := x.modPinOf pid l fun p => p.write mask data

/-- The n bytes at a local offset of a partition become those of v. -/
def Tile.slotWrite (x : Tile) (pid o n v : Nat) : Tile :=
  (pieces o n).foldl (fun x q =>
    x.slotLine pid (q.1 / 128) (spanBytes q.2.1 q.2.2.1) (placeBytes v q.2.2.2 q.2.1 q.2.2.1)) x

/-- Line l of a partition, wherever it is kept. -/
def Tile.pinOf (x : Tile) (pid l : Nat) : Option PinLine :=
  if mhas x.pins l && (x.pin l).pid = pid then some (x.pin l)
  else ((x.parked.filter fun q => q.pid = pid && mhas q.lines l).head?).map fun q => mget PinLine.zero q.lines l
/-- Every line that n bytes at an offset touch is pinned for a partition, and those bytes. -/
def Tile.slotSpan (x : Tile) (pid o n : Nat) : Bool :=
  (pieces o n).all fun q => decide (q.1 < 0xA0000) && (x.pinOf pid (q.1 / 128)).isSome
def Tile.slotRead (x : Tile) (pid o n : Nat) : Nat :=
  (pieces o n).foldl (fun v q =>
    v + ((x.pinOf pid (q.1 / 128)).elim 0 fun p => p.data.toNat / 2 ^ (8 * q.2.1)) % 2 ^ (8 * q.2.2.1) * 2 ^ (8 * q.2.2.2)) 0

/-- Line l of a partition is pinned no longer. -/
def Tile.unpinOf (x : Tile) (pid l : Nat) : Tile :=
  { x with
    pins := x.pins.filter fun e => e.1 ≠ l || e.2.pid ≠ pid
    parked := x.parked.map fun q => if q.pid = pid then { q with lines := mdel q.lines l } else q }

/-- A line of another partition leaves its place to a later launch. -/
def Tile.displace (x : Tile) (l : Nat) : Tile :=
  let p := x.pin l
  { x with
    pins := mdel x.pins l
    parked := x.parked.map fun q => if q.pid = p.pid then { q with lines := mset q.lines l p } else q }

/-- Every line that is pinned for a partition, wherever it is kept. -/
def Tile.pinsOf (x : Tile) (pid : Nat) : List (Nat × PinLine) :=
  x.pins.filter (fun e => e.2.pid = pid) ++ (x.parked.filter fun q => q.pid = pid).flatMap fun q => q.lines

/-! ## Ways of a set (R116) -/

/-- Pinned ways of a set, effect-buffer lines and those of pre-empted partitions included (R115). -/
def Tile.pinned (x : Tile) (set : Nat) : Nat :=
  ((x.pins ++ x.parked.flatMap fun q => q.lines).filter fun e => e.1 % 256 = set).length +
    ((x.ctxs ++ (x.save.elim [] fun im => im.ctxs)).map fun k => (k.2.effects.filter fun e => e.set = set).length).sum

/-- Bytes of the ACB of context c with its banks (R347). -/
def acbBytes (c banks : Nat) : Nat := (if c = 0 then 0xE800 else 0x3000) + 2048 * banks
/-- Bytes of a saved image. -/
def Image.bytes (im : Image) : Nat := (im.ctxs.map fun e => acbBytes e.1 e.2.banks).sum
/-- Ways of a set that hold bytes of the image in the save store: those past the shadow bank, in ascending set order (R348, R349). -/
def Tile.extension (x : Tile) (set : Nat) : Nat :=
  let w := min 4 (20 - x.pinLimit)
  x.save.elim 0 fun im => min w ((im.bytes - 131072 + 127) / 128 - w * set)
/-- Ways of a set that the cache may use. -/
def Tile.ways (x : Tile) (set : Nat) : Nat := 20 - (x.pinned set + x.extension set)

/-- The largest number of pinned ways in any set. -/
def Tile.maxPinned (x : Tile) : Nat := (List.range 256).foldl (fun m i => max m (x.pinned i)) 0

/-- The registrations of a line that are outstanding go on without it, with the bytes that they were to register. -/
def State.unregister (s : State) (t gl : Nat) : State :=
  { s with held := s.held.map fun h => if h.registers t gl then { h with fill := none } else h }

/-- R73 eviction of a cached line: dirty words are written back, ownership is returned, the line leaves. Words whose registration is outstanding
reach their home with it. -/
def State.evict (s : State) (t : Nat) (l : Line) : State :=
  let w := s.pendingWords t l.gl
  let s := s.unregister t l.gl
  let d := l.dirty &&& ~~~w
  let s := if d = 0 then s else { s with mem := writeLine s.mem l.gl (wordBytes d) l.data }
  let o := l.own &&& ~~~w
  let s := if o = 0 then s else s.clearOwner t l.gl o
  s.modTile t fun x => { x with lines := x.lines.filter fun m => m.gl ≠ l.gl }

/-- The set keeps at most n cached lines: the least recently used leaves. -/
def State.trimSet (s : State) (t set n : Nat) : State :=
  (((s.tile t).lines.filter fun l => l.va % 256 = set).drop n).foldl (fun s l => s.evict t l) s

/-- The lines of a range may be pinned: in the array, none pinned yet, no set past the limit. -/
def Tile.canPin (x : Tile) (lines : List Nat) : Bool :=
  lines.all (fun l => decide (l < 5120) && !mhas x.pins l) &&
    (List.range 256).all fun i =>
      let add := (lines.filter fun l => l % 256 = i).length
      add = 0 || decide (x.pinned i + add ≤ x.pinLimit)

/-- Pin a line (R116), its way cleaned first. -/
def State.pinLine (s : State) (t l : Nat) (p : PinLine) : State :=
  let s := s.trimSet t (l % 256) ((s.tile t).ways (l % 256) - 1)
  s.modTile t fun x => { x with pins := mset x.pins l p }

def State.unpinLine (s : State) (t l : Nat) : State := s.modTile t fun x => { x with pins := mdel x.pins l }

/-- Lines lo .. lo + n - 1. -/
def lineRange (lo n : Nat) : List Nat := (List.range n).map fun i => lo + i

/-- Pin lines zero-filled. -/
def State.pinLines (s : State) (t : Nat) (kind : PinKind) (lines : List Nat) : State :=
  lines.foldl (fun s l => s.pinLine t l ({ PinLine.zero with kind := kind, pid := (s.tile t).pid } : PinLine)) s

/-! ## Cached lines (R71 to R73) -/

/-- The line that a virtual line number and ASID name. -/
def Tile.line (x : Tile) (va : Nat) (asid : BitVec 16) : Option Line := x.lines.find? fun l => l.va = va && l.asid = asid

/-- A line becomes the most recently used of the array. -/
def Tile.putLine (x : Tile) (l : Line) : Tile := { x with lines := l :: x.lines.filter fun m => m.gl ≠ l.gl }

/-- R72: before a line of a physical line is installed, any other line of the tile under that name or for that physical line
leaves; a way of the set is cleaned. none: the set has no unpinned way. -/
def State.openLine (s : State) (t va gl : Nat) (asid : BitVec 16) (perm : BitVec 3) : Option (State × Line) :=
  match (s.tile t).lines.find? fun l => l.va = va && l.asid = asid && l.gl = gl with
  | some l => some (s, l)
  | none =>
    let old := (s.tile t).lines.filter fun l => l.gl = gl || (l.va = va && l.asid = asid)
    let s := old.foldl (fun s l => s.evict t l) s
    let ways := (s.tile t).ways (va % 256)
    if ways = 0 then none else some (s.trimSet t (va % 256) (ways - 1), ⟨va, asid, gl, 0, 0, 0, perm, 0⟩)

/-- PERM of a leaf: C, W, R (R71). -/
def permOf (e : Word) : BitVec 3 := (bits e 57 1) ++ (bits e 58 1) ++ (bits e 59 1)

/-- Copies of words of a line in a tile's array become invalid. -/
def Tile.dropWords (x : Tile) (gl : Nat) (mask : WordMask) : Tile :=
  { x with lines := x.lines.map fun l =>
      if l.gl = gl then { l with valid := l.valid &&& ~~~mask, own := l.own &&& ~~~mask, dirty := l.dirty &&& ~~~mask } else l }

/-- Words of a global line that are readable but not owned in the array become I: the tile's own context has changed them elsewhere
(R83). -/
def Tile.dropStale (x : Tile) (gl : Nat) (mask : WordMask) : Tile :=
  { x with lines := x.lines.map fun l => if l.gl = gl then { l with valid := l.valid &&& (~~~mask ||| l.own) } else l }

/-! ## Landing slots (R99 to R102) -/

def Tile.slot (x : Tile) (n : Nat) : Slot := mget Slot.reset x.slots n

/-- A landing handle's slot, generation and byte offset (R31). -/
def hSlot (p : Word) : Nat := (bits p 23 5).toNat
def hGen (p : Word) : BitVec 7 := bits p 16 7
def hOff (p : Word) : Nat := (bits p 0 16).toNat

/-- Tasks of the gate that name a slot are discarded, and EE is set in the control context for each (R302). -/
def State.dropTasks (s : State) (t n : Nat) : State :=
  let names := fun (k : Task) => k.inputs.any fun i => hSlot i.1 = n
  let s := ((s.tile t).gate.filter names).foldl (fun s k => s.raiseIn ⟨(s.tile t).pid, t, (s.tile t).self, 0, k.unit, 0, false, 0⟩ fEE) s
  s.modTile t fun x => { x with gate := x.gate.filter fun k => !names k }

/-- LSFREE of a slot: the next generation, no chunks, its lines unpinned and discarded, the tasks that name it discarded. -/
def State.freeSlot (s : State) (t n : Nat) : State :=
  let k := (s.tile t).slot n
  let s := s.modTile t fun x => (lineRange (k.off / 128) (k.size * 4)).foldl (fun x l => x.unpinOf k.pid l) x
  (s.modTile t fun x => { x with slots := (mset x.slots n (Slot.mk false 0 0 0 0 (k.gen + 1))) }).dropTasks t n

/-- A chunk of a landing slot is written, verified and its bit set, if the generation still matches (R101, R102). -/
def State.landChunk (s : State) (t n : Nat) (gen : BitVec 7) (chunk off len v : Nat) : State × Bool :=
  let k := (s.tile t).slot n
  if k.alloc && k.gen = gen && decide (chunk < k.size) then
    let s := s.modTile t fun x => (x.slotWrite k.pid (k.off + 512 * chunk + off) len v)
    let k : Slot := { k with chunks := k.chunks ||| BitVec.ofNat 128 (2 ^ chunk) }
    let s := s.modTile t fun x => { x with slots := mset x.slots n k }
    (if k.pid = (s.tile t).pid then s.wake t 0 else s, true)
  else (s, false)

end Sys2Proof.Machine
end

