-- ==== Sys2Proof/Machine/Requests.lean ====
section
/-! DEFINITION. Requests that their home does not answer at once: hardware pip slots (R166, R174), their arrival and service in order
(R77, R83, R87, R124, R169), their loss (R167, R370), poison (R46), and the commit and discard of a helper's effects (R297 to R300). -/
namespace Sys2Proof.Machine

/-! ## Hardware pip slots (R166, R174) -/

/-- A hardware slot that no request holds. -/
def Tile.freeHw (x : Tile) : Option Nat := (List.range 64).find? fun n => (x.pip n).st = .free
/-- Free hardware slots. -/
def Tile.hwLeft (x : Tile) : Nat := ((List.range 64).filter fun n => (x.pip n).st = .free).length

/-! ## Records -/

/-- The asker waits for what the request returns. -/
def HeldWork.asks : HeldWork → Bool
  | .read | .amo _ _ _ _ _ | .await _ _ | .deliver _ none => true
  | _ => false
/-- The request writes at its home. -/
def HeldWork.writes : HeldWork → Bool
  | .read | .await _ _ | .deliver _ _ => false
  | _ => true

/-- No answer yet and not lost. -/
def Held.open (h : Held) : Bool := h.answer.isNone && !h.lost
/-- Who asks. -/
def Held.asker (h : Held) : Asker := ⟨h.tile, h.cid, 0, false⟩
/-- The line as the asker's tile names it, wherever it has moved. -/
def Held.name (h : Held) : Nat := (h.fill.map fun f => f.gl).getD h.gl
/-- The context that a request belongs to. -/
def Held.issuer (h : Held) : Armer := ⟨h.pid, h.tile, h.self, h.cid, h.unit, 0, false, 0⟩

/-- A request for which nobody waits is done. -/
def State.closeHeld (s : State) (h : Held) : State := (s.freeSlotOf h).dropHeld h.id
/-- A request is answered with a line. -/
def State.answerHeld (s : State) (h : Held) (d : LineData) : State :=
  if h.cid = goneCid then s.closeHeld h
  else (s.freeSlotOf h).modHeld h.id fun h => { h with answer := some (blend (byteBits h.mine) d h.mineData), slot := none }

/-- Bytes of a helper's effect buffer are lost with their tentative registration. -/
def Ctx.dropEffects (k : Ctx) (gl : Nat) (mask : WordMask) : Ctx :=
  let cut := fun (e : EffLine) => if e.gl = gl then { e with mask := e.mask &&& ~~~(wordBytes mask) } else e
  { k with effects := (k.effects.map cut).filter fun e => e.mask ≠ 0 }

/-- What the array keeps of a request that is lost goes: the words of a registration that no later one covers, and otherwise copies that are
not owned. -/
def State.dropLost (s : State) (h : Held) : State :=
  match h.work with
  | .register _ _ => s.modTile h.tile fun x => x.dropWords h.name (h.words &&& ~~~s.pendingWords h.tile h.name)
  | _ => s.modTile h.tile fun x => x.dropStale h.name h.words

/-- The visitor copy that package v has of a line is poisoned (R167). -/
def State.poisonVisitor (s : State) (v gl : Nat) : State :=
  if s.isVisitor v gl then s.modDir (dirKey v gl) fun d => { d with st := .poison } else s

/-- A request is lost (R167, R370): what it would have written is too, a visitor copy of the line is poisoned when its home is out of reach,
and the context's next release reports it; one that somebody waits for leaves the loss with him. A tracker's delivery ends UNREACH (R113, R176). -/
def State.loseHeld (s : State) (h : Held) (code : BitVec 8) : State :=
  if h.work.asks && h.cid ≠ goneCid then (s.freeSlotOf h).modHeld h.id fun h => { h with lost := true, cause := code, slot := none }
  else
    let v := pkgOf h.tile
    let s := s.closeHeld h
    let s := s.dropLost h
    let s := match h.work with
      | .tentative => s.modIssuer h.issuer fun k => k.dropEffects h.name h.words
      | .deliver _ (some desc) => s.markFired desc 3
      | _ => s
    let s := if code = cUNREACH && h.work.writes then s.poisonVisitor v h.name else s
    s.modIssuer h.issuer fun k => { k with losses := k.losses ++ [⟨code, h.ptr, h.seq⟩] }

/-! ## What a request does at its home -/

/-- The new value of an AMO, if it writes, and its flags; w is its width. -/
def amoNew (op w : Nat) (old x cmp : Nat) : Option Nat × BitVec 11 :=
  let o : BitVec 64 := BitVec.ofNat 64 old
  let y : BitVec 64 := BitVec.ofNat 64 x
  let so := if w = 32 then (BitVec.ofNat 32 old).toInt else o.toInt
  let sx := if w = 32 then (BitVec.ofNat 32 x).toInt else y.toInt
  match op with
  | 0 => (some ((old + x) % 2 ^ w), 0)
  | 1 => (some (o &&& y).toNat, 0)
  | 2 => (some (o ||| y).toNat, 0)
  | 3 => (some (o ^^^ y).toNat, 0)
  | 4 => (some (if so ≤ sx then old else x), 0)
  | 5 => (some (if sx ≤ so then old else x), 0)
  | 6 => (some (min old x), 0)
  | 7 => (some (max old x), 0)
  | 8 => (some x, 0)
  | 9 => (if old = cmp then some x else none, 0)
  | 10 => let (v, f) := f32Add (f32.decode old) (f32.decode x); (some v, f)
  | _ => (some (reduceElem 2 old x).1, 0)

/-- An AMO at its home (R86): owners and copies are recalled, the operation is performed, the write is reported. -/
def State.homeAmo (s : State) (v a op w x cmp : Nat) : Nat × BitVec 11 × State :=
  let gl := a / 128
  let s := s.serveWrite v gl (spanWords (a % 128) (w / 8))
  let old := readNat s.mem a (w / 8)
  match amoNew op w old x cmp with
  | (some n, f) => (old, f, ({ s with mem := writeNat s.mem a (w / 8) n } : State).report gl (spanBytes (a % 128) (w / 8)))
  | (none, f) => (old, f, s)

/-- Words of a cached line that its tile has been granted. -/
def State.granted (s : State) (t : Nat) (l : Line) : WordMask := l.own &&& ~~~s.pendingWords t l.gl

/-- The words of a read, and of the line that the array keeps for the tile: its fill, where the array has a way for it (R72). A word that the tile
has been granted is not read again; the rest of the words are, valid copies too, so that a load has all its bytes of one store (R91). A word
that waits for its registration comes from the home, as the read came there first (R77), and stays in the array as it is. -/
def State.fillRead (s : State) (t gl : Nat) (f : Fill) (words : WordMask) : LineData × State :=
  match s.openLine t f.va gl f.asid f.perm with
  | none => let s := s.servePeek gl words; (readLine s.mem gl, s)
  | some (s, l) =>
    let own := s.granted t l
    let need := words &&& ~~~own
    let s := if need = 0 then s else s.serveRead t gl need
    let line := readLine s.mem gl
    let l' := { l with data := blend (wordBits (need &&& ~~~l.own)) l.data line, valid := l.valid ||| words }
    (blend (wordBits own) line l.data, s.modTile t fun x => x.putLine l')

/-- The registration of words is granted (R79): bytes that were not written locally are the home's, and the words are the tile's. Words of a
line that has moved, or that the array has no longer, are written through; so are words that a later store has sent to register again. -/
def State.grant (s : State) (h : Held) (g : Nat) (mask : ByteMask) (data : LineData) : State :=
  let s := s.closeHeld h
  let kept := match (s.tile h.tile).lines.find? fun l => l.gl = g with
    | some l => if h.fill.isSome && h.name = g then h.words &&& l.own &&& ~~~s.pendingWords h.tile g else 0
    | none => 0
  let through := mask &&& ~~~(wordBytes kept)
  let s := if through = 0 then s
    else
      let s := s.serveWrite (pkgOf h.tile) g (touched through)
      (({ s with mem := writeLine s.mem g through data } : State).report g (wordBytes (touched through))).modTile h.tile fun x =>
        x.dropStale h.name (touched through)
  if kept = 0 then s
  else
    let s := (s.serveRegister h.tile g kept).report g (wordBytes kept)
    s.modTile h.tile fun x => { x with lines := x.lines.map fun l =>
      if l.gl = g then { l with data := blend (byteBits (wordBytes kept &&& ~~~mask)) l.data (readLine s.mem g) } else l }

/-- The tile's latest registration of words of a line that is under way. -/
def State.lastRegister (s : State) (t gl : Nat) (words : WordMask) : Option Held :=
  s.held.foldl (fun best h =>
    if h.registers t gl && h.words &&& words ≠ 0 && best.all (fun b => decide (b.id < h.id)) then some h else best) none

/-- Bytes written locally go with a registration that is under way. -/
def State.mergeInto (s : State) (id : Nat) (mask : ByteMask) (data : LineData) : State :=
  s.modHeld id fun h =>
    match h.work with
    | .register m d => { h with work := .register (m ||| mask) (blend (byteBits mask) d data) }
    | _ => h

/-- Words of a line that a tile has written in part, and that lack the home's bytes until their registration is granted. -/
def State.fetching (s : State) (t gl : Nat) : WordMask :=
  s.held.foldl (fun w h =>
    if h.registers t gl then
      match h.work with
      | .register m _ => w ||| (h.words &&& touched (wordBytes h.words &&& ~~~m))
      | _ => w
    else w) 0

/-- What BINIT and BEXPECT make of a barrier (R238). -/
def BarV.update (b : BarV) (init : Bool) (arr bytes : Nat) : BarV :=
  if init then BarV.init arr bytes else { b with expArr := arr, expBytes := bytes }

/-- An update of the global object at an address, by its kind: BINIT, BEXPECT, or an arrival and a credit (R104, R238). -/
def State.applyUpdate (s : State) (a kind arr bytes : Nat) : State :=
  if 2 ≤ kind then s.countBarrier a arr bytes else s.changeBarrier a (kind = 0) fun b => b.update (kind = 0) arr bytes

/-- A read of words of line g that leaves none of them in the array: copies that the tile has of them, under either name of the line, are older
than what is read (R90). -/
def State.peekFor (s : State) (t name g : Nat) (words : WordMask) : State :=
  (s.servePeek g words).modTile t fun x => (x.dropStale name words).dropStale g words

/-- The home serves a request at line g. -/
def State.serveNow (s : State) (h : Held) (g : Nat) : State :=
  let t := h.tile
  match h.work with
  | .read =>
    match h.fill with
    | some f =>
      if f.gl = g then let (d, s) := s.fillRead t g f h.words; s.answerHeld h d
      else let s := s.peekFor t h.name g h.words; s.answerHeld h (readLine s.mem g)
    | none => let s := s.peekFor t h.name g h.words; s.answerHeld h (readLine s.mem g)
  | .store mask data =>
    if h.ofHome then
      let s := (s.closeHeld h).serveWrite (pkgOf t) g (touched mask)
      { s with mem := writeLine s.mem g mask data }
    else ((s.closeHeld h).engineWrite (pkgOf t) g mask data).modTile t fun x => x.dropStale h.name (touched mask)
  | .register mask data => s.grant h g mask data
  | .tentative =>
    let s := (s.closeHeld h).serveWrite (pkgOf t) g h.words
    s.modDir g fun d => d.addTent h.commitName h.words
  | .amo op dbl off x cmp =>
    let w := if dbl then 64 else 32
    let (old, f, s) := s.homeAmo (pkgOf t) (g * 128 + off) op w (x.toNat % 2 ^ w) (cmp.toNat % 2 ^ w)
    let s := s.modTile t fun x => x.dropStale h.name h.words
    (s.raiseIn h.issuer f).answerHeld h (placeBytes old 0 off (w / 8))
  | .update off kind arr bytes =>
    ((s.closeHeld h).applyUpdate (g * 128 + off) kind arr bytes).modTile t fun x => x.dropStale h.name h.words
  | .await off seen =>
    let s := s.servePeek g h.words
    let done := (BarV.ofNat (readNat s.mem (g * 128 + off) 32)).done
    if done = seen then s.modHeld h.id fun h => { h with stage := .home, gl := g } else s.answerHeld h (BitVec.ofNat 1024 done)
  | .deliver v desc =>
    let q := pkgOfGl h.gl
    let to' := q * 4096 + ptrTile h.ptr
    if !s.tileReached q to' then s.loseHeld h cUNREACH
    else
      let (s, ok) := s.pipDeliver to' (pipSlot h.ptr) (pipGen h.ptr) v false
      match desc with
      | some desc => (s.closeHeld h).markFired desc (if ok then 0 else 0x0A)
      | none => s.answerHeld h (if ok then 1 else 0)

/-- A request is at its home, after those that are there: at the line g that it is served at. -/
def State.queueAt (s : State) (h : Held) (g : Nat) : State :=
  let one := s.held.filter fun o => o.id = h.id
  { s with held := s.held.filter (fun o => o.id ≠ h.id) ++ one.map fun h => { h with stage := .home, gl := g } }

/-- A request meets a compact's hold (R124): the holder's control context reads at once, other reads wait; a store, AMO or barrier update that was
on its way to the line is lost. What a home itself has to write waits. none: it waits. -/
def State.meetsHold (s : State) (h : Held) (g : Nat) : Option State :=
  if h.work = .read && s.holds h.asker g then some (s.answerHeld h (readLine s.mem g))
  else if h.work.writes && !h.ofHome then some (s.loseHeld h cCOMPACTHELD)
  else none

/-- A request that waits at its home is served if nothing holds it back any more. none: it goes on waiting. -/
def State.serveOne (s : State) (h : Held) : Option State :=
  let moves := fun (g : Nat) => if g = h.gl then none else some (s.queueAt h g)
  match s.gateFrom h.asker h.work.writes h.words 8 h.gl with
  | .ok g => if g ≠ h.gl && s.behind h.asker h.words g then some (s.queueAt h g) else some (s.serveNow h g)
  | .poison _ => some (s.loseHeld h cPOISON)
  | .lost _ => some (s.loseHeld h cUNREACH)
  | .held g => (s.meetsHold h g).orElse fun _ => moves g
  | .defer g => moves g

/-- The requests that wait at the home of a line are served in their order, each after those before it that keep it back (R77). -/
def State.serveLine (s : State) (gl : Nat) : State :=
  ((s.held.filter fun h => h.waits && h.gl = gl).foldl (fun (r : State × WordMask) h =>
    let (s, barred) := r
    if barred &&& h.words ≠ 0 && (s.dir gl).tentOf h.commitName = 0 then (s, barred ||| s.keepsBack h)
    else match s.serveOne h with
      | some s => (s, barred)
      | none => (s, barred ||| s.keepsBack h)) (s, 0)).1

/-- A request arrives at its home. -/
def State.arrive (s : State) (h : Held) : State :=
  match h.work with
  | .deliver _ _ => s.serveNow h h.gl
  | _ =>
    match s.gate h.asker h.work.writes h.words h.gl with
    | .ok g => s.serveNow h g
    | .poison _ => s.loseHeld h cPOISON
    | .lost _ => s.loseHeld h cUNREACH
    | .held g => (s.meetsHold h g).getD (s.queueAt h g)
    | .defer g => s.queueAt h g

/-- The reads that wait for a HELD line are answered with the words that its holder has published, and are not cached (R124, R125). -/
def State.publishReads (s : State) (gl : Nat) : State :=
  (s.held.filter fun h => h.waits && h.gl = gl && h.work = .read).foldl (fun s h => s.answerHeld h (readLine s.mem gl)) s

/-- R46: the home recalls the words of live owners and marks the line poisoned; what waits there meets the poison. The spec does not say what
becomes of a line in MIGRATING or FORWARD: it is POISON and has no part in the move any more (log entry 77). -/
def State.poisonLine (s : State) (gl : Nat) : State :=
  let s := (s.clearRemote gl (pkgOfGl gl) true).recallOwners gl gl (BitVec.allOnes 32) true none
  let s := (s.modDir gl fun d => { d with st := .poison, host := .none, remote := .none }).serveLine gl
  s.logEvent (pkgOfGl gl) evPOISON (sourceOf (8 * homeOf (paOfGl gl)) 0) (paOfGl gl)

/-! ## The effect buffer of a helper (R297 to R300) -/

/-- A tentative registration of a context is outstanding. -/
def State.tentativeOpen (s : State) (t c : Nat) : Bool :=
  s.held.any fun h => s.asks h t c && h.open && h.work = .tentative

/-- Tentative words of a buffered line are so no longer, and what waits for them is served. -/
def State.releaseTent (s : State) (a : Armer) (gl : Nat) (e : EffLine) : State :=
  (s.modDir gl fun d => d.dropTent (a.tile, a.cid + 16 * a.pid) (touched e.mask)).serveLine gl

/-- Context c of the image that runs on tile t, as the armer of what it has under way. -/
def State.helperOf (s : State) (t c : Nat) : Armer := ⟨(s.tile t).pid, t, (s.tile t).self, c, 0, 0, false, 0⟩

/-- Commit of one buffered line of a helper at its home: the words are written and are tentative no longer, and what waits there is served. A
line whose home is out of reach, or cannot be told, is lost (R167). -/
def State.commitLine (s : State) (a : Armer) (e : EffLine) : State :=
  let t := a.tile
  let gl := s.forwarded 8 e.gl
  let (sent, s) := if s.lineReached (pkgOf t) gl then s.sendLine (pkgOf t) e.gl else (.fault cUNREACH, s)
  match sent with
  | .fault _ => (s.modIssuer a fun k => { k with losses := k.losses ++ [⟨cUNREACH, e.ptr, e.seq⟩] }).releaseTent a gl e
  | _ =>
    let s : State := { s with mem := writeLine s.mem gl e.mask e.data }
    let s := s.modTile t fun x => (x.dropStale e.gl (touched e.mask)).dropStale gl (touched e.mask)
    (s.report gl (wordBytes (touched e.mask))).releaseTent a gl e

/-- An arrival or credit for which no context waits goes from a tile to a global barrier, through the fabric where its home is in another
package (R107, R298); tag is that of its transfer, or 0. One that is lost there is not applied. -/
def State.sendUpdate (s : State) (t a arr bytes tag : Nat) : State :=
  let gl := a / 128
  match s.askLine (pkgOf t) gl with
  | (.ok _, s) => s.barrierUpdate a arr bytes tag
  | (.fault _, s) => s
  | (.wait, s) => s.holdFor t gl (spanWords (a % 128) 32) (.update (a % 128) 2 arr bytes) 0 tag .queue (s.lineVia (pkgOf t) gl)

/-- The homes of a context's buffered lines and held arrivals can be told of its commit: those in other packages that are reached (R298). -/
def State.commitReady (s : State) (t c : Nat) : Bool :=
  let k := s.ctxAt t c
  let p := pkgOf t
  let lines := k.effects.map EffLine.gl ++ k.heldArrivals.map fun a => a / 128
  !s.tentativeOpen t c && lines.all fun gl => !s.lineReached p gl || s.netOpen p (pkgOfGl gl) (s.lineVia p gl) lines.length

/-- Commit of every buffered line, then the held global arrivals. -/
def State.commitEffects (s : State) (t c : Nat) : State :=
  let k := s.ctxAt t c
  let s := k.effects.foldl (fun s e => s.commitLine (s.helperOf t c) e) s
  let s := k.heldArrivals.foldl (fun s a => s.sendUpdate t a 1 0 0) s
  s.modCtxAt t c fun k => { k with effects := [], heldArrivals := [] }

/-- Discard of buffered lines (R300): the homes keep the older values and answer with them. -/
def State.dropLines (s : State) (a : Armer) (es : List EffLine) : State :=
  es.foldl (fun s e => s.releaseTent a (s.forwarded 8 e.gl) e) s

/-- A context has gone: its loads and tentative writes are dropped, its other requests go on (R300). -/
def State.endRequests (s : State) (t c : Nat) : State :=
  s.held.foldl (fun s h =>
    if !s.asks h t c then s
    else match h.work with
      | .read | .tentative | .await _ _ => s.closeHeld h
      | _ => if h.open then s.modHeld h.id fun h => { h with cid := goneCid } else s.dropHeld h.id) s

/-- Discard (R300). -/
def State.discardEffects (s : State) (t c : Nat) : State :=
  let es := (s.ctxAt t c).effects
  let s := s.held.foldl (fun s h => if s.asks h t c && h.work = .tentative then s.closeHeld h else s) s
  (s.dropLines (s.helperOf t c) es).modCtxAt t c fun k => { k with effects := [], heldArrivals := [] }

/-- R297: the switch to direct mode commits the buffer at once and marks the helper non-replayable. -/
def State.goDirect (s : State) (t c : Nat) : State :=
  (s.commitEffects t c).modCtxAt t c fun k => { k with nr := true }

end Sys2Proof.Machine
end

