-- ==== Sys2Proof/Machine/Vetch.lean ====
section
/-! DEFINITION. The collective engine of a region (R178 to R184, R308 to R311, R322): live programs, their buffers, the reduce
operators, the steps, and stores through the reduce aperture. -/
namespace Sys2Proof.Machine

/-! ## Live programs -/

def State.progs (s : State) (p r : Nat) : List Prog := ((s.dev p).region r).progs
/-- The live program of an id in a region. -/
def State.prog (s : State) (p r id : Nat) : Option Prog := (s.progs p r).find? fun g => g.id = id
def State.modProg (s : State) (p r id : Nat) (f : Prog → Prog) : State :=
  s.modRegion p r fun x => { x with progs := x.progs.map fun g => if g.id = id then f g else g }

/-- The status word of R309. -/
def vetchStatus (steps : Nat) (flags : BitVec 11) (code : Nat) : Word :=
  BitVec.ofNat 64 (steps % 2 ^ 32 * 2 ^ 32 + flags.toNat * 256 + code)

/-- A program completes with a code (R309). -/
def State.endProg (s : State) (p r : Nat) (g : Prog) (steps code : Nat) : State :=
  s.modRegion p r fun x => { x with
    progs := x.progs.filter fun h => h.id ≠ g.id
    done := mset x.done g.id (vetchStatus steps g.flags code) }

/-- The code of R309 for a cause that Vetch meets. -/
def vetchCode (c : BitVec 8) : Nat :=
  if c = cPAGE then 5 else if c = cPROT then 6 else if c = cPOISON then 7 else 3

def Prog.asker (g : Prog) : Asker := ⟨g.tile, engineCid, g.asid, g.priv⟩

/-! ## Tables and buffers (R179) -/

/-- An engine read of n bytes at a pointer's address plus an offset. -/
def State.vetchRead (s : State) (g : Prog) (p : Word) (off n : Nat) : EngRes Nat × State :=
  s.engineRead g.asker p (addrOf p + off) n

/-- BUF and the word with LEN, DV and MC of buffer i. -/
def State.bufEntry (s : State) (g : Prog) (i : Nat) : EngRes (Word × Word) × State :=
  match s.vetchRead g g.table (16 + 16 * i) 16 with
  | (.ok v, s) => (.ok (BitVec.ofNat 64 v, BitVec.ofNat 64 (v / 2 ^ 64)), s)
  | (.fault c, s) => (.fault c, s)
  | (.wait, s) => (.wait, s)

/-- LEN in bytes, d of a TRIPLE row, MC. -/
def bufLen (w : Word) : Nat := (bits w 0 24).toNat * 64
def bufD (w : Word) : Nat := let dv := (bits w 24 6).toNat; if dv = 0 then 1024 else 16 * dv
def bufMc (w : Word) : Bool := w.getLsbD 30

/-- Bytes of a buffer; a space-1 buffer is the issuing tile's scratch, and must be pinned for its partition (R310, R322). -/
def State.bufRead (s : State) (g : Prog) (p : Word) (off n : Nat) : EngRes Nat × State :=
  if spaceOf p = 1 then
    if (s.tile g.tile).slotSpan g.pid (addrOf p + off) n then (.ok ((s.tile g.tile).slotRead g.pid (addrOf p + off) n), s)
    else (.fault cPAGE, s)
  else s.vetchRead g p off n

def State.bufWrite (s : State) (g : Prog) (p : Word) (off n v : Nat) : EngRes Unit × State :=
  if spaceOf p = 1 then
    if (s.tile g.tile).slotSpan g.pid (addrOf p + off) n then
      (.ok (), s.modTile g.tile fun x => x.slotWrite g.pid (addrOf p + off) n v)
    else (.fault cPAGE, s)
  else match s.engineStore g.asker p (addrOf p + off) n v with
    | (r, _, s) => (r, s)

/-- What the rank map names for a rank: package and region. -/
inductive RankRes where
  | at' (p r : Nat)
  | bad
  | unreach
  | fault (code : BitVec 8)
  | wait
  deriving DecidableEq, Repr

def State.rankPlace (s : State) (g : Prog) (rank : Nat) : RankRes × State :=
  match s.vetchRead g g.table 0 8 with
  | (.fault c, s) => (.fault c, s)
  | (.wait, s) => (.wait, s)
  | (.ok mp, s) =>
    let mp : Word := BitVec.ofNat 64 mp
    match s.vetchRead g mp (4 * rank) 4 with
    | (.fault c, s) => (.fault c, s)
    | (.wait, s) => (.wait, s)
    | (.ok e, s) =>
      if e / 2 ^ 15 ≠ 0 then (.bad, s)
      else match s.pkgOfDev (e % 4096) with
        | none => (.unreach, s)
        | some p => if s.reaches (pkgOf g.tile) p then (.at' p (e / 4096 % 8), s) else (.unreach, s)

/-! ## Reduce operators (R180) -/

/-- n bytes of elements of w bits combined. -/
def reduceBytes (op w n l r : Nat) : Nat × BitVec 11 :=
  (List.range (8 * n / w)).foldl (fun (acc : Nat × BitVec 11) i =>
    let (c, f) := reduceElem op (l / 2 ^ (w * i) % 2 ^ w) (r / 2 ^ (w * i) % 2 ^ w)
    (acc.1 + c * 2 ^ (w * i), acc.2 ||| f)) (0, 0)

/-- One TRIPLE row of d elements: m, s, zero padding to byte 63, v (R68, R180). -/
def tripleRow (d l r : Nat) : Nat × BitVec 11 :=
  let w := fun (x i : Nat) => x / 2 ^ (32 * i) % 2 ^ 32
  let (m, sum, c, f) := mergeHead (w l 0) (w l 1) (w r 0) (w r 1)
  let (v, g) := (List.range d).foldl (fun (acc : Nat × BitVec 11) i =>
    let (e, h) := mergeElem (w l (16 + i)) (w r (16 + i)) c
    (acc.1 + e * 2 ^ (32 * (16 + i)), acc.2 ||| h)) (0, 0)
  (m + sum * 2 ^ 32 + v, f ||| g)

/-- n bytes of local (left) and incoming (right) bytes under an operator. -/
def reduce (op d n l r : Nat) : Nat × BitVec 11 :=
  match op with
  | 1 => reduceBytes 1 16 n l r
  | 4 =>
    let row := 64 + 4 * d
    (List.range (n / row)).foldl (fun (acc : Nat × BitVec 11) i =>
      let (v, f) := tripleRow d (l / 2 ^ (8 * row * i) % 2 ^ (8 * row)) (r / 2 ^ (8 * row * i) % 2 ^ (8 * row))
      (acc.1 + v * 2 ^ (8 * row * i), acc.2 ||| f)) (0, 0)
  | _ => reduceBytes op 32 n l r

/-! ## The aperture (R183, R184) -/

/-- Fields of a space-4 pointer. -/
def apOp (p : Word) : Nat := (bits p 48 4).toNat
def apId (p : Word) : Nat := (bits p 36 12).toNat
def apBuf (p : Word) : Nat := (bits p 32 4).toNat
def apOff (p : Word) : Nat := (bits p 0 32).toNat

/-- n bytes with a byte mask are applied to a buffer of one rank: combined, or written under WRITE. -/
def State.apertureAt (s : State) (p r : Nat) (g : Prog) (op buf off n : Nat) (mask v : Nat) : EngRes Unit × State :=
  match s.bufEntry g buf with
  | (.fault c, s) => (.ok (), s.endProg p r g g.steps (vetchCode c))
  | (.wait, s) => (.wait, s)
  | (.ok (b, _), s) =>
    match s.bufRead g b off n with
    | (.fault c, s) => (.ok (), s.endProg p r g g.steps (vetchCode c))
    | (.wait, s) => (.wait, s)
    | (.ok l, s) =>
      let (m, f) := if op = 5 then (v, 0) else reduce op 0 n l v
      let sel := BitVec.ofNat (8 * n) mask
      let w := (blend sel (BitVec.ofNat (8 * n) l) (BitVec.ofNat (8 * n) m)).toNat
      match s.bufWrite g b off n w with
      | (.fault c, s) => (.ok (), s.endProg p r g g.steps (vetchCode c))
      | (.wait, s) => (.wait, s)
      | (.ok _, s) =>
        (.ok (), s.modProg p r g.id fun g => { g with
          flags := g.flags ||| f
          aperBytes := mset g.aperBytes buf (mget 0 g.aperBytes buf + popCount sel / 8) })

/-- A store element reaches Vetch; mask is over bits. A buffer with MC set has it forwarded to every other rank (R183, R184). -/
def State.apertureApply (s : State) (p r : Nat) (by' : Armer) (ptr : Word) (seq id inst op buf off n mask v : Nat) : EngRes Unit × State :=
  match s.prog p r id with
  | none => (.fault cSPACE, s)
  | some g =>
    if g.inst ≠ inst then (.fault cSPACE, s)
    else match s.bufEntry g buf with
      | (.wait, s) => (.wait, s)
      | (.fault c, s) => (.ok (), s.endProg p r g g.steps (vetchCode c))
      | (.ok (_, w), s) =>
        match s.apertureAt p r g op buf off n mask v with
        | (.ok _, s) =>
          let ranks := (List.range g.nranks).filter (· ≠ g.rank)
          let copy : Forward := ⟨by'.tile, by'.pid, by'.cid, ptr, seq, op, buf, off, n, mask, v, ranks⟩
          (.ok (), if bufMc w && !ranks.isEmpty then s.modProg p r id fun g => { g with forwards := g.forwards ++ [copy] } else s)
        | r => r

/-- R183, R378: the check of an aperture store of n bytes by a tile; it gives the instance of the collective. -/
def State.apertureCheck (s : State) (t : Nat) (p : Word) (n : Nat) : EngRes Nat × State :=
  let d := pkgOf t
  let op := apOp p
  if !(s.dev d).featAck.getLsbD 7 || !(op < 4 || op = 5) then (.fault cSPACE, s)
  else match s.prog d (regionOf t) (apId p) with
    | none => (.fault cSPACE, s)
    | some g =>
      match s.bufEntry g (apBuf p) with
      | (.wait, s) => (.wait, s)
      | (.fault _, s) => (.fault cSPACE, s)
      | (.ok (_, w), s) => if apOff p + n ≤ bufLen w then (.ok g.inst, s) else (.fault cSPACE, s)

/-! ## Contributions across the fabric (R371) -/

/-- A port of a package is matched to position n in some slot of the rotation. -/
def Fabric.meetsOn (f : Fabric) (port n : Nat) : Bool := (List.range 4).any fun j => f.names port j n

/-- The port on which span k of region r goes directly to position n. -/
def Fabric.vetchPort (f : Fabric) (r n k : Nat) : Option Nat :=
  match f.meetsOn (2 * r) n, f.meetsOn (2 * r + 1) n with
  | true, true => some (2 * r + k % 2)
  | true, false => some (2 * r)
  | false, true => some (2 * r + 1)
  | _, _ => none

/-- Offset, length and bytes of span k. -/
def Contrib.span (c : Contrib) (k : Nat) : Nat × Nat × Nat :=
  let n := min vetchSpan (c.len - vetchSpan * k)
  (vetchSpan * k, n, c.data / 2 ^ (8 * vetchSpan * k) % 2 ^ (8 * n))

/-- A contribution that was asked for earlier still has a span for package q in the queue of a port of package p. -/
def State.vetchBefore (s : State) (p q port : Nat) (c : Contrib) : Bool :=
  let n := (s.dev q).pos.toNat
  (s.dev p).regions.any fun r => r.2.progs.any fun g =>
    match g.out with
    | some o => o.pkg = q && o.pulled.isSome && decide (o.pulled.getD 0 < c.pulled.getD 0) &&
        o.waiting.any fun k => (s.dev p).fabric.vetchPort r.1 n k = some port
    | none => false

/-- What became of the next span of a contribution of program h, at region r of package p: span k has landed, with its bytes; it has been written
with bytes that fail its tag, and goes again; it waits, or only some of its flits went, or it went to its relay; it is lost. -/
inductive Crossed where
  | landed (k off n v : Nat)
  | again (off n v : Nat)
  | wait
  | lost
  deriving DecidableEq, Repr

/-- The contribution of a program changes. -/
def State.modOut (s : State) (p r id : Nat) (f : Contrib → Contrib) : State := s.modProg p r id fun h => { h with out := h.out.map f }

/-- All flits of span k have gone: its tag passes or fails (R172). -/
def State.spanArrives (s : State) (p r : Nat) (h : Prog) (c : Contrib) (k key : Nat) : Crossed × State :=
  let (off, n, v) := c.span k
  match s.transmit p key (.vetch r h.id) n v with
  | (.ok, s) => (.landed k off n v, s.modOut p r h.id fun c => { c with landed := c.landed ++ [k], relay := c.relay.filter (· ≠ k) })
  | (.again, s') => (.again off n (match (s.dev p).fabric.garbled.find? fun e => e.1 = key with
    | some (_, g) => (v ^^^ g.flip) % 2 ^ (8 * n)
    | none => v), s')
  | (.lost, s) => (.lost, s)

/-- As many flits of span k go as a slot still takes; place is where part counts them, and pay says what sending costs. done: what follows when the
last of them has gone. -/
def State.pushSpan (s : State) (p r : Nat) (h : Prog) (c : Contrib) (k place room : Nat) (pay : State → Nat → State)
    (done : State → Crossed × State) : Crossed × State :=
  let sent := mget 0 c.part place
  let m := min room (c.flits k - sent)
  let s := pay s m
  if sent + m < c.flits k then (.wait, s.modOut p r h.id fun c => { c with part := mset c.part place (sent + m) })
  else done (s.modOut p r h.id fun c => { c with part := mdel c.part place })

/-- Spans of a contribution toward another package of the domain (R371): what its relay holds goes on in the relay's slots, each port sends its own
spans in order in the slots that match it, and the spans of one whose target no port matches go to the relay. -/
def State.moveSpan (s : State) (p r : Nat) (h : Prog) (c : Contrib) : Crossed × State :=
  let f := (s.dev p).fabric
  let q := c.pkg
  let n := (s.dev q).pos.toNat
  let own := some (SpanOwner.vetch r h.id)
  let take := fun (d port key k : Nat) =>
    if port < partOut then
      s.pushSpan p r h c k port (min (s.portRoom p port n) (f.allow n).send)
        (fun s m => (s.chargePort p port m).netAllow p q m) fun s => s.spanArrives p r h c k key
    else s.pushSpan p r h c k partOut (s.slotRoom d n) (fun s m => (s.charge d n m).netConsume p q m) fun s => s.spanArrives p r h c k key
  let relayed : Option (Crossed × State) := do
    let k ← c.relay.head?
    let i ← c.via.bind fun i => s.pkgAtPos p i
    if ((s.dev i).fabric.st = .run || (s.dev i).fabric.st = .drain) && decide (0 < s.slotRoom i n) && !s.pathBlocked p (vetchKey n 16) own then
      some (take i partOut (vetchKey n 16) k)
    else none
  let direct : Option (Crossed × State) := do
    let port ← [2 * r, 2 * r + 1].find? fun port =>
      decide (0 < s.portRoom p port n) && s.hopOpen p q none 1 && !s.vetchBefore p q port c && !s.pathBlocked p (vetchKey n port) own &&
        c.waiting.any fun k => f.vetchPort r n k = some port
    let k ← c.waiting.find? fun k => f.vetchPort r n k = some port
    some (take p port (vetchKey n port) k)
  match relayed.orElse fun _ => direct with
  | some x => x
  | none =>
    match c.waiting.find? fun k => f.vetchPort r n k = none with
    | none => (.wait, s)
    | some k =>
      match f.relay n (fmix32 ((h.id * 2 ^ 16 + h.rank) ^^^ n) % 4) with
      | none => (.lost, s)
      | some i =>
        if s.hopOpen p q (some i) 1 && decide (0 < s.slotRoom p i) then
          s.pushSpan p r h c k partIn (min (s.slotRoom p i) (f.allow n).send) (fun s m => (s.charge p i m).netSend p q m) fun s =>
            (.wait, s.modOut p r h.id fun c => { c with via := some i, relay := c.relay ++ [k] })
        else (.wait, s)

/-- A forwarded copy crosses at once when its path is open, directly on a port of its region or through its relay. -/
def State.copyCrosses (s : State) (p r q : Nat) (g : Prog) (n v : Nat) : EngRes Unit × State :=
  let f := (s.dev p).fabric
  let t := (s.dev q).pos.toNat
  let flits := (72 + n + 239) / 240
  if !s.crosses p q then (.ok (), s)
  else
    let via := if (f.vetchPort r t 0).isSome then none else f.relay t (fmix32 ((g.id * 2 ^ 16 + g.rank) ^^^ t) % 4)
    let key := vetchKey t ((f.vetchPort r t 0).getD 16)
    if (f.vetchPort r t 0).isNone && via.isNone then (.fault cUNREACH, s)
    else if !s.hopOpen p q via flits || !s.pathMeets p q via || s.pathBlocked p key none ||
        decide ((match f.vetchPort r t 0 with
          | some port => s.portRoom p port t
          | none => s.slotRoom p (s.firstHop q via)) < flits) then (.wait, s)
    else match s.deliverSpan p key n v 8 with
      | (.ok, s) => (.ok (), match f.vetchPort r t 0 with
        | some port => (s.chargePort p port flits).netAllow p q flits
        | none => s.netPay p q via flits)
      | (_, s) => (.fault cUNREACH, s)

/-- The oldest forwarded copy of a program goes to the next of its ranks, which applies it; a rank that is lost ends the program (R182, R183). -/
def State.forwardStep (s : State) (p r : Nat) (g : Prog) (c : Forward) (cs : List Forward) : State :=
  let left := fun (s : State) (ranks : List Nat) => s.modProg p r g.id fun g => { g with
    forwards := if ranks.isEmpty then cs else { c with ranks := ranks } :: cs }
  match c.ranks with
  | [] => left s []
  | k :: ks =>
    match s.rankPlace g k with
    | (.wait, s) => s
    | (.bad, s) => s.endProg p r g g.steps 4
    | (.unreach, s) => s.endProg p r g g.steps 3
    | (.fault e, s) => s.endProg p r g g.steps (vetchCode e)
    | (.at' q t, s) =>
      match s.prog q t g.id with
      | none => left s ks
      | some h =>
        match s.copyCrosses p r q g c.len c.data with
        | (.wait, s) => s
        | (.fault _, s) => s.endProg p r g g.steps 3
        | (.ok _, s') =>
          match s'.apertureAt q t h c.op c.buf c.off c.len c.mask c.data with
          | (.ok _, s) => left s ks
          | _ => s

/-! ## Steps (R178, R206, R310, R311) -/

/-- The fields of a step word. -/
structure StepW where
  op : Nat
  red : Nat
  delta : Int
  stride : Int
  cmode : Nat
  ctr : Nat
  buf : Nat
  n : Nat
  deriving DecidableEq, Repr

def stepOf (w : Word) : StepW :=
  ⟨(bits w 60 4).toNat, (bits w 56 4).toNat, (bits w 44 12).toInt, (bits w 32 12).toInt, (bits w 30 2).toNat,
    (bits w 28 2).toNat, (bits w 24 4).toNat, (bits w 0 24).toNat⟩

def Prog.counter (g : Prog) (i : Nat) : Nat := (g.ctrs.getD i 0).toNat
/-- peer and from of a step (R310). -/
def Prog.peer (g : Prog) (w : StepW) : Nat := ((g.rank + w.delta + w.stride * g.counter w.ctr) % g.nranks).toNat
def Prog.source (g : Prog) (w : StepW) : Nat := ((g.rank - w.delta - w.stride * g.counter w.ctr) % g.nranks).toNat
/-- offset of a step (R178). -/
def Prog.offset (g : Prog) (w : StepW) : Nat :=
  let c := g.counter w.ctr
  match w.cmode with
  | 0 => 0
  | 1 => c * w.n * 64
  | 2 => (((g.rank : Int) - c) % g.nranks).toNat * w.n * 64
  | _ => (((g.rank : Int) - c - 1) % g.nranks).toNat * w.n * 64

/-- The step is complete; the next one follows. -/
def State.nextStep (s : State) (p r : Nat) (g : Prog) (f : Prog → Prog) : State :=
  s.modProg p r g.id fun g => f { g with pc := withAddr g.pc (addrOf g.pc + 8), steps := g.steps + 1, halfway := false, out := none }

/-- A program's failure at the step in progress. -/
def State.failStep (s : State) (p r : Nat) (g : Prog) (code : Nat) : State := s.endProg p r g (g.steps + 1) code

/-- Send: the contribution waits, in its buffer b, until its receiver pulls it (R178). The receiver's place was found before. -/
def State.vetchSend (s : State) (p r : Nat) (g : Prog) (w : StepW) (b : Word) (q t : Nat) : State :=
  s.modProg p r g.id fun h => { h with
    halfway := true, out := some ⟨g.peer w, q, t, g.steps, g.rank, b, g.offset w, w.n * 64, 0, none, none, [], [], [], false⟩ }

/-- A rank's place, or the end of the program that needs it (R182). -/
def State.placeOr (s : State) (p r : Nat) (g : Prog) (rank : Nat) (f : Nat → Nat → State → State) : State :=
  match s.rankPlace g rank with
  | (.wait, s) => s
  | (.bad, s) => s.failStep p r g 4
  | (.unreach, s) => s.failStep p r g 3
  | (.fault c, s) => s.failStep p r g (vetchCode c)
  | (.at' q t, s) => f q t s

/-- The receiving step has every span, verified: it combines the contribution under its operator, if it has one, and the sender has its
acknowledgement. A part of the buffer that a RECV has written span by span is written already. -/
def State.vetchApply (s : State) (p r : Nat) (g : Prog) (w : StepW) (q t : Nat) (h : Prog) (c : Contrib) (b bw : Word) (op : Option Nat)
    (send : Option (Nat × Nat)) : State :=
  let off := g.offset w
  let n := w.n * 64
  let merged : EngRes (Nat × BitVec 11) × State :=
    match op with
    | none => (.ok (c.data, 0), s)
    | some o =>
      match s.bufRead g b off n with
      | (.ok l, s) => (.ok (reduce o (bufD bw) n l c.data), s)
      | (.fault e, s) => (.fault e, s)
      | (.wait, s) => (.wait, s)
  match merged with
  | (.wait, s) => s
  | (.fault e, s) => s.failStep p r g (vetchCode e)
  | (.ok (v, f), s) =>
    match (if op.isNone && s.crosses p q then (.ok (), s) else s.bufWrite g b off n v) with
    | (.wait, s) => s
    | (.fault e, s) => s.failStep p r g (vetchCode e)
    | (.ok _, s) =>
      let keys := (List.range c.spans).map fun k => (c.step, c.src, k)
      let s := s.modOut q t h.id fun c => { c with acked := true }
      let s := s.modProg p r g.id fun g => { g with flags := g.flags ||| f, applied := g.applied.filter (!keys.contains ·) ++ keys }
      match send with
      | some (a, z) => s.vetchSend p r g w b a z
      | none => s.nextStep p r g id

/-- The receiving half of a step: the source rank's next contribution is pulled, if it has sent one, span by span (R178, R181, R310, R371). -/
def State.vetchTake (s : State) (p r : Nat) (g : Prog) (w : StepW) (src : Nat) (op : Option Nat) (send : Option (Nat × Nat)) : State :=
  s.placeOr p r g src fun q t s =>
    match (s.progs q t).find? fun h => h.id = g.id && h.rank = src with
    | none => s
    | some h =>
      match h.out with
      | none => s
      | some c =>
        if c.dst ≠ g.rank || c.acked then s
        else if (List.range c.spans).all fun k => g.applied.contains (c.step, c.src, k) && c.pulled.isNone then
          s.modOut q t h.id fun c => { c with acked := true }
        else if c.pulled.isNone then
          match s.bufRead h c.buf c.off c.len with
          | (.wait, s) => s
          | (.fault e, s) => s.failStep q t h (vetchCode e)
          | (.ok v, s) => { s.modOut q t h.id fun c => { c with data := v, pulled := some s.heldIds } with heldIds := s.heldIds + 1 }
        else match s.bufEntry g w.buf with
          | (.wait, s) => s
          | (.fault e, s) => s.failStep p r g (vetchCode e)
          | (.ok (b, bw), s) =>
            if !s.crosses p q || c.whole then s.vetchApply p r g w q t h c b bw op send
            else match s.moveSpan q t h c with
              | (.lost, s) => (s.failStep q t h 3).failStep p r g 3
              | (.wait, s) => s
              | (.again off n v, s') =>
                if op.isSome then s'
                else match s'.bufWrite g b (g.offset w + off) n v with
                  | (.ok _, s) => s
                  | (.fault e, s) => s.failStep p r g (vetchCode e)
                  | (.wait, _) => s
              | (.landed k off n v, s') =>
                if op.isSome then s'
                else match s'.bufWrite g b (g.offset w + off) (min n (w.n * 64 - off)) v with
                  | (.ok _, s) => s.modProg p r g.id fun g => { g with applied := g.applied ++ [(c.step, c.src, k)] }
                  | (.fault e, s) => s.failStep p r g (vetchCode e)
                  | (.wait, _) => s

/-- The bytes of a step are within its buffer (R310). -/
def StepW.fits (w : StepW) (off : Nat) (bw : Word) : Bool := decide (off + w.n * 64 ≤ bufLen bw)

/-- A step that moves data (SEND, RECV, RRS, RRD, COPY), its range and rows checked. -/
def State.vetchData (s : State) (p r : Nat) (g : Prog) (w : StepW) : State :=
  let off := g.offset w
  match s.bufEntry g w.buf with
  | (.wait, s) => s
  | (.fault c, s) => s.failStep p r g (vetchCode c)
  | (.ok (b, bw), s) =>
    if (w.op = 3 || w.op = 4) && w.red = 4 && (w.n * 64) % (64 + 4 * bufD bw) ≠ 0 then s.failStep p r g 1
    else if !w.fits off bw then s.failStep p r g 2
    else match w.op with
      | 1 => s.placeOr p r g (g.peer w) fun q t s => s.vetchSend p r g w b q t
      | 2 => s.vetchTake p r g w (g.peer w) none none
      | 3 => s.placeOr p r g (g.peer w) fun q t s => s.vetchTake p r g w (g.source w) (some w.red) (some (q, t))
      | 4 => s.vetchTake p r g w (g.peer w) (some w.red) none
      | _ =>
        match s.bufEntry g ((w.buf + 1) % 16) with
        | (.wait, s) => s
        | (.fault c, s) => s.failStep p r g (vetchCode c)
        | (.ok (b2, bw2), s) =>
          if !w.fits off bw2 then s.failStep p r g 2
          else match s.bufRead g b off (w.n * 64) with
            | (.wait, s) => s
            | (.fault c, s) => s.failStep p r g (vetchCode c)
            | (.ok v, s) =>
              match s.bufWrite g b2 off (w.n * 64) v with
              | (.wait, s) => s
              | (.fault c, s) => s.failStep p r g (vetchCode c)
              | (.ok _, s) => s.nextStep p r g id

/-- SIGNAL (R178): one arrival at the global barrier that a buffer entry names. -/
def State.vetchSignal (s : State) (p r : Nat) (g : Prog) (w : StepW) : State :=
  match s.bufEntry g w.buf with
  | (.wait, s) => s
  | (.fault c, s) => s.failStep p r g (vetchCode c)
  | (.ok (b, _), s) =>
    if spaceOf b ≠ 0 || addrOf b % 32 ≠ 0 then s.failStep p r g 1
    else match s.resolve g.asker (addrOf b) .amo b with
      | (.wait, s) => s
      | (.fault c, s) => s.failStep p r g (vetchCode c)
      | (.ok a _, s) =>
        match s.gate g.asker true (spanWords (a % 128) 32) (a / 128) with
        | .ok gl =>
          match s.sendLine p (a / 128) with
          | (.ok _, s) => (s.barrierUpdate (gl * 128 + a % 128) 1 0 0).nextStep p r g id
          | (.wait, s) => s
          | (.fault _, s) => s.failStep p r g 3
        | .defer _ => s
        | .poison _ => s.failStep p r g 7
        | .held _ => s.failStep p r g 6
        | .lost _ => s.failStep p r g 3

/-- WAIT (R311). -/
def State.vetchWait (s : State) (p r : Nat) (g : Prog) (w : StepW) : State :=
  match w.red with
  | 0 => if w.n ≤ g.signals then s.nextStep p r g fun g => { g with signals := g.signals - w.n } else s
  | 1 =>
    let have' := mget 0 g.aperBytes w.buf
    if w.n ≤ have' then s.nextStep p r g fun g => { g with aperBytes := mset g.aperBytes w.buf (have' - w.n) } else s
  | _ => s.failStep p r g 1

/-- Table entries that the steps of a program name up to its END, and those of them that SIGNAL names. -/
def State.namedBufs (s : State) (g : Prog) : Nat → Word → List Nat × List Nat
  | 0, _ => ([], [])
  | fuel + 1, pc =>
    match (s.vetchRead g pc 0 8).1 with
    | .ok v =>
      let w := stepOf (BitVec.ofNat 64 v)
      let (bs, ss) := if w.op = 0 || 9 < w.op then ([], []) else s.namedBufs g fuel (withAddr pc (addrOf pc + 8))
      if w.op = 7 then (bs, w.buf :: ss)
      else if w.op = 5 then (w.buf :: (w.buf + 1) % 16 :: bs, ss)
      else if (1 ≤ w.op && w.op ≤ 4) || (w.op = 6 && w.red = 1) then (w.buf :: bs, ss)
      else (bs, ss)
    | _ => ([], [])

/-- A buffer entry with a reserved bit set, or of nonzero LEN outside spaces 0 and 1. -/
def entryBad (signal : Bool) (buf len : Word) : Bool :=
  (!signal && bits len 0 24 ≠ (0 : BitVec 24) && decide (1 < spaceOf buf)) || bits len 31 33 ≠ (0 : BitVec 33)

/-- The rank map's entries: each has its reserved bits 0. -/
def State.rankMapOk (s : State) (g : Prog) (mp : Word) : EngRes Bool × State :=
  match s.vetchRead g mp 0 (4 * g.nranks) with
  | (.ok v, s) => (.ok ((List.range g.nranks).all fun i => decide (v / 2 ^ (32 * i) % 2 ^ 32 < 2 ^ 15)), s)
  | (.fault c, s) => (.fault c, s)
  | (.wait, s) => (.wait, s)

/-- The contents of the table and of the rank map, checked when Vetch first reads the table (R179). The table ends at the highest
buffer that the program names. -/
def State.vetchCheck (s : State) (p r : Nat) (g : Prog) : State :=
  let (bs, ss) := s.namedBufs g 4096 g.pc
  let n := (bs ++ ss).foldl (fun m i => max m (i + 1)) 0
  match s.vetchRead g g.table 0 (16 + 16 * n) with
  | (.wait, s) => s
  | (.fault c, s) => s.endProg p r g g.steps (vetchCode c)
  | (.ok v, s) =>
    let w := fun (i : Nat) => (BitVec.ofNat 64 (v / 2 ^ (64 * i)) : Word)
    if spaceOf (w 0) ≠ 0 || addrOf (w 0) % 4 ≠ 0 || w 1 ≠ 0 ||
        (List.range n).any fun i => entryBad (ss.contains i) (w (2 + 2 * i)) (w (3 + 2 * i)) then s.endProg p r g g.steps 4
    else match s.rankMapOk g (w 0) with
      | (.wait, s) => s
      | (.fault c, s) => s.endProg p r g g.steps (vetchCode c)
      | (.ok ok, s) => if ok then s.modProg p r g.id fun g => { g with checked := true } else s.endProg p r g g.steps 4

/-- A receiving step of a program is part-way: its contribution has been pulled and is not acknowledged. -/
def State.midReceive (s : State) (g : Prog) : Bool :=
  s.devices.any fun d => d.2.regions.any fun r => r.2.progs.any fun h =>
    h.id = g.id && h.out.any fun c => c.dst = g.rank && c.pulled.isSome && !c.acked

/-- Vetch performs what the program of an id can do next (R178, R206, R310); a step that waits changes nothing. Copies of aperture stores go
to the other ranks first, and END waits for them. One that PREEMPT stops goes on to the end of its step (R182). -/
def State.vetchStep (s : State) (p r id : Nat) : State :=
  match s.prog p r id with
  | none => s
  | some g =>
    let s := match g.forwards with
      | c :: cs => s.forwardStep p r g c cs
      | [] => s
    match s.prog p r id with
    | none => s
    | some g =>
      if g.stopped && !s.midReceive g then s
      else if !g.checked then s.vetchCheck p r g
      else match s.vetchRead g g.pc 0 8 with
        | (.wait, s) => s
        | (.fault c, s) => s.endProg p r g g.steps (vetchCode c)
        | (.ok v, s) =>
          let w := stepOf (BitVec.ofNat 64 v)
          if g.halfway then
            match g.out with
            | some c =>
              if c.acked then s.nextStep p r g fun g => g
              else if !s.reaches p c.pkg then s.failStep p r g 3
              else s
            | none => s
          else if decide (4 < w.red) then s.failStep p r g 1
          else match w.op with
            | 0 => if g.forwards.isEmpty then s.endProg p r g (g.steps + 1) 0 else s
            | 6 => s.vetchWait p r g w
            | 7 => s.vetchSignal p r g w
            | 8 => s.nextStep p r g fun g => { g with ctrs := g.ctrs.set w.ctr (BitVec.ofNat 24 w.n) }
            | 9 =>
              let c := g.ctrs.getD w.ctr 0 - 1
              let s := s.nextStep p r g fun g => { g with ctrs := g.ctrs.set w.ctr c }
              if c = 0 then s else s.modProg p r g.id fun h => { h with pc := withAddr g.pc (addrOf g.pc - 8 * w.n) }
            | op => if op < 6 then s.vetchData p r g w else s.failStep p r g 1

end Sys2Proof.Machine
end

