-- ==== Sys2Proof/Machine/Access.lean ====
section
/-! DEFINITION. The accesses of a context: loads, stores, atomics and deliveries with their checks in order (R32, R227 to R232,
R268 to R272), a helper's buffered stores (R297), releases and acquires (R80, R81), and vector store pairs (R139). A request that
its home does not serve at once is held, and the context goes on (R79, R140). -/
namespace Sys2Proof.Machine

/-! ## From state functions to meanings -/

/-- An access in progress: a fault traps with val, a wait keeps what the request left at its home. -/
def engM (val : Word) (f : State → EngRes α × State) : M α := fun s =>
  match f s with
  | (.ok v, s) => .ok (v, s)
  | (.fault c, _) => .error (.trap c val)
  | (.wait, s) => .error (.waitWith s)

/-- Translate and check an address of the issuing context (R36); val is TRAPVAL. -/
def locateM (val : Word) (va : Nat) (acc : Acc) : M (Nat × Word) := fun s =>
  match s.locate s.asker va acc val with
  | (.ok a e, s) => .ok ((a, e), s)
  | (.fault c, _) => .error (.trap c val)
  | (.wait, s) => .error (.waitWith s)

/-- Run a meaning as context c of tile t. -/
def within (t c : Nat) (m : M α) : M α := do
  let s ← get
  set { s with cur := t, cid := c }
  let r ← m
  upd fun x => { x with cur := s.cur, cid := s.cid }
  pure r

/-- The checks of lines of one access that follow translation, each made of every line before the next: COMPACTHELD for a write, POISON,
UNREACH (R227, R269); a line is given with the words that the access needs of it. -/
def reachLines (val : Word) (write : Bool) (lines : List (Nat × WordMask)) : M Unit := do
  let s ← get
  let gates := lines.map fun l => s.gate s.asker write l.2 l.1
  let held := fun (g : Gate) => match g with | .held _ => true | _ => false
  let poison := fun (g : Gate) => match g with | .poison _ => true | _ => false
  let lost := fun (g : Gate) => match g with | .lost _ => true | _ => false
  need (!(write && gates.any held)) cCOMPACTHELD val
  need (!gates.any poison) cPOISON val
  need (lines.all (fun l => s.lineReached (pkgOf s.cur) l.1) && !gates.any lost) cUNREACH val

/-- The same for one line, and what its home does with the request. -/
def reachLine (val : Word) (write : Bool) (gl : Nat) (mask : WordMask) : M Gate := do
  reachLines val write [(gl, mask)]
  ask fun s => s.gate s.asker write mask gl

/-- The home of a line is in another package. -/
def State.far (s : State) (gl : Nat) : Bool := pkgOf s.cur ≠ pkgOfGl gl

/-- A request for a line of another package waits for a hardware slot (R166). -/
def needSlot (gl : Nat) : M Unit := do
  let s ← get
  if s.far gl && (s.tile s.cur).freeHw.isNone then waitKeep

/-- The request crosses to the line's home now, waits for its path, or is lost on it. -/
def crosses (gl : Nat) : M (EngRes Unit) := do
  needSlot gl
  let s ← get
  let (r, s) := s.askLine (pkgOf s.cur) gl
  set s
  pure r

/-- A request of the issuing context is held, with a hardware slot when its home is in another package (R166, R370). -/
def hold (stage : Stage) (gl : Nat) (words : WordMask) (work : HeldWork) (p : Word) (fill : Option Fill) (mine : ByteMask)
    (mineData : LineData) : M Nat := do
  let s ← get
  let x := s.tile s.cur
  let slot := if s.far gl then x.freeHw else none
  let h : Held := {
    id := s.heldIds, tile := s.cur, pid := x.pid, self := x.self, cid := s.cid, unit := unitAddr s.ctx.upc, gl := gl, words := words
    work := work, ptr := p, seq := s.ctx.useq, stage := stage, via := s.lineVia (pkgOf s.cur) gl, slot := slot, fill := fill
    mine := mine, mineData := mineData, answer := none, lost := false, cause := 0 }
  set ({ s with held := s.held ++ [h], heldIds := s.heldIds + 1 }.modTile s.cur fun x => x.setHw slot .hw)
  pure h.id

/-- A held request whose span is lost on its path ends (R172). -/
def loseNow (id : Nat) : M Unit := upd fun s =>
  match s.held.find? fun h => h.id = id with
  | some h => s.loseHeld h cUNREACH
  | none => s

/-- Where a request waits that crosses or not: at the line that its home names, or in its send queue. -/
def Gate.stage (g : Gate) (gl : Nat) (r : EngRes Unit) : Stage × Nat :=
  match r with
  | .ok _ => match g with
    | .ok g | .defer g | .held g | .poison g | .lost g => (.home, g)
  | _ => (.queue, gl)

/-- An AMO, a store past the array or a barrier update of the context is on its way to words of a line: the array does not answer for them
until it is served (R83). -/
def State.crossing (s : State) (gl : Nat) (mask : WordMask) : Bool :=
  s.held.any fun h => s.asks h s.cur s.cid && h.open && h.gl = gl && h.words &&& mask ≠ 0 &&
    match h.work with
    | .amo _ _ _ _ _ | .store _ _ | .update _ _ _ _ => true
    | .register _ _ => h.fill.isNone
    | _ => false

/-- A request of the context for words of a line is under way that a later store to them must not pass: any but a registration of them, and a
registration that came before none of these (R77, R83). since is the number of the request after which it was made. -/
def State.passes (s : State) (gl : Nat) (mask : WordMask) (since : Nat) : Bool :=
  s.held.any fun h => s.asks h s.cur s.cid && h.open && decide (since ≤ h.id) && h.words &&& mask ≠ 0 && (h.gl = gl || h.name = gl) &&
    !h.registers s.cur gl

/-- The registration that a store to words of a line joins: the tile's latest for any of them, if it covers them all and the store passes nothing
of the context's with it. -/
def State.joins (s : State) (gl : Nat) (mask : WordMask) : Option Held :=
  (s.lastRegister s.cur gl mask).filter fun h => mask &&& ~~~h.words = 0 && !s.passes gl mask h.id

/-- A store to owned words of a line completes in the array: they are granted and it passes nothing, or it joins the registration that is under
way (R79). -/
def State.completes (s : State) (l : Line) (mask : WordMask) : Bool :=
  mask &&& ~~~l.own = 0 && (if mask &&& s.pendingWords s.cur l.gl = 0 then !s.passes l.gl mask 0 else (s.joins l.gl mask).isSome)

/-- A store that completes in the array. -/
def State.storeHere (s : State) (l : Line) (mask : ByteMask) (data : LineData) : State :=
  let words := touched mask
  let join := s.joins l.gl words
  let s := s.modTile s.cur fun x => x.putLine
    { l with data := blend (byteBits mask) l.data data, valid := l.valid ||| words, dirty := l.dirty ||| words }
  if words &&& s.pendingWords s.cur l.gl = 0 then s else join.elim s fun h => s.mergeInto h.id mask data

/-! ## Loads -/

/-- What a line gives a load: its data, or the request that will give it. -/
inductive Got where
  | data (d : LineData)
  | later (req : Nat)
  deriving DecidableEq, Repr

/-- The helper's own buffered bytes over a line (R297). -/
def Ctx.overlay (k : Ctx) (gl : Nat) (d : LineData) : LineData :=
  match k.effects.find? fun e => e.gl = gl with
  | some e => blend (byteBits e.mask) d e.data
  | none => d

/-- Words of a line that a helper's buffer covers whole. -/
def Ctx.buffered (k : Ctx) (gl : Nat) (mask : WordMask) : Bool :=
  match k.effects.find? fun e => e.gl = gl with
  | some e => wordBytes mask &&& ~~~e.mask = 0
  | none => false

/-- What of a line the asker's helper buffer has of its own, as bytes (R297). -/
def Ctx.ownBytes (k : Ctx) (gl : Nat) : ByteMask × LineData :=
  match k.effects.find? fun e => e.gl = gl with
  | some e => (e.mask, e.data)
  | none => (0, 0)

/-- The name under which a cacheable line of the own domain is kept (R36, R71, R85). -/
def State.fillOf (s : State) (va gl : Nat) (leaf : Word) : Option Fill :=
  if leaf.getLsbD 57 && s.sameDomain (pkgOf s.cur) (pkgOfGl gl) then some ⟨gl, va / 128, s.ctx.asid, permOf leaf⟩ else none

/-- The read of these words that the unit in hand has made already. -/
def State.readUnderWay (s : State) (val : Word) (gl : Nat) (mask : WordMask) : Option Held :=
  s.held.find? fun h => s.asks h s.cur s.cid && h.ptr = val && h.seq = s.ctx.useq && h.work = .read &&
    (h.name = gl || h.gl = s.forwarded 8 gl) && mask &&& ~~~h.words = 0

/-- A line that the array does not answer for: its home does, now or later (R73, R77). -/
def missLine (val : Word) (va : Nat) (mask : WordMask) (a : Nat) (leaf : Word) : M Got := do
  let s ← get
  let k := s.ctx
  let gl := a / 128
  if k.buffered gl mask then pure (.data (k.overlay gl 0))
  else if let some h := s.readUnderWay val gl mask then pure (.later h.id)
  else
    let g ← reachLine val false gl mask
    let r ← crosses gl
    let s ← get
    let fill := s.fillOf va gl leaf
    match r, g with
    | .ok _, .ok g =>
      let (d, s) := match (if g = gl then fill else none) with
        | some f => s.fillRead s.cur gl f mask
        | none => let s := s.peekFor s.cur gl g mask; (readLine s.mem g, s)
      set s
      pure (.data (k.overlay gl d))
    | r, g =>
      if r = .ok () && (match g with | .held g => s.holds s.asker g | _ => false) then pure (.data (readLine s.mem (g.stage gl r).2))
      else
        let (m, d) := k.ownBytes gl
        let (stage, at') := g.stage gl r
        let id ← hold stage at' mask .read val fill m d
        match r with
        | .fault _ => loseNow id
        | _ => pure ()
        pure (.later id)

/-- The array answers for words of a line: valid, readable, and with no request of the context under way to them. -/
def State.hits (s : State) (l : Line) (mask : WordMask) : Bool :=
  mask &&& ~~~l.valid = 0 && l.perm.getLsbD 0 && !s.crossing l.gl mask

/-- The line of the array that a load hits, if one does. -/
def State.hitLine (s : State) (va : Nat) (mask : WordMask) : Option Line :=
  ((s.tile s.cur).line (va / 128) s.ctx.asid).filter fun l => s.hits l mask

/-- Words of one line for a load of the issuing context; val is TRAPVAL. A word written in part waits for the rest of it. -/
def loadLine (val : Word) (va : Nat) (mask : WordMask) : M Got := do
  let s ← get
  match s.hitLine va mask with
  | some l =>
    if s.fetching s.cur l.gl &&& mask ≠ 0 then waitKeep
    modT fun x => x.putLine l
    pure (.data (s.ctx.overlay l.gl l.data))
  | none =>
    let (a, leaf) ← locateM val va .load
    missLine val va mask a leaf

/-- R229: no later access is performed before the flash of an earlier acquiring load, which waits for that load's value. -/
def acquired : M Unit := do
  let s ← get
  let k := s.ctx
  if k.pend.any fun l => l.acq then
    if k.pend.any fun l => l.acq && !(settle s.held l.awaits 0).2.1.isEmpty then wait
    upd fun s => s.flashTile s.cur
    modC fun k => { k with pend := k.pend.map fun l => { l with acq := false } }

/-- The checks of an access that spans lines are made of all of them before any is read (R268). -/
def checkLoad (val : Word) (va n : Nat) : M Unit := do
  if (pieces va n).length ≤ 1 then pure ()
  else
    let lines ← (pieces va n).filterMapM fun q => do
      let s ← get
      let mask := spanWords q.2.1 q.2.2.1
      if (s.hitLine q.1 mask).isSome then pure none
      else
        let (a, _) ← locateM val q.1 .load
        pure (if s.ctx.buffered (a / 128) mask then none else some (a / 128, mask))
    reachLines val false lines

/-- The n bytes at an address in space 0: what is there, and what is awaited. -/
def loadGlobal (val : Word) (va n : Nat) : M (Nat × List Await) := do
  acquired
  checkLoad val va n
  (pieces va n).foldlM (fun (acc : Nat × List Await) q => do
    match ← loadLine val q.1 (spanWords q.2.1 q.2.2.1) with
    | .data d => pure (acc.1 + d.toNat / 2 ^ (8 * q.2.1) % 2 ^ (8 * q.2.2.1) * 2 ^ (8 * q.2.2.2), acc.2)
    | .later id => pure (acc.1, acc.2 ++ [⟨id, q.2.1, q.2.2.1, q.2.2.2⟩])) (0, [])

/-- Bits of an element of a pointer format (R31, R49); untyped and reserved formats have none. -/
def fmtBits (fmt : Nat) : Nat :=
  match fmt with
  | 1 | 2 | 9 | 10 => 8
  | 3 | 6 | 7 => 16
  | 4 | 8 => 32
  | 5 => 64
  | 11 => 4
  | 12 => 56
  | _ => 0

/-- LOP of an accepted lone matrix command; 0 for a C-word. -/
def MCmd.lop (c : MCmd) : Nat := if c.image.getLsbD 31 then (bits c.image 22 8).toNat else 0

/-- A range of a space is touched by an MSTORE or MLOAD: its 2,048 values, or the scale plane that it writes (R158). -/
def MCmd.touches (c : MCmd) (sp a n : Nat) : Bool :=
  let meets := fun (b m : Nat) => decide (b < a + n) && decide (a < b + m)
  (c.lop = 0x14 || c.lop = 0x15) &&
    ((spaceOf c.ra = sp && meets (addrOf c.ra) (256 * fmtBits (fmtOf c.ra))) ||
      (c.lop = 0x14 && c.image.getLsbD 6 && sp = 1 &&
        meets (64 * (bits c.image 32 12 : BitVec 12).toNat) (64 + 32 * (64 / 2 ^ blogOf c.ra))))

/-- The n bytes at a local offset (R114); val is TRAPVAL of its PAGE fault. -/
def loadLocal (val : Word) (o n : Nat) : M Nat := do
  acquired
  let x ← getT
  need (x.pinnedSpan o n) cPAGE val
  pure (x.localRead o n)

/-- The lines of n bytes at a virtual address, as (virtual address, offset in its line, length, global byte address); one that has no
translation is left out. -/
def State.placesOf (s : State) (k : Asker) (p : Word) (va n : Nat) : EngRes (List (Nat × Nat)) × State :=
  (pieces va n).foldl (fun (r : EngRes (List (Nat × Nat)) × State) q =>
    match r with
    | (.ok ps, s) =>
      match s.translate k q.1 p with
      | (.wait, s) => (.wait, s)
      | (.fault _, s) => (.ok ps, s)
      | (.leaf e large, s) =>
        match s.globalAddr (pkgOf k.tile) (leafPa e large q.1) with
        | some a => (.ok (ps ++ [(a, q.2.2.1)]), s)
        | none => (.ok ps, s)
    | r => r) (.ok [], s)

/-- The same for the issuing context, waited for. -/
def places (p : Word) (va n : Nat) : M (List (Nat × Nat)) := fun s =>
  match s.placesOf s.asker p va n with
  | (.ok ps, s) => .ok (ps, s)
  | (_, s) => .error (.waitWith s)

/-- Two address ranges under different virtual addresses may lie in one place: pages are of 64 KiB at least (R35). -/
def mayAlias (a n b m : Nat) : Bool :=
  a / 65536 ≠ b / 65536 || (a + n - 1) / 65536 ≠ (b + m - 1) / 65536
/-- Offsets in their 64 KiB frames meet. -/
def framesMeet (a n b m : Nat) : Bool :=
  (pieces a n).any fun p => (pieces b m).any fun q =>
    decide (p.1 % 65536 < q.1 % 65536 + q.2.2.1) && decide (q.1 % 65536 < p.1 % 65536 + p.2.2.1)

/-- Two lists of byte ranges have a byte in common. -/
def rangesMeet (ps qs : List (Nat × Nat)) : Bool :=
  ps.any fun p => qs.any fun q => decide (p.1 < q.1 + q.2) && decide (q.1 < p.1 + p.2)

/-- The bytes that the lines of a VSTA's probe name; an entry that came back without its probe is translated now. -/
def VstaEntry.places (e : VstaEntry) : List (Nat × Nat) :=
  ((pieces (addrOf e.ptr) e.width).zip e.addrs).map fun (q, g) => (g.1, q.2.2.1)
def vstaPlaces (e : VstaEntry) : M (List (Nat × Nat)) :=
  if e.addrs = [] then places e.ptr (addrOf e.ptr) e.width else pure e.places

/-- A word covered by an earlier VSTA whose pair is not performed, or by an MSTORE or MLOAD of the control context that has not retired: the
access waits (R270, R159, R83), also where the VSTA names the place by another virtual address. Requests that their home has not answered are
served in their order. -/
def afterStores (p : Word) (n : Nat) : M Unit := do
  let k ← getC
  let x ← getT
  if !(← inHelper) && x.engine.queue.any (fun c => c.touches (spaceOf p) (addrOf p) n) then wait
  let a := addrOf p
  let before := k.vsta.filter fun e => spaceOf e.ptr = spaceOf p && decide (e.seq ≤ k.useq)
  if before.any fun e => decide (addrOf e.ptr < a + n) && decide (a < addrOf e.ptr + e.width) then wait
  let named := before.filter fun e => spaceOf p = 0 && mayAlias a n (addrOf e.ptr) e.width && framesMeet a n (addrOf e.ptr) e.width
  if !named.isEmpty then
    let ps ← places p a n
    named.forM fun e => do
      let qs ← vstaPlaces e
      if rangesMeet ps qs then waitKeep

/-! ## Stores -/

/-- The issuing context is a helper whose stores go to its effect buffer (R297). -/
def State.buffers (s : State) : Bool := s.cid ≠ 0 && !s.ctx.nr

/-- The first effect of a helper that cannot be tentative commits its buffer, once all of it is registered (R297). -/
def direct : M Unit := do
  let s ← get
  if s.buffers then
    if !s.commitReady s.cur s.cid then waitKeep
    set (s.goDirect s.cur s.cid)

/-- The effect buffer takes bytes of a line. false: it or a set is full, and the helper has switched to direct mode (R297). -/
def bufferBytes (val : Word) (gl set : Nat) (mask : ByteMask) (data : LineData) : M Bool := do
  let s ← get
  let k := s.ctx
  let x := s.tile s.cur
  match k.effects.find? fun e => e.gl = gl with
  | some e =>
    modC fun k => { k with effects := k.effects.filter (fun e => e.gl ≠ gl) ++
      [{ e with mask := e.mask ||| mask, data := blend (byteBits mask) e.data data }] }
    pure true
  | none =>
    if decide (128 ≤ k.effects.length) || decide (x.pinLimit < x.pinned set + 1) then
      direct
      pure false
    else
      upd fun s => s.trimSet s.cur set (x.ways set - 1)
      modC fun k => { k with effects := k.effects ++ [⟨gl, set, mask, data, val, k.useq⟩] }
      pure true

/-- The words of a buffered store are registered tentatively at their home. -/
def tentative (gl : Nat) (mask : ByteMask) : M Unit := upd fun s =>
  let s := s.serveWrite (pkgOf s.cur) gl (touched mask)
  s.modDir gl fun d => d.addTent (s.commitName s.cur s.cid) (touched mask)

/-- A store at its home, with no copy kept: a C = 0 page, another domain, a forwarded line (R36, R45, R85). The tile's own copies of the words, under
the line's first name gl, are left behind. -/
def homeStore (gl g : Nat) (mask : ByteMask) (data : LineData) : M Unit := upd fun s =>
  (s.engineWrite (pkgOf s.cur) g mask data).modTile s.cur fun x => (x.dropStale g (touched mask)).dropStale gl (touched mask)

/-- A store that registers the words it covers and keeps them D in the array (R79). -/
def cacheStore (f : Fill) (mask : ByteMask) (data : LineData) : M Unit := do
  let s ← get
  match s.openLine s.cur f.va f.gl f.asid f.perm with
  | none => homeStore f.gl f.gl mask data
  | some (s, l) =>
    let words := touched mask
    let need := words &&& ~~~(s.granted s.cur l)
    let s := if need = 0 then s else s.serveRegister s.cur f.gl need
    let base := blend (wordBits need) l.data (readLine s.mem f.gl)
    let l := { l with
      data := blend (byteBits mask) base data
      valid := l.valid ||| words, own := l.own ||| words, dirty := l.dirty ||| words }
    let s := s.modTile s.cur fun x => x.putLine l
    set (if need = 0 then s else s.report f.gl (wordBytes need))

/-- Words of a cached line that the tile has been granted go back to their home: dirty ones are written back, ownership is returned (R73). -/
def State.returnWords (s : State) (t : Nat) (l : Line) (words : WordMask) : State :=
  let o := s.granted t l &&& words
  let d := l.dirty &&& o
  let s := if d = 0 then s else { s with mem := writeLine s.mem l.gl (wordBytes d) l.data }
  if o = 0 then s else s.clearOwner t l.gl o

/-- The same while the registration is under way: the words are written and marked D at once, and the request that registers them is held. One
request registers all the words of a store, so that no other agent has a part of it (R91): those that the tile has been granted go back first. -/
def pendingStore (val : Word) (stage : Stage) (at' : Nat) (f : Fill) (mask : ByteMask) (data : LineData) : M Unit := do
  let s ← get
  let words := touched mask
  match s.openLine s.cur f.va f.gl f.asid f.perm with
  | none =>
    let _ ← hold stage at' words (.store mask data) val (some f) 0 0
  | some (s, l) =>
    if s.completes l words then set (s.storeHere l mask data)
    else
      let s := s.returnWords s.cur l words
      let l := { l with
        data := blend (byteBits mask) l.data data
        valid := l.valid ||| words, own := l.own ||| words, dirty := l.dirty ||| words }
      set (s.modTile s.cur fun x => x.putLine l)
      let _ ← hold stage at' words (.register mask data) val (some f) 0 0

/-- A store past the array, while its request is under way. -/
def passingStore (val : Word) (stage : Stage) (gl at' : Nat) (mask : ByteMask) (data : LineData) : M Unit := do
  modT fun x => x.dropStale gl (touched mask)
  let _ ← hold stage at' (touched mask) (.store mask data) val none 0 0

/-- A store of bytes of one line whose address has been translated: its home serves it now, or holds the request (R79, R297). -/
def storeAt (val : Word) (va : Nat) (mask : ByteMask) (data : LineData) (a : Nat) (leaf : Word) : M Unit := do
  let gl := a / 128
  let _ ← reachLine val true gl (touched mask)
  needSlot gl
  let s ← get
  let buffered ← if s.buffers then bufferBytes val gl (va / 128 % 256) mask data else pure false
  let g ← reachLine val true gl (touched mask)
  let r ← crosses gl
  let s ← get
  let (stage, at') := g.stage gl r
  let fill := s.fillOf va gl leaf
  match r, g with
  | .ok _, .ok g =>
    if buffered then tentative g mask
    else match (if g = gl then fill else none) with
      | some f => cacheStore f mask data
      | none => homeStore gl g mask data
  | r, _ =>
    let next := s.heldIds
    if buffered then
      let _ ← hold stage at' (touched mask) .tentative val (some ⟨gl, va / 128, s.ctx.asid, permOf leaf⟩) 0 0
    else match (if at' = gl then fill else none) with
      | some f => pendingStore val stage at' f mask data
      | none => passingStore val stage gl at' mask data
    match r with
    | .fault _ => loseNow next
    | _ => pure ()

/-- A store of bytes of one line by the issuing context: a hit on owned words completes in the array (R79). -/
def storeLine (val : Word) (va : Nat) (mask : ByteMask) (data : LineData) : M Unit := do
  let s ← get
  let miss : M Unit := do
    let (a, leaf) ← locateM val va .store
    storeAt val va mask data a leaf
  match (s.tile s.cur).line (va / 128) s.ctx.asid with
  | some l =>
    if s.completes l (touched mask) && l.perm.getLsbD 1 && !s.buffers then set (s.storeHere l mask data)
    else miss
  | none => miss

/-- The n low bytes of v are stored at an address in space 0. -/
def storeGlobal (val : Word) (va n v : Nat) : M Unit := do
  acquired
  (pieces va n).forM fun q => storeLine val q.1 (spanBytes q.2.1 q.2.2.1) (placeBytes v q.2.2.2 q.2.1 q.2.2.1)

/-- The n low bytes of v are stored at a local offset; a compact-held line marks its words DIRTY. -/
def storeLocal (val : Word) (o n v : Nat) : M Unit := do
  acquired
  let x ← getT
  need (x.pinnedSpan o n) cPAGE val
  modT fun x => x.localWrite o n v

/-! ## Vector store pairs (R139, R269) -/

/-- The bytes of the active lanes of a store-data entry within a width. -/
def VstdEntry.bytes (d : VstdEntry) (width : Nat) : Nat := spread 4 64 d.lanes % 2 ^ width

/-- A loss that the context's next release reports (R167). -/
def lose (cause : BitVec 8) (p : Word) (seq : Nat) : M Unit := modC fun k => { k with losses := k.losses ++ [⟨cause, p, seq⟩] }

/-- A part of a pair that can no longer be performed is lost (R167, R183), and with it, when its home is out of reach, the visitor copy of the line
that it would have written. -/
def orLose (p : Word) (seq : Nat) (gl : Option Nat) (m : M Unit) : M Unit := fun s =>
  match m s with
  | .error (.trap c _) => lose c p seq (match gl with
    | some gl => if c = cUNREACH then s.poisonVisitor (pkgOf s.cur) gl else s
    | none => s)
  | r => r

/-- A store to the aperture is applied by the tile's Vetch; mask is over bits (R183). -/
def applyAperture (p : Word) (seq inst n mask v : Nat) : M Unit := do
  let by' ← armer
  engM p fun s => s.apertureApply (pkgOf s.cur) (regionOf s.cur) by' p seq (apId p) inst (apOp p) (apBuf p) (apOff p) n mask v

/-- The place of each line of a VSTA, or the cause of its fault: an entry that came back without its probe, in a loaded image, is translated now,
all of it before any line is performed. -/
def storePlaces (a : VstaEntry) : M (List (Except (BitVec 8) (Nat × Word))) :=
  if a.addrs ≠ [] then pure (a.addrs.map .ok)
  else (pieces (addrOf a.ptr) a.width).mapM fun q s =>
    match s.locate s.asker q.1 .store a.ptr with
    | (.ok g e, s) => .ok (.ok (g, e), s)
    | (.fault c, s) => .ok (.error c, s)
    | (.wait, s) => .error (.waitWith s)

/-- The effect buffer of the issuing context takes these lines, by their global lines and sets (R297). -/
def State.roomFor (s : State) (lines : List (Nat × Nat)) : Bool :=
  let x := s.tile s.cur
  let more := lines.filter fun l => !s.ctx.effects.any fun e => e.gl = l.1
  decide (s.ctx.effects.length + more.length ≤ 128) && more.all fun l => decide (x.pinned l.2 + 1 ≤ x.pinLimit)

/-- The store of a paired VSTA and VSTD. Both lines are performed in one step: none before the tile has a hardware slot for each that needs one, and
a helper's buffer room for both or has been committed. -/
def performStore (a : VstaEntry) (d : VstdEntry) : M Unit := do
  let mask := d.bytes a.width
  let v := d.data.toNat
  let bytes := fun (q : Nat × Nat × Nat × Nat) => (BitVec.ofNat 128 (mask / 2 ^ q.2.2.2 % 2 ^ q.2.2.1 * 2 ^ q.2.1) : ByteMask)
  let lines := pieces (addrOf a.ptr) a.width
  match spaceOf a.ptr with
  | 1 =>
    acquired
    lines.forM fun q =>
      modT fun x => if !x.pinnedAt q.1 then x else x.localLine (q.1 / 128) (bytes q) (placeBytes v q.2.2.2 q.2.1 q.2.2.1)
  | 4 =>
    acquired
    direct
    orLose a.ptr a.seq none (applyAperture a.ptr a.seq a.inst a.width (spread 32 64 d.lanes % 2 ^ (8 * a.width)) (v % 2 ^ (8 * a.width)))
  | _ =>
    acquired
    let places ← storePlaces a
    let todo := (lines.zip places).filter fun l => bytes l.1 ≠ 0
    let found := todo.filterMap fun l => l.2.toOption.map fun g => (l.1, g.1)
    let s ← get
    if decide ((s.tile s.cur).hwLeft < found.length) && found.any (fun l => s.far (l.2 / 128)) then waitKeep
    if s.buffers && !s.roomFor (found.map fun l => (l.2 / 128, l.1.1 / 128 % 256)) then direct
    todo.forM fun (q, r) =>
      match r with
      | .ok g => orLose a.ptr a.seq (some (g.1 / 128)) (storeAt a.ptr q.1 (bytes q) (placeBytes v q.2.2.2 q.2.1 q.2.2.1) g.1 g.2)
      | .error c => lose c a.ptr a.seq

/-- The oldest pair is complete, and every unit before its VSTA has issued its compute part (R136). -/
def Ctx.pairReady (k : Ctx) : Bool :=
  match k.vsta, k.vstd with
  | a :: _, _ :: _ => k.backlog.all fun p => decide (a.seq ≤ p.seq)
  | _, _ => false

/-- The oldest complete pair is performed. -/
def performPair : M Unit := do
  let s ← get
  let k := s.ctx
  if k.pairReady then
    if s.now < (s.tile s.cur).flashUntil then waitKeep
    match k.vsta, k.vstd with
    | a :: as, d :: ds =>
      performStore a d
      modC fun k => { k with vsta := as, vstd := ds }
    | _, _ => pure ()

/-- Every pair that may be performed is. -/
def performPairs : Nat → M Unit
  | 0 => pure ()
  | n + 1 => do performPair; performPairs n

/-! ## Releases and acquires (R80, R81) -/

/-- Every load of the context has its value, or is lost: VLD and VGATHER entries too (R80). -/
def State.loadsDone (s : State) : Bool :=
  let k := s.ctx
  ((k.pend.flatMap fun l => l.awaits) ++ k.dqs.toList.flatten.flatMap fun e => e.awaits).all fun a =>
    s.held.all fun h => h.id ≠ a.req || h.answer.isSome || h.lost

/-- An earlier MSTORE of the control context to space 0 has not been granted (R159). -/
def State.mstoresOpen (s : State) : Bool := s.cid = 0 && (s.tile s.cur).engine.queue.any fun c => c.lop = 0x14 && spaceOf c.ra = 0

/-- An earlier store of the context is not granted: its request is held, or a copy of it has still to reach other ranks (R184); an arrival of it waits
for a barrier's next cycle (R104). -/
def State.grantsOpen (s : State) : Bool :=
  let x := s.tile s.cur
  (s.held.any fun h => s.asks h s.cur s.cid && h.open && !h.work.asks) ||
    (s.progs (pkgOf s.cur) (regionOf s.cur)).any (fun g => g.forwards.any fun c => c.tile = s.cur && c.cid = s.cid && c.pid = x.pid) ||
    s.arrivalsWait

/-- An earlier store of the context is not granted, matrix stores among them. -/
def State.storesOpen (s : State) : Bool := s.grantsOpen || s.mstoresOpen

/-- The loss that comes first in program order (R167). -/
def firstLoss : List Loss → Option Loss
  | [] => none
  | l :: ls =>
    match firstLoss ls with
    | some m => if m.seq < l.seq then some m else some l
    | none => some l

/-- The n bytes at an address in space 0, waited for whole. -/
def loadNow (val : Word) (va n : Nat) : M Nat := do
  let (v, awaits) ← loadGlobal val va n
  if awaits.isEmpty then pure v
  else
    let s ← get
    let (v, left, lost) := settle s.held awaits v
    if lost then trap (s.lossCause awaits) val
    else if left.isEmpty then
      set (awaits.foldl (fun s a => s.dropDone a.req) s)
      pure v
    else waitKeep

/-- The format that FMT names for .dec (R268). -/
def decOf : Nat → Option Fmt
  | 6 => some f16
  | 7 => some bf16
  | 9 => some e4m3
  | 10 => some e5m2
  | _ => none

/-- 64 narrow elements as f32 (R58). -/
def decodeLanes (f : Fmt) (v : Nat) : Vec :=
  BitVec.ofNat 2048 ((List.range 64).foldl (fun acc i =>
    acc + (f32.round 0 .arith (f.decode (v / 2 ^ (f.width * i) % 2 ^ f.width))).1 * 2 ^ (32 * i)) 0)

/-- An entry whose bytes are all there is converted, if its VLD says so. -/
def DqEntry.convert (e : DqEntry) : DqEntry :=
  match decOf e.dec with
  | some f => if e.awaits.isEmpty then { e with val := decodeLanes f e.val.toNat, dec := 0 } else e
  | none => e

/-- Entries of the data queues take the bytes that have been answered. Bytes of a lost request are +0, and the loss is
reported by the next release (R370). -/
def State.fillQueues (s : State) : State :=
  let k := s.ctx
  let one := fun (e : DqEntry) =>
    let (v, left, _) := settle s.held e.awaits e.val.toNat
    DqEntry.convert { e with val := BitVec.ofNat 2048 v, awaits := left }
  let lost := (k.dqs.toList.flatten.flatMap fun e => e.awaits.map fun a => (a.req, e.seq)).filterMap fun (r, seq) =>
    match s.held.find? fun h => h.id = r && h.lost with
    | some h => some (Loss.mk h.cause h.ptr seq)
    | none => none
  let s := s.setCtx { k with dqs := k.dqs.map fun q => q.map one, losses := k.losses ++ lost }
  (k.dqs.toList.flatten.flatMap fun e => e.awaits).foldl (fun s a => s.dropDone a.req) s

/-- A release of the context (R80): it waits for its loads and for stores that a test finds open, and reports what was lost before it (R167). -/
def releaseAfter (storesWait : State → Bool) : M Unit := do
  performPairs 8
  upd State.fillQueues
  let s ← get
  if !s.loadsDone || storesWait s then waitKeep
  match firstLoss s.ctx.losses with
  | some l =>
    modC fun k => { k with losses := [] }
    trapKeep l.cause l.ptr
  | none => pure ()

def release : M Unit := releaseAfter State.storesOpen

/-- The flash of an acquire (R81). -/
def flash : M Unit := upd fun s => s.flashTile s.cur

/-! ## Atomics (R230 to R232) -/

/-- The access of an AMO: its checks from translation on, and the old value or the request that will give it. -/
def amoAccess (p : Word) (op w x cmp : Nat) : M (Nat × List Await) := do
  acquired
  let (a, _) ← locateM p (addrOf p) .amo
  let gl := a / 128
  let words := spanWords (a % 128) (w / 8)
  let _ ← reachLine p true gl words
  direct
  let g ← reachLine p true gl words
  let r ← crosses gl
  match r, g with
  | .ok _, .ok g =>
    let s ← get
    let (old, f, s) := s.homeAmo (pkgOf s.cur) (g * 128 + a % 128) op w x cmp
    set (s.modTile s.cur fun x => (x.dropStale gl words).dropStale g words)
    raise f
    pure (old, [])
  | r, g =>
    let (stage, at') := g.stage gl r
    let id ← hold stage at' words (.amo op (w = 64) (a % 128) (BitVec.ofNat 64 x) (BitVec.ofNat 64 cmp)) p none 0 0
    modT fun x => x.dropStale gl words
    match r with
    | .fault _ => loseNow id
    | _ => pure ()
    pure (0, [⟨id, a % 128, w / 8, 0⟩])

/-! ## Delivering stores and aperture stores (R176, R183) -/

/-- The delivering store that the unit in hand has sent, and whose answer it waits for (R176). -/
def State.delivery (s : State) (p : Word) : Option Held :=
  s.held.find? fun h => s.asks h s.cur s.cid && h.ptr = p && h.unit = unitAddr s.ctx.upc &&
    match h.work with
    | .deliver _ _ => true
    | _ => false

/-- The answer of the slot: refused, the store traps. -/
def answered (p : Word) (ok : Bool) : M Unit := if ok then pure () else trapKeep cPIPSPENT p

/-- The wait of a delivering store that has passed its probe: what waits with nothing changed keeps that mark, and a trap takes it off. -/
def afterProbe (m : M α) : M α := fun s =>
  match m s with
  | .error .wait => .error (.waitWith s)
  | .error (.trapWith c v s) => .error (.trapWith c v (s.setCtx { s.ctx with probed := none }))
  | r => r

/-- A delivering store of v that may be performed now is sent to tile t of package q. -/
def sendDelivery (q t : Nat) (p v : Word) : M Unit := do
  let s ← get
  let via := s.ptrVia (pkgOf s.cur) p
  match s.sendAsk (pkgOf s.cur) q via 8 v.toNat with
  | (.ok _, s) =>
    let (s, ok) := s.pipDeliver t (pipSlot p) (pipGen p) v false
    set s
    answered p ok
  | (.fault c, s) =>
    set s
    lose c p s.ctx.useq
  | (.wait, s) =>
    set s
    let id ← hold .queue (q * 2 ^ 45) 0 (.deliver v none) p none 0 0
    upd fun s => s.modHeld id fun h => { h with via := via }
    waitKeep

/-- A delivering store: a release, answered by the slot; it waits for its path as other requests do. A target that is lost after the probe
leaves a loss for the context's next release (R167, R176). -/
def deliver (p : Word) (v : Word) : M Unit := do
  need (bits p 0 8 = 0) cALIGN p
  need (decide (ptrTile p < 2688)) cBADHANDLE p
  need (decide (64 ≤ pipSlot p)) cPIPSPENT p
  let s ← get
  match s.delivery p with
  | some h =>
    if h.open then waitKeep
    set (s.dropHeld h.id)
    if h.lost then lose h.cause p s.ctx.useq
    else answered p (h.answer ≠ some 0)
  | none =>
    match s.pkgOfDev (ptrDev p) with
    | none => trap cUNREACH p
    | some q =>
      let t := q * 4096 + ptrTile p
      need (s.tileReached (pkgOf s.cur) t || s.ctx.probed = some s.ctx.useq) cUNREACH p
      modC fun k => { k with probed := some k.useq }
      afterProbe do
        release
        direct
        needSlot (q * 2 ^ 45)
      modC fun k => { k with probed := none }
      let s ← get
      if s.tileReached (pkgOf s.cur) t then sendDelivery q t p v else lose cUNREACH p s.ctx.useq

/-- The issuing tile's package takes accesses to the aperture: with the APER feature alone (R378). -/
def State.takesAperture (s : State) : Bool := (s.dev (pkgOf s.cur)).featAck.getLsbD 7

/-- A scalar store of n bytes to the aperture. -/
def apertureStore (p : Word) (n v : Nat) : M Unit := do
  acquired
  let s ← get
  let inst ← engM p fun s => s.apertureCheck s.cur p n
  direct
  applyAperture p s.ctx.useq inst n (ones (8 * n)) v

end Sys2Proof.Machine
end

