-- ==== Sys2Proof/Machine/Flags.lean ====
section
/-! DEFINITION. The words of the control and status registers: FLAGS and FIRSTPC (R244, R245), the trap registers (R342), the
coordinates (R13), the ring and receive-ring registers (R153, R154, R305), the GL. registers (R361 to R365), and the checks that
SYSR and SYSW make (R199, R313, R358). -/
namespace Sys2Proof.Machine

/-- A flag as a bit of a word. -/
def bitAt (b : Bool) (n : Nat) : Word := if b then BitVec.ofNat 64 (2 ^ n) else 0

/-! ## Registers of the context -/

/-- STATUS (R342) of context c; posts tells that a helper's trap waits to be taken. -/
def Ctx.statusWord (k : Ctx) (c : Nat) (posts : Bool) : Word :=
  bitAt k.priv 0 ||| bitAt k.ppriv 1 ||| bitAt k.tip 2 ||| bitAt (c = 0 && posts) 3 ||| bitAt (c ≠ 0) 4 ||| bitAt k.nr 5

/-- FIRSTPC (R245). -/
def Ctx.firstWord (k : Ctx) : Word := bitAt k.firstV 63 ||| zext (k.firstUnit ++ 0#3)

/-- A SYSW to FLAGS writes all eleven bits and clears FIRSTPC.V (R244). -/
def Ctx.writeFlags (k : Ctx) (v : Word) : Ctx := { k with flags := bits v 0 11, firstV := false }

/-- TRAPCAUSE (R342). -/
def Ctx.causeWord (k : Ctx) : Word := bitAt k.mx 9 ||| bitAt k.stream 8 ||| zext k.cause

/-- PIX (R342). -/
def Ctx.pixWord (k : Ctx) : Word := bitAt k.pixK 63 ||| bitAt k.pixC 62 ||| zext k.pixIndex

/-- BWANYPOS (R106). -/
def Ctx.bwanyWord (k : Ctx) : Word := zext k.bwanyLow ||| zext (k.bwanyHigh ++ 0#4)

/-- RECVTAIL (R305). -/
def Ctx.recvWord (k : Ctx) : Word := zext k.recvTail ||| zext (k.recvCount ++ 0#16)

/-! ## The ring (R153, R154) -/

/-- The member number at ring position p. -/
def Engine.member (e : Engine) (p : Nat) : Nat := (bits e.order (3 * p) 3).toNat
/-- P. -/
def Engine.ringSize (e : Engine) : Nat := 2 ^ e.logp.toNat
/-- The positions that name a member. -/
def Engine.positions (e : Engine) (m : Nat) : List Nat := (List.range e.ringSize).filter fun p => e.member p = m
/-- POS: the first of them, 0 when there is none. -/
def Engine.pos (e : Engine) (m : Nat) : Nat := (e.positions m).headD 0
/-- IDX = (POS - RSTEP) mod P. -/
def Engine.idx (e : Engine) (m : Nat) : Nat := (e.pos m + 256 - e.rstep.toNat) % e.ringSize
/-- R153: ring mode is off, the tile's member is absent, or two positions name one member. -/
def Engine.ringBad (e : Engine) (m : Nat) : Bool :=
  !e.en || (e.positions m).isEmpty || (List.range e.ringSize).any fun p => decide (1 < (e.positions (e.member p)).length)

def Engine.ringcfgWord (e : Engine) (m : Nat) : Word :=
  zext (e.order ++ 0#8) ||| BitVec.ofNat 64 (e.pos m * 32) ||| zext (e.logp ++ 0#3) ||| bitAt e.en 0
def Engine.ringidxWord (e : Engine) (m : Nat) : Word := zext (e.rstep ++ 0#3) ||| BitVec.ofNat 64 (e.idx m)

/-- The engine has commands that will retire by themselves (R160). -/
def Engine.busy (e : Engine) : Bool := !e.queue.isEmpty && !e.stopped

/-! ## Coordinates (R13) -/

/-- The key of a die's row in the quarantine map. -/
def rowKey (d y : Nat) : Nat := 24 * d + y
def State.pcol (s : State) (t : Nat) : Nat :=
  pcolOf (mget 0 (s.dev (pkgOf t)).rows (rowKey (dieOf t) (rowOf t))) (lcolOf t)
def State.tileidWord (s : State) (t : Nat) : Word :=
  BitVec.ofNat 64 (s.pcol t * 2 ^ 24 + dieOf t * 2 ^ 22 + lcolOf t * 2 ^ 17 + rowOf t * 2 ^ 12 + numOf t)
def clusteridWord (t : Nat) : Word := BitVec.ofNat 64 (cirOf t * 2 ^ 12 + clusterOf t * 8 + memberOf t)
/-- FEAT0 (R377). -/
def feat0 : Word := 0xFF

/-! ## GL. registers (R361 to R365) -/

/-- The allowances are HELD (R363). -/
def Fabric.darkNow (f : Fabric) : Bool := f.st = .dark || f.st = .relock
/-- STATE of GL.PORTSTAT. -/
def Fabric.portState (f : Fabric) (p : Nat) : Nat :=
  if f.nact p = 8 then 2 else if 0 < f.nact p then 3
  else if (List.range 8).any fun i => (f.lane (8 * p + i)).st = 2 then 1 else 0
def Fabric.portWord (f : Fabric) (p : Nat) : Word :=
  BitVec.ofNat 64 (min (mget 0 f.replay p) (2 ^ 32 - 1) * 2 ^ 32 + (if f.darkNow then 2 ^ 16 else 0) + f.nact p * 2 ^ 12 +
    f.lanesUp p * 16 + f.portState p)
def Lane.word (l : Lane) : Word :=
  BitVec.ofNat 64 (min l.retrains 255 * 2 ^ 16 + (if l.en then 16 else 0) + (if l.pend then 8 else 0) + l.st.toNat)
def FabricState.code : FabricState → Nat
  | .run => 0
  | .drain => 1
  | .dark => 2
  | .relock => 3
def Fabric.drainWord (f : Fabric) : Word := BitVec.ofNat 64 (f.code % 256 * 2 ^ 16 + f.st.code * 16)
/-- Flits of a package that wait in the send queue of a position: requests, and spans of contributions that were asked for (R363, R371). -/
def State.queuedTo (s : State) (p n : Nat) : Nat :=
  let here := fun (q : Nat) => (s.dev q).pos.toNat = n && s.sameDomain p q && p ≠ q
  (s.held.filter fun h => h.away && h.stage = .queue && pkgOf h.tile = p && here (pkgOfGl h.gl)).length +
    (((s.dev p).regions.flatMap fun r => r.2.progs).map fun g => g.out.elim 0 fun c =>
      if c.pulled.isSome && here c.pkg then c.queued else 0).sum
/-- GL.ALLOW (R363): HELD is that of a destination in the domain (R369). -/
def State.allowWord (s : State) (p n : Nat) : Word :=
  let d := s.dev p
  let f := d.fabric
  let a := f.allow n
  bitAt a.withhold 63 ||| bitAt (f.darkNow && n ≠ d.pos.toNat && (s.pkgAtPos p n).isSome) 62 |||
    BitVec.ofNat 64 (s.queuedTo p n % 2 ^ 24 * 2 ^ 32 + a.send % 2 ^ 24)

/-- An index of GL.SLOTTBL. -/
def Fabric.slotWord (f : Fabric) (i : Nat) : Word :=
  if i < 64 then mget 0 f.slots i else if i < 128 then mget 0 f.shadowSlots (i - 64)
  else if i < 512 then mget 0 f.paths (i - 256) else mget 0 f.shadowPaths (i - 512)
/-- The fields of a shadow slot or path entry that a SYSW writes (R361). -/
def Fabric.writeSlot (f : Fabric) (i : Nat) (v : Word) : Fabric :=
  if i < 128 then { f with shadowSlots := mset f.shadowSlots (i - 64) (v &&& 0xBF00) }
  else { f with shadowPaths := mset f.shadowPaths (i - 512) (v &&& 0x7F) }

/-! ## Reading a CSR (R199, R313) -/

/-- The index lies in its register's range (R358). -/
def indexOk (n : Nat) (i : Word) : Bool :=
  let i := i.toNat
  match n with
  | 0x200 => i < 128 || (256 ≤ i && i < 768)
  | 0x203 => i < 16
  | 0x204 | 0x205 => i < 128
  | 0x208 => i < 64
  | _ => true

/-- Reading needs supervisor privilege (R342, R358). -/
def csrReadPriv (n : Nat) : Bool := (4 ≤ n && n ≤ 7) || n = 0x10 || 0x200 ≤ n
/-- Writing needs supervisor privilege. -/
def csrWritePriv (n : Nat) : Bool := n = 0 || csrReadPriv n
/-- Every field of the register, or of the indexed entry, is RO (R313). -/
def csrReadOnly (n : Nat) (i : Word) : Bool :=
  n = 5 || n = 0xA || (0x11 ≤ n && n ≤ 0x20) || n = 0x203 || (n = 0x200 && (i.toNat < 64 || (256 ≤ i.toNat && i.toNat < 512)))

/-- The value of a CSR for the issuing context. -/
def State.csr (s : State) (n : Nat) (i : Word) : Word :=
  let k := s.ctx
  let x := s.tile s.cur
  let d := s.dev (pkgOf s.cur)
  let f := d.fabric
  match n with
  | 0x000 => k.statusWord s.cid (!x.posts.isEmpty)
  | 0x001 => zext k.flags
  | 0x002 => zext k.frm
  | 0x003 => k.firstWord
  | 0x004 => zext (k.trapPc ++ 0#3)
  | 0x005 => k.causeWord
  | 0x006 => k.trapVal
  | 0x007 => k.pixWord
  | 0x008 => ofBool k.trust
  | 0x009 => x.engine.ringcfgWord (memberOf s.cur)
  | 0x00A => x.engine.ringidxWord (memberOf s.cur)
  | 0x00B => k.bwanyWord
  | 0x00C => zext (k.recvBase ++ 0#6)
  | 0x00D => zext k.recvSize
  | 0x00E => k.recvWord
  | 0x010 => zext (k.evBase ++ 0#3)
  | 0x011 => zext k.asid
  | 0x012 => BitVec.ofNat 64 s.cid
  | 0x013 => s.tileidWord s.cur
  | 0x014 => clusteridWord s.cur
  | 0x015 => BitVec.ofNat 64 (regionOf s.cur)
  | 0x016 => BitVec.ofNat 64 d.number
  | 0x018 => BitVec.ofNat 64 (s.time (pkgOf s.cur))
  | 0x019 => BitVec.ofNat 64 (s.cycles (pkgOf s.cur) - x.born)
  | 0x01C => feat0
  | 0x020 => zext d.featAck
  | 0x200 => f.slotWord i.toNat
  | 0x201 => zext (f.lenNext ++ 0#2 ++ f.len)
  | 0x202 => zext (f.guardNext ++ 0#6 ++ f.guard)
  | 0x203 => f.portWord i.toNat
  | 0x204 => (f.lane i.toNat).word
  | 0x205 => zext (f.lane i.toNat).prefec
  | 0x206 => zext (f.failn ++ 0#8 ++ f.thresh)
  | 0x207 => f.drainWord
  | 0x208 => s.allowWord (pkgOf s.cur) i.toNat
  | 0x209 => zext f.at'
  | _ => 0

/-- GUARD values below 5 are held as 5, and values above 100 as 100 (R362). -/
def holdGuard (v : BitVec 10) : BitVec 10 := if v.toNat < 5 then 5 else if 100 < v.toNat then 100 else v

/-- A SYSW to a CSR that has no row of its own (R313): its RW fields take the operand's bits. -/
def State.setCsr (s : State) (n : Nat) (i v : Word) : State :=
  let p := pkgOf s.cur
  let ctx := fun (f : Ctx → Ctx) => s.setCtx (f s.ctx)
  let fab := fun (f : Fabric → Fabric) => s.modDev p fun d => { d with fabric := f d.fabric }
  match n with
  | 0x000 => ctx fun k => { k with tip := v.getLsbD 2, ppriv := v.getLsbD 1 }
  | 0x002 => ctx fun k => { k with frm := bits v 0 2 }
  | 0x003 => ctx fun k => { k with firstV := v.getLsbD 63, firstUnit := bits v 3 49 }
  | 0x004 => ctx fun k => { k with trapPc := bits v 3 49 }
  | 0x006 => ctx fun k => { k with trapVal := v }
  | 0x007 => ctx fun k => { k with pixK := v.getLsbD 63, pixC := v.getLsbD 62, pixIndex := bits v 0 16 }
  | 0x008 => ctx fun k => { k with trust := v.getLsbD 0 && (s.dev p).featAck.getLsbD 2 }
  | 0x00B => ctx fun k => { k with bwanyLow := bits v 0 3, bwanyHigh := bits v 4 3 }
  | 0x010 => ctx fun k => { k with evBase := bits v 3 49 }
  | 0x200 => fab fun f => f.writeSlot i.toNat v
  | 0x201 => fab fun f => { f with lenNext := bits v 4 2 }
  | 0x202 => fab fun f => { f with guardNext := holdGuard (bits v 16 10) }
  | 0x205 => fab fun f => { f with lanes := mset f.lanes i.toNat { f.lane i.toNat with prefec := bits v 0 48 } }
  | 0x206 => fab fun f => { f with failn := bits v 40 8, thresh := bits v 0 32 }
  | _ => s

/-- SYSR and SYSW first wait for earlier matrix commands and AMOs (R313); the commands of a stopped engine wait for ERET. -/
def settled : M Unit := do
  let s ← get
  if s.cid = 0 && (s.tile s.cur).engine.busy then wait
  if !s.loadsDone then wait

/-- The checks of an access to a CSR: privilege, index, and a register or entry that is all RO (R199, R313, R358). -/
def csrCheck (write : Bool) (n : Nat) (i : Word) : M Unit := do
  let k ← getC
  need (k.priv || !(if write then csrWritePriv n else csrReadPriv n)) cPRIV k.unit
  need (indexOk n i) cILLEGAL k.unit
  need (!(write && csrReadOnly n i)) cPRIV k.unit

end Sys2Proof.Machine
end

