-- ==== Sys2Proof/Machine/Bar0.lean ====
section
/-! DEFINITION. Host writes to the BAR0 registers that have no row of their own: YGTBASE and YAGE (R325), YSVEC and YSVASID
(R351), YFTBASE (R354), YEVBASE (R368). Host reads change nothing. -/
namespace Sys2Proof.Machine

/-- A write to a BAR0 register of Yarrow. -/
def Yarrow.bar0 (y : Yarrow) (off : Nat) (v : Word) : Yarrow :=
  match off with
  | 0x10008 => if y.en then y else { y with gtBase := bits v 12 40 }
  | 0x10010 => { y with age := max (bits v 0 16).toNat 1 }
  | 0x10018 => { y with svEntry := bits v 3 49, svEn := v.getLsbD 0 }
  | 0x10020 => { y with svAsid := bits v 0 16 }
  | 0x10028 => { y with ftBase := bits v 19 33 }
  | 0x10030 => { y with evEntry := bits v 3 49, evEn := v.getLsbD 0 }
  | _ => y

/-- A host write to BAR0 of a package, which answers from stage 4 of its bring-up on (R373). -/
def State.bar0 (s : State) (p off : Nat) (v : Word) : State :=
  s.modDev p fun d => if d.barOpen then { d with yarrow := d.yarrow.bar0 off v } else d

/-- What a host read of BAR0 of a package finds: Yarrow's registers (R325, R351, R354, R368), FEATACK and FEATn (R377). It changes nothing. -/
def State.bar0Read (s : State) (p off : Nat) : Word :=
  let d := s.dev p
  let y := d.yarrow
  match off with
  | 0x10000 => zext (y.qtBase ++ 0#12) ||| bitAt y.en 0
  | 0x10008 => zext (y.gtBase ++ 0#12)
  | 0x10010 => BitVec.ofNat 64 y.age
  | 0x10018 => zext (y.svEntry ++ 0#3) ||| bitAt y.svEn 0
  | 0x10020 => zext y.svAsid
  | 0x10028 => zext (y.ftBase ++ 0#19)
  | 0x10030 => zext (y.evEntry ++ 0#3) ||| bitAt y.evEn 0
  | 0x10038 => zext d.featAck
  | 0x10040 => feat0
  | _ => 0

end Sys2Proof.Machine
end

