-- ==== Sys2Proof/Machine/Operands.lean ====
section
/-! DEFINITION. The operands of A-words and lone vector units: elements by type (R248), source and destination codes (R201,
R202), readiness (R141 to R144), data-queue pops (R138), mailboxes (R132), masks (R133), and the result queue (R129). -/
namespace Sys2Proof.Machine

/-! ## Elements (R248) -/

/-- Width of an element of a type. -/
def elemWidth (t : BitVec 3) : Nat :=
  match t.toNat with
  | 0 | 1 | 2 => 32
  | 3 | 4 | 5 => 16
  | 6 => 8
  | _ => 64

/-- n32 is the one unsigned type. -/
def isSigned (t : BitVec 3) : Bool := t ≠ 1
/-- f32, bf16, f16. -/
def isFloat (t : BitVec 3) : Bool := t = 2 || t = 3 || t = 4
/-- The format of a floating type. -/
def fmtOfType (t : BitVec 3) : Fmt := if t = 3 then bf16 else if t = 4 then f16 else f32

/-- The elements of width w of a vector, element 0 first. -/
def elems (w : Nat) (v : Vec) : List Nat := (List.range (2048 / w)).map fun i => v.toNat / 2 ^ (w * i) % 2 ^ w

/-- Elements of width w packed, element 0 lowest. -/
def packNat (w : Nat) : List Nat → Nat
  | [] => 0
  | x :: xs => x % 2 ^ w + 2 ^ w * packNat w xs

def pack (w : Nat) (l : List Nat) : Vec := BitVec.ofNat 2048 (packNat w l)

/-- An element as an integer of its type. -/
def elemInt (t : BitVec 3) (x : Nat) : Int :=
  let w := elemWidth t
  if isSigned t && decide (2 ^ (w - 1) ≤ x) then (x : Int) - 2 ^ w else x

/-- An integer as an element of w bits. -/
def wrap (w : Nat) (x : Int) : Nat := (x % 2 ^ w).toNat

/-- Mask bit i governs 32-bit lane i, or 64-bit lane i for x64 (R133). -/
def activeBit (w : Nat) (m : Word) (k : Nat) : Bool := if w = 64 then m.getLsbD k else m.getLsbD (k * w / 32)

/-- The bits of a vector that a mask makes active. -/
def activeBits (w : Nat) (m : Word) : Vec :=
  BitVec.ofNat 2048 (if w = 64 then spread 64 32 (bits m 0 32) else spread 32 64 m)

/-- The mask delivered as lanes: all ones where a bit is set (R202). -/
def maskLanes (w : Nat) (m : Word) : Vec := activeBits w m

/-! ## Codes -/

/-- The constant sources (R248). -/
def constSrc (t : BitVec 3) (code : Nat) : Vec :=
  let w := elemWidth t
  let n := 2048 / w
  match code with
  | 57 => pack w (List.replicate n (if t = 2 then 0x3F800000 else if t = 3 then 0x3F80 else if t = 4 then 0x3C00 else 1))
  | 58 => pack w ((List.range n).map fun (k : Nat) =>
      if isFloat t then ((fmtOfType t).round 0 .arith (FV.ofInt (k : Int))).1 else k % 2 ^ w)
  | _ => 0

/-- Codes 16 to 47 name v0 to v31. -/
def isV (c : BitVec 6) : Bool := decide (16 ≤ c.toNat) && decide (c.toNat < 48)
def isMb (c : BitVec 6) : Bool := decide (48 ≤ c.toNat) && decide (c.toNat < 56)
def isPop (c : BitVec 6) : Bool := decide (59 ≤ c.toNat) && decide (c.toNat < 63)

/-- R130: a code names vN with N at or beyond the banks held. -/
def Ctx.rangeBad (k : Ctx) (c : BitVec 6) : Bool := isV c && decide (8 * k.banks ≤ c.toNat - 16)

/-- The first code of a list that is out of range traps REGRANGE. -/
def inRange (cs : List (BitVec 6)) : M Unit := do
  let k ← getC
  match cs.find? k.rangeBad with
  | some c => trap cREGRANGE (zext c)
  | none => pure ()

/-- The unit at which a context waits. -/
def Ctx.waitingUnit (k : Ctx) : Word :=
  match k.backlog with
  | p :: _ => p.image
  | [] => k.unit

/-! ## Waiting for queues and mailboxes (R132, R138) -/

/-- Entry i of a data queue exists and is filled. -/
def Ctx.popReady (k : Ctx) (dq i : Nat) : Bool :=
  match (k.dqs.getD dq [])[i]? with
  | some e => e.filled && e.awaits.isEmpty
  | none => false

/-- The pops of a list of source codes find filled entries; several pops of one queue take successive entries. -/
def Ctx.popsReady (k : Ctx) (cs : List (BitVec 6)) : Bool :=
  (List.range 4).all fun d => (List.range (cs.filter fun c => c.toNat = 59 + d).length).all fun i => k.popReady d i

/-- The queue that a pop of the codes finds with no entry at all. -/
def Ctx.popEmpty (k : Ctx) (cs : List (BitVec 6)) : Option Nat :=
  (List.range 4).find? fun d => decide ((k.dqs.getD d []).length < (cs.filter fun c => c.toNat = 59 + d).length)

/-- The cycle from which the mailboxes among source codes may be read (R132, R141). -/
def Ctx.mailboxReady (k : Ctx) (cs : List (BitVec 6)) : Nat :=
  cs.foldl (fun n c => if isMb c then max n (k.mbs.getD (c.toNat - 48) Mailbox.reset).ready else n) 0

/-- Wait for the pops and mailbox reads of source codes; a helper's read of an empty mailbox traps (R132). -/
def awaitSources (cs : List (BitVec 6)) : M Unit := do
  upd State.fillQueues
  let k ← getC
  if !k.popsReady cs then waitKeep
  match cs.find? fun c => isMb c && !(k.mbs.getD (c.toNat - 48) Mailbox.reset).full with
  | some c => block (BitVec.ofNat 64 (c.toNat - 48))
  | none => upd fun s => s.issueAt (k.mailboxReady cs)

/-! ## Readiness (R141 to R144) -/

def Ctx.vreg (k : Ctx) (n : Nat) : VReg := k.vregs.getD n VReg.reset
def Ctx.kreg (k : Ctx) (n : Nat) : KReg := k.kregs.getD (n - 1) KReg.reset
def Ctx.qent (k : Ctx) (n : Nat) : QEntry := k.queue.getD n QEntry.reset

/-- The cycle from which a source code's value may be read; queues, mailboxes and constants are not covered by W. -/
def Ctx.readyAt (k : Ctx) (c : BitVec 6) : Nat :=
  if c.toNat < 16 then (k.qent c.toNat).ready else if isV c then (k.vreg (c.toNat - 16)).ready else 0

/-- STRICT: an operand not ready traps STALLCOUNT; field is 0 for A, 1 for B, 2 for an accumulating destination (R143). -/
def checkReady (field : Nat) (c : BitVec 6) : M Unit := do
  let s ← get
  need (s.ctx.trust || decide (s.ctx.readyAt c ≤ s.now)) cSTALLCOUNT (BitVec.ofNat 64 (64 * field + c.toNat))

/-- The same for a mask register; field 3 is the mask-select field, else the operand field that names it. -/
def checkMask (field n : Nat) : M Unit := do
  let s ← get
  need (n = 0 || s.ctx.trust || decide ((s.ctx.kreg n).ready ≤ s.now)) cSTALLCOUNT (BitVec.ofNat 64 (64 * field + 56 + n))

/-- A mask by number; an unready one reads its previous value under TRUST. k0 is all lanes. -/
def State.maskVal (s : State) (n : Nat) : Word :=
  if n = 0 then BitVec.allOnes 64
  else let r := s.ctx.kreg n; if r.ready ≤ s.now then r.val else r.prev

/-! ## Reading sources -/

/-- A mailbox is emptied; a held pip fill enters it (R132, R175). -/
def emptyMailbox (n : Nat) : M Unit := do
  modC fun k => { k with mbs := k.mbs.setIfInBounds n { k.mbs.getD n Mailbox.reset with full := false } }
  upd fun s => s.pipTurn s.cur s.cid n

/-- A mailbox's value in every lane. -/
def mbLanes (t : BitVec 3) (v : Word) : Vec :=
  if elemWidth t = 64 then pack 64 (List.replicate 32 v.toNat) else pack 32 (List.replicate 64 (v.toNat % 2 ^ 32))

/-- read_src (R201, R247). -/
def readSrc (t : BitVec 3) (c : BitVec 6) : M Vec := do
  let s ← get
  let k := s.ctx
  let n := c.toNat
  if n < 16 then
    let e := k.qent n
    pure (if e.ready ≤ s.now then e.val else e.old)
  else if n < 48 then
    let r := k.vreg (n - 16)
    pure (if r.ready ≤ s.now then r.val else r.prev)
  else if n < 56 then
    let v := (k.mbs.getD (n - 48) Mailbox.reset).val
    emptyMailbox (n - 48)
    pure (mbLanes t v)
  else if n < 59 then pure (constSrc t n)
  else
    let d := n - 59
    match k.dqs.getD d [] with
    | e :: rest =>
      modC fun k => { k with dqs := k.dqs.setIfInBounds d rest }
      pure e.val
    | [] => pure 0

/-- Two sources: A first; one mailbox named twice is read once (R201). -/
def readTwo (t : BitVec 3) (a b : BitVec 6) : M (Vec × Vec) := do
  let x ← readSrc t a
  if isMb a && a = b then pure (x, x)
  else
    let y ← readSrc t b
    pure (x, y)

/-! ## Destinations (R129, R202, R249) -/

/-- An entry is made: its slot held the entry made 16 results earlier, or +0 (R144). -/
def Ctx.pushEntry (k : Ctx) (v : Vec) (ready : Nat) : Ctx :=
  let out := k.qent 15
  { k with queue := Vector.ofFn fun i => if i.val = 0 then ⟨v, ready, if out.ready = 0 then 0 else out.val⟩ else k.qent (i.val - 1) }

def Ctx.setVreg (k : Ctx) (n : Nat) (v : Vec) (ready : Nat) : Ctx :=
  { k with vregs := k.vregs.set n ⟨v, ready, (k.vreg n).val⟩ }

/-- A mailbox is written by MBW or an A-word, and may be read from cycle ready on (R132). -/
def Ctx.setMailbox (k : Ctx) (n : Nat) (v : Word) (ready : Nat) : Ctx :=
  { k with mbs := k.mbs.setIfInBounds n ⟨v, true, 0, false, ready⟩ }

/-- A mailbox fills, with a value that may be read lat cycles from now (R132, R141): an event of R314. -/
def fillMailbox (n : Nat) (lat : Nat) (v : Word) : M Unit := do
  upd fun s => (s.setCtx (s.ctx.setMailbox n v (s.now + lat))).wake s.cur s.cid

def Ctx.setKreg (k : Ctx) (n : Nat) (v : Word) (ready : Nat) : Ctx :=
  { k with kregs := k.kregs.setIfInBounds (n - 1) ⟨v, ready, (k.kreg n).val⟩ }

/-- A write of kN by the compute stream is also in what a later unit of the address stream had before it (R135, R137). -/
def Ctx.writeKreg (k : Ctx) (compute : Bool) (n : Nat) (v : Word) (ready : Nat) : Ctx :=
  let r : KReg := ⟨v, ready, (k.kreg n).val⟩
  let k := k.setKreg n v ready
  if compute then { k with backlog := k.backlog.map fun p => { p with kregs := p.kregs.setIfInBounds (n - 1) r } } else k

/-- write_dest of a result (R249): r where the mask is active; elsewhere the old vN, or +0. lat is its latency. -/
def writeDest (t : BitVec 3) (d : BitVec 6) (lat : Nat) (r : Vec) (m : Word) : M Unit := do
  let s ← get
  let w := elemWidth t
  let old := if isV d then (s.ctx.vreg (d.toNat - 16)).val else 0
  let v := blend (activeBits w m) old r
  if d = 56 then pure ()
  else
    modC fun k => k.pushEntry v (s.now + lat)
    if isV d then modC fun k => k.setVreg (d.toNat - 16) v (s.now + lat)
    if isMb d then fillMailbox (d.toNat - 48) lat (BitVec.ofNat 64 (v.toNat % 2 ^ w))

/-- The destination of a mask producer (R202, R256): bits of p where m is active. -/
def writeMask (t : BitVec 3) (d : BitVec 6) (lat : Nat) (p m : Word) : M Unit := do
  let s ← get
  let w := elemWidth t
  let cut : Word := if w = 64 then zext (bits p 0 32) else p
  let k := s.ctx
  if 57 ≤ d.toNat then
    let n := d.toNat - 56
    let old := (k.kreg n).val
    let v := blend m old p
    modC fun k => k.writeKreg s.compute n (if w = 64 then zext (bits v 0 32) else v) (s.now + lat)
  else if d = 56 then pure ()
  else if isMb d then
    modC fun k => k.pushEntry (maskLanes w (cut &&& m)) (s.now + lat)
    fillMailbox (d.toNat - 48) lat (cut &&& m)
  else writeDest t d lat (maskLanes w (cut &&& m)) m

/-! ## A whole A-word (R247) -/

/-- The checks and reads of an A-word: ranges, queues and mailboxes, readiness, then the sources in order. srcs lists the
source fields the operation reads; acc is an accumulating destination's code. -/
def operands (w : AW) (two : Bool) (acc : Option (BitVec 6)) : M (Vec × Vec × Word) := do
  let srcs := if two then [w.a, w.b] else [w.a]
  inRange (srcs ++ [w.d])
  awaitSources (if two && isMb w.a && w.a = w.b then [w.a] else srcs)
  checkReady 0 w.a
  if two then checkReady 1 w.b
  match acc with
  | some c => checkReady 2 c
  | none => pure ()
  checkMask 3 w.k.toNat
  let s ← get
  let m := s.maskVal w.k.toNat
  if two then
    let (x, y) ← readTwo w.t w.a w.b
    pure (x, y, m)
  else
    let x ← readSrc w.t w.a
    pure (x, 0, m)

/-- The source codes that the compute part of a unit pops or reads. -/
def sourceCodes (u : Word) : List (BitVec 6) :=
  if u.getLsbD 31 then
    if bits u 22 8 = (0x22 : BitVec 8) then [bits u 2 6]
    else if bits u 22 8 = (0x23 : BitVec 8) then [bits u 2 6, bits u 32 6]
    else []
  else
    let op : BitVec 6 := bits u 55 6
    if op = 0 || op = 53 || op = 54 then []
    else if op = 30 || (op.toNat ∈ [14, 15, 16, 25, 26, 27, 28, 29, 36, 37, 38, 42, 43, 49, 50, 51, 52]) then [bits u 38 6]
    else [bits u 38 6, bits u 32 6]

/-- The compute part of a unit names a register of the named file (R130, R131). -/
def namesBank (u : Word) : Bool :=
  (sourceCodes u).any isV || (!u.getLsbD 31 && bits u 55 6 ≠ (0 : BitVec 6) && isV (bits u 44 6))

end Sys2Proof.Machine
end

