-- ==== Sys2Proof/Machine/Sync.lean ====
section
/-! DEFINITION. Mailboxes and masks on the scalar side (R235, R236), barriers (R237 to R242), chunk maps (R243) and TFENCE
(R246). -/
namespace Sys2Proof.Machine

/-! ## Mailboxes (R132, R235) -/

/-- The mailbox K. -/
def mailbox (n : Nat) : M Mailbox := do
  let k ← getC
  pure (k.mbs.getD n Mailbox.reset)

def execMbw (f : CF) (s : State) : Host.Outcome State Fault Refusal :=
  finish (do
    let a ← rs f.a
    fillMailbox f.p5.toNat 2 a) s

/-- Blocking; a value of TAG 0 from a pip acquires. -/
def execMbr (f : CF) (s : State) : Host.Outcome State Fault Refusal :=
  finish (do
    let m ← mailbox f.p5.toNat
    if !m.full then block (zext f.p5)
    upd fun s => s.issueAt m.ready
    if m.src && m.tag = 0 then flash
    emptyMailbox f.p5.toNat
    ws f.d m.val
    ws f.b (zext m.tag)) s

def execMbtest (f : CF) (s : State) : Host.Outcome State Fault Refusal :=
  finish (do
    let m ← mailbox f.p5.toNat
    upd fun s => s.issueAt m.ready
    ws f.d (ofBool m.full)) s

/-! ## Masks (R236) -/

/-- KGET waits for the last write of kN, whatever W says. -/
def execKget (f : CF) (s : State) : Host.Outcome State Fault Refusal :=
  finish (do
    upd fun s => s.issueAt (s.ctx.kreg f.p5.toNat).ready
    let k ← getC
    ws f.d (k.kreg f.p5.toNat).val) s

def execKset (f : CF) (s : State) : Host.Outcome State Fault Refusal :=
  finish (do
    let a ← rs f.a
    upd fun s => s.setCtx (s.ctx.writeKreg s.compute f.p5.toNat a s.now)) s

/-! ## Barriers (R237 to R242) -/

/-- A global barrier object's checks (R237); acc is its access. Its global byte address, and what its home does with the request. -/
def globalBarrier (p : Word) (acc : Acc) : M (Nat × Gate) := do
  need (spaceOf p = 0) cSPACE p
  need (decide (addrOf p % 32 = 0)) cALIGN p
  acquired
  let (a, _) ← locateM p (addrOf p) acc
  let s ← get
  let words := spanWords (a % 128) 32
  match s.gate s.asker (acc = .amo) words (a / 128) with
  | .held _ => trap cCOMPACTHELD p
  | _ =>
    let g ← reachLine p (acc = .amo) (a / 128) words
    pure (a, g)

/-- DONE of the object as its home holds it. -/
def peekDone (a : Nat) : M Nat := do
  upd fun s => s.servePeek (a / 128) (spanWords (a % 128) 32)
  let s ← get
  pure (BarV.ofNat (readNat s.mem a 32)).done

/-- An update of a global object is applied at its home, now or when it gets there; the context does not wait for it, but its next release
does (R104, R239). -/
def updateBarrier (p : Word) (kind arr bytes : Nat) : M Unit := do
  let (a, g) ← globalBarrier p .amo
  let gl := a / 128
  let words := spanWords (a % 128) 32
  let r ← crosses gl
  match r, g with
  | .ok _, .ok g => upd fun s => s.applyUpdate (g * 128 + a % 128) kind arr bytes
  | r, g =>
    let (stage, at') := g.stage gl r
    let id ← hold stage at' words (.update (a % 128) kind arr bytes) p none 0 0
    match r with
    | .fault _ => loseNow id
    | _ => pure ()
  modT fun x => x.dropStale gl words

/-- The request of this unit that waits for an object's answer, if it has made one. -/
def State.awaited (s : State) (p : Word) : Option Held :=
  s.held.find? fun h => s.asks h s.cur s.cid && h.ptr = p && h.seq = s.ctx.useq &&
    match h.work with
    | .await _ _ => true
    | _ => false

/-- The answer of a global object to BWAIT or BTEST: DONE, and whether BINIT put it there. none: the request is under way, or waits at the home
for a DONE other than seen (R240, R241); BTEST compares with a value that no DONE has, and is answered at once. -/
def askDone (p : Word) (seen : Nat) : M (Option (Nat × Bool)) := do
  let s ← get
  match s.awaited p with
  | some h =>
    match h.answer with
    | some d =>
      set (s.dropHeld h.id)
      pure (some (d.toNat % 2 ^ 32, d.getLsbD 32))
    | none =>
      if h.lost then
        set (s.dropHeld h.id)
        trapKeep h.cause p
      else if h.waits && s.gateFrom h.asker false h.words 8 h.gl = .ok h.gl then
        let done ← peekDone (h.gl * 128 + addrOf p % 128)
        if done = seen then pure none
        else
          upd fun s => s.closeHeld h
          pure (some (done, false))
      else pure none
  | none =>
    let (a, g) ← globalBarrier p .load
    let gl := a / 128
    let r ← crosses gl
    let ask := fun (stage : Stage) (at' : Nat) => hold stage at' (spanWords (a % 128) 32) (.await (a % 128) seen) p none 0 0
    match r, g with
    | .ok _, .ok g =>
      let done ← peekDone (g * 128 + a % 128)
      if done = seen then
        let _ ← ask .home g
        pure none
      else pure (some (done, false))
    | r, g =>
      let (stage, at') := g.stage gl r
      let id ← ask stage at'
      match r with
      | .fault _ => loseNow id
      | _ => pure ()
      pure none

/-- A local barrier of the tile. -/
def localBar (n : Nat) : M Barrier := do
  let x ← getT
  pure (x.bars.getD n Barrier.reset)

/-- SEEN of a barrier in the context. -/
def Ctx.seenOf (k : Ctx) (n : Nat) : BitVec 16 := k.seen.getD n 0
/-- The phases of a local barrier completed so far are observed (R105). -/
def observe (n : Nat) (done : BitVec 16) : M Unit := modC fun k => { k with seen := k.seen.setIfInBounds n done }

/-- BINIT and BEXPECT: a local barrier or a global object takes its counts (R238). -/
def setBarrier (f : CF) (init : Bool) : M Unit := do
  let a ← rs f.a
  let b ← rs f.b
  let arr := (bits a 0 16).toNat
  let bytes := (bits b 0 40).toNat
  if f.isGlobal then
    let p ← rs f.d
    let _ ← globalBarrier p .amo
    direct
    updateBarrier p (if init then 0 else 1) arr bytes
  else
    let x ← getT
    let v := (x.bars.getD f.localN Barrier.reset).toV.update init arr bytes
    upd fun s => s.restartBar (localName s.cur f.localN) v
    modT fun x => { x with bars := x.bars.setIfInBounds f.localN v.toLocal }
    if init then
      modT fun x => { x with ctxs := x.ctxs.map fun e => (e.1, { e.2 with seen := e.2.seen.setIfInBounds f.localN 0 }) }

def execBinit (f : CF) (s : State) : Host.Outcome State Fault Refusal := finish (setBarrier f true) s
def execBexpect (f : CF) (s : State) : Host.Outcome State Fault Refusal := finish (setBarrier f false) s

/-- R239: a release, then one arrival; a helper's global arrival is held until HEND (R297). -/
def execBarrive (f : CF) (s : State) : Host.Outcome State Fault Refusal :=
  finish (do
    if f.isGlobal then
      let p ← rs f.a
      let (a, _) ← globalBarrier p .amo
      release
      let s ← get
      if s.buffers then modC fun k => { k with heldArrivals := k.heldArrivals ++ [a] }
      else updateBarrier p 2 1 0
    else
      release
      upd fun s => s.localBarrier s.cur f.localN 1 0) s

/-- R240. A global wait stays at the home; what BINIT ends it acquires nothing (R238). A helper whose request the home has not come to serve yet
waits for that. -/
def execBwait (f : CF) (s : State) : Host.Outcome State Fault Refusal :=
  finish (do
    if f.isGlobal then
      let p ← rs f.a
      let seen ← rs f.b
      match ← askDone p (bits seen 0 32).toNat with
      | some (done, init) =>
        ws f.d (BitVec.ofNat 64 done)
        if !init then flash
      | none =>
        let s ← get
        if s.cid ≠ 0 && (s.awaited p).any (fun h => h.waits && s.gateFrom h.asker false h.words 8 h.gl = .ok h.gl) then
          upd fun s => (s.awaited p).elim s fun h => s.closeHeld h
          trapKeep cHELPERWAIT (zext f.p5)
        else waitKeep
    else
      let b ← localBar f.localN
      let k ← getC
      if b.done = k.seenOf f.localN then block (zext f.p5)
      observe f.localN b.done
      flash) s

/-- R241. -/
def execBtest (f : CF) (s : State) : Host.Outcome State Fault Refusal :=
  finish (do
    if f.isGlobal then
      let p ← rs f.a
      let seen ← rs f.b
      match ← askDone p (2 ^ 32) with
      | some (done, _) =>
        if done = (bits seen 0 32).toNat then ws f.d 0
        else
          flash
          ws f.d 1
      | none => waitKeep
    else
      let b ← localBar f.localN
      let k ← getC
      if b.done = k.seenOf f.localN then ws f.d 0
      else
        observe f.localN b.done
        flash
        ws f.d 1) s

/-- R106, R242: the search starts at the half's position in BWANYPOS. -/
def execBwany (f : CF) (s : State) : Host.Outcome State Fault Refusal :=
  finish (do
    let a ← rs f.a
    let k ← getC
    let x ← getT
    let high := a.getLsbD 8
    let base := if high then 8 else 0
    let start := (if high then k.bwanyHigh else k.bwanyLow).toNat
    let order := (List.range 8).map fun i => (start + i) % 8
    match order.find? fun i => a.getLsbD i && (x.bars.getD (base + i) Barrier.reset).done ≠ k.seenOf (base + i) with
    | none => ws f.d (BitVec.allOnes 64)
    | some i =>
      observe (base + i) (x.bars.getD (base + i) Barrier.reset).done
      let pos : BitVec 3 := BitVec.ofNat 3 (i + 1)
      modC fun k => if high then { k with bwanyHigh := pos } else { k with bwanyLow := pos }
      flash
      ws f.d (BitVec.ofNat 64 (base + i))) s

/-! ## Chunk maps (R243) -/

/-- A landing handle names a slot of this tile: space, device, tile, allocation and generation (R243). -/
def State.handleOk (s : State) (p : Word) : Bool :=
  let k := (s.tile s.cur).slot (hSlot p)
  spaceOf p = 3 && ptrDev p = s.devNum (pkgOf s.cur) && ptrTile p = numOf s.cur && k.alloc && k.gen = hGen p

/-- The chunks of a slot lie within its size. -/
def Slot.covers (k : Slot) (mask : BitVec 128) : Bool := decide (mask.toNat < 2 ^ k.size)

/-- The handle and mask of a chunk instruction, checked. -/
def chunkArgs (f : CF) : M (Word × BitVec 128) := do
  let p ← rs f.a
  let b ← rs f.b
  let s ← get
  let mask : BitVec 128 := b.setWidth 128 <<< (64 * (bits f.p5 0 1).toNat)
  need (s.handleOk p && ((s.tile s.cur).slot (hSlot p)).covers mask) cBADHANDLE p
  pure (p, mask)

/-- Every chunk of a mask is set. -/
def State.landed (s : State) (t : Nat) (p : Word) (mask : BitVec 128) : Bool :=
  ((s.tile t).slot (hSlot p)).chunks &&& mask = mask

/-- R81, R101: what it finds set is acquired for the chunks' bytes, which are pinned; nothing is flashed. -/
def execChtest (f : CF) (s : State) : Host.Outcome State Fault Refusal :=
  finish (do
    let (p, mask) ← chunkArgs f
    let s ← get
    let ok := s.landed s.cur p mask
    ws f.d (ofBool ok)) s

def execChwait (f : CF) (s : State) : Host.Outcome State Fault Refusal :=
  finish (do
    let (p, mask) ← chunkArgs f
    let s ← get
    if !s.landed s.cur p mask then block p) s

def execChclr (f : CF) (s : State) : Host.Outcome State Fault Refusal :=
  finish (do
    let (p, mask) ← chunkArgs f
    modT fun x =>
      let k := x.slot (hSlot p)
      { x with slots := mset x.slots (hSlot p) { k with chunks := k.chunks &&& ~~~mask } }) s

/-! ## TFENCE (R246) -/

def execTfence (mask : BitVec 11) (s : State) : Host.Outcome State Fault Refusal :=
  finish (do
    settled
    let k ← getC
    need (k.flags &&& mask = 0) cARITH (zext (k.flags &&& mask))) s

end Sys2Proof.Machine
end

