-- ==== Sys2Proof/Machine/Collectives.lean ====
section
/-! DEFINITION. Starting a collective, waiting for it, and the events of Vetch (R178 to R184, R308 to R311). -/
namespace Sys2Proof.Machine

/-- What COLL is given: program pointer, buffer table, nranks, rank, id. -/
structure CollArgs where
  prog : Word
  table : Word
  nranks : Nat
  rank : Nat
  id : Nat
  deriving DecidableEq, Repr

/-- R308: the arguments are ones Vetch starts. -/
def CollArgs.ok (a : CollArgs) : Bool :=
  decide (a.rank < a.nranks) && decide (a.nranks ≤ 32768) && spaceOf a.prog = 0 && decide (addrOf a.prog % 8 = 0) &&
    spaceOf a.table = 0 && decide (addrOf a.table % 16 = 0)

/-- What Vetch answers a COLL. -/
inductive CollRes where
  | started | busy | dup | bad
  deriving DecidableEq, Repr

/-- R308: a region's Vetch is asked to start a program; its limits come in the order of the table. -/
def State.collAsk (s : State) (t : Nat) (a : CollArgs) (reserved : Bool) : CollRes :=
  let g := (s.dev (pkgOf t)).region (regionOf t)
  if 16 ≤ g.progs.length then .busy
  else if g.progs.any fun p => p.id = a.id then .dup
  else if reserved || !a.ok then .bad
  else .started

/-- The program of a context starts. -/
def State.startProg (s : State) (t c : Nat) (k : Ctx) (a : CollArgs) : State :=
  let pid := (s.tile t).pid
  s.modRegion (pkgOf t) (regionOf t) fun r =>
    let g : Prog := {
      id := a.id, inst := r.insts + 1, tile := t, cid := c, pid := pid, asid := k.asid, priv := k.priv
      prog := a.prog, table := a.table, rank := a.rank, nranks := a.nranks, pc := a.prog, steps := 0
      ctrs := List.replicate 4 0, flags := 0, checked := false, halfway := false, out := none, applied := [], forwards := []
      signals := 0, aperBytes := [], stopped := false }
    { r with insts := r.insts + 1, done := mdel r.done a.id, progs := r.progs ++ [g] }

/-- A refused program completes at once with BADARG (R308). -/
def State.refuseProg (s : State) (t id : Nat) : State :=
  s.modRegion (pkgOf t) (regionOf t) fun r => { r with done := mset r.done id (vetchStatus 0 0 4) }

/-- rank and nranks of cat(nranks - 1, rank). -/
def collArgs (prog table rr : Word) (id : Nat) : CollArgs :=
  ⟨prog, table, (bits rr 16 16 : BitVec 16).toNat + 1, (bits rr 0 16 : BitVec 16).toNat, id⟩

/-- COLL, pair form (R198, R308). -/
def execColl (f : CF) (s : State) : Host.Outcome State Fault Refusal :=
  finish (do
    notHelper 0x202
    let p ← rs f.a
    need (spaceOf p = 0) cSPACE p
    need (decide (addrOf p + 32 ≤ 2 ^ 52)) cPAGE p
    release
    let v ← loadNow p (addrOf p) 32
    let w := fun (i : Nat) => (BitVec.ofNat 64 (v / 2 ^ (64 * i)) : Word)
    let a := collArgs (w 0) (w 1) (w 2) (bits (w 3) 0 12 : BitVec 12).toNat
    let s ← get
    match s.collAsk s.cur a (bits (w 2) 32 32 ≠ 0 || bits (w 3) 12 52 ≠ 0) with
    | .started =>
      upd fun s => s.startProg s.cur s.cid s.ctx a
      ws f.d 0
    | .busy => ws f.d 1
    | .dup => ws f.d 2
    | .bad => ws f.d 3) s

/-- COLL, lone form (R308): it waits where the pair form answers BUSY or DUPID. -/
def execCollLone (f : LF) (s : State) : Host.Outcome State Fault Refusal :=
  finish (do
    notHelper 0x202
    let prog ← rs f.ra
    let table ← rs f.rb
    let rr ← rs f.rc
    release
    let a := collArgs prog table rr f.f0.toNat
    let s ← get
    match s.collAsk s.cur a (bits rr 32 32 ≠ 0) with
    | .started => upd fun s => s.startProg s.cur s.cid s.ctx a
    | .bad => upd fun s => s.refuseProg s.cur a.id
    | _ => wait) s

/-- CWAIT (R309): blocking; flags are raised and the buffers acquired. -/
def execCwait (f : CF) (s : State) : Host.Outcome State Fault Refusal :=
  finish (do
    let a ← rs f.a
    let id := (bits a 0 12).toNat
    let s ← get
    let g := (s.dev (pkgOf s.cur)).region (regionOf s.cur)
    if g.progs.any fun p => p.id = id then block (BitVec.ofNat 64 id)
    if mhas g.done id then flash
    let v := mget 8 g.done id
    raise (bits v 8 11)
    ws f.d v) s

/-! ## Events of Vetch -/

/-- VETCH_STEP (R310). -/
def execVetchStep (dev region id : Nat) (s : State) : Host.Outcome State Fault Refusal :=
  happen (fun s => s.vetchStep dev region id) s

/-- The step that a program is at receives (R310). -/
def State.receiving (s : State) (p r id : Nat) : Bool :=
  match s.prog p r id with
  | none => false
  | some g =>
    match s.vetchRead g g.pc 0 8 with
    | (.ok v, _) => let op := (stepOf (BitVec.ofNat 64 v)).op; op = 2 || op = 3 || op = 4
    | _ => false

/-- CONTRIBUTION_ARRIVAL: the receiving step of a program takes its source's next contribution, once (R181). -/
def execContributionArrival (dev region id : Nat) (s : State) : Host.Outcome State Fault Refusal :=
  happen (fun s => if s.receiving dev region id then s.vetchStep dev region id else s) s

/-- APERTURE_APPLY: bytes of a store to the reduce aperture reach Vetch (R183). -/
def execApertureApply (dev region id inst op buf off len : Nat) (data : BitVec 2048) (s : State) : Host.Outcome State Fault Refusal :=
  happen (fun s =>
    let n := min len 256
    (s.apertureApply dev region { Armer.reset with tile := homeAgent dev } 0 0 id inst op buf off n (ones (8 * n)) (data.toNat % 2 ^ (8 * n))).2) s

end Sys2Proof.Machine
end

