-- ==== Sys2Proof/Machine/Matrix.lean ====
section
/-! DEFINITION. The matrix engine: acceptance of commands (R150 to R154, R276 to R283), the exact k-step (R62 to R65, R151,
R152, R156, R277, R278), the ring (R154, R155, R280), and what each command does when it retires (R158, R281, R282). Chains
are accumulated in program order, one of the orders that R65 allows. -/
namespace Sys2Proof.Machine

/-! ## Formats and slices (R151) -/

def floatFmt (f : Nat) : Option Fmt :=
  match f with
  | 6 => some f16
  | 7 => some bf16
  | 8 => some f32
  | 9 => some e4m3
  | 10 => some e5m2
  | 11 => some e2m1
  | 12 => some fp56
  | _ => none

/-- A format that takes block scales (R54). -/
def narrow (f : Nat) : Bool := f = 9 || f = 10 || f = 11
def isInt8 (f : Nat) : Bool := f = 1 || f = 2
/-- A BLOG that is not reserved. -/
def blogOk (b : Nat) : Bool := b = 0 || (3 ≤ b && b ≤ 10)
/-- BLOG and plane of a scaled operand (R34, R54, R152). -/
def scaleOk (fmt blog plane : Nat) : Bool := blogOk blog && (blog = 0 || (narrow fmt && plane ≠ 0))

/-- K_step of one format. -/
def kstepOf (f : Nat) : Option Nat :=
  match f with
  | 6 | 7 => some 32
  | 1 | 2 | 9 | 10 => some 64
  | 11 => some 128
  | _ => none

/-- K_step of a pair; the rows of R151's table. -/
def kstepPair (a b : Nat) : Option Nat :=
  match kstepOf a, kstepOf b with
  | some x, some y =>
    if isInt8 a != isInt8 b then none
    else if x = y then some x
    else if (a = 11 && (b = 9 || b = 10)) || (b = 11 && (a = 9 || a = 10)) then some 64
    else none
  | _, _ => none

/-- The fields of an MMA as its acceptance fixes them (R276). -/
structure MmaF where
  bank : Nat
  loc : Bool
  sp : Bool
  neg : Bool
  layout : Nat
  n : Nat
  aPlane : Nat
  bPlane : Nat
  deriving DecidableEq, Repr

def mmaF (u : Word) (rc : Word) : MmaF :=
  let c := (bits u 6 6 : BitVec 6).toNat
  ⟨(bits u 0 1).toNat, u.getLsbD 1, u.getLsbD 2, u.getLsbD 3, (bits u 4 2).toNat, if c = 0 then rc.toNat else c,
    (bits u 32 12).toNat, (bits u 44 12).toNat⟩

def aSlice (ks fa : Nat) : Nat := 32 * ks * fmtBits fa / 8
def bSlice (kper fb : Nat) : Nat := kper * 64 * fmtBits fb / 8
def mSlice (ks : Nat) : Nat := 8 * ks
/-- Blocks of a K range. -/
def blocksOf (k blog : Nat) : Nat := if blog = 0 then 0 else k / 2 ^ blog

/-! ## Acceptance (R150) -/

/-- A range of local space is pinned whole. -/
def Tile.pinnedRange (x : Tile) (o n : Nat) : Bool := decide (o + n ≤ 0xA0000) && x.pinnedSpan o n

/-- A pointer to a plane in local space. -/
def planePtr (plane : Nat) : Word := BitVec.ofNat 64 (2 ^ 52 + 64 * plane)

def needPinned (p : Word) (n : Nat) : M Unit := do
  let x ← getT
  need (x.pinnedRange (addrOf p) n) cPAGE p
/-- A scale plane of n bytes after its first 64, when there is one. -/
def needPlane (plane n : Nat) : M Unit := if plane = 0 then pure () else needPinned (planePtr plane) (64 + n)

/-- A failed check of step 2. -/
def needGeom (ok : Bool) : M Unit := do
  let u ← unitImage
  need ok cBADGEOM u

/-- A matrix command may enter the queue: earlier local stores are done, and an entry is free (R150, R159). -/
def matrixReady : M Unit := do
  notHelper 0x200
  let x ← getT
  if 2 ≤ x.engine.queue.length then wait
  performPairs 8

/-- A command enters the queue. -/
def accept (ra rb rc : Word) (addrs : List (Option Nat)) : M Unit := do
  let k ← getC
  modT fun x => { x with engine := { x.engine with
    queue := x.engine.queue ++ [⟨k.unit, k.upc, ra, rb, rc, 0, k.useq, addrs⟩] } }

/-- An address of a space-0 command: translation and permission; whether it is reached is found when it is used (R150). -/
def translateM (val : Word) (va : Nat) (acc : Acc) : M (Option Nat) := fun s =>
  match s.translate s.asker va val with
  | (.wait, s) => .error (.waitWith s)
  | (.fault c, _) => .error (.trap c val)
  | (.leaf e large, s) =>
    if !permits e acc s.asker.priv then .error (.trap cPROT val)
    else .ok (s.globalAddr (pkgOf s.cur) (leafPa e large va), s)

/-- The lines of 2,048 values in space 0, in ascending order; a store meets no compact's hold. -/
def acceptLines (ra : Word) (acc : Acc) : M (List (Option Nat)) :=
  (pieces (addrOf ra) (256 * fmtBits (fmtOf ra))).mapM fun q => do
    let p := withAddr ra q.1
    let a ← translateM p q.1 acc
    let s ← get
    match acc, a with
    | .store, some a => need ((s.dir (a / 128)).st ≠ .held) cCOMPACTHELD p
    | _, _ => pure ()
    pure a

/-- Kind of operands: INT or FLOAT. -/
def kindOf (f : Nat) : BankMode := if isInt8 f then .int else .float

def Engine.bank (e : Engine) (b : Nat) : Bank := if b = 0 then e.bank0 else e.bank1
def Engine.setBank (e : Engine) (b : Nat) (x : Bank) : Engine := if b = 0 then { e with bank0 := x } else { e with bank1 := x }

/-- Sub-operation of an accepted C-word (R283); none for a lone command. -/
def MCmd.sub (c : MCmd) : Option Nat := if c.image.getLsbD 31 then none else some (bits c.image 5 4 : BitVec 4).toNat

/-- The mode that MLOAD gives its bank (R158). -/
def loadMode (f : Nat) : BankMode := if f ≤ 5 then .int else .float

/-- The mode of a bank after an accepted command. -/
def MCmd.modeAfter (c : MCmd) (b : Nat) (m : BankMode) : BankMode :=
  if (bits c.image 0 1).toNat ≠ b then m
  else if c.sub = some 2 then .empty
  else match c.lop with
    | 0x10 => if m = .empty then kindOf (fmtOf c.ra) else m
    | 0x14 => if c.image.getLsbD 5 then .empty else m
    | 0x15 => loadMode (fmtOf c.ra)
    | _ => m

/-- The mode of a bank when the commands accepted so far have retired. -/
def Engine.modeAhead (e : Engine) (b : Nat) : BankMode := e.queue.foldl (fun m c => c.modeAfter b m) (e.bank b).mode

/-- MMA (R277, R278). Under 2:4 a k-step holds 2 * K_step logical positions of K (R151), and R63 gives a product the scales of the blocks that
hold its k: scale planes are indexed over them, where R62 and R152 say K_step per k-step, which would give positions of two k-steps one index
(log entry 64). -/
def execMma (f : LF) (s : State) : Host.Outcome State Fault Refusal :=
  finish (do
    matrixReady
    let ra ← rs f.ra
    let rb ← rs f.rb
    let rc ← rs f.rc
    let s ← get
    let m := mmaF s.ctx.unit rc
    need (spaceOf ra = 1) cSPACE ra
    need (!m.loc || spaceOf rb = 1) cSPACE rb
    need (!m.sp || spaceOf rc = 1) cSPACE rc
    let e := (s.tile s.cur).engine
    let fa := fmtOf ra
    let fb := fmtOf rb
    let feats := (s.dev (pkgOf s.cur)).featAck
    let countIsReg := (bits f.f0 6 6 : BitVec 6) = 0
    needGeom (!(countIsReg && m.sp) && 0 < m.n && decide (m.n ≤ 65535) && decide (addrOf ra % 128 = 0))
    needGeom ((!m.sp || feats.getLsbD 0) && (fa ≠ 11 || feats.getLsbD 1) && (!m.loc || fb ≠ 11 || feats.getLsbD 1))
    needGeom (scaleOk fa (blogOf ra) m.aPlane)
    needGeom (e.modeAhead m.bank = .empty || e.modeAhead m.bank = kindOf fa)
    if m.loc then
      match kstepPair fa fb with
      | none => needGeom false
      | some ks =>
        needGeom (decide (m.layout < 2) && scaleOk fb (blogOf rb) m.bPlane)
        needGeom (ks * m.n % 2 ^ blogOf ra = 0 && ks * m.n % 2 ^ blogOf rb = 0)
        let kper := if m.sp then 2 * ks else ks
        needPinned ra (m.n * aSlice ks fa)
        needPinned rb (m.n * bSlice kper fb)
        if m.sp then needPinned rc (m.n * mSlice ks)
        needPlane m.aPlane (32 * blocksOf (kper * m.n) (blogOf ra))
        needPlane m.bPlane (64 * blocksOf (kper * m.n) (blogOf rb))
    else
      match kstepOf fa with
      | none => needGeom false
      | some ks =>
        needGeom (!e.ringBad (memberOf s.cur) && !m.sp && decide (m.layout = 0) && decide (m.bPlane = 0))
        needGeom (decide (blogOf ra = 0 || 2 ^ blogOf ra ≤ ks))
        needPinned ra (e.ringSize * aSlice ks fa)
        needPlane m.aPlane (32 * blocksOf (ks * e.ringSize) (blogOf ra))
    accept ra rb rc []) s

/-- Rows of a B slice in a latch buffer: 4,096 bytes of 64 elements a row (R279). -/
def latchK (f : Nat) : Nat := 512 / fmtBits f

/-- Full latch buffers, one that is being handed on included (R154). -/
def Engine.full (e : Engine) : Nat := [e.consume, e.receive, e.outgoing].countP Option.isSome

/-- MLDB (R279). -/
def execMldb (f : LF) (s : State) : Host.Outcome State Fault Refusal :=
  finish (do
    matrixReady
    let ra ← rs f.ra
    let s ← get
    let e := (s.tile s.cur).engine
    let n := (bits f.f0 0 6).toNat
    let plane := (bits f.f1 0 12).toNat
    let fmt := fmtOf ra
    need (spaceOf ra = 1) cSPACE ra
    needGeom ((kstepOf fmt).isSome && (fmt ≠ 11 || (s.dev (pkgOf s.cur)).featAck.getLsbD 1) &&
      scaleOk fmt (blogOf ra) plane && decide (blogOf ra = 0 || 2 ^ blogOf ra ≤ latchK fmt))
    needGeom (1 ≤ n && n ≤ 2 && decide (n + e.full + e.reserved ≤ 2))
    needPinned ra (4096 * n)
    needPlane plane (64 * n * blocksOf (latchK fmt) (blogOf ra))
    accept ra 0 0 []
    modT fun x => { x with engine := { x.engine with reserved := x.engine.reserved + n } }) s

/-- MROT (R280). -/
def execMrot (_ : LF) (s : State) : Host.Outcome State Fault Refusal :=
  finish (do
    matrixReady
    let s ← get
    needGeom (!(s.tile s.cur).engine.ringBad (memberOf s.cur))
    accept 0 0 0 []) s

/-- MSTORE (R281). -/
def execMstore (f : LF) (s : State) : Host.Outcome State Fault Refusal :=
  finish (do
    matrixReady
    let ra ← rs f.ra
    let rb ← rs f.rb
    let s ← get
    let bs := f.f0.getLsbD 6
    let plane := (bits f.f1 0 12).toNat
    let fmt := fmtOf ra
    let blog := blogOf ra
    need (decide (spaceOf ra ≤ 1)) cSPACE ra
    needGeom (decide (addrOf ra % 128 = 0) && 1 ≤ fmt && fmt ≤ 12 && blogOk blog &&
      (fmt ≠ 11 || (s.dev (pkgOf s.cur)).featAck.getLsbD 1))
    needGeom (if bs then blog ≠ 0 && decide (blog ≤ 6) && narrow fmt && plane ≠ 0 else blog = 0)
    if spaceOf ra = 1 then needPinned ra (256 * fmtBits fmt)
    if bs then needPlane plane (32 * (64 / 2 ^ blog))
    let addrs ← if spaceOf ra = 0 then acceptLines ra .store else pure []
    accept ra rb 0 addrs) s

/-- MLOAD (R282). -/
def execMload (f : LF) (s : State) : Host.Outcome State Fault Refusal :=
  finish (do
    matrixReady
    let ra ← rs f.ra
    let s ← get
    let fmt := fmtOf ra
    need (decide (spaceOf ra ≤ 1)) cSPACE ra
    needGeom (decide (addrOf ra % 128 = 0) && blogOf ra = 0 && (fmt ≠ 11 || (s.dev (pkgOf s.cur)).featAck.getLsbD 1))
    needGeom (if f.f0.getLsbD 1 then (1 ≤ fmt && fmt ≤ 4) || (6 ≤ fmt && fmt ≤ 11) else fmt = 5 || fmt = 12)
    if spaceOf ra = 1 then needPinned ra (256 * fmtBits fmt)
    let addrs ← if spaceOf ra = 0 then acceptLines ra .load else pure []
    accept ra 0 0 addrs) s

/-- MBEGIN (R157): the chain is open for the checks of later commands; RSTEP is zeroed in its turn. -/
def execMbegin (f : CF) (s : State) : Host.Outcome State Fault Refusal :=
  finish (do
    matrixReady
    let x ← getT
    needGeom x.engine.chain.isNone
    accept 0 0 0 []
    modT fun x => { x with engine := { x.engine with chain := some (f.p5.getLsbD 0) } }) s

/-- MEND (R157). -/
def execMend (_ : CF) (s : State) : Host.Outcome State Fault Refusal :=
  finish (do
    matrixReady
    let x ← getT
    needGeom x.engine.chain.isSome
    accept 0 0 0 []
    modT fun x => { x with engine := { x.engine with chain := none } }) s

/-- MZERO (R158). -/
def execMzero (_ : CF) (s : State) : Host.Outcome State Fault Refusal :=
  finish (do
    matrixReady
    accept 0 0 0 []) s

/-- MSYNC (R283). -/
def execMsync (_ : CF) (s : State) : Host.Outcome State Fault Refusal :=
  finish (do
    notHelper 0x200
    let x ← getT
    if !x.engine.queue.isEmpty then wait) s

/-- The local ranges, planes included, that an accepted command names (R150). -/
def MCmd.ranges (c : MCmd) (ring : Nat) : List (Nat × Nat) :=
  let plane := (bits c.image 32 12 : BitVec 12).toNat
  let fa := fmtOf c.ra
  let planeOf := fun (p n : Nat) => if p = 0 then [] else [(64 * p, 64 + n)]
  match c.lop with
  | 0x10 =>
    let m := mmaF c.image c.rc
    let ks := if m.loc then (kstepPair fa (fmtOf c.rb)).getD 32 else (kstepOf fa).getD 32
    let kper := if m.sp then 2 * ks else ks
    let k := if m.loc then kper * m.n else ks * ring
    (addrOf c.ra, (if m.loc then m.n else ring) * aSlice ks fa) ::
      (if m.loc then [(addrOf c.rb, m.n * bSlice kper (fmtOf c.rb))] else []) ++
      (if m.sp then [(addrOf c.rc, m.n * mSlice ks)] else []) ++
      planeOf m.aPlane (32 * blocksOf k (blogOf c.ra)) ++ planeOf m.bPlane (64 * blocksOf k (blogOf c.rb))
  | 0x12 =>
    let n := (bits c.image 0 6 : BitVec 6).toNat
    (addrOf c.ra, 4096 * n) :: planeOf plane (64 * n * blocksOf (latchK fa) (blogOf c.ra))
  | 0x14 | 0x15 =>
    (if spaceOf c.ra = 1 then [(addrOf c.ra, 256 * fmtBits fa)] else []) ++
      (if c.lop = 0x14 && c.image.getLsbD 6 then planeOf plane (32 * (64 / 2 ^ blogOf c.ra)) else [])
  | _ => []

/-- An accepted command that has not retired names a byte of a local range. -/
def Engine.names (e : Engine) (o n : Nat) : Bool :=
  e.queue.any fun c => (c.ranges e.ringSize).any fun r => decide (r.1 < o + n) && decide (o < r.1 + r.2)

/-! ## The engine at work -/

def State.modEngine (s : State) (t : Nat) (f : Engine → Engine) : State := s.modTile t fun x => { x with engine := f x.engine }

/-- Flags of a command go to the control context that issued it (R150). -/
def State.raiseMatrix (s : State) (t : Nat) (c : MCmd) (f : BitVec 11) : State :=
  if mhas (s.tile t).ctxs 0 then s.modCtxAt t 0 fun k => k.raise f (unitAddr c.pc) else s

/-- The head command changes. -/
def Engine.modHead (e : Engine) (f : MCmd → MCmd) : Engine :=
  match e.queue with
  | c :: rest => { e with queue := f c :: rest }
  | [] => e

/-- R160: the head command stops, and its trap waits for the control context. -/
def Engine.fail (e : Engine) (code : BitVec 8) (val : Word) (index : Nat) : Engine :=
  { e with trap := some ⟨code, val, index⟩, stopped := true }

/-- The head command retires. -/
def Engine.retire (e : Engine) : Engine := { e with queue := e.queue.tail }

/-- A received buffer moves up when a k-step or MROT needs it. A block that stands in the receive place keeps a predecessor's further handover
waiting (R154, R187). -/
def Engine.shift (e : Engine) : Engine :=
  if e.consume.isNone then { e with consume := e.receive, receive := none } else e

/-- The receive buffer is reserved: by an accepted MLDB that has the consume place too, or finds it full or on its way out (R154). -/
def Engine.receiveReserved (e : Engine) : Bool := decide ((if e.consume.isSome || e.outgoing.isSome then 0 else 1) < e.reserved)

/-- The engine as it takes a handed buffer. none: its receive buffer is full or reserved. -/
def Engine.take (e : Engine) (l : Latch) : Option Engine :=
  if e.receive.isSome || e.receiveReserved then none else some { e with receive := some l }

/-- A buffer takes the first empty place. -/
def Engine.fill (e : Engine) (l : Latch) : Engine :=
  if e.consume.isNone then { e with consume := some l } else { e with receive := some l }

/-! ### Values of a k-step (R54, R63) -/

/-- An element with its block scale. -/
structure Scaled where
  elem : FV
  scale : FV
  deriving DecidableEq, Repr

def Scaled.val (x : Scaled) : FV := (x.elem.mul x.scale).1
def Scaled.isNan (x : Scaled) : Bool := x.elem.isNan || x.scale.isNan
/-- An infinite element whose block scale is 0. -/
def Scaled.bad (x : Scaled) : Bool := x.elem.isInf && x.scale.isZero

/-- ieee_mul of a value and two band scales. -/
def bandMul (v ba bb : FV) : FV × BitVec 11 :=
  let (x, f) := v.mul ba
  let (y, g) := x.mul bb
  (y, f ||| g)

/-- floor(log2) of a nonzero magnitude. -/
def FV.top : FV → Int
  | .fin _ m e => Nat.log2 m + e
  | _ => 0

/-- sign(p) * floor(|p| / 2^q). -/
def FV.unitsAt (q : Int) : FV → Int
  | .fin s m e => sgn s (if q ≤ e then m * 2 ^ (e - q).toNat else m / 2 ^ (q - e).toNat)
  | _ => 0

/-- The exact total of finite products, in units of 2^(e_max - 63) (R63). -/
def totalOf (ps : List FV) : FV :=
  match ps.filter fun p => !p.isZero with
  | [] => FV.zero false
  | z :: zs =>
    let top := zs.foldl (fun m p => max m p.top) z.top
    let q := top - 63
    let t := (z :: zs).foldl (fun acc p => acc + p.unitsAt q) (0 : Int)
    .fin (t < 0) t.natAbs q

/-- The contribution of one output (R63); none: c is zero because no product is nonzero. -/
def contribution (xs : List (Scaled × Scaled)) (ba bb : FV) : Option FV × BitVec 11 :=
  if ba.isNan || bb.isNan || xs.any fun p => p.1.isNan || p.2.isNan then (some .nan, 0)
  else if xs.any fun p => p.1.bad || p.2.bad then (some .nan, fNV)
  else
    let ps := xs.map fun p => p.1.val.mul p.2.val
    if ps.any fun p => p.1.isNan then (some .nan, fNV)
    else
      let infs := (ps.map fun p => p.1).filter FV.isInf
      match infs with
      | i :: is =>
        if is.any fun j => j ≠ i then (some .nan, fNV)
        else let (c, f) := bandMul i ba bb; (some c, f)
      | [] =>
        if ps.all fun p => p.1.isZero then (none, 0)
        else let (c, f) := bandMul (totalOf (ps.map fun p => p.1)) ba bb; (some c, f)

/-- One accumulation into an fp56 value. -/
def addFp56 (acc : Nat) (c : Option FV) (neg : Bool) : Nat × BitVec 11 :=
  match c with
  | none => (acc, 0)
  | some c =>
    if c.isZero then (acc, 0)
    else
      let (v, f) := (fp56.decode acc).add 0 (if neg then c.neg else c)
      let (r, g) := fp56.round 0 .arith v
      (r, f ||| g)

/-- A 56-bit code as a signed integer. -/
def i56 (c : Nat) : Int := if 2 ^ 55 ≤ c then (c : Int) - 2 ^ 56 else c

/-- Saturation to i56 (R48). -/
def satI56 (x : Int) : Int × BitVec 11 :=
  if x < -(2 ^ 55) then (-(2 ^ 55), fSA) else if 2 ^ 55 ≤ x then (2 ^ 55 - 1, fSA) else (x, 0)

/-- One integer accumulation (R64). -/
def addI56 (acc : Nat) (sum : Int) (neg : Bool) : Nat × BitVec 11 :=
  let (r, f) := satI56 (i56 acc + if neg then -sum else sum)
  (wrap 56 r, f)

/-! ### Slices -/

/-- Elements of w bits in a byte string. -/
def codesOf (w n v : Nat) : List Nat := (List.range n).map fun i => v / 2 ^ (w * i) % 2 ^ w

/-- An integer operand's value. -/
def int8Val (f c : Nat) : Int := if f = 1 && decide (128 ≤ c) then (c : Int) - 256 else c

/-- The operand that a k-step multiplies by: codes indexed by k * 64 + j, format, band scale and the scale code of (k, j). -/
structure BSlice where
  codes : Array Nat
  fmt : Nat
  band : Nat
  scales : Array Nat
  blog : Nat

/-- A plane's band scale (R152). -/
def Tile.band (x : Tile) (plane : Nat) : Nat := if plane = 0 then 0x3F80 else x.localRead (64 * plane) 2

/-- The B slice of a latch buffer. -/
def Latch.slice (l : Latch) : BSlice :=
  let f := l.fmt.toNat
  let k := latchK f
  ⟨(codesOf (fmtBits f) (k * 64) l.data.toNat).toArray, f, l.band.toNat,
    (codesOf 8 (64 * blocksOf k l.blog.toNat) l.scales.toNat).toArray, l.blog.toNat⟩

/-- The B slice of k-step i in local memory (R151, R152); its K index counts logical positions under 2:4 (log entry 64). -/
def Tile.localB (x : Tile) (m : MmaF) (rb : Word) (kper i : Nat) : BSlice :=
  let f := fmtOf rb
  let n := bSlice kper f
  let raw := (codesOf (fmtBits f) (kper * 64) (x.localRead (addrOf rb + i * n) n)).toArray
  let codes := if m.layout = 0 then raw else ((List.range (kper * 64)).map fun p => raw.getD (p % 64 * kper + p / 64) 0).toArray
  let blog := blogOf rb
  let rows := (List.range kper).map fun k => if blog = 0 then 0 else (i * kper + k) / 2 ^ blog
  let lo := rows.headD 0
  let hi := rows.getLastD 0
  let plane := if blog = 0 then 0 else x.localRead (64 * m.bPlane + 64 + 64 * lo) (64 * (hi - lo + 1))
  let sc := (codesOf 8 (64 * (hi - lo + 1)) plane).toArray
  ⟨codes, f, x.band m.bPlane, sc, blog⟩

def BSlice.scaleAt (b : BSlice) (k j : Nat) : FV := if b.blog = 0 then .fin false 1 0 else scaleVal (b.scales.getD (k / 2 ^ b.blog * 64 + j) 0)

/-- The kept (k, element) pairs of a row of A: all of them, or under 2:4 the two of each group of four; a group that is not
ascending is left out and sets SP (R156). -/
def keptPairs (sp : Bool) (ks : Nat) (row : List Nat) (nibbles : Nat) : List (Nat × Nat) × BitVec 11 :=
  if !sp then ((List.range ks).zip row, 0)
  else
    (List.range (ks / 2)).foldl (fun (acc : List (Nat × Nat) × BitVec 11) g =>
      let nib := nibbles / 16 ^ g % 16
      let p := nib % 4
      let q := nib / 4
      if p < q then (acc.1 ++ [(4 * g + p, row.getD (2 * g) 0), (4 * g + q, row.getD (2 * g + 1) 0)], acc.2)
      else (acc.1, acc.2 ||| fSP)) ([], 0)

/-- A row of A: its kept pairs with the index k within the slice. apos is the slice's place along K (R152). -/
structure ARow where
  pairs : List (Nat × Nat)
  scale : Nat → FV

/-- One k-step over a bank: 32 x 64 outputs. -/
def stepBank (bank : Bank) (fa : Nat) (rows : List ARow) (b : BSlice) (bandA : Nat) (neg : Bool) : Bank × BitVec 11 :=
  let vals := (codesOf 56 2048 bank.vals.toNat).toArray
  let out :=
    if isInt8 fa then
      rows.zipIdx.flatMap fun (r, i) => (List.range 64).map fun j =>
        let sum := r.pairs.foldl (fun (acc : Int) p => acc + int8Val fa p.2 * int8Val b.fmt (b.codes.getD (p.1 * 64 + j) 0)) 0
        addI56 (vals.getD (i * 64 + j) 0) sum neg
    else
      let ba := bf16.decode bandA
      let bb := bf16.decode b.band
      let fA := (floatFmt fa).getD bf16
      let fB := (floatFmt b.fmt).getD bf16
      rows.zipIdx.flatMap fun (r, i) => (List.range 64).map fun j =>
        let xs := r.pairs.map fun p =>
          (Scaled.mk (fA.decode p.2) (r.scale p.1), Scaled.mk (fB.decode (b.codes.getD (p.1 * 64 + j) 0)) (b.scaleAt p.1 j))
        let (c, f) := contribution xs ba bb
        let (v, g) := addFp56 (vals.getD (i * 64 + j) 0) c neg
        (v, f ||| g)
  (⟨BitVec.ofNat 114688 (packNat 56 (out.map fun p => p.1)), if bank.mode = .empty then kindOf fa else bank.mode, bank.taint⟩,
    out.foldl (fun acc p => acc ||| p.2) 0)

/-- The rows of A for the slice at place apos along K; under 2:4 the K index of its scales counts logical positions (log entry 64). -/
def Tile.rowsOf (x : Tile) (m : MmaF) (ra rc : Word) (ks apos i nb : Nat) : List ARow × BitVec 11 :=
  let f := fmtOf ra
  let n := aSlice ks f
  let v := x.localRead (addrOf ra + apos * n) n
  let meta' := if m.sp then x.localRead (addrOf rc + i * mSlice ks) (mSlice ks) else 0
  let kper := if m.sp then 2 * ks else ks
  let w := fmtBits f
  let blog := blogOf ra
  let plane := if blog = 0 then 0 else x.localRead (64 * m.aPlane + 64) (32 * nb)
  (List.range 32).foldl (fun (acc : List ARow × BitVec 11) r =>
    let row := codesOf w ks (v / 2 ^ (w * ks * r))
    let (pairs, fl) := keptPairs m.sp ks row (meta' / 2 ^ (2 * ks * r))
    let scale := fun k => if blog = 0 then FV.fin false 1 0 else scaleVal (plane / 2 ^ (8 * (r * nb + (apos * kper + k) / 2 ^ blog)) % 256)
    (acc.1 ++ [⟨pairs, scale⟩], acc.2 ||| fl)) ([], 0)

/-- One k-step of the head MMA, whose B slice is given (R277). -/
def State.accumulate (s : State) (t : Nat) (c : MCmd) (m : MmaF) (ks apos nb : Nat) (b : BSlice) : State :=
  let x := s.tile t
  let (rows, f) := x.rowsOf m c.ra c.rc ks apos c.step nb
  let (bank, g) := stepBank (x.engine.bank m.bank) (fmtOf c.ra) rows b (x.band m.aPlane) m.neg
  (s.modEngine t fun e => e.setBank m.bank bank).raiseMatrix t c (f ||| g)

/-- R161: the k-step is not accumulated; taint and TG are set and the command stops. -/
def State.badOperand (s : State) (t : Nat) (c : MCmd) (m : MmaF) : State :=
  let s := s.modEngine t fun e =>
    ({ e.setBank m.bank { e.bank m.bank with taint := true } with badScale := false } : Engine).fail cPOISON 0 c.step
  s.raiseMatrix t c fTG

/-- MATRIX_KSTEP: the head MMA performs its next k-step, if it can (R277, R278). A bank that is no longer of the kind that acceptance found,
since a handler gave up an MLOAD before it, is left as it is: the command is not refused again (R150, R158; log entry 65). -/
def State.kstep (s : State) (t : Nat) : State :=
  let x := s.tile t
  let e := x.engine
  match e.queue with
  | [] => s
  | c :: _ =>
    let m := mmaF c.image c.rc
    if e.stopped || c.lop ≠ 0x10 || m.n ≤ c.step || e.outgoing.isSome then s
    else match e.refused with
      | some q => s.modEngine t fun e => ({ e with refused := none } : Engine).fail cBADGEOM (BitVec.ofNat 64 q) c.step
      | none =>
        let fa := fmtOf c.ra
        if (e.bank m.bank).mode ≠ .empty && (e.bank m.bank).mode ≠ kindOf fa then
          s.modEngine t fun e => e.modHead fun c => { c with step := m.n }
        else if m.loc then
          match kstepPair fa (fmtOf c.rb) with
          | none => s.modEngine t fun e => e.fail cBADGEOM c.image c.step
          | some ks =>
            if e.badScale && (m.aPlane ≠ 0 || m.bPlane ≠ 0) then s.badOperand t c m
            else
              let kper := if m.sp then 2 * ks else ks
              let s := s.accumulate t c m ks c.step (blocksOf (kper * m.n) (blogOf c.ra)) (x.localB m c.rb kper c.step)
              s.modEngine t fun e => e.modHead fun c => { c with step := c.step + 1 }
        else match e.shift.consume with
          | none => s
          | some l =>
            let ks := (kstepOf fa).getD 32
            if latchK l.fmt.toNat ≠ ks || isInt8 l.fmt.toNat != isInt8 fa then
              s.modEngine t fun e => e.fail cBADGEOM (BitVec.ofNat 64 (8 + e.idx (memberOf t))) c.step
            else if e.badScale then s.badOperand t c m
            else s.modEngine t fun e => { e.shift with outgoing := some l, consume := none }

/-- A ring k-step is whole when its buffer is handed on: until then the command stands at the k-step boundary before it (R154, R160). Here the head
command's contribution from the buffer l is added. -/
def State.ringStep (s : State) (t : Nat) (l : Latch) : State :=
  let e := (s.tile t).engine
  match e.queue with
  | c :: _ =>
    if c.lop ≠ 0x10 then s
    else
      let ks := (kstepOf (fmtOf c.ra)).getD 32
      s.accumulate t c (mmaF c.image c.rc) ks (e.idx (memberOf t)) (blocksOf (ks * e.ringSize) (blogOf c.ra)) l.slice
  | [] => s

/-- A k-step or MROT whose buffer no successor has taken has not been done: the buffer is in the consume place again (R160). -/
def Engine.atBoundary (e : Engine) : Engine :=
  match e.outgoing with
  | some l => { e with consume := some l, outgoing := none }
  | none => e

/-- RING_HANDOVER: the buffer reaches the next member's receive buffer, or is refused and discarded (R154, R155), and the k-step is done. -/
def State.handover (s : State) (t : Nat) : State :=
  let e := (s.tile t).engine
  match e.outgoing with
  | none => s
  | some l =>
    let q := (e.pos (memberOf t) + 1) % e.ringSize
    let d := t - t % 8 + e.member q
    let sent := fun (e : Engine) => ({ e with outgoing := none, rstep := e.rstep + 1 } : Engine).modHead fun c => { c with step := c.step + 1 }
    let g := (s.tile d).engine
    if !g.en || g.order ≠ e.order || g.logp ≠ e.logp then (s.ringStep t l).modEngine t fun e => { sent e with refused := some q }
    else match g.take l with
      | none => s
      | some _ => ((s.ringStep t l).modEngine d fun g => (g.take l).getD g).modEngine t sent

/-! ### MSTORE (R158, R61, R281) -/

/-- One bank value to a format: its code and flags. -/
def storeElem (mode : BankMode) (rnd : Nat) (pol : Policy) (fmt c : Nat) : Nat × BitVec 11 :=
  let w := fmtBits fmt
  let lo : Int := if fmt = 2 then 0 else -(2 ^ (w - 1))
  let hi : Int := if fmt = 2 then 2 ^ w - 1 else 2 ^ (w - 1) - 1
  match mode, floatFmt fmt with
  | .empty, _ => (0, 0)
  | .float, some f => if fmt = 12 then (c, 0) else f.round rnd pol (fp56.decode c)
  | .float, none => let (x, fl) := FV.toInt rnd (pol = .trap) lo hi (fp56.decode c); (wrap w x, fl)
  | .int, some f => f.round rnd pol (FV.ofInt (i56 c))
  | .int, none =>
    let x := i56 c
    if x < lo then (wrap w lo, fSA) else if hi < x then (wrap w hi, fSA) else (wrap w x, 0)

/-- The exact value of a bank element. -/
def bankVal (mode : BankMode) (c : Nat) : FV :=
  match mode with
  | .empty => FV.zero false
  | .float => fp56.decode c
  | .int => FV.ofInt (i56 c)

/-- The greater of two magnitudes, NaN ignored. -/
def maxMag (x y : FV) : FV := if y.isNan then x else if x.isNan then y.abs else if x.abs.cmp y.abs = .lt then y.abs else x.abs

/-- sigma of a block (R61), as its code. -/
def sigma (f : Fmt) (band amax : FV) : Nat :=
  if band.isNan || band.isInf then 0xFF
  else if amax.isZero || band.isZero then 0x60
  else
    let top := (band.abs.mul (f.decode f.maxFin)).1
    ((List.range 0xFE).map (· + 1)).find? (fun c => ((scaleVal c).mul top).1.cmp amax != .lt) |>.getD 0xFE

/-- A block of a row: its scale code, its codes and flags. -/
def scaleBlock (mode : BankMode) (rnd : Nat) (pol : Policy) (fmt : Nat) (band : FV) (xs : List Nat) : Nat × List (Nat × BitVec 11) :=
  let f := (floatFmt fmt).getD e4m3
  let vs := xs.map (bankVal mode)
  let sg := sigma f band (vs.foldl maxMag (FV.zero false))
  let d := ((scaleVal sg).mul band).1
  (sg, vs.map fun x =>
    if mode = .empty then (0, 0)
    else if band.isNan || band.isInf then f.round rnd pol .nan
    else
      let (q, g) := x.div 80 d
      let (c, h) := f.round rnd pol q
      (c, g ||| h))

/-- The bytes of the 2,048 values, the bytes of the scales, and the flags. -/
def storeImage (b : Bank) (c : MCmd) : Nat × Nat × BitVec 11 :=
  let pol := policyOf (bits c.image 1 2 : BitVec 2).toNat
  let rnd := (bits c.image 3 2 : BitVec 2).toNat
  let fmt := fmtOf c.ra
  let xs := codesOf 56 2048 b.vals.toNat
  let tg := flagIf b.taint fTG
  if c.image.getLsbD 6 then
    let band := bf16.decode (bits c.rb 0 16 : BitVec 16).toNat
    let bl := 2 ^ blogOf c.ra
    let blocks := (List.range (2048 / bl)).map fun i => scaleBlock b.mode rnd pol fmt band ((xs.drop (i * bl)).take bl)
    let es := blocks.flatMap fun p => p.2
    (packNat (fmtBits fmt) (es.map fun p => p.1), packNat 8 (blocks.map fun p => p.1), es.foldl (fun acc p => acc ||| p.2) tg)
  else
    let es := xs.map (storeElem b.mode rnd pol fmt)
    (packNat (fmtBits fmt) (es.map fun p => p.1), 0, es.foldl (fun acc p => acc ||| p.2) tg)

/-- The pointer of the first value that begins in a piece at byte pos of the values (R281, R282). -/
def firstValue (p : Word) (pos : Nat) : Word :=
  let w := fmtBits (fmtOf p)
  withAddr p (addrOf p + (pos * 8 + w - 1) / w * w / 8)

/-- One line of a space-0 MSTORE. none: it waits. A poisoned or unreachable line is lost, and its loss reported by the next
release (R281, R167). A compact's hold that came after acceptance does not refuse it (R150). -/
def State.storeLine0 (s : State) (t : Nat) (c : MCmd) (v : Nat) (q : Nat × Nat × Nat × Nat) (a : Option Nat) : Option State :=
  let report := fun (code : BitVec 8) (s : State) =>
    s.modCtxAt t 0 fun k => { k with losses := k.losses ++ [⟨code, firstValue c.ra q.2.2.2, c.seq⟩] }
  let lost := fun (code : BitVec 8) => report code s
  match a with
  | none => some (lost cUNREACH)
  | some a =>
    let p := pkgOf t
    let mask := spanBytes q.2.1 q.2.2.1
    match s.gate ⟨t, engineCid, 0, true⟩ true (touched mask) (a / 128) with
    | .poison _ => some (lost cPOISON)
    | .held _ => some (lost cCOMPACTHELD)
    | .lost _ => some (lost cUNREACH)
    | .defer _ => if s.lineReached p (a / 128) then none else some (lost cUNREACH)
    | .ok g =>
      if !s.lineReached p (a / 128) then some (lost cUNREACH)
      else match s.sendLine p (a / 128) with
        | (.ok _, s) => some ((s.engineWrite p g mask (placeBytes v q.2.2.2 q.2.1 q.2.2.1)).modTile t fun x =>
            (x.dropStale (a / 128) (touched mask)).dropWords g (touched mask))
        | (.wait, _) => none
        | (.fault c, s) => some (report c s)

/-- What the lines of a command meet. -/
inductive CmdLines where
  | ok (addrs : List (Option Nat))
  | fail (code : BitVec 8) (p : Word)
  | wait

/-- Where the lines of a space-0 MSTORE or MLOAD lie: as its acceptance found them, or translated now, when a TLBINV or the way through an image
has dropped that (R40, R160). -/
def State.cmdLines (s : State) (t : Nat) (c : MCmd) (acc : Acc) : CmdLines × State :=
  if spaceOf c.ra ≠ 0 || c.addrs ≠ [] then (.ok c.addrs, s)
  else
    let k := s.ctxAt t 0
    (pieces (addrOf c.ra) (256 * fmtBits (fmtOf c.ra))).foldl (fun (r : CmdLines × State) q =>
      match r with
      | (.ok ps, s) =>
        match s.translate ⟨t, 0, k.asid, k.priv⟩ q.1 c.ra with
        | (.wait, s) => (.wait, s)
        | (.fault e, s) => (.fail e (firstValue c.ra q.2.2.2), s)
        | (.leaf e large, s) =>
          if permits e acc k.priv then (.ok (ps ++ [s.globalAddr (pkgOf t) (leafPa e large q.1)]), s)
          else (.fail cPROT (firstValue c.ra q.2.2.2), s)
      | r => r) (.ok [], s)

/-- What acceptance found of the lines of queued commands is forgotten, of all of them or those that a test names. -/
def Engine.forgetLines (e : Engine) (f : MCmd → Bool) : Engine :=
  { e with queue := e.queue.map fun c => if f c then { c with addrs := [] } else c }

/-- MSTORE writes its values; none: it waits. -/
def State.retireStore (s : State) (t : Nat) (c : MCmd) : Option State :=
  let e := (s.tile t).engine
  let b := (bits c.image 0 1).toNat
  let (v, sc, fl) := storeImage (e.bank b) c
  let n := 256 * fmtBits (fmtOf c.ra)
  let plane := (bits c.image 32 12 : BitVec 12).toNat
  let s := if c.image.getLsbD 6 then
      s.modTile t fun x => (x.localWrite (64 * plane) 2 (bits c.rb 0 16 : BitVec 16).toNat).localWrite (64 * plane + 64)
        (32 * (64 / 2 ^ blogOf c.ra)) sc
    else s
  let s := if spaceOf c.ra = 1 then some (s.modTile t fun x => x.localWrite (addrOf c.ra) n v)
    else ((pieces (addrOf c.ra) n).zip c.addrs).foldlM (fun s p => s.storeLine0 t c v p.1 p.2) s
  s.map fun s =>
    let s := s.raiseMatrix t c fl
    s.modEngine t fun e => (if c.image.getLsbD 5 then e.setBank b Bank.reset else e).retire

/-! ### MLOAD (R158, R282) -/

/-- A loaded value as a bank value. -/
def loadElem (fmt c : Nat) : Nat × BitVec 11 :=
  match floatFmt fmt with
  | some f => if fmt = 12 then (c, 0) else ((fp56.round 0 .arith (f.decode c)).1, 0)
  | none =>
    let w := fmtBits fmt
    let x : Int := if fmt ≠ 2 && decide (2 ^ (w - 1) ≤ c) then (c : Int) - 2 ^ w else c
    let (r, f) := satI56 x
    (wrap 56 r, f)

/-- What the read of the values meets. -/
inductive LoadRes where
  | ok (v : Nat)
  | fail (code : BitVec 8) (p : Word)
  | wait

/-- The values in space 0, line by line: the failing line of lowest address is the one reported. -/
def State.readLines0 (s : State) (t : Nat) (c : MCmd) : LoadRes × State :=
  ((pieces (addrOf c.ra) (256 * fmtBits (fmtOf c.ra))).zip c.addrs).foldl (fun (r : LoadRes × State) p =>
    match r with
    | (.ok v, s) =>
      let q := p.1
      match p.2 with
      | none => (.fail cUNREACH (firstValue c.ra q.2.2.2), s)
      | some a =>
        match s.peekLine ⟨t, engineCid, 0, true⟩ (a / 128) (spanWords q.2.1 q.2.2.1) (withAddr c.ra q.1) with
        | (.wait, s) => (.wait, s)
        | (.fault e, s) => (.fail e (firstValue c.ra q.2.2.2), s)
        | (.line d, s) => (.ok (v + d.toNat / 2 ^ (8 * q.2.1) % 2 ^ (8 * q.2.2.1) * 2 ^ (8 * q.2.2.2)), s)
    | r => r) (.ok 0, s)

/-- MLOAD: the bank is written once every value is read. -/
def State.retireLoad (s : State) (t : Nat) (c : MCmd) : State :=
  let b := (bits c.image 0 1).toNat
  let fmt := fmtOf c.ra
  let n := 256 * fmtBits fmt
  let (r, s) := if spaceOf c.ra = 1 then (LoadRes.ok ((s.tile t).localRead (addrOf c.ra) n), s) else s.readLines0 t c
  match r with
  | .wait => s
  | .fail code p => s.modEngine t fun e => e.fail code p 0
  | .ok v =>
    let es := (codesOf (fmtBits fmt) 2048 v).map (loadElem fmt)
    let s := s.raiseMatrix t c (es.foldl (fun acc p => acc ||| p.2) 0)
    s.modEngine t fun e =>
      (e.setBank b ⟨BitVec.ofNat 114688 (packNat 56 (es.map fun p => p.1)), loadMode fmt, false⟩).retire

/-! ### MLDB, MROT and retirement -/

/-- Slice k of an MLDB (R279). -/
def Tile.latchOf (x : Tile) (c : MCmd) (pos k : Nat) : Latch :=
  let fmt := fmtOf c.ra
  let blog := blogOf c.ra
  let plane := (bits c.image 32 12 : BitVec 12).toNat
  let nb := blocksOf (latchK fmt) blog
  ⟨BitVec.ofNat 65536 (x.localRead (addrOf c.ra + 4096 * k) 4096), BitVec.ofNat 5 fmt, BitVec.ofNat 4 blog,
    BitVec.ofNat 16 (x.band plane), BitVec.ofNat 8192 (if nb = 0 then 0 else x.localRead (64 * plane + 64 + 64 * nb * k) (64 * nb)), pos⟩

/-- MLDB fills the buffers that it reserved. -/
def Tile.retireMldb (x : Tile) (c : MCmd) (pos : Nat) : Engine :=
  let n := (bits c.image 0 6 : BitVec 6).toNat
  let e := (List.range n).foldl (fun (e : Engine) k => e.fill (x.latchOf c pos k)) x.engine
  ({ e with reserved := e.reserved - n } : Engine).retire

/-- MROT (R280): the consume buffer leaves; then, with .wait, an incoming buffer is waited for. -/
def Engine.rotate (e : Engine) (c : MCmd) : Engine :=
  if c.step = 0 then
    match e.shift.consume with
    | some l => if e.outgoing.isSome then e else { e.shift with outgoing := some l, consume := none }
    | none => e
  else if c.image.getLsbD 0 && e.consume.isNone && e.receive.isNone then e
  else e.retire

/-- MATRIX_COMMAND_RETIREMENT: the head command, when it is not an MMA with k-steps left, does what it does and retires (R150). A
command resumed at or above its count retires at once (R160). -/
def State.retireCmd (s : State) (t : Nat) : State :=
  let x := s.tile t
  let e := x.engine
  match e.queue with
  | [] => s
  | c :: _ =>
    if e.stopped || e.outgoing.isSome then s
    else match c.sub with
      | some 0 => s.modEngine t fun e => ({ e with rstep := 0 } : Engine).retire
      | some 2 => s.modEngine t fun e => (e.setBank (bits c.image 0 1).toNat Bank.reset).retire
      | some _ => s.modEngine t Engine.retire
      | none =>
        match c.lop with
        | 0x10 => if (mmaF c.image c.rc).n ≤ c.step then s.modEngine t Engine.retire else s
        | 0x12 => s.modEngine t fun _ => x.retireMldb c (e.pos (memberOf t))
        | 0x13 => s.modEngine t fun e => e.rotate c
        | _ =>
          if c.lop ≠ 0x14 && 1 ≤ c.step then s.modEngine t Engine.retire
          else match s.cmdLines t c (if c.lop = 0x14 then .store else .load) with
            | (.wait, s) => s
            | (.fail code p, s) => s.modEngine t fun e => e.fail code p 0
            | (.ok ps, s) =>
              let c := { c with addrs := ps }
              if c.lop = 0x14 then (s.retireStore t c).getD s else s.retireLoad t c

def execMatrixKstep (t : Nat) (s : State) : Host.Outcome State Fault Refusal := happen (fun s => s.kstep t) s
def execRingHandover (t : Nat) (s : State) : Host.Outcome State Fault Refusal := happen (fun s => s.handover t) s
def execMatrixCommandRetirement (t : Nat) (s : State) : Host.Outcome State Fault Refusal := happen (fun s => s.retireCmd t) s

end Sys2Proof.Machine
end

