-- ==== Sys2Proof/Machine/Copy.lean ====
section
/-! DEFINITION. The copy engine: transfer records and the walk of a chain (R92 to R98), landing destinations (R99 to R102),
credits (R107), all-or-nothing tiles (R108 to R110), page migration (R44, R98), and the instructions over channels and direct
transfers (R284 to R288). -/
namespace Sys2Proof.Machine

/-! ## Status codes (R97) -/

def xOK : BitVec 8 := 0x00
def xBADGEN : BitVec 8 := 0x01
def xSTALE : BitVec 8 := 0x02
def xUNREACH : BitVec 8 := 0x03
def xPOISON : BitVec 8 := 0x04
def xPAGE : BitVec 8 := 0x05
def xPROT : BitVec 8 := 0x06
def xSPACE : BitVec 8 := 0x07
def xALIGN : BitVec 8 := 0x08
def xRANGE : BitVec 8 := 0x09
def xBADREC : BitVec 8 := 0x0B
def xPRIV : BitVec 8 := 0x0C
def xKILLED : BitVec 8 := 0x0D

/-- The status of a cause that an engine meets. -/
def xferCode (c : BitVec 8) : BitVec 8 :=
  if c = cPAGE then xPAGE else if c = cPROT then xPROT else if c = cPOISON then xPOISON
  else if c = cSPACE then xSPACE else if c = cALIGN then xALIGN else xUNREACH

def Xfer.finish (x : Xfer) (code : BitVec 8) : Xfer := { x with code := code, finished := true }

/-- A transfer that has done nothing yet. -/
def Xfer.new (kind : Nat) (aon : Bool) (src dst : Word) (len bx : Nat) (a : Armer) : Xfer where
  kind := kind
  aon := aon
  src := src
  dst := dst
  len := len
  bx := bx
  bar := none
  pos := 0
  wrote := 0
  moved := 0
  retry := 0
  v1 := none
  ver := none
  begun := false
  stale := false
  code := 0
  finished := false
  inst := 0
  next := 0
  flags := 0
  armer := a

/-! ## Before the first piece (R95, R97, R100, R108) -/

/-- What a check finds: it passes, fails with a status, or waits. -/
inductive Check (α : Type) where
  | ok (v : α)
  | bad (code : BitVec 8)
  | wait
  deriving DecidableEq, Repr

/-- The global barrier of a record (R95): its address at its home. R95 gives no code for one that is out of reach, and R97's UNREACH speaks of
source and destination: UNREACH is the model's choice (log entry 79). -/
def State.barCheck (s : State) (k : Asker) (p : Word) : Check Nat × State :=
  if spaceOf p ≠ 0 then (.bad xSPACE, s)
  else if addrOf p % 32 ≠ 0 then (.bad xALIGN, s)
  else match s.locate k (addrOf p) .amo p with
    | (.wait, s) => (.wait, s)
    | (.fault c, s) => (.bad (xferCode c), s)
    | (.ok a _, s) =>
      match s.gate k true (spanWords (a % 128) 32) (a / 128) with
      | .held _ => (.bad xPROT, s)
      | .poison _ => (.bad xPOISON, s)
      | .lost _ => (.bad xUNREACH, s)
      | g =>
        if !s.lineReached (pkgOf k.tile) (a / 128) then (.bad xUNREACH, s)
        else match g with
          | .ok g => (.ok (g * 128 + a % 128), s)
          | _ => (.wait, s)

/-- The tile that a landing handle names. -/
def State.handleTile (s : State) (p : Word) : Option Nat := (s.pkgOfDev (ptrDev p)).map fun q => q * 4096 + ptrTile p

/-- R100. -/
def State.landingCheck (s : State) (t : Nat) (p : Word) (len : Nat) : BitVec 8 :=
  if 2688 ≤ ptrTile p then xBADGEN
  else match s.handleTile p with
    | none => xUNREACH
    | some d =>
      let k := (s.tile d).slot (hSlot p)
      if !s.tileReached (pkgOf t) d then xUNREACH
      else if !k.alloc || k.gen ≠ hGen p then xBADGEN
      else if hOff p % 512 ≠ 0 then xALIGN
      else if k.size * 512 < hOff p + len then xRANGE
      else xOK

/-- The checks of a COPY's pointers; ap tells whether the aperture is a destination. -/
def State.copyCheck (s : State) (t : Nat) (x : Xfer) (ap : Bool) : Check Xfer × State :=
  let sp := spaceOf x.dst
  if 1 < spaceOf x.src || !(sp = 0 || sp = 1 || sp = 3 || (ap && sp = 4)) then (.bad xSPACE, s)
  else if x.aon && spaceOf x.src ≠ 0 && sp ≠ 0 then (.bad xBADREC, s)
  else if x.aon && ((spaceOf x.src = 0 && addrOf x.src % 8 ≠ 0) || (sp = 0 && addrOf x.dst % 8 ≠ 0)) then (.bad xALIGN, s)
  else if sp = 3 then
    let c := s.landingCheck t x.dst x.len
    if c = xOK then (.ok x, s) else (.bad c, s)
  else if sp = 4 then
    match s.apertureCheck t x.dst x.len with
    | (.ok i, s) => (.ok { x with inst := i }, s)
    | (.fault c, s) => (.bad (xferCode c), s)
    | (.wait, s) => (.wait, s)
  else (.ok x, s)

/-! ## Credits (R107) -/

/-- Who holds a version word, or waits for it, and whose credits are on their way: channel ch of tile t (4: the direct queue) for a partition. -/
def holdKey (t pid ch : Nat) : Nat := 8 * (t + 2 ^ 24 * pid) + ch
def Xfer.key (x : Xfer) (t ch : Nat) : Nat := holdKey t x.armer.pid ch
/-- The tile of a key. -/
def keyTile (key : Nat) : Nat := key / 8 % 2 ^ 24

/-- The record ends OK, unless it has ended already. -/
def Xfer.finishOk (x : Xfer) : Xfer := if x.finished then x else x.finish xOK

/-- n bytes credited to the transfer's barriers. A barrier whose line a compact has taken ends the record with PROT (R124). -/
def State.creditXfer (s : State) (t ch : Nat) (x : Xfer) (n : Nat) : State × Xfer :=
  let near := fun (s : State) => if x.bx < 16 then s.localBarrier t x.bx 0 n else s
  match x.bar with
  | some a =>
    if (s.dir (s.forwarded 8 (a / 128))).st = .held then (s, x.finish xPROT)
    else ((near s).sendUpdate t a 0 n (x.key t ch + 1), { x with moved := x.moved + n })
  | none => (near s, { x with moved := x.moved + n })

/-- A credit of the transfer has not reached its barrier (R96, R104). -/
def State.creditsOpen (s : State) (t ch : Nat) (x : Xfer) : Bool :=
  s.updatesWait || s.held.any fun h => h.open && h.cid = goneCid && h.seq = x.key t ch + 1 &&
    match h.work with
    | .update _ _ _ _ => true
    | _ => false

/-- An AON read credits nothing until its copy is accepted (R110), or the read stops (R97). -/
def Xfer.quiet (x : Xfer) : Bool := x.aon && spaceOf x.src = 0

/-- A line or chunk of n bytes is written: it is credited and counted, unless the read may be tried again. -/
def State.grantBytes (s : State) (t ch : Nat) (x : Xfer) (n : Nat) : State × Xfer :=
  let x := { x with pos := x.pos + n, wrote := max x.wrote (x.pos + n) }
  if x.quiet then (s, x) else s.creditXfer t ch x n

/-! ## One piece (R92, R93, R101, R102) -/

/-- The bytes of a source. -/
def State.readSource (s : State) (t : Nat) (x : Xfer) (n : Nat) : EngRes Nat × State :=
  let a := addrOf x.src + x.pos
  if spaceOf x.src = 1 then
    if (s.tile t).pinnedRange a n then (.ok ((s.tile t).localRead a n), s) else (.fault cPAGE, s)
  else if 2 ^ 52 < a + n then (.fault cPAGE, s)
  else s.engineRead x.armer.asker x.src a n

/-- A piece to space 0, line by line (R97). -/
def State.writeGlobal (s : State) (t ch : Nat) (x : Xfer) (n v : Nat) : State × Xfer :=
  let a := addrOf x.dst + x.pos
  if 2 ^ 52 < a + n then (s, x.finish xPAGE)
  else
    let (_, s, x) := (pieces a n).foldl (fun (r : Bool × State × Xfer) q =>
      let (go, s, x) := r
      if !go then r
      else match s.resolve x.armer.asker q.1 .store x.dst with
        | (.wait, s) => (false, s, x)
        | (.fault c, s) => (false, s, x.finish (xferCode c))
        | (.ok g _, s) =>
          match s.engineWriteAt x.armer.asker (g / 128) (spanBytes q.2.1 q.2.2.1) (placeBytes v q.2.2.2 q.2.1 q.2.2.1) with
          | (.ok _, s) => let (s, x) := s.grantBytes t ch x q.2.2.1; (!x.finished, s, x)
          | (.wait, s) => (false, s, x)
          | (.fault c, s) => (false, s, x.finish (xferCode c))) (true, s, x)
    (s, x)

/-- A chunk to a landing slot: dropped when the generation has changed. One that crosses the fabric is written before its tag is checked, and
gets its bit and credit when the tag has passed; the path of its spans is that of its handle (R101, R102, R172). -/
def State.writeLanding (s : State) (t ch : Nat) (x : Xfer) (n v : Nat) : State × Xfer :=
  match s.handleTile x.dst with
  | none => (s, x.finish xUNREACH)
  | some d =>
    let p := pkgOf t
    let q := pkgOf d
    let off := hOff x.dst + x.pos
    let land := fun (s : State) =>
      let k := (s.tile d).slot (hSlot x.dst)
      if !k.alloc || k.gen ≠ hGen x.dst || decide (k.size ≤ off / 512) then (s, { x with stale := true, pos := x.pos + n })
      else if x.quiet then (s.modTile d fun y => y.slotWrite k.pid (k.off + off) n v).grantBytes t ch x n
      else (s.landChunk d (hSlot x.dst) (hGen x.dst) (off / 512) (off % 512) n v).1.grantBytes t ch x n
    if !s.tileReached p d then (s, x.finish xUNREACH)
    else if !s.crosses p q then land s
    else
      let via := s.ptrVia p x.dst
      let key := pathKey (s.dev q).pos.toNat via
      let own := SpanOwner.xfer t ch
      let flits := spanFlits n
      if !s.pathOpen p q via flits key (some own) || decide (s.slotRoom p (s.firstHop q via) < flits) then (s, x)
      else
        let bad := match (s.dev p).fabric.garbled.find? fun e => e.1 = key with
          | some (_, g) => (v ^^^ g.flip) % 2 ^ (8 * n)
          | none => v
        match s.transmit p key own n v with
        | (.ok, s) => land (s.netPay p q via flits)
        | (.again, s) =>
          let k := (s.tile d).slot (hSlot x.dst)
          if !k.alloc || k.gen ≠ hGen x.dst || decide (k.size ≤ off / 512) then (s, x)
          else (s.modTile d fun y => y.slotWrite k.pid (k.off + off) n bad, x)
        | (.lost, s) => (s, x.finish xUNREACH)

/-- A piece to the aperture is granted when every copy of it has been applied (R184). -/
def State.writeAperture (s : State) (t ch : Nat) (x : Xfer) (n v : Nat) : State × Xfer :=
  let g := (s.progs (pkgOf t) (regionOf t)).any fun g => g.forwards.any fun c =>
    c.tile = t && c.cid = engineCid && c.ptr = x.dst && c.seq = x.pos
  if x.begun then (if g then (s, x) else s.grantBytes t ch { x with begun := false } n)
  else
    match s.apertureApply (pkgOf t) (regionOf t) { x.armer with tile := t, cid := engineCid } x.dst x.pos (apId x.dst) x.inst (apOp x.dst)
        (apBuf x.dst) (apOff x.dst + x.pos) n (ones (8 * n)) v with
    | (.ok _, s) => (s, { x with begun := true })
    | (.fault c, s) => (s, x.finish (xferCode c))
    | (.wait, s) => (s, x)

/-- The next piece of a COPY: at most 512 bytes. The pieces of a transfer may complete in any order (R93, R101, R384); here they go in that of their
addresses, and so do the chunk bits (log entry 56). -/
def State.copyBytes (s : State) (t ch : Nat) (x : Xfer) : State × Xfer :=
  let n := min (512 - x.pos % 512) (x.len - x.pos)
  match s.readSource t x n with
  | (.wait, s) => (s, x)
  | (.fault c, s) => (s, x.finish (xferCode c))
  | (.ok v, s) =>
    match spaceOf x.dst with
    | 0 => s.writeGlobal t ch x n v
    | 1 =>
      let a := addrOf x.dst + x.pos
      if (s.tile t).pinnedRange a n then (s.modTile t fun y => y.localWrite a n v).grantBytes t ch x n
      else (s, x.finish xPAGE)
    | 3 => s.writeLanding t ch x n v
    | _ => s.writeAperture t ch x n v

/-! ## All-or-nothing tiles (R108 to R110) -/

/-- The version word at a global byte address. -/
def State.versionAt (s : State) (a : Nat) : Nat := readNat (s.servePeek (a / 128) (spanWords (a % 128) 8)).mem a 8

/-- The home raises a version word by one, as it serves a writer; a line that has moved is followed (R44). -/
def State.bumpVersion (s : State) (a : Nat) : State :=
  let gl := s.forwarded 8 (a / 128)
  let a := gl * 128 + a % 128
  let s := s.serveWrite (pkgOfGl gl) gl (spanWords (a % 128) 8)
  { s with mem := writeNat s.mem a 8 ((readNat s.mem a 8 + 1) % 2 ^ 64) }

/-- The version word at a place is even, held by no ninth read, and nobody who came before waits for it (R109, R110). -/
def State.versionFree (s : State) (a key : Nat) : Bool :=
  s.versionAt a % 2 = 0 && (s.aonHolds.all fun h => h.1 ≠ a) &&
    match s.aonWaits.find? fun w => w.1 = a with
    | some w => w.2 = key
    | none => true

/-- Who waits for a version word waits in the order of arrival. -/
def State.awaitVersion (s : State) (a key : Nat) : State :=
  if s.aonWaits.any fun w => w.1 = a && w.2 = key then s else { s with aonWaits := s.aonWaits ++ [(a, key)] }
/-- The wait is over. -/
def State.dropWait (s : State) (key : Nat) : State := { s with aonWaits := s.aonWaits.filter fun w => w.2 ≠ key }

/-- The raise to odd: it waits while the version is odd or held, and after those who came before. -/
def State.raiseOdd (s : State) (a key : Nat) : Option State :=
  if s.versionFree a key then some ((s.bumpVersion a).dropWait key) else none

/-- Where the version word of a tile at p lies. A tile at address 0 has no word before it: its version is taken at address 0 (log entry 57). -/
def State.versionPlace (s : State) (x : Xfer) (p : Word) (acc : Acc) : EngRes Nat × State :=
  match s.resolve x.armer.asker (addrOf p - 8) acc p with
  | (.wait, s) => (.wait, s)
  | (.fault c, s) => (.fault c, s)
  | (.ok a _, s) =>
    match s.gate x.armer.asker (acc = .store) (spanWords (a % 128) 8) (a / 128) with
    | .ok g =>
      match s.sendLine (pkgOf x.armer.tile) (a / 128) with
      | (.ok _, s) => (.ok (g * 128 + a % 128), s)
      | (.wait, s) => (.wait, s)
      | (.fault c, s) => (.fault c, s)
    | .held _ => (.fault cPROT, s)
    | .poison _ => (.fault cPOISON, s)
    | .lost _ => (.fault cUNREACH, s)
    | .defer _ => (.wait, s)

/-- The holds and waits under a key end. -/
def State.dropHolds (s : State) (key : Nat) : State :=
  { s with
    aonHolds := s.aonHolds.filter fun h => h.2 ≠ key
    aonWaits := s.aonWaits.filter fun w => w.2 ≠ key }

/-- A try of an AON read begins: an odd version uses the try up; the ninth waits for an even one and holds it. -/
def State.beginTry (s : State) (t ch : Nat) (x : Xfer) : State × Xfer :=
  match s.versionPlace x x.src .load with
  | (.wait, s) => (s, x)
  | (.fault c, s) => (s, x.finish (xferCode c))
  | (.ok a, s) =>
    let v := s.versionAt a
    if x.retry < 8 then
      if v % 2 = 1 then (s, { x with retry := x.retry + 1 }) else (s, { x with v1 := some (BitVec.ofNat 64 v) })
    else if !s.versionFree a (x.key t ch) then (s.awaitVersion a (x.key t ch), x)
    else
      let s := s.dropWait (x.key t ch)
      ({ s with aonHolds := s.aonHolds ++ [(a, x.key t ch)] }, { x with v1 := some (BitVec.ofNat 64 v) })

/-- Credits of the first n bytes that an AON read has written, line by line or chunk by chunk; landing chunks get their bits (R101, R107). -/
def State.creditAll (s : State) (t ch : Nat) (x : Xfer) (n : Nat) : State × Xfer :=
  if spaceOf x.dst = 3 then
    (List.range ((n + 511) / 512)).foldl (fun (r : State × Xfer) i =>
      let (s, x) := r
      let m := min 512 (n - 512 * i)
      match s.handleTile x.dst with
      | none => r
      | some d =>
        let (s1, ok) := s.landChunk d (hSlot x.dst) (hGen x.dst) (hOff x.dst / 512 + i) 0 0 0
        if ok then s1.creditXfer t ch x m else (s, { x with stale := true })) (s, x)
  else (pieces (addrOf x.dst) n).foldl (fun r q => r.1.creditXfer t ch r.2 q.2.2.1) (s, x)

/-- An AON read that stops leaves what it has written: it is credited and counted (R97). -/
def State.creditStopped (s : State) (t ch : Nat) (x : Xfer) : State × Xfer :=
  if x.finished && x.kind = 0 && x.quiet && x.code ≠ xOK && x.code ≠ xSTALE && x.moved = 0 && x.wrote ≠ 0 then s.creditAll t ch x x.wrote else (s, x)

/-- The copy of a try is done: its version is read again. -/
def State.endTry (s : State) (t ch : Nat) (x : Xfer) : State × Xfer :=
  match s.versionPlace x x.src .load with
  | (.wait, s) => (s, x)
  | (.fault c, s) => (s, x.finish (xferCode c))
  | (.ok a, s) =>
    if x.v1 = some (BitVec.ofNat 64 (s.versionAt a)) then
      let (s, x) := (s.dropHolds (x.key t ch)).creditAll t ch x x.len
      (s, if x.finished then x else x.finish (if x.stale then xSTALE else xOK))
    else (s, { x with retry := x.retry + 1, pos := 0, v1 := none })

/-- The next thing a COPY does. -/
def State.copyStep (s : State) (t ch : Nat) (x : Xfer) : State × Xfer :=
  if x.len = 0 then let (s, x) := s.creditXfer t ch x 0; (s, x.finishOk)
  else if x.aon && spaceOf x.dst = 0 && x.ver.isNone then
    match s.versionPlace x x.dst .store with
    | (.wait, s) => (s, x)
    | (.fault c, s) => (s, x.finish (xferCode c))
    | (.ok a, s) =>
      match s.raiseOdd a (x.key t ch) with
      | some s => (s, { x with ver := some a })
      | none => (s.awaitVersion a (x.key t ch), x)
  else if x.quiet && x.v1.isNone then s.beginTry t ch x
  else if x.pos < x.len then s.copyBytes t ch x
  else if x.quiet then s.endTry t ch x
  else (s, x.finish (if x.stale then xSTALE else xOK))

/-! ## MIGRATE and RETIRE (R44, R98) -/

/-- Global line i of the page at a physical address; each line of one in the striped window has its own place (R29, R30). -/
def State.pageLine (s : State) (t : Nat) (pa : Word) (i : Nat) : Option Nat :=
  (s.globalAddr (pkgOf t) (addrOf pa + 128 * i)).map fun a => a / 128

/-- The first n lines of the page. -/
def State.pageLines (s : State) (t : Nat) (pa : Word) (n : Nat) : List Nat := (List.range n).filterMap fun i => s.pageLine t pa i

/-- Lines of a page still in MIGRATING return to NORMAL, and what waits for them is served. -/
def State.unmigrate (s : State) (lines : List Nat) : State :=
  lines.foldl (fun s l =>
    if (s.dir l).st = .migrating then (s.modDir l fun d => { d with st := .normal }).serveLine l else s) s

/-- MIGRATE of one line: owners recalled, the line copied, the source in FORWARD; what waited follows, in the order of arrival. -/
def State.migrateLine (s : State) (src dst : Nat) : State :=
  let s := s.clearRemote src (pkgOfGl src) true
  let s := s.recallOwners src src (BitVec.allOnes 32) true none
  let v := readLine s.mem src
  let s := s.serveWrite (pkgOfGl dst) dst (BitVec.allOnes 32)
  let s : State := { s with mem := writeLine s.mem dst (BitVec.allOnes 128) v }
  ((s.modDir src fun d => { d with st := .forward dst }).serveLine src).serveLine dst

/-- The record starts: every line that is NORMAL enters MIGRATING together. -/
def State.beginMigrate (s : State) (lines : List Nat) : State :=
  lines.foldl (fun s l => if (s.dir l).st = .normal then s.modDir l fun d => { d with st := .migrating } else s) s

/-- What MIGRATE finds at a line: it is moved now, has been moved already, or must first leave its compact (R124), be given up by the host or
get its helper's values. -/
inductive Moving where
  | move | moved | wait | stop (code : BitVec 8)
  deriving DecidableEq, Repr

/-- The move of line l to line to'. The spec is silent on two points, which are the model's choice (log entry 78): a source line that is in FORWARD
when the record comes to it counts as moved, to where it is; and the record waits for a destination line that is itself moving, in FORWARD or
tentative, or of which the host has a copy, and ends with POISON at one that is poisoned. -/
def State.moving (s : State) (t l to' : Nat) : Moving :=
  let d := s.dir l
  let e := s.dir to'
  if !s.lineReached (pkgOf t) l || !s.lineReached (pkgOf t) to' then .stop xUNREACH
  else match d.st with
    | .poison => .stop xPOISON
    | .forward _ => .moved
    | .held => .wait
    | _ =>
      if e.st = .poison then .stop xPOISON
      else if e.st ≠ .normal || d.host ≠ .none || !d.tentative.isEmpty || e.host ≠ .none || !e.tentative.isEmpty ||
          !s.remoteOpen l (pkgOfGl l) true || !s.remoteOpen to' (pkgOfGl to') true then .wait
      else .move

/-- One line of a MIGRATE, whose data crosses the fabric where its new home is in another package; go tells whether the piece goes on. -/
def State.moveLine (s : State) (t ch : Nat) (x : Xfer) : State × Xfer × Bool :=
  let i := x.pos / 128
  match s.pageLine t x.src i, s.pageLine t x.dst i with
  | some l, some to' =>
    let grant := fun (s : State) => let (s, x) := s.creditXfer t ch { x with pos := x.pos + 128 } 128; (s, x, !x.finished)
    match s.moving t l to' with
    | .stop c => (s, x.finish c, false)
    | .wait => (s, x, false)
    | .moved => grant s
    | .move =>
      match s.sendNow (pkgOfGl l) (pkgOfGl to') (s.lineVia (pkgOfGl l) to') 128 (readLine s.mem l).toNat with
      | (.ok _, s) => grant (s.migrateLine l to')
      | (.wait, s) => (s, x, false)
      | (.fault c, s) => (s, x.finish (xferCode c), false)
  | _, _ => (s, x.finish xUNREACH, false)

/-- The next four lines of a MIGRATE. A record that a poisoned line ends gives the lines it has not copied back to NORMAL, as one that loses
its destination does (R45; log entry 58). -/
def State.migrateStep (s : State) (t ch : Nat) (x : Xfer) : State × Xfer :=
  let n := x.len / 128
  let src := fun (s : State) => s.pageLines t x.src n
  if (s.pageLine t x.src 0).isNone || (s.pageLine t x.dst 0).isNone then (s.unmigrate (src s), x.finish xUNREACH)
  else if !x.begun then (s.beginMigrate (src s), { x with begun := true })
  else
    let (s, x, _) := (List.range (min 4 ((x.len - x.pos) / 128))).foldl (fun (r : State × Xfer × Bool) _ =>
      if r.2.2 then r.1.moveLine t ch r.2.1 else r) (s, x, true)
    if x.finished then (s.unmigrate (src s), x) else (s, if x.len ≤ x.pos then x.finish xOK else x)

/-- RETIRE: the page returns from FORWARD to NORMAL. The spec gives neither its size, which is taken from LEN (536,870,912 bytes, else 65,536), nor
its credit, which is of 0 bytes (log entry 59). -/
def State.retireStep (s : State) (t ch : Nat) (x : Xfer) : State × Xfer :=
  if (s.pageLine t x.src 0).isNone then (s, x.finish xUNREACH)
  else
    let s := (s.pageLines t x.src (if x.len = 536870912 then 4194304 else 512)).foldl (fun s l =>
      match (s.dir l).st with
      | .forward _ => s.modDir l fun d => { d with st := .normal }
      | _ => s) s
    let (s, x) := s.creditXfer t ch x 0
    (s, x.finishOk)

/-- The next thing a transfer does. -/
def State.xferStep (s : State) (t ch : Nat) (x : Xfer) : State × Xfer :=
  match x.kind with
  | 0 => let (s, x) := s.copyStep t ch x; s.creditStopped t ch x
  | 1 => s.migrateStep t ch x
  | _ => s.retireStep t ch x

/-- A transfer is killed (R287). What an AON read has written is counted. Lines of a MIGRATE that are not copied yet stay in MIGRATING: the
spec gives the way back to NORMAL only for a lost destination (log entry 58). -/
def State.killXfer (s : State) (t ch : Nat) (x : Xfer) : State × Xfer :=
  if x.finished then (s, x) else s.creditStopped t ch (x.finish xKILLED)

/-! ## Channels (R96) -/

/-- The channel stops with a code; EE is set in the walk's armer of record. -/
def State.stopChan (s : State) (t ch : Nat) (code : BitVec 8) (moved : Nat) : State :=
  let a := ((s.tile t).chan ch).armer
  (s.modChan t ch fun c => { c with st := .stopped code, cur := none, moved := moved }).raiseIn a fEE

/-- A record of 64 bytes as a transfer of an armer, before its checks; false: reserved fields or KIND (R95). A MIGRATE of any LEN but the two
that R95 names ends BADREC (log entry 60). -/
def recordXfer (v : Nat) (a : Armer) : Xfer × Option Word × Bool :=
  let w := fun (i : Nat) => (BitVec.ofNat 64 (v / 2 ^ (64 * i)) : Word)
  let f := w 1
  let kind := (bits f 60 3).toNat
  let bx := (bits f 53 5).toNat
  let len := (bits (w 4) 0 40).toNat
  let bad := decide (2 < kind) || bits f 0 53 ≠ 0 || (15 < bx && bx ≠ 31) || bits (w 4) 40 24 ≠ 0 || bits (w 6) 56 8 ≠ 0 ||
    (kind = 1 && len ≠ 65536 && len ≠ 536870912)
  let x := { Xfer.new kind (f.getLsbD 59) (w 2) (w 3) len bx a with next := w 0, flags := bits f 32 32 }
  (x, if f.getLsbD 58 then some (w 5) else none, !bad)

/-- The transfer of a record after its checks: one that fails a check is finished with its code. -/
def State.checkRecord (s : State) (t : Nat) (a : Armer) (r : Xfer × Option Word × Bool) : Option Xfer × State :=
  let (x, bar, ok) := r
  if !ok then (some (x.finish xBADREC), s)
  else if x.kind ≠ 0 && !a.priv then (some (x.finish xPRIV), s)
  else
    let (c, s) := if x.kind = 0 then s.copyCheck t x false else (.ok x, s)
    match c with
    | .wait => (none, s)
    | .bad e => (some (x.finish e), s)
    | .ok x =>
      match bar with
      | none => (some x, s)
      | some b =>
        match s.barCheck a.asker b with
        | (.wait, s) => (none, s)
        | (.bad e, s) => (some (x.finish e), s)
        | (.ok g, s) => (some { x with bar := some g }, s)

/-- The channel reads the record at its head. -/
def State.loadRecord (s : State) (t ch : Nat) : State :=
  let c := (s.tile t).chan ch
  let p := c.head
  if spaceOf p ≠ 0 then s.stopChan t ch xSPACE 0
  else if addrOf p % 64 ≠ 0 then s.stopChan t ch xALIGN 0
  else match s.engineRead c.armer.asker p (addrOf p) 64 with
    | (.wait, s) => s
    | (.fault e, s) => s.stopChan t ch (xferCode e) 0
    | (.ok v, s) =>
      if v / 2 ^ 127 % 2 = 0 then s.modChan t ch fun c => { c with st := .idle, cur := none, moved := 0 }
      else match s.checkRecord t c.armer (recordXfer v c.armer) with
        | (none, s) => s
        | (some x, s) => s.modChan t ch fun c => { c with cur := some x }

/-- The version of an AON write that ends is raised to even (R109). -/
def State.lowerVersion (s : State) (x : Xfer) : State × Xfer :=
  match x.ver with
  | some a => (s.bumpVersion a, { x with ver := none })
  | none => (s, x)

/-- CODE, RETRY and MOVED of a record (R95). -/
def Xfer.status (x : Xfer) : Nat := x.code.toNat + x.retry * 2 ^ 8 + x.moved * 2 ^ 16

/-- RECORD_COMPLETE: the finished record of a channel is written back and given up, as it was read, once its credits have reached their barriers, and
the walk goes on or stops. A fault while its
status is written or OWN cleared stops the channel with that code and leaves OWN set: the spec names no other end (log entry 61). -/
def State.completeRecord (s : State) (t ch : Nat) : State :=
  let c := (s.tile t).chan ch
  match c.cur with
  | none => s
  | some x =>
    if !x.finished || s.creditsOpen t ch x then s
    else
      let (s, x) := s.lowerVersion x
      let s := (s.dropHolds (x.key t ch)).modChan t ch fun c => { c with cur := some x }
      let k := c.armer.asker
      let p := c.head
      match s.engineStore k p (addrOf p + 0x30) 8 x.status with
      | (.wait, _, s) => s
      | (.fault e, _, s) => s.stopChan t ch (xferCode e) x.moved
      | (.ok _, _, s) =>
        match s.engineStore k p (addrOf p + 0x0C) 4 (x.flags.toNat % 2 ^ 31) with
        | (.wait, _, s) => s
        | (.fault e, _, s) => s.stopChan t ch (xferCode e) x.moved
        | (.ok _, _, s) =>
          if x.code ≠ xOK then s.stopChan t ch x.code x.moved
          else s.modChan t ch fun c => { c with
            cur := none, head := x.next, moved := 0, st := if x.next = 0 then .idle else .running }

/-- A channel that is running goes on: it reads a record, or moves its next piece. -/
def State.chanPiece (s : State) (t ch : Nat) : State :=
  let c := (s.tile t).chan ch
  if c.st ≠ .running then s
  else match c.cur with
    | none => s.loadRecord t ch
    | some x =>
      if x.finished then s
      else
        let (s, x) := s.xferStep t ch x
        s.modChan t ch fun c => { c with cur := some x }

/-! ## Direct transfers (R284, R286) -/

/-- The head of the direct queue moves its next piece. -/
def State.directPiece (s : State) (t : Nat) : State :=
  match (s.tile t).direct with
  | [] => s
  | x :: rest =>
    if x.finished then s
    else
      let (s, x) := s.xferStep t 4 x
      s.modTile t fun y => { y with direct := x :: rest }

/-- A finished direct transfer leaves the queue and reports in its context's direct status. -/
def State.endXfer (s : State) (t : Nat) (x : Xfer) : State :=
  let (s, y) := s.lowerVersion x
  let s := if (s.tile t).direct.head? = some x then s.dropHolds (x.key t 4) else s
  let s := s.modTile t fun z => { z with direct := z.direct.erase x }
  let s := s.modIssuer y.armer fun k => { k with
    dirMoved := BitVec.ofNat 40 y.moved, dirCode := y.code, dirErr := k.dirErr || decide (y.code ≠ xOK) }
  if y.code = xOK then s else s.raiseIn y.armer fEE

/-- DIRECT_TRANSFER_DONE: the finished head reports. -/
def State.endDirect (s : State) (t : Nat) : State :=
  match (s.tile t).direct with
  | [] => s
  | x :: _ => if x.finished then s.endXfer t x else s

/-- A context's transfers of the direct queue. -/
def Tile.directOf (x : Tile) (c : Nat) : List Xfer := x.direct.filter fun d => d.armer.cid = c && d.armer.is (x.ctx c)

/-! ## Instructions -/

/-- R94: every earlier store of the context is granted. -/
def storesGranted : M Unit := do
  performPairs 8
  let s ← get
  if s.storesOpen then waitKeep

/-- CPY (R284). What R97 and R100 have checked before the first piece is checked at issue. -/
def execCpy (f : LF) (s : State) : Host.Outcome State Fault Refusal :=
  finish (do
    let dst ← rs f.ra
    let src ← rs f.rb
    let len ← rs f.rc
    let sp := spaceOf dst
    need (sp = 0 || sp = 1 || sp = 3 || sp = 4) cSPACE dst
    need (decide (spaceOf src ≤ 1)) cSPACE src
    need (sp ≠ 3 || decide (ptrTile dst < 2688)) cBADHANDLE dst
    let x ← getT
    if 2 ≤ x.direct.length then wait
    if f.f0.getLsbD 6 then storesGranted
    if sp ≠ 1 then direct
    let a ← armer
    let x := Xfer.new 0 (f.f0.getLsbD 5) src dst (bits len 0 40).toNat (bits f.f0 0 5 : BitVec 5).toNat a
    let s ← get
    let (c, s) := s.copyCheck s.cur x true
    set s
    match c with
    | .wait => waitKeep
    | .bad e => modT fun y => { y with direct := y.direct ++ [x.finish e] }
    | .ok x => modT fun y => { y with direct := y.direct ++ [x] }) s

/-- A channel is busy: it runs, or a tracker's start is held for it (R113). -/
def Tile.chanBusy (x : Tile) (ch : Nat) : Bool := (x.chan ch).st = .running || x.held.any fun h => h.chan = ch

/-- CPYCH (R285). -/
def execCpych (f : CF) (s : State) : Host.Outcome State Fault Refusal :=
  finish (do
    notHelper 0x201
    let p ← rs f.a
    let ch := f.p5.toNat
    let x ← getT
    if x.chanBusy ch then ws f.d 1
    else
      storesGranted
      let a ← armer
      upd fun s => s.startWalk s.cur ch p a
      ws f.d 0) s

/-- The status word of R286. -/
def Tile.copyStatus (x : Tile) (k : Ctx) (c ch : Nat) : Word :=
  if ch = 4 then
    let n := (x.directOf c).length
    BitVec.ofNat 64 ((if n = 0 then 0 else 2 ^ 62) + n * 2 ^ 56 + k.dirMoved.toNat * 2 ^ 16 + (if k.dirErr then 2 ^ 8 else 0) +
      k.dirCode.toNat)
  else
    match (x.chan ch).st with
    | .idle => 0
    | .running => BitVec.ofNat 64 (2 ^ 62 + ((x.chan ch).cur.elim 0 fun r => r.moved) * 2 ^ 16)
    | .stopped code => BitVec.ofNat 64 (2 ^ 63 + (x.chan ch).moved * 2 ^ 16 + code.toNat)

/-- CPYSTAT (R286): reading the direct status clears ERR. -/
def execCpystat (f : CF) (s : State) : Host.Outcome State Fault Refusal :=
  finish (do
    let s ← get
    ws f.d ((s.tile s.cur).copyStatus s.ctx s.cid f.p5.toNat)
    if f.p5 = 4 then modC fun k => { k with dirErr := false }) s

/-- CPYWAIT (R285): then an acquire. -/
def execCpywait (f : CF) (s : State) : Host.Outcome State Fault Refusal :=
  finish (do
    let s ← get
    let x := s.tile s.cur
    if f.p5 = 4 then
      if !(x.directOf s.cid).isEmpty then wait
    else if x.chanBusy f.p5.toNat then wait
    flash) s

/-- The record in progress, or the one at the head, ends with KILLED. -/
def State.killChan (s : State) (t ch : Nat) : State :=
  let c := (s.tile t).chan ch
  if c.st ≠ .running then s
  else
    let s := if c.cur.isNone then s.loadRecord t ch else s
    match ((s.tile t).chan ch).cur with
    | none => s
    | some x =>
      let (s, x) := s.killXfer t ch x
      (s.modChan t ch fun c => { c with cur := some x }).completeRecord t ch

/-- A transfer of the direct queue ends with KILLED. -/
def State.killDirect (s : State) (t : Nat) (d : Xfer) : State :=
  let (s, y) := s.killXfer t 4 d
  (s.modTile t fun z => { z with direct := z.direct.map fun e => if e = d then y else e }).endXfer t y

/-- CPYKILL (R287): on a channel it completes when the record is written. -/
def execCpykill (f : CF) (s : State) : Host.Outcome State Fault Refusal :=
  finish (do
    notHelper 0x201
    let s ← get
    if f.p5 = 4 then
      upd fun s => ((s.tile s.cur).directOf s.cid).foldl (fun s d => s.killDirect s.cur d) s
    else
      set (s.killChan s.cur f.p5.toNat)
      let x ← getT
      if (x.chan f.p5.toNat).st = .running then waitKeep) s

/-! ## Events -/

/-- COPY_PIECE: one piece of a channel, or of the direct queue as channel 4. -/
def execCopyPiece (t ch : Nat) (s : State) : Host.Outcome State Fault Refusal :=
  happen (fun s => if ch < 4 then s.chanPiece t ch else s.directPiece t) s
def execRecordComplete (t ch : Nat) (s : State) : Host.Outcome State Fault Refusal := happen (fun s => s.completeRecord t ch) s
def execDirectTransferDone (t : Nat) (s : State) : Host.Outcome State Fault Refusal := happen (fun s => s.endDirect t) s

/-- AON_VERSION_RAISE: the version word at a global address is raised to odd, once it is even and not held. -/
def execAonVersionRaise (a : Nat) (s : State) : Host.Outcome State Fault Refusal := happen (fun s => (s.raiseOdd a (holdKey (homeAgent 0) 0 7)).getD s) s

/-- SLOT_LANDING: verified bytes of a chunk land, if the generation still matches (R101, R102). -/
def execSlotLanding (t slot gen chunk : Nat) (mask : BitVec 512) (data : BitVec 4096) (s : State) : Host.Outcome State Fault Refusal :=
  happen (fun s =>
    let k := (s.tile t).slot slot
    if k.alloc && decide (k.gen.toNat = gen) && decide (chunk < k.size) then
      let s := s.modTile t fun x => (List.range 4).foldl (fun x i =>
        x.slotLine k.pid (k.off / 128 + 4 * chunk + i) (bits mask (128 * i) 128) (bits data (1024 * i) 1024)) x
      (s.landChunk t slot k.gen chunk 0 0 0).1
    else s) s

/-! ## Landing slots (R289, R290) -/

/-- LSALLOC: n in cat(b, p5) + 1; s[d] is the requested offset, then the handle or 0. -/
def execLsalloc (f : CF) (s : State) : Host.Outcome State Fault Refusal :=
  finish (do
    let r ← rs f.d
    let n := (bits (f.b ++ f.p5) 0 7 : BitVec 7).toNat + 1
    let o := (bits r 0 20).toNat
    let s ← get
    let x := s.tile s.cur
    let lines := lineRange (o / 128) (4 * n)
    match (List.range 32).find? fun k => !(x.slot k).alloc with
    | none => ws f.d 0
    | some k =>
      if o % 512 ≠ 0 || decide (0xA0000 < o + 512 * n) || !x.canPin lines then ws f.d 0
      else
        let gen := (x.slot k).gen
        upd fun s => (s.pinLines s.cur .slot lines).modTile s.cur fun x =>
          { x with slots := (mset x.slots k (Slot.mk true x.pid n o 0 gen)) }
        ws f.d (BitVec.ofNat 64 (3 * 2 ^ 52 + s.devNum (pkgOf s.cur) * 2 ^ 40 + numOf s.cur * 2 ^ 28 + k * 2 ^ 23 + gen.toNat * 2 ^ 16))) s

/-- LSFREE: it waits for the matrix commands that name the slot's lines. -/
def execLsfree (f : CF) (s : State) : Host.Outcome State Fault Refusal :=
  finish (do
    let p ← rs f.a
    let s ← get
    need (s.handleOk p) cBADHANDLE p
    let k := (s.tile s.cur).slot (hSlot p)
    if (s.tile s.cur).engine.names k.off (512 * k.size) then wait
    upd fun s => s.freeSlot s.cur (hSlot p)
    upd fun s => s.wake s.cur 0) s

end Sys2Proof.Machine
end

