-- ==== Sys2Proof/Machine/Compacts.lean ====
section
/-! DEFINITION. Compacts (R19, R118 to R127): the descriptor and its checks, the lines of a member, the coordinator, supersteps and
their barrier tree, dissolution, withdrawal and loss. -/
namespace Sys2Proof.Machine

/-! ## The coordinator -/

def Compact.is (c : Compact) (m : Member) : Bool := c.dev = m.dev && c.cid = m.cid
def State.compactOf (s : State) (m : Member) : Option Compact := s.compacts.find? fun c => c.is m
def State.modCompact (s : State) (m : Member) (f : Compact → Compact) : State :=
  { s with compacts := s.compacts.map fun c => if c.is m then f c else c }
def State.dropCompact (s : State) (m : Member) : State := { s with compacts := s.compacts.filter fun c => !c.is m }
/-- A tile's part in the compact of m changes, whether its partition runs or is pre-empted (R127). -/
def State.modMember (s : State) (t : Nat) (m : Member) (f : Member → Member) : State :=
  let g := fun (n : Member) => if n.dev = m.dev && n.cid = m.cid then f n else n
  s.modTile t fun x => { x with
    member := x.member.map g, parked := x.parked.map fun q => { q with member := q.member.map g } }

/-- The tile that an entry of the member table names; a tile of no package of the system has a name that is no tile's. -/
def State.memberTile (s : State) (dev num : Nat) : Nat :=
  match s.pkgOfDev dev with
  | some q => q * 4096 + num
  | none => 2 ^ 40 + dev * 4096 + num

/-- The compact forms when the last of its distinct signatures arrives (R122): every member's tile enters MEMBER. -/
def State.formIfDone (s : State) (m : Member) : State :=
  match s.compactOf m with
  | some c =>
    if c.signed.length = c.members.length then
      c.members.foldl (fun s t => s.modTile t fun x =>
        { x with mode := .member, member := x.member.map fun m => { m with phase := .formed } })
        (s.modCompact m fun c => { c with formed := true })
    else s
  | none => s

/-- The coordinator serves a signature: the code with which it is refused, if it is (R122). An unreachable coordinator serves
none yet. -/
def State.serveSign (s : State) (t : Nat) (m : Member) (desc : Word) (members : List Nat) : Option Nat × State :=
  let reached := s.tileReached (pkgOf t) (members.headD t)
  match s.compactOf m with
  | some c =>
    if !reached then (none, s)
    else if c.signed = [] && !c.formed then
      (none, (s.modCompact m fun c => { c with desc := desc, members := members, signed := [t] }).formIfDone m)
    else if c.desc ≠ desc then (some 7, s)
    else if c.formed then (some 8, s)
    else (none, (s.modCompact m fun c => { c with signed := c.signed.filter (· ≠ t) ++ [t] }).formIfDone m)
  | none =>
    let c : Compact := ⟨m.dev, m.cid, desc, members, if reached then [t] else [], false, [], [], []⟩
    (none, ({ s with compacts := s.compacts ++ [c] } : State).formIfDone m)

/-- A member has left its compact; with no other member left the coordinator holds it no longer. -/
def State.leaveCompact (s : State) (t : Nat) (m : Member) : State :=
  let s := s.modCompact m fun c => { c with signed := c.signed.filter (· ≠ t) }
  match s.compactOf m with
  | some c => if c.signed.all fun u => c.lost.contains u then s.dropCompact m else s
  | none => s

/-! ## The check phase (R118 to R122) -/

/-- A line of a member's ranges: its local line and, for a bound one, its global line and the line of its virtual address. -/
structure SignLine where
  line : Nat
  bound : Option (Nat × Nat)
  deriving DecidableEq, Repr

/-- A 32-byte block at a pointer, with the faults of R121. -/
def block32 (p : Word) : M (List Word) := do
  need (spaceOf p = 0) cSPACE p
  need (decide (addrOf p % 32 = 0)) cALIGN p
  let v ← loadNow p (addrOf p) 32
  pure ((List.range 4).map fun i => BitVec.ofNat 64 (v / 2 ^ (64 * i)))

/-- Block i of an array of them. The spec does not say what an array does that runs past the 2^52 bytes of space 0: here it is PAGE at the array's
pointer (log entry 63). -/
def blockAt (p : Word) (i : Nat) : M (List Word) := do
  if 2 ^ 52 < addrOf p + 32 * i + 32 then trap cPAGE p
  block32 (withAddr p (addrOf p + 32 * i))

/-- Doubleword i of a block. -/
def dw (l : List Word) (i : Nat) : Word := l.getD i 0

/-- R118. -/
def headerOk (h : List Word) : Bool :=
  let n := (bits (dw h 0) 16 13 : BitVec 13).toNat
  bits (dw h 0) 29 35 = 0 && dw h 2 = 0 && decide (0 < n) && decide (n ≤ 4096)

/-- R119, R20 and R378: an entry of the member table. -/
def State.entryOk (s : State) (e : List Word) : Bool :=
  bits (dw e 0) 30 34 = 0 && dw e 3 = 0 && decide ((bits (dw e 0) 12 12 : BitVec 12).toNat < 2688) &&
    ((bits (dw e 0) 6 6 : BitVec 6) = (s.dev (pkgOf s.cur)).domain || (s.dev (pkgOf s.cur)).featAck.getLsbD 4)

/-- Device and tile of an entry. -/
def entryTile (e : List Word) : Nat × Nat := ((bits (dw e 0) 0 12 : BitVec 12).toNat, (bits (dw e 0) 12 12 : BitVec 12).toNat)

/-- LOFF, LEN, BOUND and GVA of a range (R120). -/
def rangeLoff (r : List Word) : Nat := (bits (dw r 0) 0 20 : BitVec 20).toNat
def rangeLen (r : List Word) : Nat := (bits (dw r 1) 0 20 : BitVec 20).toNat
def rangeBound (r : List Word) : Bool := (dw r 1).getLsbD 63
def rangeFieldsOk (r : List Word) : Bool :=
  bits (dw r 0) 20 44 = 0 && bits (dw r 1) 20 43 = 0 && dw r 3 = 0 && decide (rangeLoff r % 128 = 0) && decide (0 < rangeLen r) &&
    decide (rangeLen r % 128 = 0) && decide (rangeLoff r + rangeLen r ≤ 0xA0000) &&
    (if rangeBound r then spaceOf (dw r 2) = 0 && decide (addrOf (dw r 2) % 128 = 0) else dw r 2 = 0)
/-- The local lines of a range. -/
def rangeLines (r : List Word) : List Nat := lineRange (rangeLoff r / 128) (rangeLen r / 128)

/-- R120: no overlap, no line of a landing slot, a bound line not yet pinned. -/
def Tile.rangesOk (x : Tile) (rs : List (List Word)) : Bool :=
  rs.all rangeFieldsOk && decide (rs.flatMap rangeLines).Nodup &&
    (rs.all fun r => (rangeLines r).all fun l => if rangeBound r then !mhas x.pins l else !mhas x.pins l || ((x.pin l).kind = .reserved && (x.pin l).pid = x.pid)) &&
    x.slots.all fun e => !e.2.alloc || (rs.flatMap rangeLines).all fun l =>
      decide (128 * l < e.2.off) || decide (e.2.off + 512 * e.2.size ≤ 128 * l)

/-- The leaf of a bound line, none of PROT: a page with no leaf is PAGE at the range's first byte in it. The spec does not say what a range does
that runs past the 2^52 bytes of space 0: here it is PAGE at GVA (log entry 63). -/
def boundLeaf (gva : Word) (va : Nat) : M (Word × Bool) := fun s =>
  let p := withAddr gva (max (addrOf gva) (va / 65536 * 65536))
  if 2 ^ 52 ≤ va then .error (.trap cPAGE gva)
  else match s.translate s.asker va p with
    | (.leaf e large, s) => .ok ((e, large), s)
    | (.fault c, _) => .error (.trap c p)
    | (.wait, s) => .error (.waitWith s)

/-- R120: the global line of a bound line, when its page is local DRAM of the own device with the permissions. -/
def State.boundLine (s : State) (e : Word) (large : Bool) (va : Nat) : Option Nat :=
  match s.globalAddr (pkgOf s.cur) (leafPa e large va) with
  | some a =>
    if pkgOfGl (a / 128) = pkgOf s.cur && !isHostGl (a / 128) && e.getLsbD 59 && e.getLsbD 58 && e.getLsbD 57 &&
        (s.ctx.priv || e.getLsbD 56) then some (a / 128) else none
  | none => none

/-- The lines of one range; none in a line says BINDPERM. -/
def rangeSignLines (r : List Word) : M (List (Nat × Option SignLine)) :=
  if rangeBound r then
    (rangeLines r).mapM fun l => do
      let va := addrOf (dw r 2) + (128 * l - rangeLoff r)
      let (e, large) ← boundLeaf (dw r 2) va
      let s ← get
      pure (l, (s.boundLine e large va).map fun gl => ⟨l, some (gl, va / 128)⟩)
  else pure ((rangeLines r).map fun l => (l, some ⟨l, none⟩))

/-- Lines in ascending local order. -/
def ascending (ls : List SignLine) : List SignLine := (List.range 5120).filterMap fun l => ls.find? fun q => q.line = l

/-- The check phase: a code, or the member, the tiles of the compact and the member's lines. -/
def signCheck (p : Word) : M (Except Nat (Member × List Nat × List SignLine)) := do
  let h ← block32 p
  if !headerOk h then pure (.error 1)
  else
    let es ← (List.range (bits (dw h 0) 16 13 : BitVec 13).toNat).mapM (blockAt (dw h 1))
    let s ← get
    if es.any (fun e => !s.entryOk e) || !decide (es.map entryTile).Nodup then pure (.error 1)
    else match es.find? fun e => entryTile e = (s.devNum (pkgOf s.cur), numOf s.cur) with
      | none => pure (.error 2)
      | some e =>
        let rs ← (List.range (bits (dw e 0) 24 4 : BitVec 4).toNat).mapM (blockAt (dw e 1))
        let x ← getT
        if !x.rangesOk rs then pure (.error 1)
        else
          let ls := (← rs.mapM rangeSignLines).flatten
          if !x.canPin ((ls.map (·.1)).filter fun l => !mhas x.pins l) then pure (.error 3)
          else if ls.any fun l => l.2.isNone then pure (.error 4)
          else
            let m : Member := ⟨(entryTile (es.headD [])).1, (bits (dw h 0) 0 16 : BitVec 16).toNat, (bits (dw e 0) 28 2 : BitVec 2).toNat,
              dw e 2, .signing, 0, false⟩
            pure (.ok (m, es.map fun e => s.memberTile (entryTile e).1 (entryTile e).2, ascending (ls.filterMap (·.2))))

/-! ## Lines (R123, R126) -/

/-- What the home answers for a line. -/
inductive LineRes where
  | ok (s : State)
  | code (n : Nat) (s : State)
  | wait

/-- One line is processed (R123). -/
def State.holdLine (s : State) (t : Nat) (l : SignLine) : LineRes :=
  match l.bound with
  | none =>
    if mhas (s.tile t).pins l.line then
      .ok (s.modTile t fun x => { x with pins := mset x.pins l.line ({ x.pin l.line with data := 0 } : PinLine) })
    else .ok (s.pinLine t l.line ({ PinLine.zero with kind := .compact, pid := (s.tile t).pid } : PinLine))
  | some (gl, va) =>
    match (s.dir gl).st with
    | .poison => .code 6 s
    | .forward _ | .held => .code 5 s
    | _ =>
      match s.gate ⟨t, 0, 0, false⟩ true (BitVec.allOnes 32) gl with
      | .ok _ =>
        let s := ((s.tile t).lines.filter fun l => l.gl = gl).foldl (fun s l => s.evict t l) s
        let s := (s.serveRegister t gl (BitVec.allOnes 32)).report gl (BitVec.allOnes 128)
        let s := s.modDir gl fun d => { d with st := .held, holder := t }
        .ok (s.pinLine t l.line ⟨.compact, (s.tile t).pid, some gl, va, 0, readLine s.mem gl⟩)
      | _ => .wait

/-- Every line in turn. -/
def State.holdLines (s : State) (t : Nat) : List SignLine → LineRes
  | [] => .ok s
  | l :: ls =>
    match s.holdLine t l with
    | .ok s => s.holdLines t ls
    | r => r

/-- A pinned line of the compact is given up (R126): a bound one becomes an owned line of the array, or returns home. -/
def State.dissolveLine (s : State) (t l : Nat) (asid : BitVec 16) : State :=
  let p := (s.tile t).pin l
  match p.gl with
  | none => if p.kind = .compact then s.unpinLine t l else s
  | some gl =>
    let s := s.unpinLine t l
    let s := ((s.tile t).lines.filter fun m => m.va = p.va && m.asid = asid).foldl (fun s m => s.evict t m) s
    let ways := (s.tile t).ways (p.va % 256)
    let s := if ways = 0 then s.clearOwner t gl (BitVec.allOnes 32)
      else (s.trimSet t (p.va % 256) (ways - 1)).modTile t fun x =>
        x.putLine ⟨p.va, asid, gl, BitVec.allOnes 32, BitVec.allOnes 32, p.dirty, 7, p.data⟩
    (s.modDir gl fun d => { d with st := .normal, holder := 0 }).serveLine gl

/-- Every line of the compact is given up, and the tile is FREE. -/
def State.dissolve (s : State) (t : Nat) : State :=
  let asid := ((s.tile t).ctx 0).asid
  let s := (((s.tile t).pins.filter fun e => e.2.pid = (s.tile t).pid).map (·.1)).foldl (fun s l => s.dissolveLine t l asid) s
  s.modTile t fun x => { x with mode := .free, member := none }

/-- A signature is withdrawn by PREEMPT; one of a formed compact stands (R122, R126). -/
def State.withdraw (s : State) (t : Nat) : State :=
  match (s.tile t).mode, (s.tile t).member with
  | .signing, some m => (s.leaveCompact t m).dissolve t
  | _, _ => s

/-! ## CSIGN (R122) -/

/-- CSIGN returns: an acquire. -/
def signReturn (d : BitVec 5) (code : Nat) : M Unit := do
  flash
  ws d (BitVec.ofNat 64 code)

/-- Refused in a helper (R121). -/
def notInHelper : M Unit := do
  if ← inHelper then trap cHELPERWAIT (← unitImage)

/-- The signature phase: served, the context waits for the compact to form; refused, the lines are undone. -/
def askCoordinator (d : BitVec 5) (m : Member) (desc : Word) (members : List Nat) : M Unit := do
  let s ← get
  match s.serveSign s.cur m desc members with
  | (some code, s) =>
    set (s.dissolve s.cur)
    signReturn d code
  | (none, s) =>
    set s
    waitKeep

/-- CSIGN. -/
def execCsign (f : CF) (s : State) : Host.Outcome State Fault Refusal :=
  finish (do
    notInHelper
    let p ← rs f.a
    let s ← get
    match (s.tile s.cur).mode, (s.tile s.cur).member with
    | .signing, some m =>
      match s.compactOf m with
      | some c => if c.signed.contains s.cur then wait else askCoordinator f.d m p c.members
      | none => wait
    | _, some m =>
      if m.phase = .formed then
        upd fun s => s.modMember s.cur m fun m => { m with phase := .between }
        signReturn f.d 0
      else
        release
        signReturn f.d 8
    | _, none =>
      release
      match ← signCheck p with
      | .error code => signReturn f.d code
      | .ok (m, members, lines) =>
        let s ← get
        match s.holdLines s.cur lines with
        | .wait => wait
        | .code n s =>
          set (s.dissolve s.cur)
          signReturn f.d n
        | .ok s =>
          set (s.modTile s.cur fun x => { x with mode := .signing, member := some m })
          askCoordinator f.d m p members) s

/-! ## Boundaries (R125, R127) -/

/-- The dirty words of every bound line are published, and the deferred reads of each are answered. -/
def State.publish (s : State) (t : Nat) : State :=
  ((s.tile t).pins.filter fun e => e.2.pid = (s.tile t).pid).foldl (fun s e =>
    match e.2.gl with
    | none => s
    | some gl =>
      let s : State := { s with mem := writeLine s.mem gl (wordBytes e.2.dirty) e.2.data }
      (s.modTile t fun x => { x with pins := mset x.pins e.1 ({ e.2 with dirty := 0 } : PinLine) }).publishReads gl) s

/-- A member's arrival reaches the tree; the last completes the boundary, and ends the compact if every member dissolves. -/
def State.treeArrive (s : State) (t : Nat) (m : Member) (own leave : Bool) : State :=
  let s := s.modMember t m fun m => { m with phase := .arrived own }
  let s := s.modCompact m fun c => { c with
    arrived := c.arrived.filter (fun q => q.1 ≠ t) ++ [(t, own)]
    leaving := if leave then c.leaving ++ [t] else c.leaving }
  match s.compactOf m with
  | none => s
  | some c =>
    if !c.members.all fun u => c.arrived.any fun q => q.1 = u then s
    else
      let any := c.arrived.any fun q => q.2
      let s := c.arrived.foldl (fun s q => s.modMember q.1 m fun m => { m with phase := .complete any q.2 }) s
      if c.members.all fun u => c.leaving.contains u then s.dropCompact m
      else s.modCompact m fun c => { c with arrived := [], leaving := [] }

/-- s[d] of a boundary. -/
def boundaryWord (lost any own : Bool) : Word := bitAt lost 2 ||| bitAt any 1 ||| bitAt own 0

/-- The arrival; the boundary's end is seen when the unit is tried again. -/
def arrive (m : Member) (own leave : Bool) : M α := do
  upd fun s => s.treeArrive s.cur m own leave
  waitKeep

/-- The boundary ends: an acquire. -/
def boundaryDone (m : Member) (any own : Bool) : M Word := do
  upd fun s => s.modMember s.cur m fun m => { m with phase := .between, boundary := m.boundary + 1 }
  flash
  pure (boundaryWord m.lost any own)

/-- The chain's head, if the boundary has one. -/
def Member.head (m : Member) (a : Word) : Word := if a = 0 && m.boundary = 0 then m.chain0 else a

/-- A boundary of a member (R125), with the chain at a (CSTEP), or none and dissolution to follow (CDISS). -/
def boundary (chain : Option Word) (m : Member) : M Word := do
  let s ← get
  let any := Config.anyAtLoss s.cur m.boundary
  match m.phase with
  | .complete any own => boundaryDone m any own
  | .arrived own => if m.lost then boundaryDone m any own else wait
  | .chained =>
    let x ← getT
    if x.chanBusy m.chan then wait
    arrive m ((x.chan m.chan).st ≠ .idle) false
  | .published =>
    match chain.map m.head with
    | some h =>
      if h = 0 then arrive m false false
      else
        let x ← getT
        if x.chanBusy m.chan then wait
        let a ← armer
        upd fun s => (s.startWalk s.cur m.chan h a).modMember s.cur m fun m => { m with phase := .chained }
        waitKeep
    | none => arrive m false true
  | _ =>
    release
    if m.lost && chain.isSome then boundaryDone m any false
    else
      upd fun s => s.publish s.cur
      if m.lost then boundaryDone m any false
      else
        upd fun s => s.modMember s.cur m fun m => { m with phase := .published }
        waitKeep

/-- A CDISS of the member has no one left to wait for. -/
def Member.mayLeave (m : Member) : Bool :=
  m.lost || match m.phase with
    | .complete _ _ => true
    | _ => false

/-- An accepted matrix command names a line that the tile's compact has pinned (R150). -/
def Tile.compactNamed (x : Tile) : Bool :=
  x.pins.any fun e => e.2.pid = x.pid && (e.2.kind = .compact) && x.engine.names (128 * e.1) 128

/-- The tile's part in a formed compact, for the context that signed (R121). -/
def Tile.formedMember (x : Tile) : Option Member := if x.mode = .member then x.member else none

/-- CSTEP (R125). -/
def execCstep (f : CF) (s : State) : Host.Outcome State Fault Refusal :=
  finish (do
    notInHelper
    let a ← rs f.a
    let x ← getT
    match x.formedMember with
    | none => ws f.d (BitVec.allOnes 64)
    | some m =>
      let v ← boundary (some a) m
      ws f.d v) s

/-- CDISS (R126); its lines stay pinned until the matrix commands that name them have retired (R150). -/
def execCdiss (f : CF) (s : State) : Host.Outcome State Fault Refusal :=
  finish (do
    notInHelper
    let x ← getT
    match x.formedMember with
    | none => ws f.d (BitVec.allOnes 64)
    | some m =>
      if m.mayLeave && x.compactNamed then wait
      let v ← boundary none m
      upd fun s => (s.leaveCompact s.cur m).dissolve s.cur
      ws f.d v) s

/-! ## Events -/

/-- COMPACT_SIGNATURE: the coordinator serves the signature of a tile in SIGNING that it has not served (R122). -/
def execCompactSignature (t : Nat) (s : State) : Host.Outcome State Fault Refusal :=
  happen (fun s =>
    match (s.tile t).mode, (s.tile t).member with
    | .signing, some m =>
      match s.compactOf m with
      | some c =>
        if c.signed.contains t then s
        else match s.serveSign t m (((s.ctxAt t 0).sreg (bits (s.ctxAt t 0).waitingUnit 14 5))) c.members with
          | (none, s) => s
          | (some _, _) => s
      | none => s
    | _, _ => s) s

/-- COMPACT_WITHDRAWAL: the coordinator serves a withdrawal; one of a formed compact is ignored (R122, R126). -/
def execCompactWithdrawal (t : Nat) (s : State) : Host.Outcome State Fault Refusal := happen (fun s => s.withdraw t) s

/-- COMPACT_TREE_ARRIVAL: the arrival of a member whose chain has come to IDLE or STOPPED (R125); one without a chain arrives as soon as it has
published. own is what the chain's end says. -/
def execCompactTreeArrival (t : Nat) (own : Bool) (s : State) : Host.Outcome State Fault Refusal :=
  happen (fun s =>
    match (s.tile t).formedMember with
    | some m =>
      let c := (s.tile t).chan m.chan
      if m.phase = .chained && !(s.tile t).chanBusy m.chan && own = decide (c.st ≠ .idle) then s.treeArrive t m own false else s
    | none => s) s

/-- R127: every other member of a formed compact learns that a member is lost. -/
def State.loseIn (s : State) (t : Nat) (m : Member) : State :=
  match s.compactOf m with
  | none => s
  | some c =>
    if !c.formed then s
    else
      let s := s.modCompact m fun c => { c with lost := c.lost.filter (· ≠ t) ++ [t] }
      (c.members.filter (· ≠ t)).foldl (fun s u => s.modMember u m fun m => { m with lost := true }) s

/-- R127: the compacts of some of the partitions that have one on a tile lose their member, and its bound lines are poisoned. -/
def State.loseMembers (s : State) (t : Nat) (which : Nat → Bool) : State :=
  let x := s.tile t
  let ms := (if which x.pid then x.member.toList else []) ++ (x.parked.filter fun q => which q.pid).filterMap fun q => q.member
  let s := ms.foldl (fun s m => s.loseIn t m) s
  ((x.pins ++ x.parked.flatMap fun q => q.lines).filterMap fun e => if which e.2.pid then e.2.gl else none).foldl (fun s gl => s.poisonLine gl) s

/-- MEMBER_LOSS (R127). -/
def execMemberLoss (t : Nat) (s : State) : Host.Outcome State Fault Refusal := happen (fun s => s.loseMembers t fun _ => true) s

/-- The compacts of a tile that is fenced or reset: a signature that has not formed one is withdrawn, formed ones lose their member (R122, R127). -/
def State.loseCompacts (s : State) (t : Nat) : State := (s.withdraw t).loseMembers t fun _ => true

end Sys2Proof.Machine
end

