-- ==== Sys2Proof/Machine/Helpers.lean ====
section
/-! DEFINITION. Helpers and the task gate (R16, R296 to R302, R335), the size of a tile image (R347, R349), gangs (R303, R304). -/
namespace Sys2Proof.Machine

/-! ## The image of a tile (R347, R349) -/

/-- Bytes of the tile's image. -/
def Tile.imageBytes (x : Tile) : Nat := (x.ctxs.map fun e => acbBytes e.1 e.2.banks).sum
/-- The larger of the tile's image and one that its save store holds. -/
def Tile.storedBytes (x : Tile) : Nat := max x.imageBytes (x.save.elim 0 Image.bytes)
/-- Bytes of a save store under a pin limit. -/
def storeBytes (limit : Nat) : Nat := 131072 + 32768 * min 4 (20 - limit)

/-! ## Starting and ending a helper -/

/-- Physical banks of the tile that contexts hold (R130). -/
def Tile.banksHeld (x : Tile) : Nat := (x.ctxs.map fun e => e.2.banks).sum

/-- The lowest free CTXID, when the banks are free and the image would fit (R296). -/
def Tile.helperRoom (x : Tile) (banks : Nat) : Option Nat :=
  if 8 < x.banksHeld + banks || storeBytes x.pinLimit < x.imageBytes + acbBytes 1 banks then none
  else ((List.range 10).map (· + 1)).find? fun c => !mhas x.ctxs c

/-- A helper's first state (R296, R368): FRM, EVBASE and the ASID are the control context's; a service's helpers are at its privilege. -/
def Tile.newHelper (x : Tile) (entry s1 : Word) (banks prio : Nat) : Ctx :=
  let k := x.ctx 0
  { Ctx.reset with
    pc := entry, npc := entry, entry := entry, arg := s1, sregs := (Vector.replicate 32 (0 : Word)).set 1 s1
    banks := banks, vregs := List.replicate (8 * banks) VReg.reset
    prio := prio, asid := k.asid, frm := k.frm, evBase := k.evBase, priv := k.priv && x.pid = 0 }

/-- The helper starts under CTXID c. -/
def State.startHelper (s : State) (t c : Nat) (entry s1 : Word) (banks prio : Nat) : State :=
  { s with heldIds := s.heldIds + 1 }.modTile t fun x =>
    { x with ctxs := mset x.ctxs c { x.newHelper entry s1 banks prio with birth := s.heldIds + 1 }, joins := mdel x.joins c }

/-- A context is gone: its registers, its banks, and its loads and tentative writes that are under way. -/
def State.endCtx (s : State) (t c : Nat) : State := (s.endRequests t c).modTile t fun x => { x with ctxs := mdel x.ctxs c }

/-- A helper ends with a status for HJOIN (R298, R300); its end is an event of R314. -/
def State.endHelper (s : State) (t c status : Nat) : State :=
  ((s.endCtx t c).modTile t fun x => { x with joins := mset x.joins c status }).wake t 0

/-- HKILL of a helper (R300). -/
def State.killHelper (s : State) (t c : Nat) : State := (s.discardEffects t c).endHelper t c 1

/-- The checks of an entry (R296, R301). -/
def entryOk (p : Word) : M Unit := do
  need (spaceOf p = 0) cSPACE p
  need (decide (addrOf p % 8 = 0)) cALIGN p

/-- HSTART (R296). -/
def execHstart (f : CF) (s : State) : Host.Outcome State Fault Refusal :=
  finish (do
    notHelper 0x202
    let p ← rs f.a
    let a ← rs f.b
    entryOk p
    release
    upd fun s => s.modTile s.cur fun x => { x with gateFrom := s.now + 1 }
    let x ← getT
    let banks := (bits f.p5 0 3 : BitVec 3).toNat
    match x.helperRoom banks with
    | none => ws f.d 0
    | some c =>
      upd fun s => s.startHelper s.cur c p a banks (bits f.p5 3 2 : BitVec 2).toNat
      ws f.d (BitVec.ofNat 64 c)) s

/-- HEND (R298). -/
def execHend (_ : CF) (s : State) : Host.Outcome State Fault Refusal :=
  finish (do
    if !(← inHelper) then trap cILLEGAL 0x202
    release
    let s ← get
    if !s.commitReady s.cur s.cid then waitKeep
    set ((s.commitEffects s.cur s.cid).endHelper s.cur s.cid 0)) s

/-- HJOIN (R299): a status of 0 acquires. -/
def execHjoin (f : CF) (s : State) : Host.Outcome State Fault Refusal :=
  finish (do
    notHelper 0x202
    let a ← rs f.a
    let c := (bits a 0 4).toNat
    let x ← getT
    if c ≠ 0 && mhas x.ctxs c && !(x.ctx c).stopped then wait
    let status := if c = 0 then 3 else if mhas x.ctxs c then 2 else mget 3 x.joins c
    modT fun x => { x with joins := mdel x.joins c }
    if status = 0 then flash
    ws f.d (BitVec.ofNat 64 status)) s

/-- HKILL (R300). -/
def execHkill (f : CF) (s : State) : Host.Outcome State Fault Refusal :=
  finish (do
    notHelper 0x202
    let a ← rs f.a
    let c := (bits a 0 4).toNat
    let x ← getT
    if c ≠ 0 && mhas x.ctxs c then upd fun s => s.killHelper s.cur c) s

/-- TENTATIVE_COMMIT: the homes commit a helper's tentative writes once all of them have arrived (R298). -/
def execTentativeCommit (t c : Nat) (s : State) : Host.Outcome State Fault Refusal :=
  happen (fun s => if s.commitReady t c then s.commitEffects t c else s) s
/-- TENTATIVE_DISCARD: the homes discard them (R300). -/
def execTentativeDiscard (t c : Nat) (s : State) : Host.Outcome State Fault Refusal := happen (fun s => s.discardEffects t c) s

/-! ## The task gate (R301, R302, R335) -/

/-- Tasks that the gate holds. -/
def gateSize : Nat := 16

/-- The input set at a record pointer: its handles and masks, or what TRAPVAL would hold for a bad one. -/
def inputSet (p : Word) : M (Except Word (List (Word × BitVec 128))) := do
  need (spaceOf p = 0) cSPACE p
  need (decide (addrOf p % 8 = 0)) cALIGN p
  let n ← loadNow p (addrOf p) 8
  let n := n % 8
  if 4 < n then pure (.error (Config.badSetVal p))
  else
    let s ← get
    if 2 ^ 52 < addrOf p + 8 + 24 * n then trap cPAGE p
    let v ← if n = 0 then pure 0 else loadNow p (addrOf p + 8) (24 * n)
    let sets : List (Word × BitVec 128) := (List.range n).map fun i =>
      (BitVec.ofNat 64 (v / 2 ^ (192 * i)), BitVec.ofNat 128 (v / 2 ^ (192 * i + 64)))
    match sets.find? fun q => !(s.handleOk q.1 && ((s.tile s.cur).slot (hSlot q.1)).covers q.2) with
    | some q => pure (.error q.1)
    | none => pure (.ok sets)

/-- The task enters the gate. -/
def queueTask (entry record : Word) (sets : List (Word × BitVec 128)) (banks prio : Nat) : M Unit := do
  let k ← getC
  modT fun x => { x with gate := x.gate ++ [⟨entry, record, sets, banks, prio, unitAddr k.upc⟩] }

/-- TASKQ, pair form (R301). -/
def execTaskq (f : CF) (s : State) : Host.Outcome State Fault Refusal :=
  finish (do
    notHelper 0x202
    let p ← rs f.a
    let r ← rs f.b
    entryOk p
    release
    match ← inputSet r with
    | .error _ => ws f.d 2
    | .ok sets =>
      let x ← getT
      if gateSize ≤ x.gate.length then ws f.d 1
      else
        queueTask p r sets (bits f.p5 0 3 : BitVec 3).toNat (bits f.p5 3 2 : BitVec 2).toNat
        ws f.d 0) s

/-- TASKQ, lone form (R301): it waits while the gate is full. -/
def execTaskqLone (f : LF) (s : State) : Host.Outcome State Fault Refusal :=
  finish (do
    notHelper 0x202
    let p ← rs f.ra
    let r ← rs f.rb
    entryOk p
    release
    match ← inputSet r with
    | .error v => trap cBADHANDLE v
    | .ok sets =>
      let x ← getT
      if gateSize ≤ x.gate.length then wait
      queueTask p r sets (bits f.f0 0 4 : BitVec 4).toNat (bits f.f0 4 2 : BitVec 2).toNat) s

/-- The oldest eligible task of the highest priority. -/
def State.nextTask (s : State) (t : Nat) : Option Task :=
  ((s.tile t).gate.filter fun k => k.inputs.all fun i => s.landed t i.1 i.2).foldl (fun (best : Option Task) k =>
    match best with
    | some b => if b.prio < k.prio then some k else best
    | none => some k) none

/-- The gate starts its next task, if it can: it acquires the named chunks' bytes, for which nothing is flashed (R101), and is then as HSTART. -/
def State.startTask (s : State) (t : Nat) : State :=
  let x := s.tile t
  if !mhas x.ctxs 0 || x.fenced || x.quiet.isSome || decide (s.now < x.gateFrom) then s
  else match s.nextTask t with
    | none => s
    | some k =>
      match x.helperRoom k.banks with
      | none => s
      | some c =>
        let s := s.modTile t fun x => { x with gate := x.gate.erase k }
        (s.startHelper t c k.entry k.record k.banks k.prio).modCtxAt t c fun h => { h with startFrom := s.now + 2 }

/-- TASK_START (R302, R335): the helper's first unit may issue two cycles later. -/
def execTaskStart (t : Nat) (s : State) : Host.Outcome State Fault Refusal := happen (fun s => s.startTask t) s

/-! ## Gangs (R303, R304) -/

/-- The members of a mask, in the cluster of tile t. -/
def maskTiles (t : Nat) (mask : BitVec 8) : List Nat :=
  ((List.range 8).filter fun i => mask.getLsbD i).map fun i => t - t % 8 + i

/-- A tile is a live control context of a partition. -/
def State.inPartition (s : State) (t pid : Nat) : Bool := mhas (s.tile t).ctxs 0 && (s.tile t).pid = pid && !(s.tile t).fenced

/-- Another member's GFUSE waits with a mask that differs and includes tile t. -/
def State.fuseClash (s : State) (t : Nat) (mask : BitVec 8) : Bool :=
  (List.range 8).any fun i =>
    match (s.tile (t - t % 8 + i)).fuse with
    | some m => m ≠ mask && m.getLsbD (memberOf t)
    | none => false

/-- The GFUSE at which another member waits completes: its s[d] is 0, its A-word follows, and it goes on at pc. -/
def Ctx.fused (k : Ctx) (pc : Word) : Ctx :=
  match k.backlog with
  | p :: rest =>
    let k := k.writeSreg true (bits p.image 19 5) 0
    { k with backlog := { p with onlyA := true } :: rest, pc := pc, npc := pc }
  | [] =>
    let k := k.writeSreg false (bits k.unit 19 5) 0
    { k with backlog := [⟨k.upc, k.unit, k.useq, k.late, k.sregs, k.kregs, k.pend, false, false, none⟩], late := 0, pc := pc, npc := pc, seq := k.useq + 1 }

/-- Every masked member has asked: the gang forms under its lowest member (R303). -/
def formGang (mask : BitVec 8) : M Unit := do
  let s ← get
  let members := maskTiles s.cur mask
  let leader := members.headD s.cur
  let pc := (s.ctxAt leader 0).upc + 8
  upd fun s => members.foldl (fun s m =>
    let s := s.modTile m fun x => { x with gang := some leader, fuse := none }
    if m = s.cur then s else s.modCtxAt m 0 fun k => k.fused pc) s
  modC fun k => { k with npc := pc }

/-- GFUSE (R303). -/
def execGfuse (f : CF) (s : State) : Host.Outcome State Fault Refusal :=
  finish (do
    notHelper 0x202
    let a ← rs f.a
    let mask : BitVec 8 := bits a 0 8
    let s ← get
    let members := maskTiles s.cur mask
    let waiting := (s.tile s.cur).fuse = some mask
    if !waiting && (!mask.getLsbD (memberOf s.cur) || members.any fun m => !s.inPartition m (s.tile s.cur).pid) then ws f.d 1
    else if !waiting && members.any fun m => (s.tile m).gang.isSome then ws f.d 2
    else if !waiting && s.fuseClash s.cur mask then ws f.d 3
    else
      modT fun x => { x with fuse := some mask }
      if members.any fun m => m ≠ s.cur && (s.tile m).fuse ≠ some mask then waitKeep
      ws f.d 0
      formGang mask) s

/-- GSPLIT (R304): every member executes it. -/
def execGsplit (_ : CF) (s : State) : Host.Outcome State Fault Refusal :=
  finish (do
    notHelper 0x202
    modT fun x => { x with gang := none }) s

end Sys2Proof.Machine
end

