-- ==== Sys2Proof/Machine/Image.lean ====
section
/-! DEFINITION. The image of a tile as bytes: the ACBs of its contexts in the layout of R347, control first, then helpers in
CTXID order. -/
namespace Sys2Proof.Machine

/-! ## From an image to bytes -/

/-- Fields placed in a byte string: offset, length, value. -/
def layBytes (fs : List (Nat × Nat × Nat)) : Nat := (fs.map fun f => f.2.2 % 256 ^ f.2.1 * 256 ^ f.1).sum

/-- Entry i of a list stands size * i bytes further. -/
def layList (base size : Nat) (vs : List Nat) : List (Nat × Nat × Nat) :=
  (vs.zip (List.range vs.length)).map fun q => (base + size * q.2, size, q.1)

/-- PIX of an image: PIX.C also says that the C-word of the unit at PC has executed (R214, R385). -/
def Ctx.savedPix (k : Ctx) : Word := { k with pixC := k.pixC || k.skipC }.pixWord

/-- The CSR doublewords in the order of R347. -/
def Ctx.savedCsrs (k : Ctx) (im : Image) (c : Nat) (direct : Word) : List Word :=
  [k.statusWord c (!im.posts.isEmpty), zext k.flags, zext k.frm, k.firstWord, zext (k.trapPc ++ 0#3), k.causeWord, k.trapVal, k.savedPix,
   ofBool k.trust, zext (k.evBase ++ 0#3), if c = 0 then im.engine.ringcfgWord (memberOf im.origin) else 0,
   if c = 0 then im.engine.ringidxWord (memberOf im.origin) else 0, k.bwanyWord, zext (k.recvBase ++ 0#6), zext k.recvSize,
   k.recvWord, direct]

/-- FULL, TAG and SRC of the mailboxes. -/
def Ctx.mbWord (k : Ctx) : Nat :=
  ((k.mbs.toList.zip (List.range 8)).map fun q =>
    q.1.full.toNat * 2 ^ q.2 + q.1.tag.toNat * 2 ^ (8 + 2 * q.2) + q.1.src.toNat * 2 ^ (24 + q.2)).sum

/-- Counts of the data queues' filled entries and of the store queues; a gather's partial entry follows the filled ones (R273). -/
def Ctx.countWord (k : Ctx) : Nat :=
  ((k.dqs.toList.zip (List.range 4)).map fun q => (q.1.filter fun e => e.filled).length * 2 ^ (3 * q.2)).sum + k.vsta.length * 2 ^ 12 + k.vstd.length * 2 ^ 16

def BankMode.code : BankMode → Nat
  | .empty => 0
  | .float => 1
  | .int => 2
def BankMode.ofCode (n : Nat) : BankMode := if n = 1 then .float else if n = 2 then .int else .empty

/-- MSTATE: modes in [3:0], taints in [5:4], chain open in [6], .ord in [7], the latch buffers' full bits in [9:8]. -/
def Engine.mstate (e : Engine) : Nat :=
  e.bank0.mode.code + e.bank1.mode.code * 4 + e.bank0.taint.toNat * 16 + e.bank1.taint.toNat * 32 + e.chain.isSome.toNat * 64 +
    (e.chain == some true).toNat * 128 + e.consume.isSome.toNat * 256 + e.receive.isSome.toNat * 512

/-- The 9 KiB of a latch buffer: its data, then format, BLOG and band in 8 bytes, then its block scales. -/
def latchBytes (l : Option Latch) : Nat :=
  match l with
  | none => 0
  | some l => layBytes [(0, 8192, l.data.toNat), (8192, 1, l.fmt.toNat), (8193, 1, l.blog.toNat), (8194, 2, l.band.toNat),
      (8200, 1016, l.scales.toNat)]

/-- An entry of MQUEUE. -/
def MCmd.bytes (c : MCmd) : Nat :=
  layBytes [(0, 8, c.image.toNat), (8, 8, c.ra.toNat), (16, 8, c.rb.toNat), (24, 8, c.rc.toNat), (32, 2, c.step)]

/-- The fields that only a control ACB has. -/
def Image.controlFields (im : Image) (banks : Nat) : List (Nat × Nat × Nat) :=
  let e := im.engine
  let m := 0x3000 + 2048 * banks
  [(0x128, 8, e.mstate), (0x130, 8, min 2 e.queue.length)] ++ layList 0x138 40 ((e.queue.take 2).map MCmd.bytes) ++
    layList 0x2D80 32 (im.bars.toList.map fun b => b.toV.toNat) ++
    [(m, 14336, e.bank0.vals.toNat), (m + 14336, 14336, e.bank1.vals.toNat), (m + 0x7000, 9216, latchBytes e.consume),
     (m + 0x9400, 9216, latchBytes e.receive)]

/-- The ACB of context c. org is ORIGIN, direct the status word of its direct transfers. -/
def Ctx.acb (k : Ctx) (im : Image) (c org : Nat) (direct : Word) : Nat :=
  let head := 1 + (c != 0).toNat * 2 ^ 8 + c * 2 ^ 9 + k.banks * 2 ^ 13 + k.nr.toNat * 2 ^ 16 + k.pixK.toNat * 2 ^ 17 +
    k.stopped.toNat * 2 ^ 18 + acbBytes c k.banks * 2 ^ 32
  layBytes ([(0, 8, head), (8, 8, im.pid % 2 ^ 16 + k.asid.toNat * 2 ^ 16 + k.prio * 2 ^ 32 + org * 2 ^ 40), (0x10, 8, k.pc.toNat)] ++
    layList 0x18 8 ((k.savedCsrs im c direct).map BitVec.toNat) ++ layList 0xA0 2 (k.seen.toList.map BitVec.toNat) ++
    [(0xC0, 8, k.mbWord), (0xC8, 8, k.countWord)] ++ layList 0xD0 8 (k.mbs.toList.map fun m => m.val.toNat) ++
    layList 0x110 8 (k.kregs.toList.map fun r => r.val.toNat) ++ layList 0x200 8 (k.sregs.toList.map BitVec.toNat) ++
    layList 0x300 256 (k.queue.toList.map fun q => q.val.toNat) ++
    (k.dqs.toList.zip (List.range 4)).flatMap (fun q => layList (0x1300 + 1024 * q.2) 256 (q.1.map fun e => e.val.toNat)) ++
    layList 0x2300 8 (k.vsta.map fun a => a.ptr.toNat) ++ layList 0x2340 8 (k.vstd.map fun d => d.lanes.toNat) ++
    layList 0x2380 256 (k.vstd.map fun d => d.data.toNat) ++
    (match k.kept with
      | some g => [(0x2B80, 256, g.index.toNat), (0x2C80, 256, g.data.toNat)]
      | none => []) ++
    layList 0x3000 256 (k.vregs.map fun v => v.val.toNat) ++ (if c = 0 then im.controlFields k.banks else []))

/-- The direct transfers of context c that a tile keeps for a partition. -/
def Tile.parkedDirect (x : Tile) (pid c : Nat) : Nat :=
  (x.parked.filter fun q => q.pid = pid).flatMap (fun q => q.direct.filter fun d => d.armer.cid = c) |>.length

/-- The direct copy status of R286. -/
def Ctx.directWord (k : Ctx) (n : Nat) : Word :=
  BitVec.ofNat 64 ((if n = 0 then 0 else 2 ^ 62) + n * 2 ^ 56 + k.dirMoved.toNat * 2 ^ 16 + (if k.dirErr then 2 ^ 8 else 0) +
    k.dirCode.toNat)

/-- ORIGIN of a tile. -/
def State.originOf (s : State) (t : Nat) : Nat := s.devNum (pkgOf t) * 4096 + numOf t


/-- The image as bytes. -/
def State.imageNat (s : State) (im : Image) : Nat :=
  (im.ctxs.foldl (fun (r : Nat × Nat) e =>
    let b := e.2.acb im e.1 (s.originOf im.origin) (e.2.directWord ((s.tile im.origin).parkedDirect im.pid e.1))
    (r.1 + b * 256 ^ r.2, r.2 + acbBytes e.1 e.2.banks)) (0, 0)).1

/-! ## From bytes to an image -/

/-- n bytes at an offset of a byte string. -/
def getBytes (v off n : Nat) : Nat := v / 256 ^ off % 256 ^ n
def getDw (v off : Nat) : Word := BitVec.ofNat 64 (getBytes v off 8)
def getVec (v off : Nat) : Vec := BitVec.ofNat 2048 (getBytes v off 256)

/-- Entries of a list at a base. -/
def getList (base size n : Nat) (f : Nat → α) : List α := (List.range n).map fun i => f (base + size * i)

/-- The entries at a base as a fixed table. -/
def getTable (base size n : Nat) (f : Nat → α) : Vector α n := Vector.ofFn fun i => f (base + size * i.val)

/-- The entries of a data queue: the filled ones, and a stopped gather's partial one if any of its lanes is there. -/
def queueOfAcb (v n filled : Nat) (long : Bool) : List DqEntry :=
  let base := 0x1300 + 1024 * n
  getList base 256 filled (fun o => ⟨getVec v o, true, [], 0, 0⟩) ++
    if long && decide (filled < 4) && getVec v (base + 256 * filled) ≠ 0 then [⟨getVec v (base + 256 * filled), false, [], 0, 0⟩] else []

/-- A context from the bytes of its ACB. What R347 has no field for is as at a context's start; a VSTA entry has 256 bytes. With PIX.K = 1 the stopped
unit, which has no field either, is that at TRAPPC when TIP = 1 and that at PC otherwise (log entry 86). -/
def Ctx.ofAcb (v c : Nat) : Ctx :=
  let dw := getDw v
  let csr := fun (i : Nat) => dw (0x18 + 8 * i)
  let head := dw 0
  let banks := (bits head 13 3 : BitVec 3).toNat
  let pix := csr 7
  let tip := (csr 0).getLsbD 2
  let pc := dw 0x10
  let counts := getBytes v 0xC8 8
  let mb := getBytes v 0xC0 8
  { Ctx.reset with
    pc := pc, npc := pc, upc := pc
    banks := banks, prio := (bits (dw 8) 32 2 : BitVec 2).toNat, asid := bits (dw 8) 16 16
    sregs := (getTable 0x200 8 32 dw).set 0 0
    queue := getTable 0x300 256 16 fun o => ⟨getVec v o, 0, 0⟩
    vregs := getList 0x3000 256 (8 * banks) fun o => ⟨getVec v o, 0, 0⟩
    kregs := getTable 0x110 8 3 fun o => ⟨dw o, 0, 0⟩
    mbs := Vector.ofFn fun (j : Fin 8) =>
      let i := j.val
      ⟨dw (0xD0 + 8 * i), mb / 2 ^ i % 2 = 1, BitVec.ofNat 2 (mb / 2 ^ (8 + 2 * i)), mb / 2 ^ (24 + i) % 2 = 1, 0⟩
    dqs := Vector.ofFn fun (j : Fin 4) =>
      let n := j.val
      queueOfAcb v n (min 4 (counts / 2 ^ (3 * n) % 8)) (pix.getLsbD 63)
    vsta := getList 0x2300 8 (min 8 (counts / 2 ^ 12 % 16)) fun o => ⟨dw o, 256, [], 0, 0⟩
    vstd := (List.range (min 8 (counts / 2 ^ 16 % 16))).map fun i => ⟨dw (0x2340 + 8 * i), getVec v (0x2380 + 256 * i), 0⟩
    flags := bits (csr 1) 0 11, firstV := (csr 3).getLsbD 63, firstUnit := bits (csr 3) 3 49, frm := bits (csr 2) 0 2
    trust := (csr 8).getLsbD 0, priv := (csr 0).getLsbD 0, ppriv := (csr 0).getLsbD 1, tip := tip, nr := head.getLsbD 16
    trapPc := bits (csr 4) 3 49, mx := (csr 5).getLsbD 9, stream := (csr 5).getLsbD 8, cause := bits (csr 5) 0 8, trapVal := csr 6
    pixK := pix.getLsbD 63, pixC := false, pixIndex := bits pix 0 16, skipC := pix.getLsbD 62
    evBase := bits (csr 9) 3 49, bwanyLow := bits (csr 12) 0 3, bwanyHigh := bits (csr 12) 4 3
    recvBase := bits (csr 13) 6 14, recvSize := bits (csr 14) 0 11, recvTail := bits (csr 15) 0 11, recvCount := bits (csr 15) 16 11
    dirMoved := bits (csr 16) 16 40, dirErr := (csr 16).getLsbD 8, dirCode := bits (csr 16) 0 8
    seen := getTable 0xA0 2 16 fun o => BitVec.ofNat 16 (getBytes v o 2)
    kept := if pix.getLsbD 63 then some ⟨if tip then bits (csr 4) 3 49 else unitAddr pc, getVec v 0x2B80, getVec v 0x2C80⟩ else none
    stopped := head.getLsbD 18 && decide (c ≠ 0), entry := if c = 0 then 0 else pc }

/-- A latch buffer from its 9 KiB. -/
def latchOfBytes (v t : Nat) : Latch :=
  ⟨BitVec.ofNat 65536 v, BitVec.ofNat 5 (getBytes v 8192 1), BitVec.ofNat 4 (getBytes v 8193 1), BitVec.ofNat 16 (getBytes v 8194 2),
    BitVec.ofNat 8192 (getBytes v 8200 1016), t⟩

/-- The engine from a control ACB. -/
def Engine.ofAcb (v banks t : Nat) : Engine :=
  let m := 0x3000 + 2048 * banks
  let st := getBytes v 0x128 8
  let ring := getDw v (0x18 + 80)
  let bank := fun (i : Nat) => (⟨BitVec.ofNat 114688 (getBytes v (m + 14336 * i) 14336), .ofCode (st / 4 ^ i % 4), st / 2 ^ (4 + i) % 2 = 1⟩ : Bank)
  let latch := fun (i : Nat) =>
    if st / 2 ^ (8 + i) % 2 = 1 then some (latchOfBytes (getBytes v (m + 0x7000 + 9216 * i) 9216) t) else none
  { Engine.reset with
    bank0 := bank 0, bank1 := bank 1, consume := latch 0, receive := latch 1
    order := bits ring 8 24, logp := bits ring 3 2, en := ring.getLsbD 0, rstep := bits (getDw v (0x18 + 88)) 3 8
    chain := if st / 64 % 2 = 1 then some (decide (st / 128 % 2 = 1)) else none
    queue := getList 0x138 40 (min 2 (getBytes v 0x130 8 % 4)) fun o =>
      ⟨getDw v o, 0, getDw v (o + 8), getDw v (o + 16), getDw v (o + 24), getBytes v (o + 32) 2, 0, []⟩ }

/-- The local barriers of a control ACB. -/
def barsOfAcb (v : Nat) : Vector Barrier 16 := getTable 0x2D80 32 16 fun o => (BarV.ofNat (getBytes v o 24)).toLocal

/-- The helper ACB whose bytes are v, after the context last of partition pid: its CTXID. -/
def helperAt (v last pid : Nat) : Option Nat :=
  let h := getDw v 0
  let c := (bits h 9 4 : BitVec 4).toNat
  if bits h 0 9 = (0x101 : BitVec 9) && decide (last < c) && decide (c ≤ 10) && decide ((bits h 13 3 : BitVec 3).toNat ≤ 4) &&
      decide (getBytes v 8 2 = pid) then some c else none

/-- The tile that ORIGIN names. -/
def State.tileOfOrigin (s : State) (o : Nat) : Nat := ((s.pkgOfDev (o / 4096)).map fun q => q * 4096 + o % 4096).getD (2 ^ 40 + o)

/-- The image of the control ACB and helper ACBs whose bytes, with their CTXIDs, are listed: the one that left with those bytes, if
there is one, with all that R347 has no field for; else what the fields say. -/
def State.imageOf (s : State) (acbs : List (Nat × Nat)) : Image :=
  let v := (acbs.headD (0, 0)).2
  let all := (acbs.foldl (fun (r : Nat × Nat) e => (r.1 + e.2 * 256 ^ r.2, r.2 + acbBytes e.1 (getBytes e.2 1 1 / 32))) (0, 0)).1
  match s.away.find? fun im => s.imageNat im = all with
  | some im => im
  | none =>
    let t := s.tileOfOrigin (getBytes v 13 3)
    let ctxs : Map Ctx := acbs.map fun e => (e.1, Ctx.ofAcb e.2 e.1)
    let posts := if getBytes v 0x18 1 / 8 % 2 = 0 then []
      else (ctxs.filter fun e => e.2.stopped).map fun e => Post.mk e.1 e.2.cause e.2.trapPc
    ⟨ctxs, Engine.ofAcb v (getBytes v 1 1 / 32) t, barsOfAcb v, posts, getBytes v 8 2, t, t⟩

end Sys2Proof.Machine
end

