-- ==== Sys2Proof/Machine/System.lean ====
section
/-! DEFINITION. The system family: control and status registers (R199, R313), the GL. writes that act (R363 to R365), WAITI, YIELD
and HALT (R314, R315), SNAP (R316), and memory management (R40, R47, R117, R317). -/
namespace Sys2Proof.Machine

/-! ## SYSR and SYSW (R313) -/

/-- The index of an indexed CSR; 0 for any other. -/
def csrIndex (n : Nat) (r : BitVec 5) : M Word := if csrIndexed n then rs r else pure 0

/-- SYSR. -/
def execSysr (f : CF) (s : State) : Host.Outcome State Fault Refusal :=
  finish (do
    settled
    let i ← csrIndex f.csr f.a
    csrCheck false f.csr i
    let s ← get
    ws f.d (s.csr f.csr i)) s

/-- The value and index of a SYSW, after its waits and checks. -/
def syswArgs (f : CF) (n : Nat) : M (Word × Word) := do
  settled
  let v ← rs f.a
  let i ← csrIndex n f.d
  csrCheck true n i
  pure (v, i)

/-- SYSW to a register that needs nothing more than its fields written. -/
def execSysw (f : CF) (s : State) : Host.Outcome State Fault Refusal :=
  finish (do
    let (v, i) ← syswArgs f f.csr
    upd fun s => s.setCsr f.csr i v) s

/-- SYSW_FLAGS (R244). -/
def execSyswFlags (f : CF) (s : State) : Host.Outcome State Fault Refusal :=
  finish (do
    let (v, _) ← syswArgs f 0x001
    modC fun k => k.writeFlags v) s

/-- A write of RINGCFG (R153). -/
def Engine.writeRing (e : Engine) (v : Word) : Engine :=
  { e with order := bits v 8 24, logp := bits v 3 2, en := v.getLsbD 0, rstep := 0, consume := none, receive := none }

/-- SYSW_RINGCFG: it waits until the engine is idle. -/
def execSyswRingcfg (f : CF) (s : State) : Host.Outcome State Fault Refusal :=
  finish (do
    let (v, _) ← syswArgs f 0x009
    let x ← getT
    if x.engine.busy || x.engine.outgoing.isSome then wait
    modT fun x => { x with engine := x.engine.writeRing v }) s

/-! ## GL. registers (R363 to R365) -/

/-- A change of the issuing tile's package's fabric. -/
def modF (f : Fabric → Fabric) : M Unit := upd fun s => s.modFabric (pkgOf s.cur) f

/-- CODE values of GL.DRAIN (R364). -/
def glOK : Nat := 0
def glBUSY : Nat := 1
def glTIMEOUT : Nat := 2
def glNOLOCK : Nat := 3
def glBADTBL : Nat := 4

/-- GL_DRAIN_GO (R364). -/
def execGlDrainGo (f : CF) (s : State) : Host.Outcome State Fault Refusal :=
  finish (do
    let (v, _) ← syswArgs f 0x207
    let s ← get
    if v.getLsbD 0 then
      modF fun g => if g.st = .run then { g with st := .drain, since := s.time (pkgOf s.cur) } else { g with code := glBUSY }) s

/-- R364: a shadow path entry that names its own device, its target, or a position that no shadow slot entry meets. -/
def Fabric.badTable (g : Fabric) (own : Nat) : Bool :=
  (List.range 256).any fun i =>
    let e := mget 0 g.shadowPaths i
    let relay := (bits e 0 6 : BitVec 6).toNat
    e.getLsbD 6 && (relay = own || relay = i / 4 || !(List.range 64).any fun j =>
      let t := mget 0 g.shadowSlots j
      t.getLsbD 15 && (bits t 8 6 : BitVec 6).toNat = relay)

/-- GL_RELOCK_GO (R364): the relock follows at rotation AT. A GO in another state changes nothing but CODE. -/
def execGlRelockGo (f : CF) (s : State) : Host.Outcome State Fault Refusal :=
  finish (do
    let (v, _) ← syswArgs f 0x209
    let s ← get
    modF fun g =>
      if v.getLsbD 63 && g.st ≠ .dark then { g with code := glBUSY }
      else
        let g := { g with at' := bits v 0 48 }
        if !v.getLsbD 63 then g
        else if g.badTable (s.dev (pkgOf s.cur)).pos.toNat then { g with code := glBADTBL }
        else { g with relockGo := true, since := s.time (pkgOf s.cur) }) s

/-- EN of a lane (R365): 0 withdraws it, 1 asks a withdrawn or FAILED one to train. -/
def Lane.enable (l : Lane) (en : Bool) : Lane :=
  if !en then { l with en := false, pend := false, st := if l.st = 3 then 3 else 0 }
  else { l with en := true, pend := l.pend || l.st = 0 || l.st = 3 }

/-- GL_LANESTAT_EN. -/
def execGlLanestatEn (f : CF) (s : State) : Host.Outcome State Fault Refusal :=
  finish (do
    let (v, i) ← syswArgs f 0x204
    modF fun g => { g with lanes := mset g.lanes i.toNat ((g.lane i.toNat).enable (v.getLsbD 4)) }) s

/-- GL_ALLOW_WITHHOLD (R363). -/
def execGlAllowWithhold (f : CF) (s : State) : Host.Outcome State Fault Refusal :=
  finish (do
    let (v, i) ← syswArgs f 0x208
    modF fun g => { g with allows := mset g.allows i.toNat { g.allow i.toNat with withhold := v.getLsbD 63 } }) s

/-! ## WAITI, YIELD, HALT, SNAP -/


/-- The context is ineligible for the next 16 cycles. -/
def yieldFor : M Unit := upd fun s => s.setCtx { s.ctx with yieldTo := s.now + 17 }

/-- YIELD (R314). -/
def execYield (_ : CF) (s : State) : Host.Outcome State Fault Refusal := finish yieldFor s

/-- WAITI (R314): an event after its issue ends it; in a helper it is a YIELD. -/
def execWaiti (_ : CF) (s : State) : Host.Outcome State Fault Refusal :=
  finish (do
    if ← inHelper then yieldFor
    else
      let k ← getC
      match k.waitFrom with
      | none =>
        modC fun k => { k with waitFrom := some k.wakes }
        waitKeep
      | some w =>
        if k.wakes = w then wait
        modC fun k => { k with waitFrom := none }) s

/-- The end of a pip slot at HALT (R315), with no mailbox fill. -/
def Pip.halt (p : Pip) (time : Nat) : Pip :=
  match p.st with
  | .live => { p with st := .free, gen := p.gen + 1 }
  | .landed => if p.tag = 1 then { p with st := .quar, quarEnd := time + 64000 } else { p with st := .free }
  | _ => p

/-- The engine at the end of a launch: no command, no chain, nothing on its way. -/
def Engine.ended (e : Engine) : Engine :=
  { e with queue := [], chain := none, trap := none, stopped := false, refused := none, outgoing := none, reserved := 0 }

/-- The tile's part in its launch ends (R315): pips, landing slots, reservation, gang; the tile is IDLE and reported. -/
def State.haltTile (s : State) (t : Nat) : State :=
  let x := s.tile t
  let s := (x.slots.filter fun e => e.2.alloc && e.2.pid = x.pid).foldl (fun s e => s.freeSlot t e.1) s
  let time := s.time (pkgOf t)
  let s := (s.endCtx t 0).modTile t fun x => { x with
    pips := x.pips.map fun e => if e.2.pid = x.pid && e.2.self = x.self then (e.1, e.2.halt time) else e
    pins := x.pins.filter fun e => e.2.kind ≠ .reserved || e.2.pid ≠ x.pid
    engine := x.engine.ended, posts := [], joins := [], gang := none, fuse := none, mode := .idle }
  { s with partitions := s.partitions.map fun p => if p.pid = x.pid then { p with halted := p.halted ++ [t] } else p }

/-- HALT (R315): it waits for every matrix command, those of an engine that a trap has stopped too. -/
def execHalt (_ : CF) (s : State) : Host.Outcome State Fault Refusal :=
  finish (do
    notHelper 0x202
    let x ← getT
    need (x.mode = .free) cILLEGAL 0x202
    modT fun x => { x with gate := [] }
    upd fun s => ((s.tile s.cur).ctxs.filter fun e => e.1 ≠ 0 && e.2.stopped).foldl (fun s e => s.killHelper s.cur e.1) s
    let s ← get
    let x := s.tile s.cur
    if (x.ctxs.any fun e => e.1 ≠ 0) || !s.loadsDone || !(x.directOf 0).isEmpty || !x.engine.queue.isEmpty || x.engine.outgoing.isSome then
      waitKeep
    retireLoads s.ctx.pend.length
    release
    upd fun s => s.haltTile s.cur) s

/-- The hub's cycle, at 1.6 GHz. -/
def State.hubCycle (s : State) : Nat := s.now * 16 / 19

/-- The snapshot registers of a package are latched in hub cycle t, or a drop is counted; triggers of one hub cycle count as one (R380). -/
def State.snapshotAt (s : State) (p t : Nat) : State :=
  let m := (s.dev p).mgmt
  if m.snapAt = some t then s
  else match m.snap with
    | none => (s.modMgmt p fun m => { m with snap := some ⟨s.time p, t⟩, snapAt := some t }).logEvent p evSNAP hubSource 0
    | some _ => s.modMgmt p fun m => { m with snapLost := m.snapLost + 1, snapAt := some t }
def State.snapshot (s : State) (p : Nat) : State := s.snapshotAt p s.hubCycle
/-- The set of a block of package p: every block latches in one cycle, and all are read together (R380). -/
def State.blockSnap (s : State) (p _block : Nat) : Option Snap := (s.dev p).mgmt.snap

/-- A fabric trigger that names TIME n reaches a package; one whose TIME has passed fires at once (R380). -/
def State.trigger (s : State) (p n : Nat) : State := s.modMgmt p fun m => { m with triggers := m.triggers ++ [max n (s.time p)] }
/-- Fabric triggers whose TIME has come (R380). -/
def State.triggersDue (s : State) (p : Nat) : List Nat := (s.dev p).mgmt.triggers.filter fun n => decide (n ≤ s.time p)
/-- They fire, each in the hub cycle of its TIME, earliest first. -/
def State.fireTriggers (s : State) (p : Nat) : State :=
  let time := s.time p
  let due := (s.triggersDue p).foldr (fun n l => l.takeWhile (· < n) ++ n :: l.dropWhile (· < n)) []
  let s := due.foldl (fun (s : State) n => s.snapshotAt p (s.nowAt p n * 16 / 19)) s
  s.modMgmt p fun m => { m with triggers := m.triggers.filter fun n => decide (time < n) }

/-- SNAP (R316). -/
def execSnap (_ : CF) (s : State) : Host.Outcome State Fault Refusal :=
  finish (do
    supervisor
    upd fun s => s.snapshot (pkgOf s.cur)) s

/-! ## Memory management -/

/-- Virtual address lo lies in the page of va. -/
def samePage (large : Bool) (va lo : Nat) : Bool := if large then va / 2 ^ 29 = lo / 2 ^ 29 else va / 2 ^ 16 = lo / 2 ^ 16

/-- A matrix command has values in the page of space 0. -/
def MCmd.onPage (c : MCmd) (large : Bool) (va : Nat) : Bool :=
  spaceOf c.ra = 0 && (pieces (addrOf c.ra) (256 * fmtBits (fmtOf c.ra))).any fun q => samePage large va q.1

/-- R40 on a region: TLB entries, walks in flight, and cached lines of the page. -/
def State.tlbInv (s : State) (p r : Nat) (asid : BitVec 16) (va : Nat) (large : Bool) : State :=
  let hit := fun (e : TlbEntry) => e.asid = asid && e.large = large && e.page = (if large then va / 2 ^ 29 else va / 2 ^ 16)
  let s := s.modDev p fun d => { d with
    clusters := d.clusters.map fun c => if c.1 / 42 = r then (c.1, { c.2 with tlb := c.2.tlb.filter fun e => !hit e }) else c }
  let s := s.modRegion p r fun g => { g with
    walks := g.walks.map fun w => if w.asid = asid && samePage large va w.va then { w with discard := true } else w }
  s.tiles.foldl (fun s e =>
    if pkgOf e.1 = p && regionOf e.1 = r then
      ((s.tile e.1).lines.filter fun l => l.asid = asid && samePage large va (l.va * 128)).foldl (fun s l => s.evict e.1 l) s
    else s) s

/-- Requests of a region that went through a dropped entry and that no home has accepted (R40): requests on their way, probed stores of other
contexts, and accepted matrix commands. What of them is stopped translates again when it goes on. -/
def State.oldRequests (s : State) (p r va : Nat) (large : Bool) : Bool :=
  let at' := fun (q : Word) => spaceOf q = 0 && samePage large va (addrOf q)
  let here := fun (t : Nat) => pkgOf t = p && regionOf t = r
  (s.held.any fun h => h.away && here h.tile && (at' h.ptr || h.fill.any fun f => samePage large va (f.va * 128))) ||
    s.tiles.any fun e => here e.1 &&
      ((e.2.ctxs.any fun k => (e.1, k.1) ≠ (s.cur, s.cid) && !k.2.stopped && k.2.vsta.any fun a => a.addrs ≠ [] && at' a.ptr) ||
        (!e.2.engine.stopped && e.2.engine.queue.any fun c => c.addrs ≠ [] && c.onPage large va))

/-- Probed stores to a page translate again when they are performed. -/
def Ctx.forgetProbes (k : Ctx) (large : Bool) (va : Nat) : Ctx :=
  let forget := fun (e : VstaEntry) => if spaceOf e.ptr = 0 && samePage large va (addrOf e.ptr) then { e with addrs := [] } else e
  { k with vsta := k.vsta.map forget }

/-- Stopped helpers and engines of a region forget what they found of the page. -/
def State.forgetStopped (s : State) (p r va : Nat) (large : Bool) : State :=
  { s with tiles := s.tiles.map fun e =>
      if pkgOf e.1 = p && regionOf e.1 = r then (e.1, { e.2 with
        ctxs := e.2.ctxs.map fun k => (k.1, if k.2.stopped then k.2.forgetProbes large va else k.2)
        engine := if e.2.engine.stopped then e.2.engine.forgetLines fun c => c.onPage large va else e.2.engine }) else e }

/-- TLBINV (R40, R317). The issuing context's own unpaired VSTAs of the page translate again when they are performed. -/
def execTlbinv (f : CF) (s : State) : Host.Outcome State Fault Refusal :=
  finish (do
    supervisor
    let p ← rs f.a
    let a ← rs f.b
    need (spaceOf p = 0) cSPACE p
    release
    upd fun s => s.tlbInv (pkgOf s.cur) (regionOf s.cur) (bits a 0 16) (addrOf p) (f.p5 = 1)
    modC fun k => k.forgetProbes (f.p5 = 1) (addrOf p)
    upd fun s => s.forgetStopped (pkgOf s.cur) (regionOf s.cur) (addrOf p) (f.p5 = 1)
    let s ← get
    if s.oldRequests (pkgOf s.cur) (regionOf s.cur) (addrOf p) (f.p5 = 1) then waitKeep) s

/-- RESIZE (R117): while it waits for the engines, it holds the issue of the tile's other contexts and its refusal is decided. -/
def execResize (f : CF) (s : State) : Host.Outcome State Fault Refusal :=
  finish (do
    supervisor
    let x ← getT
    let limit := f.p5.toNat
    if x.quiet ≠ some s.cid && (limit < x.maxPinned || storeBytes limit < x.storedBytes) then ws f.d (BitVec.allOnes 64)
    else
      release
      let x ← getT
      if (x.chans.toList.any fun c => c.st = .running) || !x.direct.isEmpty || x.engine.busy || x.engine.outgoing.isSome then
        upd fun s => s.modTile s.cur fun x => { x with quiet := some s.cid }
        waitKeep
      upd fun s => (s.tile s.cur).lines.foldl (fun s l => s.evict s.cur l) s
      modT fun x => { x with pinLimit := limit, quiet := none }
      flash
      ws f.d (BitVec.ofNat 64 x.pinLimit)) s

/-- R47: every copy of the line's words is dropped with no write-back, the words are zero, poison and owner records go; what waits there is
served. -/
def State.clearLine (s : State) (gl : Nat) : State :=
  let d := s.dir gl
  let keys := (s.present.filter fun v => s.isVisitor v gl).map fun v => dirKey v gl
  let owners := d.owners ++ keys.flatMap fun k => (s.dir k).owners
  let s := owners.foldl (fun s o => s.modTile o.tile fun x => x.dropWords gl (BitVec.allOnes 32)) s
  let s := keys.foldl (fun s k =>
    if mhas s.dirs k then s.modDir k fun d => { d with owners := [], st := .normal } else s) s
  let s := s.modDir gl fun d => { d with
    owners := [], remote := .none, host := .none, st := if d.st = .poison then .normal else d.st }
  ({ s with mem := writeLine s.mem gl (BitVec.allOnes 128) 0 } : State).serveLine gl

/-- The line that a LINECLR clears: a forwarded one is followed. -/
def State.clearPlace (s : State) : Nat → Nat → Option Nat
  | 0, gl => some gl
  | fuel + 1, gl =>
    match (s.dir gl).st with
    | .migrating => none
    | .forward g => s.clearPlace fuel g
    | _ => some gl

/-- LINECLR (R47, R318). -/
def execLineclr (f : CF) (s : State) : Host.Outcome State Fault Refusal :=
  finish (do
    supervisor
    let p ← rs f.a
    need (spaceOf p = 0) cSPACE p
    let a ← fun s =>
      match s.translate s.asker (addrOf p) p with
      | (.leaf e large, s) =>
        match s.globalAddr (pkgOf s.cur) (leafPa e large (addrOf p)) with
        | some a => if s.lineReached (pkgOf s.cur) (a / 128) then .ok (a, s) else .error (.trap cUNREACH p)
        | none => .error (.trap cUNREACH p)
      | (.fault c, _) => .error (.trap c p)
      | (.wait, s) => .error (.waitWith s)
    let s ← get
    match s.clearPlace 8 (a / 128) with
    | none => wait
    | some gl =>
      match ← crosses (a / 128) with
      | .ok _ => upd fun s => s.clearLine gl
      | .fault c => trap c p
      | .wait => waitKeep) s

/-! ## Events of the issue slots and banks -/

/-- YIELD_EXPIRY: the 16 cycles have passed (R314). -/
def execYieldExpiry (t c : Nat) (s : State) : Host.Outcome State Fault Refusal :=
  happen (fun s => if mhas (s.tile t).ctxs c then s.modCtxAt t c fun k => { k with yieldTo := 0 } else s) s

/-- ISSUE_PRIORITY_RAISE (R336): one level, up to 3, in one slot. -/
def execIssuePriorityRaise (t c : Nat) (aSlot : Bool) (s : State) : Host.Outcome State Fault Refusal :=
  happen (fun s =>
    if mhas (s.tile t).ctxs c then
      s.modCtxAt t c fun k =>
        if aSlot then { k with levelA := min 3 (max k.prio k.levelA + 1) } else { k with levelC := min 3 (max k.prio k.levelC + 1) }
    else s) s

/-- The context is descheduled or halted: it is ready for neither slot (R131, R214, R336). -/
def Ctx.descheduled (k : Ctx) : Bool := k.stopped || (k.lastC.isSome && k.sinceA.isNone && k.sinceC.isNone)

/-- BANK_RETENTION (R131): the banks of a descheduled or halted context are in retention until their next access. -/
def execBankRetention (t c : Nat) (s : State) : Host.Outcome State Fault Refusal :=
  happen (fun s => if mhas (s.tile t).ctxs c && (s.ctxAt t c).descheduled then s.modCtxAt t c fun k => { k with retained := true } else s) s

end Sys2Proof.Machine
end

