-- ==== Sys2Proof/Machine/Context.lean ====
section
/-! DEFINITION. Launch shapes (R20, R329), pre-emption (R145, R214, R319, R346), save stores (R320, R348, R350), and the return of
a saved image to its tile or to another (R177, R352, R385). -/
namespace Sys2Proof.Machine

/-! ## Shapes (R20, R329) -/

/-- Tiles of clusters of a package. -/
def clusterTiles (p : Nat) (cs : List Nat) : List Nat :=
  cs.flatMap fun c => (List.range 8).map fun m => p * 4096 + 8 * c + m

/-- Clusters of the regions of a mask. -/
def maskClusters (rmask : Nat) : List Nat :=
  ((List.range 8).filter fun r => rmask / 2 ^ r % 2 = 1).flatMap fun r => (List.range 42).map fun c => 42 * r + c

/-- FORM of a shape. -/
def shapeForm (w0 : Word) : Nat := (bits w0 62 2).toNat

/-- The tiles of a shape of FORM 0, 1 or 2 on package p; a FORM 2 device that no package answers to adds none. -/
def State.shapeTiles (s : State) (p : Nat) (w0 w1 : Word) : List Nat :=
  let rmask := (bits w0 48 8).toNat
  match shapeForm w0 with
  | 0 =>
    let f := fun (lo : Nat) => (bits w0 lo 3).toNat
    clusterTiles p ((List.range (f 33)).flatMap fun y => (List.range (f 36)).map fun x => 42 * f 45 + 7 * (f 39 + y) + (f 42 + x))
  | 1 => clusterTiles p (maskClusters rmask)
  | _ => (List.range 64).flatMap fun i =>
      if w1.getLsbD i then
        match s.pkgOfDev (64 * (bits w0 56 6).toNat + i) with
        | some q => clusterTiles q (maskClusters rmask)
        | none => []
      else []

/-- Two lists hold the same tiles. -/
def sameTiles (a b : List Nat) : Bool := a.all (b.contains ·) && b.all (a.contains ·)

/-! ## Where a context stops (R145, R214) -/

/-- The context at its unit boundary: at the first unit whose compute part has not issued, with PIX.C's effect when its C-word has. -/
def Ctx.stopPoint (k : Ctx) : Ctx :=
  let k := if k.pixK then k else { k with kept := none }
  let k := match k.backlog with
    | p :: _ =>
      let k := { k with upc := p.pc, unit := p.image, useq := p.seq }.rollback
      { k with
        pc := p.pc, npc := p.pc, seq := p.seq, skipC := p.onlyA || (!p.held && !p.image.getLsbD 31 && !unitX p.image)
        dqs := k.dqs.map fun (q : List DqEntry) => q.filter fun e => e.filled || k.kept.any fun (g : Kept) => e.seq ≠ p.seq || g.unit = unitAddr p.pc }
    | [] => k
  { k with late := 0, waitFrom := none, timeFrom := none, yieldTo := 0, joined := false, sinceA := none, sinceC := none, levelA := 0, levelC := 0 }

/-- Requests of the context's loads and queue entries that no home has answered. -/
def State.unanswered (s : State) (k : Ctx) : Bool :=
  ((k.pend.flatMap fun l => l.awaits) ++ k.dqs.toList.flatten.flatMap fun e => e.awaits).any fun a =>
    s.held.any fun h => h.id = a.req && h.open

/-- One load before the stop point has returned and writes its register. One that is lost leaves the pending state too, for no load is pending in a
saved context (R145); the context's next release reports it (log entry 67). -/
def State.finishLoad (s : State) (t c : Nat) (l : PendLoad) : State :=
  let (v, _, lost) := settle s.held l.awaits l.raw.toNat
  let cause := s.lossCause l.awaits
  let s := l.awaits.foldl (fun s a => s.dropDone a.req) s
  let s := s.modCtxAt t c fun k =>
    let k := if lost then { k with losses := k.losses ++ [⟨cause, l.ptr, l.seq⟩] }
      else k.setSreg l.d (extendLoad l.size l.signed (BitVec.ofNat 64 v))
    { k with pend := k.pend.filter fun m => m.seq ≠ l.seq }
  if l.acq && !lost then s.flashTile t else s

/-- Every load of a context finishes, and its queue entries take their bytes. -/
def State.finishLoads (s : State) (t c : Nat) : State :=
  let s := (s.ctxAt t c).pend.foldl (fun (s : State) l => s.finishLoad t c l) s
  let back := (s.cur, s.cid)
  { ({ s with cur := t, cid := c } : State).fillQueues with cur := back.1, cid := back.2 }

/-- Every result is ready; nothing that the image does not hold is kept: what a slot or register held before, when the last units issued, what a
probe found (R144, R145). -/
def Ctx.settled (k : Ctx) : Ctx :=
  { k with
    losses := k.losses ++ k.lostLoads.map (fun l => ⟨l.cause, l.ptr, l.seq⟩), lostLoads := [], probed := none
    lastA := none, lastC := none, sready := Vector.replicate 32 0
    queue := k.queue.map fun (e : QEntry) => { e with ready := 0, old := 0 }
    vregs := k.vregs.map fun r => { r with ready := 0, prev := 0 }
    kregs := k.kregs.map fun (r : KReg) => { r with ready := 0, prev := 0 }
    mbs := k.mbs.map fun (b : Mailbox) => { b with ready := 0 }
    vsta := k.vsta.map fun a => { a with addrs := [] } }

/-- The issuing context stops after the C-word that it is executing. -/
def Ctx.afterC (k : Ctx) : Ctx :=
  { k with backlog := [], pc := k.upc, npc := k.upc, seq := k.useq, skipC := true, late := 0 }

/-! ## PREEMPT (R319, R346) -/

/-- What a partition leaves on its tile. -/
def Tile.park (x : Tile) : Parked := ⟨x.pid, x.chans, x.direct, x.held, x.gate, x.joins, x.member, x.gang, []⟩

/-- The tile without the partition that ran on it. -/
def Tile.vacant (x : Tile) : Tile :=
  { x with
    mode := .idle, pid := 0, self := 0, ctxs := [], bars := Vector.replicate 16 Barrier.reset, chans := Vector.replicate 4 Chan.reset
    direct := [], held := [], engine := Engine.reset, gate := [], joins := [], posts := [], gang := none, fuse := none, member := none
    quiet := none }

/-- An image enters the save store of a tile: its bytes past the shadow bank take ways of the array, whose lines are written back and invalidated
first, set by set (R348, R349). -/
def State.store (s : State) (t : Nat) (im : Image) (loaded : Bool) : State :=
  let s := s.modTile t fun x => { x with save := some im, saved := 0, loaded := loaded }
  (List.range 256).foldl (fun s i => if (s.tile t).extension i = 0 then s else s.trimSet t i ((s.tile t).ways i)) s

/-- Requests of the stopped contexts of a tile that only those wait for are withdrawn (R214); the others go on. -/
def State.withdrawAsks (s : State) (t : Nat) : State :=
  let x := s.tile t
  s.held.foldl (fun s h =>
    if decide (h.cid < engineCid) && h.pid = x.pid && h.self = x.self then
      match h.work with
      | .read | .await _ _ => s.closeHeld h
      | .deliver _ none => if h.open then s.closeHeld h else s
      | _ => s
    else s) s

/-- The tile writes its image to its save store. -/
def State.saveTile (s : State) (t : Nat) : State :=
  let s := s.withdraw t
  let s := ((s.tile t).ctxs.map (·.1)).foldl (fun s c => s.finishLoads t c) s
  let s := s.withdrawAsks t
  let x := s.tile t
  let im : Image := ⟨x.ctxs.map fun e => (e.1, e.2.settled), x.engine.atBoundary.forgetLines fun _ => true, x.bars, x.posts, x.pid, x.self, t⟩
  (s.setTile t { x.vacant with parked := x.parked ++ [x.park] }).store t im false

/-- Vetch stops the programs of tiles' partitions, or lets those of a partition go on (R182). -/
def State.modProgs (s : State) (f : Prog → Prog) : State :=
  { s with devices := s.devices.map fun d =>
      (d.1, { d.2 with regions := d.2.regions.map fun r => (r.1, { r.2 with progs := r.2.progs.map f }) }) }
def State.holdProgs (s : State) (ts : List Nat) : State :=
  s.modProgs fun g => if ts.contains g.tile && g.pid = (s.tile g.tile).pid then { g with stopped := true } else g
def State.freeProgs (s : State) (pid : Nat) (ts : List Nat) : State :=
  s.modProgs fun g => if ts.contains g.tile && g.pid = pid then { g with stopped := false } else g

def State.modPartition (s : State) (pid : Nat) (f : Partition → Partition) : State :=
  { s with partitions := s.partitions.map fun p => if p.pid = pid then f p else p }

/-- The members of the formed compacts of tiles, whatever their partitions: a formed compact halts whole (R19). -/
def State.together (s : State) (ts : List Nat) : List Nat :=
  let more := ts.flatMap fun t =>
    match (s.tile t).formedMember.bind s.compactOf with
    | some c => c.members.filter fun u => !ts.contains u && (s.tile u).formedMember.any fun m => c.is m
    | none => []
  ts ++ more.eraseDups

/-- Every context of the tiles stands at its stop point. -/
def State.stopContexts (s : State) (ts : List Nat) (own : Nat × Nat) : State :=
  ts.foldl (fun s t => (s.tile t).ctxs.foldl (fun s e =>
    s.modCtxAt t e.1 fun k => if (t, e.1) = own then k.afterC else k.stopPoint) s) s

/-- The complete store pairs of a context are performed, for its image holds unpaired entries only (R145). none: one waits. -/
def State.finishPairs (s : State) (t c : Nat) : Option State :=
  match within t c (performPairs 8) s with
  | .ok (_, s) => some s
  | .error _ => none
def State.finishAllPairs (s : State) (ts : List Nat) : Option State :=
  ts.foldlM (fun (s : State) t => (s.tile t).ctxs.foldlM (fun (s : State) e => s.finishPairs t e.1) s) s

/-- Pre-emption of live tiles together; own is the context that asks, when it is one of theirs. none: a load is still out. A ring block that can
land does, and its k-step counts (R160). -/
def State.preemptTiles (s : State) (tiles : List Nat) (own : Nat × Nat) : Option State :=
  let ts := s.together tiles
  match (s.stopContexts ts own).finishAllPairs ts with
  | none => none
  | some s =>
    if ts.any fun t => (s.tile t).ctxs.any fun e => s.unanswered e.2 then none
    else
      let s := ts.foldl (fun s t => s.handover t) s
      some (ts.foldl (fun s t => s.saveTile t) (s.holdProgs ts))

/-- Tiles on which a partition's contexts run. -/
def State.running (s : State) (p : Partition) : List Nat := p.tiles.filter fun t => mhas (s.tile t).ctxs 0 && (s.tile t).pid = p.pid

/-- Pre-emption of a live partition. -/
def State.preempt (s : State) (p : Partition) (own : Nat × Nat) : Option State :=
  (s.preemptTiles (s.running p) own).map fun s => s.modPartition p.pid fun p => { p with st := .preempted, loaded := [] }

/-- The tiles that a FORM 3 descriptor lists; none: it breaks R118 or R119. -/
def descTiles (p : Word) : M (Option (List Nat)) := do
  let h ← block32 p
  if !headerOk h then pure none
  else
    let es ← (List.range (bits (dw h 0) 16 13 : BitVec 13).toNat).mapM (blockAt (dw h 1))
    let s ← get
    pure (some (es.map fun e => s.memberTile (entryTile e).1 (entryTile e).2))

/-- The live partition with a shape and an ASID. -/
def State.partitionOf (s : State) (tiles : List Nat) (asid : BitVec 16) : Option Partition :=
  s.partitions.find? fun p => p.st = .live && p.asid = asid && sameTiles p.tiles tiles

/-- The formed compact whose members are some tiles, a partition of its own (R19). -/
def State.compactOn (s : State) (tiles : List Nat) (asid : BitVec 16) : Option Compact :=
  s.compacts.find? fun c => c.formed && sameTiles c.members tiles && c.members.all fun t =>
    (s.tile t).formedMember.any (fun m => c.is m) && (s.ctxAt t 0).asid = asid

/-- PREEMPT. -/
def execPreempt (f : CF) (s : State) : Host.Outcome State Fault Refusal :=
  finish (do
    supervisor
    let p ← rs f.a
    need (spaceOf p = 0) cSPACE p
    need (decide (addrOf p % 8 = 0)) cALIGN p
    let v ← loadNow p (addrOf p) 24
    let w := fun (i : Nat) => (BitVec.ofNat 64 (v / 2 ^ (64 * i)) : Word)
    let s ← get
    let tiles ← if shapeForm (w 0) = 3 then descTiles (w 1) else pure (some (s.shapeTiles (pkgOf s.cur) (w 0) (w 1)))
    let s ← get
    match tiles.bind fun ts => s.partitionOf ts (bits (w 2) 0 16) with
    | some q =>
      if (s.preempt q (s.cur, s.cid)).isNone then waitKeep
      ws f.d 0
      upd fun s => (s.preempt q (s.cur, s.cid)).getD s
    | none =>
      match tiles.bind fun ts => s.compactOn ts (bits (w 2) 0 16) with
      | some c =>
        if (s.preemptTiles c.members (s.cur, s.cid)).isNone then waitKeep
        ws f.d 0
        upd fun s => (s.preemptTiles c.members (s.cur, s.cid)).getD s
      | none => ws f.d 1) s

/-! ## The save store (R320, R350) -/

/-- The homes of an image's buffered lines and held arrivals can be told of the commit: none of its tentative registrations is under way. -/
def State.imageReady (s : State) (t : Nat) (im : Image) : Bool :=
  let p := pkgOf t
  (s.held.all fun h => h.pid ≠ im.pid || h.self ≠ im.self || h.work ≠ .tentative || !h.open) &&
    (im.ctxs.flatMap fun e => e.2.effects.map EffLine.gl ++ e.2.heldArrivals.map fun a => a / 128).all fun gl =>
      !s.lineReached p gl || s.netOpen p (pkgOfGl gl) (s.lineVia p gl) 1

/-- Before an image leaves its tile, the effect buffer of every helper in it is committed, and NR set. -/
def State.commitImage (s : State) (t : Nat) (im : Image) : State :=
  let s := im.ctxs.foldl (fun (s : State) e =>
    let s := e.2.effects.foldl (fun s l => s.commitLine ⟨im.pid, t, im.self, e.1, 0, 0, false, 0⟩ l) s
    e.2.heldArrivals.foldl (fun s a => s.sendUpdate t a 1 0 0) s) s
  s.modTile t fun x => { x with save := some { im with
    ctxs := im.ctxs.map fun e => (e.1, if e.1 = 0 then e.2 else { e.2 with effects := [], heldArrivals := [], nr := true }) } }

/-- The transfer's next n bytes, chunk by chunk, to a lent stripe. -/
def State.moveLanding (s : State) (t : Nat) (v : Nat) : Nat → Xfer → State × Xfer
  | 0, x => (s, x)
  | fuel + 1, x =>
    if x.finished || decide (x.len ≤ x.pos) then (s, x)
    else
      let (s, y) := s.writeLanding t 5 x (min (512 - x.pos % 512) (x.len - x.pos)) (v / 256 ^ x.pos)
      if y.pos = x.pos then (s, y) else s.moveLanding t v fuel y

/-- CTXSAVE. -/
def execCtxsave (f : CF) (s : State) : Host.Outcome State Fault Refusal :=
  finish (do
    supervisor
    let p ← rs f.a
    need (spaceOf p = 0 || spaceOf p = 3) cSPACE p
    need (spaceOf p = 0 || decide (ptrTile p < 2688)) cBADHANDLE p
    let s ← get
    match (s.tile s.cur).save with
    | none => ws f.d 0
    | some im =>
      if !s.imageReady s.cur im then waitKeep
      direct
      upd fun s => s.commitImage s.cur im
      let s ← get
      let im := ((s.tile s.cur).save).getD im
      let x := s.tile s.cur
      let v := s.imageNat im / 256 ^ x.saved
      let left := im.bytes - x.saved
      let a ← armer
      let n ← if spaceOf p = 3 then do
          let room := (s.handleTile p).elim 0 fun d => ((s.tile d).slot (hSlot p)).size * 512 - hOff p
          let n := min left room
          if n = 0 || s.landingCheck s.cur p n ≠ xOK then trapKeep cSAVEFAULT p
          let (s, y) := s.moveLanding s.cur v 512 (Xfer.new 0 false 0 p n 31 a)
          set s
          if y.finished || y.stale then trapKeep cSAVEFAULT p
          if y.pos < n then waitKeep
          pure n
        else do
          if 2 ^ 52 < addrOf p + left then trapKeep cSAVEFAULT p
          let (r, _, s) := s.engineStore a.asker p (addrOf p) left v
          set s
          match r with
          | .ok _ => pure left
          | .wait => waitKeep
          | .fault _ => trapKeep cSAVEFAULT p
      if n = left then
        upd fun s => { (s.modTile s.cur fun x => { x with save := none, saved := 0, loaded := false }) with
          away := s.away.filter (fun q => q.pid ≠ im.pid || q.self ≠ im.self) ++ [im] }
      else modT fun x => { x with saved := x.saved + n }
      ws f.d (BitVec.ofNat 64 n)) s

/-- The ACBs at a pointer: the control context's, then those that follow it as helpers of its partition. off is where the next
would start. -/
def State.readAcbs (s : State) (k : Asker) (p : Word) (pid off : Nat) : Nat → List (Nat × Nat) → EngRes (List (Nat × Nat)) × State
  | 0, acc => (.ok acc, s)
  | fuel + 1, acc =>
    match s.engineRead k p (addrOf p + off) 16 with
    | (.wait, s) => (.wait, s)
    | (.fault _, s) => (.ok acc, s)
    | (.ok h, s) =>
      match helperAt h ((acc.getLast?.getD (0, 0)).1) pid with
      | none => (.ok acc, s)
      | some c =>
        let n := acbBytes c (getBytes h 1 1 / 32)
        match s.engineRead k p (addrOf p + off) n with
        | (.ok v, s) => s.readAcbs k p pid (off + n) fuel (acc ++ [(c, v)])
        | (.wait, s) => (.wait, s)
        | (.fault c, s) => (.fault c, s)

/-- The image at a pointer. -/
def State.readImage (s : State) (k : Asker) (p : Word) : EngRes (List (Nat × Nat)) × State :=
  match s.engineRead k p (addrOf p) 16 with
  | (.wait, s) => (.wait, s)
  | (.fault c, s) => (.fault c, s)
  | (.ok h, s) =>
    let n := acbBytes 0 (min 4 (getBytes h 1 1 / 32))
    match s.engineRead k p (addrOf p) n with
    | (.ok v, s) => s.readAcbs k p (getBytes h 8 2) n 10 [(0, v)]
    | (.wait, s) => (.wait, s)
    | (.fault c, s) => (.fault c, s)

/-- R127, R352: the image belongs to a compact, whose images count only on their own tiles. -/
def State.ofCompact (s : State) (im : Image) : Bool := (s.tile im.origin).parked.any fun q => q.pid = im.pid && q.member.isSome

/-- CTXLOAD. -/
def execCtxload (f : CF) (s : State) : Host.Outcome State Fault Refusal :=
  finish (do
    supervisor
    let p ← rs f.a
    need (spaceOf p = 0) cSPACE p
    let x ← getT
    if x.save.isSome then ws f.d 1
    else
      let a ← armer
      let s ← get
      match s.readImage a.asker p with
      | (.wait, s) => do set s; waitKeep
      | (.fault _, _) => trap cSAVEFAULT p
      | (.ok acbs, s) =>
        let im := s.imageOf acbs
        set (s.store s.cur im true)
        if !s.ofCompact im || im.origin = s.cur then
          upd fun s => s.modPartition im.pid fun q => { q with loaded := q.loaded.filter (· ≠ s.cur) ++ [s.cur] }
        ws f.d 0) s

/-! ## Resumption (R177, R352, R385) -/

/-- A restored context: with PIX.C = 1, only the A-word of the unit at PC executes, and PIX.C is 0 again (R385, log entry 27). -/
def Ctx.restored (k : Ctx) : Ctx := if k.pixC then { k with skipC := true, pixC := false } else k

/-- Lines of a partition's launch reservation. -/
def Partition.lres (p : Partition) : Nat := (bits (dw p.record 2) 32 12 : BitVec 12).toNat

/-- Lines of a reservation: pinned and zero-filled. A line of a pre-empted partition under the same local number stays pinned beside it (R332;
log entry 68). -/
def State.reserveLines (s : State) (t pid n : Nat) : State :=
  (List.range n).foldl (fun s l =>
    if mhas (s.tile t).pins l && ((s.tile t).pin l).pid = pid then
      s.modTile t fun x => x.modPinOf pid l fun q => { q with data := 0, kind := .reserved }
    else
      let s := if mhas (s.tile t).pins l then s.modTile t fun x => x.displace l else s
      s.pinLine t l ({ PinLine.zero with pid := pid } : PinLine)) s

/-- The pin limit would be passed on a tile by a reservation of n lines for a partition (R116). -/
def Tile.reserveBad (x : Tile) (pid n : Nat) : Bool :=
  (List.range 256).any fun i =>
    let add := ((List.range n).filter fun l => l % 256 = i && !(mhas x.pins l && (x.pin l).pid = pid)).length
    add ≠ 0 && decide (x.pinLimit < x.pinned i + add)

/-- The lines of a partition that later launches had displaced are where they were. -/
def Tile.putBack (x : Tile) (ls : Map PinLine) : Tile :=
  ls.foldl (fun x e =>
    let x := if mhas x.pins e.1 then x.displace e.1 else x
    { x with pins := mset x.pins e.1 e.2 }) x

/-- Landed fills of the tile's contexts enter the mailboxes that are empty. -/
def State.pipTurns (s : State) (t : Nat) : State :=
  (s.tile t).ctxs.foldl (fun s e => (List.range 8).foldl (fun s m => s.pipTurn t e.1 m) s) s

/-- Requests of a partition that wait at homes are tried again. -/
def State.serveWaiting (s : State) (pid : Nat) : State :=
  (((s.held.filter fun h => h.waits && h.pid = pid).map fun h => h.gl).eraseDups).foldl (fun s gl => s.serveLine gl) s

/-- The local barriers of a partition's image that was saved on tile o. -/
def State.imageBars (s : State) (o pid : Nat) : Option (Vector Barrier 16) :=
  ((s.tiles.filterMap fun e => e.2.save).find? fun im => im.pid = pid && im.origin = o).map fun im => im.bars
def Image.setBars (im : Image) (o pid : Nat) (b : Vector Barrier 16) : Image := if im.pid = pid && im.origin = o then { im with bars := b } else im

/-- What a partition's channels and direct transfers at ORIGIN end with when its image runs elsewhere: KILLED (R288). Its channels come to act
once more; what they credit is the image's. The second part tells that every record is written. -/
def State.killParked (s : State) (o pid : Nat) : State × Bool :=
  match (s.tile o).parked.find? fun q => q.pid = pid with
  | none => (s, true)
  | some q =>
    let x := s.tile o
    let s := s.modTile o fun y => { y with chans := q.chans, direct := q.direct, bars := (s.imageBars o pid).getD y.bars }
    let s := (List.range 4).foldl (fun s ch => s.killChan o ch) s
    let s := q.direct.foldl (fun s d => s.killDirect o d) s
    let y := s.tile o
    let s : State := { s with tiles := s.tiles.map fun e => (e.1, { e.2 with save := e.2.save.map fun im => im.setBars o pid y.bars }) }
    (s.modTile o fun z => { z with
        chans := x.chans, direct := x.direct, bars := x.bars
        parked := z.parked.map fun r => if r.pid = pid then { r with chans := y.chans, direct := y.direct } else r },
      y.chans.toList.all fun c => c.st ≠ .running)

/-- What else ends at ORIGIN when an image runs elsewhere (R288): landing slots and the reservation. -/
def State.leaveOrigin (s : State) (o pid : Nat) : State :=
  let s := ((s.tile o).slots.filter fun e => e.2.alloc && e.2.pid = pid).foldl (fun s e => s.freeSlot o e.1) s
  s.modTile o fun y => { y with
    pins := y.pins.filter fun e => e.2.kind ≠ .reserved || e.2.pid ≠ pid, parked := y.parked.filter fun r => r.pid ≠ pid }

/-- Where images of a partition have moved, as (ORIGIN, new tile), what they leave at each ORIGIN ends before any tile starts again, and the statuses
that wait for HJOIN go with them. -/
def State.leaveOrigins (s : State) (pid : Nat) (ms : List (Nat × Nat)) : State :=
  let s := ms.foldl (fun (s : State) m => s.modTile m.2 fun x => { x with
    joins := (((s.tile m.1).parked.find? fun q => q.pid = pid).map fun q => q.joins).getD [] }) s
  ms.foldl (fun s m => s.leaveOrigin m.1 pid) s

/-- The tile reads its image back. -/
def State.restoreTile (s : State) (t : Nat) : State :=
  match (s.tile t).save with
  | none => s
  | some im =>
    let o := im.origin
    let lres := ((s.partitions.find? fun p => p.pid = im.pid).map Partition.lres).getD 0
    let s : State := { s with away := s.away.filter fun q => q.pid ≠ im.pid || q.self ≠ im.self }
    let s := s.modTile t fun x => { x with
      save := none, saved := 0, loaded := false, pid := im.pid, self := im.self, origin := o, mode := .free
      ctxs := im.ctxs.map fun e => (e.1, e.2.restored), engine := im.engine, bars := im.bars, posts := im.posts }
    match if o = t then (s.tile o).parked.find? fun q => q.pid = im.pid else none with
    | none => (s.reserveLines t im.pid lres).pipTurns t
    | some q =>
      let s := s.modTile t fun x => ({ x with
        chans := q.chans, direct := q.direct, held := q.held, gate := q.gate, joins := q.joins, member := q.member, gang := q.gang
        mode := if q.member.isSome then .member else .free, parked := x.parked.filter fun r => r.pid ≠ im.pid } : Tile).putBack q.lines
      s.pipTurns t

/-- A saved image of a partition on a tile where it counts: where it was saved, or where CTXLOAD put it. -/
def State.imageOn (s : State) (p : Partition) (t : Nat) : Bool :=
  (s.tile t).save.any fun im => im.pid = p.pid && ((im.origin = t && !p.halted.contains t) || p.loaded.contains t)

/-- The tiles that hold images of a partition. -/
def State.imageTiles (s : State) (p : Partition) : List Nat := (s.tiles.map (·.1)).filter fun t => s.imageOn p t

/-- Tiles of a partition on which it has not started (R329). -/
def State.unstarted (s : State) (p : Partition) : List Nat :=
  p.tiles.filter fun t => !p.halted.contains t && (s.tile t).pid ≠ p.pid && !(s.tile t).parked.any fun q => q.pid = p.pid

/-- The compact of tile t's image, saved there. -/
def State.savedCompact (s : State) (t : Nat) : Option Compact :=
  match (s.tile t).save with
  | some im => (((s.tile t).parked.find? fun q => q.pid = im.pid && im.origin = t).bind fun q => q.member).bind s.compactOf
  | none => none

/-- Tiles that resume together with some: the saved members of their compacts (R19). -/
def State.resumeWith (s : State) (ts : List Nat) : List Nat :=
  let more := ts.flatMap fun t =>
    match s.savedCompact t with
    | some c => c.members.filter fun u => !ts.contains u && (s.tile u).parked.any fun q => q.member.any fun m => c.is m
    | none => []
  ts ++ more.eraseDups

/-- What PARTITION_RESUME restores: all of a pre-empted partition, and the saved compacts of a live one. -/
def State.resumeTiles (s : State) (p : Partition) : List Nat :=
  s.resumeWith (if p.st = .preempted then s.imageTiles p else (s.imageTiles p).filter fun t => (s.savedCompact t).isSome)

/-- Nothing runs on a tile, it is not fenced, and its pin limit allows the reservation of a moved image (R116). -/
def State.resumable (s : State) (t : Nat) : Bool :=
  let x := s.tile t
  !mhas x.ctxs 0 && !x.fenced && match x.save with
    | some im => im.origin = t || !x.reserveBad im.pid (((s.partitions.find? fun p => p.pid = im.pid).map Partition.lres).getD 0)
    | none => false

/-- A partition may resume: every image it needs is in a save store, on tiles where nothing runs (R352). -/
def State.mayResume (s : State) (p : Partition) : Bool :=
  let ts := s.resumeTiles p
  (p.st = .live || (s.imageTiles p).length + p.halted.length + (s.unstarted p).length + (s.running p).length = p.tiles.length) &&
    !ts.isEmpty && ts.all fun t => s.resumable t

/-- Where the images of a partition stand: the tile each left, and the tile it is on now. -/
def State.moves (s : State) (p : Partition) : List (Nat × Nat) :=
  (s.imageTiles p).filterMap fun t => ((s.tile t).save).map fun im => (im.origin, t)

/-- The partition's tiles after its images have moved; a halted tile to which one has moved is the partition's again. -/
def Partition.move (p : Partition) (ms : List (Nat × Nat)) : Partition :=
  let gone := fun (t : Nat) => p.halted.contains t && ms.any fun m => m.2 = t
  let put := fun (t : Nat) => ((ms.find? fun m => m.1 = t).map fun m => m.2).getD t
  { p with tiles := (p.tiles.filter fun t => !gone t).map put, halted := p.halted.filter fun t => !gone t, loaded := [] }

/-- The images that are to resume are restored, and their programs go on. First, what moved ones left at ORIGIN ends; a record that still waits
there to be written keeps them back. -/
def State.resume (s : State) (p : Partition) : State :=
  let ts := s.resumeTiles p
  let ms := s.moves p
  let moved := ms.filter fun m => m.1 ≠ m.2
  let (s, ready) := moved.foldl (fun (r : State × Bool) m =>
    let (s, ok) := r.1.killParked m.1 p.pid
    (s, r.2 && ok)) (s, true)
  if !ready then s
  else
    let ims := ts.filterMap fun t => (s.tile t).save
    let s := ts.foldl (fun s t => s.restoreTile t) (s.leaveOrigins p.pid moved)
    let s := ims.foldl (fun (s : State) im => (s.freeProgs im.pid [im.origin]).serveWaiting im.pid) s
    s.modPartition p.pid fun p => if p.st = .preempted then { p.move ms with st := .live } else { p with loaded := [] }

/-- PIP_END (R177, R352): END of the moved contexts of tile t reaches a tile on which they had slots. A LIVE slot gives TAG 2 and its pointer, a
LANDED one its fill; fills wait there while their mailbox is full, and enter it in the order of their events (R324), even when the contexts have
been saved again. -/
def execPipEnd (origin t : Nat) (s : State) : Host.Outcome State Fault Refusal :=
  happen (fun s =>
    let x := s.tile t
    let mine := fun (p : Pip) => p.pid = x.pid && p.self = x.self
    if origin = t || !mhas x.ctxs 0 then s
    else
      let s := ((s.tile origin).pips.filter fun e => e.2.st = .live && mine e.2).foldl (fun s e =>
        s.pipLand origin e.1 2 (s.pipPtr origin e.1) false) s
      x.ctxs.foldl (fun s e => (List.range 8).foldl (fun s m => s.pipFrom origin t e.1 m) s) s) s

end Sys2Proof.Machine
end

