-- ==== Sys2Proof/Machine/Gloam.lean ====
section
/-! DEFINITION. Events of the Gloam fabric: slots and the requests that wait for them (R359, R363, R370), spans (R172), allowances
(R363, R369), draining and relocking (R364), lanes (R365). -/
namespace Sys2Proof.Machine

/-! ## Sending a request that the fabric held (R168 to R172, R359, R363) -/

/-- The bytes of a request that its span's tag covers: those that it writes. -/
def Held.payload (h : Held) : Nat :=
  match h.work with
  | .store _ d | .register _ d => d.toNat
  | .amo _ _ _ x _ => x.toNat
  | .update _ _ arr bytes => arr + bytes * 2 ^ 64
  | _ => 0

/-- The path of a request, at the package it comes from. -/
def State.heldKey (s : State) (h : Held) : Nat := pathKey (s.dev (pkgOfGl h.gl)).pos.toNat h.via

/-- The last hop of a request: its span reaches the target, which lets it take effect once its tag has passed (R172). -/
def State.lastHop (s : State) (h : Held) (relayed : Bool) : State :=
  let p := pkgOf h.tile
  let q := pkgOfGl h.gl
  match s.transmit p (s.heldKey h) (.request h.id) 128 h.payload with
  | (.ok, s) => (if relayed then s.netConsume p q 1 else s.netAllow p q 1).arrive h
  | (.again, s) => s
  | (.lost, s) => s.loseHeld h cUNREACH

/-- Where a request goes next from package d: the position of its next hop, and whether that is its last. none: it does not wait at d, or may not
leave. -/
def State.nextHop (s : State) (d : Nat) (h : Held) : Option (Nat × Bool) :=
  let p := pkgOf h.tile
  let q := pkgOfGl h.gl
  let n := (s.dev q).pos.toNat
  let last := if s.pathBlocked p (s.heldKey h) (some (.request h.id)) then none else some (n, true)
  match h.stage with
  | .queue =>
    if p ≠ d || !s.hopOpen p q h.via 1 then none
    else match h.via with
      | some i => some (i, false)
      | none => last
  | .relay i => if i = d && ((s.dev d).fabric.st = .run || (s.dev d).fabric.st = .drain) then last else none
  | .home => none

/-- One request at package d, if the slot of its TIME takes it: the first flits of each path go before others of it. stuck lists the paths that
wait there. -/
def State.slotSend (d : Nat) (r : State × List (Nat × Nat)) (h : Held) : State × List (Nat × Nat) :=
  let (s, stuck) := r
  let key := (pkgOf h.tile, s.heldKey h)
  let here := h.stage = .relay d || (h.stage = .queue && pkgOf h.tile = d)
  if !here then r
  else match s.nextHop d h with
    | some (n, last) =>
      if stuck.contains key || s.slotRoom d n = 0 then (s, key :: stuck)
      else
        let s := s.charge d n 1
        let s' := if last then s.lastHop h (h.stage ≠ .queue)
          else match s.pkgAtPos d n with
            | some i => (s.netSend d (pkgOfGl h.gl) 1).modHeld h.id fun h => { h with stage := .relay i }
            | none => s
        (s', if s'.held.any fun g => g.id = h.id && g.away && g.stage = h.stage then key :: stuck else stuck)
    | none => (s, key :: stuck)

/-- The requests that wait at package d in a slot, oldest first. -/
def State.slotSends (s : State) (d : Nat) : State :=
  ((s.held.filter fun h => h.away).foldl (fun r h =>
    match r.1.held.find? fun g => g.id = h.id && g.away with
    | some h => State.slotSend d r h
    | none => r) (s, [])).1

/-- REGISTER_GRANT (R79): the grant of a store that waits completes it, if nothing holds it back. -/
def execRegisterGrant (h : Nat) (s : State) : Host.Outcome State Fault Refusal :=
  happen (fun s =>
    match s.held.find? fun q => q.id = h && q.waits with
    | some q => s.serveLine q.gl
    | none => s) s

/-- No request of the same path was sent before one that waits for its last hop (R169). -/
def State.firstOfPath (s : State) (h : Held) : Bool :=
  (s.held.filter fun g => g.away && pkgOf g.tile = pkgOf h.tile && pkgOfGl g.gl = pkgOfGl h.gl && g.via = h.via).head?.any fun g => g.id = h.id

/-- SPAN_RECEIVE (R172): the span of the first request of a path reaches its target in a slot that takes it. One whose tag passes
takes effect; one whose tag fails goes again, and nothing of its path before it; after 8 failures the path is reported and the request is lost. -/
def execSpanReceive (h : Nat) (ok : Bool) (s : State) : Host.Outcome State Fault Refusal :=
  happen (fun s =>
    match s.held.find? fun q => q.id = h && q.away with
    | none => s
    | some q =>
      let p := pkgOf q.tile
      let key := s.heldKey q
      let n := (s.dev (pkgOfGl q.gl)).pos.toNat
      let (at', closed) := match q.stage with
        | .relay i => (i, false)
        | _ => (p, q.via.isSome || !s.hopOpen p (pkgOfGl q.gl) none 1)
      if !s.firstOfPath q || s.pathBlocked p key (some (.request h)) || closed || s.slotRoom at' n = 0 then s
      else
        let s := s.charge at' n 1
        let s := if ok then s else s.modFabric p fun f => { f with garbled := (mset f.garbled key ⟨1, 1⟩) }
        s.lastHop q (q.stage ≠ .queue)) s

/-! ## Draining (R364) -/

/-- The packages of the system in the domain of package p, itself not counted. -/
def State.domainOf (s : State) (p : Nat) : List Nat := s.present.filter fun q => q ≠ p && s.sameDomain p q && !(s.dev q).dark

/-- Every marker has arrived and the own ones are acknowledged: the package goes DARK. -/
def State.drainCheck (s : State) (p : Nat) : State :=
  let d := s.dev p
  let due := d.pos.toNat :: ((s.domainOf p).filter fun q => (s.dev q).fabric.pathTo d.pos.toNat).map fun q => (s.dev q).pos.toNat
  if d.fabric.st = .drain && due.all (d.fabric.markers.contains ·) then s.modFabric p fun f => { f with st := .dark } else s

/-- A marker of the package at a position arrives at package p. -/
def State.markerFrom (s : State) (p n : Nat) : State :=
  (s.modFabric p fun f => { f with markers := f.markers.filter (· ≠ n) ++ [n] }).drainCheck p

/-- DRAIN_MARKER. -/
def execDrainMarker (dev src : Nat) (s : State) : Host.Outcome State Fault Refusal := happen (fun s => s.markerFrom dev src) s

/-- Flits from package p to package q are in a relay buffer, and markers follow them (R364). -/
def State.inRelay (s : State) (p q : Nat) : Bool :=
  (s.held.any fun h => h.away && h.stage ≠ .queue && pkgOf h.tile = p && pkgOfGl h.gl = q) ||
    (s.dev p).regions.any fun r => r.2.progs.any fun g => g.out.any fun c => c.pkg = q && decide (0 < c.relayed)

/-- From the next slot edge, package p's markers go out on its old paths, each behind what was sent there; its own are acknowledged when all have
arrived. -/
def State.sendMarkers (s : State) (p : Nat) : State :=
  if s.sends p then s else
  let pos := (s.dev p).pos.toNat
  let peers := (s.domainOf p).filter fun q => (s.dev p).fabric.pathTo (s.dev q).pos.toNat
  let s := (peers.filter fun q => !s.inRelay p q).foldl (fun s q => s.markerFrom q pos) s
  if peers.any fun q => s.inRelay p q then s else s.markerFrom p pos

/-- Flits that are on undrained paths from or into package d are lost at their requesters (R364). -/
def State.loseRelayed (s : State) (d : Nat) : State :=
  let s := (s.held.filter fun h => h.away && h.stage ≠ .queue && (pkgOf h.tile = d || pkgOfGl h.gl = d || h.stage = .relay d)).foldl
    (fun s h => s.loseHeld h cUNREACH) s
  s.devices.foldl (fun s e => e.2.regions.foldl (fun s r => r.2.progs.foldl (fun s g =>
    match g.out with
    | some c => if decide (0 < c.relayed) && (e.1 = d || c.pkg = d || (c.via.bind fun i => s.pkgAtPos e.1 i) = some d) then s.failStep e.1 r.1 g 3 else s
    | none => s) s) s) s

/-- DRAIN_TIMEOUT: 1 ms of DRAIN has passed. -/
def execDrainTimeout (dev : Nat) (s : State) : Host.Outcome State Fault Refusal :=
  happen (fun s =>
    if (s.dev dev).fabric.st = .drain && decide ((s.dev dev).fabric.since + 1000000 ≤ s.time dev) then
      (s.modFabric dev fun f => { f with st := .dark, code := glTIMEOUT }).loseRelayed dev
    else s) s

/-! ## Slots (R359) -/

/-- SLOT_EDGE: slot k has come, which is that of TIME. What waits for a position that its matching meets is sent after its guard, from the send
queues in RUN and from the relay buffer in DRAIN too, where the package's markers follow. -/
def execSlotEdge (dev k : Nat) (s : State) : Host.Outcome State Fault Refusal :=
  happen (fun s =>
    let f := (s.dev dev).fabric
    if k ≠ f.slotOf (s.time dev) then s
    else
      let s := s.modFabric dev fun f => f.turnSlot k
      match f.st with
      | .run => s.slotSends dev
      | .drain => (s.slotSends dev).sendMarkers dev
      | _ => s) s

/-- Flits that a position has consumed come back now: in a slot that matches the pair, those of a slot's last 0.5 µs in a later slot (R372). A
pair that no slot matches returns them in any. -/
def State.returnsNow (s : State) (p n : Nat) : Bool :=
  let f := (s.dev p).fabric
  let k := f.slotOf (s.time p)
  decide ((f.allow n).after ≤ k) && (f.meets (k % 4) n || !f.meetsSome n)

/-- ALLOWANCE_RETURN (R363): the receiver at a position returns flits that it has consumed, unless it withholds them. -/
def execAllowanceReturn (dev pos n : Nat) (s : State) : Host.Outcome State Fault Refusal :=
  happen (fun s =>
    match s.pkgAtPos dev pos with
    | none => s
    | some q =>
      if s.withheld dev q || (s.dev dev).fabric.darkNow || !s.returnsNow dev pos then s
      else s.modAllow dev pos fun a => let m := min n a.owed; { a with send := a.send + m, owed := a.owed - m }) s

/-! ## Relocking (R364, R369) -/

/-- RELOCK_ROTATION: a rotation has begun since GO, AT or later; shadow tables, LEN and GUARD become active. The entries then lock for two
rotations from its start. -/
def execRelockRotation (dev : Nat) (s : State) : Host.Outcome State Fault Refusal :=
  happen (fun s =>
    let f := (s.dev dev).fabric
    let r := f.rotOf (s.time dev)
    if f.st = .dark && f.relockGo && decide (f.at'.toNat ≤ r) && decide (f.rotOf f.since < r) then
      s.modFabric dev fun f => { f with
        st := .relock, relockGo := false, slots := f.shadowSlots, paths := f.shadowPaths, len := f.lenNext, guard := f.guardNext
        since := r * (4 * f.slotNs), used := [] }
    else s) s

/-- Active slot entries of a package whose peer, relocked, names the package in the same entry (R360). -/
def State.symmetric (s : State) (p : Nat) : BitVec 64 :=
  (List.range 64).foldl (fun m i =>
    let e := mget 0 (s.dev p).fabric.slots i
    let ok := e.getLsbD 15 && match s.pkgAtPos p (bits e 8 6 : BitVec 6).toNat with
      | some q =>
        let g := mget 0 (s.dev q).fabric.slots i
        ((s.dev q).fabric.st = .relock || (s.dev q).fabric.st = .run) && g.getLsbD 15 && bits g 8 6 = (s.dev p).pos
      | none => false
    if ok then m ||| (1 <<< i) else m) 0

/-- Every valid slot entry is among those that have locked, each in its slot of a rotation since the copy; or two rotations have passed. -/
def State.relockDue (s : State) (p : Nat) (locked : BitVec 64) : Bool :=
  let f := (s.dev p).fabric
  f.st = .relock && (decide (f.since + 2 * (4 * f.slotNs) ≤ s.time p) ||
    (decide (f.since + 4 * f.slotNs ≤ s.time p) && f.slots.all fun e => !e.2.getLsbD 15 || locked.getLsbD e.1))

/-- Slot entries that did not lock give up their V. -/
def Fabric.unlock (f : Fabric) (locked : BitVec 64) : Fabric :=
  let bad := f.slots.filter fun e => e.2.getLsbD 15 && !locked.getLsbD e.1
  { f with
    slots := f.slots.map fun e => if bad.contains e then (e.1, e.2 &&& ~~~0x8000) else e
    code := if bad.isEmpty then glOK else glNOLOCK, st := .run, markers := [] }

/-- R369, R363: the allowance of package p toward position n on entry to RUN. A receiver that withholds grants it later. -/
def State.openPath (s : State) (p n : Nat) : State :=
  let f := (s.dev p).fabric
  let a := f.allow n
  let no := (s.pkgAtPos p n).any fun q => ((s.dev q).fabric.allow (s.dev p).pos.toNat).withhold
  if f.pathTo n then
    if a.up then s
    else s.modAllow p n fun a => { a with send := if no then 0 else 4096, owed := if no then 4096 else 0, after := 0, up := true }
  else if a.up || a.send ≠ 0 then s.modAllow p n fun a => { a with send := 0, owed := 0, after := 0, up := false } else s

/-- Programs of package p whose contribution was asked for by a target that it does not reach any more end UNREACH (R364). -/
def State.loseSpans (s : State) (p : Nat) : State :=
  (s.dev p).regions.foldl (fun s r => r.2.progs.foldl (fun s g =>
    if g.out.any fun c => c.pulled.isSome && !c.acked && !s.reaches p c.pkg then s.failStep p r.1 g 3 else s) s) s

/-- Lines of package p whose only modified copy lies with a package that it does not reach are poisoned (R46); what waits for others is served. -/
def State.losePeers (s : State) (p : Nat) : State :=
  let mine := s.dirs.filter fun e => decide (e.1 < 2 ^ 57) && pkgOfGl e.1 = p
  mine.foldl (fun s e =>
    match e.2.remote with
    | .modified n => if ((s.pkgAtPos p n).all fun q => !s.reaches p q) then s.poisonLine e.1 else s.serveLine e.1
    | _ => s.serveLine e.1) s

/-- RELOCK_DONE: the package is in RUN; locked are the entries that have locked, none of them asymmetric (R360). Its queued flits take the paths
of the new table; those whose target is unreachable are lost (R364, R369, R370). -/
def execRelockDone (dev : Nat) (locked : BitVec 64) (s : State) : Host.Outcome State Fault Refusal :=
  happen (fun s =>
    let locked := locked &&& s.symmetric dev
    if !s.relockDue dev locked then s
    else
      let s := s.modFabric dev fun f => f.unlock locked
      let s := (List.range 64).foldl (fun s n => if n = (s.dev dev).pos.toNat then s else s.openPath dev n) s
      let mine := s.held.filter fun h => h.away && h.stage = .queue && pkgOf h.tile = dev
      let s := mine.foldl (fun s h =>
        if s.reaches dev (pkgOfGl h.gl) then s.modHeld h.id fun h => { h with via := s.lineVia dev h.gl } else s.loseHeld h cUNREACH) s
      (s.loseSpans dev).losePeers dev) s

/-! ## Lanes (R365) -/

/-- Corrected symbols of a lane in this rotation: past THRESH it asks to retrain. -/
def State.symbols (s : State) (dev lane n : Nat) : State :=
  s.modFabric dev fun f =>
    let f := f.turnSlot (f.slotOf (s.time dev))
    let l := f.lane lane
    let l := { l with prefec := l.prefec + BitVec.ofNat 48 n, inRotation := l.inRotation + n }
    { f with lanes := mset f.lanes lane { l with pend := l.pend || (l.st = 1 && decide (f.thresh.toNat < l.inRotation)) } }

/-- A flit arrives at a port (R171): one whose CRC fails is discarded and replayed by the link. -/
def State.flitArrives (s : State) (dev port : Nat) (f : BitVec 2048) : State :=
  if flitOk f then s else s.modFabric dev fun g => { g with replay := mset g.replay port (mget 0 g.replay port + 1) }

/-- A path of a package changes bits of the next n spans that it carries. -/
def State.garble (s : State) (dev path n flip : Nat) : State :=
  s.modFabric dev fun f => { f with garbled := if n = 0 then mdel f.garbled path else mset f.garbled path ⟨n, flip⟩ }

/-- A lane is withdrawn to retrain. -/
def Lane.withdraw (l : Lane) (time : Nat) : Lane :=
  { l with st := 2, pend := false, retrains := l.retrains + 1, failTimes := l.failTimes.filter (fun t => decide (time < t + 1000000000)) ++ [time] }

/-- PEND lanes of a port, and enabled ones that have never trained. -/
def Fabric.pending (f : Fabric) (port : Nat) : List Nat :=
  ((List.range 8).map fun i => 8 * port + i).filter fun n => (f.lane n).en && ((f.lane n).pend || (f.lane n).st = 0)
/-- The port to which package p switches its calibration path now: once a rotation, in RUN, in a slot in which a port of its is idle, the next
port round robin that holds PEND lanes. -/
def State.calibrates (s : State) (p : Nat) : Option Nat :=
  let d := s.dev p
  let f := d.fabric
  let time := s.time p
  let j := f.slotOf time % 4
  if f.st = .run && decide (5 ≤ d.mgmt.stage) && f.calRot ≠ f.rotOf time + 1 &&
      (List.range 16).any fun port => !(mget 0 f.slots (4 * port + j)).getLsbD 15 then
    ((List.range 16).map fun i => (f.calPort + i) % 16).find? fun port => !(f.pending port).isEmpty
  else none

/-- LANE_RETRAIN: in its idle port-slot the device withdraws the PEND lanes of the port whose turn it is. -/
def execLaneRetrain (dev lane : Nat) (s : State) : Host.Outcome State Fault Refusal :=
  happen (fun s =>
    let port := lane / 8 % 16
    if s.calibrates dev ≠ some port then s
    else s.modFabric dev fun f =>
      let ls := f.pending port
      { f with
        lanes := ls.foldl (fun m n => mset m n ((f.lane n).withdraw (s.time dev))) f.lanes
        retraining := f.retraining.filter (fun n => !ls.contains n) ++ ls
        calPort := (port + 1) % 16, calRot := f.rotOf (s.time dev) + 1 }) s

/-- A withdrawn lane comes back after the next guard interval. -/
def State.handsBack (s : State) (dev lane : Nat) : Bool :=
  let f := (s.dev dev).fabric
  let l := f.lane lane
  l.st = 2 && f.pastGuard (s.time dev) && l.failTimes.getLast?.all fun t => decide (f.slotOf t < f.slotOf (s.time dev))

/-- LANE_HANDBACK: a lane that locks carries traffic again; one that fails, or has retrained FAILN times within 1 s, is FAILED. -/
def execLaneHandback (dev lane : Nat) (locked : Bool) (s : State) : Host.Outcome State Fault Refusal :=
  happen (fun s =>
    let f := (s.dev dev).fabric
    let l := f.lane lane
    if !s.handsBack dev lane then s
    else
      let many := decide (f.failn.toNat ≤ (l.failTimes.filter fun t => decide (s.time dev < t + 1000000000)).length)
      let st : BitVec 2 := if !l.en then 0 else if locked && !many then 1 else 3
      let s := s.modFabric dev fun f => { f with
        lanes := mset f.lanes lane { l with st := st }, retraining := f.retraining.filter (· ≠ lane) }
      if st = 3 then s.logEvent dev evLINK (portSource (lane / 8)) lane else s) s

end Sys2Proof.Machine
end

