-- ==== Sys2Proof/Machine/Homes.lean ====
section
/-! DEFINITION. Events of homes and tiles' arrays (R72, R73, R77, R79, R84 to R86), of the host and its link (R42, R43, R87, R367),
of walkers (R39), barriers (R104) and the patrol scrubber (R27). -/
namespace Sys2Proof.Machine

/-! ## Requests at a home -/

/-- Tile t asks through its control context. -/
def tileAsker (t : Nat) : Asker := ⟨t, 0, 0, false⟩

/-- HOME_READ (R77): a READ that the line's state lets through. -/
def execHomeRead (t gl : Nat) (mask : WordMask) (s : State) : Host.Outcome State Fault Refusal :=
  happen (fun s =>
    match s.gate (tileAsker t) false mask gl with
    | .ok g => if g = gl then s.serveRead t gl mask else s.servePeek g mask
    | _ => s) s

/-- HOME_REGISTER (R77). -/
def execHomeRegister (t gl : Nat) (mask : WordMask) (s : State) : Host.Outcome State Fault Refusal :=
  happen (fun s =>
    match s.gate (tileAsker t) true mask gl with
    | .ok g => if g = gl then (s.serveRegister t gl mask).report gl (wordBytes mask) else s
    | _ => s) s

/-- HOME_WRITEBACK (R77): the dirty values are written and the words leave the sender's record. -/
def execHomeWriteback (t gl : Nat) (mask : WordMask) (s : State) : Host.Outcome State Fault Refusal :=
  happen (fun s => (s.recallTile t gl mask false).clearOwner t gl mask) s

/-- The clean owned words of a tile's copy of a line. -/
def Tile.clean (x : Tile) (gl : Nat) : WordMask :=
  match x.lines.find? fun l => l.gl = gl with
  | some l => l.own &&& ~~~l.dirty
  | none => BitVec.allOnes 32

/-- HOME_RETURN (R77): clean words leave the sender's record. -/
def execHomeReturn (t gl : Nat) (mask : WordMask) (s : State) : Host.Outcome State Fault Refusal :=
  happen (fun s =>
    let m := mask &&& (s.tile t).clean gl
    (s.recallTile t gl m false).clearOwner t gl m) s

/-- HOME_AMO (R86). -/
def execHomeAmo (t addr op : Nat) (dbl : Bool) (x cmp : Word) (s : State) : Host.Outcome State Fault Refusal :=
  happen (fun s =>
    let w := if dbl then 64 else 32
    let a := addr / (w / 8) * (w / 8)
    match s.gate (tileAsker t) true (spanWords (a % 128) (w / 8)) (a / 128) with
    | .ok g => (s.homeAmo (pkgOf t) (g * 128 + a % 128) op w (x.toNat % 2 ^ w) (cmp.toNat % 2 ^ w)).2.2
    | _ => s) s

/-! ## An owner's answers (R73) -/

/-- READ_RECALL. -/
def execReadRecall (t gl : Nat) (mask : WordMask) (s : State) : Host.Outcome State Fault Refusal :=
  happen (fun s => (s.recallTile t gl mask false).clearOwner t gl mask) s

/-- WRITE_RECALL. -/
def execWriteRecall (t gl : Nat) (mask : WordMask) (s : State) : Host.Outcome State Fault Refusal :=
  happen (fun s => (s.recallTile t gl mask true).clearOwner t gl mask) s

/-- FILL_RETURN (R72): the words of a line that the line's state lets the tile read are installed under a name. -/
def execFillReturn (t c gl va : Nat) (perm : BitVec 3) (s : State) : Host.Outcome State Fault Refusal :=
  happen (fun s =>
    match s.gate (tileAsker t) false (BitVec.allOnes 32) gl with
    | .ok g =>
      if g ≠ gl then s else (s.fillRead t gl ⟨gl, va, (s.ctxAt t c).asid, perm⟩ (BitVec.allOnes 32)).2
    | _ => s) s

/-- REMOTE_INVALIDATE (R84): the visitor slice of a package recalls its own owners, and the home's REMOTE no longer names it. -/
def execRemoteInvalidate (dev gl : Nat) (s : State) : Host.Outcome State Fault Refusal :=
  happen (fun s =>
    let pos := (s.dev dev).pos.toNat
    if dev = pkgOfGl gl then s
    else ((s.recallOwners (dirKey dev gl) gl (BitVec.allOnes 32) true none).modDir gl fun d => { d with
      remote := match d.remote with
        | .shared m => let m := m &&& ~~~(BitVec.ofNat 64 (2 ^ pos)); if m = 0 then .none else .shared m
        | .modified q => if q = pos then .none else .modified q
        | .none => .none }).serveLine gl) s

/-- OPERATION_PACKET (R85): a store from another domain, served as one access. -/
def execOperationPacket (t gl : Nat) (mask : ByteMask) (data : LineData) (s : State) : Host.Outcome State Fault Refusal :=
  happen (fun s =>
    match s.gate (tileAsker t) true (touched mask) gl with
    | .ok g => s.engineWrite (pkgOf t) g mask data
    | _ => s) s

/-! ## The host (R42, R43, R87) -/

/-- Where a host access is served now (R42, R45, R87, R378): one to its own memory always there, also during a move; one to DRAM with the HDMDB
feature, at the destination of a line that has moved. none: it waits, or has no link. -/
def State.hostPlace (s : State) (gl : Nat) : Option Nat :=
  let open' := fun (g : Nat) => (s.dir g).tentative.isEmpty && (s.dir g).host ≠ .modified
  if !(s.dev (pkgOfGl gl)).cxlUp || !(s.dev (pkgOfGl gl)).barOpen then none
  else if isHostGl gl then (if (s.dir gl).st ≠ .poison && open' gl then some gl else none)
  else
    let g := s.forwarded 8 gl
    if (s.dev (pkgOfGl gl)).featAck.getLsbD 5 && (s.dir g).st = .normal && open' g then some g else none

/-- The host's copy of a line; of its own memory only a changed copy counts, which its proxy waits for (R42, R367). -/
def State.setHost (s : State) (gl : Nat) (c : HostCopy) : State :=
  s.modDir gl fun d => { d with host := if isHostGl gl && c = .shared then .none else c }

/-- HOST_READ: owners are read-recalled, and the host has a copy. A read of the host's own memory finds the same words (R42). -/
def execHostRead (gl : Nat) (s : State) : Host.Outcome State Fault Refusal :=
  happen (fun s =>
    match s.hostPlace gl with
    | some g => (s.servePeek g (BitVec.allOnes 32)).setHost g .shared
    | none => s) s

/-- HOST_WRITE: owners are write-recalled; a read for ownership leaves the line modified at the host, a write its bytes at the
home. A write to the host's own memory snoops the device first (R42). -/
def execHostWrite (gl : Nat) (own : Bool) (mask : ByteMask) (data : LineData) (s : State) : Host.Outcome State Fault Refusal :=
  happen (fun s =>
    match s.hostPlace gl with
    | none => s
    | some g =>
      let s := s.serveWrite (pkgOfGl g) g (BitVec.allOnes 32)
      let s := if own then s else ({ s with mem := writeLine s.mem g mask data } : State).report g mask
      s.setHost g (if own then .modified else .shared)) s

/-- HOST_SNOOP (R42): the proxy of a host line recalls the owners' words and writes them back before it answers. -/
def execHostSnoop (gl : Nat) (s : State) : Host.Outcome State Fault Refusal :=
  happen (fun s => if isHostGl gl then s.serveWrite (pkgOfGl gl) gl (BitVec.allOnes 32) else s) s

/-- BACK_INVALIDATE_ANSWER (R43): the host gives up its copy, with the bytes it had changed; waiting reads are answered. -/
def execBackInvalidateAnswer (gl : Nat) (mask : ByteMask) (data : LineData) (s : State) : Host.Outcome State Fault Refusal :=
  happen (fun s =>
    let s : State := if (s.dir gl).host = .modified then { s with mem := writeLine s.mem gl mask data } else s
    (s.modDir gl fun d => { d with host := .none }).serveLine gl) s

/-! ## Walkers, barriers, the scrubber -/

/-- A corrected error of a stack (R27). -/
def State.corrected (s : State) (p n : Nat) : State := s.countCorrected p n (sourceOf (8 * (42 * n)) 1)


/-- WALK_COMPLETE (R39): walk n of a region, if its reads are answered, fills the TLBs of the slices that joined it. -/
def execWalkComplete (dev region n : Nat) (s : State) : Host.Outcome State Fault Refusal :=
  happen (fun s =>
    match ((s.dev dev).region region).walks[n]? with
    | none => s
    | some w =>
      match s.walkAll ⟨dev * 4096 + 8 * w.slices.headD (42 * region), engineCid, w.asid, false⟩ w.va (BitVec.ofNat 64 w.va) with
      | (.wait, s) => s
      | (res, s) => s.endWalk dev region w res) s

/-- BARRIER_UPDATE (R104): a global barrier at its address, or local barrier a % 16 of tile a / 16. -/
def execBarrierUpdate (glob : Bool) (a : Nat) (arr : Bool) (bytes : Nat) (s : State) : Host.Outcome State Fault Refusal :=
  happen (fun s =>
    if glob then s.barrierUpdate (a / 32 * 32) arr.toNat bytes 0 else s.localBarrier (a / 16) (a % 16) arr.toNat bytes) s

/-- PATROL_SCRUB (R27): a corrected error is counted for its stack; a line found uncorrectable is poisoned. -/
def execPatrolScrub (gl : Nat) (bad : Bool) (s : State) : Host.Outcome State Fault Refusal :=
  happen (fun s =>
    if bad then s.poisonLine gl else s.corrected (pkgOfGl gl) (paOfGl gl / 2 ^ 36 % 8)) s

end Sys2Proof.Machine
end

