-- ==== Sys2Proof/Machine/Yarrow.lean ====
section
/-! DEFINITION. Yarrow, the launcher: its tables and queues (R325 to R328), launch records and their checks (R329, R354), choosing,
placing and pre-empting (R331, R332), starting and ending a launch (R330, R333, R368), the save service (R350), and what the loss
of the host link does to queues (R367). -/
namespace Sys2Proof.Machine

/-! ## Physical reads and writes (R326) -/

/-- Yarrow of package p asks. -/
def yarrowAsker (p : Nat) : Asker := ⟨p * 4096 + 4095, engineCid, 0, true⟩

/-- What a physical read finds. -/
inductive PRes where
  | ok (v : Nat)
  | bad
  | wait
  deriving DecidableEq, Repr

/-- n bytes of one line at a physical address, in local DRAM or the host window. The spec puts Yarrow's tables and rings there; an address of a
peer window is treated like a reserved one (log entry 84). -/
def State.physRead (s : State) (p pa n : Nat) : PRes × State :=
  match placeOf p pa with
  | .reserved => (.bad, s)
  | .peer _ _ => (.bad, s)
  | _ =>
    match s.globalAddr p pa with
    | none => (.bad, s)
    | some a =>
      if isHostGl (a / 128) && !(s.dev p).cxlUp then (.wait, s)
      else match s.peekLine (yarrowAsker p) (a / 128) (spanWords (a % 128) n) (BitVec.ofNat 64 pa) with
        | (.line d, s) => (.ok (d.toNat / 2 ^ (8 * (a % 128)) % 2 ^ (8 * n)), s)
        | (.fault _, s) => (.bad, s)
        | (.wait, s) => (.wait, s)

/-- n bytes at a physical address, line by line. -/
def State.physBytes (s : State) (p pa n : Nat) : PRes × State :=
  (pieces pa n).foldl (fun (r : PRes × State) q =>
    match r with
    | (.ok v, s) =>
      match s.physRead p q.1 q.2.2.1 with
      | (.ok w, s) => (.ok (v + w * 256 ^ q.2.2.2), s)
      | r => r
    | r => r) (.ok 0, s)

/-- n bytes of v are stored at a physical address. none: the store waits. -/
def State.physWrite (s : State) (p pa n v : Nat) : Option State :=
  match s.globalAddr p pa with
  | none => some s
  | some a =>
    match s.engineWriteAt (yarrowAsker p) (a / 128) (spanBytes (a % 128) n) (placeBytes v 0 (a % 128) n) with
    | (.wait, _) => none
    | (_, s) => some s

/-! ## Registers (R325, R377) -/

def State.modYarrow (s : State) (p : Nat) (f : Yarrow → Yarrow) : State := s.modDev p fun d => { d with yarrow := f d.yarrow }
def Yarrow.queue (y : Yarrow) (q : Nat) : YQueue := mget YQueue.reset y.queues q
def State.modQueue (s : State) (p q : Nat) (f : YQueue → YQueue) : State :=
  s.modYarrow p fun y => { y with queues := mset y.queues q (f (y.queue q)) }

/-- YQTBASE_WRITE (R325): BASE takes effect only while EN = 0. -/
def execYqtbaseWrite (dev : Nat) (v : Word) (s : State) : Host.Outcome State Fault Refusal :=
  happen (fun s => if !(s.dev dev).barOpen then s else s.modYarrow dev fun y =>
    { y with qtBase := if y.en then y.qtBase else bits v 12 40, en := v.getLsbD 0 }) s

/-- FEATACK_WRITE (R377): effective only while Yarrow is disabled; a feature that is not offered stays 0. -/
def execFeatackWrite (dev : Nat) (v : Word) (s : State) : Host.Outcome State Fault Refusal :=
  happen (fun s => s.modDev dev fun d =>
    if d.yarrow.en || !d.barOpen then d
    else { d with featAck := bits (v &&& feat0) 0 8, yarrow := { d.yarrow with acked := true } }) s

/-! ## Queues (R326, R327) -/

/-- The physical address of a descriptor. -/
def Yarrow.descAt (y : Yarrow) (q : Nat) : Nat := y.qtBase.toNat * 4096 + 32 * q

/-- The four doublewords of a descriptor. -/
def State.readDesc (s : State) (p q : Nat) : PRes × State := s.physRead p ((s.dev p).yarrow.descAt q) 32

/-- Fields of a descriptor. -/
def descWord (d i : Nat) : Word := BitVec.ofNat 64 (d / 2 ^ (64 * i))
def descRing (d : Nat) : Nat := (bits (descWord d 0) 6 46).toNat * 64
def descLogn (d : Nat) : Nat := (bits (descWord d 1) 0 5).toNat
def descGroup (d : Nat) : Nat := (bits (descWord d 1) 8 10).toNat
def descQen (d : Nat) : Bool := (descWord d 1).getLsbD 31
def descTail (d : Nat) : Nat := (bits (descWord d 2) 3 49).toNat * 8
def descHead (d : Nat) : Nat := (bits (descWord d 3) 0 32).toNat
def descErr (d : Nat) : Bool := (descWord d 3).getLsbD 63

/-- A physical address is in the host window. -/
def inHost (p pa : Nat) : Bool :=
  match placeOf p pa with
  | .host _ _ => true
  | _ => false
/-- A queue has its ring or its tail word in host memory. -/
def hostQueue (p d : Nat) : Bool := inHost p (descRing d) || inHost p (descTail d)
/-- R378: a queue in host memory without the HOSTMEM feature. -/
def State.hostAbsent (s : State) (p d : Nat) : Bool := !(s.dev p).featAck.getLsbD 6 && hostQueue p d

/-- The queue is faulty: ERR is set, and the management controller is told. A store of ERR that waits leaves the queue as it is, to be read again. -/
def State.queueErr (s : State) (p q head : Nat) : State :=
  match s.physWrite p ((s.dev p).yarrow.descAt q + 0x18) 8 (head + 2 ^ 63) with
  | none => s
  | some s => (s.modQueue p q fun y => { y with err := true, watch := false, lost := false }).logEvent p evQUEUE hubSource q

/-- Records from index head on are read and taken, n of them; HEAD advances with each, and a record whose HEAD cannot be stored yet is not taken. -/
def State.takeRecords (s : State) (p q ring logn : Nat) : Nat → Nat → State
  | 0, _ => s
  | n + 1, head =>
    match s.physRead p (ring + 64 * (head % 2 ^ logn)) 64 with
    | (.bad, s) => s.queueErr p q head
    | (.wait, s) => s
    | (.ok v, s) =>
      let next := (head + 1) % 2 ^ 32
      match s.physWrite p ((s.dev p).yarrow.descAt q + 0x18) 8 next with
      | none => s
      | some s =>
        let s := s.modQueue p q fun y => { y with head := next, records := y.records ++ [(List.range 8).map fun i => descWord v i] }
        s.takeRecords p q ring logn n next

/-- R367: a queue whose tail line went with the host link is set ERR; one whose tail word is in DRAM goes on. -/
def State.tailLost (s : State) (p q d : Nat) : State :=
  if !((s.dev p).yarrow.queue q).lost then s
  else if inHost p (descTail d) then s.queueErr p q (descHead d)
  else s.modQueue p q fun y => { y with lost := false }

/-- Yarrow serves queues: it is enabled, FEATACK has been written, and the package's bring-up is done (R373). -/
def State.serving (s : State) (p : Nat) : Bool :=
  let d := s.dev p
  d.yarrow.en && d.yarrow.acked && d.barOpen && d.mgmt.stage = 6

/-- TAIL_WAKE: the tail is read again, and the records up to it are taken. A queue that the host driver has armed again is served once more. -/
def execTailWake (dev q : Nat) (s : State) : Host.Outcome State Fault Refusal :=
  happen (fun s =>
    if !s.serving dev || decide (131072 ≤ q) then s
    else match s.readDesc dev q with
      | (.ok d, s) =>
        let s := s.tailLost dev q d
        if !descQen d || descErr d || ((s.dev dev).yarrow.queue q).lost || (hostQueue dev d && !(s.dev dev).cxlUp) then s
        else if descLogn d = 0 || 16 < descLogn d || s.hostAbsent dev d then s.queueErr dev q (descHead d)
        else match s.physRead dev (descTail d) 8 with
          | (.bad, s) => s.queueErr dev q (descHead d)
          | (.wait, s) => s
          | (.ok t, s) =>
            let n := (t % 2 ^ 32 + 2 ^ 32 - descHead d) % 2 ^ 32
            let s := s.modQueue dev q fun y => { y with watch := true, err := false }
            if 2 ^ descLogn d < n then s.queueErr dev q (descHead d)
            else s.takeRecords dev q (descRing d) (descLogn d) n (descHead d)
      | (_, s) => s) s

/-! ## The host link (R367) -/

/-- CXL_LINK_DOWN: lines whose only modified copy was the host's are poisoned, and other host copies are gone. -/
def execCxlLinkDown (dev : Nat) (s : State) : Host.Outcome State Fault Refusal :=
  happen (fun s =>
    let s := s.modDev dev fun d => { d with cxlUp := false }
    (s.dirs.filter fun e => pkgOfGl e.1 = dev && decide (e.1 < 2 ^ 57) && e.2.host ≠ .none).foldl (fun s e =>
      if e.2.host = .modified then s.poisonLine e.1 else (s.modDir e.1 fun d => { d with host := .none }).serveLine e.1) s) s

/-- CXL_LINK_UP: the host window is served again, and every host queue whose tail line was lost is set ERR. -/
def execCxlLinkUp (dev : Nat) (s : State) : Host.Outcome State Fault Refusal :=
  happen (fun s =>
    if (s.dev dev).cxlUp || !(s.dev dev).barOpen then s
    else
      let s := s.modDev dev fun d => { d with cxlUp := true }
      ((s.dev dev).yarrow.queues.filter fun e => e.2.watch && !e.2.err).foldl (fun (s : State) e =>
        let s := s.modQueue dev e.1 fun y => { y with lost := true }
        match s.readDesc dev e.1 with
        | (.ok d, s) => s.tailLost dev e.1 d
        | (_, s) => s) s) s

/-! ## The launch record (R329) -/

/-- Fields of a record. -/
def recForm (r : List Word) : Nat := shapeForm (dw r 0)
def recAsid (r : List Word) : BitVec 16 := bits (dw r 2) 0 16
def recPrio (r : List Word) : Nat := (bits (dw r 2) 16 3 : BitVec 3).toNat
def recBanks (r : List Word) : Nat := (bits (dw r 2) 19 3 : BitVec 3).toNat
def recDepv (r : List Word) : Bool := (dw r 2).getLsbD 22
def recLres (r : List Word) : Nat := (bits (dw r 2) 32 12 : BitVec 12).toNat

/-- R329 and R20: every reserved field is 0, every field in its range. R329 says of DEVS that it is otherwise 0; the model asks the same of every
shape field that the FORM does not use (log entry 83). -/
def recFieldsOk (r : List Word) : Bool :=
  let f := fun (lo : Nat) => ((dw r 0).toNat / 2 ^ lo % 8)
  let rmask := (bits (dw r 0) 48 8 : BitVec 8)
  bits (dw r 2) 23 9 = 0 && bits (dw r 2) 44 20 = 0 && bits (dw r 6) 32 32 = 0 && decide (recBanks r ≤ 4) && decide (recLres r ≤ 2560) &&
    spaceOf (dw r 3) = 0 && addrOf (dw r 3) % 8 = 0 && (!recDepv r || (spaceOf (dw r 5) = 0 && addrOf (dw r 5) % 32 = 0)) &&
    (match recForm r with
      | 0 => bits (dw r 0) 0 33 = 0 && bits (dw r 0) 48 14 = 0 && dw r 1 = 0 && decide (1 ≤ f 36) && decide (f 42 + f 36 ≤ 7) &&
          decide (1 ≤ f 33) && decide (f 39 + f 33 ≤ 6)
      | 1 => bits (dw r 0) 0 48 = 0 && bits (dw r 0) 56 6 = 0 && dw r 1 = 0 && rmask ≠ 0
      | 2 => bits (dw r 0) 0 48 = 0 && rmask ≠ 0 && dw r 1 ≠ 0
      | _ => bits (dw r 0) 0 62 = 0)

/-- What the checks of a record find: its tiles, a refusal code (R330), or a read that waits. -/
inductive RecRes where
  | tiles (ts : List Nat)
  | code (n : Nat)
  | wait
  deriving DecidableEq, Repr

/-- Who reads the pointers of a record on package p. -/
def recAsker (p : Nat) (r : List Word) : Asker := ⟨p * 4096, engineCid, recAsid r, true⟩

/-- The members that a FORM 3 descriptor lists. -/
def State.recMembers (s : State) (p : Nat) (r : List Word) : RecRes × State :=
  let k := recAsker p r
  match s.engineRead k (dw r 1) (addrOf (dw r 1)) 32 with
  | (.wait, s) => (.wait, s)
  | (.fault _, s) => (.code 2, s)
  | (.ok v, s) =>
    let h := (List.range 4).map fun i => descWord v i
    let n := (bits (dw h 0) 16 13 : BitVec 13).toNat
    if !headerOk h || spaceOf (dw r 1) ≠ 0 || addrOf (dw r 1) % 32 ≠ 0 || spaceOf (dw h 1) ≠ 0 || addrOf (dw h 1) % 32 ≠ 0 then (.code 2, s)
    else match s.engineRead k (dw h 1) (addrOf (dw h 1)) (32 * n) with
      | (.wait, s) => (.wait, s)
      | (.fault _, s) => (.code 2, s)
      | (.ok v, s) =>
        let es := (List.range n).map fun i => (List.range 4).map fun j => descWord v (4 * i + j)
        let ts := es.map fun e => s.memberTile (entryTile e).1 (entryTile e).2
        if es.any (fun e => decide (2688 ≤ (entryTile e).2)) || !decide ts.Nodup || ts.any (fun t => decide (2 ^ 40 ≤ t)) then (.code 2, s)
        else (.tiles ts, s)

/-- R354: the fence rectangles of an ASID on package p, as entries; none: a read waits. YFTBASE = 0, its reset, and a table or list that cannot be
read give no rectangles; the spec says neither (log entry 85). -/
def State.fenceList (s : State) (p : Nat) (asid : BitVec 16) : Option (List Word) × State :=
  match s.physRead p ((s.dev p).yarrow.ftBase.toNat * 2 ^ 19 + 8 * asid.toNat) 8 with
  | (.wait, s) => (none, s)
  | (.bad, s) => (some [], s)
  | (.ok a, s) =>
    if (s.dev p).yarrow.ftBase = 0 || a = 0 then (some [], s)
    else match s.physBytes p a 128 with
      | (.ok v, s) => (some (((List.range 16).map fun i => descWord v i).filter fun e => e.getLsbD 63), s)
      | (.wait, s) => (none, s)
      | (.bad, s) => (some [], s)

/-- Fields of a rectangle: die, first column, first row, width, height. -/
def rectDie (e : Word) : Nat := (bits e 0 2).toNat
def rectCol (e : Word) : Nat := (bits e 2 5).toNat
def rectRow (e : Word) : Nat := (bits e 7 5).toNat
def rectW (e : Word) : Nat := (bits e 12 5).toNat + 1
def rectH (e : Word) : Nat := (bits e 17 5).toNat + 1

/-- Package tile numbers of a rectangle. -/
def rectTiles (e : Word) : List Nat :=
  (List.range (rectH e)).flatMap fun y => (List.range (rectW e)).map fun x => numAt (rectDie e) (rectCol e + x) (rectRow e + y)

/-- R22: rectangles lie within their die and within the partition, and do not overlap. -/
def rectsOk (p : Nat) (es : List Word) (tiles : List Nat) : Bool :=
  es.all (fun e => bits e 22 41 = 0 && decide (rectCol e + rectW e ≤ 28) && decide (rectRow e + rectH e ≤ 24) &&
    (rectTiles e).all fun n => tiles.contains (p * 4096 + n)) && decide (es.flatMap rectTiles).Nodup

/-- The fence lists of a launch's packages, each on its own package's tiles (R22, R354): whether they hold; none: a read waits. -/
def State.fencesOk (s : State) (asid : BitVec 16) (ts : List Nat) : List Nat → Option Bool × State
  | [] => (some true, s)
  | q :: qs =>
    match s.fenceList q asid with
    | (none, s) => (none, s)
    | (some es, s) => if rectsOk q es ts then s.fencesOk asid ts qs else (some false, s)

/-- R21, R22, R329, R330: the checks of a record of package p. -/
def State.checkLaunch (s : State) (p : Nat) (r : List Word) : RecRes × State :=
  if !recFieldsOk r then (.code 2, s)
  else
    let far := recForm r = 2 && (List.range 64).any fun i => (dw r 1).getLsbD i &&
      match s.pkgOfDev (64 * (bits (dw r 0) 56 6 : BitVec 6).toNat + i) with
      | some q => !s.reaches p q
      | none => true
    let (ts, s) := if recForm r = 3 then s.recMembers p r else (.tiles (s.shapeTiles p (dw r 0) (dw r 1)), s)
    match ts with
    | .wait => (.wait, s)
    | .code n => (.code n, s)
    | .tiles ts =>
      if far then (.code 2, s)
      else if ts.any fun t => ((s.dev (pkgOf t)).cluster (clusterOf t)).offline then (.code 1, s)
      else match s.fencesOk (recAsid r) ts (p :: ((ts.map pkgOf).eraseDups.filter (· ≠ p))) with
        | (none, s) => (.wait, s)
        | (some ok, s) => (if ok then .tiles ts else .code 2, s)

/-! ## The completion word (R330) -/

/-- CPL receives a code, as a release; a store that faults is dropped and reported. none: the store waits. -/
def State.complete (s : State) (p : Nat) (r : List Word) (code : Nat) : Option State :=
  let c := dw r 7
  if c = 0 then some s
  else if spaceOf c ≠ 0 || addrOf c % 8 ≠ 0 then some (s.logEvent p evQUEUE hubSource code)
  else match s.engineStore (recAsker p r) c (addrOf c) 8 code with
    | (.ok _, _, s) => some s
    | (.wait, _, _) => none
    | (.fault _, _, s) => some (s.logEvent p evQUEUE hubSource code)

/-! ## Choosing (R331) -/

/-- A head record that Yarrow may serve: queue, record, its class, its effective class, its group and the group's weight. -/
structure Head where
  queue : Nat
  record : List Word
  rclass : Nat
  eff : Nat
  group : Nat
  weight : Nat
  last : Nat
  deriving DecidableEq, Repr

/-- The dependence of a record holds (R329). -/
def State.depHolds (s : State) (p : Nat) (r : List Word) : Bool :=
  !recDepv r || match s.engineRead (recAsker p r) (dw r 5) (addrOf (dw r 5)) 24 with
    | (.ok v, _) => (BarV.ofNat v).done ≠ (bits (dw r 6) 0 32 : BitVec 32).toNat
    | _ => false

/-- CLASS and WEIGHT of a group. -/
def State.groupOf (s : State) (p g : Nat) : Option (Nat × Nat) :=
  match s.physRead p ((s.dev p).yarrow.gtBase.toNat * 4096 + 8 * g) 8 with
  | (.ok v, _) => some (v % 8, v / 256 % 256)
  | _ => none

/-- The head of a queue, if it is eligible and its group is served. A record with a bad field does not wait for its dependence; a queue in host
memory is not served while the host link is down (R367). -/
def State.headOf (s : State) (p q : Nat) : Option Head :=
  let y := (s.dev p).yarrow.queue q
  match y.records with
  | [] => none
  | r :: _ =>
    match (s.readDesc p q).1 with
    | .ok d =>
      match s.groupOf p (descGroup d) with
      | some (cls, w) =>
        if w = 0 || (hostQueue p d && !(s.dev p).cxlUp) || (recFieldsOk r && !s.depHolds p r) then none
        else some ⟨q, r, min (recPrio r) cls, min 7 (min (recPrio r) cls + y.raise), descGroup d, w, y.lastServed⟩
      | none => none
    | _ => none

/-- The weighted round robin of an effective class: the group whose turn it is, and the records it may still send. -/
def Yarrow.turn (y : Yarrow) (cls : Nat) : Nat × Nat := let c := mget (1023 * 256) y.credit cls; (c / 256, c % 256)

/-- Groups follow in turn from the one that has records left to send, or from the next; the order of the groups is the model's (log entry 82). -/
def Yarrow.rank (y : Yarrow) (cls g : Nat) : Nat :=
  let (cur, left) := y.turn cls
  let d := (g + 1024 - cur) % 1024
  if d = 0 && left = 0 then 1024 else d

/-- A record of a group is served. -/
def Yarrow.charge (y : Yarrow) (cls g weight : Nat) : Yarrow :=
  let (cur, left) := y.turn cls
  { y with credit := mset y.credit cls (g * 256 + (if g = cur && decide (0 < left) then left else weight) - 1) }

/-- a is served before b: a higher effective class, then the group whose turn comes first, then the queue served least recently, and of two served
equally long ago, or never, the one with the lower number: the spec names no order there (log entry 82). -/
def Yarrow.before (y : Yarrow) (a b : Head) : Bool :=
  let ra := y.rank a.eff a.group
  let rb := y.rank b.eff b.group
  decide (b.eff < a.eff) || (a.eff = b.eff && (decide (ra < rb) ||
    (ra = rb && (decide (a.last < b.last) || (a.last = b.last && decide (a.queue < b.queue))))))

/-- Insertion in the order of service. -/
def Yarrow.insert (y : Yarrow) (h : Head) : List Head → List Head
  | [] => [h]
  | g :: gs => if y.before h g then h :: g :: gs else g :: y.insert h gs

/-- The eligible heads of a package in the order of service. -/
def State.heads (s : State) (p : Nat) : List Head :=
  let y := (s.dev p).yarrow
  (y.queues.filterMap fun e => s.headOf p e.1).foldl (fun hs h => y.insert h hs) []

/-! ## Placing and starting (R331 to R333) -/

/-- A tile belongs to a live partition (R17, R21): its context there has not ended, and no compact of it is saved there (R19). -/
def State.holdsTile (s : State) (p : Partition) (t : Nat) : Bool :=
  p.st = .live && p.tiles.contains t && !p.halted.contains t && !(s.tile t).parked.any fun q => q.pid = p.pid

/-- No tile of a shape is taken: no live partition, no service or image, no fence, no partition that may resume first. -/
def State.placeable (s : State) (ts : List Nat) (cls : Nat) : Bool :=
  let free := fun (t : Nat) =>
    let x := s.tile t
    !mhas x.ctxs 0 && x.save.isNone && !x.fenced
  ts.all free && s.partitions.all fun p =>
    !(ts.any fun t => s.holdsTile p t) &&
      !(p.st = .preempted && (s.resumeTiles p).any (fun t => ts.contains t) && s.mayResume p && decide (cls ≤ p.rclass))

/-- The reservers of a package, with the tiles that they wait for. -/
def State.reservers (s : State) (p : Nat) : List (Head × List Nat) :=
  (s.heads p).filterMap fun g =>
    if ((s.dev p).yarrow.queue g.queue).reserver then
      match (s.checkLaunch p g.record).1 with
      | .tiles us => some (g, us)
      | _ => none
    else none

/-- Reserver g of package q goes before head h of package p on its shape: its effective class is higher; or it is equal, for no reserver is overtaken
there (R340), and of two reservers the one that its package serves first, or that of the lower package number, goes before. -/
def State.goesFirst (s : State) (q : Nat) (g : Head) (p : Nat) (h : Head) : Bool :=
  (p ≠ q || g.queue ≠ h.queue) && (decide (h.eff < g.eff) || (h.eff = g.eff && (!((s.dev p).yarrow.queue h.queue).reserver ||
    (if p = q then (s.dev p).yarrow.before g h else decide (q < p)))))

/-- R331, R340: a reserver that goes before the head waits for a tile of the shape, whichever package's it is. -/
def State.reserved (s : State) (p : Nat) (h : Head) (ts : List Nat) : Bool :=
  s.present.any fun q => (s.reservers q).any fun g => s.goesFirst q g.1 p h && g.2.any fun t => ts.contains t

/-- The control context as a launch starts it (R333, R368). -/
def launchCtx (r : List Word) (ev : BitVec 49) : Ctx :=
  { Ctx.reset with
    pc := dw r 3, npc := dw r 3, entry := dw r 3, arg := dw r 4
    sregs := ((Vector.replicate 32 (0 : Word)).set 1 (dw r 4)).set 30 (BitVec.ofNat 64 (2 ^ 52 + recLres r * 128))
    banks := recBanks r, vregs := List.replicate (8 * recBanks r) VReg.reset, asid := recAsid r, evBase := ev }

/-- EVBASE.ENTRY that Yarrow of a package gives (R368). -/
def Yarrow.evWord (y : Yarrow) : BitVec 49 := if y.evEn then y.evEntry else 0

/-- A tile starts the control context of a partition: an acquire. -/
def State.startTile (s : State) (t : Nat) (p : Partition) : State :=
  let s := s.reserveLines t p.pid p.lres
  s.modTile t fun x => { x.flash with
    mode := .free, pid := p.pid, self := t, origin := t, ctxs := [(0, launchCtx p.record (s.dev (pkgOf t)).yarrow.evWord)]
    engine := x.engine.writeRing 0, gate := [], joins := [], posts := [], gang := none, fuse := none }

/-- The partition's tiles on a package that have not started do. -/
def State.startOn (s : State) (q pid : Nat) : State :=
  match s.partitions.find? fun p => p.pid = pid with
  | none => s
  | some p =>
    if p.st ≠ .live then s
    else ((s.unstarted p).filter fun t => pkgOf t = q && !mhas (s.tile t).ctxs 0).foldl (fun s t => s.startTile t p) s

/-- A partition number that no partition of the system has had. -/
def State.nextPid (s : State) : Nat := s.present.foldl (fun m p => max m (s.dev p).yarrow.pids) 1

/-- The head of a queue leaves it. -/
def State.popHead (s : State) (p q : Nat) : State :=
  s.modQueue p q fun y => { y with records := y.records.drop 1, since := 0, raise := 0, reserver := false }

/-- A head is served: it counts in its group's turn, and its queue as the one served last (R331). -/
def State.serveCount (s : State) (p : Nat) (h : Head) : State :=
  let s := (s.popHead p h.queue).modYarrow p fun y => { y.charge h.eff h.group h.weight with serves := y.serves + 1 }
  s.modQueue p h.queue fun y => { y with lastServed := (s.dev p).yarrow.serves }

/-- A record is refused: its completion word is written and it starts no tile. -/
def State.refuseHead (s : State) (p : Nat) (h : Head) (code : Nat) : State :=
  match s.complete p h.record code with
  | none => s
  | some s => s.serveCount p h

/-- The head's launch starts: its own device's tiles now, those of the others as the record reaches their Yarrow. -/
def State.startHead (s : State) (p : Nat) (h : Head) (ts : List Nat) : State :=
  let pid := s.nextPid
  let s := (s.serveCount p h).modYarrow p fun y => { y with pids := pid + 1 }
  let q : Partition := ⟨pid, .live, recAsid h.record, h.record, h.rclass, p, ts, [], [], 0⟩
  ({ s with partitions := s.partitions ++ [q] } : State).startOn p pid

/-- LAUNCH_FORWARD (R329). -/
def execLaunchForward (dev pid : Nat) (s : State) : Host.Outcome State Fault Refusal := happen (fun s => s.startOn dev pid) s

/-- Pre-emption for a reserver: every live partition on its shape whose record class is lower. -/
def State.preemptFor (s : State) (p : Nat) (h : Head) (ts : List Nat) : State :=
  if !(s.dev p).yarrow.svEn then s
  else (s.partitions.filter fun q => decide (q.rclass < h.rclass) && ts.any fun t => s.holdsTile q t).foldl
    (fun s q => (s.preempt q (2 ^ 40, 0)).getD s) s

/-- A head whose shape is free starts, or is refused if its reservation would pass a pin limit (R333); none: its shape is taken. -/
def State.tryStart (s : State) (p : Nat) (h : Head) (ts : List Nat) : Option State :=
  if !s.placeable ts h.rclass || s.reserved p h ts then none
  else if ts.any fun t => (s.tile t).reserveBad s.nextPid (recLres h.record) then some (s.refuseHead p h 2)
  else some (s.startHead p h ts)

/-- What serving a head did: its launch started or was refused, or it waits. -/
def State.serveHead (s : State) (p : Nat) (h : Head) (mayReserve : Bool) : Bool × State :=
  match s.checkLaunch p h.record with
  | (.wait, s) => (false, s)
  | (.code n, s) => (true, s.refuseHead p h n)
  | (.tiles ts, s) =>
    match s.tryStart p h ts with
    | some s => (true, s)
    | none =>
      if !mayReserve then (false, s)
      else
        let s := (s.modQueue p h.queue fun y => { y with reserver := true }).preemptFor p h ts
        match s.tryStart p h ts with
        | some s => (true, s)
        | none => (false, s)

/-- The heads in the order of service: the first that can starts; one that cannot is the reserver of its class. -/
def State.serveHeads (s : State) (p : Nat) : List Nat → List Head → State
  | _, [] => s
  | classes, h :: hs =>
    match s.serveHead p h (!classes.contains h.eff) with
    | (true, s) => s
    | (false, s) => s.serveHeads p (h.eff :: classes) hs

/-- LAUNCH_SELECT. -/
def execLaunchSelect (dev : Nat) (s : State) : Host.Outcome State Fault Refusal :=
  happen (fun s => if s.serving dev then s.serveHeads dev [] (s.heads dev) else s) s

/-- LAUNCH_AGING: an eligible head rises by one class for each full AGE interval that it has waited. -/
def execLaunchAging (dev q : Nat) (s : State) : Host.Outcome State Fault Refusal :=
  happen (fun s =>
    match s.headOf dev q with
    | none => s
    | some _ =>
      let time := s.time dev
      s.modQueue dev q fun y =>
        if y.since = 0 then { y with since := time + 1 }
        else { y with raise := (time + 1 - y.since) / ((s.dev dev).yarrow.age * 1000) }) s

/-- LAUNCH_START: the head of a queue starts, if it is the first in the order of service that can. -/
def execLaunchStart (dev q : Nat) (s : State) : Host.Outcome State Fault Refusal :=
  happen (fun s =>
    match (s.heads dev).find? fun h => (s.serveHead dev h false).1 with
    | some h => if s.serving dev && h.queue = q then (s.serveHead dev h false).2 else s
    | none => s) s

/-- LAUNCH_COMPLETE: every tile of a partition has ended. -/
def execLaunchComplete (pid : Nat) (s : State) : Host.Outcome State Fault Refusal :=
  happen (fun s =>
    match s.partitions.find? fun p => p.pid = pid with
    | none => s
    | some p =>
      if p.st = .preempted || !p.tiles.all fun t => p.halted.contains t then s
      else match s.complete p.dev p.record p.cplCode with
        | none => s
        | some s => { s with partitions := s.partitions.filter fun q => q.pid ≠ pid }) s

/-! ## Resumption and the save service (R332, R350, R352) -/

/-- A reserver of some package waits for one of some tiles, with a record class above a bound, and may pre-empt. -/
def State.reserverOn (s : State) (ts : List Nat) (above : Option Nat) : Bool :=
  s.present.any fun p => (s.dev p).yarrow.svEn && (s.reservers p).any fun g =>
    above.all (fun c => decide (c < g.1.rclass)) && g.2.any fun t => ts.contains t

/-- PARTITION_RESUME: every tile reads its image back, and its contexts become eligible together. A reserver of a higher
class that waits for its tiles goes first. -/
def execPartitionResume (pid : Nat) (s : State) : Host.Outcome State Fault Refusal :=
  happen (fun s =>
    match s.partitions.find? fun p => p.pid = pid with
    | none => s
    | some p => if !s.mayResume p || s.reserverOn (s.resumeTiles p) (some p.rclass) then s else s.resume p) s

/-- R352: the partition whose image left tile t, where nothing stands in the way of its return. -/
def State.returnDue (s : State) (t : Nat) : Option Nat :=
  (s.partitions.find? fun p => p.st = .preempted && !p.loaded.contains t && s.away.any (fun im => im.pid = p.pid && im.origin = t) &&
    !(s.partitions.any fun q => s.holdsTile q t) && !s.reserverOn (p.tiles.filter fun u => !p.halted.contains u) (some p.rclass)).map fun p => p.pid

/-- The PID whose save service tile t is to start: of its image, for a reserver; or of the image that is to come back. -/
def State.serviceDue (s : State) (t : Nat) : Option Nat :=
  match (s.tile t).save with
  | some im => if s.reserverOn [t] none then some im.pid else none
  | none => s.returnDue t

/-- SAVE_SERVICE_START: at supervisor privilege, with s1 the PID of the image. -/
def execSaveServiceStart (t : Nat) (s : State) : Host.Outcome State Fault Refusal :=
  happen (fun s =>
    let x := s.tile t
    let y := (s.dev (pkgOf t)).yarrow
    if mhas x.ctxs 0 || x.fenced || !y.svEn then s
    else match s.serviceDue t with
      | none => s
      | some pid =>
        let pc : Word := zext (y.svEntry ++ 0#3)
        let k : Ctx := { Ctx.reset with
          pc := pc, npc := pc, entry := pc, arg := BitVec.ofNat 64 pid, asid := y.svAsid, evBase := y.evWord, priv := true
          sregs := ((Vector.replicate 32 (0 : Word)).set 1 (BitVec.ofNat 64 pid)).set 30 (BitVec.ofNat 64 (2 ^ 52)) }
        s.modTile t fun x => { x.flash with mode := .free, pid := 0, self := t, origin := t, ctxs := [(0, k)], engine := x.engine.writeRing 0 }) s

end Sys2Proof.Machine
end

