-- ==== Sys2Proof/Machine/Recovery.lean ====
section
/-! DEFINITION. Recovery: quarantine and the row shift (R23, R24, R162, R353), fence rectangles (R354, R355). -/
namespace Sys2Proof.Machine

/-! ## Fencing (R355) -/

/-- The tiles of tile t's cluster. -/
def clusterOfTile (t : Nat) : List Nat := (List.range 8).map fun i => t - t % 8 + i

/-- The contexts of a tile: those that run on it, or those of the image in its save store. -/
def Tile.anyCtxs (x : Tile) : Map Ctx := if x.ctxs.isEmpty then x.save.elim [] fun im => im.ctxs else x.ctxs

/-- The rectangle of a tile: the entry of its ASID's list that covers it, or its cluster. -/
def State.rectangleOf (s : State) (t : Nat) : List Nat :=
  let p := pkgOf t
  let list := match (s.tile t).anyCtxs.find? fun e => e.1 = 0 with
    | some e => ((s.fenceList p e.2.asid).1).getD []
    | none => []
  match list.find? fun e => (rectTiles e).contains (numOf t) with
  | some e => (rectTiles e).map fun n => p * 4096 + n
  | none => clusterOfTile t

/-- The helpers and tasks of a tile, as its fence record lists them: those of its partition, and those of partitions pre-empted there. -/
def Tile.work (x : Tile) : List (Word × Word × Nat × Nat × Bool) :=
  (((x.ctxs ++ x.save.elim [] fun im => im.ctxs).filter fun e => e.1 ≠ 0).map fun e => (e.2.entry, e.2.arg, e.2.banks, e.2.prio, e.2.nr)) ++
    (x.gate ++ x.parked.flatMap fun q => q.gate).map fun k => (k.entry, k.record, k.banks, k.prio, false)

/-- Tentative writes of the helpers that run on a tile are discarded. -/
def State.discardLive (s : State) (t : Nat) : State := ((s.tile t).ctxs.map (·.1)).foldl (fun s c => s.discardEffects t c) s
/-- Tentative writes of the helpers of the image in a tile's save store are discarded. -/
def State.discardSaved (s : State) (t : Nat) : State :=
  (s.tile t).save.elim s fun im => im.ctxs.foldl (fun s e => s.dropLines ⟨im.pid, im.origin, im.self, e.1, 0, 0, false, 0⟩ e.2.effects) s
/-- Tentative writes of a tile's helpers, live and saved, are discarded. -/
def State.discardTile (s : State) (t : Nat) : State := (s.discardLive t).discardSaved t

/-- A request of the contexts that run on a tile, or of its engines. -/
def State.liveAsk (s : State) (t : Nat) (h : Held) : Bool :=
  h.tile = t && (h.cid = engineCid || (decide (h.cid < engineCid) && h.pid = (s.tile t).pid && h.self = (s.tile t).self))
/-- A request of the contexts of the image in a tile's save store. -/
def State.savedAsk (s : State) (t : Nat) (h : Held) : Bool :=
  decide (h.cid < engineCid) && (s.tile t).save.any fun im => h.pid = im.pid && h.self = im.self
/-- Requests end. -/
def State.dropWhere (s : State) (which : Held → Bool) : State := (s.held.filter which).foldl (fun s h => s.closeHeld h) s
/-- What the contexts and engines of a tile, and of the image in its save store, have asked of homes ends with them. -/
def State.dropRequests (s : State) (t : Nat) : State := s.dropWhere fun h => s.liveAsk t h || s.savedAsk t h

/-- The tile's lines are gone; a line of which it held the only modified copy of a word is poisoned. -/
def State.loseLines (s : State) (t : Nat) : State :=
  let ls := (s.tile t).lines
  let s := s.modTile t fun x => { x with lines := [] }
  ls.foldl (fun s l =>
    let s := s.clearOwner t l.gl l.own
    if l.dirty = 0 then s else s.poisonLine l.gl) s

/-- The fields of a tile that its reset leaves: what the grid and the generations of slots and pips give it. -/
def Tile.resetTile (x : Tile) (born : Nat) : Tile :=
  { Tile.reset with
    slots := x.slots, landings := x.landings, mismatches := x.mismatches, fenceRec := x.fenceRec, fenced := x.fenced, born := born
    pips := x.pips.map fun e => (e.1, match e.2.st with
      | .live => { e.2 with st := .free, gen := e.2.gen + 1 }
      | .landed => { e.2 with st := .free }
      | _ => e.2) }

/-- A partition loses a tile: its launch will end with FENCED. -/
def Partition.loseTile (p : Partition) (t : Nat) : Partition :=
  if p.tiles.contains t && !p.halted.contains t then { p with cplCode := 3, halted := p.halted ++ [t] } else p

/-- A partition loses the tile that is fenced, where its context runs or its image lies. -/
def State.loseTile (s : State) (t : Nat) : State :=
  { s with partitions := s.partitions.map fun p =>
      if s.holdsTile p t then p.loseTile t
      else match (s.tile t).save with
        | some im => if im.pid = p.pid then { p.loseTile im.origin with loaded := p.loaded.filter (· ≠ t) } else p
        | none => p }

/-- One tile of a rectangle writes its fence record and resets; keep names the tile of it that is quarantined, if one is.
The image of a tile whose own array has failed stays in its save store beside the record, for the supervisor to read (R161, R353). -/
def State.fenceTile (s : State) (t : Nat) (cause : Nat) (tiles : List Nat) (keep : Option Nat) : State :=
  let x := s.tile t
  let r : FenceRec := ⟨BitVec.ofNat 8 cause, unitAddr (mget Ctx.reset x.anyCtxs 0).upc, x.work, tiles, keep.any fun u => tiles.contains u⟩
  let s := (s.discardTile t).dropRequests t
  let s := (s.loseCompacts t).loseLines t
  let s := (x.slots.filter fun e => e.2.alloc).foldl (fun s e => s.freeSlot t e.1) s
  let s : State := { s.loseTile t with
    aonHolds := s.aonHolds.filter fun h => keyTile h.2 ≠ t
    aonWaits := s.aonWaits.filter fun h => keyTile h.2 ≠ t }
  let s := s.modRegion (pkgOf t) (regionOf t) fun g => { g with progs := g.progs.filter fun q => q.tile ≠ t }
  s.modTile t fun x => { x.resetTile (s.cycles (pkgOf t)) with
    fenced := true, fenceRec := some r, save := if keep = some t then x.save else none }

/-- A rectangle is fenced, and the management controller reports it. -/
def State.fence (s : State) (t cause : Nat) (tiles : List Nat) (keep : Option Nat) : State :=
  (tiles.foldl (fun s u => s.fenceTile u cause tiles keep) s).logEvent (pkgOf t) evFENCE (sourceOf t 0) cause

/-- FENCE_RECTANGLE. -/
def execFenceRectangle (t cause : Nat) (s : State) : Host.Outcome State Fault Refusal :=
  happen (fun s => s.fence t cause (s.rectangleOf t) none) s

/-- RECTANGLE_READY: within 20 us, unless a tile of the rectangle is quarantined or in an offline cluster. -/
def execRectangleReady (t : Nat) (s : State) : Host.Outcome State Fault Refusal :=
  happen (fun s =>
    match (s.tile t).fenceRec with
    | none => s
    | some r =>
      if r.quarantined || r.tiles.any fun u => ((s.dev (pkgOf u)).cluster (clusterOf u)).offline then s
      else r.tiles.foldl (fun s u => s.modTile u fun x => { x with fenced := false }) s) s

/-! ## Quarantine (R23, R24, R353) -/

/-- Tiles of the row whose logical column moves when physical column q - 1 is quarantined. -/
def State.shifting (p d y q : Nat) : List Nat :=
  ((List.range 28).filter fun c => pcolOf q c ≠ pcolOf 0 c).map fun c => p * 4096 + numAt d c y

/-- A second quarantine in a row takes the cluster offline, and the rectangles of its tiles are fenced (R24, R355). -/
def State.takeOffline (s : State) (t cause : Nat) (rects : List (List Nat)) (keep : Option Nat) : State :=
  let s := s.modCluster (pkgOf t) (clusterOf t) fun c => { c with offline := true }
  let s := s.logEvent (pkgOf t) evOFFLINE (sourceOf t 0) (clusterOf t)
  rects.foldl (fun s r => s.fence (r.headD t) cause r keep) s

/-- The rectangles of the tiles of tile t's cluster, its own first. -/
def State.clusterRects (s : State) (t : Nat) : List (List Nat) :=
  ((t :: clusterOfTile t).map fun u => s.rectangleOf u).eraseDups

/-- The row's map shifts: unpinned lines of the tiles that move are written back and invalidated, everything else moves with them. -/
def State.shiftRow (s : State) (t : Nat) (q : Nat) (moved : List Nat) : State :=
  let s := moved.foldl (fun s u => (s.tile u).lines.foldl (fun s l => s.evict u l) s) s
  let s := s.modDev (pkgOf t) fun d => { d with rows := mset d.rows (rowKey (dieOf t) (rowOf t)) q }
  s.logEvent (pkgOf t) evQUARANTINE (sourceOf t 0) q

/-- The instruction that did not commit stands at TRAPPC of its context (R162), the one that issued last (log entry 69). -/
def State.suspect (s : State) (t : Nat) : State :=
  let c := if s.cur = t && mhas (s.tile t).ctxs s.cid then s.cid else 0
  if !mhas (s.tile t).ctxs c then s
  else s.modCtxAt t c fun k => { k with trapPc := unitAddr ((k.backlog.head?.map fun p => p.pc).getD k.pc) }

/-- QUARANTINE: the partitions of the tiles that move are pre-empted (it waits for their loads), and the row shifts. After an error
of its local array the tile's rectangle is fenced too, and the tile's image stays in its save store. -/
def execQuarantine (t : Nat) (arrayError : Bool) (s : State) : Host.Outcome State Fault Refusal :=
  happen (fun s =>
    let p := pkgOf t
    let old := mget 0 (s.dev p).rows (rowKey (dieOf t) (rowOf t))
    let q := s.pcol t + 1
    let moved := if old = 0 then State.shifting p (dieOf t) (rowOf t) q else []
    let rects := s.clusterRects t
    let keep := if arrayError then some t else none
    let r := if arrayError then s else (s.suspect t).modTile t fun x => { x with mismatches := x.mismatches + 2 }
    let ts := (s.partitions.filter fun w => (t :: moved).any fun u => s.holdsTile w u).flatMap fun w => s.running w
    match r.preemptTiles ts (2 ^ 40, 0) with
    | none => s
    | some r =>
      let hit := fun (w : Partition) => (t :: moved).any fun u => s.holdsTile w u
      let r : State := { r with partitions := r.partitions.map fun w => if hit w then { w with st := .preempted, loaded := [] } else w }
      if old ≠ 0 then r.takeOffline t cPOISON.toNat rects keep
      else
        let r := r.shiftRow t q moved
        if arrayError then r.fence t cPOISON.toNat (rects.headD []) keep else r) s

/-! ## The end of a partition (R330) -/

/-- A live tile of a partition that the supervisor ends: its compact loses its member, its copies and helpers are killed, what it has asked for is
dropped, and it is IDLE, as after HALT. -/
def State.endTile (s : State) (t : Nat) : State :=
  let pid := (s.tile t).pid
  let s := (s.withdraw t).loseMembers t fun q => q = pid
  let s := (List.range 4).foldl (fun s ch => s.killChan t ch) s
  let s := (s.tile t).direct.foldl (fun s d => s.killDirect t d) s
  let s := s.modTile t fun x => { x with gate := [], held := [], quiet := none }
  let s := ((s.tile t).ctxs.filter fun e => e.1 ≠ 0).foldl (fun s e => s.killHelper t e.1) s
  ((s.discardLive t).dropWhere fun h => s.liveAsk t h).haltTile t

/-- What a pre-empted partition left on a tile ends: its image, its compact, its copies, its landing slots, pips and pinned lines. -/
def State.endSaved (s : State) (pid t : Nat) : State :=
  let s := if (s.tile t).save.any fun im => im.pid = pid then
      ((s.discardSaved t).dropWhere fun h => s.savedAsk t h).modTile t fun x => { x with save := none, saved := 0, loaded := false }
    else s
  let s := (s.loseMembers t fun q => q = pid).killParked t pid |>.1
  let s := s.leaveOrigin t pid
  let time := s.time (pkgOf t)
  s.modTile t fun x => { x with
    pins := x.pins.filter fun e => e.2.pid ≠ pid
    pips := x.pips.map fun e => if e.2.pid = pid then (e.1, e.2.halt time) else e }

/-- The supervisor ends a partition (R330): its tiles end as they stand, and its launch with code 4, ENDED (log entry 34). -/
def State.endPartition (s : State) (pid : Nat) : State :=
  match s.partitions.find? fun p => p.pid = pid with
  | none => s
  | some p =>
    let s := (s.running p).foldl (fun s t => s.endTile t) s
    let ts := (s.tiles.filter fun e => e.2.save.any (fun im => im.pid = pid) || e.2.parked.any fun q => q.pid = pid).map (·.1)
    let s := ts.foldl (fun s t => s.endSaved pid t) s
    let s : State := { s with away := s.away.filter fun im => im.pid ≠ pid }
    let s : State := { s with devices := s.devices.map fun d =>
      (d.1, { d.2 with regions := d.2.regions.map fun r => (r.1, { r.2 with progs := r.2.progs.filter fun g => g.pid ≠ pid }) }) }
    s.modPartition pid fun p => { p with st := .live, cplCode := 4, halted := p.tiles, loaded := [] }

/-- A first mismatch of the checker: the instruction is executed again from the same operands, and the mismatch is counted (R162). -/
def State.mismatch (s : State) (t : Nat) : State := s.modTile t fun x => { x with mismatches := x.mismatches + 1 }

end Sys2Proof.Machine
end

