-- ==== Sys2Proof/Machine/Management.lean ====
section
/-! DEFINITION. The management controller and the security root: bring-up (R373), firmware and its measurement (R374), identity
(R375), attestation (R376), events and TIME (R379), snapshots (R380), power (R381), DEVID (R14). -/
namespace Sys2Proof.Machine

/-! ## Firmware images (R374) -/

/-- Field lengths of an image in bytes: magic 4, kind 2, SVN 2, payload length 4, digest 32, key 1,312, signature 2,420; then the
payload. The first byte is the lowest of the number. -/
def imgMagic (i : Nat) : Nat := getBytes i 0 4
def imgKind (i : Nat) : Nat := getBytes i 4 2
def imgSvn (i : Nat) : Nat := getBytes i 6 2
def imgLen (i : Nat) : Nat := getBytes i 8 4
def imgDigest (i : Nat) : Nat := getBytes i 12 32
def imgKey (i : Nat) : Nat := getBytes i 44 1312
/-- Every header byte before the signature. -/
def imgSigned (i : Nat) : Nat := getBytes i 0 1356
def imgSig (i : Nat) : Nat := getBytes i 1356 2420
def imgPayload (i : Nat) : Nat := getBytes i 3776 (imgLen i)

/-- The digest of header and payload. -/
def imgHash (i : Nat) : BitVec 256 := Config.sha3 (getBytes i 0 (3776 + imgLen i)) (3776 + imgLen i)

/-- The image of measurement register n that package p holds. -/
def State.firmwareOf (s : State) (p n : Nat) : Nat := mget (Config.firmware p n) (s.dev p).mgmt.images n

/-- R374: the verifier accepts an image. -/
def State.verifies (s : State) (p kind i : Nat) : Bool :=
  imgMagic i = 0x464B4E38 && imgKind i = kind && Config.sha3 (imgKey i) 1312 = Config.vendorKeyHash &&
    Config.mldsaVerify (imgKey i) (imgSigned i) (imgSig i) && (Config.sha3 (imgPayload i) (imgLen i)).toNat = imgDigest i &&
    decide (mget 0 (s.dev p).mgmt.svnMin kind ≤ imgSvn i)

/-- A measurement register extended with a digest. -/
def extend (m d : BitVec 256) : BitVec 256 := Config.sha3 (m ++ d).toNat 64

/-- Measurement register n before the image of its stage: register 0 has the ROM's own measurement. -/
def romMeasure (p n : Nat) : BitVec 256 := if n = 0 then extend 0 (Config.romDigest p) else 0
/-- Measurement register n: at reset, 0 to 3 as the boot left them, 4 to 7 zero. -/
def State.measure (s : State) (p n : Nat) : BitVec 256 :=
  mget (if n < 4 then extend (romMeasure p n) (imgHash (Config.firmware p n)) else 0) (s.dev p).mgmt.measures n

/-- The host driver extends one of registers 4 to 7 through SPDM, in an established session (R374). -/
def State.extendMeasure (s : State) (p n : Nat) (d : BitVec 256) : State :=
  let m := (s.dev p).mgmt
  if 4 ≤ n ∧ n < 8 ∧ m.powered ∧ !m.failed ∧ m.spdm.session ∧ m.spdm.finished then
    s.modMgmt p fun m => { m with measures := mset m.measures n (extend (s.measure p n) d) }
  else s

/-! ## Bring-up (R373) -/

/-- What a package's reset or loss of power does to the rest of the system: its tiles, homes, requests and launches are gone, and lines of which it
had the only modified copy are poisoned (R46). -/
def State.dropPackage (s : State) (p : Nat) : State :=
  let pos := (s.dev p).pos.toNat
  let ts := (s.tiles.filter fun e => pkgOf e.1 = p).map (·.1)
  let s := ts.foldl (fun s t => (((s.discardTile t).loseCompacts t).loseLines t).loseTile t) s
  let s := (s.held.filter fun h => pkgOf h.tile ≠ p && pkgOfGl h.gl = p).foldl (fun s h => s.loseHeld h cUNREACH) s
  let visited := s.dirs.filter fun e => decide (e.1 < 2 ^ 57) && pkgOfGl e.1 ≠ p && e.2.remote = .modified pos && s.sameDomain p (pkgOfGl e.1)
  let s := visited.foldl (fun s e => s.poisonLine e.1) s
  { s with
    tiles := s.tiles.filter fun e => pkgOf e.1 ≠ p
    held := s.held.filter fun h => pkgOf h.tile ≠ p
    aonHolds := s.aonHolds.filter fun h => pkgOf (keyTile h.2) ≠ p
    aonWaits := s.aonWaits.filter fun h => pkgOf (keyTile h.2) ≠ p
    dirs := s.dirs.filter fun e => !(decide (e.1 < 2 ^ 57) && pkgOfGl e.1 = p) && e.1 / 2 ^ 57 ≠ p + 1
    partitions := s.partitions.filter fun q => q.dev ≠ p }

/-- The package after its reset: what fuses and the last trip left. It has no host link until stage 3, and no place in a domain until stage 5 gives
it one. -/
def State.resetPackage (s : State) (p : Nat) : State :=
  let s := s.dropPackage p
  s.modDev p fun d => { Device.reset with
    dark := true, timeFrom := s.now, cycFrom := s.now, cxlUp := false
    mgmt := { Mgmt.reset with stage := 1, svnMin := d.mgmt.svnMin, images := d.mgmt.images, sent := d.mgmt.sent, trip := d.mgmt.trip } }

/-- Stages 1 and 2 for the images of registers n and up: verified and measured, or the stage fails. Stage 3 trains the stacks and links, the host's
last; stage 4 opens BAR0; stage 5 waits for DEVID. -/
def State.bootFrom (s : State) (p : Nat) : List Nat → State
  | [] => s.modDev p fun d => { d with cxlUp := true, mgmt := { d.mgmt with stage := 5 } }
  | n :: ns =>
    let i := s.firmwareOf p n
    if !s.verifies p n i then s.modMgmt p fun m => { m with failed := true, stage := if n = 0 then 1 else 2 }
    else (s.modMgmt p fun m => { m with measures := mset m.measures n (extend (romMeasure p n) (imgHash i)) }).bootFrom p ns

/-- POWER_ON_RESET: the stages in order, up to stage 5, which waits for DEVID; a package whose stage 1 or 2 fails stays in recovery, and releases no
tile. -/
def execPowerOnReset (dev : Nat) (s : State) : Host.Outcome State Fault Refusal :=
  happen (fun s => (s.resetPackage dev).bootFrom dev [0, 1, 2, 3]) s

/-! ## Identity (R375) -/

/-- From M_0 after the ROM's measurement: firmware does not change it. -/
def cdi0 (p : Nat) : BitVec 256 := Config.sha3 (Config.uds p ++ romMeasure p 0).toNat 64
def cdi1 (s : State) (p : Nat) : BitVec 256 :=
  Config.sha3 (cdi0 p ++ s.measure p 1 ++ s.measure p 2 ++ s.measure p 3).toNat 128
/-- The seed of a layer: its name of five letters, then its secret. -/
def layerSeed (name : BitVec 40) (cdi : BitVec 256) : BitVec 256 := Config.sha3 (name ++ cdi).toNat 37
def devidSeed (p : Nat) : BitVec 256 := layerSeed 0x4445564944 (cdi0 p)
/-- The DeviceID certificate: the key, and the signature that Fiquin gave it at manufacture. -/
def devidCert (p : Nat) : List Nat := [Config.mldsaKeygen (devidSeed p), Config.makerSig p]
def aliasSeed (s : State) (p : Nat) : BitVec 256 := layerSeed 0x414C494153 (cdi1 s p)
/-- The Alias certificate: the key with M_0 to M_3, and its signature by the DeviceID key. -/
def aliasCert (s : State) (p : Nat) : List Nat :=
  let body := Config.mldsaKeygen (aliasSeed s p) :: (List.range 4).map fun n => (s.measure p n).toNat
  body ++ [Config.mldsaSign (devidSeed p) (body.foldl (fun v x => v * 2 ^ 10496 + x) 0)]

/-! ## Attestation (R376) -/

/-- Response codes of the message flows, and ERROR. -/
def rspError : Nat := 0x7F

/-- The answer to a request: its code and its fields. -/
def State.respond (s : State) (p code : Nat) (payload : List Nat) : State :=
  s.modMgmt p fun m => { m with spdm := { m.spdm with
    response := code, payload := payload, transcript := (m.spdm.transcript + 1) } }

def State.modSpdm (s : State) (p : Nat) (f : Spdm → Spdm) : State := s.modMgmt p fun m => { m with spdm := f m.spdm }

/-- A request that needs a state of the connection: answered, or ERROR; in recovery the failing stage is reported (R373), and a
package without power answers nothing. -/
def State.request (s : State) (p : Nat) (ready : Spdm → Bool) (answer : State → State) : State :=
  let m := (s.dev p).mgmt
  if !m.powered then s
  else if m.failed then s.respond p rspError [m.stage]
  else if ready m.spdm then answer s
  else s.respond p rspError []

/-- A response that the Alias key signs. -/
def State.signed (s : State) (p code nonce : Nat) (payload : List Nat) : State :=
  let body := payload.foldl (fun v x => v * 2 ^ 256 + x) nonce
  s.respond p code (nonce :: payload ++ [Config.mldsaSign (aliasSeed s p) body])

/-- GET_VERSION: version 1.4; the connection starts anew. -/
def execGetVersion (dev : Nat) (s : State) : Host.Outcome State Fault Refusal :=
  happen (fun s => s.request dev (fun _ => true) fun s =>
    (s.modSpdm dev fun d => { Spdm.reset with
      keys := d.keys, ide := d.ide, uec := d.uec, transcript := d.transcript, versioned := true }).respond dev 0x04 [0x14]) s
/-- What the responder's flows need of DMTF's capability bits: CERT, CHAL, MEAS with signatures, ENCRYPT, MAC, KEY_EX, HBEAT, KEY_UPD. Their places
are DMTF's (log entry 35). -/
def spdmCaps : Nat := 0x62D6
/-- GET_CAPABILITIES. -/
def execGetCapabilities (dev : Nat) (s : State) : Host.Outcome State Fault Refusal :=
  happen (fun s => s.request dev (fun d => d.versioned) fun s => (s.modSpdm dev fun d => { d with capable := true }).respond dev 0x61 [spdmCaps]) s
/-- NEGOTIATE_ALGORITHMS: bit 0 of the offer is ML-DSA-44, bit 1 SHA3-256; both are needed. -/
def execNegotiateAlgorithms (dev offer : Nat) (s : State) : Host.Outcome State Fault Refusal :=
  happen (fun s => s.request dev (fun d => d.capable && offer % 4 = 3) fun s =>
    (s.modSpdm dev fun d => { d with negotiated := true }).respond dev 0x63 [3]) s
/-- GET_DIGESTS: the SHA3-256 of each certificate's key. -/
def execGetDigests (dev : Nat) (s : State) : Host.Outcome State Fault Refusal :=
  happen (fun s => s.request dev (fun d => d.negotiated) fun s =>
    s.respond dev 0x01 ([devidSeed dev, aliasSeed s dev].map fun k => (Config.sha3 (Config.mldsaKeygen k) 1312).toNat)) s
/-- GET_CERTIFICATE: the DeviceID certificate and the Alias certificate. -/
def execGetCertificate (dev : Nat) (s : State) : Host.Outcome State Fault Refusal :=
  happen (fun s => s.request dev (fun d => d.negotiated) fun s =>
    s.respond dev 0x02 (devidCert dev ++ aliasCert s dev)) s
/-- CHALLENGE. -/
def execChallenge (dev nonce : Nat) (s : State) : Host.Outcome State Fault Refusal :=
  happen (fun s => s.request dev (fun d => d.negotiated) fun s => s.signed dev 0x03 nonce []) s
/-- GET_MEASUREMENTS: blocks 0 to 7. -/
def execGetMeasurements (dev nonce : Nat) (s : State) : Host.Outcome State Fault Refusal :=
  happen (fun s => s.request dev (fun d => d.negotiated) fun s =>
    s.signed dev 0x60 nonce ((List.range 8).map fun n => (s.measure dev n).toNat)) s
/-- KEY_EXCHANGE: a session begins. -/
def execKeyExchange (dev nonce : Nat) (s : State) : Host.Outcome State Fault Refusal :=
  happen (fun s => s.request dev (fun d => d.negotiated && !d.session) fun s =>
    (s.modSpdm dev fun d => { d with session := true, finished := false }).signed dev 0x64 nonce []) s
/-- FINISH: the session is established, and with it the keys of the host link and of the Ethernet transport. -/
def execFinish (dev : Nat) (s : State) : Host.Outcome State Fault Refusal :=
  happen (fun s => s.request dev (fun d => d.session && !d.finished) fun s =>
    (s.modSpdm dev fun d => { d with
      finished := true, ide := some (Config.sessionKey dev d.transcript 0), uec := some (Config.sessionKey dev d.transcript 1) }).respond dev 0x65 []) s
/-- KEY_UPDATE, which only the requester starts. -/
def execKeyUpdate (dev : Nat) (s : State) : Host.Outcome State Fault Refusal :=
  happen (fun s => s.request dev (fun d => d.session && d.finished) fun s =>
    (s.modSpdm dev fun d => { d with keys := d.keys + 1 }).respond dev 0x69 []) s
/-- HEARTBEAT. -/
def execHeartbeat (dev : Nat) (s : State) : Host.Outcome State Fault Refusal :=
  happen (fun s => s.request dev (fun d => d.session && d.finished) fun s => s.respond dev 0x68 []) s
/-- END_SESSION. -/
def execEndSession (dev : Nat) (s : State) : Host.Outcome State Fault Refusal :=
  happen (fun s => s.request dev (fun d => d.session) fun s =>
    (s.modSpdm dev fun d => { d with session := false, finished := false }).respond dev 0x6C []) s

/-! ## PLDM: firmware, events, snapshots, power -/

/-- The management controller acts, unless its package has no power. -/
def State.managed (s : State) (p : Nat) (f : State → State) : State := if (s.dev p).mgmt.powered then f s else s

/-- PLDM_FIRMWARE_UPDATE (R374): an image that verifies is kept for the next boot, and burns its SVN when the host asks. -/
def execPldmFirmwareUpdate (dev kind image : Nat) (burn : Bool) (s : State) : Host.Outcome State Fault Refusal :=
  happen (fun s => s.managed dev fun s =>
    if !s.verifies dev kind image then s
    else
      let s := s.modMgmt dev fun m => { m with
        images := mset m.images kind image
        svnMin := if burn then mset m.svnMin kind (max (mget 0 m.svnMin kind) (imgSvn image)) else m.svnMin }
      s.logEvent dev evFIRMWARE hubSource kind) s

/-- MGMT_EVENT_SEND (R379): the oldest record, or after a loss one that carries the count. -/
def execMgmtEventSend (dev : Nat) (s : State) : Host.Outcome State Fault Refusal :=
  happen (fun s => s.managed dev fun s =>
    let time := s.time dev
    s.modMgmt dev fun m =>
      if 0 < m.lostEvents && decide (m.events.length < 1024) then
        { m with sent := m.sent ++ [(⟨time, evLOST, hubSource, m.lostEvents⟩ : MgmtEvent).record], lostEvents := 0 }
      else match m.events with
        | e :: rest => { m with events := rest, sent := m.sent ++ [e.record] }
        | [] => m) s

/-- SNAP_TRIGGER (R380). -/
def execSnapTrigger (dev : Nat) (s : State) : Host.Outcome State Fault Refusal := happen (fun s => s.managed dev fun s => s.snapshot dev) s
/-- SNAP_READ (R380): SNAPV is cleared. -/
def execSnapRead (dev : Nat) (s : State) : Host.Outcome State Fault Refusal :=
  happen (fun s => s.managed dev fun s => s.modMgmt dev fun m => { m with snap := none }) s

/-- PLDM_SET_PCAP (R381): a cap outside 1,000 to 3,000 W changes nothing. -/
def execPldmSetPcap (dev watts : Nat) (s : State) : Host.Outcome State Fault Refusal :=
  happen (fun s => s.managed dev fun s =>
    if 1000 ≤ watts ∧ watts ≤ 3000 then s.modMgmt dev fun m => { m with pcap := watts } else s) s

/-- Steps of 50 MHz from 1.9 GHz down to 0.95 GHz. -/
def maxStep : Nat := 19

/-- The clock changes; the cycles counted so far stand. -/
def State.setStep (s : State) (p n : Nat) : State :=
  let c := s.cycles p
  (s.modDev p fun d => { d with cycBase := c, cycFrom := s.now }).modMgmt p fun m => { m with clockStep := n }

/-- POWER_WINDOW (R381): a window above the cap lowers the clock by a step, one within it raises a lowered clock by one. -/
def execPowerWindow (dev watts : Nat) (s : State) : Host.Outcome State Fault Refusal :=
  happen (fun s =>
    let m := (s.dev dev).mgmt
    if m.pcap < watts then s.setStep dev (min maxStep (m.clockStep + 1))
    else if m.hot then s
    else s.setStep dev (m.clockStep - 1)) s

/-- THERMAL_TRIP (R381): 105 C forces the lowest step and sends a record; 115 C removes power, all of it, and records the trip. -/
def execThermalTrip (dev celsius : Nat) (s : State) : Host.Outcome State Fault Refusal :=
  happen (fun s =>
    if 115 ≤ celsius then
      (s.resetPackage dev).modMgmt dev fun m => { m with trip := true, powered := false }
    else if 105 ≤ celsius then
      ((s.setStep dev maxStep).modMgmt dev fun m => { m with hot := true }).logEvent dev evTHERMAL hubSource celsius
    else s.modMgmt dev fun m => { m with hot := false }) s

/-! ## TIME and DEVID -/

/-- IEEE_1588_SYNCHRONISATION (R379). -/
def execIeee1588Synchronisation (dev ns : Nat) (s : State) : Host.Outcome State Fault Refusal :=
  happen (fun s => s.modDev dev fun d => { d with timeBase := ns, timeFrom := s.now }) s

/-- Every enabled lane of the Gloam ports trains (R373). -/
def Fabric.train (f : Fabric) : Fabric :=
  { f with lanes := (List.range 128).map fun n => (n, if (f.lane n).en then { f.lane n with st := 1 } else f.lane n) }

/-- DEVID_ASSIGNMENT (R14, R373): stage 5 of a package's bring-up, before its tiles leave reset, which follows. A package that joins the system comes
with it. A second package with one number is refused and stays dark. -/
def execDevidAssignment (dev domain pos : Nat) (s : State) : Host.Outcome State Fault Refusal :=
  happen (fun s =>
    let n := 64 * (domain % 64) + pos % 64
    let m := (s.dev dev).mgmt
    if s.present.contains dev && (m.stage ≠ 5 || m.failed || !m.powered) then s
    else
      let s : State := { s with present := s.present.filter (· ≠ dev) ++ [dev] }
      if s.present.any fun q => q ≠ dev && !(s.dev q).dark && (s.dev q).number = n then
        s.modDev dev fun d => { d with dark := true, mgmt := { d.mgmt with stage := 5 } }
      else s.modDev dev fun d => { d with
        domain := BitVec.ofNat 6 domain, pos := BitVec.ofNat 6 pos, dark := false, fabric := d.fabric.train, mgmt := { d.mgmt with stage := 6 } }) s

end Sys2Proof.Machine
end

