-- ==== Sys2Proof/Machine/Memory.lean ====
section
/-! DEFINITION. Scalar loads and stores (R227 to R229), atomics (R230 to R232), fences and QWAIT (R233, R234), CWB and CINV
(R318). -/
namespace Sys2Proof.Machine

/-! ## Shared operations -/

/-- Bytes of a size code (R193). -/
def sizeOf (sz : BitVec 3) : Nat := 2 ^ (sz.toNat / 2)
/-- A load of the size sign-extends (R193). -/
def sizeSigned (sz : BitVec 3) : Bool := sz.toNat % 2 = 0

/-- The pointer of a C.M access and its checks up to ALIGN (R227). -/
def accessPtr (f : CM) (spaces : Nat → Bool) : M Word := do
  let a ← rs f.a
  let p ← padd a (f.off.toInt * sizeOf f.sz) a
  need (spaces (spaceOf p)) cSPACE p
  need (decide (addrOf p % sizeOf f.sz = 0)) cALIGN p
  pure p

/-- A load joins the pending loads in program order (R135, R140); one of the compute stream is also pending for the units after it that the
address stream has passed (R137). -/
def Ctx.addPend (k : Ctx) (compute : Bool) (l : PendLoad) : Ctx :=
  let add := fun (q : List PendLoad) => q.filter (fun m => decide (m.seq < l.seq)) ++ l :: q.filter fun m => decide (l.seq ≤ m.seq)
  let k := { k with
    pend := add k.pend
    lostLoads := k.lostLoads.map fun m => if m.seq < l.seq then { m with after := m.after ++ [l.seq] } else m }
  if compute then { k with backlog := k.backlog.map fun p => if l.seq < p.seq then { p with pend := add p.pend } else p } else k

/-- A load whose destination becomes pending (R140); a 33rd waits, and a pending destination is waited for. -/
def pendLoad (d : BitVec 5) (size : Nat) (signed : Bool) (p : Word) (acq : Bool) (get : M (Nat × List Await)) : M Unit := do
  let k ← getC
  if 32 ≤ k.pend.length then retireLoad
  if k.pendingReg d then retireLoads (k.pendingUpTo d)
  let (v, awaits) ← get
  if acq && awaits.isEmpty then flash
  upd fun s => s.setCtx (s.ctx.addPend s.compute ⟨d, BitVec.ofNat 64 v, size, signed, awaits, p, s.ctx.useq, acq && !awaits.isEmpty⟩)

/-- The bytes of a C.M store (R228). -/
def storeVal (f : CM) : M Nat := do
  let v ← rs f.d
  pure (v.toNat % 2 ^ (8 * sizeOf f.sz))

/-! ## Scalar loads and stores -/

/-- R228. -/
def execLdl (f : CM) (s : State) : Host.Outcome State Fault Refusal :=
  finish (do
    let p ← accessPtr f (· = 1)
    afterStores p (sizeOf f.sz)
    let v ← loadLocal p (addrOf p) (sizeOf f.sz)
    wsLat 4 f.d (extendLoad (sizeOf f.sz) (sizeSigned f.sz) (BitVec.ofNat 64 v))) s

/-- R228. -/
def execStl (f : CM) (s : State) : Host.Outcome State Fault Refusal :=
  finish (do
    let v ← storeVal f
    let p ← accessPtr f (· = 1)
    afterStores p (sizeOf f.sz)
    storeLocal p (addrOf p) (sizeOf f.sz) v) s

/-- R228. -/
def execLdg (f : CM) (s : State) : Host.Outcome State Fault Refusal :=
  finish (do
    let p ← accessPtr f (· = 0)
    afterStores p (sizeOf f.sz)
    pendLoad f.d (sizeOf f.sz) (sizeSigned f.sz) p false (loadGlobal p (addrOf p) (sizeOf f.sz))) s

/-- R228: space 0, a delivering store to a pip with .d (R176), the aperture with .w and .d (R183). -/
def execStg (f : CM) (s : State) : Host.Outcome State Fault Refusal :=
  finish (do
    let v ← storeVal f
    let n := sizeOf f.sz
    let s ← get
    let p ← accessPtr f fun sp => sp = 0 || (sp = 2 && n = 8) || (sp = 4 && (n = 4 || n = 8) && s.takesAperture)
    match spaceOf p with
    | 0 =>
      afterStores p n
      storeGlobal p (addrOf p) n v
    | 2 => deliver p (BitVec.ofNat 64 v)
    | _ => apertureStore p n v) s

/-- R229: an acquire when its value is obtained. -/
def execLdacq (f : CM) (s : State) : Host.Outcome State Fault Refusal :=
  finish (do
    let p ← accessPtr f (· = 0)
    afterStores p (sizeOf f.sz)
    pendLoad f.d (sizeOf f.sz) true p true (loadGlobal p (addrOf p) (sizeOf f.sz))) s

/-- R229: a release, then the store. -/
def execStrel (f : CM) (s : State) : Host.Outcome State Fault Refusal :=
  finish (do
    let v ← storeVal f
    let p ← accessPtr f (· = 0)
    afterStores p (sizeOf f.sz)
    release
    storeGlobal p (addrOf p) (sizeOf f.sz) v) s

/-! ## Atomics (R230 to R232) -/

/-- One AMO: its pointer checks, its release, the operation at the home, its acquire. -/
def amo (op : Nat) (f : AF) : M Unit := do
  let p ← rs f.a
  let x ← rs f.b
  let c ← if op = 9 then rs f.d else pure 0
  let n := if f.size = 0 then 4 else 8
  need (spaceOf p = 0) cSPACE p
  need (decide (addrOf p % n = 0)) cALIGN p
  afterStores p n
  if f.order.getLsbD 1 then release
  pendLoad f.d n true p (f.order.getLsbD 0) (amoAccess p op (8 * n) (x.toNat % 2 ^ (8 * n)) (c.toNat % 2 ^ (8 * n)))

def execAmoadd (f : AF) (s : State) : Host.Outcome State Fault Refusal := finish (amo 0 f) s
def execAmoand (f : AF) (s : State) : Host.Outcome State Fault Refusal := finish (amo 1 f) s
def execAmoor (f : AF) (s : State) : Host.Outcome State Fault Refusal := finish (amo 2 f) s
def execAmoxor (f : AF) (s : State) : Host.Outcome State Fault Refusal := finish (amo 3 f) s
def execAmomin (f : AF) (s : State) : Host.Outcome State Fault Refusal := finish (amo 4 f) s
def execAmomax (f : AF) (s : State) : Host.Outcome State Fault Refusal := finish (amo 5 f) s
def execAmominu (f : AF) (s : State) : Host.Outcome State Fault Refusal := finish (amo 6 f) s
def execAmomaxu (f : AF) (s : State) : Host.Outcome State Fault Refusal := finish (amo 7 f) s
def execAmoswp (f : AF) (s : State) : Host.Outcome State Fault Refusal := finish (amo 8 f) s
def execAmocas (f : AF) (s : State) : Host.Outcome State Fault Refusal := finish (amo 9 f) s
def execAmofadd (f : AF) (s : State) : Host.Outcome State Fault Refusal := finish (amo 10 f) s
def execAmofmax (f : AF) (s : State) : Host.Outcome State Fault Refusal := finish (amo 11 f) s

/-! ## Fences and QWAIT (R233, R234) -/

def execAcq (_ : CF) (s : State) : Host.Outcome State Fault Refusal := finish (do acquired; flash) s
def execRel (_ : CF) (s : State) : Host.Outcome State Fault Refusal := finish release s
/-- The units that a context has fetched and not issued are fetched again (R191). -/
def execFence (_ : CF) (s : State) : Host.Outcome State Fault Refusal :=
  finish (do
    release
    acquired
    flash
    modC Ctx.refetch) s

/-- R234, R370: all but the n latest loads before the unit leave the pending state. Of those that are lost, it traps for the first that it covers. -/
def execQwait (f : CF) (s : State) : Host.Outcome State Fault Refusal :=
  finish (do
    let k ← getC
    retireLoads ((k.pend.filter fun l => decide (l.seq ≤ k.useq)).length - f.p5.toNat)
    let k ← getC
    match k.lostLoads.find? fun l => decide (l.seq ≤ k.useq) && decide ((l.after.filter fun m => decide (m ≤ k.useq)).length ≤ f.p5.toNat) with
    | some l =>
      modC fun k => { k with lostLoads := k.lostLoads.filter fun m => m ≠ l }
      trapKeep l.cause l.ptr
    | none => pure ()) s

/-! ## Lines of the local array (R318) -/

/-- The line that CWB and CINV act on; a pinned one is none of them. Both complete when the home has acknowledged, so a registration of the line
that is under way is waited for. -/
def lineAct (f : CF) (act : Line → M Unit) : M Word := do
  let p ← rs f.a
  need (spaceOf p = 0) cSPACE p
  let k ← getC
  let x ← getT
  match x.line (addrOf p / 128) k.asid with
  | some l =>
    let s ← get
    if s.pendingWords s.cur l.gl ≠ 0 then waitKeep
    act l
  | none => pure ()
  pure p

/-- Dirty words are written back and stay owned. -/
def execCwb (f : CF) (s : State) : Host.Outcome State Fault Refusal :=
  finish (do
    let _ ← lineAct f fun l => upd fun s =>
      let s : State := { s with mem := writeLine s.mem l.gl (wordBytes l.dirty) l.data }
      s.modTile s.cur fun x => { x with lines := x.lines.map fun m => if m.gl = l.gl then { m with dirty := 0 } else m }
    pure ()) s

/-- The line is written back, returned and invalidated, also in the instruction cache. -/
def execCinv (f : CF) (s : State) : Host.Outcome State Fault Refusal :=
  finish (do
    let p ← lineAct f fun l => upd fun s => s.evict s.cur l
    modT fun x => { x with icache := x.icache.filter fun l => l.va ≠ addrOf p / 128 }) s

end Sys2Proof.Machine
end

