-- ==== Sys2Proof/Machine/Messages.lean ====
section
/-! DEFINITION. Receive rings and messages (R305 to R307, R323). -/
namespace Sys2Proof.Machine

/-- The endpoint of a tile (R323). -/
def State.endpoint (s : State) (t : Nat) : Word := BitVec.ofNat 64 (s.devNum (pkgOf t) * 4096 + numOf t)

/-- The local offset of entry n of a context's ring. -/
def Ctx.ringEntry (k : Ctx) (n : Nat) : Nat := k.recvBase.toNat * 64 + 64 * n

/-- The ring is empty (R305). -/
def Ctx.emptyRing (k : Ctx) : Ctx := { k with recvCount := 0, recvTail := 0 }

/-- A message reaches a tile (R306): the ring takes it or refuses it. -/
def State.receive (s : State) (t : Nat) (sender : Word) (body : BitVec 448) : State × Word :=
  let x := s.tile t
  let k := x.ctx 0
  let o := k.ringEntry k.recvTail.toNat
  if !mhas x.ctxs 0 || k.recvSize = 0 || !x.pinnedSpan o 64 then (s, 2)
  else if k.recvCount = k.recvSize then (s, 1)
  else
    let s := s.modTile t fun x => x.localWrite o 64 (body.toNat + sender.toNat * 2 ^ 448)
    let s := s.modCtxAt t 0 fun k => { k with
      recvTail := BitVec.ofNat 11 ((k.recvTail.toNat + 1) % k.recvSize.toNat), recvCount := k.recvCount + 1 }
    (s.wake t 0, 0)

/-- A sender is the endpoint of a tile of the system (R323). -/
def State.isEndpoint (s : State) (sender : Word) : Bool :=
  bits sender 24 40 = (0 : BitVec 40) && decide ((bits sender 0 12 : BitVec 12).toNat < 2688) && (s.pkgOfDev (bits sender 12 12).toNat).isSome

/-- MESSAGE_ARRIVAL (R306): what a tile of the system has sent. -/
def execMessageArrival (t : Nat) (sender : Word) (body : BitVec 448) (s : State) : Host.Outcome State Fault Refusal :=
  happen (fun s => if s.isEndpoint sender then (s.receive t sender body).1 else s) s

/-- The 64-byte entry that SEND reads and RECV writes (R306): space 1, aligned, pinned. -/
def entryBuffer (p : Word) : M Unit := do
  need (spaceOf p = 1) cSPACE p
  need (decide (addrOf p % 64 = 0)) cALIGN p
  let x ← getT
  need (x.pinnedSpan (addrOf p) 64) cPAGE p

/-- SEND (R306). -/
def execSend (f : CF) (s : State) : Host.Outcome State Fault Refusal :=
  finish (do
    notHelper 0x202
    let d ← rs f.a
    let p ← rs f.b
    entryBuffer p
    acquired
    if bits d 24 40 ≠ 0 || 2688 ≤ (bits d 0 12).toNat then ws f.d 4
    else
      let s ← get
      let here := pkgOf s.cur
      match s.pkgOfDev (bits d 12 12).toNat with
      | none =>
        release
        ws f.d 3
      | some q =>
        let t := q * 4096 + (bits d 0 12).toNat
        release
        let s ← get
        if !s.tileReached here t then ws f.d 3
        else
          let body : BitVec 448 := BitVec.ofNat 448 ((s.tile s.cur).localRead (addrOf p) 56)
          let (r, s) := s.sendNow here q (s.pathOf here (s.dev q).pos.toNat 0) 64 body.toNat
          match r with
          | .wait => waitKeep
          | .fault _ =>
            set s
            ws f.d 3
          | .ok _ =>
            let (s, answer) := s.receive t (s.endpoint s.cur) body
            set s
            ws f.d answer) s

/-- The oldest entry is taken (R307). -/
def takeMessage (f : CF) : M Unit := do
  let p ← rs f.a
  entryBuffer p
  acquired
  let x ← getT
  let k ← getC
  let n := (k.recvTail.toNat + k.recvSize.toNat - k.recvCount.toNat) % k.recvSize.toNat
  let v := x.localRead (k.ringEntry n) 64
  modT fun x => x.localWrite (addrOf p) 64 v
  modC fun k => { k with recvCount := k.recvCount - 1, timeFrom := none }
  ws f.d (BitVec.ofNat 64 (v / 2 ^ 448))
  flash

/-- RECV (R307). -/
def execRecv (f : CF) (s : State) : Host.Outcome State Fault Refusal :=
  finish (do
    notHelper 0x202
    let k ← getC
    if k.recvCount = 0 then wait
    takeMessage f) s

/-- RECVT (R307): it waits at most s[b] cycles from its first issue. -/
def execRecvt (f : CF) (s : State) : Host.Outcome State Fault Refusal :=
  finish (do
    notHelper 0x202
    let n ← rs f.b
    let s ← get
    let k := s.ctx
    if k.recvCount ≠ 0 then takeMessage f
    else
      let from' := k.timeFrom.getD s.now
      if s.now < from' + n.toNat then
        modC fun k => { k with timeFrom := some from' }
        waitKeep
      modC fun k => { k with timeFrom := none }
      ws f.d (BitVec.allOnes 64)) s


/-- RECVT_TIMEOUT: the cycles of the RECVT at which a control context waits have passed (R307). -/
def execRecvtTimeout (t : Nat) (s : State) : Host.Outcome State Fault Refusal :=
  happen (fun s =>
    let k := s.ctxAt t 0
    match k.timeFrom with
    | some from' => { s with now := max s.now (from' + (k.sreg (bits k.waitingUnit 9 5)).toNat) }
    | none => s) s

/-! ## The CSRs of the ring (R305) -/

/-- The operand of a SYSW to CSR n, after its checks and waits (R313). -/
def csrOperand (f : CF) (n : Nat) : M Word := do
  settled
  csrCheck true n 0
  rs f.a

/-- SIZE values above 1,024 are held as 1,024. -/
def holdSize (v : Word) : BitVec 11 := if 1024 < (bits v 0 11 : BitVec 11).toNat then 1024 else bits v 0 11

/-- SYSW_RECVBASE. -/
def execSyswRecvbase (f : CF) (s : State) : Host.Outcome State Fault Refusal :=
  finish (do
    let v ← csrOperand f 0x00C
    modC fun k => { k.emptyRing with recvBase := bits v 6 14 }) s

/-- SYSW_RECVSIZE. -/
def execSyswRecvsize (f : CF) (s : State) : Host.Outcome State Fault Refusal :=
  finish (do
    let v ← csrOperand f 0x00D
    modC fun k => { k.emptyRing with recvSize := holdSize v }) s

/-- RECVTAIL_CLR: writing 1 to CLR empties the ring. -/
def execRecvtailClr (f : CF) (s : State) : Host.Outcome State Fault Refusal :=
  finish (do
    let v ← csrOperand f 0x00E
    if v.getLsbD 63 then modC Ctx.emptyRing) s

end Sys2Proof.Machine
end

