-- ==== Sys2Proof/Machine/Scalar.lean ====
section
/-! DEFINITION. Register arithmetic, pointers, constants, branches and jumps (R215 to R226). -/
namespace Sys2Proof.Machine

/-! ## Shared operations -/

/-- An ALU operation of a latency on two registers (R215). -/
def alu (lat : Nat) (f : CR) (op : Word → Word → Word) : M Unit := do
  let a ← rs f.a
  let b ← rs f.b
  wsLat lat f.d (op a b)

/-- An immediate operation, imm14 sign-extended (R218). -/
def aluImm (f : CI) (op : Word → Word → Word) : M Unit := do
  let a ← rs f.a
  ws f.d (op a (sext f.imm))

/-- A shift by an immediate count (R218). -/
def shiftImm (f : CI) (op : Word → Nat → Word) : M Unit := do
  let a ← rs f.a
  ws f.d (op a f.imm.toNat)

/-- A division: the quotient or remainder, and DZ for a zero divisor (R216). -/
def divide (f : CR) (zero : Word → Word) (op : Word → Word → Word) : M Unit := do
  let a ← rs f.a
  let b ← rs f.b
  if b = 0 then raise fDZ
  wsLat 24 f.d (if b = 0 then zero a else op a b)

/-- The count of a shift: s[b][5:0]. -/
def shiftCount (b : Word) : Nat := (bits b 0 6).toNat
/-- Leading zero bits. -/
def leadingZeros (x : BitVec n) : Nat := if x = 0 then n else n - 1 - Nat.log2 x.toNat
/-- Trailing zero bits. -/
def trailingZeros : (n : Nat) → BitVec n → Nat
  | 0, _ => 0
  | n + 1, x => if x.getLsbD 0 then 0 else 1 + trailingZeros n (x.extractLsb' 1 n)

/-- BFX (R217). -/
def bitField (a b : Word) : Word :=
  let lo := (bits b 0 6).toNat
  let len := (bits b 8 6).toNat + 1
  let f := (a >>> lo) &&& BitVec.ofNat 64 (2 ^ len - 1)
  if b.getLsbD 16 then (f <<< (64 - len)).sshiftRight (64 - len) else f

/-- High half of a product of two integers. -/
def highHalf (x : Int) : Word := BitVec.ofInt 64 (x / 2 ^ 64)

/-! ## Register arithmetic (R215 to R217) -/

def execAdd (f : CR) (s : State) : Host.Outcome State Fault Refusal := finish (alu 1 f fun a b => a + b) s
def execSub (f : CR) (s : State) : Host.Outcome State Fault Refusal := finish (alu 1 f fun a b => a - b) s
def execAnd (f : CR) (s : State) : Host.Outcome State Fault Refusal := finish (alu 1 f fun a b => a &&& b) s
def execOr (f : CR) (s : State) : Host.Outcome State Fault Refusal := finish (alu 1 f fun a b => a ||| b) s
def execXor (f : CR) (s : State) : Host.Outcome State Fault Refusal := finish (alu 1 f fun a b => a ^^^ b) s
def execAndn (f : CR) (s : State) : Host.Outcome State Fault Refusal := finish (alu 1 f fun a b => a &&& ~~~b) s
def execShl (f : CR) (s : State) : Host.Outcome State Fault Refusal := finish (alu 1 f fun a b => a <<< shiftCount b) s
def execShr (f : CR) (s : State) : Host.Outcome State Fault Refusal := finish (alu 1 f fun a b => a >>> shiftCount b) s
def execSar (f : CR) (s : State) : Host.Outcome State Fault Refusal :=
  finish (alu 1 f fun a b => a.sshiftRight (shiftCount b)) s
def execMul (f : CR) (s : State) : Host.Outcome State Fault Refusal := finish (alu 3 f fun a b => a * b) s
def execMulh (f : CR) (s : State) : Host.Outcome State Fault Refusal :=
  finish (alu 3 f fun a b => highHalf (a.toInt * b.toInt)) s
def execMulhu (f : CR) (s : State) : Host.Outcome State Fault Refusal :=
  finish (alu 3 f fun a b => highHalf ((a.toNat : Int) * (b.toNat : Int))) s
/-- -2^63 / -1 gives -2^63 without a flag. -/
def execDiv (f : CR) (s : State) : Host.Outcome State Fault Refusal :=
  finish (divide f (fun _ => BitVec.allOnes 64) fun a b => a.sdiv b) s
def execDivu (f : CR) (s : State) : Host.Outcome State Fault Refusal :=
  finish (divide f (fun _ => BitVec.allOnes 64) fun a b => a / b) s
def execRem (f : CR) (s : State) : Host.Outcome State Fault Refusal := finish (divide f id fun a b => a.srem b) s
def execRemu (f : CR) (s : State) : Host.Outcome State Fault Refusal := finish (divide f id fun a b => a % b) s
def execMin (f : CR) (s : State) : Host.Outcome State Fault Refusal := finish (alu 1 f fun a b => if a.slt b then a else b) s
def execMax (f : CR) (s : State) : Host.Outcome State Fault Refusal := finish (alu 1 f fun a b => if a.slt b then b else a) s
def execMinu (f : CR) (s : State) : Host.Outcome State Fault Refusal := finish (alu 1 f fun a b => if a.ult b then a else b) s
def execMaxu (f : CR) (s : State) : Host.Outcome State Fault Refusal := finish (alu 1 f fun a b => if a.ult b then b else a) s
def execSlt (f : CR) (s : State) : Host.Outcome State Fault Refusal := finish (alu 1 f fun a b => ofBool (a.slt b)) s
def execSltu (f : CR) (s : State) : Host.Outcome State Fault Refusal := finish (alu 1 f fun a b => ofBool (a.ult b)) s
def execSeq (f : CR) (s : State) : Host.Outcome State Fault Refusal := finish (alu 1 f fun a b => ofBool (a == b)) s
def execClz (f : CR) (s : State) : Host.Outcome State Fault Refusal :=
  finish (alu 1 f fun a _ => BitVec.ofNat 64 (leadingZeros a)) s
def execCtz (f : CR) (s : State) : Host.Outcome State Fault Refusal :=
  finish (alu 1 f fun a _ => BitVec.ofNat 64 (trailingZeros 64 a)) s
def execPopc (f : CR) (s : State) : Host.Outcome State Fault Refusal :=
  finish (alu 1 f fun a _ => BitVec.ofNat 64 (popCount a)) s
/-- s[d] is the third operand. -/
def execCsel (f : CR) (s : State) : Host.Outcome State Fault Refusal :=
  finish (do
    let a ← rs f.a
    let b ← rs f.b
    let d ← rs f.d
    ws f.d (if b ≠ 0 then a else d)) s
def execBfx (f : CR) (s : State) : Host.Outcome State Fault Refusal := finish (alu 1 f bitField) s

/-! ## Pointers (R219, R220) -/

def execPadd (f : CR) (s : State) : Host.Outcome State Fault Refusal :=
  finish (do
    let a ← rs f.a
    let b ← rs f.b
    ws f.d (← padd a b.toInt a)) s
def execPsub (f : CR) (s : State) : Host.Outcome State Fault Refusal :=
  finish (do
    let a ← rs f.a
    let b ← rs f.b
    ws f.d (← padd a (-b.toInt) a)) s
def execPaddi (f : CI) (s : State) : Host.Outcome State Fault Refusal :=
  finish (do
    let a ← rs f.a
    ws f.d (← padd a f.imm.toInt a)) s
def execPtag (f : CI) (s : State) : Host.Outcome State Fault Refusal :=
  finish (do
    let a ← rs f.a
    ws f.d (bits f.imm 2 12 ++ bits a 0 52)) s

/-! ## Immediates (R218) and constants (R221) -/

def execAddi (f : CI) (s : State) : Host.Outcome State Fault Refusal := finish (aluImm f fun a b => a + b) s
def execAndi (f : CI) (s : State) : Host.Outcome State Fault Refusal := finish (aluImm f fun a b => a &&& b) s
def execOri (f : CI) (s : State) : Host.Outcome State Fault Refusal := finish (aluImm f fun a b => a ||| b) s
def execXori (f : CI) (s : State) : Host.Outcome State Fault Refusal := finish (aluImm f fun a b => a ^^^ b) s
def execSlti (f : CI) (s : State) : Host.Outcome State Fault Refusal := finish (aluImm f fun a b => ofBool (a.slt b)) s
def execSltiu (f : CI) (s : State) : Host.Outcome State Fault Refusal := finish (aluImm f fun a b => ofBool (a.ult b)) s
def execShli (f : CI) (s : State) : Host.Outcome State Fault Refusal := finish (shiftImm f fun a n => a <<< n) s
def execShri (f : CI) (s : State) : Host.Outcome State Fault Refusal := finish (shiftImm f fun a n => a >>> n) s
def execSari (f : CI) (s : State) : Host.Outcome State Fault Refusal := finish (shiftImm f fun a n => a.sshiftRight n) s

def execLi (f : LF) (s : State) : Host.Outcome State Fault Refusal := finish (ws f.ra (sext f.imm32)) s
def execLih (f : LF) (s : State) : Host.Outcome State Fault Refusal :=
  finish (do
    let a ← rs f.ra
    ws f.ra (f.imm32 ++ bits a 0 32)) s
def execLia (f : LF) (s : State) : Host.Outcome State Fault Refusal :=
  finish (do
    let pc := (← getC).upc
    ws f.ra (zext (bits (← padd pc (8 * f.imm32.toInt) pc) 0 52))) s

/-! ## Branches and jumps (R222 to R226) -/

/-- The next unit is at t, after both words of this one. -/
def jumpTo (t : Word) : M Unit := modC fun k => { k with npc := t }

/-- A branch by off14 units, taken when a condition on two registers holds (R222). -/
def branch (f : CB) (cond : Word → Word → Bool) : M Unit := do
  let a ← rs f.a
  let b ← rs f.b
  let pc := (← getC).upc
  if cond a b then jumpTo (← padd pc (8 * f.off.toInt) pc)

/-- The link: the address of the next unit, zero tags. -/
def linkTo (r : BitVec 5) : M Unit := do
  let pc := (← getC).upc
  ws r (zext (bits (pc + 8) 0 52))

def execBeq (f : CB) (s : State) : Host.Outcome State Fault Refusal := finish (branch f fun a b => a == b) s
def execBne (f : CB) (s : State) : Host.Outcome State Fault Refusal := finish (branch f fun a b => a != b) s
def execBlt (f : CB) (s : State) : Host.Outcome State Fault Refusal := finish (branch f fun a b => a.slt b) s
def execBge (f : CB) (s : State) : Host.Outcome State Fault Refusal := finish (branch f fun a b => !a.slt b) s
def execBltu (f : CB) (s : State) : Host.Outcome State Fault Refusal := finish (branch f fun a b => a.ult b) s
def execBgeu (f : CB) (s : State) : Host.Outcome State Fault Refusal := finish (branch f fun a b => !a.ult b) s

/-- R223. -/
def execLoop (f : CB) (s : State) : Host.Outcome State Fault Refusal :=
  finish (do
    let a ← rs f.a
    let pc := (← getC).upc
    if a - 1 ≠ 0 then jumpTo (← padd pc (8 * f.off.toInt) pc)
    ws f.a (a - 1)) s

/-- R224: the target is computed before the link is written. -/
def execJr (f : CI) (s : State) : Host.Outcome State Fault Refusal :=
  finish (do
    let a ← rs f.a
    let t ← padd a (8 * f.imm.toInt) a
    need (spaceOf t = 0) cSPACE t
    need (bits t 0 3 = 0) cALIGN t
    linkTo f.d
    jumpTo t) s

/-- R225. -/
def execJ (f : LF) (s : State) : Host.Outcome State Fault Refusal :=
  finish (do
    let pc := (← getC).upc
    jumpTo (← padd pc (8 * f.imm32.toInt) pc)) s
def execJal (f : LF) (s : State) : Host.Outcome State Fault Refusal :=
  finish (do
    let pc := (← getC).upc
    let t ← padd pc (8 * f.imm32.toInt) pc
    linkTo f.ra
    jumpTo t) s

/-- R194. -/
def execCnop (s : State) : Host.Outcome State Fault Refusal := finish (pure ()) s

end Sys2Proof.Machine
end

