-- ==== Sys2Proof/Machine/Trackers.lean ====
section
/-! DEFINITION. Pips (R173 to R176, R291 to R293) and store trackers (R112, R113, R294, R295). -/
namespace Sys2Proof.Machine

/-! ## Pips -/

/-- PMINT (R175, R291): the lowest FREE slot of 64 to 127; a lifetime of 2^p us, or none for p = 0. -/
def execPmint (f : CF) (s : State) : Host.Outcome State Fault Refusal :=
  finish (do
    if ← inHelper then trap cHELPERWAIT (← unitImage)
    let s ← get
    let x := s.tile s.cur
    match ((List.range 64).map (· + 64)).find? fun n => (x.pip n).st = .free with
    | none => ws f.d 0
    | some n =>
      let expiry := if f.p5 = 0 then none else some (s.time (pkgOf s.cur) + 2 ^ f.p5.toNat * 1000)
      upd fun s => s.modPip s.cur n fun p => { p with
        st := .live, pid := x.pid, self := x.self, cid := s.cid, mb := f.b.toNat, expiry := expiry, tag := 0, delivered := false, val := 0 }
      ws f.d (s.pipPtr s.cur n)) s

/-- The pip operand of PDROP and PSTAT: a slot from lo on, of this tile. -/
def ownPip (p : Word) (lo : Nat) : M Unit := do
  let s ← get
  need (spaceOf p = 2) cSPACE p
  need (ptrDev p = s.devNum (pkgOf s.cur) && ptrTile p = numOf s.cur && decide (lo ≤ pipSlot p)) cBADHANDLE p

/-- PDROP (R175, R292). -/
def execPdrop (f : CF) (s : State) : Host.Outcome State Fault Refusal :=
  finish (do
    notHelper 0x202
    let p ← rs f.a
    ownPip p 64
    upd fun s =>
      let k := (s.tile s.cur).pip (pipSlot p)
      if k.st = .live && k.gen.toNat = pipGen p && k.cid = s.cid && k.pid = (s.tile s.cur).pid && k.self = (s.tile s.cur).self then
        s.pipLand s.cur (pipSlot p) 2 (s.pipPtr s.cur (pipSlot p)) false
      else s) s

/-- PSTAT (R293). -/
def execPstat (f : CF) (s : State) : Host.Outcome State Fault Refusal :=
  finish (do
    let p ← rs f.a
    ownPip p 0
    let x ← getT
    let k := x.pip (pipSlot p)
    ws f.d (if k.st = .live && k.gen.toNat = pipGen p then 1
      else if k.st = .landed && k.delivered && (k.gen - 1).toNat = pipGen p then 2 else 0)) s

/-- PIP_DELIVERY: a delivering store reaches a slot (R175). -/
def execPipDelivery (t slot gen : Nat) (v : Word) (poison : Bool) (s : State) : Host.Outcome State Fault Refusal :=
  happen (fun s => (s.pipDeliver t slot gen v poison).1) s

/-- PIP_EXPIRY: TIME has passed a LIVE slot's expiry (R175, R324); a saved context's image is filled (R177). -/
def execPipExpiry (t slot : Nat) (s : State) : Host.Outcome State Fault Refusal :=
  happen (fun s =>
    let p := (s.tile t).pip slot
    match p.st, p.expiry with
    | .live, some n => if n ≤ s.time (pkgOf t) then (s.pipLand t slot 1 (s.pipPtr t slot) false).fillSaved t slot else s
    | _, _ => s) s

/-- PIP_QUAR_END: 64 us after a slot entered QUAR (R175). -/
def execPipQuarEnd (t slot : Nat) (s : State) : Host.Outcome State Fault Refusal :=
  happen (fun s =>
    let p := (s.tile t).pip slot
    if p.st = .quar && decide (p.quarEnd ≤ s.time (pkgOf t)) then s.modPip t slot fun p => { p with st := .free } else s) s

/-! ## Trackers -/

/-- Doubleword i of a descriptor. -/
def dword (v i : Nat) : Word := BitVec.ofNat 64 (v / 2 ^ (64 * i))

/-- The contents of a descriptor are ones R112 and R294 allow. -/
def trackerDescOk (v : Nat) : Bool :=
  let act := bits (dword v 3) 60 4
  bits (dword v 1) 40 24 = 0 && bits (dword v 2) 40 24 = 0 && bits (dword v 2) 0 40 ≠ 0 && bits (dword v 3) 44 16 = 0 &&
    bits (dword v 3) 12 20 = 0 && dword v 7 = 0 && decide (act.toNat < 5) &&
    (act ≠ 1 || decide ((bits (dword v 3) 32 12 : BitVec 12).toNat < 2688))

/-- The leaf that maps a tracker's BASE (R294 step 2), its frame's physical address and size. -/
def trackerBase (base : Word) : M (Nat × Nat) := fun s =>
  match s.translate s.asker (addrOf base) base with
  | (.wait, s) => .error (.waitWith s)
  | (.fault c, _) => .error (.trap c base)
  | (.leaf e large, s) =>
    if permits e .load s.ctx.priv then .ok ((leafPa e large (addrOf base), if large then 2 ^ 29 else 2 ^ 16), s)
    else .error (.trap cPROT base)

/-- The barrier of a CREDIT tracker (R294 step 3), with the checks of R95. -/
def trackerBar (p : Word) : M Nat := do
  need (spaceOf p = 0) cSPACE p
  need (decide (addrOf p % 32 = 0)) cALIGN p
  let (a, _) ← locateM p (addrOf p) .amo
  match ← ask fun s => s.gate s.asker true (spanWords (a % 128) 32) (a / 128) with
  | .held _ => trap cPROT p
  | .poison _ => trap cPOISON p
  | .lost _ => trap cUNREACH p
  | _ => need (← ask fun s => s.lineReached (pkgOf s.cur) (a / 128)) cUNREACH p
  pure a

/-- The global address of a range in one page of local DRAM of the tracker's region; the peer window that names the own device is local DRAM
(R28), and no page of the striped window lies in one region (R29). -/
def State.rangeAt (s : State) (t pa page len : Nat) : Option Nat :=
  match s.globalAddr (pkgOf t) pa with
  | some a =>
    let off := a % 2 ^ 52
    if 0 < len && decide (pa % page + len ≤ page) && decide (pa / 2 ^ 40 ≠ 1) && decide (a / 2 ^ 52 = pkgOf t) && decide (off < 2 ^ 39) &&
      decide (off / 2 ^ 36 = regionOf t) then some a else none
  | none => none

/-- R113: what TRKSET makes of a tracker; none: a transition that the table does not list. -/
def Tracker.set (k new : Tracker) : Option Tracker :=
  match k.st with
  | .free => some { new with st := if new.act = 0 then .counting else .armed, count := 0 }
  | .counting =>
    if new.act ≠ 0 && k.base = new.base && k.len = new.len then some { new with st := .armed, count := k.count } else none
  | _ => none

/-- Tracker number of TRKSET and TRKCLR. -/
def trackerNum (f : CF) : Nat := (bits (f.b ++ f.p5) 0 6 : BitVec 6).toNat

/-- TRKSET (R294). -/
def execTrkset (f : CF) (s : State) : Host.Outcome State Fault Refusal :=
  finish (do
    let p ← rs f.a
    need (spaceOf p = 0) cSPACE p
    need (decide (addrOf p % 64 = 0)) cALIGN p
    afterStores p 64
    let v ← loadNow p (addrOf p) 64
    let (da, _) ← locateM p (addrOf p) .load
    if !trackerDescOk v then ws f.d 3
    else
      let (pa, page) ← trackerBase (dword v 0)
      let act := (bits (dword v 3) 60 4).toNat
      let bar ← if act = 2 then trackerBar (dword v 4) else pure 0
      let s ← get
      let len := (bits (dword v 1) 0 40).toNat
      match s.rangeAt s.cur pa page len with
      | none => ws f.d 2
      | some range =>
        let a ← armer
        let n := trackerNum f
        let cl := clusterOf s.cur
        let dev := pkgOf s.cur
        let new : Tracker := ⟨.free, range, len, (bits (dword v 2) 0 40).toNat, 0, act, (bits (dword v 3) 32 12).toNat,
          (bits (dword v 3) 0 12).toNat, dword v 4, dword v 5, bar, BitVec.ofNat 64 da, a⟩
        match ((s.dev dev).cluster cl).tracker n |>.set new with
        | none => ws f.d 1
        | some k =>
          direct
          upd fun s =>
            let s := s.modTracker dev cl n fun _ => k
            if k.st = .armed && k.thresh ≤ k.count then s.fireTracker dev cl n else s
          ws f.d 0) s

/-- TRKCLR (R295): a held start of the tracker is cancelled. -/
def execTrkclr (f : CF) (s : State) : Host.Outcome State Fault Refusal :=
  finish (do
    let s ← get
    let n := trackerNum f
    let cl := clusterOf s.cur
    let dev := pkgOf s.cur
    if (((s.dev dev).cluster cl).tracker n).st = .free then ws f.d 1
    else
      direct
      upd fun s =>
        let s := s.modTracker dev cl n fun _ => Tracker.reset
        let keep := fun (h : HeldStart) => !(h.cluster = cl && h.tracker = n)
        { s with tiles := s.tiles.map fun e =>
            if pkgOf e.1 ≠ dev then e
            else (e.1, { e.2 with
              held := e.2.held.filter keep, parked := e.2.parked.map fun q => { q with held := q.held.filter keep } }) }
      ws f.d 0) s

/-- TRACKER_REPORT: a home's report of granted bytes of a line reaches the trackers of a cluster (R113). -/
def execTrackerReport (cl gl : Nat) (mask : ByteMask) (s : State) : Host.Outcome State Fault Refusal :=
  happen (fun s =>
    let p := pkgOfGl gl
    ((s.dev p).cluster cl).trackers.foldl (fun s k => s.countBytes p cl k.1 gl mask) s) s

/-- TRACKER_HELD_START: a held CHAIN start takes its channel when that does not run (R113). -/
def execTrackerHeldStart (t ch : Nat) (s : State) : Host.Outcome State Fault Refusal :=
  happen (fun s =>
    let x := s.tile t
    if (x.chan ch).st = .running || x.save.isSome then s
    else match x.held.find? fun h => h.chan = ch with
      | none => s
      | some h =>
        let s := s.modTile t fun x => { x with held := x.held.erase h }
        (s.startWalk t ch h.head h.armer).markFired (((s.dev (pkgOf t)).cluster h.cluster).tracker h.tracker).desc.toNat 0) s

end Sys2Proof.Machine
end

