-- ==== Sys2Proof/Machine/Trapping.lean ====
section
/-! DEFINITION. Traps by instruction and by event: ECALL, BRK and ERET (R312, R343), the trap of an undefined encoding (R207),
HELPERTRAP (R344) and a trap of the matrix engine (R160); and the pairing of vector stores (R139). -/
namespace Sys2Proof.Machine

/-- ECALL n (R312). -/
def execEcall (f : CF) (s : State) : Host.Outcome State Fault Refusal := finish (trap cECALL (zext f.p5)) s

/-- BRK n (R312). -/
def execBrk (f : CF) (s : State) : Host.Outcome State Fault Refusal := finish (trap cBRK (zext f.p5)) s

/-- The engine goes on with the held command at PIX.INDEX (R160, R343): an index at or above its count ends it. -/
def Engine.resume (e : Engine) (index : Nat) : Engine :=
  match e.queue with
  | c :: rest => { e with queue := { c with step := index } :: rest, stopped := false }
  | [] => { e with stopped := false }

/-- ERET (R343): a release and an acquire; a held matrix command goes on at PIX.INDEX. It restarts a stopped engine, and so does not wait for the
MSTOREs that stand there (R160). -/
def execEret (_ : CF) (s : State) : Host.Outcome State Fault Refusal :=
  finish (do
    supervisor
    releaseAfter fun s => s.grantsOpen || (s.mstoresOpen && !(s.tile s.cur).engine.stopped)
    flash
    let k ← getC
    if k.mx && s.cid = 0 then modT fun x => { x with engine := x.engine.resume k.pixIndex.toNat }
    modC Ctx.eret) s

/-- What TRAPVAL holds for an undefined encoding: the refused type of an A-word, else the unit image (R203, R207). -/
def encodingVal (u : Word) (compute : Bool) : Word :=
  if compute && !u.getLsbD 31 && !(unitX u && (decodeC (bits u 0 32)).isNone) then
    match typeRefused (bits u 32 32) with
    | some t => zext t
    | none => u
  else u

/-- R207: an encoding that no table defines traps ILLEGAL when its stream issues it. -/
def execReservedEncoding (u : Word) (compute : Bool) (s : State) : Host.Outcome State Fault Refusal :=
  finish (do
    upd fun s => { s with compute := compute }
    trapKeep cILLEGAL (encodingVal u compute)) s

/-- TRAPVAL of HELPERTRAP (R344). -/
def Post.val (p : Post) : Word := zext (p.pc ++ p.cause ++ BitVec.ofNat 4 p.cid)

/-- A gather or scatter has begun and is not done, so the context is at no unit boundary (R160, R344). -/
def Ctx.midLong (k : Ctx) : Bool := k.pixK && k.kept.any fun g => g.unit = unitAddr k.upc

/-- R344: the control context takes the oldest post of its tile's helpers, unless TIP holds it. -/
def execHelpertrap (t : Nat) (s : State) : Host.Outcome State Fault Refusal :=
  happen (fun s =>
    match (s.tile t).posts with
    | p :: rest =>
      if (s.ctxAt t 0).tip || !mhas (s.tile t).ctxs 0 || (s.ctxAt t 0).midLong then s
      else (s.modTile t fun x => { x with posts := rest }).takeOuterTrap t false cHELPERTRAP p.val none
    | [] => s) s

/-- R160: the control context takes the trap that the matrix engine holds, unless TIP holds it. -/
def execMatrixTrap (t : Nat) (s : State) : Host.Outcome State Fault Refusal :=
  happen (fun s =>
    match (s.tile t).engine.trap with
    | some m =>
      if (s.ctxAt t 0).tip || !mhas (s.tile t).ctxs 0 || (s.ctxAt t 0).midLong then s
      else (s.modTile t fun x => { x with engine := { x.engine with trap := none } }).takeOuterTrap t true m.code m.val (some m.index)
    | none => s) s

/-- R139: the oldest complete pair of a context is performed as a store. -/
def execVstorePair (t c : Nat) (s : State) : Host.Outcome State Fault Refusal := finish (within t c performPair) s

end Sys2Proof.Machine
end

