-- ==== Sys2Proof/Machine/Vector.lean ====
section
/-! DEFINITION. Element-wise A-words: integer and bitwise operations (R251), floating-point arithmetic (R252, R253), special
functions (R254) and conversions (R255, R204). -/
namespace Sys2Proof.Machine

/-! ## Shared operations -/

/-- Two operands to a result, element by element, with no flag. -/
def ints (f : AW) (lat : Nat) (op : Nat → Nat → Nat) : M Unit := do
  let (x, y, m) ← operands f true none
  let w := elemWidth f.t
  writeDest f.t f.d lat (pack w (List.zipWith op (elems w x) (elems w y))) m

/-- One operand to a result, element by element, with no flag. -/
def ints1 (f : AW) (lat : Nat) (op : Nat → Nat) : M Unit := do
  let (x, _, m) ← operands f false none
  let w := elemWidth f.t
  writeDest f.t f.d lat (pack w ((elems w x).map op)) m

/-- Elements with the flags of each: the flags of the active ones are raised. -/
def withFlags (w : Nat) (m : Word) (l : List (Nat × BitVec 11)) : M (List Nat) := do
  raise ((l.zip (List.range l.length)).foldl (fun acc e => if activeBit w m e.2 then acc ||| e.1.2 else acc) 0)
  pure (l.map fun e => e.1)

/-- The dynamic rounding mode (R55). -/
def frm : M Nat := do
  let k ← getC
  pure k.frm.toNat

/-- Two floating operands, the exact result rounded once under FRM (R252). -/
def floats (f : AW) (op : Nat → FV → FV → FV × BitVec 11) : M Unit := do
  let (x, y, m) ← operands f true none
  let mode ← frm
  let w := elemWidth f.t
  let fm := fmtOfType f.t
  let r ← withFlags w m (List.zipWith (fun a b =>
    let (v, fl) := op mode (fm.decode a) (fm.decode b)
    let (c, g) := fm.round mode .arith v
    (c, fl ||| g)) (elems w x) (elems w y))
  writeDest f.t f.d 4 (pack w r) m

/-- The code of an accumulating destination: the old vN, or q0 (R253, R266). -/
def accCode (d : BitVec 6) : BitVec 6 := if isV d then d else 0

/-- The smaller or larger of two integer elements of a type. -/
def pick2 (t : BitVec 3) (larger : Bool) (a b : Nat) : Nat :=
  if (elemInt t a < elemInt t b) = larger then b else a

/-- Clamp to the range of a type (R251). -/
def clampTo (t : BitVec 3) (x : Int) : Nat :=
  let w := elemWidth t
  let lo : Int := if isSigned t then -(2 ^ (w - 1)) else 0
  let hi : Int := if isSigned t then 2 ^ (w - 1) - 1 else 2 ^ w - 1
  wrap w (if x < lo then lo else if hi < x then hi else x)

/-- An element read as two's complement of its width, whatever its type. -/
def asSigned (w x : Nat) : Int := if 2 ^ (w - 1) ≤ x then (x : Int) - 2 ^ w else x

/-- The smaller or larger of two floating elements (R252): canonical NaN if either is NaN, -0 below +0. -/
def floatPick (fm : Fmt) (larger : Bool) (a b : Nat) : Nat :=
  let x := fm.decode a
  let y := fm.decode b
  if x.isNan || y.isNan then fm.nan
  else
    let less := x.cmp y = .lt || (x.cmp y = .eq && x.sign && !y.sign)
    if less = larger then b else a

/-! ## Integer and bitwise operations (R251) -/

def execVadd (f : AW) (s : State) : Host.Outcome State Fault Refusal := finish (ints f 2 fun a b => a + b) s
def execVsub (f : AW) (s : State) : Host.Outcome State Fault Refusal :=
  finish (ints f 2 fun a b => a + 2 ^ elemWidth f.t - b) s
def execVmul (f : AW) (s : State) : Host.Outcome State Fault Refusal := finish (ints f 2 fun a b => a * b) s
def execVmulh (f : AW) (s : State) : Host.Outcome State Fault Refusal :=
  finish (ints f 2 fun a b => wrap (elemWidth f.t) (elemInt f.t a * elemInt f.t b / 2 ^ elemWidth f.t)) s
def execVmin (f : AW) (s : State) : Host.Outcome State Fault Refusal := finish (ints f 2 (pick2 f.t false)) s
def execVmax (f : AW) (s : State) : Host.Outcome State Fault Refusal := finish (ints f 2 (pick2 f.t true)) s
def execVand (f : AW) (s : State) : Host.Outcome State Fault Refusal := finish (ints f 2 fun a b => a &&& b) s
def execVor (f : AW) (s : State) : Host.Outcome State Fault Refusal := finish (ints f 2 fun a b => a ||| b) s
def execVxor (f : AW) (s : State) : Host.Outcome State Fault Refusal := finish (ints f 2 fun a b => a ^^^ b) s
def execVandn (f : AW) (s : State) : Host.Outcome State Fault Refusal :=
  finish (ints f 2 fun a b => a &&& (2 ^ elemWidth f.t - 1 - b)) s
def execVshl (f : AW) (s : State) : Host.Outcome State Fault Refusal :=
  finish (ints f 2 fun a b => a * 2 ^ (b % elemWidth f.t)) s
def execVshr (f : AW) (s : State) : Host.Outcome State Fault Refusal :=
  finish (ints f 2 fun a b => a / 2 ^ (b % elemWidth f.t)) s
def execVsar (f : AW) (s : State) : Host.Outcome State Fault Refusal :=
  finish (ints f 2 fun a b => wrap (elemWidth f.t) (asSigned (elemWidth f.t) a / 2 ^ (b % elemWidth f.t))) s
/-- The most negative integer is returned unchanged; a NaN gives the canonical NaN. -/
def execVabs (f : AW) (s : State) : Host.Outcome State Fault Refusal :=
  finish (ints1 f 2 fun a =>
    let w := elemWidth f.t
    if isFloat f.t then
      let fm := fmtOfType f.t
      if (fm.decode a).isNan then fm.nan else a % 2 ^ (w - 1)
    else (asSigned w a).natAbs) s
def execVclz (f : AW) (s : State) : Host.Outcome State Fault Refusal :=
  finish (ints1 f 2 fun a => if a = 0 then elemWidth f.t else elemWidth f.t - 1 - Nat.log2 a) s
def execVpopc (f : AW) (s : State) : Host.Outcome State Fault Refusal :=
  finish (ints1 f 2 fun a => popCount (BitVec.ofNat (elemWidth f.t) a)) s
def execVadds (f : AW) (s : State) : Host.Outcome State Fault Refusal :=
  finish (ints f 2 fun a b => clampTo f.t (elemInt f.t a + elemInt f.t b)) s
def execVsubs (f : AW) (s : State) : Host.Outcome State Fault Refusal :=
  finish (ints f 2 fun a b => clampTo f.t (elemInt f.t a - elemInt f.t b)) s

/-- R200: an empty A-word that counts as an issue. -/
def execAnop (_ : BitVec 3) (s : State) : Host.Outcome State Fault Refusal := finish (pure ()) s

/-! ## Floating-point arithmetic (R252, R253) -/

def execVfadd (f : AW) (s : State) : Host.Outcome State Fault Refusal := finish (floats f fun mode a b => a.add mode b) s
def execVfsub (f : AW) (s : State) : Host.Outcome State Fault Refusal := finish (floats f fun mode a b => a.add mode b.neg) s
def execVfmul (f : AW) (s : State) : Host.Outcome State Fault Refusal := finish (floats f fun _ a b => a.mul b) s
def execVfmin (f : AW) (s : State) : Host.Outcome State Fault Refusal :=
  finish (ints f 4 (floatPick (fmtOfType f.t) false)) s
def execVfmax (f : AW) (s : State) : Host.Outcome State Fault Refusal :=
  finish (ints f 4 (floatPick (fmtOfType f.t) true)) s

/-- R253. -/
def execVfma (f : AW) (s : State) : Host.Outcome State Fault Refusal :=
  finish (do
    let acc ← readSrc f.t (accCode f.d)
    let (x, y, m) ← operands f true (some (accCode f.d))
    let mode ← frm
    let w := elemWidth f.t
    let fm := fmtOfType f.t
    let r ← withFlags w m (List.zipWith (fun (p : Nat × Nat) c =>
      let (v, fl) := FV.fma mode (fm.decode p.1) (fm.decode p.2) (fm.decode c)
      let (o, g) := fm.round mode .arith v
      (o, fl ||| g)) ((elems w x).zip (elems w y)) (elems w acc))
    writeDest f.t f.d 4 (pack w r) m) s

/-! ## Special functions (R148, R254) -/

/-- The unit is free, then occupied for 4 cycles by the A-word, as R148 and R254 say; R66 words it as 4 cycles per 16 lanes (log entry 66). -/
def special (f : AW) (op : FV → Nat × BitVec 11) : M Unit := do
  upd fun s => s.issueAt (s.tile s.cur).sfuBusy
  let (x, _, m) ← operands f false none
  upd fun s => s.modTile s.cur fun t => { t with sfuBusy := s.now + 4 }
  let r ← withFlags 32 m ((elems 32 x).map fun a => op (f32.decode a))
  writeDest f.t f.d 8 (pack 32 r) m

def execVrcp (f : AW) (s : State) : Host.Outcome State Fault Refusal := finish (special f rcpCr) s
def execVrsq (f : AW) (s : State) : Host.Outcome State Fault Refusal := finish (special f rsqCr) s
def execVexp2 (f : AW) (s : State) : Host.Outcome State Fault Refusal := finish (special f exp2Cr) s
def execVlog2 (f : AW) (s : State) : Host.Outcome State Fault Refusal := finish (special f log2Cr) s
def execVsqrt (f : AW) (s : State) : Host.Outcome State Fault Refusal := finish (special f sqrtCr) s

/-! ## Conversions (R204, R255) -/

/-- The bounds of an integer type. -/
def intBounds (t : BitVec 3) : Int × Int :=
  let w := elemWidth t
  if isSigned t then (-(2 ^ (w - 1)), 2 ^ (w - 1) - 1) else (0, 2 ^ w - 1)

/-- One element from type t to type u (R255). -/
def convertElem (t u : BitVec 3) (mode : Nat) (pol : Policy) (a : Nat) : Nat × BitVec 11 :=
  let (lo, hi) := intBounds u
  let w := elemWidth u
  if isFloat t then
    let v := (fmtOfType t).decode a
    if isFloat u then
      if u = 2 then (f32.round mode .arith v).map id (fun _ => 0) else (fmtOfType u).round mode pol v
    else
      let (x, fl) := FV.toInt mode (pol = .trap) lo hi v
      (wrap w x, fl)
  else
    let x := elemInt t a
    if isFloat u then (fmtOfType u).round mode pol (FV.ofInt x)
    else if x < lo then (wrap w lo, fNV ||| flagIf (pol = .trap) fCV)
    else if hi < x then (wrap w hi, fNV ||| flagIf (pol = .trap) fCV)
    else (wrap w x, 0)

/-- The rounding mode that B[0] of a conversion selects. -/
def convMode (b : BitVec 6) : M Nat := do if b.getLsbD 0 then frm else pure 0

/-- R255: elements below both counts are converted; the mask governs the destination's lanes. -/
def execVcvt (f : AW) (s : State) : Host.Outcome State Fault Refusal :=
  finish (do
    let (x, _, m) ← operands f false none
    let mode ← convMode f.b
    let u := f.dt
    let n := min (2048 / elemWidth f.t) (2048 / elemWidth u)
    let r ← withFlags (elemWidth u) m
      (((elems (elemWidth f.t) x).take n).map (convertElem f.t u mode (policyOf (bits f.b 1 2).toNat)))
    writeDest u f.d 3 (pack (elemWidth u) r) m) s

/-- The narrow formats by number: e4m3, e5m2, e2m1, e3m5. -/
def narrowFmt : Nat → Fmt
  | 0 => e4m3
  | 1 => e5m2
  | 2 => e2m1
  | _ => e3m5

/-- An element down to a narrow format (R204, R59). -/
def toNarrow (n mode : Nat) (pol : Policy) (v : FV) : Nat × BitVec 11 :=
  if n = 3 then toE3m5 mode pol v else (narrowFmt n).round mode pol v

/-- A narrow element up to f32, exactly (R58). -/
def fromNarrow (n c : Nat) : Nat := (f32.round 0 .arith (if n = 3 then scaleVal c else (narrowFmt n).decode c)).1

/-- R204: the escape to the narrow formats, unmasked; e2m1 needs its feature (R378). -/
def execVcvtNarrow (f : AW) (s : State) : Host.Outcome State Fault Refusal :=
  finish (do
    let n := f.k.toNat
    let s0 ← get
    need (n ≠ 2 || (s0.dev (pkgOf s0.cur)).featAck.getLsbD 1) cILLEGAL (← unitImage)
    let (x, _, _) ← operands { f with k := 0 } false none
    let mode ← convMode f.b
    let all : Word := BitVec.allOnes 64
    let w := if n = 2 then 4 else 8
    if f.t = 6 then
      writeDest 2 f.d 3 (pack 32 (((elems w x).take 64).map (fromNarrow n))) all
    else
      let r ← withFlags (elemWidth f.t) all ((elems (elemWidth f.t) x).map fun a =>
        toNarrow n mode (policyOf (bits f.b 1 2).toNat) ((fmtOfType f.t).decode a))
      writeDest 2 f.d 3 (pack w r) all) s

end Sys2Proof.Machine
end

