-- ==== Sys2Proof/Machine/VectorMask.lean ====
section
/-! DEFINITION. Mask producers and mask operations (R256 to R258), reductions, scans and ranks (R259 to R261), lane moves (R262,
R263), hash, partition and generator (R149, R264), and the triple merge (R265, R266). -/
namespace Sys2Proof.Machine

/-! ## Compares (R256) -/

/-- The relation of two elements of a type; none when a NaN is among them. -/
def orderOf (t : BitVec 3) (a b : Nat) : Option Ordering :=
  if isFloat t then
    let x := (fmtOfType t).decode a
    let y := (fmtOfType t).decode b
    if x.isNan || y.isNan then none else some (x.cmp y)
  else some (compare (elemInt t a) (elemInt t b))

/-- Bit i of a produced mask: a predicate holds for every element of lane i. -/
def laneMask (w : Nat) (l : List Bool) : Word :=
  let per := if w = 64 then 1 else 32 / w
  BitVec.ofNat 64 ((List.range (l.length / per)).foldl (fun acc i =>
    if ((l.drop (per * i)).take per).all id then acc + 2 ^ i else acc) 0)

/-- A compare: a mask of the lanes in which the relation holds. -/
def compareLanes (f : AW) (rel : Option Ordering → Bool) : M Unit := do
  let (x, y, m) ← operands f true none
  let w := elemWidth f.t
  writeMask f.t f.d 2 (laneMask w (List.zipWith (fun a b => rel (orderOf f.t a b)) (elems w x) (elems w y))) m

def execVceq (f : AW) (s : State) : Host.Outcome State Fault Refusal := finish (compareLanes f (· == some .eq)) s
def execVcne (f : AW) (s : State) : Host.Outcome State Fault Refusal := finish (compareLanes f (· != some .eq)) s
def execVclt (f : AW) (s : State) : Host.Outcome State Fault Refusal := finish (compareLanes f (· == some .lt)) s
def execVcle (f : AW) (s : State) : Host.Outcome State Fault Refusal :=
  finish (compareLanes f fun o => o == some .lt || o == some .eq) s

/-! ## Select and masks (R257, R258) -/

/-- Every lane is written: A where the selector is 1, B elsewhere. -/
def execVsel (f : AW) (s : State) : Host.Outcome State Fault Refusal :=
  finish (do
    let (x, y, m) ← operands f true none
    writeDest f.t f.d 2 (blend (activeBits (elemWidth f.t) m) y x) (BitVec.allOnes 64)) s

def execVmkmask (f : AW) (s : State) : Host.Outcome State Fault Refusal :=
  finish (do
    let (x, _, m) ← operands f false none
    let w := elemWidth f.t
    writeMask f.t f.d 2 (laneMask w ((elems w x).map fun a => a ≠ 0)) m) s

/-- A mask named as an operand by codes 56 to 59 (R203). -/
def maskOperand (field : Nat) (c : BitVec 6) : M Word := do
  checkMask field (c.toNat - 56)
  let s ← get
  pure (s.maskVal (c.toNat - 56))

/-- A mask-to-mask operation (R258). -/
def maskOp (f : AW) (op : Word → Word → Word) : M Unit := do
  let x ← maskOperand 0 f.a
  let y ← maskOperand 1 f.b
  writeMask 0 f.d 2 (op x y) (BitVec.allOnes 64)

def execKand (f : AW) (s : State) : Host.Outcome State Fault Refusal := finish (maskOp f fun a b => a &&& b) s
def execKor (f : AW) (s : State) : Host.Outcome State Fault Refusal := finish (maskOp f fun a b => a ||| b) s
def execKxor (f : AW) (s : State) : Host.Outcome State Fault Refusal := finish (maskOp f fun a b => a ^^^ b) s
def execKandn (f : AW) (s : State) : Host.Outcome State Fault Refusal := finish (maskOp f fun a b => a &&& ~~~b) s
def execKnot (f : AW) (s : State) : Host.Outcome State Fault Refusal :=
  finish (do
    let x ← maskOperand 0 f.a
    writeMask 0 f.d 2 (~~~x) (BitVec.allOnes 64)) s
def execKpopc (f : AW) (s : State) : Host.Outcome State Fault Refusal :=
  finish (do
    inRange [f.d]
    let x ← maskOperand 0 f.a
    writeDest 1 f.d 2 (pack 32 (List.replicate 64 (popCount x))) (BitVec.allOnes 64)) s

/-! ## Reductions, scans and ranks (R67, R259 to R261) -/

/-- Neighbouring elements combined, with the flags raised. -/
def pairUp (op : Nat → Nat → Nat × BitVec 11) : List Nat → List Nat × BitVec 11
  | a :: b :: rest =>
    let (c, f) := op a b
    let (cs, g) := pairUp op rest
    (c :: cs, f ||| g)
  | l => (l, 0)

/-- The levels of the tree of R67 from the elements up, with the flags raised: level j holds the blocks of 2^j elements. -/
def treeLevels (op : Nat → Nat → Nat × BitVec 11) : Nat → List Nat → List (List Nat) × BitVec 11
  | 0, l => ([l], 0)
  | n + 1, l =>
    let (up, f) := pairUp op l
    let (ls, g) := treeLevels op n up
    (l :: ls, f ||| g)

/-- The root and its flags. -/
def tree (op : Nat → Nat → Nat × BitVec 11) (l : List Nat) : Nat × BitVec 11 :=
  let (ls, f) := treeLevels op (Nat.log2 l.length) l
  ((ls.getLastD []).headD 0, f)

/-- Addition of two elements of a type under a rounding mode. -/
def addElem (t : BitVec 3) (mode a b : Nat) : Nat × BitVec 11 :=
  if isFloat t then
    let fm := fmtOfType t
    let (v, f) := (fm.decode a).add mode (fm.decode b)
    let (c, g) := fm.round mode .arith v
    (c, f ||| g)
  else ((a + b) % 2 ^ elemWidth t, 0)

/-- The larger or smaller of two elements of a type. -/
def pickElem (t : BitVec 3) (larger : Bool) (a b : Nat) : Nat × BitVec 11 :=
  if isFloat t then
    let fm := fmtOfType t
    let x := fm.decode a
    let y := fm.decode b
    if x.isNan || y.isNan then (fm.nan, 0)
    else
      let less := x.cmp y = .lt || (x.cmp y = .eq && x.sign && !y.sign)
      (if less = larger then b else a, 0)
  else (if (elemInt t a < elemInt t b) = larger then b else a, 0)

/-- The identity of a sum (R259). -/
def sumIdentity (t : BitVec 3) (mode : Nat) : Nat := if isFloat t && mode ≠ 2 then 2 ^ (elemWidth t - 1) else 0
/-- The identity of a maximum or minimum. -/
def pickIdentity (t : BitVec 3) (larger : Bool) : Nat :=
  let w := elemWidth t
  if isFloat t then (fmtOfType t).overflow 0 .inf larger
  else if isSigned t then (if larger then 2 ^ (w - 1) else 2 ^ (w - 1) - 1)
  else if larger then 0 else 2 ^ w - 1

/-- Elements, with the identity where a lane is inactive. -/
def masked (w : Nat) (m : Word) (ident : Nat) (x : Vec) : List Nat :=
  ((elems w x).zip (List.range (2048 / w))).map fun e => if activeBit w m e.2 then e.1 else ident

/-- A reduction, written to every element whatever the mask. -/
def reduceLanes (f : AW) (ident : Nat → Nat) (op : Nat → Nat → Nat → Nat × BitVec 11) : M Unit := do
  let (x, _, m) ← operands f false none
  let k ← getC
  let mode := k.frm.toNat
  let w := elemWidth f.t
  let (r, fl) := tree (op mode) (masked w m (ident mode) x)
  raise fl
  writeDest f.t f.d 6 (pack w (List.replicate (2048 / w) r)) (BitVec.allOnes 64)

def execVrsum (f : AW) (s : State) : Host.Outcome State Fault Refusal :=
  finish (reduceLanes f (sumIdentity f.t) (addElem f.t)) s
def execVrmax (f : AW) (s : State) : Host.Outcome State Fault Refusal :=
  finish (reduceLanes f (fun _ => pickIdentity f.t true) fun _ => pickElem f.t true) s
def execVrmin (f : AW) (s : State) : Host.Outcome State Fault Refusal :=
  finish (reduceLanes f (fun _ => pickIdentity f.t false) fun _ => pickElem f.t false) s

/-- The prefix that ends with element k - 1 (R260): the aligned blocks of the bits of k, from the highest down. Element 0 of the result is x[0] as it
stands, as R260's text has it, and a NaN in it is not made canonical (log entry 80). -/
def scanAt (op : Nat → Nat → Nat × BitVec 11) (levels : List (List Nat)) (k : Nat) :
    Nat → Nat → Option Nat → BitVec 11 → Nat × BitVec 11
  | 0, _, acc, f => (acc.getD 0, f)
  | j + 1, b, acc, f =>
    if k.testBit j then
      let t := (levels.getD j []).getD (b / 2 ^ j) 0
      match acc with
      | none => scanAt op levels k j (b + 2 ^ j) (some t) f
      | some a => let (c, g) := op a t; scanAt op levels k j (b + 2 ^ j) (some c) (f ||| g)
    else scanAt op levels k j b acc f

/-- Inclusive prefix sums from the nodes of the tree. -/
def execVscan (f : AW) (s : State) : Host.Outcome State Fault Refusal :=
  finish (do
    let (x, _, m) ← operands f false none
    let k ← getC
    let mode := k.frm.toNat
    let w := elemWidth f.t
    let n := 2048 / w
    let op := addElem f.t mode
    let (levels, fl) := treeLevels op (Nat.log2 n) (masked w m (sumIdentity f.t mode) x)
    let r := (List.range n).map fun i => scanAt op levels (i + 1) (Nat.log2 n + 1) 0 none 0
    raise (r.foldl (fun acc e => acc ||| e.2) fl)
    writeDest f.t f.d 6 (pack w (r.map fun e => e.1)) (BitVec.allOnes 64)) s

/-- A key of the order of R261: f32 in total order with every NaN equal and above all else. -/
def rankKey (t : BitVec 3) (a : Nat) : Int :=
  if t = 2 then
    if (f32.decode a).isNan then 2 ^ 32
    else if a < 2 ^ 31 then a else -((a : Int) - 2 ^ 31) - 1
  else elemInt t a

/-- R261. -/
def execVrank (f : AW) (s : State) : Host.Outcome State Fault Refusal :=
  finish (do
    let (x, _, m) ← operands f false none
    let w := elemWidth f.t
    let keys := ((elems w x).map (rankKey f.t)).zip (List.range (2048 / w))
    let live := keys.filter fun e => activeBit w m e.2
    let r := keys.map fun e => (live.filter fun o => o.1 < e.1 || (o.1 = e.1 && decide (o.2 < e.2))).length
    writeDest f.t f.d 6 (pack w r) m) s

/-! ## Moving lanes (R262, R263) -/

/-- Width of a moved lane. -/
def laneWidth (t : BitVec 3) : Nat := if t = 7 then 64 else 32

/-- A move of lanes of A by lanes of B: from says which lane of A lane i of the result is. -/
def moveLanes (f : AW) (src : List Nat → Nat → Nat → Nat) : M Unit := do
  let (x, y, m) ← operands f true none
  let w := laneWidth f.t
  let n := 2048 / w
  let a := elems w x
  let b := elems w y
  writeDest f.t f.d 3 (pack w ((List.range n).map fun i => a.getD (src b n i % n) 0)) m

def execVshuf (f : AW) (s : State) : Host.Outcome State Fault Refusal := finish (moveLanes f fun b _ i => b.getD i 0) s
def execVrotl (f : AW) (s : State) : Host.Outcome State Fault Refusal :=
  finish (moveLanes f fun b n i => i + n - b.headD 0 % n) s
def execVbcast (f : AW) (s : State) : Host.Outcome State Fault Refusal := finish (moveLanes f fun b _ _ => b.headD 0) s

/-- The selected lanes, then +0; every lane is written. -/
def execVcompr (f : AW) (s : State) : Host.Outcome State Fault Refusal :=
  finish (do
    let (x, _, m) ← operands f false none
    let w := laneWidth f.t
    let sel := ((elems w x).zip (List.range (2048 / w))).filter fun e => m.getLsbD e.2
    writeDest f.t f.d 3 (pack w (sel.map fun e => e.1)) (BitVec.allOnes 64)) s

/-- Consecutive lanes into the selected lanes; the others follow R249. -/
def execVexpnd (f : AW) (s : State) : Host.Outcome State Fault Refusal :=
  finish (do
    let (x, _, m) ← operands f false none
    let w := laneWidth f.t
    let a := elems w x
    let r := (List.range (2048 / w)).map fun i => a.getD ((List.range i).filter fun j => m.getLsbD j).length 0
    writeDest f.t f.d 3 (pack w r) m) s

/-! ## Hash, partition and generator (R149, R264) -/

def fmix64 (h : Nat) : Nat :=
  let h := h ^^^ (h / 2 ^ 33)
  let h := h * 0xFF51AFD7ED558CCD % 2 ^ 64
  let h := h ^^^ (h / 2 ^ 33)
  let h := h * 0xC4CEB9FE1A85EC53 % 2 ^ 64
  h ^^^ (h / 2 ^ 33)

/-- Two operands to a result, lane by lane with the lane's number. -/
def hashLanes (f : AW) (op : Nat → Nat → Nat → Nat) : M Unit := do
  let (x, y, m) ← operands f true none
  let w := elemWidth f.t
  writeDest f.t f.d 5 (pack w (List.zipWith (fun (p : Nat × Nat) i => op i p.1 p.2) ((elems w x).zip (elems w y))
    (List.range (2048 / w)))) m

def execVhash (f : AW) (s : State) : Host.Outcome State Fault Refusal :=
  finish (hashLanes f fun _ k seed => (if f.t = 7 then fmix64 k else fmix32 k) ^^^ seed) s
def execVpart (f : AW) (s : State) : Host.Outcome State Fault Refusal :=
  finish (hashLanes f fun _ h n => (if f.t = 7 then h / 2 ^ 32 else h) * (n % 2 ^ 32) / 2 ^ 32) s
def execVrng (f : AW) (s : State) : Host.Outcome State Fault Refusal :=
  finish (hashLanes f fun i k c => fmix32 (k ^^^ ((c + i) % 2 ^ 32))) s

/-! ## The triple merge (R265, R266) -/

/-- One row of a head merge: its four lanes and flags. -/
def headRow (l r : List Nat) : List Nat × BitVec 11 :=
  let (m, sum, c, f) := mergeHead (l.getD 0 0) (l.getD 1 0) (r.getD 0 0) (r.getD 1 0)
  ([m, sum, c, 0], f)

def execVtmrg (f : AW) (s : State) : Host.Outcome State Fault Refusal :=
  finish (do
    let (x, y, m) ← operands f true none
    let a := elems 32 x
    let b := elems 32 y
    let rows := (List.range 16).map fun r => headRow ((a.drop (4 * r)).take 4) ((b.drop (4 * r)).take 4)
    raise ((rows.zip (List.range 16)).foldl (fun acc e => if bits m (4 * e.2) 4 = (0 : BitVec 4) then acc else acc ||| e.1.2) 0)
    writeDest f.t f.d 4 (pack 32 (rows.flatMap fun e => e.1)) m) s

def execVtscl (f : AW) (s : State) : Host.Outcome State Fault Refusal :=
  finish (do
    let code : BitVec 6 := if isV f.d then f.d else 0
    let left ← readSrc f.t code
    let (x, y, m) ← operands f true (some code)
    let r := List.zipWith (fun (p : Nat × Nat) c => mergeElem p.1 p.2 c) ((elems 32 left).zip (elems 32 x)) (elems 32 y)
    raise ((r.zip (List.range 64)).foldl (fun acc e => if m.getLsbD e.2 then acc ||| e.1.2 else acc) 0)
    writeDest f.t f.d 4 (pack 32 (r.map fun e => e.1)) m) s

end Sys2Proof.Machine
end

