-- ==== Sys2Proof/Machine/VectorMemory.lean ====
section
/-! DEFINITION. Vector loads and stores (R268 to R270), gather and scatter with their stop and resume (R271 to R273). -/
namespace Sys2Proof.Machine

/-! ## VLD (R268) -/

/-- Bytes that scale the offset of a VLD, by size code (R193). -/
def vldWidth (sz : BitVec 3) : Nat :=
  match sz.toNat with
  | 0 => 256
  | 1 => 128
  | 2 => 64
  | 3 => 4
  | 4 => 8
  | _ => 64

/-- The format that .dec decodes, if FMT and BLOG name one (R34, R54, R268). -/
def decFmt (p : Word) : Option Fmt :=
  let b := blogOf p
  let blocks := b = 0 || (3 ≤ b && b ≤ 10)
  match fmtOf p with
  | 6 => if b = 0 then some f16 else none
  | 7 => if b = 0 then some bf16 else none
  | 9 => if blocks then some e4m3 else none
  | 10 => if blocks then some e5m2 else none
  | _ => none

/-- Bytes that a VLD reads. -/
def vldBytes (sz : BitVec 3) (p : Word) : Nat :=
  if sz = 6 then (match decFmt p with
    | some f => 64 * f.width / 8
    | none => 64) else vldWidth sz

/-- The entry that the bytes read make: n copies, or as they are. -/
def vldCopies (sz : BitVec 3) : Nat := if sz = 3 then 64 else if sz = 4 then 32 else 1

/-- n copies of a value of w bits. -/
def repeatNat (w : Nat) : Nat → Nat → Nat
  | 0, _ => 0
  | n + 1, v => v + 2 ^ w * repeatNat w n v

/-- An awaited piece appears in each copy of w bytes. -/
def Await.copies (a : Await) (n w : Nat) : List Await := (List.range n).map fun i => { a with pos := a.pos + w * i }

/-- An entry of a data queue is made. -/
def pushDq (dq : Nat) (e : DqEntry) : M Unit := modC fun k => { k with dqs := k.dqs.setIfInBounds dq (k.dqs.getD dq [] ++ [e]) }

/-- R268. -/
def execVld (f : CM) (s : State) : Host.Outcome State Fault Refusal :=
  finish (do
    let dq := (bits f.d 0 2).toNat
    let a ← rs f.a
    let k ← getC
    if 4 ≤ (k.dqs.getD dq []).length then wait
    let p ← padd a (f.off.toInt * vldWidth f.sz) a
    need (decide (spaceOf p ≤ 1)) cSPACE p
    need (f.sz ≠ 6 || (decFmt p).isSome) cBADGEOM p
    let n := vldBytes f.sz p
    need (decide (addrOf p % n = 0)) cALIGN p
    afterStores p n
    let (v, awaits) ←
      if spaceOf p = 1 then do
        let v ← loadLocal p (addrOf p) n
        pure (v, ([] : List Await))
      else loadGlobal p (addrOf p) n
    let c := vldCopies f.sz
    pushDq dq (DqEntry.convert {
      val := BitVec.ofNat 2048 (repeatNat (8 * n) c v), filled := true, awaits := awaits.flatMap fun a => a.copies c n
      dec := if f.sz = 6 then fmtOf p else 0, seq := k.useq })) s

/-! ## VSTA and VSTD (R269) -/

/-- Bytes of a VSTA. -/
def vstaWidth (sz : BitVec 3) : Nat := 256 / 2 ^ sz.toNat

/-- The probe of a store's lines: their global addresses and leaves, or the fault of the first check that one of them fails. -/
def probeStore (p : Word) (n : Nat) : M (List (Nat × Word)) := do
  let lines := pieces (addrOf p) n
  let addrs ← lines.mapM fun q => locateM p q.1 .store
  reachLines p true ((lines.zip addrs).map fun (q, a) => (a.1 / 128, spanWords q.2.1 q.2.2.1))
  pure addrs

/-- R269: the probe runs in the address stream. -/
def execVsta (f : CM) (s : State) : Host.Outcome State Fault Refusal :=
  finish (do
    let a ← rs f.a
    let k ← getC
    if 8 ≤ k.vsta.length then wait
    let n := vstaWidth f.sz
    let p ← padd a (f.off.toInt * n) a
    let sp := spaceOf p
    let s ← get
    need (sp = 0 || sp = 1 || (sp = 4 && s.takesAperture)) cSPACE p
    need (decide (addrOf p % n = 0)) cALIGN p
    let addrs ← if sp = 0 then probeStore p n else pure []
    if sp = 1 then
      let x ← getT
      need (x.pinnedSpan (addrOf p) n) cPAGE p
    let s ← get
    let inst ← if sp = 4 then engM p fun s' => s'.apertureCheck s.cur p n else pure 0
    modC fun k => { k with vsta := k.vsta ++ [⟨p, n, addrs, inst, k.useq⟩] }) s

/-- The mask of a store over 32-bit lanes: a 64-bit lane of x64 is two (R133, R269). -/
def storeLanes (t : BitVec 3) (m : Word) : Word := if elemWidth t = 64 then BitVec.ofNat 64 (spread 2 32 (bits m 0 32)) else m

/-- R269. -/
def execVstd (f : AW) (s : State) : Host.Outcome State Fault Refusal :=
  finish (do
    let k ← getC
    if 8 ≤ k.vstd.length then wait
    let (x, _, m) ← operands f false none
    modC fun k => { k with vstd := k.vstd ++ [⟨storeLanes f.t m, x, k.useq⟩] }) s

/-! ## Gather and scatter (R271 to R273) -/

/-- Fields of the lone unit. -/
def gatherIndex (f : LF) : BitVec 6 := bits f.f0 2 6
def gatherQueue (f : LF) : Nat := (bits f.f0 0 2).toNat
def gatherMask (f : LF) : Nat := (bits f.f1 6 2).toNat
def scatterData (f : LF) : BitVec 6 := bits f.f1 0 6

/-- The context stands at a long instruction that stopped, with its operands kept. -/
def Ctx.resumes (k : Ctx) : Bool :=
  match k.kept with
  | some g => k.pixK && g.unit = unitAddr k.upc
  | none => false

/-- The first entry of a queue that is not filled changes. -/
def changeOpen (f : DqEntry → DqEntry) : List DqEntry → List DqEntry
  | [] => []
  | e :: es => if e.filled then e :: changeOpen f es else f e :: es

/-- The entry that a gather is filling changes. -/
def modOpen (dq : Nat) (f : DqEntry → DqEntry) : M Unit :=
  modC fun k => { k with dqs := k.dqs.setIfInBounds dq (changeOpen f (k.dqs.getD dq [])) }

/-- A long instruction stops before lane i. -/
def State.stopAt (s : State) (i : Nat) : State := s.setCtx { s.ctx with pixK := true, pixIndex := BitVec.ofNat 16 i }

/-- Lanes i .. i + n - 1 in order; a trap or a wait stops before its lane, with what lower lanes did. -/
def lanesFrom (act : Nat → M Unit) : Nat → Nat → M Unit
  | 0, _ => pure ()
  | n + 1, i => fun s =>
    match act i s with
    | .ok (_, s1) => lanesFrom act n (i + 1) s1
    | .error (.trap c v) => .error (.trapLong c v i (s.stopAt i))
    | .error (.trapWith c v s1) => .error (.trapLong c v i (s1.stopAt i))
    | .error (.trapLong c v _ s1) => .error (.trapLong c v i (s1.stopAt i))
    | .error .wait => .error (.waitWith (s.stopAt i))
    | .error (.waitWith s1) => .error (.waitWith (s1.stopAt i))

/-- The operands of a long instruction: kept ones when it resumes, else read once and kept. srcs lists its source codes, dq
the queue it reserves. -/
def longOperands (srcs : List (BitVec 6)) (sel : Nat) (dq : Option Nat) : M (Vec × Vec × Nat) := do
  let k ← getC
  match (if k.resumes then k.kept else none) with
  | some g => pure (g.index, g.data, min k.pixIndex.toNat 64)
  | none =>
    inRange srcs
    modC fun k => { k with dqs := k.dqs.map fun q => q.filter fun e => e.filled || decide (k.useq ≤ e.seq) }
    let k ← getC
    match dq with
    | some d =>
      if srcs.any (fun c => c.toNat = 59 + d) && ((k.dqs.getD d []).head?.any fun e => !e.filled) then
        trap cILLEGAL (BitVec.ofNat 64 (0x100 + d))
    | none => pure ()
    awaitSources (match srcs with
      | [a, b] => if isMb a && a = b then [a] else srcs
      | _ => srcs)
    match srcs with
    | [a] => checkReady 0 a
    | [a, b] =>
      checkReady 0 a
      checkReady 1 b
    | _ => pure ()
    checkMask 3 sel
    let (x, y) ← match srcs with
      | [a] => do
        let x ← readSrc 1 a
        pure (x, (0 : Vec))
      | [a, b] => readTwo 1 a b
      | _ => pure (0, 0)
    modC fun k => { k with kept := some ⟨unitAddr k.upc, x, y⟩, pixK := false, pixIndex := 0 }
    pure (x, y, 0)

/-- The long instruction is complete. -/
def longDone : M Unit := modC fun k => { k with kept := none, pixK := false, pixIndex := 0 }

/-- Lane i of a vector of 32-bit lanes. -/
def lane32 (v : Vec) (i : Nat) : Nat := v.toNat / 2 ^ (32 * i) % 2 ^ 32

/-- The element that lane i names, its space and alignment checked. -/
def element (base : Word) (index : Vec) (i : Nat) : M Word := do
  let e ← padd base (4 * lane32 index i) base
  need (decide (spaceOf e ≤ 1)) cSPACE e
  need (decide (addrOf e % 4 = 0)) cALIGN e
  afterStores e 4
  pure e

/-- R271. -/
def execVgather (f : LF) (s : State) : Host.Outcome State Fault Refusal :=
  finish (do
    let base ← rs f.ra
    let (index, _, start) ← longOperands [gatherIndex f] (gatherMask f) (some (gatherQueue f))
    let s ← get
    let m := s.maskVal (gatherMask f)
    lanesFrom (fun i => do
      if m.getLsbD i then
        let e ← element base index i
        let (v, awaits) ←
          if spaceOf e = 1 then do
            let v ← loadLocal e (addrOf e) 4
            pure (v, ([] : List Await))
          else loadGlobal e (addrOf e) 4
        modOpen (gatherQueue f) fun d => { d with
          val := d.val ||| BitVec.ofNat 2048 (v * 2 ^ (32 * i))
          awaits := d.awaits ++ awaits.map fun a => { a with pos := a.pos + 4 * i } }) (64 - start) start
    modOpen (gatherQueue f) fun d => { d with filled := true }
    longDone) s

/-- R272. -/
def execVscatter (f : LF) (s : State) : Host.Outcome State Fault Refusal :=
  finish (do
    let base ← rs f.ra
    let (index, data, start) ← longOperands [gatherIndex f, scatterData f] (gatherMask f) none
    let s ← get
    let m := s.maskVal (gatherMask f)
    lanesFrom (fun i => do
      if m.getLsbD i then
        let e ← element base index i
        if spaceOf e = 1 then storeLocal e (addrOf e) 4 (lane32 data i)
        else storeGlobal e (addrOf e) 4 (lane32 data i)) (64 - start) start
    longDone) s

/-- The address stream passes the unit: a gather's entry is reserved at the tail of its queue (R271), unless it is there
already (R273). none: the queue is full. -/
def State.reserve (s : State) : Option State :=
  let k := s.ctx
  match decodeLone k.unit with
  | some (.vgather f) =>
    let q := k.dqs.getD (gatherQueue f) []
    if k.resumes && (q.any fun e => !e.filled) && k.backlog.all fun p => decide (p.pc ≠ k.upc) then some s
    else if 4 ≤ q.length then none
    else some (s.setCtx { k with dqs := k.dqs.setIfInBounds (gatherQueue f) (q ++ [⟨0, false, [], 0, k.useq⟩]) })
  | _ => some s

end Sys2Proof.Machine
end

