-- ==== Sys2Proof/Machine/Dispatch.lean ====
section
/-! DEFINITION. One arm per instruction and event: a direct call of its meaning. -/
namespace Sys2Proof.Machine

def exec (i : Instr) (s : State) : Host.Outcome State Fault Refusal :=
  match i with
  | .cnop => Sys2Proof.Machine.execCnop s
  | .add f => Sys2Proof.Machine.execAdd f s
  | .sub f => Sys2Proof.Machine.execSub f s
  | .and f => Sys2Proof.Machine.execAnd f s
  | .or f => Sys2Proof.Machine.execOr f s
  | .xor f => Sys2Proof.Machine.execXor f s
  | .andn f => Sys2Proof.Machine.execAndn f s
  | .shl f => Sys2Proof.Machine.execShl f s
  | .shr f => Sys2Proof.Machine.execShr f s
  | .sar f => Sys2Proof.Machine.execSar f s
  | .mul f => Sys2Proof.Machine.execMul f s
  | .mulh f => Sys2Proof.Machine.execMulh f s
  | .mulhu f => Sys2Proof.Machine.execMulhu f s
  | .div f => Sys2Proof.Machine.execDiv f s
  | .divu f => Sys2Proof.Machine.execDivu f s
  | .rem f => Sys2Proof.Machine.execRem f s
  | .remu f => Sys2Proof.Machine.execRemu f s
  | .min f => Sys2Proof.Machine.execMin f s
  | .max f => Sys2Proof.Machine.execMax f s
  | .minu f => Sys2Proof.Machine.execMinu f s
  | .maxu f => Sys2Proof.Machine.execMaxu f s
  | .slt f => Sys2Proof.Machine.execSlt f s
  | .sltu f => Sys2Proof.Machine.execSltu f s
  | .seq f => Sys2Proof.Machine.execSeq f s
  | .clz f => Sys2Proof.Machine.execClz f s
  | .ctz f => Sys2Proof.Machine.execCtz f s
  | .popc f => Sys2Proof.Machine.execPopc f s
  | .csel f => Sys2Proof.Machine.execCsel f s
  | .padd f => Sys2Proof.Machine.execPadd f s
  | .psub f => Sys2Proof.Machine.execPsub f s
  | .bfx f => Sys2Proof.Machine.execBfx f s
  | .addi f => Sys2Proof.Machine.execAddi f s
  | .andi f => Sys2Proof.Machine.execAndi f s
  | .ori f => Sys2Proof.Machine.execOri f s
  | .xori f => Sys2Proof.Machine.execXori f s
  | .slti f => Sys2Proof.Machine.execSlti f s
  | .sltiu f => Sys2Proof.Machine.execSltiu f s
  | .shli f => Sys2Proof.Machine.execShli f s
  | .shri f => Sys2Proof.Machine.execShri f s
  | .sari f => Sys2Proof.Machine.execSari f s
  | .paddi f => Sys2Proof.Machine.execPaddi f s
  | .ptag f => Sys2Proof.Machine.execPtag f s
  | .beq f => Sys2Proof.Machine.execBeq f s
  | .bne f => Sys2Proof.Machine.execBne f s
  | .blt f => Sys2Proof.Machine.execBlt f s
  | .bge f => Sys2Proof.Machine.execBge f s
  | .bltu f => Sys2Proof.Machine.execBltu f s
  | .bgeu f => Sys2Proof.Machine.execBgeu f s
  | .loop f => Sys2Proof.Machine.execLoop f s
  | .jr f => Sys2Proof.Machine.execJr f s
  | .ldl f => Sys2Proof.Machine.execLdl f s
  | .stl f => Sys2Proof.Machine.execStl f s
  | .ldg f => Sys2Proof.Machine.execLdg f s
  | .stg f => Sys2Proof.Machine.execStg f s
  | .ldacq f => Sys2Proof.Machine.execLdacq f s
  | .strel f => Sys2Proof.Machine.execStrel f s
  | .amoadd f => Sys2Proof.Machine.execAmoadd f s
  | .amoand f => Sys2Proof.Machine.execAmoand f s
  | .amoor f => Sys2Proof.Machine.execAmoor f s
  | .amoxor f => Sys2Proof.Machine.execAmoxor f s
  | .amomin f => Sys2Proof.Machine.execAmomin f s
  | .amomax f => Sys2Proof.Machine.execAmomax f s
  | .amominu f => Sys2Proof.Machine.execAmominu f s
  | .amomaxu f => Sys2Proof.Machine.execAmomaxu f s
  | .amoswp f => Sys2Proof.Machine.execAmoswp f s
  | .amocas f => Sys2Proof.Machine.execAmocas f s
  | .amofadd f => Sys2Proof.Machine.execAmofadd f s
  | .amofmax f => Sys2Proof.Machine.execAmofmax f s
  | .acq f => Sys2Proof.Machine.execAcq f s
  | .rel f => Sys2Proof.Machine.execRel f s
  | .fence f => Sys2Proof.Machine.execFence f s
  | .qwait f => Sys2Proof.Machine.execQwait f s
  | .mbw f => Sys2Proof.Machine.execMbw f s
  | .mbr f => Sys2Proof.Machine.execMbr f s
  | .mbtest f => Sys2Proof.Machine.execMbtest f s
  | .tfence mask => Sys2Proof.Machine.execTfence mask s
  | .binit f => Sys2Proof.Machine.execBinit f s
  | .bexpect f => Sys2Proof.Machine.execBexpect f s
  | .barrive f => Sys2Proof.Machine.execBarrive f s
  | .bwait f => Sys2Proof.Machine.execBwait f s
  | .btest f => Sys2Proof.Machine.execBtest f s
  | .bwany f => Sys2Proof.Machine.execBwany f s
  | .chtest f => Sys2Proof.Machine.execChtest f s
  | .chwait f => Sys2Proof.Machine.execChwait f s
  | .chclr f => Sys2Proof.Machine.execChclr f s
  | .lsalloc f => Sys2Proof.Machine.execLsalloc f s
  | .lsfree f => Sys2Proof.Machine.execLsfree f s
  | .pmint f => Sys2Proof.Machine.execPmint f s
  | .pdrop f => Sys2Proof.Machine.execPdrop f s
  | .pstat f => Sys2Proof.Machine.execPstat f s
  | .cpych f => Sys2Proof.Machine.execCpych f s
  | .cpystat f => Sys2Proof.Machine.execCpystat f s
  | .cpywait f => Sys2Proof.Machine.execCpywait f s
  | .cpykill f => Sys2Proof.Machine.execCpykill f s
  | .trkset f => Sys2Proof.Machine.execTrkset f s
  | .trkclr f => Sys2Proof.Machine.execTrkclr f s
  | .hstart f => Sys2Proof.Machine.execHstart f s
  | .hend f => Sys2Proof.Machine.execHend f s
  | .hjoin f => Sys2Proof.Machine.execHjoin f s
  | .hkill f => Sys2Proof.Machine.execHkill f s
  | .taskq f => Sys2Proof.Machine.execTaskq f s
  | .taskqLone f => Sys2Proof.Machine.execTaskqLone f s
  | .gfuse f => Sys2Proof.Machine.execGfuse f s
  | .gsplit f => Sys2Proof.Machine.execGsplit f s
  | .csign f => Sys2Proof.Machine.execCsign f s
  | .cstep f => Sys2Proof.Machine.execCstep f s
  | .cdiss f => Sys2Proof.Machine.execCdiss f s
  | .send f => Sys2Proof.Machine.execSend f s
  | .recv f => Sys2Proof.Machine.execRecv f s
  | .recvt f => Sys2Proof.Machine.execRecvt f s
  | .coll f => Sys2Proof.Machine.execColl f s
  | .collLone f => Sys2Proof.Machine.execCollLone f s
  | .cwait f => Sys2Proof.Machine.execCwait f s
  | .mbegin f => Sys2Proof.Machine.execMbegin f s
  | .mend f => Sys2Proof.Machine.execMend f s
  | .mzero f => Sys2Proof.Machine.execMzero f s
  | .msync f => Sys2Proof.Machine.execMsync f s
  | .mma f => Sys2Proof.Machine.execMma f s
  | .mldb f => Sys2Proof.Machine.execMldb f s
  | .mrot f => Sys2Proof.Machine.execMrot f s
  | .mstore f => Sys2Proof.Machine.execMstore f s
  | .mload f => Sys2Proof.Machine.execMload f s
  | .matrixKstep t => Sys2Proof.Machine.execMatrixKstep t s
  | .ringHandover t => Sys2Proof.Machine.execRingHandover t s
  | .matrixTrap t => Sys2Proof.Machine.execMatrixTrap t s
  | .ecall f => Sys2Proof.Machine.execEcall f s
  | .eret f => Sys2Proof.Machine.execEret f s
  | .sysr f => Sys2Proof.Machine.execSysr f s
  | .sysw f => Sys2Proof.Machine.execSysw f s
  | .waiti f => Sys2Proof.Machine.execWaiti f s
  | .yield f => Sys2Proof.Machine.execYield f s
  | .brk f => Sys2Proof.Machine.execBrk f s
  | .halt f => Sys2Proof.Machine.execHalt f s
  | .snap f => Sys2Proof.Machine.execSnap f s
  | .tlbinv f => Sys2Proof.Machine.execTlbinv f s
  | .resize f => Sys2Proof.Machine.execResize f s
  | .lineclr f => Sys2Proof.Machine.execLineclr f s
  | .cwb f => Sys2Proof.Machine.execCwb f s
  | .cinv f => Sys2Proof.Machine.execCinv f s
  | .ctxsave f => Sys2Proof.Machine.execCtxsave f s
  | .ctxload f => Sys2Proof.Machine.execCtxload f s
  | .preempt f => Sys2Proof.Machine.execPreempt f s
  | .kget f => Sys2Proof.Machine.execKget f s
  | .kset f => Sys2Proof.Machine.execKset f s
  | .vld f => Sys2Proof.Machine.execVld f s
  | .vsta f => Sys2Proof.Machine.execVsta f s
  | .vstorePair t c => Sys2Proof.Machine.execVstorePair t c s
  | .li f => Sys2Proof.Machine.execLi f s
  | .lih f => Sys2Proof.Machine.execLih f s
  | .j f => Sys2Proof.Machine.execJ f s
  | .jal f => Sys2Proof.Machine.execJal f s
  | .lia f => Sys2Proof.Machine.execLia f s
  | .cpy f => Sys2Proof.Machine.execCpy f s
  | .vgather f => Sys2Proof.Machine.execVgather f s
  | .vscatter f => Sys2Proof.Machine.execVscatter f s
  | .anop w => Sys2Proof.Machine.execAnop w s
  | .vadd f => Sys2Proof.Machine.execVadd f s
  | .vsub f => Sys2Proof.Machine.execVsub f s
  | .vmul f => Sys2Proof.Machine.execVmul f s
  | .vmulh f => Sys2Proof.Machine.execVmulh f s
  | .vmin f => Sys2Proof.Machine.execVmin f s
  | .vmax f => Sys2Proof.Machine.execVmax f s
  | .vand f => Sys2Proof.Machine.execVand f s
  | .vor f => Sys2Proof.Machine.execVor f s
  | .vxor f => Sys2Proof.Machine.execVxor f s
  | .vandn f => Sys2Proof.Machine.execVandn f s
  | .vshl f => Sys2Proof.Machine.execVshl f s
  | .vshr f => Sys2Proof.Machine.execVshr f s
  | .vsar f => Sys2Proof.Machine.execVsar f s
  | .vabs f => Sys2Proof.Machine.execVabs f s
  | .vclz f => Sys2Proof.Machine.execVclz f s
  | .vpopc f => Sys2Proof.Machine.execVpopc f s
  | .vadds f => Sys2Proof.Machine.execVadds f s
  | .vsubs f => Sys2Proof.Machine.execVsubs f s
  | .vfadd f => Sys2Proof.Machine.execVfadd f s
  | .vfsub f => Sys2Proof.Machine.execVfsub f s
  | .vfmul f => Sys2Proof.Machine.execVfmul f s
  | .vfma f => Sys2Proof.Machine.execVfma f s
  | .vfmin f => Sys2Proof.Machine.execVfmin f s
  | .vfmax f => Sys2Proof.Machine.execVfmax f s
  | .vrcp f => Sys2Proof.Machine.execVrcp f s
  | .vrsq f => Sys2Proof.Machine.execVrsq f s
  | .vexp2 f => Sys2Proof.Machine.execVexp2 f s
  | .vlog2 f => Sys2Proof.Machine.execVlog2 f s
  | .vsqrt f => Sys2Proof.Machine.execVsqrt f s
  | .vcvt f => Sys2Proof.Machine.execVcvt f s
  | .vcvtNarrow f => Sys2Proof.Machine.execVcvtNarrow f s
  | .vceq f => Sys2Proof.Machine.execVceq f s
  | .vcne f => Sys2Proof.Machine.execVcne f s
  | .vclt f => Sys2Proof.Machine.execVclt f s
  | .vcle f => Sys2Proof.Machine.execVcle f s
  | .vsel f => Sys2Proof.Machine.execVsel f s
  | .vrsum f => Sys2Proof.Machine.execVrsum f s
  | .vrmax f => Sys2Proof.Machine.execVrmax f s
  | .vrmin f => Sys2Proof.Machine.execVrmin f s
  | .vshuf f => Sys2Proof.Machine.execVshuf f s
  | .vrotl f => Sys2Proof.Machine.execVrotl f s
  | .vbcast f => Sys2Proof.Machine.execVbcast f s
  | .vcompr f => Sys2Proof.Machine.execVcompr f s
  | .vexpnd f => Sys2Proof.Machine.execVexpnd f s
  | .vtmrg f => Sys2Proof.Machine.execVtmrg f s
  | .vtscl f => Sys2Proof.Machine.execVtscl f s
  | .vhash f => Sys2Proof.Machine.execVhash f s
  | .vpart f => Sys2Proof.Machine.execVpart f s
  | .vrng f => Sys2Proof.Machine.execVrng f s
  | .vscan f => Sys2Proof.Machine.execVscan f s
  | .vrank f => Sys2Proof.Machine.execVrank f s
  | .vstd f => Sys2Proof.Machine.execVstd f s
  | .vmkmask f => Sys2Proof.Machine.execVmkmask f s
  | .kand f => Sys2Proof.Machine.execKand f s
  | .kor f => Sys2Proof.Machine.execKor f s
  | .kxor f => Sys2Proof.Machine.execKxor f s
  | .kandn f => Sys2Proof.Machine.execKandn f s
  | .knot f => Sys2Proof.Machine.execKnot f s
  | .kpopc f => Sys2Proof.Machine.execKpopc f s
  | .syswFlags f => Sys2Proof.Machine.execSyswFlags f s
  | .syswRingcfg f => Sys2Proof.Machine.execSyswRingcfg f s
  | .syswRecvbase f => Sys2Proof.Machine.execSyswRecvbase f s
  | .syswRecvsize f => Sys2Proof.Machine.execSyswRecvsize f s
  | .recvtailClr f => Sys2Proof.Machine.execRecvtailClr f s
  | .glDrainGo f => Sys2Proof.Machine.execGlDrainGo f s
  | .glRelockGo f => Sys2Proof.Machine.execGlRelockGo f s
  | .glLanestatEn f => Sys2Proof.Machine.execGlLanestatEn f s
  | .glAllowWithhold f => Sys2Proof.Machine.execGlAllowWithhold f s
  | .yqtbaseWrite dev v => Sys2Proof.Machine.execYqtbaseWrite dev v s
  | .featackWrite dev v => Sys2Proof.Machine.execFeatackWrite dev v s
  | .helpertrap t => Sys2Proof.Machine.execHelpertrap t s
  | .quarantine t arrayError => Sys2Proof.Machine.execQuarantine t arrayError s
  | .fenceRectangle t cause => Sys2Proof.Machine.execFenceRectangle t cause s
  | .rectangleReady t => Sys2Proof.Machine.execRectangleReady t s
  | .homeRead t gl mask => Sys2Proof.Machine.execHomeRead t gl mask s
  | .homeRegister t gl mask => Sys2Proof.Machine.execHomeRegister t gl mask s
  | .homeWriteback t gl mask => Sys2Proof.Machine.execHomeWriteback t gl mask s
  | .homeReturn t gl mask => Sys2Proof.Machine.execHomeReturn t gl mask s
  | .homeAmo t addr op dbl x cmp => Sys2Proof.Machine.execHomeAmo t addr op dbl x cmp s
  | .readRecall t gl mask => Sys2Proof.Machine.execReadRecall t gl mask s
  | .writeRecall t gl mask => Sys2Proof.Machine.execWriteRecall t gl mask s
  | .registerGrant h => Sys2Proof.Machine.execRegisterGrant h s
  | .fillReturn t c gl va perm => Sys2Proof.Machine.execFillReturn t c gl va perm s
  | .remoteInvalidate dev gl => Sys2Proof.Machine.execRemoteInvalidate dev gl s
  | .operationPacket t gl mask data => Sys2Proof.Machine.execOperationPacket t gl mask data s
  | .hostRead gl => Sys2Proof.Machine.execHostRead gl s
  | .hostWrite gl own mask data => Sys2Proof.Machine.execHostWrite gl own mask data s
  | .hostSnoop gl => Sys2Proof.Machine.execHostSnoop gl s
  | .backInvalidateAnswer gl mask data => Sys2Proof.Machine.execBackInvalidateAnswer gl mask data s
  | .cxlLinkDown dev => Sys2Proof.Machine.execCxlLinkDown dev s
  | .cxlLinkUp dev => Sys2Proof.Machine.execCxlLinkUp dev s
  | .tentativeCommit t c => Sys2Proof.Machine.execTentativeCommit t c s
  | .tentativeDiscard t c => Sys2Proof.Machine.execTentativeDiscard t c s
  | .walkComplete dev region n => Sys2Proof.Machine.execWalkComplete dev region n s
  | .patrolScrub gl bad => Sys2Proof.Machine.execPatrolScrub gl bad s
  | .copyPiece t ch => Sys2Proof.Machine.execCopyPiece t ch s
  | .recordComplete t ch => Sys2Proof.Machine.execRecordComplete t ch s
  | .directTransferDone t => Sys2Proof.Machine.execDirectTransferDone t s
  | .slotLanding t slot gen chunk mask data => Sys2Proof.Machine.execSlotLanding t slot gen chunk mask data s
  | .barrierUpdate glob a arr bytes => Sys2Proof.Machine.execBarrierUpdate glob a arr bytes s
  | .aonVersionRaise a => Sys2Proof.Machine.execAonVersionRaise a s
  | .trackerReport cl gl mask => Sys2Proof.Machine.execTrackerReport cl gl mask s
  | .trackerHeldStart t ch => Sys2Proof.Machine.execTrackerHeldStart t ch s
  | .compactSignature t => Sys2Proof.Machine.execCompactSignature t s
  | .compactWithdrawal t => Sys2Proof.Machine.execCompactWithdrawal t s
  | .compactTreeArrival t own => Sys2Proof.Machine.execCompactTreeArrival t own s
  | .memberLoss t => Sys2Proof.Machine.execMemberLoss t s
  | .pipDelivery t slot gen v poison => Sys2Proof.Machine.execPipDelivery t slot gen v poison s
  | .pipExpiry t slot => Sys2Proof.Machine.execPipExpiry t slot s
  | .pipQuarEnd t slot => Sys2Proof.Machine.execPipQuarEnd t slot s
  | .pipEnd origin t => Sys2Proof.Machine.execPipEnd origin t s
  | .messageArrival t sender body => Sys2Proof.Machine.execMessageArrival t sender body s
  | .recvtTimeout t => Sys2Proof.Machine.execRecvtTimeout t s
  | .vetchStep dev region id => Sys2Proof.Machine.execVetchStep dev region id s
  | .contributionArrival dev region id => Sys2Proof.Machine.execContributionArrival dev region id s
  | .apertureApply dev region id inst op buf off len data => Sys2Proof.Machine.execApertureApply dev region id inst op buf off len data s
  | .spanReceive h ok => Sys2Proof.Machine.execSpanReceive h ok s
  | .slotEdge dev k => Sys2Proof.Machine.execSlotEdge dev k s
  | .allowanceReturn dev pos n => Sys2Proof.Machine.execAllowanceReturn dev pos n s
  | .drainMarker dev src => Sys2Proof.Machine.execDrainMarker dev src s
  | .drainTimeout dev => Sys2Proof.Machine.execDrainTimeout dev s
  | .relockRotation dev => Sys2Proof.Machine.execRelockRotation dev s
  | .relockDone dev locked => Sys2Proof.Machine.execRelockDone dev locked s
  | .laneRetrain dev lane => Sys2Proof.Machine.execLaneRetrain dev lane s
  | .laneHandback dev lane locked => Sys2Proof.Machine.execLaneHandback dev lane locked s
  | .tailWake dev q => Sys2Proof.Machine.execTailWake dev q s
  | .launchSelect dev => Sys2Proof.Machine.execLaunchSelect dev s
  | .launchAging dev q => Sys2Proof.Machine.execLaunchAging dev q s
  | .launchStart dev q => Sys2Proof.Machine.execLaunchStart dev q s
  | .launchForward dev pid => Sys2Proof.Machine.execLaunchForward dev pid s
  | .launchComplete pid => Sys2Proof.Machine.execLaunchComplete pid s
  | .saveServiceStart t => Sys2Proof.Machine.execSaveServiceStart t s
  | .partitionResume pid => Sys2Proof.Machine.execPartitionResume pid s
  | .taskStart t => Sys2Proof.Machine.execTaskStart t s
  | .issuePriorityRaise t c aSlot => Sys2Proof.Machine.execIssuePriorityRaise t c aSlot s
  | .yieldExpiry t c => Sys2Proof.Machine.execYieldExpiry t c s
  | .powerOnReset dev => Sys2Proof.Machine.execPowerOnReset dev s
  | .getVersion dev => Sys2Proof.Machine.execGetVersion dev s
  | .getCapabilities dev => Sys2Proof.Machine.execGetCapabilities dev s
  | .negotiateAlgorithms dev offer => Sys2Proof.Machine.execNegotiateAlgorithms dev offer s
  | .getDigests dev => Sys2Proof.Machine.execGetDigests dev s
  | .getCertificate dev => Sys2Proof.Machine.execGetCertificate dev s
  | .challenge dev nonce => Sys2Proof.Machine.execChallenge dev nonce s
  | .getMeasurements dev nonce => Sys2Proof.Machine.execGetMeasurements dev nonce s
  | .keyExchange dev nonce => Sys2Proof.Machine.execKeyExchange dev nonce s
  | .finish dev => Sys2Proof.Machine.execFinish dev s
  | .keyUpdate dev => Sys2Proof.Machine.execKeyUpdate dev s
  | .heartbeat dev => Sys2Proof.Machine.execHeartbeat dev s
  | .endSession dev => Sys2Proof.Machine.execEndSession dev s
  | .pldmFirmwareUpdate dev kind image burn => Sys2Proof.Machine.execPldmFirmwareUpdate dev kind image burn s
  | .pldmSetPcap dev watts => Sys2Proof.Machine.execPldmSetPcap dev watts s
  | .snapTrigger dev => Sys2Proof.Machine.execSnapTrigger dev s
  | .snapRead dev => Sys2Proof.Machine.execSnapRead dev s
  | .mgmtEventSend dev => Sys2Proof.Machine.execMgmtEventSend dev s
  | .powerWindow dev watts => Sys2Proof.Machine.execPowerWindow dev watts s
  | .thermalTrip dev celsius => Sys2Proof.Machine.execThermalTrip dev celsius s
  | .reservedEncoding u compute => Sys2Proof.Machine.execReservedEncoding u compute s
  | .matrixCommandRetirement t => Sys2Proof.Machine.execMatrixCommandRetirement t s
  | .bankRetention t c => Sys2Proof.Machine.execBankRetention t c s
  | .ieee1588Synchronisation dev ns => Sys2Proof.Machine.execIeee1588Synchronisation dev ns s
  | .devidAssignment dev domain pos => Sys2Proof.Machine.execDevidAssignment dev domain pos s

end Sys2Proof.Machine
end

