-- ==== Sys2Proof/Machine/Fetch.lean ====
section
/-! DEFINITION. Fetching a unit (R189, R191): translation with execute permission (R36, R226), the instruction cache of the
tile, and a coherent read where it misses; memory of another domain is not cached (R85). -/
namespace Sys2Proof.Machine

/-- Lines of a 64 KiB instruction cache (R191). -/
def icacheLines : Nat := 512

/-- The unit at a byte of a line. -/
def unitAt (d : LineData) (off : Nat) : Word := dwordAt d off

/-- The unit at the context's pc. A fault is taken at that unit with TRAPVAL holding the pc (R226). -/
def fetchUnit : M Word := do
  let k ← getC
  let x ← getT
  let va := addrOf k.pc
  match x.icache.find? fun l => l.va = va / 128 && l.asid = k.asid with
  | some l =>
    need (k.priv || l.user) cPROT k.pc
    pure (unitAt l.data (va % 128))
  | none =>
    let (a, leaf) ← locateM k.pc va .fetch
    let d ← fun s =>
      match s.peekLine s.asker (a / 128) (BitVec.allOnes 32) k.pc with
      | (.line d, s) => .ok (d, s)
      | (.fault c, s) => .error (.trapWith c k.pc s)
      | (.wait, s) => .error (.waitWith s)
    let s ← get
    if s.sameDomain (pkgOf s.cur) (pkgOfGl (a / 128)) then
      modT fun x => { x with icache := ⟨va / 128, k.asid, leaf.getLsbD 56, d⟩ :: x.icache.take (icacheLines - 1) }
    pure (unitAt d (va % 128))

end Sys2Proof.Machine
end

