-- ==== Sys2Proof/Machine/Issue.lean ====
section
/-! DEFINITION. How units issue, cycle by cycle: the two streams of a context (R134 to R139), stall counts (R141), what is held
under R136, traps at a unit boundary (R160, R344), the issue slots of a tile (R336), gangs (R18, R146, R337), and the hardware
that acts in the same cycle. -/
namespace Sys2Proof.Machine

/-- The outcome of a step. -/
abbrev Out := Host.Outcome State Fault Refusal

/-- Go on from a next state. -/
def andThen (o : Out) (f : State → Out) : Out :=
  match o with
  | .next s => f s
  | .fault r => .fault r
  | .refused r => .refused r

/-- Go on over a list while there is a next state. -/
def andEach (f : α → State → Out) : List α → State → Out
  | [], s => .next s
  | a :: as, s => andThen (f a s) (andEach f as)

/-! ## Contexts that can issue -/

/-- A context is there, is not a stopped helper, and its tile is not fenced (R344, R355). -/
def State.live (s : State) (t c : Nat) : Bool :=
  let x := s.tile t
  mhas x.ctxs c && !(x.ctx c).stopped && !x.fenced

/-- YIELD has made a context ineligible while others are ready (R314). -/
def State.yielding (s : State) (t c : Nat) : Bool := decide (s.now < (s.ctxAt t c).yieldTo)

/-- The live contexts of a tile that have begun, in CTXID order (R117, R335). -/
def State.liveCtxs (s : State) (t : Nat) : List Nat :=
  ((s.tile t).ctxs.map fun e => e.1).filter fun c =>
    s.live t c && ((s.tile t).quiet.all fun q => q = c) && decide ((s.ctxAt t c).startFrom ≤ s.now)

/-- The context stands as (t, c), with nothing of its next part done. -/
def State.asCtx (s : State) (t c : Nat) : State := { s with cur := t, cid := c, fate := .done }

/-! ## Parts of a unit -/

/-- A part whose encoding is defined is that instruction; any other takes the trap of R207. -/
def runPart (i : Option Instr) (compute : Bool) (s : State) : Out :=
  match i with
  | some i => exec i s
  | none => execReservedEncoding s.ctx.unit compute s

/-- The unit is done in its address stream: the next one follows. -/
def State.advance (s : State) : State :=
  if mhas (s.tile s.cur).ctxs s.cid then
    s.setCtx { s.ctx with pc := s.ctx.npc, seq := s.ctx.useq + 1 }
  else s

/-- The compute part of the unit waits for its stream (R134), with what its C-word left behind (R137) and the rules that its
A-word keeps (R313). -/
def State.enqueue (s : State) (onlyA held : Bool) (rules : Option (BitVec 2 × Bool)) : State :=
  if mhas (s.tile s.cur).ctxs s.cid then
    let k := s.ctx
    let p : Part := ⟨k.upc, k.unit, k.useq, k.late, k.sregs, k.kregs, k.pend, onlyA, held, rules⟩
    s.setCtx { k with backlog := k.backlog ++ [p], late := 0 }
  else s

/-- FRM and CHECKMODE of k, when k' differs in one of them. -/
def Ctx.oldRules (k k' : Ctx) : Option (BitVec 2 × Bool) :=
  if k.frm = k'.frm && k.trust = k'.trust then none else some (k.frm, k.trust)

/-- An A-word runs under the rules that held before its unit's C-word, if that changed them (R142, R313). -/
def underRules (r : Option (BitVec 2 × Bool)) (f : State → Out) (s : State) : Out :=
  match r with
  | none => f s
  | some (frm, trust) =>
    let k := s.ctx
    andThen (f (s.setCtx { k with frm := frm, trust := trust })) fun s' =>
      .next (if mhas (s'.tile s.cur).ctxs s.cid then s'.modCtxAt s.cur s.cid fun k' => { k' with frm := k.frm, trust := k.trust } else s')

/-- The compute part of a unit has issued: its flags commit, and an X = 1 jump moves the pc (R134). -/
def State.commit (s : State) (p : Part) : State :=
  if mhas (s.tile s.cur).ctxs s.cid then
    let k := s.ctx.raise p.flags (unitAddr p.pc)
    s.setCtx { k with
      backlog := k.backlog.filter fun q => q.seq ≠ p.seq
      pc := if k.npc = p.pc + 8 then k.pc else k.npc }
  else s

/-- The state in which the compute part of a unit is issued. -/
def State.atPart (s : State) (p : Part) : State :=
  { s.setCtx { s.ctx with unit := p.image, upc := p.pc, useq := p.seq, npc := p.pc + 8 } with compute := true, fate := .done }

/-- COP of a C-word, and its sub field (R192). -/
def copOf (w : BitVec 32) : Nat := (bits w 24 6).toNat
def subOf (w : BitVec 32) : Nat := (bits w 5 4).toNat

/-- The C-word is an MBW of a mailbox that its unit's A-word reads (R190). -/
def feedsA (u : Word) : Bool :=
  copOf (bits u 0 32) = 0x1E && subOf (bits u 0 32) = 0 && (sourceCodes u).contains (BitVec.ofNat 6 (48 + (bits u 0 5 : BitVec 5).toNat))

/-- The A-word reads what the MBW of its unit has just written, as soon as it may (R132, R190): the stream's last issue is that of the read. -/
def State.afterMbw (s : State) (now : Nat) : State :=
  { (if mhas (s.tile s.cur).ctxs s.cid then s.setCtx { s.ctx with lastA := some s.now } else s) with now := now }

/-- The compute part of a unit issues: a lone unit, an A-word, or a C-word and A-word that issue together (R137). -/
def computePart (p : Part) (s : State) : Out :=
  let s0 := s.atPart p
  let done := fun (s : State) => if s.fate = .done then s.commit p else s
  match decodeUnit p.image with
  | .lone i => andThen (runPart i true s0) fun s => .next (done s)
  | .pair c a =>
    if unitX p.image && !p.onlyA then
      andThen (runPart c true s0) fun s1 =>
        if s1.fate ≠ .done || !mhas (s1.tile s1.cur).ctxs s1.cid then .next s1
        else andThen (underRules (s0.ctx.oldRules s1.ctx) (runPart a true) s1) fun s2 =>
          match s2.fate with
          | .waited => .next { s0 with fate := .waited }
          | .trapped => .next (s0.takeTrap (s2.ctxAt s0.cur s0.cid).cause (s2.ctxAt s0.cur s0.cid).trapVal none)
          | _ => .next (if feedsA p.image then (done s2).afterMbw s1.now else done s2)
    else andThen (underRules p.rules (runPart a true) s0) fun s => .next (done s)

/-- The unit in hand issues in its address stream. The backlog is empty. -/
def addressUnit (s : State) : Out :=
  let k := s.ctx
  match decodeUnit k.unit with
  | .lone i =>
    if unitX k.unit then
      match s.reserve with
      | some s => .next (s.enqueue false false none).advance
      | none => .next { s with fate := .waited }
    else andThen (runPart i false s) fun s => .next (if s.fate = .done then s.advance else s)
  | .pair c _ =>
    if k.skipC then
      let u := (unitAddr k.upc).toNat
      .next ((s.setCtx { k with skipC := false, npc := mget k.npc k.targets u, targets := mdel k.targets u }).enqueue true false none).advance
    else if unitX k.unit then .next (s.enqueue false false none).advance
    else andThen (runPart c false s) fun s => .next (if s.fate = .done then (s.enqueue false false (k.oldRules s.ctx)).advance else s)

/-- The context stands at its pc with nothing of the unit done. -/
def State.atPc (s : State) : State :=
  let k := s.ctx
  { s.setCtx { k with upc := k.pc, npc := k.pc + 8, useq := k.seq } with compute := false, fate := .done }

/-- Fetch the unit at the pc (R189). -/
def fetchInto : M Unit := do
  let u ← fetchUnit
  modC fun k => { k with unit := u }

/-! ## What a part reads, writes and touches (R135, R136) -/

/-- Scalar registers that a C-word reads and writes (R193 to R198). -/
def cUse (w : BitVec 32) : List (BitVec 5) × List (BitVec 5) :=
  let cop := copOf w
  let d : BitVec 5 := bits w 19 5
  let a : BitVec 5 := bits w 14 5
  let b : BitVec 5 := bits w 9 5
  if cop = 0 || cop = 0x1D then ([], [])
  else if cop = 1 then (if bits w 0 9 = (26 : BitVec 9) then [d, a, b] else [a, b], [d])
  else if cop ≤ 0x0C then ([a], [d])
  else if cop ≤ 0x12 then ([d, a], [])
  else if cop = 0x13 then ([d], [d])
  else if cop = 0x14 || cop = 0x15 || cop = 0x17 || cop = 0x19 then ([a], [d])
  else if cop = 0x16 || cop = 0x18 || cop = 0x1A then ([d, a], [])
  else if cop = 0x1F || cop = 0x20 then ([a], [])
  else if cop = 0x1E then ([a], [d, b])
  else if cop = 0x22 && subOf w ≤ 1 then ([d, a, b], [])
  else if cop = 0x31 then (if subOf w = 0 then ([], [d]) else ([a], []))
  else ([d, a, b], [d])

/-- Scalar registers that a lone unit reads and writes (R205). -/
def loneUse (u : Word) : List (BitVec 5) × List (BitVec 5) :=
  let f := getLF u
  match (bits u 22 8).toNat with
  | 0 | 3 | 4 => ([], [f.ra])
  | 1 => ([f.ra], [f.ra])
  | 2 => ([], [])
  | _ => ([f.ra, f.rb, f.rc], [])

/-- A unit's registers in the compute stream. -/
def computeUse (u : Word) : List (BitVec 5) × List (BitVec 5) :=
  if u.getLsbD 31 then loneUse u else if unitX u then cUse (bits u 0 32) else ([], [])

/-- What a part still reads and writes: a held one has its operands. -/
def Part.use (p : Part) : List (BitVec 5) × List (BitVec 5) :=
  if p.held then ([], (if p.image.getLsbD 31 then loneUse p.image else cUse (bits p.image 0 32)).2)
  else if p.onlyA then ([], []) else computeUse p.image

/-- An instruction on the scalar side must wait for the parts before it (R135). -/
def hazard (backlog : List Part) (use : List (BitVec 5) × List (BitVec 5)) : Bool :=
  backlog.any fun p =>
    let q := p.use
    (q.2.any fun r => r ≠ 0 && (use.1.contains r || use.2.contains r)) || (q.1.any fun r => r ≠ 0 && use.2.contains r)

/-- The compute part reads or writes a mask register (R236). -/
def touchesMask (u : Word) : Bool :=
  u.getLsbD 31 || (unitX u && copOf (bits u 0 32) = 0x31) || bits u 53 2 ≠ (0 : BitVec 2) || (bits u 55 6 : BitVec 6) = 53 || (bits u 55 6 : BitVec 6) = 54 ||
    decide (57 ≤ (bits u 44 6 : BitVec 6).toNat)

/-- The part reads or writes mailbox n (R132). -/
def Part.touchesBox (p : Part) (n : Nat) : Bool :=
  let w : BitVec 32 := bits p.image 0 32
  let box : BitVec 6 := BitVec.ofNat 6 (48 + n)
  (sourceCodes p.image).contains box || (!p.image.getLsbD 31 && ((bits p.image 44 6 : BitVec 6) = box ||
    ((p.held || unitX p.image) && copOf w = 0x1E && (bits w 0 5 : BitVec 5).toNat = n)))

/-- A jump or branch of the compute stream holds the address stream (R134). -/
def holdsStream (p : Part) : Bool :=
  let cop := copOf (bits p.image 0 32)
  if p.held || p.onlyA then false
  else if p.image.getLsbD 31 then (bits p.image 22 8 : BitVec 8) = 2 || (bits p.image 22 8 : BitVec 8) = 3
  else unitX p.image && 0x0D ≤ cop && cop ≤ 0x14

/-- The C-words that issue ahead with an effect in their own context alone, and the loads (R136). -/
def runsAhead (w : BitVec 32) : Bool :=
  let cop := copOf w
  cop ≤ 0x15 || cop = 0x17 || cop = 0x19 || cop = 0x1D || (cop = 0x1E && subOf w = 2) || cop = 0x1F || cop = 0x20 || cop = 0x31

/-- The C-words that issue ahead while their effect is held (R136): stores, AMOs, MBW, CWB, CINV, and the commands and arrivals for which
the context does not wait. -/
def heldAhead (w : BitVec 32) : Bool :=
  let cop := copOf w
  let sub := subOf w
  cop = 0x16 || cop = 0x18 || cop = 0x1A || cop = 0x1B || (cop = 0x1E && sub = 0) ||
    (cop = 0x22 && sub ≤ 2) || (cop = 0x23 && sub = 2) || cop = 0x24 || cop = 0x25 || (cop = 0x26 && sub ≠ 2) || cop = 0x27 ||
    (cop = 0x28 && (sub = 0 || 3 ≤ sub)) || (cop = 0x2B && sub = 0) || (cop = 0x2C && sub = 0) || (cop = 0x2D && sub ≤ 2) ||
    (cop = 0x2F && (sub = 3 || sub = 4))

/-- The bytes that a C-word accesses in memory, with the registers r: its pointer and their number. -/
def cSpan (w : BitVec 32) (r : BitVec 5 → Word) : Option (Word × Nat) :=
  let cop := copOf w
  let sz : BitVec 3 := bits w 11 3
  let off : BitVec 11 := bits w 0 11
  let a := r (bits w 14 5)
  let at' := fun (n : Nat) => (padd? a (off.toInt * n)).map fun p => (p, n)
  if (0x15 ≤ cop && cop ≤ 0x1A) then at' (sizeOf sz)
  else if cop = 0x1B then some (a, if bits w 0 2 = (0 : BitVec 2) then 4 else 8)
  else if cop = 0x1F then (padd? a (off.toInt * vldWidth sz)).map fun p => (p, vldBytes sz p)
  else if cop = 0x20 then at' (vstaWidth sz)
  else if cop = 0x22 && w.getLsbD 4 then some (if subOf w ≤ 1 then r (bits w 19 5) else a, 32)
  else none

/-- Two ranges of one space meet. -/
def spansMeet (p : Word) (n : Nat) (q : Word) (m : Nat) : Bool :=
  spaceOf p = spaceOf q && decide (addrOf p < addrOf q + m) && decide (addrOf q < addrOf p + n)

/-- A word that may acquire (R81), or that changes what a later access finds: no later access goes before it. -/
def acquires (w : BitVec 32) : Bool :=
  let cop := copOf w
  let sub := subOf w
  cop = 0x19 || (cop = 0x1B && w.getLsbD 2) || (cop = 0x1C && sub ≠ 1) || (cop = 0x1E && sub = 1) || (cop = 0x22 && 3 ≤ sub) ||
    (cop = 0x26 && sub = 2) || (cop = 0x28 && sub = 2) || cop = 0x2A || (cop = 0x2B && 1 ≤ sub) || (cop = 0x2C && sub = 1) ||
    (cop = 0x2E && (sub = 1 || sub = 3)) || cop = 0x2F || cop = 0x30

/-- A word with an access of memory or of what space 1 holds, that a local access may not pass: only global accesses move across the streams
(R135). -/
def ordersLocal (w : BitVec 32) : Bool :=
  let cop := copOf w
  0x15 ≤ cop && cop ≠ 0x1D && cop ≠ 0x1E && cop ≠ 0x31

/-- The bytes that a part of the backlog has still to access by its C-word. -/
def Part.span (q : Part) (r : BitVec 5 → Word) : Option (Word × Nat) :=
  if q.image.getLsbD 31 || q.onlyA || !(q.held || unitX q.image) then none else cSpan (bits q.image 0 32) r

/-- A load of the n bytes at p may not pass a part before it: they meet the bytes of its store or load (R83), or it may acquire.
known tells that the part's registers have their values. -/
def Part.bars (q : Part) (r : BitVec 5 → Word) (known : Bool) (p : Word) (n : Nat) : Bool :=
  let w : BitVec 32 := bits q.image 0 32
  if q.image.getLsbD 31 then
    let lop := (bits q.image 22 8).toNat
    lop = 0x22 || lop = 0x23 || ((lop = 0x14 || lop = 0x15) &&
      (!known || ({ image := q.image, pc := q.pc, ra := r (bits q.image 17 5), rb := 0, rc := 0, step := 0, seq := q.seq, addrs := [] } : MCmd).touches
        (spaceOf p) (addrOf p) n))
  else if q.onlyA || !(q.held || unitX q.image) then false
  else if acquires w then true
  else if spaceOf p = 1 && !q.held && ordersLocal w then true
  else match q.span r with
    | some (a, m) => !known || spansMeet p n a m
    | none => false

/-- The parts of a backlog, and whether the registers of each are known: those that an earlier part still writes are not. -/
def Ctx.known (k : Ctx) : List Part → List (BitVec 5) → List (Part × Bool)
  | [], _ => []
  | q :: qs, unset =>
    (q, q.held || !(q.use.1.any fun r => r ≠ 0 && (unset.contains r || k.pendingReg r))) :: k.known qs (unset ++ q.use.2)

/-- A register as a part of the backlog reads it: a held one has its operands. -/
def Ctx.regFor (k : Ctx) (q : Part) (r : BitVec 5) : Word :=
  if q.held then (if r = 0 then 0 else q.sregs.getD r.toNat 0) else k.sreg r

/-- A load ahead waits for a part of the backlog. -/
def loadBarred (k : Ctx) (p : Word) (n : Nat) : Bool :=
  (k.known k.backlog []).any fun q => q.1.bars (k.regFor q.1) q.2 p n

/-- Accesses of the backlog under other virtual addresses that may lie where the n bytes at p do (R30, R72). -/
def Ctx.namesakes (k : Ctx) (p : Word) (n : Nat) : List (Word × Nat) :=
  k.backlog.filterMap fun q => (q.span (k.regFor q)).filter fun a =>
    spaceOf p = 0 && spaceOf a.1 = 0 && mayAlias (addrOf p) n (addrOf a.1) a.2 && framesMeet (addrOf p) n (addrOf a.1) a.2

/-- One of the accesses does lie there. -/
def State.aliased (s : State) (p : Word) (n : Nat) : List (Word × Nat) → EngRes Bool × State
  | [] => (.ok false, s)
  | (a, m) :: as =>
    match s.placesOf s.asker p (addrOf p) n with
    | (.ok ps, s) =>
      match s.placesOf s.asker a (addrOf a) m with
      | (.ok qs, s) => if rangesMeet ps qs then (.ok true, s) else s.aliased p n as
      | (_, s) => (.wait, s)
    | (_, s) => (.wait, s)

/-- A pair whose bytes meet those of a load cannot be performed before the compute stream has issued a part after the load's (R138, R270). -/
def Ctx.pairStalls (k : Ctx) (p : Word) (n : Nat) : Bool :=
  k.vsta.zipIdx.any fun e => spansMeet p n e.1.ptr e.1.width &&
    (decide (k.vstd.length ≤ e.2) || k.backlog.head?.any fun h => decide (h.seq < e.1.seq))

/-- The part accesses the local array, so a flash holds it back (R81). -/
def touchesArray (u : Word) : Bool :=
  if u.getLsbD 31 then (bits u 22 8 : BitVec 8) = 0x22 || (bits u 22 8 : BitVec 8) = 0x23
  else
    let cop := copOf (bits u 0 32)
    (0x15 ≤ cop && cop ≤ 0x1B) || cop = 0x1F || cop = 0x2B || (cop = 0x2F && 3 ≤ subOf (bits u 0 32))

/-! ## A part in one cycle -/

/-- What becomes of a context's next part in a stream: it could issue in this cycle; it waits, with what it leaves; the address stream
cannot go on before the compute stream does (R138); or the machine stops. -/
inductive Try where
  | goes (s : State)
  | waits (s : State)
  | stuck
  | ends (o : Out)

/-- The outcome of a part tried in s. One that an interlock lets issue in a later cycle waits (R141). -/
def Try.of (s : State) (o : Out) : Try :=
  match o with
  | .next t => if t.fate = .waited then .waits { t with now := s.now } else if s.now < t.now then .waits s else .goes t
  | o => .ends o

/-- A unit issues no earlier than W cycles after its stream's last issue, which no stream does twice in a cycle (R141, R147). -/
def State.spaced (s : State) (last : Option Nat) (u : Word) : Bool :=
  match last with
  | none => true
  | some n => decide (n + max (unitW u) 1 ≤ s.now)

/-- The part waits for a flash of its tile to end (R81). -/
def State.flashing (s : State) (t : Nat) (u : Word) : Bool := decide (s.now < (s.tile t).flashUntil) && touchesArray u

/-- The next unit of a context whose compute stream has caught up. -/
def addressFront (s : State) : Try :=
  let s := s.atPc
  match fetchInto s with
  | .ok (_, s1) =>
    if !s1.spaced s1.ctx.lastC s1.ctx.unit || (s1.flashing s1.cur s1.ctx.unit && !unitX s1.ctx.unit) then .waits s1
    else Try.of s1 (addressUnit s1)
  | .error e => Try.of s (.next (settleStop s (.error e)))

/-- A VLD or VSTA whose queue is full waits for the compute stream (R138, R139). -/
def queueFull (k : Ctx) (w : BitVec 32) : Bool :=
  (copOf w = 0x1F && decide (4 ≤ (k.dqs.getD (bits w 19 2 : BitVec 2).toNat []).length)) || (copOf w = 0x20 && decide (8 ≤ k.vsta.length))

/-- Loads that held AMOs, and loads and AMOs of the compute stream, will make pending. -/
def Ctx.heldLoads (k : Ctx) : Nat :=
  (k.backlog.filter fun p => !p.image.getLsbD 31 && !p.onlyA &&
    ((p.held && copOf (bits p.image 0 32) = 0x1B) || (unitX p.image && [0x17, 0x19, 0x1B].contains (copOf (bits p.image 0 32))))).length

/-- A vector load or store address of the compute stream that a later one of its queue follows (R135, R138, R139). -/
def Part.queues (p : Part) (cop dq : Nat) : Bool :=
  let w : BitVec 32 := bits p.image 0 32
  !p.image.getLsbD 31 && !p.onlyA && unitX p.image && copOf w = cop && (cop = 0x20 || (bits w 19 2 : BitVec 2).toNat = dq)

/-- The gather in hand follows a VLD of the compute stream in its queue. -/
def Ctx.gatherFollows (k : Ctx) : Bool :=
  match decodeLone k.unit with
  | some (.vgather f) => k.backlog.any fun p => p.queues 0x1F (gatherQueue f)
  | _ => false

/-- An effect is held: the part has its operands, and no register of it is pending or awaited. -/
def holdAhead (use : List (BitVec 5) × List (BitVec 5)) (s : State) : Try :=
  let k := s.ctx
  if hazard k.backlog use || use.1.any (fun r => k.pendingReg r && !k.trust) then .stuck
  else if use.1.any fun r => decide (s.now < k.sready.getD r.toNat 0) then .waits s
  else .goes (s.enqueue false true none).advance

/-- A word runs ahead; what would trap there stops the address stream until the compute stream has come to it (R137). -/
def runAhead (i : Option Instr) (push full : Bool) (s : State) : Try :=
  match Try.of s (runPart i false s) with
  | .goes t => if t.fate = .done then .goes (if push then (t.enqueue false false none).advance else t.advance) else .stuck
  | .waits t => if full then .stuck else .waits t
  | r => r

/-- The unit in hand, ahead of the compute stream. -/
def aheadUnit (s : State) : Try :=
  let k := s.ctx
  let u := k.unit
  let w : BitVec 32 := bits u 0 32
  if u.getLsbD 31 then
    if unitX u then
      if k.gatherFollows then .stuck
      else match s.reserve with
      | some s => .goes (s.enqueue false false none).advance
      | none => .stuck
    else if (decodeLone u).isNone then .stuck
    else if 4 < (bits u 22 8).toNat then holdAhead (loneUse u) s
    else if hazard k.backlog (loneUse u) then .stuck
    else runAhead (decodeLone u) false false s
  else if unitX u then .goes (s.enqueue false false none).advance
  else if (decodeC w).isNone then .stuck
  else if heldAhead w then holdAhead (cUse w) s
  else if !runsAhead w || hazard k.backlog (cUse w) then .stuck
  else if copOf w = 0x31 && k.backlog.any (fun p => touchesMask p.image) then .stuck
  else if copOf w = 0x1E && k.backlog.any (fun p => p.touchesBox (bits w 0 5 : BitVec 5).toNat) then .stuck
  else if copOf w = 0x1D && 0 < k.heldLoads && decide ((bits w 0 5 : BitVec 5).toNat < k.pend.length + k.heldLoads) then .stuck
  else if (copOf w = 0x1F || copOf w = 0x20) && k.backlog.any (fun p => p.queues (copOf w) (bits w 19 2 : BitVec 2).toNat) then .stuck
  else match if copOf w = 0x20 then none else cSpan w k.sreg with
    | none => runAhead (decodeC w) true (queueFull k w) s
    | some (p, n) =>
      if loadBarred k p n then .stuck
      else match s.aliased p n (k.namesakes p n) with
        | (.ok false, s) => runAhead (decodeC w) true (queueFull k w || k.pairStalls p n) s
        | (.ok true, _) => .stuck
        | (_, s) => .waits s

/-- The address stream of a context whose head p has not issued its compute part: it may hold 64 units more (R134). -/
def ahead (p : Part) (s : State) : Try :=
  let k := s.ctx
  if 64 < k.seq - p.seq || k.skipC || k.backlog.any holdsStream then .stuck
  else
    let s := s.atPc
    match fetchInto s with
    | .ok (_, s) => if s.spaced s.ctx.lastC s.ctx.unit && !s.flashing s.cur s.ctx.unit then aheadUnit s else .waits s
    | .error .wait => .waits s
    | .error (.waitWith s) => .waits s
    | .error _ => .stuck

/-- The next part of the context in its address stream. -/
def addressTry (s : State) : Try :=
  match s.ctx.backlog with
  | [] => addressFront s
  | p :: _ => ahead p s

/-- The head of the compute stream waits in t. A pop of an empty queue takes ILLEGAL if the address stream cannot go on (R138). -/
def headWaits (p : Part) (s t : State) : Try :=
  match s.ctx.popEmpty (sourceCodes p.image), ahead p s with
  | some d, .stuck => .goes (t.takeTrap cILLEGAL (BitVec.ofNat 64 (0x100 + d)) none)
  | _, _ => .waits t

/-- A bank in retention wakes at the first access, within 24 cycles. Its ECC is checked: a corrected error is counted, an
uncorrectable one fences the tile (R131, R355). -/
def State.wakeBanks (s : State) : State :=
  let k := s.ctx
  let s := s.setCtx { k with retained := false, wakeAt := s.now + 24, flaw := .none }
  match k.flaw with
  | .none => s
  | .corrected => s.countCorrected (pkgOf s.cur) (8 + numOf s.cur) (sourceOf s.cur 0)
  | .uncorrectable => { s with agenda := .event (.fenceRectangle s.cur cPOISON.toNat) :: s.agenda }

/-- The next part of the context in its compute stream. -/
def computeTry (s : State) : Try :=
  match s.ctx.backlog with
  | [] => .waits s
  | p :: _ =>
    if s.ctx.retained && namesBank p.image then .waits s.wakeBanks
    else if p.held || decide (s.now < s.ctx.wakeAt) || !s.spaced s.ctx.lastA p.image ||
        (s.flashing s.cur p.image && (p.image.getLsbD 31 || unitX p.image)) then .waits s
    else match Try.of s (computePart p s) with
      | .waits t => headWaits p s t
      | r => r

/-- The next part of context c of tile t in one of its streams. -/
def tryPart (compute : Bool) (t c : Nat) (s : State) : Try :=
  if compute then computeTry (s.asCtx t c) else addressTry (s.asCtx t c)

/-! ## Members of a gang (R18, R146) -/

/-- The live members of the gang of a leader, in member order. -/
def State.gangMembers (s : State) (l : Nat) : List Nat :=
  ((List.range 8).map fun i => l - l % 8 + i).filter fun m => (s.tile m).gang = some l && s.live m 0

/-- A member leaves the gang and sets GD. -/
def State.leaveGang (s : State) (m : Nat) : State :=
  let s := s.modTile m fun x => { x with gang := none }
  if mhas (s.tile m).ctxs 0 then s.modCtxAt m 0 fun k => k.raise fGD (unitAddr k.upc) else s

/-! ## Held effects (R136) -/

/-- The context as it stands before the held effect of its head: the head's operands, and nothing that later units did. -/
def Ctx.beforeHeld (k : Ctx) (p : Part) : Ctx :=
  { k with
    unit := p.image, upc := p.pc, pc := p.pc, npc := p.pc + 8, useq := p.seq, seq := p.seq, skipC := false, backlog := [], late := 0
    sregs := p.sregs, sready := Vector.replicate 32 0, kregs := p.kregs, pend := p.pend
    dqs := k.dqs.map fun q => q.filter fun e => decide (e.seq ≤ p.seq)
    vsta := k.vsta.filter fun e => decide (e.seq ≤ p.seq) }

/-- Registers of v that are listed become those of w. -/
def copyRegs (rs : List (BitVec 5)) (v w : Vector Word 32) : Vector Word 32 :=
  rs.foldl (fun v r => if r = 0 then v else v.setIfInBounds r.toNat (w.getD r.toNat 0)) v

/-- v, in which the held effect of p has been performed or waits, and what k had done beyond p, in one. -/
def Ctx.afterHeld (k : Ctx) (p : Part) (v : Ctx) (done : Bool) : Ctx :=
  let gone := k.pend.filter fun l => decide (l.seq < p.seq) && !v.pend.any fun m => m.seq = l.seq
  let regs := gone.map (fun l => l.d) ++ (if done then (Part.use { p with held := true }).2 else [])
  let back := fun (q : Part) => { q with
    sregs := copyRegs regs q.sregs v.sregs, pend := v.pend ++ q.pend.filter fun l => decide (p.seq < l.seq) }
  { v with
    unit := k.unit, upc := k.upc, pc := k.pc, npc := k.npc, useq := k.useq, seq := k.seq, late := k.late, kregs := k.kregs
    skipC := k.skipC
    sregs := copyRegs regs k.sregs v.sregs
    sready := (if done then (Part.use { p with held := true }).2 else []).foldl (fun a r => a.setIfInBounds r.toNat (v.sready.getD r.toNat 0)) k.sready
    pend := (v.pend.filter fun l => l.seq = p.seq || k.pend.any fun m => m.seq = l.seq) ++ k.pend.filter fun l => decide (p.seq < l.seq)
    dqs := Vector.ofFn fun i => v.dqs[i] ++ k.dqs[i].filter fun e => decide (p.seq < e.seq)
    vsta := v.vsta ++ k.vsta.filter fun e => decide (p.seq < e.seq)
    backlog := (k.backlog.filter fun q => !(done && q.seq = p.seq && q.image.getLsbD 31)).map fun q =>
      back (if done && q.seq = p.seq then { q with held := false } else q) }

/-- The held effect of the head of a context's compute stream is performed: every unit before it has issued without a trap. A trap takes the tile
out of its gang (R146). -/
def performHeld (t c : Nat) (s : State) : Out :=
  let k := s.ctxAt t c
  match k.backlog with
  | [] => .next s
  | p :: _ =>
    if !p.held || s.flashing t p.image then .next s
    else
      let s0 : State := { (s.asCtx t c).setCtx (k.beforeHeld p) with compute := false }
      match runPart (if p.image.getLsbD 31 then decodeLone p.image else decodeC (bits p.image 0 32)) false s0 with
      | .next s1 =>
        if (s1.fate = .done || s1.fate = .waited) && mhas (s1.tile t).ctxs c then
          if s.now < s1.now then .next s
          else .next (s1.modCtxAt t c fun v => k.afterHeld p v (s1.fate = .done))
        else .next (if (s1.tile t).gang.isSome then s1.leaveGang t else s1)
      | o => o

/-! ## Gangs (R18, R146, R337) -/

/-- The C-word of a unit takes its branch in its stream, on the registers of the context (R222, R223). -/
def Ctx.takes (k : Ctx) (u : Word) (compute : Bool) : Bool :=
  if u.getLsbD 31 || unitX u ≠ compute then false
  else match decodeC (bits u 0 32) with
    | some (.beq f) => k.sreg f.a == k.sreg f.b
    | some (.bne f) => k.sreg f.a != k.sreg f.b
    | some (.blt f) => (k.sreg f.a).slt (k.sreg f.b)
    | some (.bge f) => !(k.sreg f.a).slt (k.sreg f.b)
    | some (.bltu f) => (k.sreg f.a).ult (k.sreg f.b)
    | some (.bgeu f) => !(k.sreg f.a).ult (k.sreg f.b)
    | some (.loop f) => k.sreg f.a - 1 != 0
    | _ => false

/-- What one member did: its tile, whether it trapped, and the outcome of its branch. -/
structure Did where
  tile : Nat
  trapped : Bool
  taken : Bool
  deriving DecidableEq, Repr

/-- After a part, members that trapped or whose outcome differs from the leader's leave (R18, R146, R226). When the leader itself has
trapped, the lowest member that stays leads (the spec names none: log entry 62). -/
def State.splitGang (s : State) (did : List Did) : State :=
  let still := did.filter fun d => (s.tile d.tile).gang.isSome
  match still.filter fun d => !d.trapped with
  | [] => still.foldl (fun s d => s.leaveGang d.tile) s
  | l :: _ =>
    let pc := (s.ctxAt l.tile 0).pc
    still.foldl (fun s d =>
      if d.trapped || d.taken ≠ l.taken || (s.ctxAt d.tile 0).pc ≠ pc then s.leaveGang d.tile
      else s.modTile d.tile fun x => { x with gang := some l.tile }) s

/-! ## The issue slots (R336, R337) -/

/-- The cycle from which a context has been ready for a slot, its level there, and its last issue there. -/
def Ctx.since (k : Ctx) (compute : Bool) : Option Nat := if compute then k.sinceA else k.sinceC
def Ctx.level (k : Ctx) (compute : Bool) : Nat := max k.prio (if compute then k.levelA else k.levelC)
def Ctx.last (k : Ctx) (compute : Bool) : Option Nat := if compute then k.lastA else k.lastC
def Ctx.setSince (k : Ctx) (compute : Bool) (n : Option Nat) : Ctx :=
  if compute then { k with sinceA := n } else { k with sinceC := n }
/-- One level up, to 3 at most. -/
def Ctx.raiseLevel (k : Ctx) (compute : Bool) : Ctx :=
  if compute then { k with levelA := min 3 (k.level true + 1) } else { k with levelC := min 3 (k.level false + 1) }
/-- It has issued in cycle n: it is at its base priority. -/
def Ctx.issued (k : Ctx) (compute : Bool) (n : Nat) : Ctx :=
  if compute then { k with lastA := some (max n (k.lastA.getD 0)), levelA := 0, sinceA := some n } else { k with lastC := some n, levelC := 0, sinceC := some n }

/-- A context that is ready in cycle n: raised once more when it has been so for 256 cycles without issuing (R336). -/
def Ctx.readyIn (k : Ctx) (compute : Bool) (n : Nat) : Ctx :=
  match k.since compute with
  | none => k.setSince compute (some n)
  | some m => if m + 256 ≤ n then (k.raiseLevel compute).setSince compute (some (m + 256)) else k

/-- A change of a context that may have ended. -/
def State.ifCtx (s : State) (t c : Nat) (f : Ctx → Ctx) : State := if mhas (s.tile t).ctxs c then s.modCtxAt t c f else s

/-- The contexts of a list that are ready for a slot of their tile; each other one leaves what its waiting changes. -/
def survey (compute : Bool) (t : Nat) : List Nat → State → List Nat × State
  | [], s => ([], s)
  | c :: cs, s =>
    match tryPart compute t c s with
    | .goes _ | .ends _ =>
      let (r, s) := survey compute t cs (s.modCtxAt t c fun k => k.readyIn compute s.now)
      (c :: r, s)
    | .waits s1 => survey compute t cs (s1.ifCtx t c fun k => k.setSince compute none)
    | .stuck => survey compute t cs (s.modCtxAt t c fun k => k.setSince compute none)

/-- Context c is ready for one of its tile's slots. -/
def State.readyNow (s : State) (t c : Nat) : Bool :=
  [false, true].any fun compute =>
    match tryPart compute t c s with
    | .goes _ | .ends _ => true
    | _ => false

/-- The contexts that a cycle grants a tile's slots to: one that has yielded is left out of both while another is ready (R314, R336). -/
def State.slotCtxs (s : State) (t : Nat) : List Nat :=
  let cs := s.liveCtxs t
  if cs.any (fun c => s.yielding t c) && cs.any (fun c => !s.yielding t c && s.readyNow t c) then cs.filter fun c => !s.yielding t c else cs

/-- k goes before l: a higher level, then an older last issue. -/
def Ctx.beats (k l : Ctx) (compute : Bool) : Bool :=
  decide (l.level compute < k.level compute) ||
    (k.level compute = l.level compute &&
      match k.last compute, l.last compute with
      | none, some _ => true
      | some m, some n => decide (m < n)
      | _, none => false)

/-- R336: the highest level, then the oldest last issue, then the lower CTXID. -/
def State.choose (s : State) (compute : Bool) (t : Nat) (ready : List Nat) : Option Nat :=
  ready.foldl (fun best c =>
    match best with
    | none => some c
    | some b => if (s.ctxAt t c).beats (s.ctxAt t b) compute then some c else best) none

/-- Context c of tile t issues in a slot. -/
def issuePart (compute : Bool) (t c : Nat) (s : State) : Out :=
  match tryPart compute t c s with
  | .goes s1 => .next (s1.ifCtx t c fun k => k.issued compute s.now)
  | .ends o => o
  | _ => .next s

/-- The one context of a tile issues in a slot, if it is ready. -/
def onlyPart (compute : Bool) (t c : Nat) (s : State) : Out :=
  match tryPart compute t c s with
  | .goes s1 => .next (s1.ifCtx t c fun k => k.issued compute s.now)
  | .ends o => o
  | .waits s1 => .next (s1.ifCtx t c fun k => k.setSince compute none)
  | .stuck => .next (s.modCtxAt t c fun k => k.setSince compute none)

/-- A slot of a tile goes to one of its contexts. -/
def slot (compute : Bool) (t : Nat) (cs : List Nat) (s : State) : Out :=
  match cs with
  | [c] => onlyPart compute t c s
  | _ =>
    let (ready, s) := survey compute t cs s
    match s.choose compute t ready with
    | some c => issuePart compute t c s
    | none => .next s

/-- The members of a gang issue one part each; none, if one of them waits after all. -/
def gangIssue (compute : Bool) : List Nat → List Did → State → Option (Host.Outcome (List Did × State) Fault Refusal)
  | [], did, s => some (.next (did, s))
  | m :: ms, did, s =>
    match tryPart compute m 0 s with
    | .goes s1 =>
      gangIssue compute ms (did ++ [⟨m, s1.fate ≠ .done, !(!compute && (s.ctxAt m 0).skipC) && (s.ctxAt m 0).takes (s1.ctxAt m 0).unit compute⟩])
        (s1.ifCtx m 0 fun k => k.issued compute s.now)
    | .ends (.fault r) => some (.fault r)
    | .ends (.refused r) => some (.refused r)
    | _ => none

/-- The contexts of a tile that a cycle began with and that are still there. -/
def State.still (s : State) (t : Nat) (cs : List Nat) : List Nat := cs.filter fun c => s.live t c

/-- What each member tile would grant. -/
def gangSurvey (compute : Bool) (cs : Nat → List Nat) : List Nat → State → List (Nat × List Nat) × State
  | [], s => ([], s)
  | m :: ms, s =>
    let (r, s) := survey compute m (s.still m (cs m)) s
    let (l, s) := gangSurvey compute cs ms s
    ((m, r) :: l, s)

/-- A slot of every member tile of a gang: the gang's, when each selector grants it; else each tile's next choice has it (R337). -/
def gangSlot (compute : Bool) (cs : Nat → List Nat) (members : List Nat) (s : State) : Out :=
  let (asks, s) := gangSurvey compute cs members s
  let others := andEach (fun (q : Nat × List Nat) s =>
    match s.choose compute q.1 (q.2.filter (· ≠ 0)) with
    | some c => issuePart compute q.1 c s
    | none => .next s) asks s
  if asks.all fun q => s.choose compute q.1 q.2 = some 0 then
    match gangIssue compute members [] s with
    | some (.next (did, s)) => .next (s.splitGang did)
    | some (.fault r) => .fault r
    | some (.refused r) => .refused r
    | none => others
  else others

/-! ## One cycle of a tile -/

/-- A trap that the control context of tile t takes at a unit boundary (R160, R344). -/
def State.outerTrap (s : State) (t : Nat) : Option (State → Out) :=
  let x := s.tile t
  let k := x.ctx 0
  if k.tip || !mhas x.ctxs 0 then none
  else if !x.posts.isEmpty then some (execHelpertrap t)
  else if !k.midLong && x.engine.trap.isSome then some (execMatrixTrap t)
  else none

/-- Before the slots are granted: a trap at a unit boundary, for which a gang member leaves its gang; a store pair that has become
complete (R139); a held effect whose turn has come (R136). -/
def beforeSlots (t : Nat) (s : State) : Out :=
  andThen (match s.outerTrap t with
    | some act => andThen (act s) fun s => .next (if (s.tile t).gang.isSome then s.leaveGang t else s)
    | none => .next s) fun s =>
  andEach (fun c s =>
    andThen (if (s.ctxAt t c).pairReady && decide ((s.tile t).flashUntil ≤ s.now) then execVstorePair t c s else .next s) fun s =>
      performHeld t c s) (s.liveCtxs t) s

/-- A slot of tiles that have begun a cycle as a gang: the gang's of those still in it, and each other one's own. -/
def groupSlot (compute : Bool) (cs : Nat → List Nat) (members : List Nat) (s : State) : Out :=
  let still := members.filter fun m => (s.tile m).gang.isSome && s.live m 0
  andThen (gangSlot compute cs still s) fun s =>
    andEach (fun m s => slot compute m (s.still m (cs m)) s) (members.filter fun m => !still.contains m) s

/-- The slots of one tile, or of the tiles of a gang, in one cycle: address stream, then compute stream. -/
def tileCycle (t : Nat) (s : State) : Out :=
  let members := match (s.tile t).gang with
    | some l => s.gangMembers l
    | none => []
  if members.contains t then
    andThen (andEach beforeSlots members { s with slots := s.slots.filter fun u => !members.contains u }) fun s =>
      let cs := s.slotCtxs
      andThen (groupSlot false cs members s) (groupSlot true cs members)
  else
    andThen (beforeSlots t s) fun s =>
      let cs := s.slotCtxs t
      andThen (slot false t cs s) fun s => slot true t (s.still t cs) s

/-! ## The hardware of a cycle -/

/-- Hardware of a tile that may act. -/
def State.tileWorks (s : State) (t : Nat) : List (State → Out) :=
  let x := s.tile t
  let e := x.engine
  let time := s.time (pkgOf t)
  (if e.queue.isEmpty || e.stopped then [] else [execMatrixKstep t, execMatrixCommandRetirement t]) ++
  (if e.outgoing.isSome then [execRingHandover t] else []) ++
  (((List.range 4).filter fun c => (x.chan c).st = .running).flatMap fun c => [execCopyPiece t c, execRecordComplete t c]) ++
  (if x.direct.isEmpty then [] else [execCopyPiece t 4, execDirectTransferDone t]) ++
  (x.held.map fun h => execTrackerHeldStart t h.chan) ++
  (if x.gate.isEmpty then [] else [execTaskStart t]) ++
  (x.pips.flatMap fun e =>
    if e.2.st = .live && e.2.expiry.any (fun n => decide (n ≤ time)) then [execPipExpiry t e.1]
    else if e.2.st = .quar && decide (e.2.quarEnd ≤ time) then [execPipQuarEnd t e.1] else []) ++
  ((x.ctxs.filter fun e => e.2.pairReady).map fun e => execVstorePair t e.1) ++
  (if x.mode = .signing then [execCompactSignature t] else []) ++
  (if (x.save.isSome || s.away.any fun im => im.origin = t) && !mhas x.ctxs 0 then [execSaveServiceStart t] else []) ++
  (if mhas x.ctxs 0 then
    (s.tiles.filter fun e => e.1 ≠ t && e.2.pips.any fun q =>
      (q.2.st = .live || q.2.st = .landed) && q.2.pid = x.pid && q.2.self = x.self).map fun e => execPipEnd e.1 t
   else [])

/-- Queues of a package whose descriptor has QEN = 1: it is bit 31 of the second doubleword (R326). -/
def State.tableQueues (s : State) (p : Nat) : List Nat :=
  match s.globalAddr p ((s.dev p).yarrow.qtBase.toNat * 4096) with
  | none => []
  | some a => (s.mem.filter fun c => decide (a ≤ c.1) && decide (c.1 < a + 2 ^ 22) && (c.1 - a) % 32 = 11 && c.2.getLsbD 7).map
      fun c => (c.1 - a) / 32

/-- Hardware of a package that may act. -/
def State.devWorks (s : State) (p : Nat) : List (State → Out) :=
  let d := s.dev p
  let f := d.fabric
  let waiting := s.held.any fun h => h.away && (h.stage = .relay p || (h.stage = .queue && pkgOf h.tile = p))
  (d.regions.flatMap fun r =>
    ((List.range r.2.walks.length).map fun n => execWalkComplete p r.1 n) ++ r.2.progs.map fun g => execVetchStep p r.1 g.id) ++
  (if d.yarrow.en then
    (s.tableQueues p).map (fun q => execTailWake p q) ++
    d.yarrow.queues.map (fun q => execLaunchAging p q.1) ++ [execLaunchSelect p]
   else []) ++
  (if (s.triggersDue p).isEmpty then [] else [happen fun s => s.fireTriggers p]) ++
  (if d.mgmt.merging.any fun e => e.over (s.time p) then [happen fun s => s.flushMerged p] else []) ++
  (if d.mgmt.events.isEmpty && d.mgmt.lostEvents = 0 then [] else [execMgmtEventSend p]) ++
  (if f.st = .dark && f.relockGo then [execRelockRotation p] else []) ++
  (if s.relockDue p (s.symmetric p) then [execRelockDone p (s.symmetric p)] else []) ++
  ((s.calibrates p).toList.map fun port => execLaneRetrain p (8 * port)) ++
  ((f.retraining.filter fun l => s.handsBack p l).map fun l => execLaneHandback p l true) ++
  (if f.st = .drain then [execDrainTimeout p] else []) ++
  (if f.st = .drain || (f.st = .run && waiting) then [execSlotEdge p (f.slotOf (s.time p))] else []) ++
  ((f.allows.filter fun a => decide (0 < a.2.owed) && s.returnsNow p a.1).map fun a => execAllowanceReturn p a.1 a.2.owed)

/-- Launches that may reach another package, end or resume. -/
def State.launchWorks (s : State) : List (State → Out) :=
  s.partitions.flatMap fun q =>
    ((s.present.filter fun p => q.st = .live && (s.unstarted q).any fun t => pkgOf t = p).map fun p => execLaunchForward p q.pid) ++
    [execLaunchComplete q.pid, execPartitionResume q.pid]

/-- The hardware that may act. -/
def State.works (s : State) : List (State → Out) :=
  (s.tiles.flatMap fun e => s.tileWorks e.1) ++ (s.devices.flatMap fun e => s.devWorks e.1) ++ s.launchWorks ++
    (s.held.filter fun h => h.waits && s.keepsBack h ≠ 0).map fun h => execRegisterGrant h.id

/-- A turn of the agenda. A row with words is no event. -/
def take (turn : Turn) (s : State) : Out :=
  match turn with
  | .event i => if i.form = .event then exec i s else .next s
  | .tile t => if s.slots.contains t then tileCycle t { s with slots := s.slots.filter (· ≠ t) } else .next s
  | .upset t => .next (s.modTile t fun x => { x with engine := { x.engine with badScale := true } })
  | .post t => .next (s.wake t 0)
  | .bankError t c flaw => .next (s.ifCtx t c fun k => if k.retained then { k with flaw := flaw } else k)
  | .bar0 p off v => .next (s.bar0 p off v)
  | .symbols dev lane n => .next (s.symbols dev lane n)
  | .flit dev port bits => .next (s.flitArrives dev port bits)
  | .garble dev path n flip => .next (s.garble dev path n flip)
  | .mismatch t => .next (s.mismatch t)
  | .trigger p n => .next (s.trigger p n)
  | .extend p n d => .next (s.extendMeasure p n d)
  | .endPartition pid => .next (s.endPartition pid)
  | .idle n => .next (State.nextUpdates { s with now := s.now + n })

/-- The next cycle begins: every tile with contexts has its slots to grant. -/
def State.tick (s : State) : State :=
  State.nextUpdates { s with
    now := s.now + 1, turns := 0, fate := .done, slots := (s.tiles.filter fun e => !e.2.ctxs.isEmpty).map fun e => e.1 }

/-- A step with nothing on the agenda: the slots of the next tile of this cycle, else the next hardware, else the next cycle begins. -/
def cycleTurn (s : State) : Out :=
  match s.slots with
  | t :: rest => tileCycle t { s with slots := rest }
  | [] =>
    match s.works[s.turns]? with
    | some act => act { s with turns := s.turns + 1, fate := .done }
    | none => .next s.tick

/-- One step. -/
def turn (s : State) : Out :=
  match s.agenda with
  | t :: rest => take t { s with agenda := rest }
  | [] => cycleTurn s

end Sys2Proof.Machine
end

