-- ==== Sys2Proof/Machine/Probe.lean ====
section
/-! DEFINITION. A unit placed where the next step fetches: what the loads of a launch leave (R36, R333), on tile 0 of package 0. -/
namespace Sys2Proof.Machine

/-- A table entry to the node at a frame (R35). -/
def tableEntry (frame : Nat) : Nat := 2 ^ 63 + frame
/-- A large leaf to a frame with RD, WR, C, U and X (R35, R36). -/
def leafEntry (frame : Nat) : Nat := 2 ^ 63 + 2 ^ 61 + 2 ^ 59 + 2 ^ 58 + 2 ^ 57 + 2 ^ 56 + 2 ^ 55 + frame

/-- The address of the unit. -/
def probePc : Nat := 0x100000

/-- Root entry of ASID 0, its node, the next node with one large leaf that maps the first 512 MiB to themselves. -/
def probeTables (m : List Host.Cell) : List Host.Cell :=
  writeNat (writeNat (writeNat m 0 8 (tableEntry 0x80000)) 0x80000 8 (tableEntry 0x90000)) 0x90000 8 (leafEntry 0)

/-- The control context as a launch starts it (R333), at the unit. -/
def probeCtx : Ctx := { Ctx.reset with pc := BitVec.ofNat 64 probePc, npc := BitVec.ofNat 64 probePc }

/-- The unit's bytes at the pc of a control context that has just started, with nothing on the agenda. -/
def State.placeUnit (s : State) (u : Word) : State :=
  { s with
    mem := writeNat (probeTables s.mem) probePc 8 u.toNat
    tiles := mset s.tiles 0 { Tile.reset with mode := .free, ctxs := [(0, probeCtx)] }
    agenda := [], cur := 0, cid := 0, compute := false, fate := .done, slots := [0], turns := 0 }

end Sys2Proof.Machine
end

