-- ==== Sys2Proof/Machine/Step.lean ====
section
/-! DEFINITION. One step of the machine, and the machine with a given instruction where its next step fetches. -/
namespace Sys2Proof.Machine

/-- One step: the head of the agenda, or the current context's next unit. -/
def step (s : State) : Host.Outcome State Fault Refusal := turn s

/-- s with the instruction's bytes where the next step fetches them. -/
def State.withFetchWord (s : State) (nbits w : Nat) : State := s.placeUnit (tableUnit nbits w)

end Sys2Proof.Machine
end

