-- ==== Sys2Proof/Laws/PerInstr.lean ====
section
/-! SUPPORT. A statement made of every instruction, and its proof for each constructor: where the bits of its words lie (R189, R192,
R200, R205). A C-word has L = 0 and leaves the A-word's half of the unit to it; a lone unit has L = 1; an event has no words. -/
namespace Sys2Proof.Laws

theorem high_clear (w : BitVec 32) (h : w.getLsbD 31 = false) : (w.setWidth 64).toNat < 2 ^ 31 := by
  have : w.msb = false := by rw [BitVec.msb_eq_getLsbD_last]; exact h
  rw [BitVec.msb_eq_decide] at this
  simp at this ⊢
  omega

theorem half_clear (w : BitVec 32) : (w.setWidth 64).toNat < 2 ^ 32 := by
  have := w.isLt
  simp
  omega

theorem packCR_l (c n : Nat) (f : CR) : (packCR c n f).getLsbD 31 = false := by
  unfold packCR
  simp only [BitVec.getLsbD_append]
  simp
theorem packCI_l (c : Nat) (f : CI) : (packCI c f).getLsbD 31 = false := by
  unfold packCI
  simp only [BitVec.getLsbD_append]
  simp
theorem packCB_l (c : Nat) (f : CB) : (packCB c f).getLsbD 31 = false := by
  unfold packCB
  simp only [BitVec.getLsbD_append]
  simp
theorem packCM_l (c : Nat) (f : CM) : (packCM c f).getLsbD 31 = false := by
  unfold packCM
  simp only [BitVec.getLsbD_append]
  simp
theorem packAF_l (c : Nat) (f : AF) : (packAF c f).getLsbD 31 = false := by
  unfold packAF
  simp only [BitVec.getLsbD_append]
  simp
theorem packCF_l (c n : Nat) (f : CF) : (packCF c n f).getLsbD 31 = false := by
  unfold packCF
  simp only [BitVec.getLsbD_append]
  simp
theorem packTFENCE_l (m : BitVec 11) : (packTFENCE m).getLsbD 31 = false := by
  unfold packTFENCE
  simp only [BitVec.getLsbD_append]
  simp
theorem packLF_l (c : Nat) (f : LF) : (packLF c f).getLsbD 31 = true := by
  unfold packLF
  simp only [BitVec.getLsbD_append]
  simp

/-- Where the words of an instruction lie in its unit. -/
def Encoding.Statement (i : Instr) : Prop :=
  match i.form with
  | .cword => (encode i).toNat < 2 ^ 31
  | .aword => (encode i).toNat < 2 ^ 32
  | .lone => (encode i).getLsbD 31 = true
  | .event => encode i = 0

end Sys2Proof.Laws

open Sys2Proof

theorem Sys2Proof.Laws.Encoding.cnop : Sys2Proof.Laws.Encoding.Statement (.cnop) := Nat.pow_pos (by decide)
theorem Sys2Proof.Laws.Encoding.add (f : CR) : Sys2Proof.Laws.Encoding.Statement (.add f) := Sys2Proof.Laws.high_clear _ (Sys2Proof.Laws.packCR_l _ _ _)
theorem Sys2Proof.Laws.Encoding.sub (f : CR) : Sys2Proof.Laws.Encoding.Statement (.sub f) := Sys2Proof.Laws.high_clear _ (Sys2Proof.Laws.packCR_l _ _ _)
theorem Sys2Proof.Laws.Encoding.and (f : CR) : Sys2Proof.Laws.Encoding.Statement (.and f) := Sys2Proof.Laws.high_clear _ (Sys2Proof.Laws.packCR_l _ _ _)
theorem Sys2Proof.Laws.Encoding.or (f : CR) : Sys2Proof.Laws.Encoding.Statement (.or f) := Sys2Proof.Laws.high_clear _ (Sys2Proof.Laws.packCR_l _ _ _)
theorem Sys2Proof.Laws.Encoding.xor (f : CR) : Sys2Proof.Laws.Encoding.Statement (.xor f) := Sys2Proof.Laws.high_clear _ (Sys2Proof.Laws.packCR_l _ _ _)
theorem Sys2Proof.Laws.Encoding.andn (f : CR) : Sys2Proof.Laws.Encoding.Statement (.andn f) := Sys2Proof.Laws.high_clear _ (Sys2Proof.Laws.packCR_l _ _ _)
theorem Sys2Proof.Laws.Encoding.shl (f : CR) : Sys2Proof.Laws.Encoding.Statement (.shl f) := Sys2Proof.Laws.high_clear _ (Sys2Proof.Laws.packCR_l _ _ _)
theorem Sys2Proof.Laws.Encoding.shr (f : CR) : Sys2Proof.Laws.Encoding.Statement (.shr f) := Sys2Proof.Laws.high_clear _ (Sys2Proof.Laws.packCR_l _ _ _)
theorem Sys2Proof.Laws.Encoding.sar (f : CR) : Sys2Proof.Laws.Encoding.Statement (.sar f) := Sys2Proof.Laws.high_clear _ (Sys2Proof.Laws.packCR_l _ _ _)
theorem Sys2Proof.Laws.Encoding.mul (f : CR) : Sys2Proof.Laws.Encoding.Statement (.mul f) := Sys2Proof.Laws.high_clear _ (Sys2Proof.Laws.packCR_l _ _ _)
theorem Sys2Proof.Laws.Encoding.mulh (f : CR) : Sys2Proof.Laws.Encoding.Statement (.mulh f) := Sys2Proof.Laws.high_clear _ (Sys2Proof.Laws.packCR_l _ _ _)
theorem Sys2Proof.Laws.Encoding.mulhu (f : CR) : Sys2Proof.Laws.Encoding.Statement (.mulhu f) := Sys2Proof.Laws.high_clear _ (Sys2Proof.Laws.packCR_l _ _ _)
theorem Sys2Proof.Laws.Encoding.div (f : CR) : Sys2Proof.Laws.Encoding.Statement (.div f) := Sys2Proof.Laws.high_clear _ (Sys2Proof.Laws.packCR_l _ _ _)
theorem Sys2Proof.Laws.Encoding.divu (f : CR) : Sys2Proof.Laws.Encoding.Statement (.divu f) := Sys2Proof.Laws.high_clear _ (Sys2Proof.Laws.packCR_l _ _ _)
theorem Sys2Proof.Laws.Encoding.rem (f : CR) : Sys2Proof.Laws.Encoding.Statement (.rem f) := Sys2Proof.Laws.high_clear _ (Sys2Proof.Laws.packCR_l _ _ _)
theorem Sys2Proof.Laws.Encoding.remu (f : CR) : Sys2Proof.Laws.Encoding.Statement (.remu f) := Sys2Proof.Laws.high_clear _ (Sys2Proof.Laws.packCR_l _ _ _)
theorem Sys2Proof.Laws.Encoding.min (f : CR) : Sys2Proof.Laws.Encoding.Statement (.min f) := Sys2Proof.Laws.high_clear _ (Sys2Proof.Laws.packCR_l _ _ _)
theorem Sys2Proof.Laws.Encoding.max (f : CR) : Sys2Proof.Laws.Encoding.Statement (.max f) := Sys2Proof.Laws.high_clear _ (Sys2Proof.Laws.packCR_l _ _ _)
theorem Sys2Proof.Laws.Encoding.minu (f : CR) : Sys2Proof.Laws.Encoding.Statement (.minu f) := Sys2Proof.Laws.high_clear _ (Sys2Proof.Laws.packCR_l _ _ _)
theorem Sys2Proof.Laws.Encoding.maxu (f : CR) : Sys2Proof.Laws.Encoding.Statement (.maxu f) := Sys2Proof.Laws.high_clear _ (Sys2Proof.Laws.packCR_l _ _ _)
theorem Sys2Proof.Laws.Encoding.slt (f : CR) : Sys2Proof.Laws.Encoding.Statement (.slt f) := Sys2Proof.Laws.high_clear _ (Sys2Proof.Laws.packCR_l _ _ _)
theorem Sys2Proof.Laws.Encoding.sltu (f : CR) : Sys2Proof.Laws.Encoding.Statement (.sltu f) := Sys2Proof.Laws.high_clear _ (Sys2Proof.Laws.packCR_l _ _ _)
theorem Sys2Proof.Laws.Encoding.seq (f : CR) : Sys2Proof.Laws.Encoding.Statement (.seq f) := Sys2Proof.Laws.high_clear _ (Sys2Proof.Laws.packCR_l _ _ _)
theorem Sys2Proof.Laws.Encoding.clz (f : CR) : Sys2Proof.Laws.Encoding.Statement (.clz f) := Sys2Proof.Laws.high_clear _ (Sys2Proof.Laws.packCR_l _ _ _)
theorem Sys2Proof.Laws.Encoding.ctz (f : CR) : Sys2Proof.Laws.Encoding.Statement (.ctz f) := Sys2Proof.Laws.high_clear _ (Sys2Proof.Laws.packCR_l _ _ _)
theorem Sys2Proof.Laws.Encoding.popc (f : CR) : Sys2Proof.Laws.Encoding.Statement (.popc f) := Sys2Proof.Laws.high_clear _ (Sys2Proof.Laws.packCR_l _ _ _)
theorem Sys2Proof.Laws.Encoding.csel (f : CR) : Sys2Proof.Laws.Encoding.Statement (.csel f) := Sys2Proof.Laws.high_clear _ (Sys2Proof.Laws.packCR_l _ _ _)
theorem Sys2Proof.Laws.Encoding.padd (f : CR) : Sys2Proof.Laws.Encoding.Statement (.padd f) := Sys2Proof.Laws.high_clear _ (Sys2Proof.Laws.packCR_l _ _ _)
theorem Sys2Proof.Laws.Encoding.psub (f : CR) : Sys2Proof.Laws.Encoding.Statement (.psub f) := Sys2Proof.Laws.high_clear _ (Sys2Proof.Laws.packCR_l _ _ _)
theorem Sys2Proof.Laws.Encoding.bfx (f : CR) : Sys2Proof.Laws.Encoding.Statement (.bfx f) := Sys2Proof.Laws.high_clear _ (Sys2Proof.Laws.packCR_l _ _ _)
theorem Sys2Proof.Laws.Encoding.addi (f : CI) : Sys2Proof.Laws.Encoding.Statement (.addi f) := Sys2Proof.Laws.high_clear _ (Sys2Proof.Laws.packCI_l _ _)
theorem Sys2Proof.Laws.Encoding.andi (f : CI) : Sys2Proof.Laws.Encoding.Statement (.andi f) := Sys2Proof.Laws.high_clear _ (Sys2Proof.Laws.packCI_l _ _)
theorem Sys2Proof.Laws.Encoding.ori (f : CI) : Sys2Proof.Laws.Encoding.Statement (.ori f) := Sys2Proof.Laws.high_clear _ (Sys2Proof.Laws.packCI_l _ _)
theorem Sys2Proof.Laws.Encoding.xori (f : CI) : Sys2Proof.Laws.Encoding.Statement (.xori f) := Sys2Proof.Laws.high_clear _ (Sys2Proof.Laws.packCI_l _ _)
theorem Sys2Proof.Laws.Encoding.slti (f : CI) : Sys2Proof.Laws.Encoding.Statement (.slti f) := Sys2Proof.Laws.high_clear _ (Sys2Proof.Laws.packCI_l _ _)
theorem Sys2Proof.Laws.Encoding.sltiu (f : CI) : Sys2Proof.Laws.Encoding.Statement (.sltiu f) := Sys2Proof.Laws.high_clear _ (Sys2Proof.Laws.packCI_l _ _)
theorem Sys2Proof.Laws.Encoding.shli (f : CI) : Sys2Proof.Laws.Encoding.Statement (.shli f) := Sys2Proof.Laws.high_clear _ (Sys2Proof.Laws.packCI_l _ _)
theorem Sys2Proof.Laws.Encoding.shri (f : CI) : Sys2Proof.Laws.Encoding.Statement (.shri f) := Sys2Proof.Laws.high_clear _ (Sys2Proof.Laws.packCI_l _ _)
theorem Sys2Proof.Laws.Encoding.sari (f : CI) : Sys2Proof.Laws.Encoding.Statement (.sari f) := Sys2Proof.Laws.high_clear _ (Sys2Proof.Laws.packCI_l _ _)
theorem Sys2Proof.Laws.Encoding.paddi (f : CI) : Sys2Proof.Laws.Encoding.Statement (.paddi f) := Sys2Proof.Laws.high_clear _ (Sys2Proof.Laws.packCI_l _ _)
theorem Sys2Proof.Laws.Encoding.ptag (f : CI) : Sys2Proof.Laws.Encoding.Statement (.ptag f) := Sys2Proof.Laws.high_clear _ (Sys2Proof.Laws.packCI_l _ _)
theorem Sys2Proof.Laws.Encoding.beq (f : CB) : Sys2Proof.Laws.Encoding.Statement (.beq f) := Sys2Proof.Laws.high_clear _ (Sys2Proof.Laws.packCB_l _ _)
theorem Sys2Proof.Laws.Encoding.bne (f : CB) : Sys2Proof.Laws.Encoding.Statement (.bne f) := Sys2Proof.Laws.high_clear _ (Sys2Proof.Laws.packCB_l _ _)
theorem Sys2Proof.Laws.Encoding.blt (f : CB) : Sys2Proof.Laws.Encoding.Statement (.blt f) := Sys2Proof.Laws.high_clear _ (Sys2Proof.Laws.packCB_l _ _)
theorem Sys2Proof.Laws.Encoding.bge (f : CB) : Sys2Proof.Laws.Encoding.Statement (.bge f) := Sys2Proof.Laws.high_clear _ (Sys2Proof.Laws.packCB_l _ _)
theorem Sys2Proof.Laws.Encoding.bltu (f : CB) : Sys2Proof.Laws.Encoding.Statement (.bltu f) := Sys2Proof.Laws.high_clear _ (Sys2Proof.Laws.packCB_l _ _)
theorem Sys2Proof.Laws.Encoding.bgeu (f : CB) : Sys2Proof.Laws.Encoding.Statement (.bgeu f) := Sys2Proof.Laws.high_clear _ (Sys2Proof.Laws.packCB_l _ _)
theorem Sys2Proof.Laws.Encoding.loop (f : CB) : Sys2Proof.Laws.Encoding.Statement (.loop f) := Sys2Proof.Laws.high_clear _ (Sys2Proof.Laws.packCB_l _ _)
theorem Sys2Proof.Laws.Encoding.jr (f : CI) : Sys2Proof.Laws.Encoding.Statement (.jr f) := Sys2Proof.Laws.high_clear _ (Sys2Proof.Laws.packCI_l _ _)
theorem Sys2Proof.Laws.Encoding.ldl (f : CM) : Sys2Proof.Laws.Encoding.Statement (.ldl f) := Sys2Proof.Laws.high_clear _ (Sys2Proof.Laws.packCM_l _ _)
theorem Sys2Proof.Laws.Encoding.stl (f : CM) : Sys2Proof.Laws.Encoding.Statement (.stl f) := Sys2Proof.Laws.high_clear _ (Sys2Proof.Laws.packCM_l _ _)
theorem Sys2Proof.Laws.Encoding.ldg (f : CM) : Sys2Proof.Laws.Encoding.Statement (.ldg f) := Sys2Proof.Laws.high_clear _ (Sys2Proof.Laws.packCM_l _ _)
theorem Sys2Proof.Laws.Encoding.stg (f : CM) : Sys2Proof.Laws.Encoding.Statement (.stg f) := Sys2Proof.Laws.high_clear _ (Sys2Proof.Laws.packCM_l _ _)
theorem Sys2Proof.Laws.Encoding.ldacq (f : CM) : Sys2Proof.Laws.Encoding.Statement (.ldacq f) := Sys2Proof.Laws.high_clear _ (Sys2Proof.Laws.packCM_l _ _)
theorem Sys2Proof.Laws.Encoding.strel (f : CM) : Sys2Proof.Laws.Encoding.Statement (.strel f) := Sys2Proof.Laws.high_clear _ (Sys2Proof.Laws.packCM_l _ _)
theorem Sys2Proof.Laws.Encoding.amoadd (f : AF) : Sys2Proof.Laws.Encoding.Statement (.amoadd f) := Sys2Proof.Laws.high_clear _ (Sys2Proof.Laws.packAF_l _ _)
theorem Sys2Proof.Laws.Encoding.amoand (f : AF) : Sys2Proof.Laws.Encoding.Statement (.amoand f) := Sys2Proof.Laws.high_clear _ (Sys2Proof.Laws.packAF_l _ _)
theorem Sys2Proof.Laws.Encoding.amoor (f : AF) : Sys2Proof.Laws.Encoding.Statement (.amoor f) := Sys2Proof.Laws.high_clear _ (Sys2Proof.Laws.packAF_l _ _)
theorem Sys2Proof.Laws.Encoding.amoxor (f : AF) : Sys2Proof.Laws.Encoding.Statement (.amoxor f) := Sys2Proof.Laws.high_clear _ (Sys2Proof.Laws.packAF_l _ _)
theorem Sys2Proof.Laws.Encoding.amomin (f : AF) : Sys2Proof.Laws.Encoding.Statement (.amomin f) := Sys2Proof.Laws.high_clear _ (Sys2Proof.Laws.packAF_l _ _)
theorem Sys2Proof.Laws.Encoding.amomax (f : AF) : Sys2Proof.Laws.Encoding.Statement (.amomax f) := Sys2Proof.Laws.high_clear _ (Sys2Proof.Laws.packAF_l _ _)
theorem Sys2Proof.Laws.Encoding.amominu (f : AF) : Sys2Proof.Laws.Encoding.Statement (.amominu f) := Sys2Proof.Laws.high_clear _ (Sys2Proof.Laws.packAF_l _ _)
theorem Sys2Proof.Laws.Encoding.amomaxu (f : AF) : Sys2Proof.Laws.Encoding.Statement (.amomaxu f) := Sys2Proof.Laws.high_clear _ (Sys2Proof.Laws.packAF_l _ _)
theorem Sys2Proof.Laws.Encoding.amoswp (f : AF) : Sys2Proof.Laws.Encoding.Statement (.amoswp f) := Sys2Proof.Laws.high_clear _ (Sys2Proof.Laws.packAF_l _ _)
theorem Sys2Proof.Laws.Encoding.amocas (f : AF) : Sys2Proof.Laws.Encoding.Statement (.amocas f) := Sys2Proof.Laws.high_clear _ (Sys2Proof.Laws.packAF_l _ _)
theorem Sys2Proof.Laws.Encoding.amofadd (f : AF) : Sys2Proof.Laws.Encoding.Statement (.amofadd f) := Sys2Proof.Laws.high_clear _ (Sys2Proof.Laws.packAF_l _ _)
theorem Sys2Proof.Laws.Encoding.amofmax (f : AF) : Sys2Proof.Laws.Encoding.Statement (.amofmax f) := Sys2Proof.Laws.high_clear _ (Sys2Proof.Laws.packAF_l _ _)
theorem Sys2Proof.Laws.Encoding.acq (f : CF) : Sys2Proof.Laws.Encoding.Statement (.acq f) := Sys2Proof.Laws.high_clear _ (Sys2Proof.Laws.packCF_l _ _ _)
theorem Sys2Proof.Laws.Encoding.rel (f : CF) : Sys2Proof.Laws.Encoding.Statement (.rel f) := Sys2Proof.Laws.high_clear _ (Sys2Proof.Laws.packCF_l _ _ _)
theorem Sys2Proof.Laws.Encoding.fence (f : CF) : Sys2Proof.Laws.Encoding.Statement (.fence f) := Sys2Proof.Laws.high_clear _ (Sys2Proof.Laws.packCF_l _ _ _)
theorem Sys2Proof.Laws.Encoding.qwait (f : CF) : Sys2Proof.Laws.Encoding.Statement (.qwait f) := Sys2Proof.Laws.high_clear _ (Sys2Proof.Laws.packCF_l _ _ _)
theorem Sys2Proof.Laws.Encoding.mbw (f : CF) : Sys2Proof.Laws.Encoding.Statement (.mbw f) := Sys2Proof.Laws.high_clear _ (Sys2Proof.Laws.packCF_l _ _ _)
theorem Sys2Proof.Laws.Encoding.mbr (f : CF) : Sys2Proof.Laws.Encoding.Statement (.mbr f) := Sys2Proof.Laws.high_clear _ (Sys2Proof.Laws.packCF_l _ _ _)
theorem Sys2Proof.Laws.Encoding.mbtest (f : CF) : Sys2Proof.Laws.Encoding.Statement (.mbtest f) := Sys2Proof.Laws.high_clear _ (Sys2Proof.Laws.packCF_l _ _ _)
theorem Sys2Proof.Laws.Encoding.tfence (mask : BitVec 11) : Sys2Proof.Laws.Encoding.Statement (.tfence mask) := Sys2Proof.Laws.high_clear _ (Sys2Proof.Laws.packTFENCE_l _)
theorem Sys2Proof.Laws.Encoding.binit (f : CF) : Sys2Proof.Laws.Encoding.Statement (.binit f) := Sys2Proof.Laws.high_clear _ (Sys2Proof.Laws.packCF_l _ _ _)
theorem Sys2Proof.Laws.Encoding.bexpect (f : CF) : Sys2Proof.Laws.Encoding.Statement (.bexpect f) := Sys2Proof.Laws.high_clear _ (Sys2Proof.Laws.packCF_l _ _ _)
theorem Sys2Proof.Laws.Encoding.barrive (f : CF) : Sys2Proof.Laws.Encoding.Statement (.barrive f) := Sys2Proof.Laws.high_clear _ (Sys2Proof.Laws.packCF_l _ _ _)
theorem Sys2Proof.Laws.Encoding.bwait (f : CF) : Sys2Proof.Laws.Encoding.Statement (.bwait f) := Sys2Proof.Laws.high_clear _ (Sys2Proof.Laws.packCF_l _ _ _)
theorem Sys2Proof.Laws.Encoding.btest (f : CF) : Sys2Proof.Laws.Encoding.Statement (.btest f) := Sys2Proof.Laws.high_clear _ (Sys2Proof.Laws.packCF_l _ _ _)
theorem Sys2Proof.Laws.Encoding.bwany (f : CF) : Sys2Proof.Laws.Encoding.Statement (.bwany f) := Sys2Proof.Laws.high_clear _ (Sys2Proof.Laws.packCF_l _ _ _)
theorem Sys2Proof.Laws.Encoding.chtest (f : CF) : Sys2Proof.Laws.Encoding.Statement (.chtest f) := Sys2Proof.Laws.high_clear _ (Sys2Proof.Laws.packCF_l _ _ _)
theorem Sys2Proof.Laws.Encoding.chwait (f : CF) : Sys2Proof.Laws.Encoding.Statement (.chwait f) := Sys2Proof.Laws.high_clear _ (Sys2Proof.Laws.packCF_l _ _ _)
theorem Sys2Proof.Laws.Encoding.chclr (f : CF) : Sys2Proof.Laws.Encoding.Statement (.chclr f) := Sys2Proof.Laws.high_clear _ (Sys2Proof.Laws.packCF_l _ _ _)
theorem Sys2Proof.Laws.Encoding.lsalloc (f : CF) : Sys2Proof.Laws.Encoding.Statement (.lsalloc f) := Sys2Proof.Laws.high_clear _ (Sys2Proof.Laws.packCF_l _ _ _)
theorem Sys2Proof.Laws.Encoding.lsfree (f : CF) : Sys2Proof.Laws.Encoding.Statement (.lsfree f) := Sys2Proof.Laws.high_clear _ (Sys2Proof.Laws.packCF_l _ _ _)
theorem Sys2Proof.Laws.Encoding.pmint (f : CF) : Sys2Proof.Laws.Encoding.Statement (.pmint f) := Sys2Proof.Laws.high_clear _ (Sys2Proof.Laws.packCF_l _ _ _)
theorem Sys2Proof.Laws.Encoding.pdrop (f : CF) : Sys2Proof.Laws.Encoding.Statement (.pdrop f) := Sys2Proof.Laws.high_clear _ (Sys2Proof.Laws.packCF_l _ _ _)
theorem Sys2Proof.Laws.Encoding.pstat (f : CF) : Sys2Proof.Laws.Encoding.Statement (.pstat f) := Sys2Proof.Laws.high_clear _ (Sys2Proof.Laws.packCF_l _ _ _)
theorem Sys2Proof.Laws.Encoding.cpych (f : CF) : Sys2Proof.Laws.Encoding.Statement (.cpych f) := Sys2Proof.Laws.high_clear _ (Sys2Proof.Laws.packCF_l _ _ _)
theorem Sys2Proof.Laws.Encoding.cpystat (f : CF) : Sys2Proof.Laws.Encoding.Statement (.cpystat f) := Sys2Proof.Laws.high_clear _ (Sys2Proof.Laws.packCF_l _ _ _)
theorem Sys2Proof.Laws.Encoding.cpywait (f : CF) : Sys2Proof.Laws.Encoding.Statement (.cpywait f) := Sys2Proof.Laws.high_clear _ (Sys2Proof.Laws.packCF_l _ _ _)
theorem Sys2Proof.Laws.Encoding.cpykill (f : CF) : Sys2Proof.Laws.Encoding.Statement (.cpykill f) := Sys2Proof.Laws.high_clear _ (Sys2Proof.Laws.packCF_l _ _ _)
theorem Sys2Proof.Laws.Encoding.trkset (f : CF) : Sys2Proof.Laws.Encoding.Statement (.trkset f) := Sys2Proof.Laws.high_clear _ (Sys2Proof.Laws.packCF_l _ _ _)
theorem Sys2Proof.Laws.Encoding.trkclr (f : CF) : Sys2Proof.Laws.Encoding.Statement (.trkclr f) := Sys2Proof.Laws.high_clear _ (Sys2Proof.Laws.packCF_l _ _ _)
theorem Sys2Proof.Laws.Encoding.hstart (f : CF) : Sys2Proof.Laws.Encoding.Statement (.hstart f) := Sys2Proof.Laws.high_clear _ (Sys2Proof.Laws.packCF_l _ _ _)
theorem Sys2Proof.Laws.Encoding.hend (f : CF) : Sys2Proof.Laws.Encoding.Statement (.hend f) := Sys2Proof.Laws.high_clear _ (Sys2Proof.Laws.packCF_l _ _ _)
theorem Sys2Proof.Laws.Encoding.hjoin (f : CF) : Sys2Proof.Laws.Encoding.Statement (.hjoin f) := Sys2Proof.Laws.high_clear _ (Sys2Proof.Laws.packCF_l _ _ _)
theorem Sys2Proof.Laws.Encoding.hkill (f : CF) : Sys2Proof.Laws.Encoding.Statement (.hkill f) := Sys2Proof.Laws.high_clear _ (Sys2Proof.Laws.packCF_l _ _ _)
theorem Sys2Proof.Laws.Encoding.taskq (f : CF) : Sys2Proof.Laws.Encoding.Statement (.taskq f) := Sys2Proof.Laws.high_clear _ (Sys2Proof.Laws.packCF_l _ _ _)
theorem Sys2Proof.Laws.Encoding.taskqLone (f : LF) : Sys2Proof.Laws.Encoding.Statement (.taskqLone f) := Sys2Proof.Laws.packLF_l _ _
theorem Sys2Proof.Laws.Encoding.gfuse (f : CF) : Sys2Proof.Laws.Encoding.Statement (.gfuse f) := Sys2Proof.Laws.high_clear _ (Sys2Proof.Laws.packCF_l _ _ _)
theorem Sys2Proof.Laws.Encoding.gsplit (f : CF) : Sys2Proof.Laws.Encoding.Statement (.gsplit f) := Sys2Proof.Laws.high_clear _ (Sys2Proof.Laws.packCF_l _ _ _)
theorem Sys2Proof.Laws.Encoding.csign (f : CF) : Sys2Proof.Laws.Encoding.Statement (.csign f) := Sys2Proof.Laws.high_clear _ (Sys2Proof.Laws.packCF_l _ _ _)
theorem Sys2Proof.Laws.Encoding.cstep (f : CF) : Sys2Proof.Laws.Encoding.Statement (.cstep f) := Sys2Proof.Laws.high_clear _ (Sys2Proof.Laws.packCF_l _ _ _)
theorem Sys2Proof.Laws.Encoding.cdiss (f : CF) : Sys2Proof.Laws.Encoding.Statement (.cdiss f) := Sys2Proof.Laws.high_clear _ (Sys2Proof.Laws.packCF_l _ _ _)
theorem Sys2Proof.Laws.Encoding.send (f : CF) : Sys2Proof.Laws.Encoding.Statement (.send f) := Sys2Proof.Laws.high_clear _ (Sys2Proof.Laws.packCF_l _ _ _)
theorem Sys2Proof.Laws.Encoding.recv (f : CF) : Sys2Proof.Laws.Encoding.Statement (.recv f) := Sys2Proof.Laws.high_clear _ (Sys2Proof.Laws.packCF_l _ _ _)
theorem Sys2Proof.Laws.Encoding.recvt (f : CF) : Sys2Proof.Laws.Encoding.Statement (.recvt f) := Sys2Proof.Laws.high_clear _ (Sys2Proof.Laws.packCF_l _ _ _)
theorem Sys2Proof.Laws.Encoding.coll (f : CF) : Sys2Proof.Laws.Encoding.Statement (.coll f) := Sys2Proof.Laws.high_clear _ (Sys2Proof.Laws.packCF_l _ _ _)
theorem Sys2Proof.Laws.Encoding.collLone (f : LF) : Sys2Proof.Laws.Encoding.Statement (.collLone f) := Sys2Proof.Laws.packLF_l _ _
theorem Sys2Proof.Laws.Encoding.cwait (f : CF) : Sys2Proof.Laws.Encoding.Statement (.cwait f) := Sys2Proof.Laws.high_clear _ (Sys2Proof.Laws.packCF_l _ _ _)
theorem Sys2Proof.Laws.Encoding.mbegin (f : CF) : Sys2Proof.Laws.Encoding.Statement (.mbegin f) := Sys2Proof.Laws.high_clear _ (Sys2Proof.Laws.packCF_l _ _ _)
theorem Sys2Proof.Laws.Encoding.mend (f : CF) : Sys2Proof.Laws.Encoding.Statement (.mend f) := Sys2Proof.Laws.high_clear _ (Sys2Proof.Laws.packCF_l _ _ _)
theorem Sys2Proof.Laws.Encoding.mzero (f : CF) : Sys2Proof.Laws.Encoding.Statement (.mzero f) := Sys2Proof.Laws.high_clear _ (Sys2Proof.Laws.packCF_l _ _ _)
theorem Sys2Proof.Laws.Encoding.msync (f : CF) : Sys2Proof.Laws.Encoding.Statement (.msync f) := Sys2Proof.Laws.high_clear _ (Sys2Proof.Laws.packCF_l _ _ _)
theorem Sys2Proof.Laws.Encoding.mma (f : LF) : Sys2Proof.Laws.Encoding.Statement (.mma f) := Sys2Proof.Laws.packLF_l _ _
theorem Sys2Proof.Laws.Encoding.mldb (f : LF) : Sys2Proof.Laws.Encoding.Statement (.mldb f) := Sys2Proof.Laws.packLF_l _ _
theorem Sys2Proof.Laws.Encoding.mrot (f : LF) : Sys2Proof.Laws.Encoding.Statement (.mrot f) := Sys2Proof.Laws.packLF_l _ _
theorem Sys2Proof.Laws.Encoding.mstore (f : LF) : Sys2Proof.Laws.Encoding.Statement (.mstore f) := Sys2Proof.Laws.packLF_l _ _
theorem Sys2Proof.Laws.Encoding.mload (f : LF) : Sys2Proof.Laws.Encoding.Statement (.mload f) := Sys2Proof.Laws.packLF_l _ _
theorem Sys2Proof.Laws.Encoding.matrixKstep (t : Nat) : Sys2Proof.Laws.Encoding.Statement (.matrixKstep t) := rfl
theorem Sys2Proof.Laws.Encoding.ringHandover (t : Nat) : Sys2Proof.Laws.Encoding.Statement (.ringHandover t) := rfl
theorem Sys2Proof.Laws.Encoding.matrixTrap (t : Nat) : Sys2Proof.Laws.Encoding.Statement (.matrixTrap t) := rfl
theorem Sys2Proof.Laws.Encoding.ecall (f : CF) : Sys2Proof.Laws.Encoding.Statement (.ecall f) := Sys2Proof.Laws.high_clear _ (Sys2Proof.Laws.packCF_l _ _ _)
theorem Sys2Proof.Laws.Encoding.eret (f : CF) : Sys2Proof.Laws.Encoding.Statement (.eret f) := Sys2Proof.Laws.high_clear _ (Sys2Proof.Laws.packCF_l _ _ _)
theorem Sys2Proof.Laws.Encoding.sysr (f : CF) : Sys2Proof.Laws.Encoding.Statement (.sysr f) := Sys2Proof.Laws.high_clear _ (Sys2Proof.Laws.packCF_l _ _ _)
theorem Sys2Proof.Laws.Encoding.sysw (f : CF) : Sys2Proof.Laws.Encoding.Statement (.sysw f) := Sys2Proof.Laws.high_clear _ (Sys2Proof.Laws.packCF_l _ _ _)
theorem Sys2Proof.Laws.Encoding.waiti (f : CF) : Sys2Proof.Laws.Encoding.Statement (.waiti f) := Sys2Proof.Laws.high_clear _ (Sys2Proof.Laws.packCF_l _ _ _)
theorem Sys2Proof.Laws.Encoding.yield (f : CF) : Sys2Proof.Laws.Encoding.Statement (.yield f) := Sys2Proof.Laws.high_clear _ (Sys2Proof.Laws.packCF_l _ _ _)
theorem Sys2Proof.Laws.Encoding.brk (f : CF) : Sys2Proof.Laws.Encoding.Statement (.brk f) := Sys2Proof.Laws.high_clear _ (Sys2Proof.Laws.packCF_l _ _ _)
theorem Sys2Proof.Laws.Encoding.halt (f : CF) : Sys2Proof.Laws.Encoding.Statement (.halt f) := Sys2Proof.Laws.high_clear _ (Sys2Proof.Laws.packCF_l _ _ _)
theorem Sys2Proof.Laws.Encoding.snap (f : CF) : Sys2Proof.Laws.Encoding.Statement (.snap f) := Sys2Proof.Laws.high_clear _ (Sys2Proof.Laws.packCF_l _ _ _)
theorem Sys2Proof.Laws.Encoding.tlbinv (f : CF) : Sys2Proof.Laws.Encoding.Statement (.tlbinv f) := Sys2Proof.Laws.high_clear _ (Sys2Proof.Laws.packCF_l _ _ _)
theorem Sys2Proof.Laws.Encoding.resize (f : CF) : Sys2Proof.Laws.Encoding.Statement (.resize f) := Sys2Proof.Laws.high_clear _ (Sys2Proof.Laws.packCF_l _ _ _)
theorem Sys2Proof.Laws.Encoding.lineclr (f : CF) : Sys2Proof.Laws.Encoding.Statement (.lineclr f) := Sys2Proof.Laws.high_clear _ (Sys2Proof.Laws.packCF_l _ _ _)
theorem Sys2Proof.Laws.Encoding.cwb (f : CF) : Sys2Proof.Laws.Encoding.Statement (.cwb f) := Sys2Proof.Laws.high_clear _ (Sys2Proof.Laws.packCF_l _ _ _)
theorem Sys2Proof.Laws.Encoding.cinv (f : CF) : Sys2Proof.Laws.Encoding.Statement (.cinv f) := Sys2Proof.Laws.high_clear _ (Sys2Proof.Laws.packCF_l _ _ _)
theorem Sys2Proof.Laws.Encoding.ctxsave (f : CF) : Sys2Proof.Laws.Encoding.Statement (.ctxsave f) := Sys2Proof.Laws.high_clear _ (Sys2Proof.Laws.packCF_l _ _ _)
theorem Sys2Proof.Laws.Encoding.ctxload (f : CF) : Sys2Proof.Laws.Encoding.Statement (.ctxload f) := Sys2Proof.Laws.high_clear _ (Sys2Proof.Laws.packCF_l _ _ _)
theorem Sys2Proof.Laws.Encoding.preempt (f : CF) : Sys2Proof.Laws.Encoding.Statement (.preempt f) := Sys2Proof.Laws.high_clear _ (Sys2Proof.Laws.packCF_l _ _ _)
theorem Sys2Proof.Laws.Encoding.kget (f : CF) : Sys2Proof.Laws.Encoding.Statement (.kget f) := Sys2Proof.Laws.high_clear _ (Sys2Proof.Laws.packCF_l _ _ _)
theorem Sys2Proof.Laws.Encoding.kset (f : CF) : Sys2Proof.Laws.Encoding.Statement (.kset f) := Sys2Proof.Laws.high_clear _ (Sys2Proof.Laws.packCF_l _ _ _)
theorem Sys2Proof.Laws.Encoding.vld (f : CM) : Sys2Proof.Laws.Encoding.Statement (.vld f) := Sys2Proof.Laws.high_clear _ (Sys2Proof.Laws.packCM_l _ _)
theorem Sys2Proof.Laws.Encoding.vsta (f : CM) : Sys2Proof.Laws.Encoding.Statement (.vsta f) := Sys2Proof.Laws.high_clear _ (Sys2Proof.Laws.packCM_l _ _)
theorem Sys2Proof.Laws.Encoding.vstorePair (t : Nat) (c : Nat) : Sys2Proof.Laws.Encoding.Statement (.vstorePair t c) := rfl
theorem Sys2Proof.Laws.Encoding.li (f : LF) : Sys2Proof.Laws.Encoding.Statement (.li f) := Sys2Proof.Laws.packLF_l _ _
theorem Sys2Proof.Laws.Encoding.lih (f : LF) : Sys2Proof.Laws.Encoding.Statement (.lih f) := Sys2Proof.Laws.packLF_l _ _
theorem Sys2Proof.Laws.Encoding.j (f : LF) : Sys2Proof.Laws.Encoding.Statement (.j f) := Sys2Proof.Laws.packLF_l _ _
theorem Sys2Proof.Laws.Encoding.jal (f : LF) : Sys2Proof.Laws.Encoding.Statement (.jal f) := Sys2Proof.Laws.packLF_l _ _
theorem Sys2Proof.Laws.Encoding.lia (f : LF) : Sys2Proof.Laws.Encoding.Statement (.lia f) := Sys2Proof.Laws.packLF_l _ _
theorem Sys2Proof.Laws.Encoding.cpy (f : LF) : Sys2Proof.Laws.Encoding.Statement (.cpy f) := Sys2Proof.Laws.packLF_l _ _
theorem Sys2Proof.Laws.Encoding.vgather (f : LF) : Sys2Proof.Laws.Encoding.Statement (.vgather f) := Sys2Proof.Laws.packLF_l _ _
theorem Sys2Proof.Laws.Encoding.vscatter (f : LF) : Sys2Proof.Laws.Encoding.Statement (.vscatter f) := Sys2Proof.Laws.packLF_l _ _
theorem Sys2Proof.Laws.Encoding.anop (w : BitVec 3) : Sys2Proof.Laws.Encoding.Statement (.anop w) := Sys2Proof.Laws.half_clear _
theorem Sys2Proof.Laws.Encoding.vadd (f : AW) : Sys2Proof.Laws.Encoding.Statement (.vadd f) := Sys2Proof.Laws.half_clear _
theorem Sys2Proof.Laws.Encoding.vsub (f : AW) : Sys2Proof.Laws.Encoding.Statement (.vsub f) := Sys2Proof.Laws.half_clear _
theorem Sys2Proof.Laws.Encoding.vmul (f : AW) : Sys2Proof.Laws.Encoding.Statement (.vmul f) := Sys2Proof.Laws.half_clear _
theorem Sys2Proof.Laws.Encoding.vmulh (f : AW) : Sys2Proof.Laws.Encoding.Statement (.vmulh f) := Sys2Proof.Laws.half_clear _
theorem Sys2Proof.Laws.Encoding.vmin (f : AW) : Sys2Proof.Laws.Encoding.Statement (.vmin f) := Sys2Proof.Laws.half_clear _
theorem Sys2Proof.Laws.Encoding.vmax (f : AW) : Sys2Proof.Laws.Encoding.Statement (.vmax f) := Sys2Proof.Laws.half_clear _
theorem Sys2Proof.Laws.Encoding.vand (f : AW) : Sys2Proof.Laws.Encoding.Statement (.vand f) := Sys2Proof.Laws.half_clear _
theorem Sys2Proof.Laws.Encoding.vor (f : AW) : Sys2Proof.Laws.Encoding.Statement (.vor f) := Sys2Proof.Laws.half_clear _
theorem Sys2Proof.Laws.Encoding.vxor (f : AW) : Sys2Proof.Laws.Encoding.Statement (.vxor f) := Sys2Proof.Laws.half_clear _
theorem Sys2Proof.Laws.Encoding.vandn (f : AW) : Sys2Proof.Laws.Encoding.Statement (.vandn f) := Sys2Proof.Laws.half_clear _
theorem Sys2Proof.Laws.Encoding.vshl (f : AW) : Sys2Proof.Laws.Encoding.Statement (.vshl f) := Sys2Proof.Laws.half_clear _
theorem Sys2Proof.Laws.Encoding.vshr (f : AW) : Sys2Proof.Laws.Encoding.Statement (.vshr f) := Sys2Proof.Laws.half_clear _
theorem Sys2Proof.Laws.Encoding.vsar (f : AW) : Sys2Proof.Laws.Encoding.Statement (.vsar f) := Sys2Proof.Laws.half_clear _
theorem Sys2Proof.Laws.Encoding.vabs (f : AW) : Sys2Proof.Laws.Encoding.Statement (.vabs f) := Sys2Proof.Laws.half_clear _
theorem Sys2Proof.Laws.Encoding.vclz (f : AW) : Sys2Proof.Laws.Encoding.Statement (.vclz f) := Sys2Proof.Laws.half_clear _
theorem Sys2Proof.Laws.Encoding.vpopc (f : AW) : Sys2Proof.Laws.Encoding.Statement (.vpopc f) := Sys2Proof.Laws.half_clear _
theorem Sys2Proof.Laws.Encoding.vadds (f : AW) : Sys2Proof.Laws.Encoding.Statement (.vadds f) := Sys2Proof.Laws.half_clear _
theorem Sys2Proof.Laws.Encoding.vsubs (f : AW) : Sys2Proof.Laws.Encoding.Statement (.vsubs f) := Sys2Proof.Laws.half_clear _
theorem Sys2Proof.Laws.Encoding.vfadd (f : AW) : Sys2Proof.Laws.Encoding.Statement (.vfadd f) := Sys2Proof.Laws.half_clear _
theorem Sys2Proof.Laws.Encoding.vfsub (f : AW) : Sys2Proof.Laws.Encoding.Statement (.vfsub f) := Sys2Proof.Laws.half_clear _
theorem Sys2Proof.Laws.Encoding.vfmul (f : AW) : Sys2Proof.Laws.Encoding.Statement (.vfmul f) := Sys2Proof.Laws.half_clear _
theorem Sys2Proof.Laws.Encoding.vfma (f : AW) : Sys2Proof.Laws.Encoding.Statement (.vfma f) := Sys2Proof.Laws.half_clear _
theorem Sys2Proof.Laws.Encoding.vfmin (f : AW) : Sys2Proof.Laws.Encoding.Statement (.vfmin f) := Sys2Proof.Laws.half_clear _
theorem Sys2Proof.Laws.Encoding.vfmax (f : AW) : Sys2Proof.Laws.Encoding.Statement (.vfmax f) := Sys2Proof.Laws.half_clear _
theorem Sys2Proof.Laws.Encoding.vrcp (f : AW) : Sys2Proof.Laws.Encoding.Statement (.vrcp f) := Sys2Proof.Laws.half_clear _
theorem Sys2Proof.Laws.Encoding.vrsq (f : AW) : Sys2Proof.Laws.Encoding.Statement (.vrsq f) := Sys2Proof.Laws.half_clear _
theorem Sys2Proof.Laws.Encoding.vexp2 (f : AW) : Sys2Proof.Laws.Encoding.Statement (.vexp2 f) := Sys2Proof.Laws.half_clear _
theorem Sys2Proof.Laws.Encoding.vlog2 (f : AW) : Sys2Proof.Laws.Encoding.Statement (.vlog2 f) := Sys2Proof.Laws.half_clear _
theorem Sys2Proof.Laws.Encoding.vsqrt (f : AW) : Sys2Proof.Laws.Encoding.Statement (.vsqrt f) := Sys2Proof.Laws.half_clear _
theorem Sys2Proof.Laws.Encoding.vcvt (f : AW) : Sys2Proof.Laws.Encoding.Statement (.vcvt f) := Sys2Proof.Laws.half_clear _
theorem Sys2Proof.Laws.Encoding.vcvtNarrow (f : AW) : Sys2Proof.Laws.Encoding.Statement (.vcvtNarrow f) := Sys2Proof.Laws.half_clear _
theorem Sys2Proof.Laws.Encoding.vceq (f : AW) : Sys2Proof.Laws.Encoding.Statement (.vceq f) := Sys2Proof.Laws.half_clear _
theorem Sys2Proof.Laws.Encoding.vcne (f : AW) : Sys2Proof.Laws.Encoding.Statement (.vcne f) := Sys2Proof.Laws.half_clear _
theorem Sys2Proof.Laws.Encoding.vclt (f : AW) : Sys2Proof.Laws.Encoding.Statement (.vclt f) := Sys2Proof.Laws.half_clear _
theorem Sys2Proof.Laws.Encoding.vcle (f : AW) : Sys2Proof.Laws.Encoding.Statement (.vcle f) := Sys2Proof.Laws.half_clear _
theorem Sys2Proof.Laws.Encoding.vsel (f : AW) : Sys2Proof.Laws.Encoding.Statement (.vsel f) := Sys2Proof.Laws.half_clear _
theorem Sys2Proof.Laws.Encoding.vrsum (f : AW) : Sys2Proof.Laws.Encoding.Statement (.vrsum f) := Sys2Proof.Laws.half_clear _
theorem Sys2Proof.Laws.Encoding.vrmax (f : AW) : Sys2Proof.Laws.Encoding.Statement (.vrmax f) := Sys2Proof.Laws.half_clear _
theorem Sys2Proof.Laws.Encoding.vrmin (f : AW) : Sys2Proof.Laws.Encoding.Statement (.vrmin f) := Sys2Proof.Laws.half_clear _
theorem Sys2Proof.Laws.Encoding.vshuf (f : AW) : Sys2Proof.Laws.Encoding.Statement (.vshuf f) := Sys2Proof.Laws.half_clear _
theorem Sys2Proof.Laws.Encoding.vrotl (f : AW) : Sys2Proof.Laws.Encoding.Statement (.vrotl f) := Sys2Proof.Laws.half_clear _
theorem Sys2Proof.Laws.Encoding.vbcast (f : AW) : Sys2Proof.Laws.Encoding.Statement (.vbcast f) := Sys2Proof.Laws.half_clear _
theorem Sys2Proof.Laws.Encoding.vcompr (f : AW) : Sys2Proof.Laws.Encoding.Statement (.vcompr f) := Sys2Proof.Laws.half_clear _
theorem Sys2Proof.Laws.Encoding.vexpnd (f : AW) : Sys2Proof.Laws.Encoding.Statement (.vexpnd f) := Sys2Proof.Laws.half_clear _
theorem Sys2Proof.Laws.Encoding.vtmrg (f : AW) : Sys2Proof.Laws.Encoding.Statement (.vtmrg f) := Sys2Proof.Laws.half_clear _
theorem Sys2Proof.Laws.Encoding.vtscl (f : AW) : Sys2Proof.Laws.Encoding.Statement (.vtscl f) := Sys2Proof.Laws.half_clear _
theorem Sys2Proof.Laws.Encoding.vhash (f : AW) : Sys2Proof.Laws.Encoding.Statement (.vhash f) := Sys2Proof.Laws.half_clear _
theorem Sys2Proof.Laws.Encoding.vpart (f : AW) : Sys2Proof.Laws.Encoding.Statement (.vpart f) := Sys2Proof.Laws.half_clear _
theorem Sys2Proof.Laws.Encoding.vrng (f : AW) : Sys2Proof.Laws.Encoding.Statement (.vrng f) := Sys2Proof.Laws.half_clear _
theorem Sys2Proof.Laws.Encoding.vscan (f : AW) : Sys2Proof.Laws.Encoding.Statement (.vscan f) := Sys2Proof.Laws.half_clear _
theorem Sys2Proof.Laws.Encoding.vrank (f : AW) : Sys2Proof.Laws.Encoding.Statement (.vrank f) := Sys2Proof.Laws.half_clear _
theorem Sys2Proof.Laws.Encoding.vstd (f : AW) : Sys2Proof.Laws.Encoding.Statement (.vstd f) := Sys2Proof.Laws.half_clear _
theorem Sys2Proof.Laws.Encoding.vmkmask (f : AW) : Sys2Proof.Laws.Encoding.Statement (.vmkmask f) := Sys2Proof.Laws.half_clear _
theorem Sys2Proof.Laws.Encoding.kand (f : AW) : Sys2Proof.Laws.Encoding.Statement (.kand f) := Sys2Proof.Laws.half_clear _
theorem Sys2Proof.Laws.Encoding.kor (f : AW) : Sys2Proof.Laws.Encoding.Statement (.kor f) := Sys2Proof.Laws.half_clear _
theorem Sys2Proof.Laws.Encoding.kxor (f : AW) : Sys2Proof.Laws.Encoding.Statement (.kxor f) := Sys2Proof.Laws.half_clear _
theorem Sys2Proof.Laws.Encoding.kandn (f : AW) : Sys2Proof.Laws.Encoding.Statement (.kandn f) := Sys2Proof.Laws.half_clear _
theorem Sys2Proof.Laws.Encoding.knot (f : AW) : Sys2Proof.Laws.Encoding.Statement (.knot f) := Sys2Proof.Laws.half_clear _
theorem Sys2Proof.Laws.Encoding.kpopc (f : AW) : Sys2Proof.Laws.Encoding.Statement (.kpopc f) := Sys2Proof.Laws.half_clear _
theorem Sys2Proof.Laws.Encoding.syswFlags (f : CF) : Sys2Proof.Laws.Encoding.Statement (.syswFlags f) := Sys2Proof.Laws.high_clear _ (Sys2Proof.Laws.packCF_l _ _ _)
theorem Sys2Proof.Laws.Encoding.syswRingcfg (f : CF) : Sys2Proof.Laws.Encoding.Statement (.syswRingcfg f) := Sys2Proof.Laws.high_clear _ (Sys2Proof.Laws.packCF_l _ _ _)
theorem Sys2Proof.Laws.Encoding.syswRecvbase (f : CF) : Sys2Proof.Laws.Encoding.Statement (.syswRecvbase f) := Sys2Proof.Laws.high_clear _ (Sys2Proof.Laws.packCF_l _ _ _)
theorem Sys2Proof.Laws.Encoding.syswRecvsize (f : CF) : Sys2Proof.Laws.Encoding.Statement (.syswRecvsize f) := Sys2Proof.Laws.high_clear _ (Sys2Proof.Laws.packCF_l _ _ _)
theorem Sys2Proof.Laws.Encoding.recvtailClr (f : CF) : Sys2Proof.Laws.Encoding.Statement (.recvtailClr f) := Sys2Proof.Laws.high_clear _ (Sys2Proof.Laws.packCF_l _ _ _)
theorem Sys2Proof.Laws.Encoding.glDrainGo (f : CF) : Sys2Proof.Laws.Encoding.Statement (.glDrainGo f) := Sys2Proof.Laws.high_clear _ (Sys2Proof.Laws.packCF_l _ _ _)
theorem Sys2Proof.Laws.Encoding.glRelockGo (f : CF) : Sys2Proof.Laws.Encoding.Statement (.glRelockGo f) := Sys2Proof.Laws.high_clear _ (Sys2Proof.Laws.packCF_l _ _ _)
theorem Sys2Proof.Laws.Encoding.glLanestatEn (f : CF) : Sys2Proof.Laws.Encoding.Statement (.glLanestatEn f) := Sys2Proof.Laws.high_clear _ (Sys2Proof.Laws.packCF_l _ _ _)
theorem Sys2Proof.Laws.Encoding.glAllowWithhold (f : CF) : Sys2Proof.Laws.Encoding.Statement (.glAllowWithhold f) := Sys2Proof.Laws.high_clear _ (Sys2Proof.Laws.packCF_l _ _ _)
theorem Sys2Proof.Laws.Encoding.yqtbaseWrite (dev : Nat) (v : Word) : Sys2Proof.Laws.Encoding.Statement (.yqtbaseWrite dev v) := rfl
theorem Sys2Proof.Laws.Encoding.featackWrite (dev : Nat) (v : Word) : Sys2Proof.Laws.Encoding.Statement (.featackWrite dev v) := rfl
theorem Sys2Proof.Laws.Encoding.helpertrap (t : Nat) : Sys2Proof.Laws.Encoding.Statement (.helpertrap t) := rfl
theorem Sys2Proof.Laws.Encoding.quarantine (t : Nat) (arrayError : Bool) : Sys2Proof.Laws.Encoding.Statement (.quarantine t arrayError) := rfl
theorem Sys2Proof.Laws.Encoding.fenceRectangle (t : Nat) (cause : Nat) : Sys2Proof.Laws.Encoding.Statement (.fenceRectangle t cause) := rfl
theorem Sys2Proof.Laws.Encoding.rectangleReady (t : Nat) : Sys2Proof.Laws.Encoding.Statement (.rectangleReady t) := rfl
theorem Sys2Proof.Laws.Encoding.homeRead (t : Nat) (gl : Nat) (mask : WordMask) : Sys2Proof.Laws.Encoding.Statement (.homeRead t gl mask) := rfl
theorem Sys2Proof.Laws.Encoding.homeRegister (t : Nat) (gl : Nat) (mask : WordMask) : Sys2Proof.Laws.Encoding.Statement (.homeRegister t gl mask) := rfl
theorem Sys2Proof.Laws.Encoding.homeWriteback (t : Nat) (gl : Nat) (mask : WordMask) : Sys2Proof.Laws.Encoding.Statement (.homeWriteback t gl mask) := rfl
theorem Sys2Proof.Laws.Encoding.homeReturn (t : Nat) (gl : Nat) (mask : WordMask) : Sys2Proof.Laws.Encoding.Statement (.homeReturn t gl mask) := rfl
theorem Sys2Proof.Laws.Encoding.homeAmo (t : Nat) (addr : Nat) (op : Nat) (dbl : Bool) (x : Word) (cmp : Word) : Sys2Proof.Laws.Encoding.Statement (.homeAmo t addr op dbl x cmp) := rfl
theorem Sys2Proof.Laws.Encoding.readRecall (t : Nat) (gl : Nat) (mask : WordMask) : Sys2Proof.Laws.Encoding.Statement (.readRecall t gl mask) := rfl
theorem Sys2Proof.Laws.Encoding.writeRecall (t : Nat) (gl : Nat) (mask : WordMask) : Sys2Proof.Laws.Encoding.Statement (.writeRecall t gl mask) := rfl
theorem Sys2Proof.Laws.Encoding.registerGrant (h : Nat) : Sys2Proof.Laws.Encoding.Statement (.registerGrant h) := rfl
theorem Sys2Proof.Laws.Encoding.fillReturn (t : Nat) (c : Nat) (gl : Nat) (va : Nat) (perm : BitVec 3) : Sys2Proof.Laws.Encoding.Statement (.fillReturn t c gl va perm) := rfl
theorem Sys2Proof.Laws.Encoding.remoteInvalidate (dev : Nat) (gl : Nat) : Sys2Proof.Laws.Encoding.Statement (.remoteInvalidate dev gl) := rfl
theorem Sys2Proof.Laws.Encoding.operationPacket (t : Nat) (gl : Nat) (mask : ByteMask) (data : LineData) : Sys2Proof.Laws.Encoding.Statement (.operationPacket t gl mask data) := rfl
theorem Sys2Proof.Laws.Encoding.hostRead (gl : Nat) : Sys2Proof.Laws.Encoding.Statement (.hostRead gl) := rfl
theorem Sys2Proof.Laws.Encoding.hostWrite (gl : Nat) (own : Bool) (mask : ByteMask) (data : LineData) : Sys2Proof.Laws.Encoding.Statement (.hostWrite gl own mask data) := rfl
theorem Sys2Proof.Laws.Encoding.hostSnoop (gl : Nat) : Sys2Proof.Laws.Encoding.Statement (.hostSnoop gl) := rfl
theorem Sys2Proof.Laws.Encoding.backInvalidateAnswer (gl : Nat) (mask : ByteMask) (data : LineData) : Sys2Proof.Laws.Encoding.Statement (.backInvalidateAnswer gl mask data) := rfl
theorem Sys2Proof.Laws.Encoding.cxlLinkDown (dev : Nat) : Sys2Proof.Laws.Encoding.Statement (.cxlLinkDown dev) := rfl
theorem Sys2Proof.Laws.Encoding.cxlLinkUp (dev : Nat) : Sys2Proof.Laws.Encoding.Statement (.cxlLinkUp dev) := rfl
theorem Sys2Proof.Laws.Encoding.tentativeCommit (t : Nat) (c : Nat) : Sys2Proof.Laws.Encoding.Statement (.tentativeCommit t c) := rfl
theorem Sys2Proof.Laws.Encoding.tentativeDiscard (t : Nat) (c : Nat) : Sys2Proof.Laws.Encoding.Statement (.tentativeDiscard t c) := rfl
theorem Sys2Proof.Laws.Encoding.walkComplete (dev : Nat) (region : Nat) (n : Nat) : Sys2Proof.Laws.Encoding.Statement (.walkComplete dev region n) := rfl
theorem Sys2Proof.Laws.Encoding.patrolScrub (gl : Nat) (bad : Bool) : Sys2Proof.Laws.Encoding.Statement (.patrolScrub gl bad) := rfl
theorem Sys2Proof.Laws.Encoding.copyPiece (t : Nat) (ch : Nat) : Sys2Proof.Laws.Encoding.Statement (.copyPiece t ch) := rfl
theorem Sys2Proof.Laws.Encoding.recordComplete (t : Nat) (ch : Nat) : Sys2Proof.Laws.Encoding.Statement (.recordComplete t ch) := rfl
theorem Sys2Proof.Laws.Encoding.directTransferDone (t : Nat) : Sys2Proof.Laws.Encoding.Statement (.directTransferDone t) := rfl
theorem Sys2Proof.Laws.Encoding.slotLanding (t : Nat) (slot : Nat) (gen : Nat) (chunk : Nat) (mask : BitVec 512) (data : BitVec 4096) : Sys2Proof.Laws.Encoding.Statement (.slotLanding t slot gen chunk mask data) := rfl
theorem Sys2Proof.Laws.Encoding.barrierUpdate (glob : Bool) (a : Nat) (arr : Bool) (bytes : Nat) : Sys2Proof.Laws.Encoding.Statement (.barrierUpdate glob a arr bytes) := rfl
theorem Sys2Proof.Laws.Encoding.aonVersionRaise (a : Nat) : Sys2Proof.Laws.Encoding.Statement (.aonVersionRaise a) := rfl
theorem Sys2Proof.Laws.Encoding.trackerReport (cl : Nat) (gl : Nat) (mask : ByteMask) : Sys2Proof.Laws.Encoding.Statement (.trackerReport cl gl mask) := rfl
theorem Sys2Proof.Laws.Encoding.trackerHeldStart (t : Nat) (ch : Nat) : Sys2Proof.Laws.Encoding.Statement (.trackerHeldStart t ch) := rfl
theorem Sys2Proof.Laws.Encoding.compactSignature (t : Nat) : Sys2Proof.Laws.Encoding.Statement (.compactSignature t) := rfl
theorem Sys2Proof.Laws.Encoding.compactWithdrawal (t : Nat) : Sys2Proof.Laws.Encoding.Statement (.compactWithdrawal t) := rfl
theorem Sys2Proof.Laws.Encoding.compactTreeArrival (t : Nat) (own : Bool) : Sys2Proof.Laws.Encoding.Statement (.compactTreeArrival t own) := rfl
theorem Sys2Proof.Laws.Encoding.memberLoss (t : Nat) : Sys2Proof.Laws.Encoding.Statement (.memberLoss t) := rfl
theorem Sys2Proof.Laws.Encoding.pipDelivery (t : Nat) (slot : Nat) (gen : Nat) (v : Word) (poison : Bool) : Sys2Proof.Laws.Encoding.Statement (.pipDelivery t slot gen v poison) := rfl
theorem Sys2Proof.Laws.Encoding.pipExpiry (t : Nat) (slot : Nat) : Sys2Proof.Laws.Encoding.Statement (.pipExpiry t slot) := rfl
theorem Sys2Proof.Laws.Encoding.pipQuarEnd (t : Nat) (slot : Nat) : Sys2Proof.Laws.Encoding.Statement (.pipQuarEnd t slot) := rfl
theorem Sys2Proof.Laws.Encoding.pipEnd (origin : Nat) (t : Nat) : Sys2Proof.Laws.Encoding.Statement (.pipEnd origin t) := rfl
theorem Sys2Proof.Laws.Encoding.messageArrival (t : Nat) (sender : Word) (body : BitVec 448) : Sys2Proof.Laws.Encoding.Statement (.messageArrival t sender body) := rfl
theorem Sys2Proof.Laws.Encoding.recvtTimeout (t : Nat) : Sys2Proof.Laws.Encoding.Statement (.recvtTimeout t) := rfl
theorem Sys2Proof.Laws.Encoding.vetchStep (dev : Nat) (region : Nat) (id : Nat) : Sys2Proof.Laws.Encoding.Statement (.vetchStep dev region id) := rfl
theorem Sys2Proof.Laws.Encoding.contributionArrival (dev : Nat) (region : Nat) (id : Nat) : Sys2Proof.Laws.Encoding.Statement (.contributionArrival dev region id) := rfl
theorem Sys2Proof.Laws.Encoding.apertureApply (dev : Nat) (region : Nat) (id : Nat) (inst : Nat) (op : Nat) (buf : Nat) (off : Nat) (len : Nat) (data : BitVec 2048) : Sys2Proof.Laws.Encoding.Statement (.apertureApply dev region id inst op buf off len data) := rfl
theorem Sys2Proof.Laws.Encoding.spanReceive (h : Nat) (ok : Bool) : Sys2Proof.Laws.Encoding.Statement (.spanReceive h ok) := rfl
theorem Sys2Proof.Laws.Encoding.slotEdge (dev : Nat) (k : Nat) : Sys2Proof.Laws.Encoding.Statement (.slotEdge dev k) := rfl
theorem Sys2Proof.Laws.Encoding.allowanceReturn (dev : Nat) (pos : Nat) (n : Nat) : Sys2Proof.Laws.Encoding.Statement (.allowanceReturn dev pos n) := rfl
theorem Sys2Proof.Laws.Encoding.drainMarker (dev : Nat) (src : Nat) : Sys2Proof.Laws.Encoding.Statement (.drainMarker dev src) := rfl
theorem Sys2Proof.Laws.Encoding.drainTimeout (dev : Nat) : Sys2Proof.Laws.Encoding.Statement (.drainTimeout dev) := rfl
theorem Sys2Proof.Laws.Encoding.relockRotation (dev : Nat) : Sys2Proof.Laws.Encoding.Statement (.relockRotation dev) := rfl
theorem Sys2Proof.Laws.Encoding.relockDone (dev : Nat) (locked : BitVec 64) : Sys2Proof.Laws.Encoding.Statement (.relockDone dev locked) := rfl
theorem Sys2Proof.Laws.Encoding.laneRetrain (dev : Nat) (lane : Nat) : Sys2Proof.Laws.Encoding.Statement (.laneRetrain dev lane) := rfl
theorem Sys2Proof.Laws.Encoding.laneHandback (dev : Nat) (lane : Nat) (locked : Bool) : Sys2Proof.Laws.Encoding.Statement (.laneHandback dev lane locked) := rfl
theorem Sys2Proof.Laws.Encoding.tailWake (dev : Nat) (q : Nat) : Sys2Proof.Laws.Encoding.Statement (.tailWake dev q) := rfl
theorem Sys2Proof.Laws.Encoding.launchSelect (dev : Nat) : Sys2Proof.Laws.Encoding.Statement (.launchSelect dev) := rfl
theorem Sys2Proof.Laws.Encoding.launchAging (dev : Nat) (q : Nat) : Sys2Proof.Laws.Encoding.Statement (.launchAging dev q) := rfl
theorem Sys2Proof.Laws.Encoding.launchStart (dev : Nat) (q : Nat) : Sys2Proof.Laws.Encoding.Statement (.launchStart dev q) := rfl
theorem Sys2Proof.Laws.Encoding.launchForward (dev : Nat) (pid : Nat) : Sys2Proof.Laws.Encoding.Statement (.launchForward dev pid) := rfl
theorem Sys2Proof.Laws.Encoding.launchComplete (pid : Nat) : Sys2Proof.Laws.Encoding.Statement (.launchComplete pid) := rfl
theorem Sys2Proof.Laws.Encoding.saveServiceStart (t : Nat) : Sys2Proof.Laws.Encoding.Statement (.saveServiceStart t) := rfl
theorem Sys2Proof.Laws.Encoding.partitionResume (pid : Nat) : Sys2Proof.Laws.Encoding.Statement (.partitionResume pid) := rfl
theorem Sys2Proof.Laws.Encoding.taskStart (t : Nat) : Sys2Proof.Laws.Encoding.Statement (.taskStart t) := rfl
theorem Sys2Proof.Laws.Encoding.issuePriorityRaise (t : Nat) (c : Nat) (aSlot : Bool) : Sys2Proof.Laws.Encoding.Statement (.issuePriorityRaise t c aSlot) := rfl
theorem Sys2Proof.Laws.Encoding.yieldExpiry (t : Nat) (c : Nat) : Sys2Proof.Laws.Encoding.Statement (.yieldExpiry t c) := rfl
theorem Sys2Proof.Laws.Encoding.powerOnReset (dev : Nat) : Sys2Proof.Laws.Encoding.Statement (.powerOnReset dev) := rfl
theorem Sys2Proof.Laws.Encoding.getVersion (dev : Nat) : Sys2Proof.Laws.Encoding.Statement (.getVersion dev) := rfl
theorem Sys2Proof.Laws.Encoding.getCapabilities (dev : Nat) : Sys2Proof.Laws.Encoding.Statement (.getCapabilities dev) := rfl
theorem Sys2Proof.Laws.Encoding.negotiateAlgorithms (dev : Nat) (offer : Nat) : Sys2Proof.Laws.Encoding.Statement (.negotiateAlgorithms dev offer) := rfl
theorem Sys2Proof.Laws.Encoding.getDigests (dev : Nat) : Sys2Proof.Laws.Encoding.Statement (.getDigests dev) := rfl
theorem Sys2Proof.Laws.Encoding.getCertificate (dev : Nat) : Sys2Proof.Laws.Encoding.Statement (.getCertificate dev) := rfl
theorem Sys2Proof.Laws.Encoding.challenge (dev : Nat) (nonce : Nat) : Sys2Proof.Laws.Encoding.Statement (.challenge dev nonce) := rfl
theorem Sys2Proof.Laws.Encoding.getMeasurements (dev : Nat) (nonce : Nat) : Sys2Proof.Laws.Encoding.Statement (.getMeasurements dev nonce) := rfl
theorem Sys2Proof.Laws.Encoding.keyExchange (dev : Nat) (nonce : Nat) : Sys2Proof.Laws.Encoding.Statement (.keyExchange dev nonce) := rfl
theorem Sys2Proof.Laws.Encoding.finish (dev : Nat) : Sys2Proof.Laws.Encoding.Statement (.finish dev) := rfl
theorem Sys2Proof.Laws.Encoding.keyUpdate (dev : Nat) : Sys2Proof.Laws.Encoding.Statement (.keyUpdate dev) := rfl
theorem Sys2Proof.Laws.Encoding.heartbeat (dev : Nat) : Sys2Proof.Laws.Encoding.Statement (.heartbeat dev) := rfl
theorem Sys2Proof.Laws.Encoding.endSession (dev : Nat) : Sys2Proof.Laws.Encoding.Statement (.endSession dev) := rfl
theorem Sys2Proof.Laws.Encoding.pldmFirmwareUpdate (dev : Nat) (kind : Nat) (image : Nat) (burn : Bool) : Sys2Proof.Laws.Encoding.Statement (.pldmFirmwareUpdate dev kind image burn) := rfl
theorem Sys2Proof.Laws.Encoding.pldmSetPcap (dev : Nat) (watts : Nat) : Sys2Proof.Laws.Encoding.Statement (.pldmSetPcap dev watts) := rfl
theorem Sys2Proof.Laws.Encoding.snapTrigger (dev : Nat) : Sys2Proof.Laws.Encoding.Statement (.snapTrigger dev) := rfl
theorem Sys2Proof.Laws.Encoding.snapRead (dev : Nat) : Sys2Proof.Laws.Encoding.Statement (.snapRead dev) := rfl
theorem Sys2Proof.Laws.Encoding.mgmtEventSend (dev : Nat) : Sys2Proof.Laws.Encoding.Statement (.mgmtEventSend dev) := rfl
theorem Sys2Proof.Laws.Encoding.powerWindow (dev : Nat) (watts : Nat) : Sys2Proof.Laws.Encoding.Statement (.powerWindow dev watts) := rfl
theorem Sys2Proof.Laws.Encoding.thermalTrip (dev : Nat) (celsius : Nat) : Sys2Proof.Laws.Encoding.Statement (.thermalTrip dev celsius) := rfl
theorem Sys2Proof.Laws.Encoding.reservedEncoding (u : Word) (compute : Bool) : Sys2Proof.Laws.Encoding.Statement (.reservedEncoding u compute) := rfl
theorem Sys2Proof.Laws.Encoding.matrixCommandRetirement (t : Nat) : Sys2Proof.Laws.Encoding.Statement (.matrixCommandRetirement t) := rfl
theorem Sys2Proof.Laws.Encoding.bankRetention (t : Nat) (c : Nat) : Sys2Proof.Laws.Encoding.Statement (.bankRetention t c) := rfl
theorem Sys2Proof.Laws.Encoding.ieee1588Synchronisation (dev : Nat) (ns : Nat) : Sys2Proof.Laws.Encoding.Statement (.ieee1588Synchronisation dev ns) := rfl
theorem Sys2Proof.Laws.Encoding.devidAssignment (dev : Nat) (domain : Nat) (pos : Nat) : Sys2Proof.Laws.Encoding.Statement (.devidAssignment dev domain pos) := rfl
end

