-- ==== Sys2Proof/Safety.lean ====
section
/-! DEFINITION. What a safe run is, and the words in which the statements say what a part needs and what it leaves. -/
namespace Sys2Proof.Machine

/-- The step of s gives a next state. -/
def State.goesOn (s : State) : Prop := ∃ t, step s = .next t

/-- Every state that n steps reach from s goes on. -/
def State.safeFor : Nat → State → Prop
  | 0, _ => True
  | n + 1, s => ∃ t, step s = .next t ∧ t.safeFor n

/-! ## Scalar operands -/

/-- s[r] can be read at once: no pending load names it, or CHECKMODE is TRUST (R140, R142). -/
def Ctx.readable (k : Ctx) (r : BitVec 5) : Bool := !k.pendingReg r || k.trust

/-- The part's operands can be read and its destination is no destination of a pending load (R140). -/
def State.canRun (s : State) (ops : List (BitVec 5)) (d : BitVec 5) : Bool :=
  ops.all (fun r => s.ctx.readable r) && !s.ctx.pendingReg d

/-- One more load can join the pending ones behind them: there are fewer than 32, each is of an earlier unit, and no acquire waits for a value
(R135, R140, R229). -/
def Ctx.loadsBehind (k : Ctx) : Bool := decide (k.pend.length < 32) && k.pend.all fun l => !l.acq && decide (l.seq < k.useq)

/-- The cycle in which a part with these operands issues: the first, from now on, in which each is ready (R141). -/
def State.issueCycle (s : State) (ops : List (BitVec 5)) : Nat :=
  ops.foldl (fun n r => max n (s.ctx.sready.getD r.toNat 0)) s.now

/-- Parts whose compute word has not issued, but for the registers that R137 keeps for them. -/
def Ctx.backlogButRegs (k : Ctx) : List Part := k.backlog.map fun p => { p with sregs := Vector.replicate 32 0 }

/-- t is s but for its current context, the clock at n, and the part done (a table that does not list a number and one that lists
it at its reset value read alike). -/
def State.elseAs (s t : State) (n : Nat) : Prop := t.setCtx t.ctx = { s.setCtx t.ctx with now := n, fate := .done }

/-- t is what s becomes by a part that issues in cycle n, writes v to s[d] with a latency of lat cycles, and does nothing
else: no other register, flag, special register, queue or byte of memory changes. s0 is never written (R128). -/
def State.wrote (s t : State) (n lat : Nat) (d : BitVec 5) (v : Word) : Prop :=
  s.elseAs t n ∧
    t.ctx = { s.ctx with sregs := t.ctx.sregs, sready := t.ctx.sready, backlog := t.ctx.backlog } ∧
    t.ctx.backlogButRegs = s.ctx.backlogButRegs ∧ (s.compute = false → t.ctx.backlog = s.ctx.backlog) ∧
    ∀ r, t.ctx.sreg r = (if r = d ∧ r ≠ 0 then v else s.ctx.sreg r) ∧
      t.ctx.sready.getD r.toNat 0 = if r = d ∧ r ≠ 0 then n + lat else s.ctx.sready.getD r.toNat 0

/-- t is what s becomes by a part that issues in cycle n and does nothing else. -/
def State.issued (s t : State) (n : Nat) : Prop := s.elseAs t n ∧ t.ctx = s.ctx

/-- s with the next unit at target. -/
def State.toward (s : State) (target : Word) : State := s.setCtx { s.ctx with npc := target }

/-- The instruction takes the trap, and does nothing else. -/
def State.traps (s : State) (i : Instr) (code : BitVec 8) (val : Word) : Prop := exec i s = .next (s.takeTrap code val none)

/-- s with a flag update by the part being issued (R244): at once, or kept for the unit's commit when the C-word runs ahead of
the compute stream (R137). -/
def State.flagged (s : State) (f : BitVec 11) : State :=
  if s.compute || s.ctx.backlog.isEmpty then s.setCtx (s.ctx.raise f (unitAddr s.ctx.upc))
  else s.setCtx { s.ctx with late := s.ctx.late ||| f }

/-- Every entry of the context's data queues has its bytes, and is converted if its load says so (R268). -/
def Ctx.queuesCalm (k : Ctx) : Bool := k.dqs.toList.all fun q => q.all fun e => e.awaits.isEmpty && decOf e.dec = none

/-- A release of the context has nothing to wait for and nothing to report: no vector store waits for its pair's turn, every
queue entry and load has its bytes, every store is granted, and no effect was lost (R80, R167). -/
def State.releasable (s : State) : Bool :=
  s.ctx.vsta.isEmpty && s.ctx.queuesCalm && s.loadsDone && !s.storesOpen && s.ctx.losses.isEmpty

/-- Every earlier matrix command has retired and every earlier AMO has its answer (R313). -/
def State.retired (s : State) : Bool := !(s.cid = 0 && (s.tile s.cur).engine.busy) && s.loadsDone

/-- s after the flash of an acquire in cycle n: every word of the tile's array that it does not own is invalid, and for 4 cycles no
context of the tile accesses the array (R81). -/
def State.flashed (s : State) (n : Nat) : State :=
  s.modTile s.cur fun x => { x with lines := x.lines.map fun l => { l with valid := l.own }, flashUntil := n + 4 }

/-- s with the fabric of the issuing tile's package changed. -/
def State.withFabric (s : State) (f : Fabric → Fabric) : State := s.modDev (pkgOf s.cur) fun d => { d with fabric := f d.fabric }

/-- The instruction waits, with nothing changed, and is tried again. -/
def State.waits (s : State) (i : Instr) : Prop := exec i s = .next { s with fate := .waited }

/-- No barrier has taken an update in this cycle (R104). -/
def State.portsFree (s : State) : Prop := ∀ p ∈ s.ports, p.at' < s.now

/-- No home owes the tile, or the context, an answer, and no load of the context is an acquire that has yet to act. -/
def State.answered (s : State) : Bool :=
  (s.held.all fun h => h.tile ≠ s.cur && !s.asks h s.cur s.cid) && s.ctx.pend.all fun l => !l.acq

/-- Nothing of the context is under way: no earlier vector store and no matrix command of the tile has yet to be performed, and every
request is answered (R83, R159, R270). -/
def State.clear (s : State) : Bool := s.ctx.vsta.isEmpty && (s.tile s.cur).engine.queue.isEmpty && s.answered

/-- A virtual address is in the slice's TLB, its leaf permits the access, and its home answers: a is its global address. -/
def State.mapped (s : State) (va : Nat) (acc : Acc) (a : Nat) (leaf : Word) : Prop :=
  ∃ e, (((s.dev (pkgOf s.cur)).cluster (clusterOf s.cur)).tlb.find? fun e => e.hits s.ctx.asid va) = some e ∧ e.attr = leaf ∧
    permits leaf acc s.ctx.priv = true ∧ s.globalAddr (pkgOf s.cur) (leafPa leaf e.large va) = some a ∧
    s.lineReached (pkgOf s.cur) (a / 128) = true

/-- The home of the line of a global address is on the issuing tile's package, and nothing there concerns another agent: the line
is NORMAL with no owner, host copy, remote copy or tentative word, no request waits there, its slice has room, and no tracker counts on
the package. -/
def State.calmLine (s : State) (a : Nat) : Prop :=
  pkgOfGl (a / 128) = pkgOf s.cur ∧ (∀ h ∈ s.held, h.gl ≠ a / 128) ∧ s.dir (a / 128) = { Dir.reset with holder := (s.dir (a / 128)).holder } ∧
    ∀ c ∈ (s.dev (pkgOf s.cur)).clusters, c.2.trackers = [] ∧ c.2.slice.length < 16

/-! ## Vector operands and results -/

/-- The value that a source code gives now (R201, R248): of a mailbox, in every lane; of a data queue, its oldest entry. An operand
that is not ready gives its previous value (R143). -/
def State.source (s : State) (t : BitVec 3) (c : BitVec 6) : Vec :=
  let k := s.ctx
  let n := c.toNat
  if n < 16 then if (k.qent n).ready ≤ s.now then (k.qent n).val else (k.qent n).old
  else if n < 48 then if (k.vreg (n - 16)).ready ≤ s.now then (k.vreg (n - 16)).val else (k.vreg (n - 16)).prev
  else if n < 56 then mbLanes t (k.mbs.getD (n - 48) Mailbox.reset).val
  else if n < 59 then constSrc t n
  else ((k.dqs.getD (n - 59) []).map fun e => e.val).headD 0

/-- The context after a source code was read: a mailbox is empty, a data queue has lost its oldest entry. -/
def Ctx.sourceTaken (k : Ctx) (c : BitVec 6) : Ctx :=
  if isMb c then { k with mbs := k.mbs.setIfInBounds (c.toNat - 48) { k.mbs.getD (c.toNat - 48) Mailbox.reset with full := false } }
  else if isPop c then { k with dqs := k.dqs.setIfInBounds (c.toNat - 59) (k.dqs.getD (c.toNat - 59) []).tail }
  else k

/-- A source code can be read now: its bank is held, its value is ready or CHECKMODE is TRUST, its mailbox is full, its queue's
oldest entry is filled (a mailbox that may be read only later holds the A-word back until then, R132). -/
def State.canSource (s : State) (c : BitVec 6) : Bool :=
  let k := s.ctx
  !k.rangeBad c && (k.trust || decide (k.readyAt c ≤ s.now)) &&
    (!isMb c || ((k.mbs.getD (c.toNat - 48) Mailbox.reset).full && decide ((k.mbs.getD (c.toNat - 48) Mailbox.reset).ready ≤ s.now))) &&
    (!isPop c || (k.dqs.getD (c.toNat - 59) []).head?.any fun e => e.filled)

/-- Mask register n (0: all lanes) can be read now. -/
def State.canMask (s : State) (n : Nat) : Bool := n = 0 || s.ctx.trust || decide ((s.ctx.kreg n).ready ≤ s.now)

/-- No data-queue entry awaits bytes, no pip's value waits for a mailbox, and the context has the registers of its banks. -/
def State.vectorCalm (s : State) : Bool :=
  s.ctx.queuesCalm && ((s.tile s.cur).pips.all fun e => e.2.st ≠ .landed) &&
    decide (s.ctx.vregs.length = 8 * s.ctx.banks)

/-- One mailbox named by both sources is read once (R201). -/
def readOnce (f : AW) : Bool := isMb f.a && f.a = f.b

/-- s with its first source read. -/
def State.firstTaken (s : State) (f : AW) : State := s.setCtx (s.ctx.sourceTaken f.a)

/-- s with the sources of an A-word read. -/
def State.taken (s : State) (f : AW) (two : Bool) : State :=
  if two && !readOnce f then (s.firstTaken f).setCtx ((s.firstTaken f).ctx.sourceTaken f.b) else s.firstTaken f

/-- The operands of an A-word can be read now, and its destination's bank is held. -/
def State.canVector (s : State) (f : AW) (two : Bool) : Bool :=
  s.vectorCalm && s.canSource f.a && (!two || readOnce f || (s.firstTaken f).canSource f.b) && !s.ctx.rangeBad f.d && s.canMask f.k.toNat

/-- The operands of an A-word. -/
def State.opA (s : State) (f : AW) : Vec := s.source f.t f.a
def State.opB (s : State) (f : AW) : Vec := if readOnce f then s.source f.t f.a else (s.firstTaken f).source f.t f.b
def State.opK (s : State) (f : AW) : Word := s.maskVal f.k.toNat

/-- Element i of width w of a vector (R248). -/
def el (w : Nat) (v : Vec) (i : Nat) : Nat := v.toNat / 2 ^ (w * i) % 2 ^ w

/-- t is what e becomes when v is delivered to a destination with a latency (R129, R202, R249): the result queue takes it, and
vN, or the mailbox as box; code 56 delivers nothing. Nothing else changes. -/
def State.delivers (e t : State) (d : BitVec 6) (lat : Nat) (v : Vec) (box : Word) : Prop :=
  e.elseAs t e.now ∧
    t.ctx = { e.ctx with queue := t.ctx.queue, vregs := t.ctx.vregs, mbs := t.ctx.mbs, wakes := t.ctx.wakes } ∧
    (d = 56 → t.ctx.queue = e.ctx.queue) ∧
    (d ≠ 56 → (t.ctx.qent 0).val = v ∧ (t.ctx.qent 0).ready = e.now + lat ∧
      (t.ctx.qent 0).old = (if (e.ctx.qent 15).ready = 0 then 0 else (e.ctx.qent 15).val) ∧ ∀ n < 15, t.ctx.qent (n + 1) = e.ctx.qent n) ∧
    (∀ n < 32, t.ctx.vreg n = if d.toNat = 16 + n then ⟨v, e.now + lat, (e.ctx.vreg n).val⟩ else e.ctx.vreg n) ∧
    ∀ n < 8, t.ctx.mbs.getD n Mailbox.reset = if d.toNat = 48 + n then ⟨box, true, 0, false, e.now + lat⟩ else e.ctx.mbs.getD n Mailbox.reset

/-- What a lane that the mask leaves inactive keeps: the old vN, or +0 (R249). -/
def Ctx.kept' (k : Ctx) (d : BitVec 6) : Vec := if isV d then (k.vreg (d.toNat - 16)).val else 0

/-- t is what e becomes when an A-word writes r, with element type ty and mask m, to destination d (R249). -/
def State.vwrote (e t : State) (ty : BitVec 3) (d : BitVec 6) (lat : Nat) (r : Vec) (m : Word) : Prop :=
  let w := elemWidth ty
  ∃ v : Vec, (∀ i < 2048, v.getLsbD i = if m.getLsbD (i / max w 32) then r.getLsbD i else (e.ctx.kept' d).getLsbD i) ∧
    e.delivers t d lat v (BitVec.ofNat 64 (el w v 0))

/-- t is what e becomes when a mask producer writes p under mask m to destination d: a mask register, or the lanes of the mask
(R202, R256). -/
def State.maskWrote (e t : State) (ty : BitVec 3) (d : BitVec 6) (lat : Nat) (p m : Word) : Prop :=
  let w := if elemWidth ty = 64 then 64 else 32
  if 57 ≤ d.toNat then
    e.elseAs t e.now ∧ t.ctx = { e.ctx with
      kregs := t.ctx.kregs
      backlog := if e.compute then e.ctx.backlog.map fun q => { q with kregs := q.kregs.setIfInBounds (d.toNat - 57) (t.ctx.kreg (d.toNat - 56)) }
        else e.ctx.backlog } ∧
      ∀ n, 1 ≤ n → n ≤ 3 → if d.toNat = 56 + n
        then (t.ctx.kreg n).ready = e.now + lat ∧ (t.ctx.kreg n).prev = (e.ctx.kreg n).val ∧ ∀ i < 64, (t.ctx.kreg n).val.getLsbD i =
          (decide (i < 2048 / w) && if m.getLsbD i then p.getLsbD i else (e.ctx.kreg n).val.getLsbD i)
        else t.ctx.kreg n = e.ctx.kreg n
  else ∃ v : Vec, (∀ i < 2048, v.getLsbD i = if m.getLsbD (i / w) then p.getLsbD (i / w) else (e.ctx.kept' d).getLsbD i) ∧
    e.delivers t d lat v (BitVec.ofNat 64 ((p &&& m).toNat % 2 ^ (2048 / w)))

/-- fl holds the flags that g gives for the active elements among n of width w (R245, R249). -/
def activeFlags (w n : Nat) (m : Word) (g : Nat → BitVec 11) (fl : BitVec 11) : Prop :=
  ∀ j < 11, fl.getLsbD j = true ↔ ∃ i < n, activeBit w m i = true ∧ (g i).getLsbD j = true

/-! ## Reads by other instructions, and tables -/

/-- n bytes at a space-0 pointer are within one line l of the array, readable and valid, and nothing of the context changes what it
reads there (R71, R83, R229, R297). -/
def State.cached (s : State) (p : Word) (n : Nat) (l : Line) : Prop :=
  spaceOf p = 0 ∧ addrOf p % 128 + n ≤ 128 ∧ s.answered = true ∧ s.ctx.effects = [] ∧
    (s.tile s.cur).line (addrOf p / 128) s.ctx.asid = some l ∧ spanWords (addrOf p % 128) n &&& ~~~l.valid = 0 ∧ l.perm.getLsbD 0 = true

/-- s with l the most recently used line of the issuing tile. -/
def State.used (s : State) (l : Line) : State := s.modTile s.cur fun x => { x with lines := l :: x.lines.filter fun m => m.gl ≠ l.gl }

/-- Doubleword i from a pointer on, in line l. -/
def Line.word (l : Line) (p : Word) (i : Nat) : Word := BitVec.ofNat 64 (l.data.toNat / 2 ^ (8 * (addrOf p % 128) + 64 * i))

/-- The registers of t are those of k but for s[d], which holds v. -/
def Ctx.gives (k : Ctx) (d : BitVec 5) (v : Word) (t : Ctx) : Prop := ∀ r, t.sreg r = if r = d ∧ r ≠ 0 then v else k.sreg r

/-- Every byte of the n from a local offset on is pinned. -/
def Tile.holds (x : Tile) (o n : Nat) : Prop := ∀ i < n, o + i < 0xA0000 ∧ mhas x.pins ((o + i) / 128) = true

/-- Byte o of the tile's scratch. -/
def Tile.byte (x : Tile) (o : Nat) : Nat := (x.pin (o / 128)).data.toNat / 2 ^ (8 * (o % 128)) % 256

/-- No tracker counts on a package. -/
def State.noTrackers (s : State) (p : Nat) : Prop := ∀ c ∈ (s.dev p).clusters, c.2.trackers = []

/-- A read of a line waits at its home, for a tile of the home's package that keeps no copy of what it reads. -/
def Held.readsAt (h : Held) (gl : Nat) : Prop :=
  h.work = .read ∧ h.stage = .home ∧ h.answer = none ∧ h.lost = false ∧ h.gl = gl ∧ h.fill = none ∧ h.slot = none ∧ h.cid < goneCid ∧
    pkgOf h.tile = pkgOfGl gl

/-- The read answered with a line: bytes that the asker had of its own are its own. -/
def Held.answeredBy (h : Held) (d : LineData) : Held := { h with answer := some (blend (byteBits h.mine) d h.mineData) }

/-- An event's next state: nothing of the part being issued changes. -/
def State.happens (s t : State) (i : Instr) : Prop :=
  exec i s = .next t ∧ t.fate = .done ∧ t.cur = s.cur ∧ t.cid = s.cid ∧ t.compute = s.compute ∧ t.slots = s.slots ∧ t.turns = s.turns

end Sys2Proof.Machine
end

