-- ==== Sys2Proof/Certificates/Slice0/Obligations.lean ====
section
/-! DEFINITION. The statements. -/
open Sys2Proof Sys2Proof.Machine

/-! ## Number formats (R51, R53) -/

/-- R51, R53: the values of the e2m1 codes, whose bit 3 is the sign, and of the e3m5 block scales, which have one NaN and no sign. -/
def Obligations.ElementCodes : Prop :=
  (∀ c : Nat, c < 16 → ∃ m e, e2m1.decode c = .fin (decide (8 ≤ c)) m e ∧
    (m : ℚ) * 2 ^ (e : ℤ) = ([0, 1 / 2, 1, 3 / 2, 2, 3, 4, 6] : List ℚ).getD (c % 8) 0) ∧
  ∀ c : Nat, c < 256 →
    let x : Nat := c / 32
    let f : Nat := c % 32
    if x = 7 ∧ f = 31 then scaleVal c = .nan
    else ∃ m e, scaleVal c = .fin false m e ∧
      (m : ℚ) * 2 ^ (e : ℤ) = if x = 0 then 2 ^ (-2 : ℤ) * ((f : ℚ) / 32) else 2 ^ ((x : ℤ) - 3) * (1 + (f : ℚ) / 32)

/-! ## Register arithmetic (R215 to R218), constants (R221) -/

/-- R215: each operation on two registers writes its result to s[d], ready after its latency, and changes nothing else. -/
def Obligations.AluResults : Prop :=
  ∀ (f : CR) (s : State), s.canRun [f.a, f.b] f.d = true →
    ∀ row ∈ ([
      (Instr.add, 1, fun a b v => v.toNat = (a.toNat + b.toNat) % 2 ^ 64),
      (Instr.sub, 1, fun a b v => (v.toNat + b.toNat) % 2 ^ 64 = a.toNat),
      (Instr.and, 1, fun a b v => ∀ i < 64, v.getLsbD i = (a.getLsbD i && b.getLsbD i)),
      (Instr.or, 1, fun a b v => ∀ i < 64, v.getLsbD i = (a.getLsbD i || b.getLsbD i)),
      (Instr.xor, 1, fun a b v => ∀ i < 64, v.getLsbD i = (a.getLsbD i ^^ b.getLsbD i)),
      (Instr.andn, 1, fun a b v => ∀ i < 64, v.getLsbD i = (a.getLsbD i && !b.getLsbD i)),
      (Instr.shl, 1, fun a b v => v.toNat = a.toNat * 2 ^ (b.toNat % 64) % 2 ^ 64),
      (Instr.shr, 1, fun a b v => v.toNat = a.toNat / 2 ^ (b.toNat % 64)),
      (Instr.sar, 1, fun a b v => v.toInt = a.toInt / 2 ^ (b.toNat % 64)),
      (Instr.mul, 3, fun a b v => v.toNat = a.toNat * b.toNat % 2 ^ 64),
      (Instr.mulh, 3, fun a b v => v.toInt = a.toInt * b.toInt / 2 ^ 64),
      (Instr.mulhu, 3, fun a b v => v.toNat = a.toNat * b.toNat / 2 ^ 64),
      (Instr.min, 1, fun a b v => v.toInt = min a.toInt b.toInt),
      (Instr.max, 1, fun a b v => v.toInt = max a.toInt b.toInt),
      (Instr.minu, 1, fun a b v => v.toNat = min a.toNat b.toNat),
      (Instr.maxu, 1, fun a b v => v.toNat = max a.toNat b.toNat),
      (Instr.slt, 1, fun a b v => v = if a.toInt < b.toInt then 1 else 0),
      (Instr.sltu, 1, fun a b v => v = if a.toNat < b.toNat then 1 else 0),
      (Instr.seq, 1, fun a b v => v = if a = b then 1 else 0)] :
      List ((CR → Instr) × Nat × (Word → Word → Word → Prop))),
    ∃ t v, exec (row.1 f) s = .next t ∧ s.wrote t (s.issueCycle [f.a, f.b]) row.2.1 f.d v ∧
      row.2.2 (s.ctx.sreg f.a) (s.ctx.sreg f.b) v

/-- R215: the counts and the conditional select. -/
def Obligations.BitResults : Prop :=
  ∀ (f : CR) (s : State), s.canRun [f.a, f.b] f.d = true →
    let a := s.ctx.sreg f.a
    let b := s.ctx.sreg f.b
    let n := s.issueCycle [f.a, f.b]
    (∃ t c, exec (.clz f) s = .next t ∧ s.wrote t n 1 f.d (BitVec.ofNat 64 c) ∧ c ≤ 64 ∧
      (∀ i < c, a.getLsbD (63 - i) = false) ∧ (c < 64 → a.getLsbD (63 - c) = true)) ∧
    (∃ t c, exec (.ctz f) s = .next t ∧ s.wrote t n 1 f.d (BitVec.ofNat 64 c) ∧ c ≤ 64 ∧
      (∀ i < c, a.getLsbD i = false) ∧ (c < 64 → a.getLsbD c = true)) ∧
    (∃ t, exec (.popc f) s = .next t ∧
      s.wrote t n 1 f.d (BitVec.ofNat 64 ((List.range 64).countP fun i => a.getLsbD i))) ∧
    (s.ctx.readable f.d = true → ∃ t, exec (.csel f) s = .next t ∧
      s.wrote t (s.issueCycle [f.a, f.b, f.d]) 1 f.d (if b ≠ 0 then a else s.ctx.sreg f.d))

/-- R217: BFX takes len bits of s[a] from bit lo on, where bits above 63 read as 0, and extends them with zeros or with the sign. -/
def Obligations.BitFields : Prop :=
  ∀ (f : CR) (s : State), s.canRun [f.a, f.b] f.d = true →
    let a := s.ctx.sreg f.a
    let b := s.ctx.sreg f.b
    let lo := b.toNat % 64
    let len := b.toNat / 2 ^ 8 % 64 + 1
    ∃ t v, exec (.bfx f) s = .next t ∧ s.wrote t (s.issueCycle [f.a, f.b]) 1 f.d v ∧
      ∀ i < 64, v.getLsbD i = if i < len then a.getLsbD (lo + i) else b.getLsbD 16 && a.getLsbD (lo + (len - 1))

/-- R216: quotients round toward zero, remainders have the sign of the dividend; a zero divisor sets DZ, and gives a quotient
of all ones and the dividend as remainder. -/
def Obligations.DivisionResults : Prop :=
  ∀ (f : CR) (s : State), s.canRun [f.a, f.b] f.d = true →
    let a := s.ctx.sreg f.a
    let b := s.ctx.sreg f.b
    let n := s.issueCycle [f.a, f.b]
    (b ≠ 0 →
      (∃ t, exec (.div f) s = .next t ∧ s.wrote t n 24 f.d (BitVec.ofInt 64 (a.toInt.tdiv b.toInt))) ∧
      (∃ t, exec (.divu f) s = .next t ∧ s.wrote t n 24 f.d (BitVec.ofNat 64 (a.toNat / b.toNat))) ∧
      (∃ t, exec (.rem f) s = .next t ∧ s.wrote t n 24 f.d (BitVec.ofInt 64 (a.toInt.tmod b.toInt))) ∧
      ∃ t, exec (.remu f) s = .next t ∧ s.wrote t n 24 f.d (BitVec.ofNat 64 (a.toNat % b.toNat))) ∧
    (b = 0 →
      (∃ t, exec (.div f) s = .next t ∧ (s.flagged fDZ).wrote t n 24 f.d (BitVec.allOnes 64)) ∧
      (∃ t, exec (.divu f) s = .next t ∧ (s.flagged fDZ).wrote t n 24 f.d (BitVec.allOnes 64)) ∧
      (∃ t, exec (.rem f) s = .next t ∧ (s.flagged fDZ).wrote t n 24 f.d a) ∧
      ∃ t, exec (.remu f) s = .next t ∧ (s.flagged fDZ).wrote t n 24 f.d a)

/-- R218, R220, R221: the immediate operations, PTAG and the constants. -/
def Obligations.ImmediateResults : Prop :=
  (∀ (f : CI) (s : State), s.canRun [f.a] f.d = true →
    let a := s.ctx.sreg f.a
    let imm := f.imm.signExtend 64
    ∀ row ∈ ([
      (Instr.addi, a + imm), (Instr.andi, a &&& imm), (Instr.ori, a ||| imm), (Instr.xori, a ^^^ imm),
      (Instr.slti, if a.toInt < imm.toInt then 1 else 0), (Instr.sltiu, if a.toNat < imm.toNat then 1 else 0),
      (Instr.shli, BitVec.ofNat 64 (a.toNat * 2 ^ f.imm.toNat)), (Instr.shri, BitVec.ofNat 64 (a.toNat / 2 ^ f.imm.toNat)),
      (Instr.sari, BitVec.ofInt 64 (a.toInt / 2 ^ f.imm.toNat)),
      (Instr.ptag, BitVec.ofNat 64 (f.imm.toNat / 4 * 2 ^ 52 + a.toNat % 2 ^ 52))] : List ((CI → Instr) × Word)),
    ∃ t, exec (row.1 f) s = .next t ∧ s.wrote t (s.issueCycle [f.a]) 1 f.d row.2) ∧
  (∀ (f : LF) (s : State), s.canRun [] f.ra = true →
    ∃ t, exec (.li f) s = .next t ∧ s.wrote t s.now 1 f.ra (f.imm32.signExtend 64)) ∧
  (∀ (f : LF) (s : State), s.canRun [f.ra] f.ra = true →
    ∃ t, exec (.lih f) s = .next t ∧
      s.wrote t (s.issueCycle [f.ra]) 1 f.ra (BitVec.ofNat 64 (f.imm32.toNat * 2 ^ 32 + (s.ctx.sreg f.ra).toNat % 2 ^ 32))) ∧
  (∀ (f : LF) (s : State) (p : Word), s.canRun [] f.ra = true → padd? s.ctx.upc (8 * f.imm32.toInt) = some p →
    ∃ t, exec (.lia f) s = .next t ∧ s.wrote t s.now 1 f.ra (BitVec.ofNat 64 (p.toNat % 2 ^ 52)))

/-- R212: pointer addition keeps bits [63:52], adds within bits [51:0], and has no value on a carry or borrow out of bit 51.
R219: PADD, PSUB and PADDI write the sum; where there is none they trap as PTROVF with s[a] in TRAPVAL, s[d] unchanged. -/
def Obligations.PointerResults : Prop :=
  (∀ (p : Word) (n : Int),
    let t := (p.toNat % 2 ^ 52 : Nat) + n
    if 0 ≤ t ∧ t < 2 ^ 52 then padd? p n = some (BitVec.ofNat 64 (p.toNat / 2 ^ 52 * 2 ^ 52 + t.toNat)) else padd? p n = none) ∧
  ((∀ (f : CR) (s : State), s.canRun [f.a, f.b] f.d = true →
    let a := s.ctx.sreg f.a
    let b := (s.ctx.sreg f.b).toInt
    let n := s.issueCycle [f.a, f.b]
    (match padd? a b with
      | some p => ∃ t, exec (.padd f) s = .next t ∧ s.wrote t n 1 f.d p
      | none => s.traps (.padd f) cPTROVF a) ∧
    (match padd? a (-b) with
      | some p => ∃ t, exec (.psub f) s = .next t ∧ s.wrote t n 1 f.d p
      | none => s.traps (.psub f) cPTROVF a)) ∧
  (∀ (f : CI) (s : State), s.canRun [f.a] f.d = true →
    let a := s.ctx.sreg f.a
    match padd? a f.imm.toInt with
    | some p => ∃ t, exec (.paddi f) s = .next t ∧ s.wrote t (s.issueCycle [f.a]) 1 f.d p
    | none => s.traps (.paddi f) cPTROVF a))

/-! ## Branches and jumps (R222 to R225) -/

/-- R222: a taken branch sends the context to pc + 8 * off14, a branch not taken has no effect; a taken target outside bits [51:0] traps as PTROVF.
R223: LOOP decrements s[a] and is taken while the new value is not 0; a count of 0 wraps and is taken. R224, R225: the jumps; JR's target is computed
before the link is written, so d may be a. Where the rules leave it open it states the model's choice (assumption 13). -/
def Obligations.BranchesAndJumps : Prop :=
  ((∀ (f : CB) (s : State), s.ctx.readable f.a = true → s.ctx.readable f.b = true →
    let a := s.ctx.sreg f.a
    let b := s.ctx.sreg f.b
    let n := s.issueCycle [f.a, f.b]
    ∀ row ∈ ([(Instr.beq, a = b), (Instr.bne, a ≠ b), (Instr.blt, a.toInt < b.toInt), (Instr.bge, b.toInt ≤ a.toInt),
      (Instr.bltu, a.toNat < b.toNat), (Instr.bgeu, b.toNat ≤ a.toNat)] : List ((CB → Instr) × Prop)),
    (row.2 → match padd? s.ctx.upc (8 * f.off.toInt) with
      | some p => ∃ t, exec (row.1 f) s = .next t ∧ (s.toward p).issued t n
      | none => s.traps (row.1 f) cPTROVF s.ctx.upc) ∧
    (¬ row.2 → ∃ t, exec (row.1 f) s = .next t ∧ s.issued t n)) ∧
  (∀ (f : CB) (s : State), f.a ≠ 0 → s.canRun [f.a] f.a = true →
    let a := s.ctx.sreg f.a
    let n := s.issueCycle [f.a]
    (a = 1 → ∃ t, exec (.loop f) s = .next t ∧ s.wrote t n 1 f.a 0) ∧
    (a ≠ 1 → match padd? s.ctx.upc (8 * f.off.toInt) with
      | some p => ∃ t, exec (.loop f) s = .next t ∧ (s.toward p).wrote t n 1 f.a (a - 1)
      | none => s.traps (.loop f) cPTROVF s.ctx.upc))) ∧
  ((∀ (f : CI) (s : State), s.canRun [f.a] f.d = true →
    let a := s.ctx.sreg f.a
    let link := BitVec.ofNat 64 ((s.ctx.upc + 8).toNat % 2 ^ 52)
    match padd? a (8 * f.imm.toInt) with
    | none => s.traps (.jr f) cPTROVF a
    | some p =>
      if p.toNat / 2 ^ 52 % 8 ≠ 0 then s.traps (.jr f) cSPACE p
      else if p.toNat % 8 ≠ 0 then s.traps (.jr f) cALIGN p
      else ∃ t, exec (.jr f) s = .next t ∧ (s.toward p).wrote t (s.issueCycle [f.a]) 1 f.d link) ∧
  (∀ (f : LF) (s : State),
    match padd? s.ctx.upc (8 * f.imm32.toInt) with
    | none => s.traps (.j f) cPTROVF s.ctx.upc ∧ s.traps (.jal f) cPTROVF s.ctx.upc
    | some p => (∃ t, exec (.j f) s = .next t ∧ (s.toward p).issued t s.now) ∧
      (s.canRun [] f.ra = true → ∃ t, exec (.jal f) s = .next t ∧
        (s.toward p).wrote t s.now 1 f.ra (BitVec.ofNat 64 ((s.ctx.upc + 8).toNat % 2 ^ 52)))))

/-- R140: under STRICT, reading the destination of a pending load traps as EARLYREAD with the register's number in TRAPVAL. R227: the
checks of a C.M access before its translation, in order: PTROVF with s[a], SPACE and ALIGN with the pointer. R230: the checks of an AMO
before its translation: SPACE, then ALIGN. -/
def Obligations.OperandAndAccessChecks : Prop :=
  (∀ (s : State), s.ctx.trust = false →
    (∀ (f : CR), s.ctx.pendingReg f.a = true → ∀ i ∈ [Instr.add, .sub, .and, .or, .xor, .andn, .shl, .shr, .sar, .mul, .mulh, .mulhu,
      .div, .divu, .rem, .remu, .min, .max, .minu, .maxu, .slt, .sltu, .seq, .clz, .ctz, .popc, .csel, .padd, .psub, .bfx],
      s.traps (i f) cEARLYREAD (BitVec.ofNat 64 f.a.toNat)) ∧
    (∀ (f : CI), s.ctx.pendingReg f.a = true → ∀ i ∈ [Instr.addi, .andi, .ori, .xori, .slti, .sltiu, .shli, .shri, .sari, .paddi, .ptag, .jr],
      s.traps (i f) cEARLYREAD (BitVec.ofNat 64 f.a.toNat)) ∧
    (∀ (f : CB), s.ctx.pendingReg f.a = true → ∀ i ∈ [Instr.beq, .bne, .blt, .bge, .bltu, .bgeu, .loop],
      s.traps (i f) cEARLYREAD (BitVec.ofNat 64 f.a.toNat))) ∧
  ((∀ (f : CM) (s : State), s.ctx.readable f.a = true → s.ctx.readable f.d = true →
    let n := 2 ^ (f.sz.toNat / 2)
    match padd? (s.ctx.sreg f.a) (f.off.toInt * n) with
    | none => ∀ i ∈ [Instr.ldl, .stl, .ldg, .stg, .ldacq, .strel], s.traps (i f) 0x18 (s.ctx.sreg f.a)
    | some p =>
      (spaceOf p ≠ 1 → s.traps (.ldl f) 0x13 p ∧ s.traps (.stl f) 0x13 p) ∧
      (spaceOf p ≠ 0 → spaceOf p ≠ 2 → spaceOf p ≠ 4 → s.traps (.stg f) 0x13 p) ∧
      (spaceOf p ≠ 0 → s.traps (.ldg f) 0x13 p ∧ s.traps (.ldacq f) 0x13 p ∧ s.traps (.strel f) 0x13 p) ∧
      (addrOf p % n ≠ 0 → (spaceOf p = 1 → s.traps (.ldl f) 0x12 p ∧ s.traps (.stl f) 0x12 p) ∧
        (spaceOf p = 0 → ∀ i ∈ [Instr.ldg, .stg, .ldacq, .strel], s.traps (i f) 0x12 p))) ∧
  (∀ (f : AF) (s : State), s.ctx.readable f.a = true → s.ctx.readable f.b = true → s.ctx.readable f.d = true →
    let p := s.ctx.sreg f.a
    ∀ i ∈ [Instr.amoadd, .amoand, .amoor, .amoxor, .amomin, .amomax, .amominu, .amomaxu, .amoswp, .amocas, .amofadd, .amofmax],
      (spaceOf p ≠ 0 → s.traps (i f) 0x13 p) ∧
      (spaceOf p = 0 → addrOf p % (if f.size = 0 then 4 else 8) ≠ 0 → s.traps (i f) 0x12 p)))

/-! ## Taking a trap and returning from one (R207, R312, R341 to R345) -/

/-- R343: taking a trap in a control context with TIP = 0, at the unit in its address stream: which registers save what, what STATUS becomes, where
the context goes, and that nothing else changes. R344: a trap in a helper stops it, writes its trap registers, makes HJOIN report 2, and posts
HELPERTRAP. R345: a trap while TIP = 1 fences the tile's rectangle, with the cause code in the record. Where the rules leave it open it states the
model's choice (assumption 50). -/
def Obligations.TrapEntry : Prop :=
  (∀ (s : State) (code : BitVec 8) (val : Word), s.cid = 0 → s.ctx.tip = false → s.compute = false →
    let k := s.ctx
    let t := s.takeTrap code val none
    let handler := BitVec.ofNat 64 (k.evBase.toNat * 8)
    t.setCtx t.ctx = { s.setCtx t.ctx with fate := .trapped } ∧
    t.ctx = { k with
      trapPc := BitVec.ofNat 49 (k.upc.toNat / 8), cause := code, stream := false, mx := false, trapVal := val, pixC := false
      ppriv := k.priv, priv := true, tip := true, pc := handler, npc := handler
      backlog := [], late := 0, skipC := false, waitFrom := none, timeFrom := none, dqs := t.ctx.dqs } ∧
    ∀ i, t.ctx.dqs.getD i [] = (k.dqs.getD i []).filter fun e => e.filled || e.seq ≠ k.useq) ∧
  ((∀ (s : State) (code : BitVec 8) (val : Word), s.cid ≠ 0 → s.compute = false → mhas (s.tile s.cur).ctxs 0 = true →
    let u := BitVec.ofNat 49 (s.ctx.upc.toNat / 8)
    let t := s.takeTrap code val none
    t.fate = .trapped ∧ t.ctx.stopped = true ∧ t.ctx.trapPc = u ∧ t.ctx.cause = code ∧ t.ctx.trapVal = val ∧
      t.ctx.sregs = s.ctx.sregs ∧ t.ctx.flags = s.ctx.flags ∧ t.ctx.tip = s.ctx.tip ∧ t.ctx.priv = s.ctx.priv ∧
      mget 0 (t.tile s.cur).joins s.cid = 2 ∧ (t.tile s.cur).posts = (s.tile s.cur).posts ++ [⟨s.cid, code, u⟩] ∧
      (t.ctxAt s.cur 0).wakes = (s.ctxAt s.cur 0).wakes + 1 ∧ t.mem = s.mem) ∧
  (∀ (s : State) (code : BitVec 8) (val : Word), s.cid = 0 → s.ctx.tip = true → code ≠ cHELPERTRAP →
    (s.takeTrap code val none).agenda = .event (.fenceRectangle s.cur (0x100 + code.toNat)) :: s.agenda ∧
      (s.takeTrap code val none).fate = .stopped))

/-- R312: ECALL and BRK take their traps, with p5 in TRAPVAL, in every state. R313, R342, R40, R47, R117, R316, R317: each
privileged instruction, at user privilege, traps as PRIV with the unit image. R207: an undefined encoding traps as ILLEGAL. R343: ERET,
a release and an acquire, returns to TRAPPC with the saved privilege and TIP = 0. -/
def Obligations.TrapInstructions : Prop :=
  ((∀ (f : CF) (s : State), s.traps (.ecall f) 0x30 (BitVec.ofNat 64 f.p5.toNat) ∧ s.traps (.brk f) 0x31 (BitVec.ofNat 64 f.p5.toNat)) ∧
  (∀ (f : CF) (s : State), s.ctx.priv = false →
    ∀ i ∈ [Instr.eret, .snap, .tlbinv, .resize, .lineclr, .ctxsave, .ctxload, .preempt], s.traps (i f) 0x02 s.ctx.unit) ∧
  (∀ (u : Word) (s : State),
    exec (.reservedEncoding u false) s = .next (({ s with compute := false } : State).takeTrap 0x01 u none))) ∧
  (∀ (f : CF) (s : State), s.ctx.priv = true → s.ctx.mx = false → s.ctx.kept = none → s.releasable = true →
    ∃ t, exec (.eret f) s = .next t ∧ t.fate = .done ∧ t.now = s.now ∧ t.mem = s.mem ∧ (t.tile s.cur).flashUntil = s.now + 4 ∧
      let back := BitVec.ofNat 64 (s.ctx.trapPc.toNat * 8)
      t.ctx = { s.ctx with
        priv := s.ctx.ppriv, tip := false, pc := back, npc := back, skipC := s.ctx.pixC, pixC := false, pixK := false, pixIndex := 0 } ∧
      (t.tile s.cur).lines = (s.tile s.cur).lines.map fun l => { l with valid := l.own })

/-! ## Control and status registers (R244, R313, R342) -/

/-- R313: SYSR reads the register once every earlier command has retired; a user's read of a supervisor register traps as PRIV. R13, R244, R245, R342:
the bits of the context's registers as SYSR gives them. Where the rules leave it open it states the model's choice (assumptions 14 and 23). -/
def Obligations.CsrReads : Prop :=
  (∀ (f : CF) (s : State), csrIndexed f.csr = false → s.canRun [] f.d = true → s.retired = true →
    ((s.ctx.priv = true ∨ csrReadPriv f.csr = false) →
      ∃ t, exec (.sysr f) s = .next t ∧ s.wrote t s.now 1 f.d (s.csr f.csr 0)) ∧
    (s.ctx.priv = false → csrReadPriv f.csr = true → s.traps (.sysr f) 0x02 s.ctx.unit)) ∧
  (∀ (s : State) (i : Nat), i < 64 →
    let k := s.ctx
    (s.csr 0x000 0).getLsbD i = ((i = 0 && k.priv) || (i = 1 && k.ppriv) || (i = 2 && k.tip) ||
      (i = 3 && s.cid = 0 && !(s.tile s.cur).posts.isEmpty) || (i = 4 && s.cid ≠ 0) || (i = 5 && k.nr)) ∧
    (s.csr 0x001 0).getLsbD i = k.flags.getLsbD i ∧
    (s.csr 0x002 0).getLsbD i = k.frm.getLsbD i ∧
    (s.csr 0x003 0).getLsbD i = ((i = 63 && k.firstV) || (3 ≤ i && k.firstUnit.getLsbD (i - 3))) ∧
    (s.csr 0x004 0).getLsbD i = (3 ≤ i && k.trapPc.getLsbD (i - 3)) ∧
    (s.csr 0x005 0).getLsbD i = ((i = 9 && k.mx) || (i = 8 && k.stream) || k.cause.getLsbD i) ∧
    (s.csr 0x006 0).getLsbD i = k.trapVal.getLsbD i ∧
    (s.csr 0x007 0).getLsbD i = ((i = 63 && k.pixK) || (i = 62 && k.pixC) || k.pixIndex.getLsbD i) ∧
    (s.csr 0x010 0).getLsbD i = (3 ≤ i && k.evBase.getLsbD (i - 3)) ∧
    (s.csr 0x011 0).getLsbD i = k.asid.getLsbD i ∧
    (s.csr 0x012 0) = BitVec.ofNat 64 s.cid)

/-- R313: SYSW writes the RW fields of a register of the context, and nothing else. R244, R153, R305: the writes of FLAGS, RINGCFG, RECVBASE, RECVSIZE
and RECVTAIL.CLR. R363 to R365: the writes of the GL. registers that act, at supervisor privilege. Where the rules leave it open it states the model's
choice (assumptions 14, 23, 31 and 32). -/
def Obligations.CsrWrites : Prop :=
  ((∀ (f : CF) (s : State), s.ctx.priv = true → s.ctx.readable f.a = true → s.retired = true →
    let v := s.ctx.sreg f.a
    let n := s.issueCycle [f.a]
    let wrote := fun (k : Ctx) => ∃ t, exec (.sysw f) s = .next t ∧ (s.setCtx k).issued t n
    (f.csr = 0x000 → wrote { s.ctx with tip := v.getLsbD 2, ppriv := v.getLsbD 1 }) ∧
    (f.csr = 0x002 → wrote { s.ctx with frm := BitVec.ofNat 2 v.toNat }) ∧
    (f.csr = 0x004 → wrote { s.ctx with trapPc := BitVec.ofNat 49 (v.toNat / 8) }) ∧
    (f.csr = 0x006 → wrote { s.ctx with trapVal := v }) ∧
    (f.csr = 0x007 → wrote { s.ctx with pixK := v.getLsbD 63, pixC := v.getLsbD 62, pixIndex := BitVec.ofNat 16 v.toNat }) ∧
    (f.csr = 0x010 → wrote { s.ctx with evBase := BitVec.ofNat 49 (v.toNat / 8) }) ∧
    (csrReadOnly f.csr 0 = true → csrIndexed f.csr = false → s.traps (.sysw f) 0x02 s.ctx.unit)) ∧
  (∀ (f : CF) (s : State), s.ctx.readable f.a = true → s.retired = true →
    let v := s.ctx.sreg f.a
    let n := s.issueCycle [f.a]
    (∃ t, exec (.syswFlags f) s = .next t ∧ (s.setCtx { s.ctx with flags := BitVec.ofNat 11 v.toNat, firstV := false }).issued t n) ∧
    ((s.tile s.cur).engine.busy = false → (s.tile s.cur).engine.outgoing = none →
      ∃ t, exec (.syswRingcfg f) s = .next t ∧
        (s.modTile s.cur fun x => { x with engine := { x.engine with
          order := BitVec.ofNat 24 (v.toNat / 2 ^ 8), logp := BitVec.ofNat 2 (v.toNat / 2 ^ 3), en := v.getLsbD 0
          rstep := 0, consume := none, receive := none } }).issued t n) ∧
    (∃ t, exec (.syswRecvbase f) s = .next t ∧
      (s.setCtx { s.ctx with recvBase := BitVec.ofNat 14 (v.toNat / 2 ^ 6), recvCount := 0, recvTail := 0 }).issued t n) ∧
    (∃ t, exec (.syswRecvsize f) s = .next t ∧
      (s.setCtx { s.ctx with recvSize := BitVec.ofNat 11 (min 1024 (v.toNat % 2 ^ 11)), recvCount := 0, recvTail := 0 }).issued t n) ∧
    (∃ t, exec (.recvtailClr f) s = .next t ∧
      (s.setCtx (if v.getLsbD 63 then { s.ctx with recvCount := 0, recvTail := 0 } else s.ctx)).issued t n))) ∧
  (∀ (f : CF) (s : State), s.ctx.priv = true → s.ctx.readable f.a = true → s.ctx.readable f.d = true → s.retired = true →
    let v := s.ctx.sreg f.a
    let d := s.dev (pkgOf s.cur)
    let i := (s.ctx.sreg f.d).toNat
    let n := s.issueCycle [f.a]
    let m := s.issueCycle [f.a, f.d]
    (∃ t, exec (.glDrainGo f) s = .next t ∧ (if v.getLsbD 0 = false then s else s.withFabric fun g =>
      if g.st = .run then { g with st := .drain, since := ({ s with now := n } : State).time (pkgOf s.cur) }
      else { g with code := 1 }).issued t n) ∧
    (∃ t, exec (.glRelockGo f) s = .next t ∧ (s.withFabric fun g =>
      let at' := BitVec.ofNat 48 v.toNat
      if v.getLsbD 63 = false then { g with at' := at' }
      else if g.st ≠ .dark then { g with code := 1 }
      else if g.badTable d.pos.toNat then { g with at' := at', code := 4 }
      else { g with at' := at', relockGo := true, since := ({ s with now := n } : State).time (pkgOf s.cur) }).issued t n) ∧
    (i < 128 → ∃ t, exec (.glLanestatEn f) s = .next t ∧ (s.withFabric fun g =>
      let l := mget Lane.reset g.lanes i
      { g with lanes := mset g.lanes i (if v.getLsbD 4 then { l with en := true, pend := l.pend || l.st = 0 || l.st = 3 }
        else { l with en := false, pend := false, st := if l.st = 3 then 3 else 0 }) }).issued t m) ∧
    (i < 64 → ∃ t, exec (.glAllowWithhold f) s = .next t ∧ (s.withFabric fun g =>
      { g with allows := mset g.allows i { mget Allow.reset g.allows i with withhold := v.getLsbD 63 } }).issued t m) ∧
    (128 ≤ i → s.traps (.glLanestatEn f) 0x01 s.ctx.unit) ∧ (64 ≤ i → s.traps (.glAllowWithhold f) 0x01 s.ctx.unit))

/-! ## Mailboxes and masks (R235, R236) -/

/-- R132, R235: MBW fills a mailbox, which may be read from 2 cycles later on, MBTEST reads its FULL bit, MBR takes value and tag from a full one and
empties it, acquiring when a pip delivered it; on an empty one the control context waits and a helper traps as HELPERWAIT. R133, R236: KGET waits for
the mask's last write and copies it; KSET writes it, and keeps what it held for an early read. Where the rules leave it open it states the model's
choice (assumption 16). -/
def Obligations.MailboxesAndMasks : Prop :=
  (∀ (f : CF) (s : State),
    let j := f.p5.toNat
    let m := s.ctx.mbs.getD j Mailbox.reset
    (s.ctx.readable f.a = true → j < 8 → ∃ t, exec (.mbw f) s = .next t ∧
      (s.setCtx { s.ctx with mbs := s.ctx.mbs.setIfInBounds j ⟨s.ctx.sreg f.a, true, 0, false, s.issueCycle [f.a] + 2⟩, wakes := s.ctx.wakes + 1 }).issued t
        (s.issueCycle [f.a])) ∧
    (s.canRun [] f.d = true → ∃ t, exec (.mbtest f) s = .next t ∧ s.wrote t (max s.now m.ready) 1 f.d (if m.full then 1 else 0)) ∧
    (m.full = true → s.canRun [] f.d = true → s.canRun [] f.b = true → ((s.tile s.cur).pips.all fun e => e.2.st ≠ .landed) = true →
      ∃ u t, exec (.mbr f) s = .next t ∧
        let n := max s.now m.ready
        let e := if m.src && m.tag = 0 then s.flashed n else s
        (e.setCtx { s.ctx with mbs := s.ctx.mbs.setIfInBounds j { m with full := false } }).wrote u n 1 f.d m.val ∧
        u.wrote t n 1 f.b (BitVec.ofNat 64 m.tag.toNat)) ∧
    (m.full = false → s.cid = 0 → s.waits (.mbr f)) ∧
    (m.full = false → s.cid ≠ 0 → s.traps (.mbr f) 0x06 (BitVec.ofNat 64 j))) ∧
  (∀ (f : CF) (s : State), 1 ≤ f.p5.toNat → f.p5.toNat ≤ 3 →
    let k := s.ctx.kregs.getD (f.p5.toNat - 1) KReg.reset
    (s.canRun [] f.d = true → ∃ t, exec (.kget f) s = .next t ∧ s.wrote t (max s.now k.ready) 1 f.d k.val) ∧
    (s.ctx.readable f.a = true → ∃ t, exec (.kset f) s = .next t ∧
      let put := fun (ks : Vector KReg 3) => ks.setIfInBounds (f.p5.toNat - 1) ⟨s.ctx.sreg f.a, s.issueCycle [f.a], k.val⟩
      (s.setCtx { s.ctx with
        kregs := put s.ctx.kregs
        backlog := if s.compute then s.ctx.backlog.map fun q => { q with kregs := put q.kregs } else s.ctx.backlog }).issued t (s.issueCycle [f.a])))

/-! ## Fences, QWAIT, TFENCE (R233, R234, R246) -/

/-- R80, R81, R191, R233: REL waits for nothing more when all is done; ACQ and FENCE flash the tile's unowned words, for 4 cycles, and FENCE has the
units after it fetched again. R140, R234, R370: QWAIT n leaves the n latest loads of the units up to its own pending: the oldest load's value, once
there, is written; a lost load that it covers traps. R246: TFENCE completes when no masked flag is set, and traps as ARITH with the masked flags that
are. R244, R245: flags stick, and the first update that sets one is recorded. Where the rules leave it open it states the model's choice (assumptions
23 and 67). -/
def Obligations.FencesAndFlags : Prop :=
  ((∀ (f : CF) (s : State), s.releasable = true → (s.ctx.pend.all fun l => !l.acq) = true →
    (∃ t, exec (.rel f) s = .next t ∧ s.issued t s.now) ∧
    (∃ t, exec (.acq f) s = .next t ∧ (s.flashed s.now).issued t s.now) ∧
    ((∀ p ∈ s.ctx.backlog, p.seq ≠ s.ctx.useq) → ∃ t, exec (.fence f) s = .next t ∧ (s.flashed s.now).issued t s.now) ∧
    ∀ p rest, s.ctx.backlog = p :: rest → p.seq = s.ctx.useq → ∃ t, exec (.fence f) s = .next t ∧ (s.flashed s.now).elseAs t s.now ∧
      t.ctx = { s.ctx with
        pc := p.pc + 8, seq := p.seq + 1, skipC := false, sregs := p.sregs, kregs := p.kregs, pend := p.pend, backlog := [p], late := 0, vsta := []
        dqs := s.ctx.dqs.map fun q => q.filter fun e => e.seq ≤ p.seq
        lostLoads := t.ctx.lostLoads }) ∧
  (∀ (f : CF) (s : State),
    let k := s.ctx
    let n := f.p5.toNat
    let mine := k.pend.filter fun l => l.seq ≤ k.useq
    let covers := fun (l : LostLoad) => l.seq ≤ k.useq ∧ (l.after.filter fun m => m ≤ k.useq).length ≤ n
    (mine.length ≤ n → (∀ l ∈ k.lostLoads, ¬ covers l) → exec (.qwait f) s = .next { s with fate := .done }) ∧
    (∀ l, mine.length ≤ n → k.lostLoads = [l] → covers l →
      exec (.qwait f) s = .next ((s.setCtx { k with lostLoads := [] }).takeTrap l.cause l.ptr none)) ∧
    ∀ (l : PendLoad) (rest : List PendLoad), k.pend = l :: rest → mine = k.pend → rest.length = n → l.awaits = [] → l.acq = false →
      s.compute = false → (∀ l ∈ k.lostLoads, ¬ covers l) → ∃ t, exec (.qwait f) s = .next t ∧
        (s.setCtx { s.ctx with
          pend := rest, sregs := t.ctx.sregs, backlog := s.ctx.backlog.map fun p => p.retire false l.seq l.raw [] }).issued t s.now ∧
        ∀ r, t.ctx.sreg r = if r = l.d ∧ r ≠ 0 then extendLoad l.size l.signed l.raw else s.ctx.sreg r)) ∧
  ((∀ (mask : BitVec 11) (s : State), s.retired = true →
    (s.ctx.flags &&& mask = 0 → exec (.tfence mask) s = .next { s with fate := .done }) ∧
    (s.ctx.flags &&& mask ≠ 0 → s.traps (.tfence mask) 0x20 (BitVec.ofNat 64 (s.ctx.flags &&& mask).toNat))) ∧
  (∀ (k : Ctx) (f : BitVec 11) (u : BitVec 49),
    (k.raise f u).flags = k.flags ||| f ∧
    (k.firstV = true → (k.raise f u).firstV = true ∧ (k.raise f u).firstUnit = k.firstUnit) ∧
    (k.firstV = false → f &&& ~~~k.flags ≠ 0 → (k.raise f u).firstV = true ∧ (k.raise f u).firstUnit = u) ∧
    (f &&& ~~~k.flags = 0 → k.raise f u = k)))

/-! ## Barriers (R103 to R106, R237 to R242) -/

/-- R104: an arrival or credit counts down; at 0 and 0 the phase flips, DONE counts it and both counts are reloaded; a count that
would pass 0 stays there and sets OVF; a barrier with no counts only sets OVF. -/
def Obligations.BarrierPhases : Prop :=
  ∀ (b : BarV) (m arr bytes : Nat),
    (b.expArr = 0 → b.expBytes = 0 → b.apply m arr bytes = { b with ovf := true }) ∧
    (b.expArr ≠ 0 ∨ b.expBytes ≠ 0 →
      ((b.apply m arr bytes).ovf = true ↔ b.ovf = true ∨ b.pendArr < arr ∨ b.pendBytes < bytes) ∧
      (b.pendArr ≤ arr → b.pendBytes ≤ bytes → (b.apply m arr bytes).phase = !b.phase ∧
        (b.apply m arr bytes).done = (b.done + 1) % m ∧ (b.apply m arr bytes).pendArr = b.expArr ∧
        (b.apply m arr bytes).pendBytes = b.expBytes) ∧
      (arr < b.pendArr ∨ bytes < b.pendBytes → (b.apply m arr bytes).phase = b.phase ∧ (b.apply m arr bytes).done = b.done ∧
        (b.apply m arr bytes).pendArr = b.pendArr - arr ∧ (b.apply m arr bytes).pendBytes = b.pendBytes - bytes))

/-- R104, R238, R239: BINIT and BEXPECT on a local barrier set its counts, BINIT also its phase and every context's view of it; BARRIVE, a release,
sends it one arrival, which merges with a credit of the same cycle, and waits for a later cycle behind another arrival. Where the rules leave it open
it states the model's choice (assumption 16). -/
def Obligations.LocalBarrierUpdates : Prop :=
  ∀ (f : CF) (s : State), f.p5.toNat < 16 →
    let j := f.p5.toNat
    let a := BitVec.ofNat 16 (s.ctx.sreg f.a).toNat
    let b := BitVec.ofNat 40 (s.ctx.sreg f.b).toNat
    let x := s.tile s.cur
    (s.ctx.readable f.a = true → s.ctx.readable f.b = true →
      (∃ t, exec (.binit f) s = .next t ∧ t.fate = .done ∧ t.now = s.issueCycle [f.a, f.b] ∧ t.mem = s.mem ∧
        (t.tile s.cur).bars = x.bars.setIfInBounds j ⟨a, b, false, false, a, b, 0⟩ ∧
        (∀ c, (t.ctxAt s.cur c).seen = (s.ctxAt s.cur c).seen.setIfInBounds j 0) ∧ t.ctx.sregs = s.ctx.sregs ∧ t.ctx.flags = s.ctx.flags) ∧
      (∃ t, exec (.bexpect f) s = .next t ∧
        let v := { x.bars.getD j Barrier.reset with expArr := a, expBytes := b }
        let anew := fun (q : BarPort) => if q.name = localName s.cur j then { q with pre := v.toV, post := v.toV, arr := false, credit := none } else q
        (({ s with ports := s.ports.map anew } : State).modTile s.cur fun x => { x with bars := x.bars.setIfInBounds j v }).issued t
          (s.issueCycle [f.a, f.b]))) ∧
    (s.releasable = true →
      let gives := fun (v : Barrier) => ∃ t, exec (.barrive f) s = .next t ∧ t.fate = .done ∧ t.now = s.now ∧ t.mem = s.mem ∧
        (t.tile s.cur).bars = x.bars.setIfInBounds j v ∧ t.ctx.sregs = s.ctx.sregs ∧ t.ctx.flags = s.ctx.flags
      let old := x.bars.getD j Barrier.reset
      (s.portsFree → gives (old.toV.apply (2 ^ 16) 1 0).toLocal) ∧
      ∀ q, s.ports = [q] → q.name = localName s.cur j → q.at' = s.now → q.post = old.toV →
        (q.arr = false → ∀ c, q.credit = some c → gives (q.pre.apply (2 ^ 16) 1 c).toLocal) ∧
        (q.arr = true → ∃ t, exec (.barrive f) s = .next t ∧ t.fate = .done ∧ (t.tile s.cur).bars = x.bars ∧
          t.ports = [{ q with later := q.later ++ [(1, 0)] }]))

/-- R105, R240, R241: BWAIT and BTEST on a local barrier: a phase not yet observed is observed and acquired; without one BTEST
gives 0, and BWAIT waits, or traps as HELPERWAIT in a helper. R106, R242: BWANY takes the first barrier of the mask with an
unobserved phase, from the half's position on, moves that position past it, and acquires; with none it gives all ones. -/
def Obligations.LocalBarrierWaits : Prop :=
  (∀ (f : CF) (s : State), f.p5.toNat < 16 → s.canRun [] f.d = true →
    let j := f.p5.toNat
    let done := ((s.tile s.cur).bars.getD j Barrier.reset).done
    let e := (s.setCtx { s.ctx with seen := s.ctx.seen.setIfInBounds j done }).flashed s.now
    (done ≠ s.ctx.seen.getD j 0 →
      (∃ t, exec (.bwait f) s = .next t ∧ e.issued t s.now) ∧ ∃ t, exec (.btest f) s = .next t ∧ e.wrote t s.now 1 f.d 1) ∧
    (done = s.ctx.seen.getD j 0 →
      (∃ t, exec (.btest f) s = .next t ∧ s.wrote t s.now 1 f.d 0) ∧ (s.cid = 0 → s.waits (.bwait f)) ∧
      (s.cid ≠ 0 → s.traps (.bwait f) 0x06 (BitVec.ofNat 64 j)))) ∧
  (∀ (f : CF) (s : State), s.canRun [f.a] f.d = true →
    let a := s.ctx.sreg f.a
    let high := a.getLsbD 8
    let base := if high then 8 else 0
    let start := (if high then s.ctx.bwanyHigh else s.ctx.bwanyLow).toNat
    let fresh := fun (i : Nat) => a.getLsbD i = true ∧
      ((s.tile s.cur).bars.getD (base + i) Barrier.reset).done ≠ s.ctx.seen.getD (base + i) 0
    let n := s.issueCycle [f.a]
    ((∀ i < 8, ¬ fresh i) → ∃ t, exec (.bwany f) s = .next t ∧ s.wrote t n 1 f.d (BitVec.allOnes 64)) ∧
    ∀ q < 8, fresh ((start + q) % 8) → (∀ r < q, ¬ fresh ((start + r) % 8)) →
      let i := (start + q) % 8
      let pos := BitVec.ofNat 3 (i + 1)
      ∃ t, exec (.bwany f) s = .next t ∧
        ((s.setCtx { s.ctx with
          seen := s.ctx.seen.setIfInBounds (base + i) ((s.tile s.cur).bars.getD (base + i) Barrier.reset).done
          bwanyHigh := if high then pos else s.ctx.bwanyHigh
          bwanyLow := if high then s.ctx.bwanyLow else pos }).flashed n).wrote t n 1 f.d (BitVec.ofNat 64 (base + i)))

/-! ## Scalar loads and stores (R227 to R229) -/

/-- R114, R228: LDL reads and STL writes the bytes of a pinned line; an unpinned one traps as PAGE. STL changes no other byte. R318: CWB writes a
cached line's dirty words back and keeps them; CINV writes them back and drops the line, also from the instruction cache; both wait for the home to
acknowledge a registration of the line; with no such line, CWB does nothing. Where the rules leave it open it states the model's choice (assumption
40). -/
def Obligations.LocalMemory : Prop :=
  (∀ (f : CM) (s : State) (p : Word), padd? (s.ctx.sreg f.a) (f.off.toInt * 2 ^ (f.sz.toNat / 2)) = some p → spaceOf p = 1 →
    let n := 2 ^ (f.sz.toNat / 2)
    let o := addrOf p
    let q := mget PinLine.zero (s.tile s.cur).pins (o / 128)
    o % n = 0 → s.clear = true →
    (o < 0xA0000 → mhas (s.tile s.cur).pins (o / 128) = true →
      (s.canRun [f.a] f.d = true →
        let raw := q.data.toNat / 2 ^ (8 * (o % 128)) % 2 ^ (8 * n)
        ∃ t, exec (.ldl f) s = .next t ∧ s.wrote t (s.issueCycle [f.a]) 4 f.d
          (BitVec.ofInt 64 (if f.sz.toNat % 2 = 0 then (raw : Int).bmod (2 ^ (8 * n)) else raw))) ∧
      (s.ctx.readable f.a = true → s.ctx.readable f.d = true →
        ∃ t data words, exec (.stl f) s = .next t ∧
          (s.modTile s.cur fun x => { x with pins := mset x.pins (o / 128) ({ q with data := data, dirty := if q.gl.isSome then q.dirty ||| words else q.dirty } : PinLine) }).issued t
            (s.issueCycle [f.d, f.a]) ∧
          (∀ i < 128, data.extractLsb' (8 * i) 8 =
            if o % 128 ≤ i ∧ i < o % 128 + n then (s.ctx.sreg f.d).extractLsb' (8 * (i - o % 128)) 8
            else q.data.extractLsb' (8 * i) 8) ∧
          ∀ i < 32, (words : WordMask).getLsbD i = true ↔ o % 128 < 4 * i + 4 ∧ 4 * i < o % 128 + n)) ∧
    (mhas (s.tile s.cur).pins (o / 128) = false ∨ 0xA0000 ≤ o →
      (s.ctx.readable f.a = true → s.traps (.ldl f) 0x10 p) ∧
      (s.ctx.readable f.a = true → s.ctx.readable f.d = true → s.traps (.stl f) 0x10 p))) ∧
  (∀ (f : CF) (s : State), s.ctx.readable f.a = true →
    let p := s.ctx.sreg f.a
    let n := s.issueCycle [f.a]
    (spaceOf p ≠ 0 → s.traps (.cwb f) 0x13 p ∧ s.traps (.cinv f) 0x13 p) ∧
    (spaceOf p = 0 →
      ((s.tile s.cur).line (addrOf p / 128) s.ctx.asid = none →
        (∃ t, exec (.cwb f) s = .next t ∧ s.issued t n) ∧
        ∃ t, exec (.cinv f) s = .next t ∧
          (s.modTile s.cur fun x => { x with icache := x.icache.filter fun l => l.va ≠ addrOf p / 128 }).issued t n) ∧
      ∀ l, (s.tile s.cur).line (addrOf p / 128) s.ctx.asid = some l →
        (∀ h, s.held = [h] → h.registers s.cur l.gl = true → h.words ≠ 0 → ∀ i ∈ [Instr.cwb, .cinv],
          ∃ t, exec (i f) s = .next t ∧ t.fate = .waited ∧ t.mem = s.mem ∧ t.tile s.cur = s.tile s.cur) ∧
        ((∀ h ∈ s.held, h.registers s.cur l.gl = false) → ∃ t, exec (.cwb f) s = .next t ∧
          (({ s with mem := writeLine s.mem l.gl (wordBytes l.dirty) l.data } : State).modTile s.cur fun x =>
            { x with lines := x.lines.map fun m => if m.gl = l.gl then { m with dirty := 0 } else m }).issued t n) ∧
        ((∀ h ∈ s.held, h.gl ≠ l.gl ∧ h.registers s.cur l.gl = false) → ∃ t, exec (.cinv f) s = .next t ∧ t.fate = .done ∧ t.now = n ∧ t.ctx = s.ctx ∧
          t.mem = (if l.dirty = 0 then s.mem else writeLine s.mem l.gl (wordBytes l.dirty) l.data) ∧
          t.tile s.cur = { s.tile s.cur with
            ctxs := (t.tile s.cur).ctxs
            lines := (s.tile s.cur).lines.filter fun m => m.gl ≠ l.gl
            icache := (s.tile s.cur).icache.filter fun m => m.va ≠ addrOf p / 128 })))

/-- R71, R73, R140, R228, R229: a global load whose words are valid in the array is answered there, and leaves its destination pending; LDACQ's value
comes at once, so it acquires. R36, R71, R77: a global load of a line that the array does not hold reads the bytes that memory holds at its home.
Where the rules leave it open it states the model's choice (assumptions 7, 17 and 52). -/
def Obligations.GlobalLoads : Prop :=
  (∀ (f : CM) (s : State) (p : Word) (l : Line), padd? (s.ctx.sreg f.a) (f.off.toInt * 2 ^ (f.sz.toNat / 2)) = some p →
    let n := 2 ^ (f.sz.toNat / 2)
    let va := addrOf p
    spaceOf p = 0 → va % n = 0 → s.canRun [f.a] f.d = true → s.clear = true → s.ctx.loadsBehind = true → s.ctx.effects = [] →
    (s.tile s.cur).line (va / 128) s.ctx.asid = some l → spanWords (va % 128) n &&& ~~~l.valid = 0 → l.perm.getLsbD 0 = true →
    let raw := BitVec.ofNat 64 (l.data.toNat / 2 ^ (8 * (va % 128)) % 2 ^ (8 * n))
    let e := s.modTile s.cur fun x => { x with lines := l :: x.lines.filter fun m => m.gl ≠ l.gl }
    let load := fun (signed : Bool) => (⟨f.d, raw, n, signed, [], p, s.ctx.useq, false⟩ : PendLoad)
    let joined := fun (e : State) (t : State) (l : PendLoad) => (e.setCtx (s.ctx.addPend s.compute l)).issued t (s.issueCycle [f.a]) ∧ t.ctx.pend = s.ctx.pend ++ [l]
    (∃ t, exec (.ldg f) s = .next t ∧ joined e t (load (f.sz.toNat % 2 = 0))) ∧
    (∃ t, exec (.ldacq f) s = .next t ∧ joined (e.flashed (s.issueCycle [f.a])) t (load true))) ∧
  (∀ (f : CM) (s : State) (p : Word) (a : Nat) (leaf : Word),
    padd? (s.ctx.sreg f.a) (f.off.toInt * 2 ^ (f.sz.toNat / 2)) = some p →
    let n := 2 ^ (f.sz.toNat / 2)
    let va := addrOf p
    spaceOf p = 0 → va % n = 0 → s.canRun [f.a] f.d = true → s.clear = true → s.ctx.loadsBehind = true → s.ctx.effects = [] → (s.tile s.cur).lines = [] →
    s.mapped va .load a leaf → leaf.getLsbD 57 = true → s.calmLine a → 0 < (s.tile s.cur).ways (va / 128 % 256) →
    ∃ t, exec (.ldg f) s = .next t ∧ t.fate = .done ∧ t.mem = s.mem ∧
      t.ctx.sregs = s.ctx.sregs ∧ t.ctx.flags = s.ctx.flags ∧
      t.ctx.pend = s.ctx.pend ++ [⟨f.d, BitVec.ofNat 64 ((readLine s.mem (a / 128)).toNat / 2 ^ (8 * (va % 128)) % 2 ^ (8 * n)), n,
        f.sz.toNat % 2 = 0, [], p, s.ctx.useq, false⟩])

/-- R79, R228, R229: a store to words that the tile owns completes in its array: the stored bytes change and no other, the words are D, and no byte of
memory at any home changes; STREL does so as a release. R76, R77, R79: a store to words that no tile owns registers them at their home: the tile
becomes their owner there, keeps the stored bytes D in its array, and memory at the home keeps its bytes. Where the rules leave it open it states the
model's choice (assumptions 7 and 52). -/
def Obligations.GlobalStores : Prop :=
  (∀ (f : CM) (s : State) (p : Word) (l : Line), padd? (s.ctx.sreg f.a) (f.off.toInt * 2 ^ (f.sz.toNat / 2)) = some p →
    let n := 2 ^ (f.sz.toNat / 2)
    let va := addrOf p
    spaceOf p = 0 → va % n = 0 → s.ctx.readable f.a = true → s.ctx.readable f.d = true → s.clear = true → s.cid = 0 →
    (s.tile s.cur).line (va / 128) s.ctx.asid = some l → spanWords (va % 128) n &&& ~~~l.own = 0 → l.perm.getLsbD 1 = true →
    ∃ data, (∀ i < 128, (data : LineData).extractLsb' (8 * i) 8 =
        if va % 128 ≤ i ∧ i < va % 128 + n then (s.ctx.sreg f.d).extractLsb' (8 * (i - va % 128)) 8
        else l.data.extractLsb' (8 * i) 8) ∧
      let e := s.modTile s.cur fun x => { x with lines :=
        { l with data := data, dirty := l.dirty ||| spanWords (va % 128) n } :: x.lines.filter fun m => m.gl ≠ l.gl }
      (∃ t, exec (.stg f) s = .next t ∧ e.issued t (s.issueCycle [f.d, f.a])) ∧
      (s.releasable = true → ∃ t, exec (.strel f) s = .next t ∧ e.issued t (s.issueCycle [f.d, f.a]))) ∧
  (∀ (f : CM) (s : State) (p : Word) (a : Nat) (leaf : Word),
    padd? (s.ctx.sreg f.a) (f.off.toInt * 2 ^ (f.sz.toNat / 2)) = some p →
    let n := 2 ^ (f.sz.toNat / 2)
    let va := addrOf p
    spaceOf p = 0 → va % n = 0 → s.ctx.readable f.a = true → s.ctx.readable f.d = true → s.clear = true → s.cid = 0 → (s.tile s.cur).lines = [] →
    s.mapped va .store a leaf → leaf.getLsbD 57 = true → s.calmLine a → 0 < (s.tile s.cur).ways (va / 128 % 256) →
    ∃ t l, exec (.stg f) s = .next t ∧ t.fate = .done ∧ t.mem = s.mem ∧ t.ctx.sregs = s.ctx.sregs ∧ t.ctx.flags = s.ctx.flags ∧
      (t.dir (a / 128)).owners = [⟨s.cur, spanWords (va % 128) n⟩] ∧ (t.tile s.cur).lines = [l] ∧
      l.gl = a / 128 ∧ l.va = va / 128 ∧ l.asid = s.ctx.asid ∧ l.own = spanWords (va % 128) n ∧ l.dirty = spanWords (va % 128) n ∧
      ∀ i < n, l.data.extractLsb' (8 * (va % 128 + i)) 8 = (s.ctx.sreg f.d).extractLsb' (8 * i) 8)

/-! ## Atomics (R230 to R232) -/

/-- R86, R230, R231: an AMO at the home of a line that concerns no one else: the old value goes to the destination, which stays pending; the new one
is written at the home, where there is one to write, and no other byte of memory changes. Where the rules leave it open it states the model's choice
(assumption 7). -/
def Obligations.Atomics : Prop :=
  ∀ (f : AF) (s : State) (a : Nat) (leaf : Word),
    let p := s.ctx.sreg f.a
    let n := if f.size = 0 then 4 else 8
    let w := 8 * n
    spaceOf p = 0 → addrOf p % n = 0 → s.canRun [f.a, f.b] f.d = true → s.clear = true → s.ctx.loadsBehind = true → s.cid = 0 → (f.order.getLsbD 1 = true → s.releasable = true) →
    s.mapped (addrOf p) .amo a leaf → s.calmLine a → Memory.wf s.mem = true →
    let old := readNat s.mem a n
    let x := (s.ctx.sreg f.b).toNat % 2 ^ w
    let int := fun (v : Nat) => (v : Int).bmod (2 ^ w)
    let swap := (s.ctx.sreg f.d).toNat % 2 ^ w
    ∀ row ∈ ([
      (Instr.amoadd, some ((old + x) % 2 ^ w)), (Instr.amoand, some (old &&& x)), (Instr.amoor, some (old ||| x)),
      (Instr.amoxor, some (old ^^^ x)), (Instr.amomin, some (if int old ≤ int x then old else x)),
      (Instr.amomax, some (if int x ≤ int old then old else x)), (Instr.amominu, some (min old x)),
      (Instr.amomaxu, some (max old x)), (Instr.amoswp, some x), (Instr.amocas, if old = swap then some x else none),
      (Instr.amofadd, (amoNew 10 w old x swap).1), (Instr.amofmax, (amoNew 11 w old x swap).1)] :
      List ((AF → Instr) × Option Nat)),
    (row.1 f = .amocas f → s.ctx.readable f.d = true) →
    ∃ t, exec (row.1 f) s = .next t ∧ t.fate = .done ∧ t.ctx.sregs = s.ctx.sregs ∧
      t.ctx.pend = s.ctx.pend ++ [⟨f.d, BitVec.ofNat 64 old, n, true, [], p, s.ctx.useq, false⟩] ∧
      ∀ b, readByte t.mem b = match row.2 with
        | some v => if a ≤ b ∧ b < a + n then BitVec.ofNat 8 (v / 256 ^ (b - a)) else readByte s.mem b
        | none => readByte s.mem b

/-! ## Lines of the array (R318) -/

/-! ## Landing slots and pips (R99, R173 to R175, R289 to R293) -/

/-- R99, R289, R290: LSALLOC takes the first free slot, pins its lines zero-filled and gives its handle, or gives 0 and changes
nothing; LSFREE of a live handle frees the slot in its next generation, of any other traps as BADHANDLE. R81, R101, R243: CHTEST, CHWAIT and
CHCLR on a handle of this tile and a mask within the slot's size, with no flash; a stale handle traps as BADHANDLE. -/
def Obligations.LandingSlots : Prop :=
  ((∀ (f : CF) (s : State), s.canRun [f.d] f.d = true →
    let x := s.tile s.cur
    let n := (f.b.toNat * 32 + f.p5.toNat) % 128 + 1
    let o := (s.ctx.sreg f.d).toNat % 2 ^ 20
    let lines := (List.range (4 * n)).map fun i => o / 128 + i
    ((∀ j < 32, (x.slot j).alloc = true) ∨ o % 512 ≠ 0 ∨ 0xA0000 < o + 512 * n ∨ x.canPin lines = false →
      ∃ t, exec (.lsalloc f) s = .next t ∧ s.wrote t (s.issueCycle [f.d]) 1 f.d 0) ∧
    ∀ k < 32, (x.slot k).alloc = false → (∀ j < k, (x.slot j).alloc = true) → o % 512 = 0 → o + 512 * n ≤ 0xA0000 →
      x.canPin lines = true →
      ∃ t, exec (.lsalloc f) s = .next t ∧ t.fate = .done ∧ (x.lines = [] → t.mem = s.mem) ∧ t.ctx.flags = s.ctx.flags ∧
        (∀ r, t.ctx.sreg r = if r = f.d ∧ r ≠ 0 then BitVec.ofNat 64 (3 * 2 ^ 52 + s.devNum (pkgOf s.cur) * 2 ^ 40 +
          numOf s.cur * 2 ^ 28 + k * 2 ^ 23 + (x.slot k).gen.toNat * 2 ^ 16) else s.ctx.sreg r) ∧
        (t.tile s.cur).slot k = ⟨true, x.pid, n, o, 0, (x.slot k).gen⟩ ∧
        ∀ l ∈ lines, (t.tile s.cur).pin l = { PinLine.zero with kind := .slot, pid := x.pid }) ∧
  (∀ (f : CF) (s : State), s.ctx.readable f.a = true →
    let p := s.ctx.sreg f.a
    let x := s.tile s.cur
    (s.handleOk p = false → s.traps (.lsfree f) 0x1A p) ∧
    (s.handleOk p = true → x.engine.names (x.slot (hSlot p)).off (512 * (x.slot (hSlot p)).size) = false →
      ∃ t, exec (.lsfree f) s = .next t ∧ t.fate = .done ∧ t.mem = s.mem ∧ t.ctx.sregs = s.ctx.sregs ∧
        (x.gate = [] → t.ctx.flags = s.ctx.flags) ∧ (t.tile s.cur).slot (hSlot p) = ⟨false, 0, 0, 0, 0, (x.slot (hSlot p)).gen + 1⟩))) ∧
  (∀ (f : CF) (s : State), s.canRun [f.a, f.b] f.d = true →
    let p := s.ctx.sreg f.a
    let mask := BitVec.ofNat 128 ((s.ctx.sreg f.b).toNat * 2 ^ (64 * (f.p5.toNat % 2)))
    let x := s.tile s.cur
    let k := mget Slot.reset x.slots (p.toNat / 2 ^ 23 % 32)
    let n := s.issueCycle [f.a, f.b]
    let good := s.handleOk p = true ∧ mask.toNat < 2 ^ k.size
    (good → ∃ t, exec (.chtest f) s = .next t ∧ s.wrote t n 1 f.d (if k.chunks &&& mask = mask then 1 else 0)) ∧
    (good → k.chunks &&& mask = mask → ∃ t, exec (.chwait f) s = .next t ∧ s.issued t n) ∧
    (good → k.chunks &&& mask ≠ mask → (s.cid = 0 → s.waits (.chwait f)) ∧ (s.cid ≠ 0 → s.traps (.chwait f) 0x06 p)) ∧
    (good → ∃ t, exec (.chclr f) s = .next t ∧
      (s.modTile s.cur fun x => { x with
        slots := mset x.slots (p.toNat / 2 ^ 23 % 32) { k with chunks := k.chunks &&& ~~~mask } }).issued t n) ∧
    (¬ good → s.traps (.chtest f) 0x1A p ∧ s.traps (.chwait f) 0x1A p ∧ s.traps (.chclr f) 0x1A p))

/-- R173, R175, R291: PMINT makes the lowest free slot LIVE, bound to a mailbox with a lifetime, and gives its pip; 0 when none is
free; in a helper it traps as HELPERWAIT. R175, R292, R293: PDROP ends a LIVE pip of its context with tag 2, which waits while its
mailbox is full; of any other it does nothing. PSTAT tells live, landed or spent. A pip of another tile traps as BADHANDLE. -/
def Obligations.Pips : Prop :=
  (∀ (f : CF) (s : State), s.canRun [] f.d = true →
    let x := s.tile s.cur
    (s.cid ≠ 0 → s.traps (.pmint f) 0x06 s.ctx.unit) ∧
    (s.cid = 0 → (∀ j, 64 ≤ j → j < 128 → (x.pip j).st ≠ .free) →
      ∃ t, exec (.pmint f) s = .next t ∧ s.wrote t s.now 1 f.d 0) ∧
    (s.cid = 0 → ∀ j, 64 ≤ j → j < 128 → (x.pip j).st = .free → (∀ i, 64 ≤ i → i < j → (x.pip i).st ≠ .free) →
      let p := x.pip j
      let expiry := if f.p5 = 0 then none else some (s.time (pkgOf s.cur) + 2 ^ f.p5.toNat * 1000)
      ∃ t, exec (.pmint f) s = .next t ∧
        (s.modTile s.cur fun x => { x with pips := mset x.pips j ⟨.live, x.pid, x.self, p.gen, 0, f.b.toNat, expiry, p.quarEnd, p.order, 0, false, 0⟩ }).wrote t
          s.now 1 f.d (BitVec.ofNat 64 (2 * 2 ^ 52 + s.devNum (pkgOf s.cur) % 2 ^ 12 * 2 ^ 40 + numOf s.cur * 2 ^ 28 + j * 2 ^ 21 + p.gen.toNat * 2 ^ 8)))) ∧
  (∀ (f : CF) (s : State), s.canRun [f.a] f.d = true → s.cid = 0 →
    let p := s.ctx.sreg f.a
    let x := s.tile s.cur
    let j := pipSlot p
    let k := x.pip j
    let n := s.issueCycle [f.a]
    let own := spaceOf p = 2 ∧ ptrDev p = s.devNum (pkgOf s.cur) ∧ ptrTile p = numOf s.cur
    let live := k.st = .live ∧ k.gen.toNat = pipGen p
    (spaceOf p ≠ 2 → s.traps (.pdrop f) 0x13 p ∧ s.traps (.pstat f) 0x13 p) ∧
    (spaceOf p = 2 → ¬ own → s.traps (.pdrop f) 0x1A p ∧ s.traps (.pstat f) 0x1A p) ∧
    (own → 64 ≤ j → live → k.cid = 0 → k.pid = x.pid → k.self = x.self → (s.ctx.mbs.getD k.mb Mailbox.reset).full = true →
      ∃ t, exec (.pdrop f) s = .next t ∧ t.fate = .done ∧ t.mem = s.mem ∧ t.ctx.sregs = s.ctx.sregs ∧ t.ctx.flags = s.ctx.flags ∧
        (t.tile s.cur).pip j = { k with st := .landed, gen := k.gen + 1, tag := 2, val := s.pipPtr s.cur j, delivered := false, order := x.landings }) ∧
    (own → 64 ≤ j → ¬ live → ∃ t, exec (.pdrop f) s = .next t ∧ s.issued t n) ∧
    (own → (live → ∃ t, exec (.pstat f) s = .next t ∧ s.wrote t n 1 f.d 1) ∧
      (k.st = .landed → k.delivered = true → (k.gen - 1).toNat = pipGen p →
        ∃ t, exec (.pstat f) s = .next t ∧ s.wrote t n 1 f.d 2) ∧
      (k.st ≠ .live → k.st ≠ .landed → ∃ t, exec (.pstat f) s = .next t ∧ s.wrote t n 1 f.d 0)))

/-! ## The copy engine (R92, R96, R284 to R287) -/

/-- R284: CPY queues one direct transfer with what its operands and fields say, once the queue of two has room; one that a check of its pointers
refuses is queued with its code (R97, R100). R285, R286: CPYCH starts an idle channel's walk and gives 0, or gives 1 when it is busy; CPYSTAT gives
its status; CPYWAIT waits for it, then acquires. R287: CPYKILL of the direct transfers ends the context's one with KILLED, and sets EE. Where the
rules leave it open it states the model's choice (assumption 39). -/
def Obligations.CopyInstructions : Prop :=
  (∀ (f : LF) (s : State), s.ctx.readable f.ra = true → s.ctx.readable f.rb = true → s.ctx.readable f.rc = true → s.cid = 0 →
    let dst := s.ctx.sreg f.ra
    let src := s.ctx.sreg f.rb
    let x := s.tile s.cur
    let a : Armer := ⟨x.pid, s.cur, x.self, 0, BitVec.ofNat 49 (s.ctx.upc.toNat / 8), s.ctx.asid, s.ctx.priv, s.ctx.birth⟩
    let places := spaceOf dst = 0 ∨ spaceOf dst = 1 ∨ spaceOf dst = 3 ∨ spaceOf dst = 4
    (¬ places → s.traps (.cpy f) 0x13 dst) ∧
    (places → 1 < spaceOf src → s.traps (.cpy f) 0x13 src) ∧
    (spaceOf dst = 3 → spaceOf src ≤ 1 → 2688 ≤ ptrTile dst → s.traps (.cpy f) 0x1A dst) ∧
    (places → spaceOf src ≤ 1 → (spaceOf dst = 3 → ptrTile dst < 2688) → 2 ≤ x.direct.length → s.waits (.cpy f)) ∧
    (places → spaceOf src ≤ 1 → (spaceOf dst = 3 → ptrTile dst < 2688) → x.direct.length < 2 → s.releasable = true →
      let len := (s.ctx.sreg f.rc).toNat % 2 ^ 40
      let n := s.issueCycle [f.ra, f.rb, f.rc]
      let aon := f.f0.getLsbD 5
      let d := Xfer.new 0 aon src dst len (f.f0.toNat % 32) a
      let code := if aon ∧ spaceOf src ≠ 0 ∧ spaceOf dst ≠ 0 then 0x0B
        else if aon ∧ (spaceOf src = 0 ∧ addrOf src % 8 ≠ 0 ∨ spaceOf dst = 0 ∧ addrOf dst % 8 ≠ 0) then 0x08
        else if spaceOf dst = 3 then s.landingCheck s.cur dst len else 0
      (spaceOf dst ≠ 4 → ∃ t, exec (.cpy f) s = .next t ∧
        (s.modTile s.cur fun x => { x with direct := x.direct ++ [if code = 0 then d else { d with code := code, finished := true }] }).issued t n) ∧
      ∀ i u, spaceOf dst = 4 → aon = false → ({ s with now := n } : State).apertureCheck s.cur dst len = (.ok i, u) →
        ∃ t, exec (.cpy f) s = .next t ∧ t.fate = .done ∧ t.now = n ∧ t.mem = u.mem ∧
          (t.tile s.cur).direct = (u.tile s.cur).direct ++ [{ d with inst := i }])) ∧
  ((∀ (f : CF) (s : State), s.canRun [f.a] f.d = true → s.cid = 0 → f.p5.toNat < 4 →
    let x := s.tile s.cur
    let j := f.p5.toNat
    let c := x.chans.getD j Chan.reset
    let busy := c.st = .running ∨ ∃ h ∈ x.held, h.chan = j
    let a : Armer := ⟨x.pid, s.cur, x.self, 0, BitVec.ofNat 49 (s.ctx.upc.toNat / 8), s.ctx.asid, s.ctx.priv, s.ctx.birth⟩
    (busy → (∃ t, exec (.cpych f) s = .next t ∧ s.wrote t (s.issueCycle [f.a]) 1 f.d 1) ∧ s.waits (.cpywait f)) ∧
    (¬ busy → ∃ t, exec (.cpywait f) s = .next t ∧ (s.flashed s.now).issued t s.now) ∧
    (¬ busy → s.ctx.vsta = [] → s.storesOpen = false → ∃ t, exec (.cpych f) s = .next t ∧
      (s.modTile s.cur fun x => { x with
        chans := x.chans.setIfInBounds j { c with st := .running, head := s.ctx.sreg f.a, cur := none, moved := 0, armer := a } }).wrote t
        (s.issueCycle [f.a]) 1 f.d 0) ∧
    (∃ t, exec (.cpystat f) s = .next t ∧ s.wrote t s.now 1 f.d (match c.st with
      | .idle => 0
      | .running => BitVec.ofNat 64 (2 ^ 62 + (match c.cur with | some r => r.moved | none => 0) * 2 ^ 16)
      | .stopped code => BitVec.ofNat 64 (2 ^ 63 + c.moved * 2 ^ 16 + code.toNat)))) ∧
  (∀ (f : CF) (s : State) (x : Xfer), s.cid = 0 → f.p5 = 4 → (s.tile s.cur).direct = [x] → x.finished = false → x.ver = none → x.aon = false →
    x.armer.cid = 0 → x.armer.pid = (s.tile s.cur).pid → x.armer.self = (s.tile s.cur).self → x.armer.is s.ctx = true → mhas (s.tile s.cur).ctxs 0 = true →
    (∀ e ∈ s.tiles, e.2.pid = x.armer.pid → e.2.self = x.armer.self → e.1 = s.cur) →
    ∃ t, exec (.cpykill f) s = .next t ∧ t.fate = .done ∧ t.mem = s.mem ∧ (t.tile s.cur).direct = [] ∧
      t.ctx.sregs = s.ctx.sregs ∧ t.ctx.dirCode = 0x0D ∧ t.ctx.dirErr = true ∧ t.ctx.dirMoved = BitVec.ofNat 40 x.moved ∧
      t.ctx.flags = s.ctx.flags ||| fEE))

/-! ## Store trackers (R112, R113, R294, R295) -/

/-- R113, R294: TRKSET of a valid descriptor with ACT NONE sets up a FREE tracker, which counts from 0; of an invalid one it gives 3; R295: TRKCLR
returns a tracker to FREE, and gives 1 when it is FREE already. R113: a report adds the bytes of the range that it covers to the count of a tracker
that is not FREE; a COUNTING one does nothing more. Where the rules leave it open it states the model's choice (assumption 39). -/
def Obligations.StoreTrackers : Prop :=
  ((∀ (f : CF) (s : State) (l : Line) (e : TlbEntry) (da : Nat), s.canRun [f.a] f.d = true → s.cid = 0 →
    let p := s.ctx.sreg f.a
    let v := l.data.toNat / 2 ^ (8 * (addrOf p % 128)) % 2 ^ 512
    let cl := clusterOf s.cur
    let c := (s.dev (pkgOf s.cur)).cluster cl
    let n := (f.b.toNat % 2) * 32 + f.p5.toNat
    let pa := leafPa e.attr e.large (addrOf (dword v 0))
    let len := (dword v 1).toNat % 2 ^ 40
    spaceOf p = 0 → addrOf p % 64 = 0 → s.clear = true → s.ctx.effects = [] →
    (s.tile s.cur).line (addrOf p / 128) s.ctx.asid = some l → spanWords (addrOf p % 128) 64 &&& ~~~l.valid = 0 → l.perm.getLsbD 0 = true →
    c.tlb = [e] → e.hits s.ctx.asid (addrOf p) = true → permits e.attr .load s.ctx.priv = true →
    s.globalAddr (pkgOf s.cur) (leafPa e.attr e.large (addrOf p)) = some da →
    (trackerDescOk v = false → ∃ t, exec (.trkset f) s = .next t ∧ t.fate = .done ∧ t.mem = s.mem ∧
      ∀ r, t.ctx.sreg r = if r = f.d ∧ r ≠ 0 then 3 else s.ctx.sreg r) ∧
    (∀ range, trackerDescOk v = true → (dword v 3).toNat / 2 ^ 60 = 0 → e.hits s.ctx.asid (addrOf (dword v 0)) = true →
      s.rangeAt s.cur pa (if e.large then 2 ^ 29 else 2 ^ 16) len = some range → (c.tracker n).st = .free →
      ∃ t, exec (.trkset f) s = .next t ∧ t.fate = .done ∧ t.mem = s.mem ∧
        (∀ r, t.ctx.sreg r = if r = f.d ∧ r ≠ 0 then 0 else s.ctx.sreg r) ∧
        let k := ((t.dev (pkgOf s.cur)).cluster cl).tracker n
        k.st = .counting ∧ k.count = 0 ∧ k.base = range ∧ k.len = len ∧
          k.thresh = (dword v 2).toNat % 2 ^ 40 ∧ k.act = 0)) ∧
  (∀ (f : CF) (s : State), s.canRun [] f.d = true → s.cid = 0 →
    let cl := clusterOf s.cur
    let n := (f.b.toNat % 2) * 32 + f.p5.toNat
    let k := ((s.dev (pkgOf s.cur)).cluster cl).tracker n
    (k.st = .free → ∃ t, exec (.trkclr f) s = .next t ∧ s.wrote t s.now 1 f.d 1) ∧
    (k.st ≠ .free → ∃ t, exec (.trkclr f) s = .next t ∧ t.fate = .done ∧ t.mem = s.mem ∧
      (∀ r, t.ctx.sreg r = if r = f.d ∧ r ≠ 0 then 0 else s.ctx.sreg r) ∧
      (((t.dev (pkgOf s.cur)).cluster cl).tracker n).st = .free))) ∧
  (∀ (s : State) (p cl n gl : Nat) (mask : ByteMask),
    let k := ((s.dev p).cluster cl).tracker n
    (k.st = .free → s.countBytes p cl n gl mask = s) ∧
    (k.st = .counting → (((s.countBytes p cl n gl mask).dev p).cluster cl).tracker n =
      { k with count := k.count + ((List.range 128).countP fun i =>
        mask.getLsbD i && decide (k.base ≤ gl * 128 + i) && decide (gl * 128 + i < k.base + k.len)) } ∧
      (s.countBytes p cl n gl mask).mem = s.mem))


/-! ## Element-wise A-words (R247 to R255) -/

/-- R251: each integer or bitwise operation applies to each element, wraps to the element's width, and is written under R249. -/
def Obligations.VectorIntegers : Prop :=
  ∀ (f : AW) (s : State),
    let w := elemWidth f.t
    let int := elemInt f.t
    let lo : Int := if f.t = 1 then 0 else -(2 ^ (w - 1))
    let hi : Int := if f.t = 1 then 2 ^ w - 1 else 2 ^ (w - 1) - 1
    (s.canVector f true → ∀ row ∈ ([
      (Instr.vadd, fun a b r => r = (a + b) % 2 ^ w), (Instr.vsub, fun a b r => (r + b) % 2 ^ w = a),
      (Instr.vmul, fun a b r => r = a * b % 2 ^ w), (Instr.vmulh, fun a b r => (r : Int) = int a * int b / 2 ^ w % 2 ^ w),
      (Instr.vmin, fun a b r => int r = min (int a) (int b)), (Instr.vmax, fun a b r => int r = max (int a) (int b)),
      (Instr.vand, fun a b r => ∀ j, r.testBit j = (a.testBit j && b.testBit j)),
      (Instr.vor, fun a b r => ∀ j, r.testBit j = (a.testBit j || b.testBit j)),
      (Instr.vxor, fun a b r => ∀ j, r.testBit j = (a.testBit j ^^ b.testBit j)),
      (Instr.vandn, fun a b r => ∀ j, r.testBit j = (a.testBit j && !b.testBit j)),
      (Instr.vshl, fun a b r => r = a * 2 ^ (b % w) % 2 ^ w), (Instr.vshr, fun a b r => r = a / 2 ^ (b % w)),
      (Instr.vsar, fun a b r => (r : Int) = (a : Int).bmod (2 ^ w) / 2 ^ (b % w) % 2 ^ w),
      (Instr.vadds, fun a b r => int r = max lo (min hi (int a + int b))),
      (Instr.vsubs, fun a b r => int r = max lo (min hi (int a - int b)))] : List ((AW → Instr) × (Nat → Nat → Nat → Prop))),
      ∃ t r, exec (row.1 f) s = .next t ∧ (s.taken f true).vwrote t f.t f.d 2 r (s.opK f) ∧
        ∀ i < 2048 / w, row.2 (el w (s.opA f) i) (el w (s.opB f) i) (el w r i)) ∧
    (s.canVector f false → ∀ row ∈ ([
      (Instr.vabs, fun a r => if isFloat f.t
        then r = if ((fmtOfType f.t).decode a).isNan then (fmtOfType f.t).nan % 2 ^ w else a % 2 ^ (w - 1)
        else r = ((a : Int).bmod (2 ^ w)).natAbs),
      (Instr.vclz, fun a r => r ≤ w ∧ (∀ j < r, a.testBit (w - 1 - j) = false) ∧ (r < w → a.testBit (w - 1 - r) = true)),
      (Instr.vpopc, fun a r => r = (List.range w).countP fun j => a.testBit j)] : List ((AW → Instr) × (Nat → Nat → Prop))),
      ∃ t r, exec (row.1 f) s = .next t ∧ (s.taken f false).vwrote t f.t f.d 2 r (s.opK f) ∧
        ∀ i < 2048 / w, row.2 (el w (s.opA f) i) (el w r i))

/-- R252 to R254: the floating operations round the exact result once and raise the flags of the active elements; the special
functions occupy their unit for 4 cycles. Values and flags of one element are those of the model's arithmetic (R49 to R58). -/
def Obligations.VectorFloats : Prop :=
  ∀ (f : AW) (s : State),
    let w := elemWidth f.t
    let n := 2048 / w
    let fm := fmtOfType f.t
    let dec := fm.decode
    let mode := s.ctx.frm.toNat
    let a := fun i => dec (el w (s.opA f) i)
    let b := fun i => dec (el w (s.opB f) i)
    let rounds := fun (i : Instr) (v : Nat → FV × BitVec 11) => ∃ t r fl, exec i s = .next t ∧
      ((s.taken f true).flagged fl).vwrote t f.t f.d 4 r (s.opK f) ∧
      (∀ i < n, el w r i = (fm.round mode .arith (v i).1).1 % 2 ^ w) ∧
      activeFlags w n (s.opK f) (fun i => (v i).2 ||| (fm.round mode .arith (v i).1).2) fl
    (s.canVector f true →
      rounds (.vfadd f) (fun i => (a i).add mode (b i)) ∧ rounds (.vfsub f) (fun i => (a i).add mode (b i).neg) ∧
      rounds (.vfmul f) (fun i => (a i).mul (b i)) ∧
      (s.canSource (if isV f.d then f.d else 0) = true →
        rounds (.vfma f) fun i => FV.fma mode (a i) (b i) (dec (el w (s.source f.t (if isV f.d then f.d else 0)) i))) ∧
      ∀ row ∈ [(Instr.vfmin, false), (Instr.vfmax, true)],
        ∃ t r, exec (row.1 f) s = .next t ∧ (s.taken f true).vwrote t f.t f.d 4 r (s.opK f) ∧ ∀ i < n,
          let x := el w (s.opA f) i
          let y := el w (s.opB f) i
          el w r i = if (a i).isNan || (b i).isNan then fm.nan % 2 ^ w
            else match (a i).cmp (b i) with
              | .lt => if row.2 then y else x
              | .gt => if row.2 then x else y
              | .eq => if ((a i).sign && !(b i).sign) = row.2 then y else x) ∧
    (let u := s.issueAt ((s.tile s.cur).sfuBusy)
    u.canVector f false →
      ∀ row ∈ [(Instr.vrcp, rcpCr), (Instr.vrsq, rsqCr), (Instr.vexp2, exp2Cr), (Instr.vlog2, log2Cr), (Instr.vsqrt, sqrtCr)],
        ∃ t r fl, exec (row.1 f) s = .next t ∧
          (((u.taken f false).modTile s.cur fun x => { x with sfuBusy := u.now + 4 }).flagged fl).vwrote t f.t f.d 8 r (u.opK f) ∧
          (∀ i < 64, el 32 r i = (row.2 (f32.decode (el 32 (u.opA f) i))).1 % 2 ^ 32) ∧
          activeFlags 32 64 (u.opK f) (fun i => (row.2 (f32.decode (el 32 (u.opA f) i))).2) fl)

/-- R255, R204, R378: VCVT converts the elements below both counts, the others are 0; its escape form converts to or from a narrow format, unmasked;
e2m1 traps as ILLEGAL while its feature is not accepted. Where the rules leave it open it states the model's choice (assumption 20). -/
def Obligations.VectorConversions : Prop :=
  ∀ (f : AW) (s : State),
    let mode := if f.b.getLsbD 0 then s.ctx.frm.toNat else 0
    let pol := policyOf (f.b.extractLsb' 1 2).toNat
    let x := s.opA f
    (s.canVector f false →
      let w := elemWidth f.t
      let u := elemWidth f.dt
      let n := min (2048 / w) (2048 / u)
      let c := fun i => convertElem f.t f.dt mode pol (el w x i)
      ∃ t r fl, exec (.vcvt f) s = .next t ∧ ((s.taken f false).flagged fl).vwrote t f.dt f.d 3 r (s.opK f) ∧
        (∀ i < 2048 / u, el u r i = if i < n then (c i).1 % 2 ^ u else 0) ∧
        activeFlags u n (s.opK f) (fun i => (c i).2) fl) ∧
    let nf := f.k.toNat
    let w := if nf = 2 then 4 else 8
    let accepted := (s.dev (pkgOf s.cur)).featAck.getLsbD 1
    (nf = 2 → accepted = false → s.traps (.vcvtNarrow f) 0x01 s.ctx.unit) ∧
    ((nf = 2 → accepted = true) → s.canVector { f with k := 0 } false →
      (f.t = 6 → ∃ t r, exec (.vcvtNarrow f) s = .next t ∧ (s.taken f false).vwrote t 2 f.d 3 r (BitVec.allOnes 64) ∧
        ∀ i < 64, el 32 r i = fromNarrow nf (el w x i) % 2 ^ 32) ∧
      (f.t ≠ 6 →
        let v := elemWidth f.t
        let c := fun i => toNarrow nf mode pol ((fmtOfType f.t).decode (el v x i))
        ∃ t r fl, exec (.vcvtNarrow f) s = .next t ∧ ((s.taken f false).flagged fl).vwrote t 2 f.d 3 r (BitVec.allOnes 64) ∧
          (∀ i < 2048 / w, el w r i = if i < 2048 / v then (c i).1 % 2 ^ w else 0) ∧
          activeFlags v (2048 / v) (BitVec.allOnes 64) (fun i => (c i).2) fl))

/-! ## Compares, selects and masks (R256 to R258) -/

/-- R257: lane i of VSEL's result is lane i of A where the selector's bit i is 1, else lane i of B, a lane of x64 being 64 bits wide;
with k0 it is A; every lane is written, after 2 cycles, and no flag is set. -/
def Obligations.LaneSelect : Prop :=
  ∀ (f : AW) (s : State), s.canVector f true →
    let lane := max (elemWidth f.t) 32
    ∃ t r, exec (.vsel f) s = .next t ∧ (s.taken f true).vwrote t f.t f.d 2 r (BitVec.allOnes 64) ∧
      (∀ i < 2048, r.getLsbD i = if (s.opK f).getLsbD (i / lane) then (s.opA f).getLsbD i else (s.opB f).getLsbD i) ∧
      (f.k = 0 → r = s.opA f)

/-- R256, R258: a compare's mask bit tells whether its relation holds for every element of the lane, false for a NaN but for
VCNE; VMKMASK tells the nonzero lanes; the operations on masks. -/
def Obligations.VectorMasks : Prop :=
  (∀ (f : AW) (s : State),
    let w := elemWidth f.t
    let per := if w = 64 then 1 else 32 / w
    let m := s.opK f
    let rel := fun (a b : Nat) => if isFloat f.t
      then (if ((fmtOfType f.t).decode a).isNan || ((fmtOfType f.t).decode b).isNan then none
        else some (((fmtOfType f.t).decode a).cmp ((fmtOfType f.t).decode b)))
      else some (compare (elemInt f.t a) (elemInt f.t b))
    (s.canVector f true →
      ∀ row ∈ ([(Instr.vceq, fun o => o = some .eq), (Instr.vcne, fun o => o ≠ some .eq), (Instr.vclt, fun o => o = some .lt),
        (Instr.vcle, fun o => o = some .lt ∨ o = some .eq)] : List ((AW → Instr) × (Option Ordering → Prop))),
        ∃ t p, exec (row.1 f) s = .next t ∧ (s.taken f true).maskWrote t f.t f.d 2 p m ∧
          ∀ i < 64, p.getLsbD i = true ↔ i < 2048 / max w 32 ∧
            ∀ j < per, row.2 (rel (el w (s.opA f) (per * i + j)) (el w (s.opB f) (per * i + j)))) ∧
    (s.canVector f false → ∃ t p, exec (.vmkmask f) s = .next t ∧ (s.taken f false).maskWrote t f.t f.d 2 p m ∧
      ∀ i < 64, p.getLsbD i = true ↔ i < 2048 / max w 32 ∧ ∀ j < per, el w (s.opA f) (per * i + j) ≠ 0)) ∧
  ∀ (f : AW) (s : State), 56 ≤ f.a.toNat → f.a.toNat < 60 → s.canMask (f.a.toNat - 56) = true →
    let x := s.maskVal (f.a.toNat - 56)
    let y := s.maskVal (f.b.toNat - 56)
    (57 ≤ f.d.toNat → f.d.toNat < 60 →
      (56 ≤ f.b.toNat → f.b.toNat < 60 → s.canMask (f.b.toNat - 56) = true →
        ∀ row ∈ [(Instr.kand, x &&& y), (Instr.kor, x ||| y), (Instr.kxor, x ^^^ y), (Instr.kandn, x &&& ~~~y)],
          ∃ t, exec (row.1 f) s = .next t ∧ s.maskWrote t 0 f.d 2 row.2 (BitVec.allOnes 64)) ∧
      ∃ t, exec (.knot f) s = .next t ∧ s.maskWrote t 0 f.d 2 (~~~x) (BitVec.allOnes 64)) ∧
    (s.ctx.rangeBad f.d = false → s.ctx.vregs.length = 8 * s.ctx.banks → ∃ t r, exec (.kpopc f) s = .next t ∧ s.vwrote t 1 f.d 2 r (BitVec.allOnes 64) ∧
      ∀ i < 64, el 32 r i = (List.range 64).countP fun j => x.getLsbD j)

/-! ## Operations across lanes (R259 to R266) -/

/-- R67, R259 to R261: a reduction is written to every element; for integers it is the sum modulo 2^w, the maximum or the minimum of the active
elements; floating sums and scans take the nodes of the tree; VRANK counts the active elements before each. R149, R262 to R266: the moves of lanes,
the hashes and generators, and the triple merge. Where the rules leave it open it states the model's choice (assumptions 15 and 80). -/
def Obligations.VectorLanes : Prop :=
  (∀ (f : AW) (s : State), s.canVector f false →
    let w := elemWidth f.t
    let n := 2048 / w
    let x := s.opA f
    let m := s.opK f
    let mode := s.ctx.frm.toNat
    let e := s.taken f false
    let live := (List.range n).filter fun i => activeBit w m i
    let int := fun i => elemInt f.t (el w x i)
    let add := addElem f.t mode
    let adds := masked w m (sumIdentity f.t mode) x
    (∃ t r fl, exec (.vrsum f) s = .next t ∧ (e.flagged fl).vwrote t f.t f.d 6 r (BitVec.allOnes 64) ∧
      (fl = (tree add adds).2) ∧ ∀ i < n, el w r i = (tree add adds).1 % 2 ^ w ∧
        (isFloat f.t = false → el w r i = (live.map fun j => el w x j).sum % 2 ^ w)) ∧
    (∀ row ∈ [(Instr.vrmax, true), (Instr.vrmin, false)],
      ∃ t r, exec (row.1 f) s = .next t ∧ e.vwrote t f.t f.d 6 r (BitVec.allOnes 64) ∧ ∀ i < n,
        (isFloat f.t = true → el w r i = (tree (pickElem f.t row.2) (masked w m (pickIdentity f.t row.2) x)).1 % 2 ^ w) ∧
        (isFloat f.t = false → (live ≠ [] → ∃ j ∈ live, el w r i = el w x j) ∧
          ∀ j ∈ live, if row.2 then int j ≤ elemInt f.t (el w r i) else elemInt f.t (el w r i) ≤ int j)) ∧
    (let nodes := treeLevels add (Nat.log2 n) adds
    let scan := fun i => scanAt add nodes.1 (i + 1) (Nat.log2 n + 1) 0 none 0
    ∃ t r fl, exec (.vscan f) s = .next t ∧ (e.flagged fl).vwrote t f.t f.d 6 r (BitVec.allOnes 64) ∧
      fl = (List.range n).foldl (fun acc i => acc ||| (scan i).2) nodes.2 ∧ ∀ i < n,
      el w r i = if isFloat f.t then (scan i).1 % 2 ^ w
        else ((live.filter fun j => decide (j ≤ i)).map fun j => el w x j).sum % 2 ^ w) ∧
    ∃ t r, exec (.vrank f) s = .next t ∧ e.vwrote t f.t f.d 6 r m ∧ ∀ i < n,
      let key := fun j => rankKey f.t (el w x j)
      el w r i = live.countP fun j => decide (key j < key i) || (decide (key j = key i) && decide (j < i))) ∧
  (∀ (f : AW) (s : State),
    let m := s.opK f
    let x := s.opA f
    let y := s.opB f
    (let w := if f.t = 7 then 64 else 32
    let n := 2048 / w
    (s.canVector f true →
      ∀ row ∈ ([(Instr.vshuf, fun i => el w y i), (Instr.vrotl, fun i => i + n - el w y 0 % n), (Instr.vbcast, fun _ => el w y 0)] :
        List ((AW → Instr) × (Nat → Nat))),
        ∃ t r, exec (row.1 f) s = .next t ∧ (s.taken f true).vwrote t f.t f.d 3 r m ∧ ∀ i < n, el w r i = el w x (row.2 i % n)) ∧
    (s.canVector f false →
      let chosen := (List.range n).filter fun i => m.getLsbD i
      (∃ t r, exec (.vcompr f) s = .next t ∧ (s.taken f false).vwrote t f.t f.d 3 r (BitVec.allOnes 64) ∧
        ∀ i < n, el w r i = if h : i < chosen.length then el w x chosen[i] else 0) ∧
      ∃ t r, exec (.vexpnd f) s = .next t ∧ (s.taken f false).vwrote t f.t f.d 3 r m ∧
        ∀ i < n, m.getLsbD i = true → el w r i = el w x (chosen.countP fun j => decide (j < i)))) ∧
    (s.canVector f true →
      let w := elemWidth f.t
      (∀ row ∈ ([
        (Instr.vhash, fun _ k seed => (if f.t = 7 then fmix64 k else fmix32 k) ^^^ seed),
        (Instr.vpart, fun _ h n => (if f.t = 7 then h / 2 ^ 32 else h) * (n % 2 ^ 32) / 2 ^ 32),
        (Instr.vrng, fun i k c => fmix32 (k ^^^ ((c + i) % 2 ^ 32)))] : List ((AW → Instr) × (Nat → Nat → Nat → Nat))),
        ∃ t r, exec (row.1 f) s = .next t ∧ (s.taken f true).vwrote t f.t f.d 5 r m ∧
          ∀ i < 2048 / w, el w r i = row.2 i (el w x i) (el w y i) % 2 ^ w) ∧
      (∃ t r fl, exec (.vtmrg f) s = .next t ∧ ((s.taken f true).flagged fl).vwrote t f.t f.d 4 r m ∧
        let h := fun q => mergeHead (el 32 x (4 * q)) (el 32 x (4 * q + 1)) (el 32 y (4 * q)) (el 32 y (4 * q + 1))
        (∀ q < 16, el 32 r (4 * q) = (h q).1 % 2 ^ 32 ∧ el 32 r (4 * q + 1) = (h q).2.1 % 2 ^ 32 ∧
          el 32 r (4 * q + 2) = (h q).2.2.1 % 2 ^ 32 ∧ el 32 r (4 * q + 3) = 0) ∧
        ∀ j < 11, fl.getLsbD j = true ↔ ∃ q < 16, (∃ b < 4, m.getLsbD (4 * q + b) = true) ∧ (h q).2.2.2.getLsbD j = true) ∧
      (s.canSource (if isV f.d then f.d else 0) = true →
        let c := fun i => mergeElem (el 32 (s.source f.t (if isV f.d then f.d else 0)) i) (el 32 x i) (el 32 y i)
        ∃ t r fl, exec (.vtscl f) s = .next t ∧ ((s.taken f true).flagged fl).vwrote t f.t f.d 4 r m ∧
          (∀ i < 64, el 32 r i = (c i).1 % 2 ^ 32) ∧ ∀ j < 11, fl.getLsbD j = true ↔ ∃ i < 64, m.getLsbD i = true ∧ (c i).2.getLsbD j = true)))

/-! ## Vector memory (R268 to R273) -/

/-- R268, R269, R138, R139: VLD takes an entry of a data queue with the bytes of a pinned line or of an array hit, splatted or decoded as
its size says; VSTA and VSTD push their entries; a complete pair at scratch is stored, active lanes only, when no flash holds the array (R81). -/
def Obligations.VectorLoadsAndStores : Prop :=
  (∀ (f : CM) (s : State) (p : Word), s.ctx.readable f.a = true →
    let q := f.d.toNat % 4
    let n := vldBytes f.sz p
    let o := addrOf p
    let sc := fun (i : Nat) => ((s.tile s.cur).pin (i / 128)).data.toNat / 2 ^ (8 * (i % 128)) % 256
    let splat := f.sz = 3 ∨ f.sz = 4
    let t0 := s.issueCycle [f.a]
    let pushed := fun (e t : State) (v : Vec) =>
      (e.setCtx { s.ctx with dqs := s.ctx.dqs.setIfInBounds q (s.ctx.dqs.getD q [] ++ [⟨v, true, [], 0, s.ctx.useq⟩]) }).issued t t0
    padd? (s.ctx.sreg f.a) (f.off.toInt * vldWidth f.sz) = some p → (s.ctx.dqs.getD q []).length < 4 → s.clear = true →
      (f.sz = 6 → (decFmt p).isSome = true) → o % n = 0 →
      (spaceOf p = 1 → (∀ i < n, o + i < 0xA0000 ∧ mhas (s.tile s.cur).pins ((o + i) / 128) = true) →
        ∃ t v, exec (.vld f) s = .next t ∧ pushed s t v ∧
          (f.sz ≠ 6 → ∀ i < 256, el 8 v i = if splat then sc (o + i % n) else if i < n then sc (o + i) else 0) ∧
          ∀ g, f.sz = 6 → decFmt p = some g →
            v = decodeLanes g (((List.range n).map fun i => sc (o + i) * 256 ^ i).sum)) ∧
      (spaceOf p = 1 → (∃ i < n, 0xA0000 ≤ o + i ∨ mhas (s.tile s.cur).pins ((o + i) / 128) = false) → s.traps (.vld f) 0x10 p) ∧
      ∀ l, spaceOf p = 0 → n ≤ 128 → s.ctx.effects = [] →
        (s.tile s.cur).line (o / 128) s.ctx.asid = some l → spanWords (o % 128) n &&& ~~~l.valid = 0 → l.perm.getLsbD 0 = true →
        ∃ t v, exec (.vld f) s = .next t ∧ pushed (s.modTile s.cur fun x => { x with lines := l :: x.lines.filter fun m => m.gl ≠ l.gl }) t v ∧
          (f.sz ≠ 6 → ∀ i < 256, el 8 v i = if splat ∨ i < n then l.data.toNat / 2 ^ (8 * (o % 128 + i % n)) % 256 else 0) ∧
          ∀ g, f.sz = 6 → decFmt p = some g → v = decodeLanes g (l.data.toNat / 2 ^ (8 * (o % 128)) % 2 ^ (8 * n))) ∧
  (∀ (f : CM) (s : State) (p : Word), s.ctx.readable f.a = true →
    let n : Nat := 256 / 2 ^ f.sz.toNat
    let o := addrOf p
    padd? (s.ctx.sreg f.a) (f.off.toInt * n) = some p → s.ctx.vsta.length < 8 → o % n = 0 → f.sz.toNat ≤ 6 →
      let pushed := fun (t : State) (addrs : List (Nat × Word)) =>
        (s.setCtx { s.ctx with vsta := s.ctx.vsta ++ [⟨p, n, addrs, 0, s.ctx.useq⟩] }).issued t (s.issueCycle [f.a])
      (spaceOf p = 1 → (∀ i < n, o + i < 0xA0000 ∧ mhas (s.tile s.cur).pins ((o + i) / 128) = true) →
        ∃ t, exec (.vsta f) s = .next t ∧ pushed t []) ∧
      ∀ a leaf, spaceOf p = 0 → n ≤ 128 → s.mapped o .store a leaf → s.calmLine a →
        ∃ t, exec (.vsta f) s = .next t ∧ t.fate = .done ∧ t.mem = s.mem ∧ t.ctx.sregs = s.ctx.sregs ∧
          t.ctx.vsta = s.ctx.vsta ++ [⟨p, n, [(a, leaf)], 0, s.ctx.useq⟩]) ∧
  (∀ (f : AW) (s : State), s.canVector f false → s.ctx.vstd.length < 8 →
    ∃ t lanes, exec (.vstd f) s = .next t ∧
      ((s.taken f false).setCtx { (s.taken f false).ctx with vstd := s.ctx.vstd ++ [⟨lanes, s.opA f, s.ctx.useq⟩] }).issued t s.now ∧
      ∀ i < 64, lanes.getLsbD i = (s.opK f).getLsbD (if elemWidth f.t = 64 then i / 2 else i)) ∧
  ∀ (s : State) (t c : Nat) (a : VstaEntry) (d : VstdEntry) (as : List VstaEntry) (ds : List VstdEntry),
    let k := s.ctxAt t c
    let o := addrOf a.ptr
    let word := fun (u : State) i => (((u.tile t).pin (i / 128)).data.toNat / 2 ^ (8 * (i % 128)) % 2 ^ 32)
    k.vsta = a :: as → k.vstd = d :: ds → k.backlog = [] → (k.pend.all fun l => !l.acq) = true → (s.tile t).flashUntil ≤ s.now → spaceOf a.ptr = 1 →
      a.width % 4 = 0 → a.width ≤ 256 → o % a.width = 0 → 0 < a.width →
      (∀ i < a.width, o + i < 0xA0000 ∧ mhas (s.tile t).pins ((o + i) / 128) = true) →
      ∃ u, exec (.vstorePair t c) s = .next u ∧ u.fate = .done ∧ u.mem = s.mem ∧ u.now = s.now ∧ u.cur = s.cur ∧
        u.ctxAt t c = { k with vsta := as, vstd := ds } ∧
        ∀ i, i % 4 = 0 → i < 0xA0000 →
          word u i = if o ≤ i ∧ i < o + a.width ∧ d.lanes.getLsbD ((i - o) / 4) = true then el 32 d.data ((i - o) / 4) else word s i

/-- R271, R272: a gather whose active elements are in scratch fills the entry that its unit reserved, +0 in inactive lanes; a scatter stores its
active lanes in order, the highest of two that name one word last. Where the rules leave it open it states the model's choice (assumption 19). -/
def Obligations.GatherAndScatter : Prop :=
  ∀ (f : LF) (s : State), s.ctx.readable f.ra = true → s.vectorCalm = true → s.ctx.resumes = false → s.ctx.vsta = [] →
    (s.tile s.cur).engine.queue = [] → s.ctx.pend = [] →
    let base := s.ctx.sreg f.ra
    let ic := f.f0.extractLsb' 2 6
    let q := f.f0.toNat % 4
    let sel := f.f1.toNat / 64 % 4
    let u := s.issueAt (s.issueCycle [f.ra])
    let m := u.maskVal sel
    let word := fun (v : State) (i : Nat) => ((v.tile s.cur).pin (i / 128)).data.toNat / 2 ^ (8 * (i % 128)) % 2 ^ 32
    let idx := u.source 1 ic
    let at' := fun i => addrOf base + 4 * el 32 idx i
    let e := u.setCtx (u.ctx.sourceTaken ic)
    u.canMask sel = true → u.canSource ic = true → spaceOf base = 1 → addrOf base % 4 = 0 →
    (∀ i < 64, m.getLsbD i = true → at' i < 0xA0000 ∧ mhas (s.tile s.cur).pins (at' i / 128) = true) →
    (∀ front, s.ctx.dqs.getD q [] = front ++ [⟨0, false, [], 0, s.ctx.useq⟩] → (front.all fun e => e.filled) = true →
      (∀ j < 4, j ≠ q → ((s.ctx.dqs.getD j []).all fun e => e.filled) = true) →
      ∃ t v, exec (.vgather f) s = .next t ∧
        (e.setCtx { e.ctx with
          dqs := e.ctx.dqs.setIfInBounds q ((e.ctx.dqs.getD q []).dropLast ++ [⟨v, true, [], 0, s.ctx.useq⟩])
          kept := none, pixK := false, pixIndex := 0 }).issued t u.now ∧
        ∀ i < 64, el 32 v i = if m.getLsbD i then word s (at' i) else 0) ∧
    (let dc := f.f1.extractLsb' 0 6
    let once := isMb ic && ic = dc
    let data := if once then idx else e.source 1 dc
    (∀ j < 4, ((s.ctx.dqs.getD j []).all fun e => e.filled) = true) → (once = false → e.canSource dc = true) →
      ∃ t, exec (.vscatter f) s = .next t ∧ t.fate = .done ∧ t.mem = s.mem ∧ t.now = u.now ∧
        t.ctx = { (if once then e.ctx else e.ctx.sourceTaken dc) with
          kept := none, pixK := false, pixIndex := 0 } ∧
        (∀ i < 64, m.getLsbD i = true → (∀ j < 64, i < j → m.getLsbD j = true → at' j ≠ at' i) → word t (at' i) = el 32 data i) ∧
        ∀ o, o % 4 = 0 → (∀ i < 64, m.getLsbD i = true → at' i ≠ o) → word t o = word s o)

/-- R103, R104, R237 to R241: the global forms on a 32-byte object whose home concerns no one else: BINIT, BEXPECT and BARRIVE change the object and
no other byte of memory; BWAIT and BTEST compare its count of phases with s[b], and a BWAIT that finds it there waits at the home. Where the rules
leave it open it states the model's choice (assumption 7). -/
def Obligations.GlobalBarriers : Prop :=
  ∀ (f : CF) (s : State) (a : Nat) (leaf : Word), f.p5.getLsbD 4 = true → s.cid = 0 → s.answered = true → s.calmLine a → Memory.wf s.mem = true →
    s.ctx.readable f.a = true → s.ctx.readable f.b = true → s.ctx.readable f.d = true →
    let old := BarV.ofNat (readNat s.mem a 32)
    let changed := fun (i : Instr) (b : BarV) => ∃ t, exec i s = .next t ∧ t.fate = .done ∧ t.ctx.sregs = s.ctx.sregs ∧ t.ctx.flags = s.ctx.flags ∧
      BarV.ofNat (readNat t.mem a 32) = b ∧ ∀ x, x < a ∨ a + 32 ≤ x → readByte t.mem x = readByte s.mem x
    (∀ p, p = s.ctx.sreg f.d → spaceOf p = 0 → addrOf p % 32 = 0 → s.mapped (addrOf p) .amo a leaf →
      let arr := (s.ctx.sreg f.a).toNat % 2 ^ 16
      let bytes := (s.ctx.sreg f.b).toNat % 2 ^ 40
      changed (.binit f) ⟨arr, bytes, false, false, arr, bytes, 0⟩ ∧ changed (.bexpect f) { old with expArr := arr, expBytes := bytes }) ∧
    ∀ p, p = s.ctx.sreg f.a → spaceOf p = 0 → addrOf p % 32 = 0 →
      (s.releasable = true → s.portsFree → s.mapped (addrOf p) .amo a leaf → changed (.barrive f) (old.apply (2 ^ 32) 1 0)) ∧
      (s.mapped (addrOf p) .load a leaf →
        (old.done ≠ (s.ctx.sreg f.b).toNat % 2 ^ 32 → s.ctx.pendingReg f.d = false →
          (∃ t, exec (.bwait f) s = .next t ∧ t.fate = .done ∧ t.now = s.issueCycle [f.a, f.b] ∧ t.mem = s.mem ∧
            s.ctx.gives f.d (BitVec.ofNat 64 old.done) t.ctx) ∧
          ∃ t, exec (.btest f) s = .next t ∧ t.fate = .done ∧ t.mem = s.mem ∧ s.ctx.gives f.d 1 t.ctx) ∧
        (old.done = (s.ctx.sreg f.b).toNat % 2 ^ 32 → s.ctx.pendingReg f.d = false →
          (∃ t, exec (.btest f) s = .next t ∧ t.fate = .done ∧ t.mem = s.mem ∧ s.ctx.gives f.d 0 t.ctx) ∧
          ∃ t h, exec (.bwait f) s = .next t ∧ t.fate = .waited ∧ t.mem = s.mem ∧ t.ctx.sregs = s.ctx.sregs ∧ t.held = s.held ++ [h] ∧
            h.work = .await (a % 128) old.done ∧ h.stage = .home ∧ h.gl = a / 128 ∧ h.tile = s.cur ∧ h.cid = 0))

/-! ## Helpers and tasks (R275, R296 to R302) -/

/-- R296, R298 to R300: HSTART starts a helper under a free CTXID, the lowest (assumption 21), or gives 0; HEND ends its helper with 0 and commits its
stores; HJOIN reports 3 of no helper, 2 of a stopped one, else how it ended; HKILL removes one. R275: in a helper the group is refused. Where the
rules leave it open it states the model's choice (assumption 44). -/
def Obligations.Helpers : Prop :=
  (∀ (f : CF) (g : LF) (s : State), s.cid ≠ 0 →
    (∀ i ∈ [Instr.hstart, .hjoin, .hkill, .taskq, .gfuse, .gsplit, .send, .recv, .recvt, .coll, .halt], s.traps (i f) 0x01 0x202) ∧
    s.traps (.taskqLone g) 0x01 0x202 ∧ s.traps (.collLone g) 0x01 0x202) ∧
  (∀ (f : CF) (s : State), s.cid = 0 → mhas (s.tile s.cur).ctxs 0 = true → s.canRun [f.a, f.b] f.d = true →
    let p := s.ctx.sreg f.a
    let x := s.tile s.cur
    let b := f.p5.toNat % 8
    let n := s.issueCycle [f.a, f.b]
    let full := 8 < x.banksHeld + b ∨ storeBytes x.pinLimit < x.imageBytes + acbBytes 1 b
    (spaceOf p ≠ 0 → s.traps (.hstart f) 0x13 p) ∧ (spaceOf p = 0 → addrOf p % 8 ≠ 0 → s.traps (.hstart f) 0x12 p) ∧
    (spaceOf p = 0 → addrOf p % 8 = 0 → s.releasable = true →
      (full ∨ (∀ c, 1 ≤ c → c ≤ 10 → mhas x.ctxs c = true) → ∃ t, exec (.hstart f) s = .next t ∧
        (s.modTile s.cur fun x => { x with gateFrom := n + 1 }).wrote t n 1 f.d 0) ∧
      ∀ c, ¬ full → 1 ≤ c → c ≤ 10 → mhas x.ctxs c = false → (∀ j, 1 ≤ j → j < c → mhas x.ctxs j = true) →
        ∃ t, exec (.hstart f) s = .next t ∧ t.fate = .done ∧ t.now = n ∧ t.mem = s.mem ∧ t.ctx.flags = s.ctx.flags ∧
          s.ctx.gives f.d (BitVec.ofNat 64 c) t.ctx ∧
          t.ctxAt s.cur c = { Ctx.reset with
            pc := p, npc := p, entry := p, arg := s.ctx.sreg f.b, sregs := (Vector.replicate 32 0).setIfInBounds 1 (s.ctx.sreg f.b)
            banks := b, vregs := List.replicate (8 * b) VReg.reset, prio := f.p5.toNat / 8
            asid := s.ctx.asid, frm := s.ctx.frm, evBase := s.ctx.evBase, priv := s.ctx.priv && x.pid = 0, birth := s.heldIds + 1 } ∧
          (t.tile s.cur).gateFrom = n + 1)) ∧
  (∀ (f : CF) (s : State), s.cid = 0 → s.traps (.hend f) 0x01 0x202) ∧
  (∀ (f : CF) (s : State), s.cid ≠ 0 → s.releasable = true → Map.rises (s.tile s.cur).ctxs = true → s.ctx.heldArrivals = [] →
    let ended := fun (t : State) => exec (.hend f) s = .next t ∧ t.fate = .done ∧ t.now = s.now ∧
      mhas (t.tile s.cur).ctxs s.cid = false ∧ mget 3 (t.tile s.cur).joins s.cid = 0 ∧ (t.ctxAt s.cur 0).sregs = (s.ctxAt s.cur 0).sregs
    (s.ctx.effects = [] → ∃ t, ended t ∧ t.mem = s.mem) ∧
    ∀ e, s.ctx.effects = [e] → s.noTrackers (pkgOfGl e.gl) → pkgOfGl e.gl = pkgOf s.cur → (s.dir e.gl).st = .normal →
      (∀ h ∈ s.held, h.gl ≠ e.gl) → ∃ t, ended t ∧ t.mem = writeLine s.mem e.gl e.mask e.data ∧
      (t.dir e.gl).tentative = ((s.dir e.gl).dropTent (s.commitName s.cur s.cid) (touched e.mask)).tentative) ∧
  ∀ (f : CF) (s : State), s.cid = 0 → s.canRun [f.a] f.d = true →
    let c := (s.ctx.sreg f.a).toNat % 16
    let x := s.tile s.cur
    let n := s.issueCycle [f.a]
    let there := c ≠ 0 ∧ mhas x.ctxs c = true
    let e := s.modTile s.cur fun x => { x with joins := mdel x.joins c }
    (there → (x.ctx c).stopped = false → s.waits (.hjoin f)) ∧
    (there → (x.ctx c).stopped = true → ∃ t, exec (.hjoin f) s = .next t ∧ e.wrote t n 1 f.d 2) ∧
    (c = 0 → ∃ t, exec (.hjoin f) s = .next t ∧ e.wrote t n 1 f.d 3) ∧
    (c ≠ 0 → ¬ there → ∃ t, exec (.hjoin f) s = .next t ∧
      if mget 3 x.joins c = 0 then (e.flashed n).wrote t n 1 f.d 0 else e.wrote t n 1 f.d (BitVec.ofNat 64 (mget 3 x.joins c))) ∧
    (¬ there → ∃ t, exec (.hkill f) s = .next t ∧ s.issued t n) ∧
    (there → Map.rises x.ctxs = true → (x.ctx c).effects = [] → ∃ t, exec (.hkill f) s = .next t ∧ t.fate = .done ∧ t.mem = s.mem ∧
      mhas (t.tile s.cur).ctxs c = false ∧ mget 3 (t.tile s.cur).joins c = 1 ∧ t.ctx.sregs = s.ctx.sregs)

/-- R301, R302, R335: TASKQ with its record in a line of the array gives 2 for a bad input set, 1 when the gate is full, and else queues the task and
gives 0; its lone form traps as BADHANDLE, waits, or queues it; TASK_START starts the gate's task as a helper, with no flash (R101). Where the rules
leave it open it states the model's choice (assumptions 10, 21 and 44). -/
def Obligations.Tasks : Prop :=
  (∀ (f : CF) (g : LF) (s : State) (l : Line), s.cid = 0 → s.releasable = true → s.canRun [f.a, f.b] f.d = true →
    let p := s.ctx.sreg f.a
    let r := s.ctx.sreg f.b
    let n := s.issueCycle [f.a, f.b]
    let x := s.tile s.cur
    let e := s.used l
    let count := (l.word r 0).toNat % 8
    let sets := (List.range count).map fun i =>
      (l.word r (3 * i + 1), BitVec.ofNat 128 ((l.word r (3 * i + 2)).toNat + (l.word r (3 * i + 3)).toNat * 2 ^ 64))
    let good := fun (q : Word × BitVec 128) => s.handleOk q.1 = true ∧ q.2.toNat < 2 ^ (x.slot (hSlot q.1)).size
    let task := fun (banks prio : Nat) => (⟨p, r, sets, banks, prio, BitVec.ofNat 49 (s.ctx.upc.toNat / 8)⟩ : Task)
    let queued := fun (k : Task) => e.modTile s.cur fun x => { x with gate := x.gate ++ [k] }
    g.ra = f.a → g.rb = f.b → spaceOf p = 0 → addrOf p % 8 = 0 → addrOf r % 8 = 0 →
    (4 < count → s.cached r 8 l → (∃ t, exec (.taskq f) s = .next t ∧ e.wrote t n 1 f.d 2) ∧ s.traps (.taskqLone g) 0x1A (Config.badSetVal r)) ∧
    (count ≤ 4 → s.cached r (8 + 24 * count) l →
      (∀ front q rest, sets = front ++ q :: rest → (∀ o ∈ front, good o) → ¬ good q →
        (∃ t, exec (.taskq f) s = .next t ∧ e.wrote t n 1 f.d 2) ∧ s.traps (.taskqLone g) 0x1A q.1) ∧
      ((∀ q ∈ sets, good q) →
        (16 ≤ x.gate.length → (∃ t, exec (.taskq f) s = .next t ∧ e.wrote t n 1 f.d 1) ∧ s.waits (.taskqLone g)) ∧
        (x.gate.length < 16 →
          (∃ t, exec (.taskq f) s = .next t ∧ (queued (task (f.p5.toNat % 8) (f.p5.toNat / 8))).wrote t n 1 f.d 0) ∧
          ∃ t, exec (.taskqLone g) s = .next t ∧ (queued (task (g.f0.toNat % 16) (g.f0.toNat / 16 % 4))).issued t n)))) ∧
  ∀ (s : State) (t c : Nat) (k : Task),
    let x := s.tile t
    x.gate = [k] → mhas x.ctxs 0 = true → x.fenced = false → x.quiet = none → x.gateFrom ≤ s.now →
    (∀ i ∈ k.inputs, (x.slot (hSlot i.1)).chunks &&& i.2 = i.2) →
    ¬ (8 < x.banksHeld + k.banks ∨ storeBytes x.pinLimit < x.imageBytes + acbBytes 1 k.banks) →
    1 ≤ c → c ≤ 10 → mhas x.ctxs c = false → (∀ j, 1 ≤ j → j < c → mhas x.ctxs j = true) →
    ∃ u, s.happens u (.taskStart t) ∧ u.mem = s.mem ∧ u.now = s.now ∧ (u.tile t).gate = [] ∧
      (u.tile t).lines = x.lines ∧
      (u.ctxAt t c).pc = k.entry ∧ (u.ctxAt t c).sreg 1 = k.record ∧ (u.ctxAt t c).banks = k.banks ∧ (u.ctxAt t c).prio = k.prio ∧
      (u.ctxAt t c).startFrom = s.now + 2

/-! ## Gangs and compacts (R118 to R127, R303, R304) -/

/-- R303, R304: GFUSE gives 1, 2 or 3 where it is refused; it waits until every member of its mask has asked, and then gives 0, with every member in
the gang of the lowest one and at that one's next unit; GSPLIT ends the gang. Where the rules leave it open it states the model's choice (assumptions
44 and 62). -/
def Obligations.Gangs : Prop :=
  ∀ (f : CF) (s : State), s.cid = 0 → mhas (s.tile s.cur).ctxs 0 = true → s.canRun [f.a] f.d = true →
    let mask := BitVec.ofNat 8 (s.ctx.sreg f.a).toNat
    let n := s.issueCycle [f.a]
    let x := s.tile s.cur
    let base := s.cur - s.cur % 8
    let members := ((List.range 8).filter fun i => mask.getLsbD i).map fun i => base + i
    let asking := x.fuse = some mask
    let bad := mask.getLsbD (s.cur % 4096 % 8) = false ∨ ∃ m ∈ members, s.inPartition m x.pid = false
    let ganged := ∃ m ∈ members, (s.tile m).gang.isSome = true
    let clash := ∃ i < 8, ∃ o, (s.tile (base + i)).fuse = some o ∧ o ≠ mask ∧ o.getLsbD (s.cur % 4096 % 8) = true
    (¬ asking → bad → ∃ t, exec (.gfuse f) s = .next t ∧ s.wrote t n 1 f.d 1) ∧
    (¬ asking → ¬ bad → ganged → ∃ t, exec (.gfuse f) s = .next t ∧ s.wrote t n 1 f.d 2) ∧
    (¬ asking → ¬ bad → ¬ ganged → clash → ∃ t, exec (.gfuse f) s = .next t ∧ s.wrote t n 1 f.d 3) ∧
    (asking ∨ (¬ bad ∧ ¬ ganged ∧ ¬ clash) →
      ((∃ m ∈ members, m ≠ s.cur ∧ (s.tile m).fuse ≠ some mask) → ∃ t, exec (.gfuse f) s = .next t ∧ t.fate = .waited ∧ t.mem = s.mem ∧
        (t.tile s.cur).fuse = some mask ∧ t.ctx.sregs = s.ctx.sregs) ∧
      (∀ leader rest, members = leader :: rest → s.cur ∈ members → (∀ m ∈ members, m ≠ s.cur → (s.tile m).fuse = some mask) →
        ∃ t, exec (.gfuse f) s = .next t ∧ t.fate = .done ∧ t.now = n ∧ t.mem = s.mem ∧ s.ctx.gives f.d 0 t.ctx ∧
          (∀ m ∈ members, (t.tile m).gang = some leader ∧ (t.tile m).fuse = none) ∧
          t.ctx.npc = (s.ctxAt leader 0).upc + 8 ∧ ∀ m ∈ members, m ≠ s.cur → (t.ctxAt m 0).pc = (s.ctxAt leader 0).upc + 8)) ∧
    ∃ t, exec (.gsplit f) s = .next t ∧ (s.modTile s.cur fun x => { x with gang := none }).issued t s.now

/-- R118 to R123, R125 to R127: CSIGN checks its descriptor, holds its lines and signs: a bad header or entry gives 1, a table without the tile 2, no
way that may be pinned 3, a page without the permissions 4, a held line 5, a poisoned one 6, and a coordinator refuses with 7 or 8; a private line is
pinned, a bound one HELD with every word owned; the last signature forms the compact, and then CSIGN gives 0 and acquires; in a compact already it
gives 8. CSTEP and CDISS give all ones with no compact; a boundary publishes the dirty words of bound lines first, ends when every member has arrived,
and gives its bits; CDISS then gives the lines up: a bound line is an ordinary cached one and NORMAL at its home. In a helper the three trap as
HELPERWAIT. Where the rules leave it open it states the model's choice (assumptions 11, 42 and 63). -/
def Obligations.Compacts : Prop :=
  (∀ (f : CF) (s : State), s.cid ≠ 0 → ∀ i ∈ [Instr.csign, .cstep, .cdiss], s.traps (i f) 0x06 s.ctx.unit) ∧
  (∀ (f : CF) (s : State) (l : Line), s.cid = 0 → s.releasable = true → s.canRun [f.a] f.d = true →
    let x := s.tile s.cur
    let here := pkgOf s.cur
    let n := s.issueCycle [f.a]
    let p := s.ctx.sreg f.a
    let header := fun i => (l.word p i).toNat
    let table := l.word p 1
    let entry := fun i => (l.word table i).toNat
    let ranges := l.word table 1
    let range := fun i => (l.word ranges i).toNat
    let answers := fun (code : Nat) => ∃ t, exec (.csign f) s = .next t ∧ ((s.used l).flashed n).wrote t n 1 f.d (BitVec.ofNat 64 code)
    let count := header 0 / 2 ^ 16 % 2 ^ 13
    let headerGood := header 0 / 2 ^ 29 = 0 ∧ header 2 = 0 ∧ 0 < count ∧ count ≤ 4096
    let entryGood := entry 0 / 2 ^ 30 = 0 ∧ entry 3 = 0 ∧ entry 0 / 2 ^ 12 % 2 ^ 12 < 2688 ∧
      (entry 0 / 2 ^ 6 % 2 ^ 6 = (s.dev here).domain.toNat ∨ (s.dev here).featAck.getLsbD 4 = true)
    let own := entry 0 % 2 ^ 12 = s.devNum here ∧ entry 0 / 2 ^ 12 % 2 ^ 12 = s.cur % 4096
    x.member = none → x.mode ≠ .signing → addrOf p % 32 = 0 → s.cached p 32 l →
    (¬ headerGood → answers 1) ∧
    (headerGood → count = 1 → addrOf table % 32 = 0 → s.cached table 32 l →
      (¬ entryGood → answers 1) ∧ (entryGood → ¬ own → answers 2) ∧
      (entryGood → own → entry 0 / 2 ^ 24 % 16 = 1 → addrOf ranges % 32 = 0 → s.cached ranges 32 l →
        s.pkgOfDev (s.devNum here) = some here → x.lines = [l] → x.pins = [] → x.slots = [] → x.fenced = false →
        range 0 < 0xA0000 → range 0 % 128 = 0 → range 1 % 2 ^ 63 = 128 → range 3 = 0 →
        let line := range 0 / 128
        let gva := l.word ranges 2
        let m : Member := ⟨entry 0 % 2 ^ 12, header 0 % 2 ^ 16, entry 0 / 2 ^ 28, l.word table 2, .formed, 0, false⟩
        let forms := fun (t : State) (q : PinLine) => exec (.csign f) s = .next t ∧ t.fate = .waited ∧ t.mem = s.mem ∧
          (t.tile s.cur).mode = .member ∧ (t.tile s.cur).member = some m ∧ (t.tile s.cur).pins = [(line, q)] ∧
          t.compacts = s.compacts ++ [⟨m.dev, m.cid, p, [s.cur], [s.cur], true, [], [], []⟩]
        let undone := fun (code : Nat) => ∃ t, exec (.csign f) s = .next t ∧ t.fate = .done ∧ t.now = n ∧ t.mem = s.mem ∧
          s.ctx.gives f.d (BitVec.ofNat 64 code) t.ctx ∧ (t.tile s.cur).member = none ∧ (t.tile s.cur).mode = .free ∧ (t.tile s.cur).pins = []
        let room := x.pinned (line % 256) < x.pinLimit ∧ 2 ≤ x.ways (line % 256)
        (range 1 / 2 ^ 63 = 0 → gva = 0 →
          (x.pinLimit ≤ x.pinned (line % 256) → answers 3) ∧
          (room → (∀ k ∈ s.compacts, k.dev ≠ m.dev ∨ k.cid ≠ m.cid) →
            ∃ t, forms t ({ PinLine.zero with kind := .compact, pid := x.pid } : PinLine)) ∧
          ∀ k, room → s.compacts = [k] → k.dev = m.dev → k.cid = m.cid → k.formed = true →
            (k.desc ≠ p → undone 7) ∧ (k.desc = p → undone 8)) ∧
        (range 1 / 2 ^ 63 = 1 → spaceOf gva = 0 → addrOf gva % 128 = 0 → room →
          ∀ a leaf, s.mapped (addrOf gva) .load a leaf → pkgOfGl (a / 128) = here → isHostGl (a / 128) = false → l.gl ≠ a / 128 →
            (leaf.getLsbD 58 = false ∨ leaf.getLsbD 57 = false → ∃ t, exec (.csign f) s = .next t ∧ t.fate = .done ∧ t.mem = s.mem ∧
              s.ctx.gives f.d 4 t.ctx ∧ (t.tile s.cur).pins = [] ∧ (t.tile s.cur).member = none) ∧
            (leaf.getLsbD 58 = true → leaf.getLsbD 57 = true →
              ((s.dir (a / 128)).st = .held → undone 5) ∧ ((s.dir (a / 128)).st = .poison → undone 6) ∧
              (s.calmLine a → (∀ k ∈ s.compacts, k.dev ≠ m.dev ∨ k.cid ≠ m.cid) →
                ∃ t, forms t ⟨.compact, x.pid, some (a / 128), addrOf gva / 128, 0, readLine s.mem (a / 128)⟩ ∧
                  t.dir (a / 128) = { Dir.reset with st := .held, holder := s.cur, owners := [⟨s.cur, BitVec.allOnes 32⟩] })))))) ∧
  ∀ (f : CF) (s : State), s.cid = 0 → s.canRun [f.a] f.d = true →
    let x := s.tile s.cur
    let n := s.issueCycle [f.a]
    (∀ m, x.member = some m → x.mode ≠ .signing →
      (m.phase = .formed → ∃ t, exec (.csign f) s = .next t ∧ t.fate = .done ∧ t.now = n ∧ t.mem = s.mem ∧ s.ctx.gives f.d 0 t.ctx ∧
        (t.tile s.cur).member = some { m with phase := .between } ∧
        (t.tile s.cur).lines = x.lines.map fun l => { l with valid := l.own }) ∧
      (m.phase ≠ .formed → s.releasable = true → ∃ t, exec (.csign f) s = .next t ∧ (s.flashed n).wrote t n 1 f.d 8)) ∧
    (x.mode ≠ .member → (∃ t, exec (.cstep f) s = .next t ∧ s.wrote t n 1 f.d (BitVec.allOnes 64)) ∧
      ∃ t, exec (.cdiss f) s = .next t ∧ s.wrote t s.now 1 f.d (BitVec.allOnes 64)) ∧
    ∀ m, x.mode = .member → x.member = some m → m.lost = false →
      let bits := fun (any own : Bool) => BitVec.ofNat 64 (2 * any.toNat + own.toNat)
      (∀ any own, m.phase = .complete any own →
        (∃ t, exec (.cstep f) s = .next t ∧ t.fate = .done ∧ t.now = n ∧ t.mem = s.mem ∧ s.ctx.gives f.d (bits any own) t.ctx ∧
          (t.tile s.cur).member = some { m with phase := .between, boundary := m.boundary + 1 }) ∧
        (x.pins = [] → ∃ t, exec (.cdiss f) s = .next t ∧ t.fate = .done ∧ t.mem = s.mem ∧ s.ctx.gives f.d (bits any own) t.ctx ∧
          (t.tile s.cur).member = none ∧ (t.tile s.cur).mode = .free) ∧
        ∀ l q gl, x.pins = [(l, q)] → q.pid = x.pid → q.kind = .compact → q.gl = some gl → q.dirty = 0 → x.lines = [] → x.engine.queue = [] →
          (∀ h ∈ s.held, h.gl ≠ gl) →
          let free := 0 < ({ x with pins := [] } : Tile).ways (q.va % 256)
          let owners := (s.dir gl).owners
          ∃ t, exec (.cdiss f) s = .next t ∧ t.fate = .done ∧ t.mem = s.mem ∧ s.ctx.gives f.d (bits any own) t.ctx ∧
            (t.tile s.cur).member = none ∧ (t.tile s.cur).mode = .free ∧ (t.tile s.cur).pins = [] ∧
            (t.dir gl).st = .normal ∧ (t.dir gl).holder = 0 ∧
            (free → (t.dir gl).owners = owners ∧
              (t.tile s.cur).lines = [⟨q.va, s.ctx.asid, gl, BitVec.allOnes 32, BitVec.allOnes 32, 0, 7, q.data⟩]) ∧
            (¬ free → (t.tile s.cur).lines = [] ∧ (t.dir gl).owners =
              (owners.map fun o => if o.tile = s.cur then { o with mask := 0 } else o).filter fun o => o.mask ≠ 0)) ∧
      (m.phase = .between → s.releasable = true → ∀ l q gl, x.pins = [(l, q)] → q.pid = x.pid → q.gl = some gl → ∀ i ∈ [Instr.cstep, .cdiss],
        ∃ t, exec (i f) s = .next t ∧ t.fate = .waited ∧ t.mem = writeLine s.mem gl (wordBytes q.dirty) q.data ∧
          (t.tile s.cur).member = some { m with phase := .published } ∧ ((t.tile s.cur).pin l).dirty = 0) ∧
      (m.phase = .published → ∀ k, s.compacts = [k] → k.dev = m.dev → k.cid = m.cid → k.members = [s.cur] → k.arrived = [] →
        ∃ t, exec (.cdiss f) s = .next t ∧ t.fate = .waited ∧ t.mem = s.mem ∧ t.compacts = [] ∧
          (t.tile s.cur).member = some { m with phase := .complete false false })

/-! ## Messages and collectives (R305 to R309) -/

/-- R305 to R307: SEND gives what the receiver answers: 0 when its ring takes the 64-byte entry, 1 full, 2 none, 4 no such endpoint; RECV and RECVT
take the oldest entry and acquire; an empty ring makes RECV wait, and RECVT until its cycles have passed, when it gives all ones. Where the rules
leave it open it states the model's choice (assumption 41). -/
def Obligations.Messages : Prop :=
  ∀ (f : CF) (s : State), s.cid = 0 → mhas (s.tile s.cur).ctxs 0 = true → s.canRun [f.a, f.b] f.d = true →
    (s.ctx.pend.all fun l => !l.acq) = true →
    let x := s.tile s.cur
    (let d := s.ctx.sreg f.a
    let p := s.ctx.sreg f.b
    let o := addrOf p
    let q := pkgOf s.cur
    let t := q * 4096 + d.toNat % 4096
    let k := s.ctxAt t 0
    let e := k.recvBase.toNat * 64 + 64 * k.recvTail.toNat
    let n := s.issueCycle [f.a, f.b]
    let gone := mhas (s.tile t).ctxs 0 = false ∨ k.recvSize = 0 ∨ ∃ i < 64, 0xA0000 ≤ e + i ∨ mhas (s.tile t).pins ((e + i) / 128) = false
    (spaceOf p ≠ 1 → s.traps (.send f) 0x13 p) ∧ (spaceOf p = 1 → o % 64 ≠ 0 → s.traps (.send f) 0x12 p) ∧
    (spaceOf p = 1 → o % 64 = 0 → x.holds o 64 →
      (2 ^ 24 ≤ d.toNat ∨ 2688 ≤ d.toNat % 4096 → ∃ t, exec (.send f) s = .next t ∧ s.wrote t n 1 f.d 4) ∧
      (d.toNat / 4096 = s.devNum q → s.pkgOfDev (s.devNum q) = some q → d.toNat % 4096 < 2688 → s.releasable = true → (s.tile t).fenced = false →
        (gone → ∃ u, exec (.send f) s = .next u ∧ s.wrote u n 1 f.d 2) ∧
        (¬ gone → k.recvCount = k.recvSize → ∃ u, exec (.send f) s = .next u ∧ s.wrote u n 1 f.d 1) ∧
        (¬ gone → k.recvCount ≠ k.recvSize → ∃ u, exec (.send f) s = .next u ∧ u.fate = .done ∧ u.mem = s.mem ∧ u.now = n ∧
          s.ctx.gives f.d 0 u.ctx ∧
          (u.ctxAt t 0).recvCount = k.recvCount + 1 ∧
          (u.ctxAt t 0).recvTail.toNat = (k.recvTail.toNat + 1) % k.recvSize.toNat % 2 ^ 11 ∧
          (∀ i < 56, (u.tile t).byte (e + i) = x.byte (o + i)) ∧
          ∀ i < 8, (u.tile t).byte (e + 56 + i) = (s.devNum q * 4096 + s.cur % 4096) / 256 ^ i % 256)))) ∧
    (let p := s.ctx.sreg f.a
    let o := addrOf p
    let k := s.ctx
    let e := k.recvBase.toNat * 64 + 64 * ((k.recvTail.toNat + k.recvSize.toNat - k.recvCount.toNat) % k.recvSize.toNat)
    (k.recvCount = 0 → s.waits (.recv f) ∧
      let from' := k.timeFrom.getD (s.issueCycle [f.b])
      (from' + (k.sreg f.b).toNat ≤ s.issueCycle [f.b] → ∃ t, exec (.recvt f) s = .next t ∧
        (s.setCtx { k with timeFrom := none }).wrote t (s.issueCycle [f.b]) 1 f.d (BitVec.allOnes 64)) ∧
      (s.issueCycle [f.b] < from' + (k.sreg f.b).toNat → ∃ t, exec (.recvt f) s = .next t ∧ t.fate = .waited ∧ t.ctx.timeFrom = some from' ∧
        t.ctx.sregs = k.sregs ∧ t.mem = s.mem)) ∧
    (k.recvCount ≠ 0 → spaceOf p = 1 → o % 64 = 0 → x.holds o 64 → ∀ i ∈ [Instr.recv, .recvt],
      ∃ t, exec (i f) s = .next t ∧ t.fate = .done ∧ t.mem = s.mem ∧ t.ctx.recvCount = k.recvCount - 1 ∧ t.ctx.recvTail = k.recvTail ∧
        t.ctx.timeFrom = none ∧ (∀ j < 64, (t.tile s.cur).byte (o + j) = x.byte (e + j)) ∧
        s.ctx.gives f.d (BitVec.ofNat 64 ((List.range 8).map fun j => x.byte (e + 56 + j) * 256 ^ j).sum) t.ctx ∧
        (t.tile s.cur).lines = x.lines.map fun l => { l with valid := l.own }))

/-- R308, R309: COLL starts a program of the region's Vetch, or answers 1 busy, 2 a live id, 3 a bad argument; its lone form waits for the first two;
CWAIT waits while the program lives, and then gives its status and raises its flags. Where the rules leave it open it states the model's choice
(assumption 41). -/
def Obligations.Collectives : Prop :=
  (∀ (f : CF) (g : LF) (s : State) (l : Line), s.cid = 0 → s.releasable = true → s.canRun [f.a] f.d = true →
    s.ctx.readable g.ra = true → s.ctx.readable g.rb = true → s.ctx.readable g.rc = true →
    let p := s.ctx.sreg f.a
    let n := s.issueCycle [f.a]
    let e := s.used l
    let r := (s.dev (pkgOf s.cur)).region (regionOf s.cur)
    let ok := fun (prog table : Word) (rr : Nat) => rr % 2 ^ 16 < rr / 2 ^ 16 % 2 ^ 16 + 1 ∧ rr / 2 ^ 16 % 2 ^ 16 < 32768 ∧ spaceOf prog = 0 ∧
      addrOf prog % 8 = 0 ∧ spaceOf table = 0 ∧ addrOf table % 16 = 0
    let prog := fun (prog table : Word) (rr id : Nat) => ({
      id := id, inst := r.insts + 1, tile := s.cur, cid := 0, pid := (s.tile s.cur).pid, asid := s.ctx.asid, priv := s.ctx.priv
      prog := prog, table := table, rank := rr % 2 ^ 16, nranks := rr / 2 ^ 16 % 2 ^ 16 + 1, pc := prog, steps := 0
      ctrs := [0, 0, 0, 0], flags := 0, checked := false, halfway := false, out := none, applied := [], forwards := []
      signals := 0, aperBytes := [], stopped := false } : Prog)
    let started := fun (e : State) (g : Prog) => e.modRegion (pkgOf s.cur) (regionOf s.cur) fun r =>
      { r with insts := r.insts + 1, done := mdel r.done g.id, progs := r.progs ++ [g] }
    (s.cached p 32 l →
      let w2 := (l.word p 2).toNat
      let w3 := (l.word p 3).toNat
      let good := ok (l.word p 0) (l.word p 1) w2 ∧ w2 / 2 ^ 32 = 0 ∧ w3 / 2 ^ 12 = 0
      (16 ≤ r.progs.length → ∃ t, exec (.coll f) s = .next t ∧ e.wrote t n 1 f.d 1) ∧
      (r.progs.length < 16 → (∃ q ∈ r.progs, q.id = w3 % 2 ^ 12) → ∃ t, exec (.coll f) s = .next t ∧ e.wrote t n 1 f.d 2) ∧
      (r.progs.length < 16 → (∀ q ∈ r.progs, q.id ≠ w3 % 2 ^ 12) →
        (¬ good → ∃ t, exec (.coll f) s = .next t ∧ e.wrote t n 1 f.d 3) ∧
        (good → ∃ t, exec (.coll f) s = .next t ∧
          (started e (prog (l.word p 0) (l.word p 1) w2 (w3 % 2 ^ 12))).wrote t n 1 f.d 0))) ∧
    (let a := s.ctx.sreg g.ra
    let b := s.ctx.sreg g.rb
    let c := (s.ctx.sreg g.rc).toNat
    let m := s.issueCycle [g.ra, g.rb, g.rc]
    let live := 16 ≤ r.progs.length ∨ ∃ q ∈ r.progs, q.id = g.f0.toNat
    (live → s.waits (.collLone g)) ∧
    (¬ live → ok a b c → c / 2 ^ 32 = 0 → ∃ t, exec (.collLone g) s = .next t ∧ (started s (prog a b c g.f0.toNat)).issued t m) ∧
    (¬ live → ¬ (ok a b c ∧ c / 2 ^ 32 = 0) → ∃ t, exec (.collLone g) s = .next t ∧
      (s.modRegion (pkgOf s.cur) (regionOf s.cur) fun r => { r with done := mset r.done g.f0.toNat 4 }).issued t m))) ∧
  ∀ (f : CF) (s : State), s.canRun [f.a] f.d = true →
    let id := (s.ctx.sreg f.a).toNat % 4096
    let r := (s.dev (pkgOf s.cur)).region (regionOf s.cur)
    let n := s.issueCycle [f.a]
    ((∃ q ∈ r.progs, q.id = id) → (s.cid = 0 → s.waits (.cwait f)) ∧ (s.cid ≠ 0 → s.traps (.cwait f) 0x06 (BitVec.ofNat 64 id))) ∧
    ((∀ q ∈ r.progs, q.id ≠ id) →
      (mhas r.done id = false → ∃ t, exec (.cwait f) s = .next t ∧ (s.flagged 0).wrote t n 1 f.d (mget 8 r.done id)) ∧
      (mhas r.done id = true → ∃ t, exec (.cwait f) s = .next t ∧
        ((s.flashed n).flagged ((mget 8 r.done id).extractLsb' 8 11)).wrote t n 1 f.d (mget 8 r.done id)))

/-! ## The matrix engine (R150 to R160, R276 to R283) -/

/-- R150, R276 to R283: a command whose checks pass enters the queue of two with the registers that it read, and nothing else changes; with the queue
full it waits; MSYNC waits until the queue is empty; a failed check of its operands traps as BADGEOM with the unit image. Where the rules leave it
open it states the model's choice (assumptions 25, 64 and 65). -/
def Obligations.MatrixCommands : Prop :=
  ∀ (s : State), s.cid = 0 → s.ctx.vsta = [] →
    let x := s.tile s.cur
    let e := x.engine
    let u := s.ctx.unit
    let feats := (s.dev (pkgOf s.cur)).featAck
    let queued := fun (s : State) (g : Engine → Engine) (ra rb rc : Word) (as : List (Option Nat)) => s.modTile s.cur fun x =>
      { x with engine := g { x.engine with queue := x.engine.queue ++ [⟨u, s.ctx.upc, ra, rb, rc, 0, s.ctx.useq, as⟩] } }
    let plane := fun (p n : Nat) => p = 0 ∨ x.holds (64 * p) (64 + n)
    (∀ f : CF, (∀ i ∈ [Instr.mbegin, .mend, .mzero], 2 ≤ e.queue.length → s.waits (i f)) ∧
      (e.queue ≠ [] → s.waits (.msync f)) ∧ (e.queue = [] → exec (.msync f) s = .next { s with fate := .done }) ∧
      (e.queue.length < 2 →
        (∃ t, exec (.mzero f) s = .next t ∧ (queued s id 0 0 0 []).issued t s.now) ∧
        (e.chain = none → (∃ t, exec (.mbegin f) s = .next t ∧ (queued s (fun e => { e with chain := some (f.p5.getLsbD 0) }) 0 0 0 []).issued t s.now) ∧
          s.traps (.mend f) 0x19 u) ∧
        (e.chain ≠ none → (∃ t, exec (.mend f) s = .next t ∧ (queued s (fun e => { e with chain := none }) 0 0 0 []).issued t s.now) ∧
          s.traps (.mbegin f) 0x19 u))) ∧
    ∀ f : LF, s.ctx.readable f.ra = true → s.ctx.readable f.rb = true → s.ctx.readable f.rc = true →
      let ra := s.ctx.sreg f.ra
      let rb := s.ctx.sreg f.rb
      let rc := s.ctx.sreg f.rc
      let fa := fmtOf ra
      let fb := fmtOf rb
      let ba := blogOf ra
      let a := addrOf ra
      (2 ≤ e.queue.length → ∀ i ∈ [Instr.mma, .mldb, .mrot, .mstore, .mload], s.waits (i f)) ∧
      (e.queue.length < 2 → decodeLone u = some (.mma f) →
        let m := mmaF u rc
        let n := s.issueCycle [f.ra, f.rb, f.rc]
        let base := (f.f0.toNat / 64 = 0 → m.sp = false) ∧ 0 < m.n ∧ m.n ≤ 65535 ∧ a % 128 = 0 ∧ (m.sp = true → feats.getLsbD 0 = true) ∧
          (fa = 11 → feats.getLsbD 1 = true) ∧ (m.loc = true → fb = 11 → feats.getLsbD 1 = true) ∧ scaleOk fa ba m.aPlane = true ∧
          (e.modeAhead m.bank = .empty ∨ e.modeAhead m.bank = kindOf fa)
        (spaceOf ra ≠ 1 → s.traps (.mma f) 0x13 ra) ∧
        (spaceOf ra = 1 → m.loc = true → spaceOf rb ≠ 1 → s.traps (.mma f) 0x13 rb) ∧
        (spaceOf ra = 1 → (m.loc = true → spaceOf rb = 1) → (m.sp = true → spaceOf rc = 1) →
          (¬ base → s.traps (.mma f) 0x19 u) ∧
          (base → m.loc = true → ∀ ks, kstepPair fa fb = some ks → m.layout < 2 → scaleOk fb (blogOf rb) m.bPlane = true →
            ks * m.n % 2 ^ ba = 0 → ks * m.n % 2 ^ blogOf rb = 0 →
            let kper := if m.sp then 2 * ks else ks
            x.holds a (m.n * aSlice ks fa) → x.holds (addrOf rb) (m.n * bSlice kper fb) → (m.sp = true → x.holds (addrOf rc) (m.n * mSlice ks)) →
            plane m.aPlane (32 * blocksOf (kper * m.n) ba) → plane m.bPlane (64 * blocksOf (kper * m.n) (blogOf rb)) →
            ∃ t, exec (.mma f) s = .next t ∧ (queued s id ra rb rc []).issued t n) ∧
          (base → m.loc = false → ∀ ks, kstepOf fa = some ks → e.ringBad (s.cur % 4096 % 8) = false → m.sp = false → m.layout = 0 → m.bPlane = 0 →
            (ba = 0 ∨ 2 ^ ba ≤ ks) → x.holds a (e.ringSize * aSlice ks fa) → plane m.aPlane (32 * blocksOf (ks * e.ringSize) ba) →
            ∃ t, exec (.mma f) s = .next t ∧ (queued s id ra rb rc []).issued t n))) ∧
      (e.queue.length < 2 →
        (e.ringBad (s.cur % 4096 % 8) = true → s.traps (.mrot f) 0x19 u) ∧
        (e.ringBad (s.cur % 4096 % 8) = false → ∃ t, exec (.mrot f) s = .next t ∧ (queued s id 0 0 0 []).issued t s.now) ∧
        (spaceOf ra ≠ 1 → s.traps (.mldb f) 0x13 ra) ∧ (2 ≤ spaceOf ra → s.traps (.mstore f) 0x13 ra ∧ s.traps (.mload f) 0x13 ra) ∧
        (let n := f.f0.toNat % 64
        let p := f.f1.toNat % 4096
        spaceOf ra = 1 → (kstepOf fa).isSome = true → (fa = 11 → feats.getLsbD 1 = true) → scaleOk fa ba p = true → (ba = 0 ∨ 2 ^ ba ≤ latchK fa) →
          (n < 1 ∨ 2 < n ∨ 2 < n + e.full + e.reserved → s.traps (.mldb f) 0x19 u) ∧
          (1 ≤ n → n + e.full + e.reserved ≤ 2 → x.holds a (4096 * n) → plane p (64 * n * blocksOf (latchK fa) ba) →
            ∃ t, exec (.mldb f) s = .next t ∧
              (queued s (fun e => { e with reserved := e.reserved + n }) ra 0 0 []).issued t (s.issueCycle [f.ra]))) ∧
        (let bs := f.f0.getLsbD 6
        let p := f.f1.toNat % 4096
        let bytes := 256 * fmtBits fa
        let stores := (1 ≤ fa ∧ fa ≤ 12 ∧ blogOk ba = true ∧ (fa = 11 → feats.getLsbD 1 = true)) ∧
          if bs then ba ≠ 0 ∧ ba ≤ 6 ∧ narrow fa = true ∧ p ≠ 0 else ba = 0
        let loads := ba = 0 ∧ (fa = 11 → feats.getLsbD 1 = true) ∧
          if f.f0.getLsbD 1 then (1 ≤ fa ∧ fa ≤ 4) ∨ (6 ≤ fa ∧ fa ≤ 11) else fa = 5 ∨ fa = 12
        a % 128 = 0 →
          (spaceOf ra ≤ 1 → ¬ stores → s.traps (.mstore f) 0x19 u) ∧ (spaceOf ra ≤ 1 → ¬ loads → s.traps (.mload f) 0x19 u) ∧
          (spaceOf ra = 1 → x.holds a bytes →
            (stores → (bs = true → plane p (32 * (64 / 2 ^ ba))) →
              ∃ t, exec (.mstore f) s = .next t ∧ (queued s id ra rb 0 []).issued t (s.issueCycle [f.ra, f.rb])) ∧
            (loads → ∃ t, exec (.mload f) s = .next t ∧ (queued s id ra 0 0 []).issued t (s.issueCycle [f.ra]))) ∧
          ∀ tl, spaceOf ra = 0 → a % 65536 + bytes ≤ 65536 →
            (((s.dev (pkgOf s.cur)).cluster (clusterOf s.cur)).tlb.find? fun e => e.hits s.ctx.asid a) = some tl →
            let at' := fun i => s.globalAddr (pkgOf s.cur) (leafPa tl.attr tl.large (a + 128 * i))
            let addrs := (List.range ((bytes + 127) / 128)).map at'
            let took := fun (t : State) (rb : Word) => t.fate = .done ∧ t.mem = s.mem ∧ t.ctx.sregs = s.ctx.sregs ∧ t.ctx.flags = s.ctx.flags ∧
              (t.tile s.cur).engine = { e with queue := e.queue ++ [⟨u, s.ctx.upc, ra, rb, 0, 0, s.ctx.useq, addrs⟩] }
            (permits tl.attr .store s.ctx.priv = true → stores → bs = false → (∀ i b, at' i = some b → (s.dir (b / 128)).st ≠ .held) →
              ∃ t, exec (.mstore f) s = .next t ∧ took t rb) ∧
            (permits tl.attr .load s.ctx.priv = true → loads → ∃ t, exec (.mload f) s = .next t ∧ took t 0)))

/-- R62 to R64, R150, R154, R158, R160, R277 to R283: what the engine does: a k-step of two int8 operands adds the exact products, saturating, B's
from local memory or from the consumed buffer that it hands on; such a buffer goes to the next ring member, when its receive buffer is neither full
nor reserved by an MLDB; each other command does its work and retires; a trap is taken. Where the rules leave it open it states the model's choice
(assumptions 22 to 25, 64 and 65). -/
def Obligations.MatrixEngine : Prop :=
  (∀ (s : State) (t : Nat) (c : MCmd) (rest : List MCmd),
    let x := s.tile t
    let e := x.engine
    let m := mmaF c.image c.rc
    let bank := e.bank m.bank
    e.queue = c :: rest → c.image.getLsbD 31 = true → c.image.toNat / 2 ^ 22 % 256 = 0x10 → m.sp = false → m.aPlane = 0 → blogOf c.ra = 0 →
    (fmtOf c.ra = 1 ∨ fmtOf c.ra = 2) → bank.mode ≠ .float → mhas x.ctxs 0 = true →
    let int := fun (f b : Nat) => if f = 1 then (b : Int).bmod 256 else b
    let val := fun (b : Bank) (i j : Nat) => ((b.vals.toNat / 2 ^ (56 * (64 * i + j)) % 2 ^ 56 : Nat) : Int).bmod (2 ^ 56)
    let adds := fun (u : State) (slice fb : Nat) (b : Nat → Nat → Nat) =>
      let sum := fun i j => ((List.range 64).map fun k => int (fmtOf c.ra) (x.byte (addrOf c.ra + slice * 2048 + 64 * i + k)) * int fb (b k j)).sum
      let exact := fun i j => val bank i j + if m.neg then - sum i j else sum i j
      u.mem = s.mem ∧ (u.tile t).engine.queue = { c with step := c.step + 1 } :: rest ∧ ((u.tile t).engine.bank m.bank).mode = .int ∧
      (∀ i < 32, ∀ j < 64, val ((u.tile t).engine.bank m.bank) i j = max (-(2 ^ 55)) (min (2 ^ 55 - 1) (exact i j))) ∧
      ((u.ctxAt t 0).flags = (s.ctxAt t 0).flags ∨ (u.ctxAt t 0).flags = (s.ctxAt t 0).flags ||| fSA) ∧
      ((∃ i < 32, ∃ j < 64, exact i j < -(2 ^ 55) ∨ 2 ^ 55 ≤ exact i j) → (u.ctxAt t 0).flags &&& fSA = fSA)
    (e.stopped = false → e.outgoing = none → e.refused = none → c.step < m.n → m.loc = true → m.layout = 0 → m.bPlane = 0 → blogOf c.rb = 0 →
      (fmtOf c.rb = 1 ∨ fmtOf c.rb = 2) →
      ∃ u, s.happens u (.matrixKstep t) ∧ adds u c.step (fmtOf c.rb) fun k j => x.byte (addrOf c.rb + c.step * 4096 + 64 * k + j)) ∧
    ∀ l : Latch, let p := e.pos (t % 4096 % 8)
      let d := t - t % 8 + e.member ((p + 1) % e.ringSize)
      let g := (s.tile d).engine
      e.outgoing = some l → (l.fmt = 1 ∨ l.fmt = 2) → d ≠ t → g.en = true → g.order = e.order → g.logp = e.logp → g.receive = none → g.reserved = 0 →
      ∃ u, s.happens u (.ringHandover t) ∧ (adds u ((p + 256 - e.rstep.toNat) % e.ringSize) l.fmt.toNat fun k j => l.data.toNat / 256 ^ (64 * k + j) % 256) ∧
        (u.tile t).engine.outgoing = none ∧ (u.tile t).engine.rstep = e.rstep + 1 ∧ (u.tile d).engine = { g with receive := some l }) ∧
  (∀ (s : State) (t : Nat) (l : Latch),
    let e := (s.tile t).engine
    let q := (e.pos (t % 4096 % 8) + 1) % e.ringSize
    let d := t - t % 8 + e.member q
    let g := (s.tile d).engine
    e.outgoing = some l → d ≠ t → (∀ c ∈ e.queue, c.image.toNat / 2 ^ 22 % 256 ≠ 0x10) →
    let sent := ({ e with outgoing := none, rstep := e.rstep + 1 } : Engine).modHead fun c => { c with step := c.step + 1 }
    let step := fun (mine theirs : Engine) => ∃ u, s.happens u (.ringHandover t) ∧ u.mem = s.mem ∧ (u.tile t).engine = mine ∧ (u.tile d).engine = theirs
    let reserves := if g.consume = none ∧ g.outgoing = none then 2 ≤ g.reserved else 1 ≤ g.reserved
    (g.en = false ∨ g.order ≠ e.order ∨ g.logp ≠ e.logp → step { sent with refused := some q } g) ∧
    (g.en = true → g.order = e.order → g.logp = e.logp →
      (g.receive = none → ¬ reserves → step sent { g with receive := some l }) ∧
      (g.receive ≠ none ∨ reserves → step e g))) ∧
  (∀ (s : State) (t : Nat) (c : MCmd) (rest : List MCmd),
    let x := s.tile t
    let e := x.engine
    let b := c.image.toNat % 2
    let sub := c.image.toNat / 32 % 16
    let lop := c.image.toNat / 2 ^ 22 % 256
    let fa := fmtOf c.ra
    let w := fmtBits fa
    let code := fun (b : Bank) i => b.vals.toNat / 2 ^ (56 * i) % 2 ^ 56
    e.queue = c :: rest → e.stopped = false → e.outgoing = none → mhas x.ctxs 0 = true →
    let becomes := fun (g : Engine) => ∃ u, s.happens u (.matrixCommandRetirement t) ∧ u.mem = s.mem ∧ (u.tile t).engine = { g with queue := rest }
    (c.image.getLsbD 31 = false →
      (sub = 0 → becomes { e with rstep := 0 }) ∧ (sub = 2 → becomes (if b = 0 then { e with bank0 := Bank.reset } else { e with bank1 := Bank.reset })) ∧
      (sub ≠ 0 → sub ≠ 2 → becomes e)) ∧
    (c.image.getLsbD 31 = true →
      (lop = 0x10 → (mmaF c.image c.rc).n ≤ c.step → becomes e) ∧
      (lop = 0x12 → c.image.toNat % 64 = 1 → c.image.toNat / 2 ^ 32 % 4096 = 0 → blogOf c.ra = 0 → e.consume = none →
        becomes { e with
          reserved := e.reserved - 1
          consume := some ⟨BitVec.ofNat 65536 (x.localRead (addrOf c.ra) 4096), BitVec.ofNat 5 fa, 0, 0x3F80, 0, e.pos (t % 4096 % 8)⟩ }) ∧
      (lop = 0x13 → c.step ≠ 0 → (c.image.getLsbD 0 = false ∨ e.consume ≠ none ∨ e.receive ≠ none) → becomes e) ∧
      (lop = 0x13 → c.step = 0 → ∃ u, s.happens u (.matrixCommandRetirement t) ∧ u.mem = s.mem ∧ (u.tile t).engine =
        match e.consume, e.receive with
        | some l, _ => { e with outgoing := some l, consume := none }
        | none, some l => { e with outgoing := some l, receive := none }
        | none, none => e) ∧
      (lop = 0x14 → spaceOf c.ra = 1 → c.image.getLsbD 6 = false → 1 ≤ fa → fa ≤ 12 → addrOf c.ra % 128 = 0 →
        ∃ u, s.happens u (.matrixCommandRetirement t) ∧ u.mem = s.mem ∧ (u.tile t).engine.queue = rest ∧
          (u.tile t).engine.bank b = (if c.image.getLsbD 5 then Bank.reset else e.bank b) ∧
          ∀ i < 2048, (u.tile t).localRead (addrOf c.ra) (256 * w) / 2 ^ (w * i) % 2 ^ w =
            (storeElem (e.bank b).mode (c.image.toNat / 8 % 4) (policyOf (c.image.toNat / 2 % 4)) fa (code (e.bank b) i)).1 % 2 ^ w) ∧
      (lop = 0x15 → spaceOf c.ra = 1 → c.step = 0 → 1 ≤ fa → fa ≤ 12 →
        ∃ u, s.happens u (.matrixCommandRetirement t) ∧ u.mem = s.mem ∧ (u.tile t).engine.queue = rest ∧
          ((u.tile t).engine.bank b).mode = (if fa ≤ 5 then .int else .float) ∧
          ∀ i < 2048, code ((u.tile t).engine.bank b) i = (loadElem fa (x.localRead (addrOf c.ra) (256 * w) / 2 ^ (w * i) % 2 ^ w)).1 % 2 ^ 56))) ∧
  ∀ (s : State) (t : Nat) (m : MTrap),
    let k := s.ctxAt t 0
    let h := BitVec.ofNat 64 (k.evBase.toNat * 8)
    (s.tile t).engine.trap = some m → k.tip = false → mhas (s.tile t).ctxs 0 = true → k.midLong = false → k.backlog = [] →
    ∃ u, s.happens u (.matrixTrap t) ∧ u.mem = s.mem ∧ (u.tile t).engine = { (s.tile t).engine with trap := none } ∧
      u.ctxAt t 0 = { k with
        trapPc := BitVec.ofNat 49 (k.pc.toNat / 8), mx := true, stream := true, cause := m.code, trapVal := m.val
        pixK := false, pixIndex := BitVec.ofNat 16 m.index, pixC := k.skipC, ppriv := k.priv, priv := true, tip := true, pc := h, npc := h, skipC := false
        waitFrom := none, timeFrom := none, late := 0 }

/-! ## The system family (R117, R314 to R320, R349, R350) -/

/-- R40, R47, R117, R200, R207, R314 to R318, R380: an empty word does nothing; YIELD, and a helper's WAITI, put the context off for 16 cycles; WAITI
ends with an event after its issue; HALT ends the tile's part in its launch; TLBINV drops a page and waits for requests that went through it; RESIZE
waits for the tile's engines and sets the pin limit; LINECLR makes a line of zeros. Where the rules leave it open it states the model's choice
(assumptions 23, 43, 47 and 71). -/
def Obligations.SystemInstructions : Prop :=
  (∀ (s : State) (w : BitVec 3), exec .cnop s = .next { s with fate := .done } ∧ exec (.anop w) s = .next { s with fate := .done }) ∧
  (∀ (f : CF) (s : State),
    let put : Ctx → Fate → Host.Outcome State Fault Refusal := fun k e => .next { s.setCtx k with fate := e }
    let off := put { s.ctx with yieldTo := s.now + 17 } .done
    exec (.yield f) s = off ∧ (s.cid ≠ 0 → exec (.waiti f) s = off) ∧
    (s.cid = 0 →
      (s.ctx.waitFrom = none → exec (.waiti f) s = put { s.ctx with waitFrom := some s.ctx.wakes } .waited) ∧
      (s.ctx.waitFrom = some s.ctx.wakes → s.waits (.waiti f)) ∧
      ∀ w, s.ctx.waitFrom = some w → s.ctx.wakes ≠ w → exec (.waiti f) s = put { s.ctx with waitFrom := none } .done)) ∧
  (∀ (f : CF) (s : State) (k : Ctx), s.cid = 0 →
    let x := s.tile s.cur
    (x.mode ≠ .free → s.traps (.halt f) 0x01 0x202) ∧
    (x.mode = .free → x.ctxs = [(0, k)] → k.pend = [] → x.directOf 0 = [] → x.engine.queue = [] → x.engine.outgoing = none → s.releasable = true →
      ∃ t, exec (.halt f) s = .next t ∧ t.fate = .done ∧ t.mem = s.mem ∧ t.now = s.now ∧
        (t.tile s.cur).mode = .idle ∧ (t.tile s.cur).ctxs = [] ∧ (t.tile s.cur).gate = [] ∧ (t.tile s.cur).gang = none ∧
        (t.tile s.cur).bars = x.bars ∧ (∀ n, (x.slot n).pid = x.pid → ((t.tile s.cur).slot n).alloc = false) ∧
        t.partitions = s.partitions.map fun p => if p.pid = x.pid then { p with halted := p.halted ++ [s.cur] } else p)) ∧
  (∀ (f : CF) (s : State), s.ctx.priv = true → s.ctx.readable f.a = true → s.ctx.readable f.b = true →
    let p := s.ctx.sreg f.a
    let asid := BitVec.ofNat 16 (s.ctx.sreg f.b).toNat
    let size := if f.p5 = 1 then 2 ^ 29 else 2 ^ 16
    let gone := fun (l : Line) => l.asid = asid ∧ l.va * 128 / size = addrOf p / size
    (spaceOf p ≠ 0 → s.traps (.tlbinv f) 0x13 p) ∧
    let old := s.oldRequests (pkgOf s.cur) (regionOf s.cur) (addrOf p) (f.p5 = 1)
    (spaceOf p = 0 → s.releasable = true → ∃ t, exec (.tlbinv f) s = .next t ∧ t.fate = (if old then .waited else .done) ∧ t.now = s.issueCycle [f.a, f.b] ∧
      t.ctx.sregs = s.ctx.sregs ∧ t.ctx.flags = s.ctx.flags ∧
      (∀ c, c / 42 = regionOf s.cur → ((t.dev (pkgOf s.cur)).cluster c).tlb = ((s.dev (pkgOf s.cur)).cluster c).tlb.filter fun e =>
        !(e.asid = asid && e.large = decide (f.p5 = 1) && e.page = addrOf p / size)) ∧
      (∀ q, pkgOf q = pkgOf s.cur → regionOf q = regionOf s.cur → ∀ l ∈ (t.tile q).lines, ¬ gone l) ∧
      ((∀ q, ∀ l ∈ (s.tile q).lines, gone l → l.dirty = 0) → t.mem = s.mem))) ∧
  (∀ (f : CF) (s : State), s.ctx.priv = true → s.ctx.pendingReg f.d = false →
    let x := s.tile s.cur
    let limit := f.p5.toNat
    let small := limit < x.maxPinned ∨ storeBytes limit < x.imageBytes ∨ ∃ im, x.save = some im ∧ storeBytes limit < im.bytes
    let decided := x.quiet = some s.cid
    (¬ decided → small → ∃ t, exec (.resize f) s = .next t ∧ s.wrote t s.now 1 f.d (BitVec.allOnes 64)) ∧
    let still := (∀ c ∈ x.chans.toList, c.st ≠ .running) ∧ x.direct = [] ∧ x.engine.busy = false ∧ x.engine.outgoing = none
    (decided ∨ ¬ small → s.releasable = true →
      (¬ still → ∃ t, exec (.resize f) s = .next t ∧ t.fate = .waited ∧ (t.tile s.cur).quiet = some s.cid ∧
        (t.tile s.cur).pinLimit = x.pinLimit ∧ t.mem = s.mem ∧ t.now = s.now ∧ t.ctx = s.ctx) ∧
      (still → x.lines = [] → ∃ t, exec (.resize f) s = .next t ∧
        ((s.modTile s.cur fun x => { x with pinLimit := limit, quiet := none }).flashed s.now).wrote t s.now 1 f.d (BitVec.ofNat 64 x.pinLimit)))) ∧
  ∀ (f : CF) (s : State) (a : Nat) (e : TlbEntry), s.ctx.priv = true → s.ctx.readable f.a = true →
    let p := s.ctx.sreg f.a
    let d := s.dir (a / 128)
    (spaceOf p ≠ 0 → s.traps (.lineclr f) 0x13 p) ∧
    (spaceOf p = 0 → (((s.dev (pkgOf s.cur)).cluster (clusterOf s.cur)).tlb.find? fun e => e.hits s.ctx.asid (addrOf p)) = some e →
      s.globalAddr (pkgOf s.cur) (leafPa e.attr e.large (addrOf p)) = some a → s.lineReached (pkgOf s.cur) (a / 128) = true →
      (pkgOfGl (a / 128) = pkgOf s.cur ∨ (s.tile s.cur).freeHw ≠ none ∧ (s.sendLine (pkgOf s.cur) (a / 128)).1 = .ok ()) → (∀ h ∈ s.held, h.gl ≠ a / 128) →
      (d.st = .normal ∨ d.st = .poison) → d.owners = [] → d.remote = .none → Memory.wf s.mem = true →
      ∃ t, exec (.lineclr f) s = .next t ∧ t.fate = .done ∧ t.ctx.sregs = s.ctx.sregs ∧ t.ctx.flags = s.ctx.flags ∧
        t.dir (a / 128) = { d with st := .normal, host := .none } ∧
        ∀ b, readByte t.mem b = if b / 128 = a / 128 then 0 else readByte s.mem b)

/-- R316, R379, R380: SNAP, the word 0x2E00_0100, traps as PRIV at user privilege; at supervisor privilege it fires the package's snapshot trigger and
completes: the time and the hub cycle of the first trigger are latched until they are read, with a SNAP record, later ones are counted, and triggers
of one hub cycle count as one. Where the rules leave it open it states the model's choice (assumptions 43 and 87). -/
def Obligations.SnapshotTrigger : Prop :=
  decodeC 0x2E000100 = some (.snap ⟨false, 0, 0, 0, 0⟩) ∧
  ∀ (f : CF) (s : State),
    let p := pkgOf s.cur
    let m := (s.dev p).mgmt
    let hub := s.now * 16 / 19
    let completes := fun (m' : Mgmt) => ∃ t, exec (.snap f) s = .next t ∧ t.fate = .done ∧ t.now = s.now ∧ t.mem = s.mem ∧ t.tiles = s.tiles ∧ (t.dev p).mgmt = m'
    (s.ctx.priv = false → s.traps (.snap f) 0x02 s.ctx.unit) ∧
    (s.ctx.priv = true →
      (m.snapAt = some hub → completes m) ∧
      (m.snapAt ≠ some hub → m.snap = none → completes { m with
        snap := some ⟨s.time p, hub⟩
        snapAt := some hub
        events := if m.events.length < 1024 then m.events ++ [⟨s.time p, 8, hubSource, 0⟩] else m.events
        lostEvents := if m.events.length < 1024 then m.lostEvents else m.lostEvents + 1 }) ∧
      (m.snapAt ≠ some hub → m.snap ≠ none → completes { m with snapLost := m.snapLost + 1, snapAt := some hub }))
/-- R131, R314, R319, R320, R336, R344, R346, R350, R352, R385: CTXSAVE writes the image of the save store and gives its size, 0 of an empty one;
CTXLOAD puts one back where none is; PREEMPT saves every tile of a partition, which resumes with its contexts; a save service starts as a control
context; the control context takes the oldest post of a helper; the events of the issue slots and banks. Where the rules leave it open it states the
model's choice (assumptions 26 to 28, 46, 67, 68 and 86). -/
def Obligations.Images : Prop :=
  (∀ (f : CF) (s : State), s.ctx.priv = true → s.canRun [f.a] f.d = true →
    let p := s.ctx.sreg f.a
    let n := s.issueCycle [f.a]
    let save := (s.tile s.cur).save
    (spaceOf p ≠ 0 → (spaceOf p ≠ 3 → s.traps (.ctxsave f) 0x13 p) ∧ s.traps (.ctxload f) 0x13 p) ∧
    (spaceOf p = 3 → 2688 ≤ ptrTile p → s.traps (.ctxsave f) 0x1A p) ∧
    (spaceOf p = 0 ∨ (spaceOf p = 3 ∧ ptrTile p < 2688) → save = none → ∃ t, exec (.ctxsave f) s = .next t ∧ s.wrote t n 1 f.d 0) ∧
    (spaceOf p = 0 → save.isSome = true → ∃ t, exec (.ctxload f) s = .next t ∧ s.wrote t n 1 f.d 1)) ∧
  (∀ (f : CF) (s u : State), s.cid = 0 → s.ctx.priv = true → s.canRun [f.a] f.d = true → s.ctx.sready.getD f.a.toNat 0 ≤ s.now →
    let p := s.ctx.sreg f.a
    let asker : Asker := ⟨s.cur, engineCid, s.ctx.asid, true⟩
    let kept := u.cur = s.cur ∧ u.cid = 0 ∧ u.ctx.sregs = s.ctx.sregs ∧ u.ctx.pendingReg f.d = false
    spaceOf p = 0 → (∀ h ∈ s.held, h.work ≠ .tentative) → kept →
    (∀ (im : Image) (c : Nat), (s.tile s.cur).save = some im → (s.tile s.cur).saved = 0 →
      (∀ h ∈ im.ctxs, h.2.effects = [] ∧ h.2.heldArrivals = []) → addrOf p + im.bytes ≤ 2 ^ 52 →
      let out : Image := { im with ctxs := im.ctxs.map fun h => (h.1, if h.1 = 0 then h.2 else { h.2 with nr := true }) }
      let e := s.modTile s.cur fun x => { x with save := some out }
      e.engineStore asker p (addrOf p) im.bytes (e.imageNat out) = (.ok (), c, u) →
      ∃ t, exec (.ctxsave f) s = .next t ∧ t.fate = .done ∧ t.mem = u.mem ∧ (t.tile s.cur).save = none ∧ out ∈ t.away ∧
        s.ctx.gives f.d (BitVec.ofNat 64 im.bytes) t.ctx) ∧
    ∀ b : List (Nat × Nat), (s.tile s.cur).save = none → s.readImage asker p = (.ok b, u) →
      ∃ t, exec (.ctxload f) s = .next t ∧ t.fate = .done ∧ t.mem = u.mem ∧ (t.tile s.cur).save = some (u.imageOf b) ∧
        s.ctx.gives f.d 0 t.ctx) ∧
  (∀ (f : CF) (s : State) (l : Line), s.ctx.priv = true → s.canRun [f.a] f.d = true →
    let p := s.ctx.sreg f.a
    let w := fun i => l.word p i
    let part := s.partitionOf (s.shapeTiles (pkgOf s.cur) (w 0) (w 1)) (BitVec.ofNat 16 (w 2).toNat)
    (spaceOf p ≠ 0 → s.traps (.preempt f) 0x13 p) ∧ (spaceOf p = 0 → addrOf p % 8 ≠ 0 → s.traps (.preempt f) 0x12 p) ∧
    (addrOf p % 8 = 0 → s.cached p 24 l → shapeForm (w 0) ≠ 3 →
      (part = none → s.compactOn (s.shapeTiles (pkgOf s.cur) (w 0) (w 1)) (BitVec.ofNat 16 (w 2).toNat) = none → ∃ t, exec (.preempt f) s = .next t ∧ (s.used l).wrote t (s.issueCycle [f.a]) 1 f.d 1) ∧
      ∀ q, part = some q → s.cur ∉ q.tiles → q.tiles.Nodup → (∀ h ∈ s.held, h.tile ∉ q.tiles) →
        (∀ u ∈ q.tiles, (s.tile u).pid = q.pid ∧ (s.tile u).member = none ∧ (s.tile u).engine.outgoing = none ∧ ∀ c, mhas (s.tile u).ctxs c = true →
          let k := s.ctxAt u c
          k.pend = [] ∧ k.backlog = [] ∧ k.vsta = [] ∧ (k.dqs.toList.all fun q => q.all fun e => e.filled && e.awaits.isEmpty) = true) →
        (∀ u ∈ q.tiles, Map.rises (s.tile u).ctxs = true) →
        ∃ t, exec (.preempt f) s = .next t ∧ t.fate = .done ∧ ((∀ u ∈ q.tiles, ∀ l ∈ (s.tile u).lines, l.dirty = 0) → t.mem = s.mem) ∧ s.ctx.gives f.d 0 t.ctx ∧
          t.partitions = (s.partitions.map fun r => if r.pid = q.pid then { r with st := .preempted, loaded := [] } else r) ∧
          ∀ u ∈ q.tiles, mhas (s.tile u).ctxs 0 = true → (t.tile u).ctxs = [] ∧ (t.tile u).mode = .idle ∧
            ∃ im, (t.tile u).save = some im ∧ im.pid = (s.tile u).pid ∧ im.origin = u ∧ im.engine = (s.tile u).engine ∧
              im.bars = (s.tile u).bars ∧ ∀ c, mhas (s.tile u).ctxs c = true →
                let k := s.ctxAt u c
                mhas im.ctxs c = true ∧ (mget Ctx.reset im.ctxs c).sregs = k.sregs ∧ (mget Ctx.reset im.ctxs c).vregs.map (·.val) = k.vregs.map (·.val) ∧
                  (mget Ctx.reset im.ctxs c).pc = k.pc ∧ (mget Ctx.reset im.ctxs c).flags = k.flags)) ∧
  (∀ (s : State) (p : Partition), s.partitions = [p] → p.st = .preempted → p.loaded = [] → p.halted = [] → p.tiles ≠ [] → p.tiles.Nodup →
    Map.rises s.tiles = true → (∀ q ∈ s.present, (s.dev q).yarrow.svEn = false) → (∀ h ∈ s.held, h.pid ≠ p.pid) →
    (∀ t ∉ p.tiles, ∀ im, (s.tile t).save = some im → im.pid ≠ p.pid) →
    (∀ t ∈ p.tiles, mhas (s.tile t).ctxs 0 = false ∧ (s.tile t).fenced = false ∧ ((s.tile t).pips.all fun e => e.2.st ≠ .landed) = true ∧
      (∃ im, (s.tile t).save = some im ∧ im.pid = p.pid ∧ im.origin = t) ∧
      ∃ q, (s.tile t).parked = [q] ∧ q.pid = p.pid ∧ q.member = none ∧ q.lines = []) →
    ∃ u, s.happens u (.partitionResume p.pid) ∧ u.partitions = [{ p with st := .live }] ∧
      ∀ t ∈ p.tiles, ∀ im q, (s.tile t).save = some im → (s.tile t).parked = [q] →
        (u.tile t).save = none ∧ (u.tile t).engine = im.engine ∧ (u.tile t).bars = im.bars ∧ (u.tile t).parked = [] ∧
          (u.tile t).chans = q.chans ∧ (u.tile t).direct = q.direct ∧ (u.tile t).joins = q.joins ∧
          (u.tile t).ctxs = im.ctxs.map fun e => (e.1, if e.2.pixC then { e.2 with skipC := true, pixC := false } else e.2)) ∧
  (∀ (s : State) (t : Nat) (p : Partition) (im : Image),
    let x := s.tile t
    let y := (s.dev (pkgOf t)).yarrow
    s.partitions = [p] → p.st = .preempted → p.loaded = [] → im ∈ s.away → im.pid = p.pid → im.origin = t →
    x.save = none → mhas x.ctxs 0 = false → x.fenced = false → y.svEn = true → (∀ q ∈ s.present, (s.dev q).yarrow.queues = []) →
    let pc := BitVec.ofNat 64 (y.svEntry.toNat * 8)
    let ev := if y.evEn then y.evEntry else 0
    ∃ u, s.happens u (.saveServiceStart t) ∧ u.mem = s.mem ∧ (u.tile t).mode = .free ∧ (u.tile t).pid = 0 ∧
      (u.tile t).lines = x.lines.map (fun l => { l with valid := l.own }) ∧
      (u.tile t).ctxs = [(0, { Ctx.reset with
        pc := pc, npc := pc, entry := pc, arg := BitVec.ofNat 64 p.pid, asid := y.svAsid, evBase := ev, priv := true
        sregs := ((Vector.replicate 32 0).setIfInBounds 1 (BitVec.ofNat 64 p.pid)).setIfInBounds 30 (BitVec.ofNat 64 (2 ^ 52)) })]) ∧
  (∀ (s : State) (t : Nat) (p : Post) (rest : List Post),
    let k := s.ctxAt t 0
    let h := BitVec.ofNat 64 (k.evBase.toNat * 8)
    (s.tile t).posts = p :: rest → k.tip = false → mhas (s.tile t).ctxs 0 = true → k.midLong = false → k.backlog = [] →
    ∃ u, s.happens u (.helpertrap t) ∧ u.mem = s.mem ∧ (u.tile t).posts = rest ∧
      u.ctxAt t 0 = { k with
        trapPc := BitVec.ofNat 49 (k.pc.toNat / 8), mx := false, stream := true, cause := 0x21
        trapVal := BitVec.ofNat 64 (p.cid % 16 + p.cause.toNat * 16 + p.pc.toNat * 2 ^ 12)
        pixC := k.skipC, ppriv := k.priv, priv := true, tip := true, pc := h, npc := h, skipC := false
        waitFrom := none, timeFrom := none, late := 0 }) ∧
  ∀ (s : State) (t c : Nat) (aSlot : Bool), mhas (s.tile t).ctxs c = true →
    let k := s.ctxAt t c
    let becomes := fun i k => exec i s = .next { s.setCtxAt t c k with fate := .done }
    becomes (.yieldExpiry t c) { k with yieldTo := 0 } ∧
    (k.descheduled = true → becomes (.bankRetention t c) { k with retained := true }) ∧
    (k.descheduled = false → exec (.bankRetention t c) s = .next { s with fate := .done }) ∧
    becomes (.issuePriorityRaise t c aSlot)
      (if aSlot then { k with levelA := min 3 (max k.prio k.levelA + 1) } else { k with levelC := min 3 (max k.prio k.levelC + 1) })

/-! ## Homes and the host (R27, R39, R42, R43, R72, R73, R76, R77, R79, R84 to R87, R298, R300, R367) -/

/-- R72, R73, R76, R77, R79, R84 to R86: a line with one owner, or with none, and nothing else: READ and REGISTER recall the owner's words, WRITEBACK,
RETURN and the recalls take the sender's words out of its record, a fill installs the line, an AMO, an operation packet and a granted store change the
bytes they name and no others; a store whose span fails its tag goes again, and after 8 failures is lost. Where the rules leave it open it states the
model's choice (assumptions 7, 40 and 77). -/
def Obligations.HomeEvents : Prop :=
  (∀ (s : State) (t o gl : Nat) (m mask : WordMask) (l : Line),
    let d := s.dir gl
    let k := m &&& mask
    let back := if l.dirty &&& k = 0 then s.mem else writeLine s.mem gl (wordBytes (l.dirty &&& k)) l.data
    let left := if m &&& ~~~mask = 0 then [] else [Owner.mk o (m &&& ~~~mask)]
    let kept := { l with own := l.own &&& ~~~k, dirty := l.dirty &&& ~~~k }
    pkgOf t = pkgOfGl gl → o ≠ t → k ≠ 0 → d = { Dir.reset with owners := [⟨o, m⟩] } → (s.tile o).lines = [l] → l.gl = gl →
    (∀ h ∈ s.held, h.gl ≠ gl ∧ h.tile ≠ o) → (∀ c ∈ (s.dev (pkgOf t)).clusters, c.2.trackers = [] ∧ c.2.slice.length < 16) →
    (∃ u, s.happens u (.homeRead t gl mask) ∧ u.mem = back ∧ (u.tile o).lines = [kept] ∧ (u.dir gl).owners = left) ∧
    ∃ u, s.happens u (.homeRegister t gl mask) ∧ u.mem = back ∧ (u.tile o).lines = [{ kept with valid := l.valid &&& ~~~k }] ∧
      (u.dir gl).owners = left ++ [⟨t, mask⟩]) ∧
  (∀ (s : State) (t gl : Nat) (mask : WordMask) (l : Line), pkgOf t = pkgOfGl gl → (s.tile t).lines = [l] → l.gl = gl → (∀ h ∈ s.held, h.tile ≠ t) →
    let back := fun (m : WordMask) => if l.dirty &&& m = 0 then s.mem else writeLine s.mem gl (wordBytes (l.dirty &&& m)) l.data
    let gives := fun (i : Instr) (m valid : WordMask) => ∃ u, s.happens u i ∧ u.mem = back m ∧
      (u.tile t).lines = [{ l with own := l.own &&& ~~~m, dirty := l.dirty &&& ~~~m, valid := valid }] ∧
      (u.dir gl).owners = ((s.dir gl).owners.map fun o => if o.tile = t then { o with mask := o.mask &&& ~~~m } else o).filter fun o => o.mask ≠ 0
    gives (.homeWriteback t gl mask) mask l.valid ∧ gives (.readRecall t gl mask) mask l.valid ∧
    gives (.writeRecall t gl mask) mask (l.valid &&& ~~~mask) ∧
    gives (.homeReturn t gl mask) (mask &&& (l.own &&& ~~~l.dirty)) l.valid) ∧
  (∀ (s : State) (t gl : Nat), s.dir gl = Dir.reset → s.dir (dirKey (pkgOf t) gl) = Dir.reset →
    (∀ p ∈ [pkgOf t, pkgOfGl gl], ∀ c ∈ (s.dev p).clusters, c.2.trackers = [] ∧ c.2.slice.length < 16) →
    ((∀ h ∈ s.held, h.gl ≠ gl) →
      (∀ (mask : ByteMask) (data : LineData), ∃ u, s.happens u (.operationPacket t gl mask data) ∧ u.mem = writeLine s.mem gl mask data) ∧
      (∀ (a : Nat) (x : Word), a / 128 = gl → a % 8 = 0 → Memory.wf s.mem = true →
        ∃ u, s.happens u (.homeAmo t a 0 true x 0) ∧ readNat u.mem a 8 = (readNat s.mem a 8 + x.toNat) % 2 ^ 64 ∧
          ∀ b, b < a ∨ a + 8 ≤ b → readByte u.mem b = readByte s.mem b) ∧
      ∀ (c va : Nat) (perm : BitVec 3), pkgOf t = pkgOfGl gl → (s.tile t).lines = [] → 0 < (s.tile t).ways (va % 256) →
        ∃ u, s.happens u (.fillReturn t c gl va perm) ∧ u.mem = s.mem ∧
          (u.tile t).lines = [⟨va, (s.ctxAt t c).asid, gl, BitVec.allOnes 32, 0, 0, perm, readLine s.mem gl⟩]) ∧
    ∀ (mask : ByteMask) (data : LineData) (h : Held), s.held = [h] → h.tile = t → h.gl = gl → h.work = .store mask data → h.fill = none →
      h.answer = none → h.lost = false →
      let stored := fun (i : Instr) => ∃ u, s.happens u i ∧ u.mem = writeLine s.mem gl mask data ∧ u.held = []
      let f := (s.dev (pkgOf t)).fabric
      let key := s.heldKey h
      let failed := fun (n : Nat) => if n = 0 then [] else [(key, Failing.mk (.request h.id) n)]
      (h.stage = .home → stored (.registerGrant h.id)) ∧
      let sender := match h.stage with | .relay i => i | _ => pkgOf t
      ∀ n, h.stage ≠ .home → (h.stage = .queue → h.via = none ∧ s.hopOpen (pkgOf t) (pkgOfGl gl) none 1 = true) →
        s.slotRoom sender (s.dev (pkgOfGl gl)).pos.toNat ≠ 0 → f.garbled = [] → f.failing = failed n →
        stored (.spanReceive h.id true) ∧
        (n < 7 → ∃ u, s.happens u (.spanReceive h.id false) ∧ u.mem = s.mem ∧ u.held = [h] ∧ (u.dev (pkgOf t)).fabric.failing = failed (n + 1)) ∧
        (n = 7 → (∀ e ∈ s.tiles, e.2.pid = h.pid ∧ e.2.self = h.self ∧ mhas e.2.ctxs h.cid = true → e.1 = t) →
          (s.tile t).pid = h.pid → (s.tile t).self = h.self → mhas (s.tile t).ctxs h.cid = true →
          ∃ u, s.happens u (.spanReceive h.id false) ∧ u.mem = s.mem ∧ u.held = [] ∧ (u.dev (pkgOf t)).fabric.failing = [] ∧
            (u.ctxAt t h.cid).losses = (s.ctxAt t h.cid).losses ++ [⟨0x15, h.ptr, h.seq⟩])) ∧
  ∀ (s : State) (p gl : Nat) (m : BitVec 64), p ≠ pkgOfGl gl → (s.dir (dirKey p gl)).owners = [] → (∀ h ∈ s.held, h.gl ≠ gl) →
    let pos := (s.dev p).pos.toNat
    ((s.dir gl).remote = .modified pos → ∃ u, s.happens u (.remoteInvalidate p gl) ∧ u.mem = s.mem ∧ (u.dir gl).remote = .none) ∧
    ((s.dir gl).remote = .shared m →
      let left := m &&& ~~~(1#64 <<< pos)
      ∃ u, s.happens u (.remoteInvalidate p gl) ∧ u.mem = s.mem ∧ (u.dir gl).remote = if left = 0 then .none else .shared left)

/-- R27, R39, R42, R43, R46, R87, R298, R300, R367: what the host does to a line, the loss and the return of its link, a helper's tentative words
committed or discarded, a walk that ends, and the patrol scrubber. Where the rules leave it open it states the model's choice (assumption 29). -/
def Obligations.HostEvents : Prop :=
  (∀ (s : State) (gl : Nat) (mask : ByteMask) (data : LineData),
    let p := pkgOfGl gl
    let host := fun (u : State) (c : HostCopy) => (u.dir gl).host = c ∧ (u.dir gl).st = .normal
    isHostGl gl = false → s.dir gl = Dir.reset → (s.dev p).cxlUp = true → (s.dev p).barOpen = true → (s.dev p).featAck.getLsbD 5 = true →
    (∀ c ∈ (s.dev p).clusters, c.2.trackers = [] ∧ c.2.slice.length < 16) →
    (∃ u, s.happens u (.hostRead gl) ∧ u.mem = s.mem ∧ host u .shared) ∧
    (∃ u, s.happens u (.hostWrite gl true mask data) ∧ u.mem = s.mem ∧ host u .modified) ∧
    ∃ u, s.happens u (.hostWrite gl false mask data) ∧ u.mem = writeLine s.mem gl mask data ∧ host u .shared) ∧
  (∀ (s : State) (o gl : Nat) (m : WordMask) (l : Line), isHostGl gl = true → s.dir gl = { Dir.reset with owners := [⟨o, m⟩] } → m ≠ 0 →
    (s.tile o).lines = [l] → l.gl = gl → (∀ h ∈ s.held, h.tile ≠ o) → (∀ c ∈ (s.dev (pkgOfGl gl)).clusters, c.2.slice.length < 16) →
    let k := l.dirty &&& m
    ∃ u, s.happens u (.hostSnoop gl) ∧ (u.mem = if k = 0 then s.mem else writeLine s.mem gl (wordBytes k) l.data) ∧ (u.dir gl).owners = [] ∧
      (u.tile o).lines = [{ l with valid := l.valid &&& ~~~m, own := l.own &&& ~~~m, dirty := l.dirty &&& ~~~m }]) ∧
  (∀ (s : State) (gl : Nat) (mask : ByteMask) (data : LineData), (s.dir gl).host = .modified →
    let mem := writeLine s.mem gl mask data
    let gives := fun (held : List Held) => ∃ u, s.happens u (.backInvalidateAnswer gl mask data) ∧ u.mem = mem ∧
      u.dir gl = { s.dir gl with host := .none } ∧ u.held = held
    ((∀ h ∈ s.held, h.gl ≠ gl) → gives s.held) ∧
    ∀ h, s.held = [h] → h.readsAt gl → s.dir gl = { Dir.reset with host := .modified } →
      (∀ c ∈ (s.dev (pkgOfGl gl)).clusters, c.2.slice.length < 16) → gives [h.answeredBy (readLine mem gl)]) ∧
  (∀ (s : State) (p gl : Nat) (d : Dir), s.dirs = [(gl, d)] → pkgOfGl gl = p → gl < 2 ^ 57 → d.owners = [] → d.remote = .none → (∀ h ∈ s.held, h.gl ≠ gl) →
    (∀ c ∈ (s.dev p).clusters, c.2.slice.length < 16) →
    let down := fun (st : LineState) => ∃ u, s.happens u (.cxlLinkDown p) ∧ u.mem = s.mem ∧ (u.dev p).cxlUp = false ∧
      u.dir gl = { d with st := st, host := .none }
    (d.host = .modified → down .poison) ∧ (d.host = .shared → down d.st)) ∧
  (∀ (s : State) (p : Nat), (s.dev p).cxlUp = false → (s.dev p).barOpen = true → (s.dev p).yarrow.queues = [] →
    ∃ u, s.happens u (.cxlLinkUp p) ∧ u.mem = s.mem ∧ (u.dev p).cxlUp = true) ∧
  (∀ (s : State) (t c : Nat) (e : EffLine), (s.ctxAt t c).effects = [e] → (s.ctxAt t c).heldArrivals = [] → (s.dir e.gl).st = .normal →
    (∀ c ∈ (s.dev (pkgOfGl e.gl)).clusters, c.2.trackers = [] ∧ c.2.slice.length < 16) →
    let ends := fun (i : Instr) (mem : List Host.Cell) (held : List Held) => ∃ u, s.happens u i ∧ u.mem = mem ∧ (u.ctxAt t c).effects = [] ∧
      (u.dir e.gl).tentative = ((s.dir e.gl).dropTent (s.commitName t c) (touched e.mask)).tentative ∧ u.held = held
    let mem := writeLine s.mem e.gl e.mask e.data
    ((∀ h ∈ s.held, h.gl ≠ e.gl ∧ h.work ≠ .tentative) →
      (s.commitReady t c = true → ends (.tentativeCommit t c) mem s.held) ∧ ends (.tentativeDiscard t c) s.mem s.held) ∧
    ∀ h, s.held = [h] → h.readsAt e.gl → s.dir e.gl = { Dir.reset with tentative := [⟨t, c + 16 * (s.tile t).pid, touched e.mask⟩] } →
      (s.commitReady t c = true → ends (.tentativeCommit t c) mem [h.answeredBy (readLine mem e.gl)]) ∧
      ends (.tentativeDiscard t c) s.mem [h.answeredBy (readLine s.mem e.gl)]) ∧
  (∀ (s u : State) (p r n : Nat) (w : Walk) (leaf : Word) (large : Bool), ((s.dev p).region r).walks[n]? = some w → w.discard = false →
    s.walkAll ⟨p * 4096 + 8 * w.slices.headD (42 * r), engineCid, w.asid, false⟩ w.va (BitVec.ofNat 64 w.va) = (.leaf leaf large, u) →
    ∃ v, exec (.walkComplete p r n) s = .next v ∧ v.fate = .done ∧ v.mem = u.mem ∧ ∀ c ∈ w.slices, ∃ rest,
      ((v.dev p).cluster c).tlb = ⟨w.asid, if large then w.va / 2 ^ 29 else w.va / 2 ^ 16, large, leaf⟩ :: rest) ∧
  ∀ (s : State) (gl : Nat), s.dir gl = Dir.reset → (∀ h ∈ s.held, h.gl ≠ gl) → (∀ c ∈ (s.dev (pkgOfGl gl)).clusters, c.2.slice.length < 16) →
    (∃ u, s.happens u (.patrolScrub gl true) ∧ u.mem = s.mem ∧ (u.dir gl).st = .poison) ∧
    ∃ u, s.happens u (.patrolScrub gl false) ∧ u.mem = s.mem ∧ u.dir gl = s.dir gl ∧
      let n := gl % 2 ^ 45 * 128 / 2 ^ 36 % 8
      mget 0 (u.dev (pkgOfGl gl)).mgmt.ecc n = mget 0 (s.dev (pkgOfGl gl)).mgmt.ecc n + 1

/-! ## Engines at work: transfers, trackers, pips, compacts, messages (R93 to R113, R122 to R127, R173 to R177, R306, R307) -/

/-- R93, R96, R97, R99 to R102, R104, R109, R113, R286: a piece of at most 512 bytes moves in local memory; a finished record is written back and the
walk goes on; a finished direct transfer reports; a chunk lands in its slot's generation; an arrival or credit reaches its barrier; a version word is
raised; a report counts and fires a tracker; a held start takes its channel. Where the rules leave it open it states the model's choice (assumptions
39 and 56 to 61). -/
def Obligations.CopyEvents : Prop :=
  (∀ (s : State) (t ch : Nat) (x : Xfer), ch < 4 →
    let c := (s.tile t).chan ch
    let n := min (512 - x.pos % 512) (x.len - x.pos)
    let from' := addrOf x.src + x.pos
    let into := addrOf x.dst + x.pos
    c.st = .running → c.cur = some x → x.finished = false → x.kind = 0 → x.aon = false → spaceOf x.src = 1 → spaceOf x.dst = 1 → 16 ≤ x.bx →
    x.bar = none → x.len ≠ 0 →
    (x.pos < x.len → (s.tile t).holds from' n → (s.tile t).holds into n →
      ∃ u, s.happens u (.copyPiece t ch) ∧ u.mem = s.mem ∧ ((u.tile t).chan ch) = { c with cur := some { x with pos := x.pos + n, wrote := max x.wrote (x.pos + n), moved := x.moved + n } } ∧
        ∀ o, (u.tile t).byte o = if into ≤ o ∧ o < into + n then (s.tile t).byte (from' + (o - into)) else (s.tile t).byte o) ∧
    (x.len ≤ x.pos → x.stale = false → ∃ u, s.happens u (.copyPiece t ch) ∧ u.mem = s.mem ∧
      ((u.tile t).chan ch) = { c with cur := some { x with code := 0, finished := true } })) ∧
  (∀ (s s1 s2 : State) (t ch i j : Nat) (x : Xfer), ch < 4 →
    let c := (s.tile t).chan ch
    let k := c.armer.asker
    let p := c.head
    c.cur = some x → x.finished = true → x.ver = none → x.code = 0 →
    ((s.dropHolds (x.key t ch)).modChan t ch fun c => { c with cur := some x }).engineStore k p (addrOf p + 0x30) 8 (x.retry * 2 ^ 8 + x.moved * 2 ^ 16) =
      (.ok (), i, s1) → s1.engineStore k p (addrOf p + 0x0C) 4 (x.flags.toNat % 2 ^ 31) = (.ok (), j, s2) →
    ∃ u, exec (.recordComplete t ch) s = .next u ∧ u.fate = .done ∧ u.mem = s2.mem ∧
      (u.tile t).chan ch = { (s2.tile t).chan ch with cur := none, head := x.next, moved := 0, st := if x.next = 0 then .idle else .running }) ∧
  (∀ (s : State) (t : Nat) (x : Xfer) (rest : List Xfer),
    let a := x.armer
    let mine := fun (y : Tile) => y.pid = a.pid ∧ y.self = a.self ∧ mhas y.ctxs a.cid = true
    (s.tile t).direct = x :: rest → x.finished = true → x.ver = none → mine (s.tile t) → (∀ e ∈ s.tiles, mine e.2 → e.1 = t) →
    let k := s.ctxAt t a.cid
    ∃ u, s.happens u (.directTransferDone t) ∧ u.mem = s.mem ∧ (u.tile t).direct = rest ∧ (u.ctxAt t a.cid).dirMoved.toNat = x.moved % 2 ^ 40 ∧
      (u.ctxAt t a.cid).dirCode = x.code ∧ (u.ctxAt t a.cid).dirErr = (k.dirErr || x.code != 0) ∧
      (u.ctxAt t a.cid).flags = if x.code = 0 then k.flags else k.flags ||| fEE) ∧
  (∀ (s : State) (t j g chunk : Nat) (mask : BitVec 512) (data : BitVec 4096),
    let k := (s.tile t).slot j
    let o := k.off + 512 * chunk
    let i := Instr.slotLanding t j g chunk mask data
    (k.alloc = true → k.gen.toNat = g → chunk < k.size → k.off % 512 = 0 →
      (∀ l, o / 128 ≤ l → l < o / 128 + 4 → mhas (s.tile t).pins l = true ∧ ((s.tile t).pin l).pid = k.pid) →
      ∃ u, s.happens u i ∧ u.mem = s.mem ∧ (u.tile t).slot j = { k with chunks := k.chunks ||| BitVec.ofNat 128 (2 ^ chunk) } ∧
        ∀ b, (u.tile t).byte b = if o ≤ b ∧ b < o + 512 ∧ mask.getLsbD (b - o) = true then data.toNat / 2 ^ (8 * (b - o)) % 256 else (s.tile t).byte b) ∧
    (k.alloc = false ∨ k.gen.toNat ≠ g ∨ k.size ≤ chunk → exec i s = .next { s with fate := .done })) ∧
  (∀ (s : State) (a bytes : Nat) (arr : Bool),
    let b := (s.tile (a / 16)).bars.getD (a % 16) Barrier.reset
    s.portsFree → ∃ u, s.happens u (.barrierUpdate false a arr bytes) ∧ u.mem = s.mem ∧
      (u.tile (a / 16)).bars = (s.tile (a / 16)).bars.setIfInBounds (a % 16) ((b.toV.apply (2 ^ 16) arr.toNat bytes).toLocal)) ∧
  (∀ (s : State) (a : Nat), s.dir (a / 128) = Dir.reset → (∀ c ∈ (s.dev (pkgOfGl (a / 128))).clusters, c.2.slice.length < 16) → Memory.wf s.mem = true →
    (∀ (bytes : Nat) (arr : Bool), a % 32 = 0 → s.portsFree → ∃ u, s.happens u (.barrierUpdate true a arr bytes) ∧
      (let b := (BarV.ofNat (readNat s.mem a 32)).apply (2 ^ 32) arr.toNat bytes
      readNat u.mem a 24 = b.toNat % 2 ^ 192) ∧ ∀ x, x < a ∨ a + 32 ≤ x → readByte u.mem x = readByte s.mem x) ∧
    (a % 8 = 0 →
      let v := readNat s.mem a 8
      (v % 2 = 0 → (∀ h ∈ s.aonHolds, h.1 ≠ a) → (∀ w ∈ s.aonWaits, w.1 ≠ a) → ∃ u, s.happens u (.aonVersionRaise a) ∧ readNat u.mem a 8 = v + 1 ∧
        ∀ x, x < a ∨ a + 8 ≤ x → readByte u.mem x = readByte s.mem x) ∧
      (v % 2 = 1 ∨ (∃ h ∈ s.aonHolds, h.1 = a) ∨ (∃ w, (s.aonWaits.find? fun w => w.1 = a) = some w ∧ keyTile w.2 ≠ 4095) → exec (.aonVersionRaise a) s = .next { s with fate := .done }))) ∧
  (∀ (s : State) (cl gl n : Nat) (mask : ByteMask) (k : Tracker),
    let p := pkgOfGl gl
    let d := k.desc.toNat
    let x := s.tile (p * 4096 + k.tile)
    let b := (List.range 128).countP fun i => mask.getLsbD i && decide (k.base ≤ gl * 128 + i) && decide (gl * 128 + i < k.base + k.len)
    let tracker := fun (u : State) => ((u.dev p).cluster cl).tracker n
    ((s.dev p).cluster cl).trackers = [(n, k)] → k.st ≠ .free →
    (k.st ≠ .armed ∨ k.count + b < k.thresh → ∃ u, s.happens u (.trackerReport cl gl mask) ∧ u.mem = s.mem ∧ tracker u = { k with count := k.count + b }) ∧
    (k.st = .armed → k.thresh ≤ k.count + b → k.act = 1 → (x.chan (k.aux % 4)).st ≠ .running → x.pid = k.armer.pid → s.dir (d / 128) = Dir.reset →
      (∀ c ∈ (s.dev (pkgOfGl (d / 128))).clusters, c.2.slice.length < 16) → Memory.wf s.mem = true →
      ∃ u, s.happens u (.trackerReport cl gl mask) ∧ tracker u = { k with count := k.count + b, st := .fired } ∧
        (u.tile (p * 4096 + k.tile)).chan (k.aux % 4) = ⟨.running, k.opd0, none, 0, k.armer⟩ ∧
        readNat u.mem (d + 0x30) 2 = 256 ∧ ∀ y, y < d + 0x30 ∨ d + 0x32 ≤ y → readByte u.mem y = readByte s.mem y)) ∧
  ∀ (s : State) (t ch : Nat) (h : HeldStart), ch < 4 →
    let x := s.tile t
    let d := (((s.dev (pkgOf t)).cluster h.cluster).tracker h.tracker).desc.toNat
    x.held = [h] → h.chan = ch → x.save = none → (x.chan ch).st ≠ .running → s.dir (d / 128) = Dir.reset →
    (∀ c ∈ (s.dev (pkgOfGl (d / 128))).clusters, c.2.slice.length < 16) → Memory.wf s.mem = true →
    ∃ u, s.happens u (.trackerHeldStart t ch) ∧ (u.tile t).held = [] ∧ (u.tile t).chan ch = ⟨.running, h.head, none, 0, h.armer⟩ ∧
      readNat u.mem (d + 0x30) 2 = 256 ∧ ∀ y, y < d + 0x30 ∨ d + 0x32 ≤ y → readByte u.mem y = readByte s.mem y

/-- R122, R125 to R127, R175 to R177, R306, R307, R324, R352: a signature is served and the last one forms the compact; a withdrawal; the last arrival
of a boundary completes it; a lost member; a delivering store, an expiry and END fill a pip's mailbox or wait for it; a message enters the ring or is
refused; a RECVT's time passes. Where the rules leave it open it states the model's choice (assumptions 42 and 43). -/
def Obligations.ArrivalEvents : Prop :=
  (∀ (s : State) (t : Nat) (m : Member) (c : Compact),
    let x := s.tile t
    let k := s.ctxAt t 0
    let i := Instr.compactSignature t
    x.mode = .signing → x.member = some m → s.compacts = [c] → c.dev = m.dev → c.cid = m.cid →
    (t ∈ c.signed → exec i s = .next { s with fate := .done }) ∧
    (t ∉ c.signed → k.backlog = [] → c.desc = k.sreg (k.unit.extractLsb' 14 5) → c.formed = false → s.tileReached (pkgOf t) (c.members.headD t) = true →
      (c.signed.length + 1 ≠ c.members.length → ∃ u, s.happens u i ∧ u.mem = s.mem ∧ u.compacts = [{ c with signed := c.signed ++ [t] }]) ∧
      (c.signed.length + 1 = c.members.length → ∃ u, s.happens u i ∧ u.mem = s.mem ∧
        u.compacts = [{ c with signed := c.signed ++ [t], formed := true }] ∧ ∀ v ∈ c.members, (u.tile v).mode = .member ∧
          ∀ n, (s.tile v).member = some n → (u.tile v).member = some { n with phase := .formed })) ∧
    (x.pins = [] → c.lost = [] → ∃ u, s.happens u (.compactWithdrawal t) ∧ u.mem = s.mem ∧ (u.tile t).mode = .free ∧ (u.tile t).member = none ∧
      let left := c.signed.filter fun v => v ≠ t
      u.compacts = if left = [] then [] else [{ c with signed := left }])) ∧
  (∀ (s : State) (t : Nat) (m : Member) (c : Compact) (own : Bool),
    let x := s.tile t
    x.mode = .member → x.member = some m → s.compacts = [c] → c.dev = m.dev → c.cid = m.cid →
    exec (.compactWithdrawal t) s = .next { s with fate := .done } ∧
    (let ch := x.chan m.chan
    let i := Instr.compactTreeArrival t own
    (m.phase ≠ .chained ∨ x.chanBusy m.chan = true ∨ own ≠ decide (ch.st ≠ .idle) → exec i s = .next { s with fate := .done }) ∧
    (m.phase = .chained → x.chanBusy m.chan = false → own = decide (ch.st ≠ .idle) → t ∈ c.members → c.leaving = [] → (∀ q ∈ c.arrived, q.1 ≠ t) →
      ((∃ v ∈ c.members, v ≠ t ∧ ∀ q ∈ c.arrived, q.1 ≠ v) → ∃ u, s.happens u i ∧ u.mem = s.mem ∧
        (u.tile t).member = some { m with phase := .arrived own } ∧ u.compacts = [{ c with arrived := c.arrived ++ [(t, own)] }]) ∧
      ((∀ v ∈ c.members, v ≠ t → ∃ q ∈ c.arrived, q.1 = v) → ∃ u, s.happens u i ∧ u.mem = s.mem ∧
        (u.tile t).member = some { m with phase := .complete (own || c.arrived.any fun q => q.2) own } ∧ u.compacts = [{ c with arrived := [] }]))) ∧
    (x.parked = [] → c.formed = true → ∀ l p g, x.pins = [(l, p)] → p.gl = some g → (s.dir g).owners = [] → (s.dir g).remote = .none → (∀ h ∈ s.held, h.gl ≠ g) →
      (∀ c ∈ (s.dev (pkgOfGl g)).clusters, c.2.slice.length < 16) →
      ∃ u, s.happens u (.memberLoss t) ∧ u.mem = s.mem ∧ (u.dir g).st = .poison ∧
        u.compacts = [{ c with lost := (c.lost.filter fun v => v ≠ t) ++ [t] }] ∧
        ∀ v ∈ c.members, v ≠ t → ∀ n, (s.tile v).member = some n → n.dev = m.dev → n.cid = m.cid → (u.tile v).member = some { n with lost := true })) ∧
  (∀ (s : State) (t j g : Nat) (v : Word) (poison : Bool),
    let x := s.tile t
    let p := x.pip j
    let box := (s.ctxAt t p.cid).mbs.getD p.mb Mailbox.reset
    let time := s.time (pkgOf t)
    let landed := fun (tag : BitVec 2) (val : Word) (d : Bool) =>
      ({ p with st := .landed, gen := p.gen + 1, tag := tag, val := val, delivered := d, order := x.landings } : Pip)
    let fills := fun (i : Instr) (tag : BitVec 2) (val : Word) (d : Bool) =>
      (box.full = true → x.save = none → ∃ u, s.happens u i ∧ u.mem = s.mem ∧ (u.tile t).pip j = landed tag val d) ∧
      (box.full = false → mhas x.ctxs p.cid = true → p.pid = x.pid → p.self = x.self → (x.pips.all fun e => e.2.st ≠ .landed) = true →
        ∃ u, s.happens u i ∧ u.mem = s.mem ∧
          (u.tile t).pip j = (if tag = 1 then { landed tag val d with st := .quar, quarEnd := time + 64000 } else { landed tag val d with st := .free }) ∧
          (u.ctxAt t p.cid).mbs = (s.ctxAt t p.cid).mbs.setIfInBounds p.mb ⟨val, true, tag, true, s.now + 2⟩)
    let nothing := fun i => exec i s = .next { s with fate := .done }
    (p.st = .live → p.gen.toNat = g → 64 ≤ j → fills (.pipDelivery t j g v poison) (if poison then 3 else 0) (if poison then 0 else v) true) ∧
    (p.st ≠ .live ∨ p.gen.toNat ≠ g ∨ j < 64 → nothing (.pipDelivery t j g v poison)) ∧
    (∀ n, p.st = .live → p.expiry = some n → (n ≤ time → fills (.pipExpiry t j) 1 (s.pipPtr t j) false) ∧ (time < n → nothing (.pipExpiry t j)) ∧
      ∀ im, n ≤ time → x.save = some im → x.pid ≠ p.pid → im.pid = p.pid → im.self = p.self → mhas im.ctxs p.cid = true →
        ((mget Ctx.reset im.ctxs p.cid).mbs.getD p.mb Mailbox.reset).full = false → (x.pips.all fun e => e.2.st ≠ .landed) = true →
        ∃ u im', s.happens u (.pipExpiry t j) ∧ u.mem = s.mem ∧ (u.tile t).save = some im' ∧
          (mget Ctx.reset im'.ctxs p.cid).mbs = (mget Ctx.reset im.ctxs p.cid).mbs.setIfInBounds p.mb ⟨s.pipPtr t j, true, 1, true, s.now⟩ ∧
          (u.tile t).pip j = { landed 1 (s.pipPtr t j) false with st := .quar, quarEnd := time + 64000 }) ∧
    (p.st ≠ .live ∨ p.expiry = none → nothing (.pipExpiry t j)) ∧
    (p.st = .quar → p.quarEnd ≤ time → ∃ u, s.happens u (.pipQuarEnd t j) ∧ u.mem = s.mem ∧ (u.tile t).pip j = { p with st := .free }) ∧
    (p.st ≠ .quar ∨ time < p.quarEnd → nothing (.pipQuarEnd t j))) ∧
  (∀ (s : State) (o t j : Nat) (p : Pip), (s.tile t).origin = o → o ≠ t → mhas (s.tile t).ctxs 0 = true → (s.tile o).pips = [(j, p)] →
    p.st = .live → p.pid = (s.tile t).pid → p.self = (s.tile t).self → (s.tile o).pid ≠ p.pid → mhas (s.tile t).ctxs p.cid = true →
    ((s.ctxAt t p.cid).mbs.getD p.mb Mailbox.reset).full = false →
    ∃ u, s.happens u (.pipEnd o t) ∧ u.mem = s.mem ∧ ((u.tile o).pip j).st = .free ∧ ((u.tile o).pip j).gen = p.gen + 1 ∧
      (u.ctxAt t p.cid).mbs = (s.ctxAt t p.cid).mbs.setIfInBounds p.mb ⟨s.pipPtr o j, true, 2, true, s.now + 2⟩) ∧
  (∀ (s : State) (t : Nat) (sender : Word) (body : BitVec 448),
    let x := s.tile t
    let k := s.ctxAt t 0
    let e := k.recvBase.toNat * 64 + 64 * k.recvTail.toNat
    let i := Instr.messageArrival t sender body
    (s.isEndpoint sender = false ∨ k.recvSize = 0 ∨ k.recvCount = k.recvSize → exec i s = .next { s with fate := .done }) ∧
    (s.isEndpoint sender = true → mhas x.ctxs 0 = true → k.recvSize ≠ 0 → k.recvCount ≠ k.recvSize → x.holds e 64 → ∃ u, s.happens u i ∧ u.mem = s.mem ∧
      (u.ctxAt t 0).recvCount = k.recvCount + 1 ∧ (u.ctxAt t 0).recvTail.toNat = (k.recvTail.toNat + 1) % k.recvSize.toNat % 2 ^ 11 ∧
      (∀ j < 56, (u.tile t).byte (e + j) = body.toNat / 256 ^ j % 256) ∧ ∀ j < 8, (u.tile t).byte (e + 56 + j) = sender.toNat / 256 ^ j % 256)) ∧
  ∀ (s : State) (t n : Nat),
    let k := s.ctxAt t 0
    k.timeFrom = some n → k.backlog = [] →
    exec (.recvtTimeout t) s = .next { s with now := max s.now (n + (k.sreg (k.unit.extractLsb' 9 5)).toNat), fate := .done }

/-! ## The collective engine (R178 to R183, R309 to R311) -/

/-- R178, R181, R183, R309 to R311: a live program ends with its status at END and at a step that is none, sets and counts its counters, waits for its
signals, sends what its buffer holds, and takes its source's contribution once, here with buffers in local memory; a store to the reduce aperture
under WRITE becomes the bytes of its buffer, is counted, and is forwarded to every other rank when the buffer's MC is set. A stopped program does
nothing. Where the rules leave it open it states the model's choice (assumptions 45 and 70). -/
def Obligations.VetchEvents : Prop :=
  (∀ (s u : State) (p r v : Nat) (g : Prog),
    let w : Word := BitVec.ofNat 64 v
    let op := w.toNat / 2 ^ 60
    let red := w.toNat / 2 ^ 56 % 16
    let c := w.toNat / 2 ^ 28 % 4
    let n := w.toNat % 2 ^ 24
    let i := Instr.vetchStep p r g.id
    let reg := (u.dev p).region r
    ((s.dev p).region r).progs = [g] → g.forwards = [] →
    (g.stopped = true → exec i s = .next { s with fate := .done }) ∧
    (g.stopped = false → g.checked = true → g.halfway = false → s.vetchRead g g.pc 0 8 = (.ok v, u) → reg.progs = [g] →
      let ends := fun (code : Nat) => ∃ t, exec i s = .next t ∧ t.fate = .done ∧ t.mem = u.mem ∧ ((t.dev p).region r).progs = [] ∧
        mget 0 ((t.dev p).region r).done g.id = BitVec.ofNat 64 ((g.steps + 1) % 2 ^ 32 * 2 ^ 32 + g.flags.toNat * 256 + code)
      let becomes := fun (h : Prog) => ∃ t, exec i s = .next t ∧ t.fate = .done ∧ t.mem = u.mem ∧ ((t.dev p).region r).progs = [h]
      let next : Prog := { g with pc := withAddr g.pc (addrOf g.pc + 8), steps := g.steps + 1, halfway := false, out := none }
      (4 < red → ends 1) ∧
      (red ≤ 4 →
        (op = 0 → ends 0) ∧ (9 < op → ends 1) ∧ (op = 6 → 1 < red → ends 1) ∧
        (op = 6 → red = 0 → if n ≤ g.signals then becomes { next with signals := g.signals - n } else becomes g) ∧
        (op = 8 → becomes { next with ctrs := g.ctrs.set c (BitVec.ofNat 24 n) }) ∧
        (op = 9 →
          let x := g.ctrs.getD c 0 - 1
          becomes { next with ctrs := g.ctrs.set c x, pc := if x = 0 then next.pc else withAddr g.pc (addrOf g.pc - 8 * n) })))) ∧
  (∀ (s u u1 u2 : State) (p r v q t : Nat) (g : Prog) (b bw : Word),
    let w : Word := BitVec.ofNat 64 v
    let n := w.toNat % 2 ^ 24 * 64
    let buf := w.toNat / 2 ^ 24 % 16
    let signed := fun (lo : Nat) => ((w.toNat / 2 ^ lo % 2 ^ 12 : Nat) : Int).bmod (2 ^ 12)
    let peer := (((g.rank : Int) + signed 44 + signed 32 * (g.ctrs.getD (w.toNat / 2 ^ 28 % 4) 0).toNat) % g.nranks).toNat
    let x := u2.tile g.tile
    let o := addrOf b
    ((s.dev p).region r).progs = [g] → g.forwards = [] → w.toNat / 2 ^ 56 % 16 ≤ 4 → g.stopped = false → g.checked = true → g.halfway = false → s.vetchRead g g.pc 0 8 = (.ok v, u) →
    w.toNat / 2 ^ 30 % 4 = 0 → u.bufEntry g buf = (.ok (b, bw), u1) → n ≤ bw.toNat % 2 ^ 24 * 64 → u1.rankPlace g peer = (.at' q t, u2) →
    spaceOf b = 1 → x.holds o n → (∀ e ∈ x.pins, e.2.pid = g.pid) →
    (w.toNat / 2 ^ 60 = 1 → ((u2.dev p).region r).progs = [g] →
      ∃ z, exec (.vetchStep p r g.id) s = .next z ∧ z.fate = .done ∧ z.mem = u2.mem ∧
        ((z.dev p).region r).progs = [{ g with halfway := true, out := some ⟨peer, q, t, g.steps, g.rank, b, 0, n, 0, none, none, [], [], [], false⟩ }]) ∧
    ∀ (h : Prog) (k : Contrib), w.toNat / 2 ^ 60 = 2 → (p, r) ≠ (q, t) → ((u2.dev p).region r).progs = [g] → ((u2.dev q).region t).progs = [h] →
      h.id = g.id → h.rank = peer → h.out = some k → k.dst = g.rank → k.acked = false →
      let keys := (List.range k.spans).map fun j => (k.step, k.src, j)
      let takes := fun (u : State) (g' : Prog) (k' : Contrib) (tile : Nat → Nat) => ∃ z, exec (.contributionArrival p r g.id) s = .next z ∧ z.fate = .done ∧
        z.mem = u.mem ∧ ((z.dev q).region t).progs = [{ h with out := some k' }] ∧ ((z.dev p).region r).progs = [g'] ∧ ∀ j, (z.tile g.tile).byte j = tile j
      (k.pulled = none → (∃ e ∈ keys, e ∉ g.applied) → spaceOf k.buf = 1 → (u2.tile h.tile).holds (addrOf k.buf + k.off) k.len →
        (∀ e ∈ (u2.tile h.tile).pins, e.2.pid = h.pid) → ∃ m, takes u2 g { k with data := m, pulled := some u2.heldIds } x.byte ∧
          ∀ j < k.len, m / 256 ^ j % 256 = (u2.tile h.tile).byte (addrOf k.buf + k.off + j)) ∧
      (k.pulled = none → (∀ e ∈ keys, e ∈ g.applied) → takes u2 g { k with acked := true } x.byte) ∧
      ∀ (b2 : Word) (u3 : State), k.pulled.isSome = true → u2.bufEntry g buf = (.ok (b, b2), u3) → u3.tile g.tile = x →
        (p = q ∨ u3.sameDomain p q = false) → ((u3.dev p).region r).progs = [g] → ((u3.dev q).region t).progs = [h] →
        takes u3 { g with
          applied := g.applied.filter (fun e => !keys.contains e) ++ keys, pc := withAddr g.pc (addrOf g.pc + 8), steps := g.steps + 1, out := none }
          { k with acked := true } fun j => if o ≤ j ∧ j < o + n then k.data / 256 ^ (j - o) % 256 else x.byte j) ∧
  ∀ (s u u2 : State) (p r buf off len : Nat) (g : Prog) (b bw b2 : Word) (data : BitVec 2048),
    let n := min len 256
    let x := u2.tile g.tile
    let o := addrOf b + off
    ((s.dev p).region r).progs = [g] →
    (∀ inst, inst ≠ g.inst → exec (.apertureApply p r g.id inst 5 buf off len data) s = .next { s with fate := .done }) ∧
    (s.bufEntry g buf = (.ok (b, bw), u) → u.bufEntry g buf = (.ok (b, b2), u2) → spaceOf b = 1 → x.holds o n → (∀ e ∈ x.pins, e.2.pid = g.pid) →
      ((u2.dev p).region r).progs = [g] →
      let ranks := (List.range g.nranks).filter (· ≠ g.rank)
      let copy : Forward := ⟨p * 4096 + 4095, Armer.reset.pid, Armer.reset.cid, 0, 0, 5, buf, off, n, 2 ^ (8 * n) - 1, data.toNat % 2 ^ (8 * n), ranks⟩
      ∃ z, exec (.apertureApply p r g.id g.inst 5 buf off len data) s = .next z ∧ z.fate = .done ∧ z.mem = u2.mem ∧
        ((z.dev p).region r).progs = [{ g with
          aperBytes := mset g.aperBytes buf (mget 0 g.aperBytes buf + n)
          forwards := if bw.getLsbD 30 = true ∧ ranks ≠ [] then g.forwards ++ [copy] else g.forwards }] ∧
        ∀ j, (z.tile g.tile).byte j = if o ≤ j ∧ j < o + n then data.toNat / 256 ^ (j - o) % 256 else x.byte j)

/-! ## The fabric (R168, R359 to R365, R369, R370) -/

/-- R168, R359, R360, R363 to R365, R369, R370: a slot sends what its matching carries, to the target or to the relay of its path, and in DRAIN the
markers; the last marker, or 1 ms, makes a package DARK; rotation AT activates the shadow tables; an entry that did not lock gives up its V and the
package is in RUN with its allowances; returned flits; a port withdraws lanes to retrain, and a lane is handed back or FAILED. Where the rules leave
it open it states the model's choice (assumptions 30 to 32, 53, 54, 74 and 88). -/
def Obligations.FabricEvents : Prop :=
  ∀ (s : State) (p : Nat),
    let d := s.dev p
    let f := d.fabric
    let pos := d.pos.toNat
    let time := s.time p
    let becomes := fun (i : Instr) (g : Fabric) => ∃ u, s.happens u i ∧ u.mem = s.mem ∧ u.tiles = s.tiles ∧ u.held = s.held ∧ (u.dev p).fabric = g
    let nothing := fun i => exec i s = .next { s with fate := .done }
    let k := f.slotOf time
    let turned := f.turnSlot k
    (∀ j, j ≠ k → nothing (.slotEdge p j)) ∧
    (f.st = .run → ∀ h mask data, s.held = [h] → h.stage = .queue → h.answer = none → h.lost = false → pkgOf h.tile = p →
      h.work = .store mask data → h.fill = none → s.dir h.gl = Dir.reset → s.dir (dirKey p h.gl) = Dir.reset →
      (∀ q ∈ [p, pkgOfGl h.gl], ∀ c ∈ (s.dev q).clusters, c.2.trackers = [] ∧ c.2.slice.length < 16) → f.garbled = [] → f.failing = [] →
      let q := pkgOfGl h.gl
      let hop := h.via.getD (s.dev q).pos.toNat
      let goes := s.hopOpen p q h.via 1 = true ∧ 0 < s.slotRoom p hop
      (goes → h.via = none → ∃ u, s.happens u (.slotEdge p k) ∧ u.mem = writeLine s.mem h.gl mask data ∧ u.held = []) ∧
      (goes → ∀ i, h.via = some i → s.pkgAtPos p i ≠ none → ∃ u, s.happens u (.slotEdge p k) ∧ u.mem = s.mem ∧ u.held = [{ h with stage := .relay i }]) ∧
      (¬ goes → becomes (.slotEdge p k) turned)) ∧
    (f.st = .run → s.held = [] → becomes (.slotEdge p k) turned) ∧
    (f.st = .drain → s.present = [p] → s.held = [] →
      becomes (.slotEdge p k) (if f.slotOf f.since = k then turned
        else { turned with markers := f.markers.filter (fun m => m ≠ pos) ++ [pos], st := .dark })) ∧
    (∀ src, f.st = .drain →
      let m := f.markers.filter (fun m => m ≠ src) ++ [src]
      let due := pos ∈ m ∧ ∀ q ∈ s.present, q ≠ p → (s.dev q).domain = d.domain → (s.dev q).dark = false → (s.dev q).fabric.pathTo pos = true →
        (s.dev q).pos.toNat ∈ m
      (due → becomes (.drainMarker p src) { f with markers := m, st := .dark }) ∧ (¬ due → becomes (.drainMarker p src) { f with markers := m })) ∧
    (f.st = .drain → f.since + 1000000 ≤ time → (∀ e ∈ s.devices, ∀ r ∈ e.2.regions, ∀ g ∈ r.2.progs, g.out = none) →
      ((∀ h ∈ s.held, h.stage = .queue ∨ h.stage = .home) → becomes (.drainTimeout p) { f with st := .dark, code := 2 }) ∧
      ∀ h mask data, s.held = [h] → h.stage = .relay p → h.answer = none → h.lost = false → h.work = .store mask data →
        ∃ u, s.happens u (.drainTimeout p) ∧ u.mem = s.mem ∧ u.held = [] ∧ (u.dev p).fabric = { f with st := .dark, code := 2 }) ∧
    (f.st ≠ .drain ∨ time < f.since + 1000000 → nothing (.drainTimeout p)) ∧
    (let rot := 4 * (2500 * 2 ^ f.len.toNat)
    let due := f.st = .dark ∧ f.relockGo = true ∧ f.at'.toNat ≤ time / rot ∧ f.since / rot < time / rot
    (due → becomes (.relockRotation p) { f with
      st := .relock, relockGo := false, slots := f.shadowSlots, paths := f.shadowPaths, len := f.lenNext, guard := f.guardNext
      since := time / rot * rot, used := [] }) ∧
    (¬ due → nothing (.relockRotation p))) ∧
    (∀ given : BitVec 64,
      let locked := given &&& s.symmetric p
      let bad := fun (e : Nat × Word) => e.2.getLsbD 15 && !locked.getLsbD e.1
      let rot := 4 * (2500 * 2 ^ f.len.toNat)
      let due := f.st = .relock ∧ (f.since + 2 * rot ≤ time ∨ f.since + rot ≤ time ∧ ∀ e ∈ f.slots, bad e = false)
      (¬ due → nothing (.relockDone p given)) ∧
      (due → s.held = [] → (∀ e ∈ s.dirs, e.2.remote = .none) → d.regions = [] → ∃ u, s.happens u (.relockDone p given) ∧ u.mem = s.mem ∧
        let g := (u.dev p).fabric
        g.st = .run ∧ g.markers = [] ∧ g.paths = f.paths ∧ g.code = (if f.slots.any bad then 3 else 0) ∧
        g.slots = (f.slots.map fun e => if bad e then (e.1, e.2 &&& ~~~0x8000#64) else e) ∧
        (∀ n < 64, n ≠ pos → f.pathTo n = true → (f.allow n).up = false → (∀ q, s.pkgAtPos p n = some q → q ≠ p ∧ ((s.dev q).fabric.allow pos).withhold = false) →
          g.allow n = { f.allow n with send := 4096, owed := 0, after := 0, up := true }) ∧
        ∀ n < 64, n ≠ pos → f.pathTo n = false → (g.allow n).send = 0)) ∧
    (∀ n m q, s.pkgAtPos p n = some q →
      let a := f.allow n
      (s.withheld p q = true ∨ s.returnsNow p n = false → nothing (.allowanceReturn p n m)) ∧
      (s.withheld p q = false → s.returnsNow p n = true → f.st = .run →
        becomes (.allowanceReturn p n m) { f with allows := mset f.allows n { a with send := a.send + min m a.owed, owed := a.owed - min m a.owed } })) ∧
    (∀ lane,
      let port := lane / 8 % 16
      let asks := fun n => (f.lane n).en = true ∧ ((f.lane n).pend = true ∨ (f.lane n).st = 0)
      let turn := fun port => ∃ n < 8, asks (8 * port + n)
      let due := f.st = .run ∧ 5 ≤ d.mgmt.stage ∧ f.calRot ≠ f.rotOf time + 1 ∧ (∃ j < 16, (mget 0 f.slots (4 * j + k % 4)).getLsbD 15 = false) ∧
        turn port ∧ ∀ i < (port + 16 - f.calPort % 16) % 16, ¬ turn ((f.calPort + i) % 16)
      (¬ due → nothing (.laneRetrain p lane)) ∧
      (due → ∃ u, s.happens u (.laneRetrain p lane) ∧ u.mem = s.mem ∧ (u.dev p).fabric.calPort = (port + 1) % 16 ∧
        (u.dev p).fabric.calRot = f.rotOf time + 1 ∧
        ∀ n, (u.dev p).fabric.lane n = if n / 8 = port ∧ asks n then { f.lane n with
          st := 2, pend := false, retrains := (f.lane n).retrains + 1
          failTimes := ((f.lane n).failTimes.filter fun t => time < t + 1000000000) ++ [time] } else f.lane n)) ∧
    ∀ (lane : Nat) (locked : Bool),
      let l := f.lane lane
      let many := f.failn.toNat ≤ (l.failTimes.filter fun t => time < t + 1000000000).length
      let due := l.st = 2 ∧ f.guardNs ≤ time % f.slotNs ∧ ∀ t, l.failTimes.getLast? = some t → f.slotOf t < k
      (¬ due → nothing (.laneHandback p lane locked)) ∧
      (due → becomes (.laneHandback p lane locked) { f with
        lanes := mset f.lanes lane { l with st := if l.en = false then 0 else if locked = true ∧ ¬ many then 1 else 3 }
        retraining := f.retraining.filter fun n => n ≠ lane })

/-! ## Launches and recovery (R23, R24, R325 to R333, R353 to R355, R368) -/

/-- R325 to R333, R368, R377: YQTBASE takes a base only while Yarrow is off, FEATACK only offered features; a tail's records are taken, a bad
descriptor sets ERR; the head of a queue starts its launch on free tiles, each with what R333 and R368 give it; a waiting head ages; a forwarded
record starts its tiles; a launch whose tiles have all ended writes its completion word and is gone. Where the rules leave it open it states the
model's choice (assumptions 33, 76 and 82 to 85). -/
def Obligations.LaunchEvents : Prop :=
  (∀ (s : State) (p : Nat) (v : Word),
    let d := s.dev p
    let y := d.yarrow
    (d.barOpen = true → ∃ u, s.happens u (.yqtbaseWrite p v) ∧ u.mem = s.mem ∧ u.dev p = { d with
      yarrow := { y with qtBase := if y.en = true then y.qtBase else v.extractLsb' 12 40, en := v.getLsbD 0 } }) ∧
    (y.en = true ∨ d.barOpen = false → ∃ u, s.happens u (.featackWrite p v) ∧ u.mem = s.mem ∧ u.dev p = d) ∧
    (y.en = false → d.barOpen = true → ∃ u, s.happens u (.featackWrite p v) ∧ u.mem = s.mem ∧
      u.dev p = { d with featAck := (v &&& feat0).extractLsb' 0 8, yarrow := { y with acked := true } })) ∧
  (∀ (s u : State) (p q x : Nat), s.serving p = true → q < 131072 → s.readDesc p q = (.ok x, u) →
    let w := fun i => x / 2 ^ (64 * i) % 2 ^ 64
    let i := Instr.tailWake p q
    let y := (u.dev p).yarrow.queue q
    let logn := w 1 % 2 ^ 5
    let head := w 3 % 2 ^ 32
    let stores := fun (u : State) (v : Nat) => u.physWrite p ((u.dev p).yarrow.descAt q + 0x18) 8 v
    let armed : YQueue := { y with watch := true, err := false }
    let faulty := ∃ t, exec i s = .next t ∧ t.fate = .done ∧ ((t.dev p).yarrow.queue q).err = true
    y.lost = false →
    (w 1 / 2 ^ 31 % 2 = 0 ∨ w 3 / 2 ^ 63 = 1 → exec i s = .next { u with fate := .done }) ∧
    (w 1 / 2 ^ 31 % 2 = 1 → w 3 / 2 ^ 63 = 0 → (hostQueue p x = true → (u.dev p).cxlUp = true) →
      (logn = 0 ∨ 16 < logn → (stores u (head + 2 ^ 63)).isSome = true → faulty) ∧
      (1 ≤ logn → logn ≤ 16 → u.hostAbsent p x = false → ∀ (tail : Nat) (u1 : State), u.physRead p (descTail x) 8 = (.ok tail, u1) →
        (u1.dev p).yarrow.queue q = y →
        (tail % 2 ^ 32 = head → ∃ t, exec i s = .next t ∧ t.fate = .done ∧ t.mem = u1.mem ∧ (t.dev p).yarrow.queue q = armed) ∧
        ∀ u2, u2 = u1.modQueue p q (fun y => { y with watch := true, err := false }) →
          (2 ^ logn < (tail % 2 ^ 32 + 2 ^ 32 - head) % 2 ^ 32 → (stores u2 (head + 2 ^ 63)).isSome = true → faulty) ∧
          ∀ (rec : Nat) (u3 u4 : State), (tail % 2 ^ 32 + 2 ^ 32 - head) % 2 ^ 32 = 1 →
            u2.physRead p (descRing x + 64 * (head % 2 ^ logn)) 64 = (.ok rec, u3) →
            stores u3 ((head + 1) % 2 ^ 32) = some u4 → (u4.dev p).yarrow.queue q = armed →
            ∃ t, exec i s = .next t ∧ t.fate = .done ∧ t.mem = u4.mem ∧ (t.dev p).yarrow.queue q = { armed with
              head := (head + 1) % 2 ^ 32
              records := y.records ++ [(List.range 8).map fun i => BitVec.ofNat 64 (rec / 2 ^ (64 * i))] }))) ∧
  (∀ (s u : State) (p : Nat) (h : Head) (ts : List Nat), s.serving p = true → s.heads p = [h] → s.checkLaunch p h.record = (.tiles ts, u) →
    (ts.any fun t => (u.tile t).reserveBad u.nextPid (recLres h.record)) = false → u.placeable ts h.rclass = true → u.reserved p h ts = false →
    (∀ r ∈ u.partitions, r.pid ≠ u.nextPid) →
    (∀ h ∈ u.held, h.pid ≠ u.nextPid) → (∀ t ∈ ts, (u.tile t).pid ≠ u.nextPid ∧ ∀ q ∈ (u.tile t).parked, q.pid ≠ u.nextPid) →
    ∀ i ∈ [Instr.launchSelect p, .launchStart p h.queue], ∃ z, exec i s = .next z ∧ z.fate = .done ∧
      ((z.dev p).yarrow.queue h.queue).records = ((u.dev p).yarrow.queue h.queue).records.drop 1 ∧
      z.partitions = u.partitions ++ [⟨u.nextPid, .live, recAsid h.record, h.record, h.rclass, p, ts, [], [], 0⟩] ∧
      ∀ t ∈ ts, pkgOf t = p →
        let r := h.record
        let y := (u.dev p).yarrow
        (z.tile t).mode = .free ∧ (z.tile t).pid = u.nextPid ∧
        (z.tile t).ctxs = [(0, { Ctx.reset with
          pc := dw r 3, npc := dw r 3, entry := dw r 3, arg := dw r 4, asid := recAsid r, evBase := if y.evEn then y.evEntry else 0
          sregs := ((Vector.replicate 32 0).setIfInBounds 1 (dw r 4)).setIfInBounds 30 (BitVec.ofNat 64 (2 ^ 52 + recLres r * 128))
          banks := recBanks r, vregs := List.replicate (8 * recBanks r) VReg.reset })]) ∧
  (∀ (s : State) (p q : Nat) (h : Head), s.headOf p q = some h →
    let y := (s.dev p).yarrow.queue q
    let time := s.time p + 1
    ∃ u, s.happens u (.launchAging p q) ∧ u.mem = s.mem ∧ (u.dev p).yarrow.queue q =
      if y.since = 0 then { y with since := time } else { y with raise := (time - y.since) / ((s.dev p).yarrow.age * 1000) }) ∧
  (∀ (s : State) (p : Nat) (q : Partition), s.partitions = [q] → q.st = .live → q.halted = [] →
    ∃ u, s.happens u (.launchForward p q.pid) ∧ u.partitions = [q] ∧ ∀ t ∈ q.tiles, pkgOf t = p → mhas (s.tile t).ctxs 0 = false →
      (s.tile t).pid ≠ q.pid → (∀ r ∈ (s.tile t).parked, r.pid ≠ q.pid) →
      (u.tile t).mode = .free ∧ (u.tile t).pid = q.pid ∧ (u.tile t).ctxs.map (fun e => (e.1, e.2.pc)) = [(0, dw q.record 3)]) ∧
  ∀ (s u : State) (q : Partition), s.partitions = [q] → q.st = .live → (∀ t ∈ q.tiles, t ∈ q.halted) →
    (dw q.record 7 = 0 → ∃ u, s.happens u (.launchComplete q.pid) ∧ u.mem = s.mem ∧ u.partitions = []) ∧
    (s.complete q.dev q.record q.cplCode = some u → u.partitions = [q] →
      ∃ z, exec (.launchComplete q.pid) s = .next z ∧ z.fate = .done ∧ z.mem = u.mem ∧ z.partitions = [])

/-- R23, R24, R162, R353, R355: a fenced rectangle's tiles leave their fence records and reset, and are ready again together; a first quarantine in a
row shifts its map, a second takes the cluster offline; the instruction that did not commit stands at TRAPPC; the image of a tile whose array failed
stays in its save store. Where the rules leave it open it states the model's choice (assumptions 34 and 69). -/
def Obligations.RecoveryEvents : Prop :=
  ∀ (s : State) (t cause : Nat),
    let c := (List.range 8).map fun i => t - t % 8 + i
    let row := mget 0 (s.dev (pkgOf t)).rows (rowKey (dieOf t) (rowOf t))
    let quiet := fun (x : Tile) => x.mode ≠ .signing ∧ x.member = none ∧ x.parked = [] ∧ x.pins = [] ∧ x.lines = [] ∧ x.slots = [] ∧
      (∀ im ∈ x.save, ∀ e ∈ im.ctxs, e.2.effects = []) ∧ ∀ e ∈ x.ctxs, (x.ctx e.1).effects = []
    let fenced := fun (u : State) (code : Nat) => ∀ v ∈ c, (u.tile v).fenced = true ∧ (u.tile v).mode = .idle ∧ (u.tile v).ctxs = [] ∧
      ∃ r, (u.tile v).fenceRec = some r ∧ r.cause = BitVec.ofNat 8 code ∧ r.tiles = c ∧ r.unit = BitVec.ofNat 49 ((s.ctxAt v 0).upc.toNat / 8)
    ((∀ v ∈ c, quiet (s.tile v)) → s.held = [] → (s.dev (pkgOf t)).yarrow.ftBase = 0 →
      (∃ u, s.happens u (.fenceRectangle t cause) ∧ u.mem = s.mem ∧ fenced u cause ∧ ∀ v ∈ c, (u.tile v).save = none) ∧
      (row ≠ 0 → s.partitions = [] → ∀ array, ∃ u, s.happens u (.quarantine t array) ∧ u.mem = s.mem ∧ fenced u 0x14 ∧
        ((u.dev (pkgOf t)).cluster (clusterOf t)).offline = true ∧ (u.tile t).save = if array then (s.tile t).save else none)) ∧
    (s.partitions = [] → row = 0 → (∀ v, (s.tile v).lines = []) → ∃ u, s.happens u (.quarantine t false) ∧ u.mem = s.mem ∧
      (u.tile t).mismatches = (s.tile t).mismatches + 2 ∧ mget 0 (u.dev (pkgOf t)).rows (rowKey (dieOf t) (rowOf t)) = s.pcol t + 1 ∧
      let k := s.ctxAt t 0
      ((s.cur ≠ t ∨ mhas (s.tile t).ctxs s.cid = false) → mhas (s.tile t).ctxs 0 = true → k.tip = false →
        (u.ctxAt t 0).trapPc = BitVec.ofNat 49 (((k.backlog.head?.map fun p => p.pc).getD k.pc).toNat / 8))) ∧
    ∀ r, (s.tile t).fenceRec = some r →
      ((∃ v ∈ r.tiles, ((s.dev (pkgOf v)).cluster (clusterOf v)).offline = true) → exec (.rectangleReady t) s = .next { s with fate := .done }) ∧
      ((∀ v ∈ r.tiles, ((s.dev (pkgOf v)).cluster (clusterOf v)).offline = false) → ∃ u, s.happens u (.rectangleReady t) ∧ u.mem = s.mem ∧
        ∀ v, u.tile v = { s.tile v with fenced := (s.tile v).fenced && !r.tiles.contains v })

/-! ## Management (R14, R373 to R381) -/

/-- R14, R374, R376, R379 to R381: each request of the attestation flows is answered in the state that it needs, with ERROR otherwise, and not at all
without power; an update that verifies is kept and can burn its SVN; PCAP, snapshots, event records, power windows, thermal trips, TIME and DEVID.
Where the rules leave it open it states the model's choice (assumptions 35 to 37, 43, 75 and 87). -/
def Obligations.ManagementEvents : Prop :=
  (∀ (s : State) (p offer nonce : Nat),
    let m := (s.dev p).mgmt
    let d := m.spdm
    let rows : List (Instr × Bool × Nat × Spdm) := [
      (.getVersion p, true, 0x04, { Spdm.reset with keys := d.keys, ide := d.ide, uec := d.uec, versioned := true }), (.getCapabilities p, d.versioned, 0x61, { d with capable := true }),
      (.negotiateAlgorithms p offer, d.capable && offer % 4 = 3, 0x63, { d with negotiated := true }), (.getDigests p, d.negotiated, 0x01, d),
      (.getCertificate p, d.negotiated, 0x02, d), (.challenge p nonce, d.negotiated, 0x03, d), (.getMeasurements p nonce, d.negotiated, 0x60, d),
      (.keyExchange p nonce, d.negotiated && !d.session, 0x64, { d with session := true, finished := false }),
      (.finish p, d.session && !d.finished, 0x65, { d with
        finished := true, ide := some (Config.sessionKey p d.transcript 0), uec := some (Config.sessionKey p d.transcript 1) }),
      (.keyUpdate p, d.session && d.finished, 0x69, { d with keys := d.keys + 1 }),
      (.heartbeat p, d.session && d.finished, 0x68, d), (.endSession p, d.session, 0x6C, { d with session := false, finished := false })]
    ∀ r ∈ rows,
      (m.powered = false → exec r.1 s = .next { s with fate := .done }) ∧
      (m.powered = true → ∃ u, s.happens u r.1 ∧ u.mem = s.mem ∧ u.tiles = s.tiles ∧
        let e := (u.dev p).mgmt.spdm
        if m.failed then e = { d with response := 0x7F, payload := [m.stage], transcript := d.transcript + 1 }
        else if r.2.1 then e = { r.2.2.2 with response := r.2.2.1, payload := e.payload, transcript := d.transcript + 1 }
        else e = { d with response := 0x7F, payload := [], transcript := d.transcript + 1 })) ∧
  (∀ (s : State) (p : Nat),
    let d := s.dev p
    let m := d.mgmt
    let f := d.fabric
    let becomes := fun (i : Instr) (e : Device) => ∃ u, s.happens u i ∧ u.mem = s.mem ∧ u.tiles = s.tiles ∧ u.dev p = e
    let nothing := fun i => exec i s = .next { s with fate := .done }
    let step := fun (n : Nat) => { d with cycBase := s.cycles p, cycFrom := s.now, mgmt := { m with clockStep := n } }
    (∀ (kind image : Nat) (burn : Bool),
      (s.verifies p kind image = false ∨ m.powered = false → nothing (.pldmFirmwareUpdate p kind image burn)) ∧
      (s.verifies p kind image = true → m.powered = true → m.events.length < 1024 → becomes (.pldmFirmwareUpdate p kind image burn) { d with mgmt := { m with
        images := mset m.images kind image
        svnMin := if burn then mset m.svnMin kind (max (mget 0 m.svnMin kind) (imgSvn image)) else m.svnMin
        events := m.events ++ [⟨s.time p, 7, hubSource, kind⟩] } })) ∧
    (m.powered = false → (∀ watts, nothing (.pldmSetPcap p watts)) ∧ nothing (.snapTrigger p) ∧ nothing (.snapRead p) ∧ nothing (.mgmtEventSend p)) ∧
    (∀ watts, m.powered = true → becomes (.pldmSetPcap p watts) { d with mgmt := { m with pcap := if 1000 ≤ watts ∧ watts ≤ 3000 then watts else m.pcap } }) ∧
    (m.powered = true →
      let hub := s.now * 16 / 19
      (m.snapAt = some hub → becomes (.snapTrigger p) d) ∧
      (m.snapAt ≠ some hub → m.snap = none → m.events.length < 1024 → becomes (.snapTrigger p) { d with mgmt := { m with
        snap := some ⟨s.time p, hub⟩, snapAt := some hub, events := m.events ++ [⟨s.time p, 8, hubSource, 0⟩] } }) ∧
      (m.snapAt ≠ some hub → m.snap ≠ none → becomes (.snapTrigger p) { d with mgmt := { m with snapLost := m.snapLost + 1, snapAt := some hub } }) ∧
      becomes (.snapRead p) { d with mgmt := { m with snap := none } }) ∧
    (∀ e rest, m.powered = true → m.events = e :: rest →
      (m.lostEvents = 0 → becomes (.mgmtEventSend p) { d with mgmt := { m with events := rest, sent := m.sent ++ [e.record] } }) ∧
      (0 < m.lostEvents → m.events.length < 1024 →
        becomes (.mgmtEventSend p) { d with mgmt := { m with
          sent := m.sent ++ [(⟨s.time p, 10, hubSource, m.lostEvents⟩ : MgmtEvent).record], lostEvents := 0 } })) ∧
    (∀ watts,
      (m.pcap < watts → becomes (.powerWindow p watts) (step (min 19 (m.clockStep + 1)))) ∧
      (watts ≤ m.pcap → m.hot = false → becomes (.powerWindow p watts) (step (m.clockStep - 1))) ∧
      (watts ≤ m.pcap → m.hot = true → nothing (.powerWindow p watts))) ∧
    (∀ celsius,
      (celsius < 105 → becomes (.thermalTrip p celsius) { d with mgmt := { m with hot := false } }) ∧
      (105 ≤ celsius → celsius < 115 → m.events.length < 1024 → ∃ u, s.happens u (.thermalTrip p celsius) ∧ u.mem = s.mem ∧ u.tiles = s.tiles ∧
        (u.dev p).mgmt.clockStep = 19 ∧ (u.dev p).mgmt.hot = true ∧ ∃ e, (u.dev p).mgmt.events = m.events ++ [e] ∧ e.cls = 9 ∧ e.data = celsius) ∧
      (115 ≤ celsius → (∀ e ∈ s.tiles, pkgOf e.1 ≠ p) → s.held = [] → s.dirs = [] → ∃ u, s.happens u (.thermalTrip p celsius) ∧ u.mem = s.mem ∧
        (u.dev p).dark = true ∧ (u.dev p).mgmt.powered = false ∧ (u.dev p).mgmt.trip = true ∧ (u.dev p).regions = [] ∧
        (u.dev p).yarrow = Yarrow.reset ∧
        u.partitions = s.partitions.filter fun q => q.dev ≠ p)) ∧
    (∀ ns, becomes (.ieee1588Synchronisation p ns) { d with timeBase := ns, timeFrom := s.now } ∧
      ∀ u, exec (.ieee1588Synchronisation p ns) s = .next u → u.time p = ns) ∧
    (∀ domain pos : Nat, domain < 64 → pos < 64 →
      let taken := ∃ q ∈ s.present, q ≠ p ∧ (s.dev q).dark = false ∧ (s.dev q).number = 64 * domain + pos
      (p ∈ s.present → (m.stage ≠ 5 ∨ m.failed = true ∨ m.powered = false) → nothing (.devidAssignment p domain pos)) ∧
      (p ∉ s.present ∨ (m.stage = 5 ∧ m.failed = false ∧ m.powered = true) →
        (taken → becomes (.devidAssignment p domain pos) { d with dark := true, mgmt := { m with stage := 5 } }) ∧
        (¬ taken → becomes (.devidAssignment p domain pos) { d with
          domain := BitVec.ofNat 6 domain, pos := BitVec.ofNat 6 pos, dark := false, fabric := f.train, mgmt := { m with stage := 6 } }))) ∧
    ((∀ e ∈ s.tiles, pkgOf e.1 ≠ p) → s.held = [] → s.dirs = [] →
      ∃ u, s.happens u (.powerOnReset p) ∧ u.mem = s.mem ∧
        let fw := fun n => mget (Config.firmware p n) m.images n
        let good := fun n => s.verifies p n (fw n)
        let e := (u.dev p).mgmt
        u.dev p = { Device.reset with dark := true, timeFrom := s.now, cycFrom := s.now, cxlUp := !e.failed, mgmt := { Mgmt.reset with
          svnMin := m.svnMin, images := m.images, sent := m.sent, trip := m.trip, measures := e.measures, failed := e.failed, stage := e.stage } } ∧
        ((∀ n < 4, good n = true) → e.failed = false ∧ e.stage = 5 ∧ ∀ n < 4, u.measure p n = extend (romMeasure p n) (imgHash (fw n))) ∧
        (good 0 = false → e.failed = true ∧ e.stage = 1) ∧
        (good 0 = true → (∃ n < 4, good n = false) → e.failed = true ∧ e.stage = 2)))

/-! ## The machine (R26, R134, R189 to R207) -/

/-- R189, R191, R134, R141, R336: a step with an event on the agenda runs it. A step that grants the slots of a tile issues in its address stream,
then in its compute stream. The one context of a tile issues in its address stream the unit at its pc, which is in the instruction cache: the lone
unit or the C-word that it decodes to runs, after which the pc moves on and the A-word waits in the compute stream; a unit with X = 1 waits there
whole. The unit that waits first in the compute stream runs its A-word or lone unit, after its C-word when X = 1. A word that no table defines runs as
RESERVED_ENCODING. Where the rules leave it open it states the model's choice (assumptions 4, 6, 8, 71 and 72). -/
def Obligations.StepRunsDecoded : Prop :=
  (∀ (s : State) (i : Instr) (rest : List Turn), s.agenda = .event i :: rest → i.form = .event → step s = exec i { s with agenda := rest }) ∧
  (∀ (s : State) (t : Nat) (rest : List Nat), s.agenda = [] → s.slots = t :: rest → (s.tile t).gang = none → s.outerTrap t = none →
    (∀ c ∈ s.liveCtxs t, (s.ctxAt t c).pairReady = false ∧ ∀ p ∈ (s.ctxAt t c).backlog.head?, p.held = false) →
    step s = andThen (slot false t (s.liveCtxs t) { s with slots := rest }) fun u => slot true t (u.liveCtxs t) u) ∧
  ∀ (s : State) (t c : Nat), mhas (s.tile t).ctxs c = true →
    let k := s.ctxAt t c
    let runs := fun (i : Option Instr) (compute : Bool) (e : State) => match i with
      | some i => exec i e
      | none => exec (.reservedEncoding e.ctx.unit compute) e
    let gone := fun (compute : Bool) (z : State) => z.ifCtx t c fun k => k.issued compute s.now
    let waits := fun (compute : Bool) (z : State) => (({ z with now := s.now } : State).ifCtx t c fun k => k.setSince compute none)
    (∀ (l : ILine), k.backlog = [] → k.skipC = false →
      ((s.tile t).icache.find? fun l => l.va = addrOf k.pc / 128 && l.asid = k.asid) = some l → (k.priv = true ∨ l.user = true) →
      let u : Word := BitVec.ofNat 64 (l.data.toNat / 2 ^ (8 * (addrOf k.pc % 128)))
      let at' : State := { (s.asCtx t c).setCtx { k with unit := u, upc := k.pc, npc := k.pc + 8, useq := k.seq } with compute := false, fate := .done }
      (∀ n, k.lastC = some n → n + max (u.toNat / 2 ^ 61) 1 ≤ s.now) →
      (u.getLsbD 30 = true → u.getLsbD 31 = false → slot false t [c] s = .next (gone false (at'.enqueue false false none).advance)) ∧
      (u.getLsbD 30 = true → u.getLsbD 31 = true → slot false t [c] s = match at'.reserve with
        | some z => .next (gone false (z.enqueue false false none).advance)
        | none => .next (waits false { at' with fate := .waited })) ∧
      (u.getLsbD 30 = false → s.flashing t u = false → ∀ z : State, z.now ≤ s.now →
        let lone := u.getLsbD 31
        runs (if lone then decodeLone u else decodeC (u.extractLsb' 0 32)) false at' = .next z →
        (z.fate = .done → slot false t [c] s =
          .next (gone false (if lone then z else z.enqueue false false (at'.ctx.oldRules z.ctx)).advance)) ∧
        (z.fate = .trapped → slot false t [c] s = .next (gone false z)) ∧
        (z.fate = .waited → slot false t [c] s = .next (waits false z)))) ∧
    ∀ (p : Part) (rest : List Part), k.backlog = p :: rest → p.held = false → k.retained = false → k.wakeAt ≤ s.now →
      (∀ n, k.lastA = some n → n + max (p.image.toNat / 2 ^ 61) 1 ≤ s.now) →
      let lone := p.image.getLsbD 31
      let both := !lone && p.image.getLsbD 30 && !p.onlyA
      (s.flashing t p.image = false ∨ (lone = false ∧ p.image.getLsbD 30 = false)) →
      let a := (s.asCtx t c).atPart p
      let A := decodeA (p.image.extractLsb' 32 32)
      let ends := fun (o : Host.Outcome State Fault Refusal) => ∀ z : State, o = .next z → z.now ≤ s.now →
        (z.fate = .done → slot true t [c] s = .next (gone true (z.commit p))) ∧
        (z.fate = .trapped → slot true t [c] s = .next (gone true z)) ∧
        (z.fate = .waited → k.popEmpty (sourceCodes p.image) = none → slot true t [c] s = .next (waits true z)) ∧
        ∀ d, z.fate = .waited → k.popEmpty (sourceCodes p.image) = some d → ahead p (s.asCtx t c) = .stuck →
          slot true t [c] s = .next (gone true (({ z with now := s.now } : State).takeTrap cILLEGAL (BitVec.ofNat 64 (0x100 + d)) none))
      (lone = true → ends (runs (decodeLone p.image) true a)) ∧
      (lone = false → both = false → ends (underRules p.rules (runs A true) a)) ∧
      (both = true → ∀ y, runs (decodeC (p.image.extractLsb' 0 32)) true a = .next y →
        (y.fate = .trapped → y.now ≤ s.now → slot true t [c] s = .next (gone true y)) ∧
        (y.fate = .done → mhas (y.tile y.cur).ctxs y.cid = true →
          ∀ z : State, underRules (a.ctx.oldRules y.ctx) (runs A true) y = .next z → z.now ≤ s.now →
            (z.fate = .done → slot true t [c] s = .next (gone true (z.commit p))) ∧
            (z.fate = .trapped → a.now ≤ s.now →
              slot true t [c] s = .next (gone true (a.takeTrap (z.ctxAt t c).cause (z.ctxAt t c).trapVal none)))))

/-- Words written out from the encodings of R193 to R206, most significant field first, decode to the instructions they stand for. -/
def Obligations.DecodeWords : Prop :=
  decodeC (0#1 ++ 0#1 ++ 0x01#6 ++ 3#5 ++ 4#5 ++ 5#5 ++ 1#9) = some (.sub ⟨false, 3, 4, 5⟩) ∧
  decodeC (0#1 ++ 1#1 ++ 0x02#6 ++ 7#5 ++ 8#5 ++ 0x3FFF#14) = some (.addi ⟨true, 7, 8, 0x3FFF⟩) ∧
  decodeC (0#1 ++ 0#1 ++ 0x0E#6 ++ 1#5 ++ 2#5 ++ 5#14) = some (.bne ⟨false, 1, 2, 5⟩) ∧
  decodeC (0#1 ++ 0#1 ++ 0x17#6 ++ 9#5 ++ 10#5 ++ 6#3 ++ 0x7FF#11) = some (.ldg ⟨false, 9, 10, 6, 0x7FF⟩) ∧
  decodeC (0#1 ++ 0#1 ++ 0x1B#6 ++ 1#5 ++ 2#5 ++ 3#5 ++ 9#5 ++ 3#2 ++ 1#2) = some (.amocas ⟨false, 1, 2, 3, 3, 1⟩) ∧
  decodeC (0#1 ++ 0#1 ++ 0x2E#6 ++ 0#5 ++ 6#5 ++ 0#5 ++ 3#4 ++ 9#5) = some (.syswRingcfg ⟨false, 0, 6, 0, 9⟩) ∧
  decodeC (0#1 ++ 1#1 ++ 0x21#6 ++ 0#13 ++ 0x400#11) = some (.tfence 0x400) ∧
  decodeA (2#3 ++ 0x13#6 ++ 1#2 ++ 2#3 ++ 20#6 ++ 16#6 ++ 17#6) = some (.vfadd ⟨2, 1, 2, 20, 16, 17⟩) ∧
  decodeA (0#3 ++ 0x35#6 ++ 0#2 ++ 4#3 ++ 57#6 ++ 58#6 ++ 56#6) = some (.knot ⟨0, 0, 4, 57, 58, 56⟩) ∧
  decodeLone ((1#3 ++ 0#5 ++ 0x123456#24 : BitVec 32) ++ (1#1 ++ 0#1 ++ 0x00#8 ++ 11#5 ++ 0#5 ++ 0x0AB#12 : BitVec 32)) =
    some (.li ⟨false, 11, 0, 0x0AB, 1, 0, 0x123456⟩) ∧
  decodeC (0#1 ++ 0#1 ++ 0x3F#6 ++ 0#24) = none ∧ decodeA (0#3 ++ 63#6 ++ 0#23) = none

/-- R189 to R206: the words of every well-formed instruction decode to it, with each of its fields as it was. -/
def Obligations.RoundTrip : Prop := ∀ i : Instr, i.wf = true → i.form ≠ .event → decodeAs i.form (encode i) = some i

/-- Memory keeps its canonical form: addresses rise, and no byte is listed that an unlisted one reads as. Where the rules leave it open it states the
model's choice (assumption 1). -/
def Obligations.MemoryFormKept : Prop := ∀ s t : State, Memory.wf s.mem = true → step s = .next t → Memory.wf t.mem = true

/-- R13, R116, R325, R361 to R365, R373, R377, R379: right after reset every tile is IDLE with its pin limit at 10, no feature is acknowledged, TIME
and DEVID are 0, the fabric's and Yarrow's registers stand at their reset values, and memory has its canonical form. That bring-up is done is the
model's choice (assumption 5). Where the rules leave it open it states the model's choice (assumptions 1, 2 and 3). -/
def Obligations.ResetState : Prop :=
  let s := State.reset
  Memory.wf s.mem = true ∧ (∀ t, (s.tile t).mode = .idle ∧ (s.tile t).pinLimit = 10 ∧ (s.tile t).ctxs = [] ∧ (s.tile t).lines = [] ∧ (s.tile t).pins = []) ∧
    (∀ a, readByte s.mem a = 0) ∧
    ∀ p, let d := s.dev p
      d.featAck = 0 ∧ d.number = 0 ∧ s.time p = 0 ∧ d.yarrow.qtBase = 0 ∧ d.yarrow.en = false ∧ d.yarrow.age = 1000 ∧ d.fabric.st = .run ∧
        d.fabric.len = 1 ∧ d.fabric.guard = 20 ∧ d.fabric.failn = 8 ∧ d.fabric.thresh = 4096 ∧
        (∀ l, (d.fabric.lane l).en = true ∧ (d.fabric.lane l).st = 0) ∧ d.mgmt.stage = 6
end

