-- ==== Sys2Proof/Laws/Maps.lean ====
section
/-! SUPPORT. What the sorted tables and main memory as sorted bytes do: reading after a write, and the canonical form. -/
namespace Sys2Proof.Machine

/-! ## Tables -/

@[simp] theorem mget_nil (d : α) (k : Nat) : mget d [] k = d := rfl
theorem mget_missing (d : α) (k : Nat) (m : Map α) (h : ∀ e ∈ m, e.1 ≠ k) : mget d m k = d := by
  induction m with
  | nil => rfl
  | cons e m ih =>
    simp only [mget]
    split
    · rfl
    · rw [if_neg fun g => h e (.head _) g.symm, ih fun g hg => h g (.tail _ hg)]

@[simp] theorem mget_mset_same (d : α) (m : Map α) (k : Nat) (v : α) : mget d (mset m k v) k = v := by
  induction m with
  | nil => simp [mset, mget]
  | cons e m ih =>
    obtain ⟨j, w⟩ := e
    by_cases h1 : k < j
    · simp [mset, mget, h1]
    · by_cases h2 : k = j
      · simp [mset, mget, h2]
      · simp [mset, mget, h1, h2, ih]

theorem mget_mset_ne (d : α) (m : Map α) {j k : Nat} (v : α) (h : j ≠ k) : mget d (mset m k v) j = mget d m j := by
  induction m with
  | nil => simp only [mset, mget]; split <;> simp_all
  | cons e m ih =>
    obtain ⟨i, w⟩ := e
    by_cases h1 : k < i
    · by_cases h2 : j < i
      · simp only [mset, h1, if_true, mget, h2, h, if_false]; split <;> rfl
      · have : ¬ j < k := by omega
        simp [mset, mget, h1, h2, h, this]
    · by_cases h2 : k = i
      · subst h2; simp [mset, mget, h]
      · by_cases h3 : j < i
        · simp [mset, mget, h1, h2, h3]
        · by_cases h4 : j = i
          · simp [mset, mget, h1, h2, h4]
          · simp [mset, mget, h1, h2, h3, h4, ih]

theorem mget_mset (d : α) (m : Map α) (j k : Nat) (v : α) :
    mget d (mset m k v) j = if j = k then v else mget d m j := by
  by_cases h : j = k
  · subst h; simp
  · simp [h, mget_mset_ne]

@[simp] theorem mset_mset (m : Map α) (k : Nat) (v w : α) : mset (mset m k v) k w = mset m k w := by
  induction m with
  | nil => simp [mset]
  | cons e m ih =>
    obtain ⟨j, u⟩ := e
    by_cases h1 : k < j
    · simp [mset, h1]
    · by_cases h2 : k = j
      · simp [mset, h2]
      · simp [mset, h1, h2, ih]

theorem mhas_mset (m : Map α) (k j : Nat) (v : α) : mhas (mset m k v) j = (mhas m j || decide (j = k)) := by
  induction m with
  | nil => simp [mset, mhas, eq_comm (a := j), Bool.beq_eq_decide_eq]
  | cons e m ih =>
    obtain ⟨i, w⟩ := e
    unfold mhas at ih
    by_cases h1 : k < i
    · simp [mset, mhas, h1, Bool.or_comm, eq_comm (a := j)]
      grind
    · by_cases h2 : k = i
      · subst h2; simp [mset, mhas]; grind
      · simp only [mset, mhas, h1, h2, if_false, List.any_cons, ih, Bool.or_assoc]

theorem risesFrom_le {lo lo' : Nat} {m : Map α} (h : lo' ≤ lo) (hm : Map.risesFrom lo m = true) :
    Map.risesFrom lo' m = true := by
  cases m with
  | nil => rfl
  | cons e m => obtain ⟨j, w⟩ := e; simp [Map.risesFrom] at *; exact ⟨by omega, hm.2⟩

theorem risesFrom_mset {lo : Nat} {m : Map α} {k : Nat} (v : α) (hk : lo ≤ k) (hm : Map.risesFrom lo m = true) :
    Map.risesFrom lo (mset m k v) = true := by
  induction m generalizing lo with
  | nil => simp [mset, Map.risesFrom, hk]
  | cons e m ih =>
    obtain ⟨j, w⟩ := e
    simp only [Map.risesFrom, Bool.and_eq_true, decide_eq_true_eq] at hm
    by_cases h1 : k < j
    · simp only [mset, h1, if_true, Map.risesFrom, Bool.and_eq_true, decide_eq_true_eq]
      exact ⟨hk, by omega, hm.2⟩
    · by_cases h2 : k = j
      · subst h2; simp [mset, Map.risesFrom, hm.2, hk]
      · simp only [mset, h1, h2, if_false, Map.risesFrom, Bool.and_eq_true, decide_eq_true_eq]
        exact ⟨hm.1, ih (by omega) hm.2⟩

/-- A table whose numbers rise still does after an entry is set. -/
theorem rises_mset {m : Map α} (k : Nat) (v : α) (hm : Map.rises m = true) : Map.rises (mset m k v) = true :=
  risesFrom_mset v (Nat.zero_le _) hm

theorem risesFrom_mdel {lo : Nat} {m : Map α} (k : Nat) (hm : Map.risesFrom lo m = true) :
    Map.risesFrom lo (mdel m k) = true := by
  induction m generalizing lo with
  | nil => rfl
  | cons e m ih =>
    obtain ⟨j, w⟩ := e
    simp only [Map.risesFrom, Bool.and_eq_true, decide_eq_true_eq] at hm
    by_cases h1 : k < j
    · simp [mdel, h1, Map.risesFrom, hm]
    · by_cases h2 : k = j
      · subst h2
        simp only [mdel, Nat.lt_irrefl, if_false, if_true]
        exact risesFrom_le (by omega) hm.2
      · simp only [mdel, h1, h2, if_false, Map.risesFrom, Bool.and_eq_true, decide_eq_true_eq]
        exact ⟨hm.1, ih hm.2⟩

theorem mget_of_risesFrom (d : α) {lo : Nat} {m : Map α} {k : Nat} (h : k < lo) (hm : Map.risesFrom lo m = true) :
    mget d m k = d := by
  cases m with
  | nil => rfl
  | cons e m =>
    obtain ⟨j, w⟩ := e
    simp [Map.risesFrom] at hm
    have : k < j := by omega
    simp [mget, this]

/-! ## Memory -/

theorem risesFrom_append {lo mid : Nat} {a b : Map α} (hlo : lo ≤ mid) (ha : Map.risesFrom lo a = true)
    (hlt : ∀ e ∈ a, e.1 < mid) (hb : Map.risesFrom mid b = true) : Map.risesFrom lo (a ++ b) = true := by
  induction a generalizing lo with
  | nil => exact risesFrom_le hlo hb
  | cons e a ih =>
    obtain ⟨j, w⟩ := e
    simp only [Map.risesFrom, Bool.and_eq_true, decide_eq_true_eq, List.cons_append] at *
    have hj := hlt (j, w) (by simp)
    exact ⟨ha.1, ih (by simp at hj; omega) ha.2 fun e he => hlt e (by simp [he])⟩

theorem risesFrom_takeWhile {lo : Nat} {m : Map α} (p : Nat × α → Bool) (hm : Map.risesFrom lo m = true) :
    Map.risesFrom lo (m.takeWhile p) = true := by
  induction m generalizing lo with
  | nil => rfl
  | cons e m ih =>
    obtain ⟨j, w⟩ := e
    simp only [Map.risesFrom, Bool.and_eq_true, decide_eq_true_eq] at hm
    by_cases h : p (j, w)
    · simp [List.takeWhile, h, Map.risesFrom, hm.1, ih hm.2]
    · simp [List.takeWhile, h, Map.risesFrom]

theorem risesFrom_dropWhile {lo b : Nat} {m : Map α} (hm : Map.risesFrom lo m = true) :
    Map.risesFrom b (m.dropWhile fun c => decide (c.1 < b)) = true := by
  induction m generalizing lo with
  | nil => rfl
  | cons e m ih =>
    obtain ⟨j, w⟩ := e
    simp only [Map.risesFrom, Bool.and_eq_true, decide_eq_true_eq] at hm
    by_cases h : j < b
    · simpa [List.dropWhile, h] using ih hm.2
    · simp [List.dropWhile, h, Map.risesFrom, hm.2]; omega

theorem cellsOf_rises (a n v : Nat) : Map.risesFrom a (cellsOf a n v) = true := by
  induction n generalizing a v with
  | zero => rfl
  | succ n ih =>
    simp only [cellsOf]
    split
    · exact risesFrom_le (by omega) (ih _ _)
    · simp [Map.risesFrom, ih]

theorem cellsOf_lt (a n v : Nat) : ∀ e ∈ cellsOf a n v, e.1 < a + n ∧ e.2 ≠ Config.unwrittenByte := by
  induction n generalizing a v with
  | zero => simp [cellsOf]
  | succ n ih =>
    intro e he
    simp only [cellsOf] at he
    split at he
    · have := ih _ _ e he; exact ⟨by omega, this.2⟩
    · rcases List.mem_cons.1 he with rfl | he
      · exact ⟨by simp, ‹_›⟩
      · have := ih _ _ e he; exact ⟨by omega, this.2⟩

/-- Writing bytes keeps memory in canonical form. -/
theorem writeNat_wf {m : List Host.Cell} (a n v : Nat) (hm : Memory.wf m = true) : Memory.wf (writeNat m a n v) = true := by
  simp only [Memory.wf, Bool.and_eq_true, Map.rises, List.all_eq_true, bne_iff_ne] at *
  obtain ⟨hr, hv⟩ := hm
  constructor
  · unfold writeNat
    refine risesFrom_append (mid := a + n) (by omega) (risesFrom_append (mid := a) (by omega) (risesFrom_takeWhile _ hr) ?_ (cellsOf_rises _ _ _)) ?_ (risesFrom_dropWhile hr)
    · intro e he
      have h : decide (e.1 < a) = true := List.mem_takeWhile_imp (p := fun c : Host.Cell => decide (c.1 < a)) he
      exact of_decide_eq_true h
    · intro e he
      rcases List.mem_append.1 he with he | he
      · have h : decide (e.1 < a) = true := List.mem_takeWhile_imp (p := fun c : Host.Cell => decide (c.1 < a)) he
        have := of_decide_eq_true h
        omega
      · exact (cellsOf_lt _ _ _ e he).1
  · intro e he
    unfold writeNat at he
    rcases List.mem_append.1 he with he | he
    · rcases List.mem_append.1 he with he | he
      · exact hv e ((List.takeWhile_sublist _).subset he)
      · exact (cellsOf_lt _ _ _ e he).2
    · exact hv e ((List.dropWhile_sublist _).subset he)

theorem writeLine_wf {m : List Host.Cell} (gl : Nat) (mask : ByteMask) (data : LineData) (hm : Memory.wf m = true) :
    Memory.wf (writeLine m gl mask data) = true := writeNat_wf _ _ _ hm

theorem nil_wf : Memory.wf [] = true := rfl

/-- Byte i of a number, the lowest first. -/
def byteAt (v i : Nat) : BitVec 8 := BitVec.ofNat 8 (v / 256 ^ i)

theorem mget_append {d : α} {a b : Map α} {k mid : Nat} (hlt : ∀ e ∈ a, e.1 < mid) (hb : Map.risesFrom mid b = true)
    (ha : Map.risesFrom lo a = true) : mget d (a ++ b) k = if k < mid then mget d a k else mget d b k := by
  induction a generalizing lo with
  | nil =>
    simp only [List.nil_append, mget_nil]
    split
    · exact mget_of_risesFrom d ‹_› hb
    · rfl
  | cons e a ih =>
    obtain ⟨j, w⟩ := e
    simp only [Map.risesFrom, Bool.and_eq_true, decide_eq_true_eq] at ha
    have hj : j < mid := hlt (j, w) (by simp)
    have := ih (lo := j + 1) (fun e he => hlt e (by simp [he])) ha.2
    simp only [List.cons_append, mget, this]
    split
    · simp [show k < mid by omega]
    · split
      · simp [show k < mid by omega]
      · rfl

theorem mget_cellsOf (a n v k : Nat) :
    mget Config.unwrittenByte (cellsOf a n v) k = if a ≤ k ∧ k < a + n then byteAt v (k - a) else Config.unwrittenByte := by
  induction n generalizing a v with
  | zero => simp only [cellsOf, mget_nil]; split <;> first | rfl | omega
  | succ n ih =>
    have key : mget Config.unwrittenByte (cellsOf (a + 1) n (v / 256)) k =
        if a + 1 ≤ k ∧ k < a + 1 + n then byteAt v (k - a) else Config.unwrittenByte := by
      rw [ih]
      by_cases h : a + 1 ≤ k ∧ k < a + 1 + n
      · simp only [h, and_self, if_true, byteAt]
        obtain ⟨i, rfl⟩ : ∃ i, k = a + 1 + i := ⟨k - (a + 1), by omega⟩
        have e1 : a + 1 + i - (a + 1) = i := by omega
        have e2 : a + 1 + i - a = i + 1 := by omega
        rw [e1, e2, Nat.pow_succ, Nat.div_div_eq_div_mul, Nat.mul_comm]
      · rw [if_neg h, if_neg h]
    simp only [cellsOf]
    by_cases hk : k = a
    · subst hk
      split
      · rename_i hb; rw [key]; simp [byteAt, hb]
      · simp [mget, byteAt]
    · split
      · rw [key]; congr 1; simp only [eq_iff_iff]; omega
      · simp only [mget]
        by_cases h : k < a
        · simp only [h, if_true]; split <;> first | rfl | omega
        · simp only [h, hk, if_false, key]; congr 1; simp only [eq_iff_iff]; omega

/-- Reading a byte after a write: the byte written inside the span, what was there before outside it. -/
theorem readByte_writeNat {m : List Host.Cell} (a n v k : Nat) (hm : Memory.wf m = true) :
    readByte (writeNat m a n v) k = if a ≤ k ∧ k < a + n then byteAt v (k - a) else readByte m k := by
  simp only [Memory.wf, Bool.and_eq_true, Map.rises] at hm
  have hr := hm.1
  have h1 : ∀ e ∈ m.takeWhile (fun c => decide (c.1 < a)), e.1 < a := fun e he =>
    of_decide_eq_true (List.mem_takeWhile_imp (p := fun c : Host.Cell => decide (c.1 < a)) he)
  have h2 : ∀ e ∈ m.takeWhile (fun c => decide (c.1 < a)) ++ cellsOf a n v, e.1 < a + n := by
    intro e he
    rcases List.mem_append.1 he with he | he
    · have := h1 e he; omega
    · exact (cellsOf_lt _ _ _ e he).1
  have hc := risesFrom_append (a := m.takeWhile fun c => decide (c.1 < a)) (Nat.zero_le a) (risesFrom_takeWhile _ hr) h1 (cellsOf_rises a n v)
  have take : ∀ (lo : Nat) (m : List Host.Cell), Map.risesFrom lo m = true → k < a →
      mget Config.unwrittenByte (m.takeWhile fun c => decide (c.1 < a)) k = mget Config.unwrittenByte m k := by
    intro lo m hm hk
    induction m generalizing lo with
    | nil => rfl
    | cons e m ih =>
      obtain ⟨j, w⟩ := e
      simp only [Map.risesFrom, Bool.and_eq_true] at hm
      by_cases h : j < a
      · simp [List.takeWhile, h, mget, ih _ hm.2]
      · simp [List.takeWhile, h, mget, show k < j by omega]
  have drop : ∀ (lo : Nat) (m : List Host.Cell), Map.risesFrom lo m = true → a + n ≤ k →
      mget Config.unwrittenByte (m.dropWhile fun c => decide (c.1 < a + n)) k = mget Config.unwrittenByte m k := by
    intro lo m hm hk
    induction m generalizing lo with
    | nil => rfl
    | cons e m ih =>
      obtain ⟨j, w⟩ := e
      simp only [Map.risesFrom, Bool.and_eq_true] at hm
      by_cases h : j < a + n
      · simp [List.dropWhile, h, mget, ih _ hm.2, show ¬ k < j by omega, show ¬ k = j by omega]
      · simp [List.dropWhile, h]
  unfold readByte writeNat
  rw [mget_append h2 (risesFrom_dropWhile hr) hc, mget_append h1 (cellsOf_rises a n v) (risesFrom_takeWhile _ hr), mget_cellsOf]
  by_cases ha : k < a
  · simp [ha, show k < a + n by omega, show ¬ a ≤ k by omega, take _ _ hr ha]
  · by_cases hb : k < a + n
    · simp [ha, hb, show a ≤ k by omega]
    · simp [hb, drop _ _ hr (by omega)]

end Sys2Proof.Machine
end

