-- ==== Sys2Proof/Laws/Paths.lean ====
section
/-! SUPPORT. A changed bit changes a span's tag (R172). -/
namespace Sys2Proof.Machine

theorem xor_cancel (a b p : BitVec 64) (h : a ^^^ p = b ^^^ p) : a = b := by
  have := congrArg (· ^^^ p) h
  simpa [BitVec.xor_assoc] using this

/-- One bit of a CRC is lost by no step: the polynomial is odd, so bit 0 tells which step it was. -/
theorem crcStep_inj (c d : BitVec 64)
    (h : (if c.getLsbD 63 then (c <<< 1) ^^^ 0x42F0E1EBA9EA3693#64 else c <<< 1) =
      if d.getLsbD 63 then (d <<< 1) ^^^ 0x42F0E1EBA9EA3693#64 else d <<< 1) : c = d := by
  have same : c.getLsbD 63 = d.getLsbD 63 := by
    cases hc : c.getLsbD 63 <;> cases hd : d.getLsbD 63 <;> rw [hc, hd] at h <;>
      have h0 := congrArg (fun x : BitVec 64 => x.getLsbD 0) h <;> first | rfl | simp at h0
  have shifted : c <<< 1 = d <<< 1 := by
    rw [← same] at h
    split at h
    · exact xor_cancel _ _ _ h
    · exact h
  refine BitVec.eq_of_getLsbD_eq fun i hi => ?_
  by_cases e : i = 63
  · rw [e]; exact same
  · have := congrArg (fun x : BitVec 64 => x.getLsbD (i + 1)) shifted
    simp only [BitVec.getLsbD_shiftLeft] at this
    simpa [show i + 1 < 64 by omega] using this

theorem foldl_inj {α β : Type} (f : α → β → α) (hf : ∀ b x y, f x b = f y b → x = y) (l : List β) (x y : α)
    (h : l.foldl f x = l.foldl f y) : x = y := by
  induction l generalizing x y with
  | nil => exact h
  | cons b l ih => exact hf b x y (ih _ _ h)

theorem crcByte_inj (b : Nat) (c d : BitVec 64) (h : crcByte c b = crcByte d b) : c = d :=
  xor_cancel _ _ _ (foldl_inj _ (fun _ => crcStep_inj) _ _ _ h)

theorem crcByte_byte (c : BitVec 64) (a b : Nat) (h : crcByte c a = crcByte c b) : a % 256 = b % 256 := by
  have e := foldl_inj _ (fun _ => crcStep_inj) _ _ _ h
  rw [BitVec.xor_comm c, BitVec.xor_comm c] at e
  have := congrArg BitVec.toNat (xor_cancel _ _ _ e)
  simp only [BitVec.toNat_ofNat] at this
  omega

/-- A span whose lowest bit changes on the way fails its tag. -/
theorem spanTag_flip (n v : Nat) (hn : 1 ≤ n) : spanTag n (v ^^^ 1) ≠ spanTag n v := by
  have low : (v ^^^ 1) % 256 ^ n = v % 256 ^ n ^^^ 1 := by
    rw [show 256 ^ n = 2 ^ (8 * n) by rw [pow_mul]; norm_num, Nat.xor_mod_two_pow,
      Nat.mod_eq_of_lt (show 1 < 2 ^ (8 * n) from Nat.one_lt_two_pow (by omega))]
  have rest (w i : Nat) : (w ^^^ 1) / 256 ^ (i + 1) = w / 256 ^ (i + 1) := by
    rw [show 256 ^ (i + 1) = 2 ^ (8 * (i + 1)) by rw [pow_mul]; norm_num, Nat.xor_div_two_pow,
      Nat.div_eq_of_lt (show 1 < 2 ^ (8 * (i + 1)) from Nat.one_lt_two_pow (by omega)), Nat.xor_zero]
  have count : 240 * spanFlits n - 8 = (240 * spanFlits n - 9) + 1 := by
    have : 1 ≤ spanFlits n := by unfold spanFlits; omega
    omega
  unfold spanTag crc64
  rw [low, count, List.range_succ_eq_map, List.foldl_cons, List.foldl_cons, List.foldl_map, List.foldl_map]
  simp only [Nat.succ_eq_add_one, rest]
  intro h
  have := crcByte_byte _ _ _ (foldl_inj _ (fun i => crcByte_inj _) _ _ _ h)
  simp only [pow_zero, Nat.div_one] at this
  rw [show (256 : Nat) = 2 ^ 8 by norm_num, Nat.xor_mod_two_pow, show 1 % 2 ^ 8 = 1 by norm_num] at this
  generalize v % (2 ^ 8) ^ n % 2 ^ 8 = x at this
  have back := Nat.xor_xor_cancel_left x 1
  rw [this, Nat.xor_self] at back
  exact absurd back (by norm_num)

end Sys2Proof.Machine
end

