-- ==== Sys2Proof/Laws/State.lean ====
section
/-! SUPPORT. Reading any part of the state after an update of another, and after an update of the same one. -/
namespace Sys2Proof.Machine

/-! ## State.setTile -/

@[simp] theorem setTile_mem (s : State) (t : Nat) (x : Tile) : (s.setTile t x).mem = s.mem := rfl
@[simp] theorem setTile_dirs (s : State) (t : Nat) (x : Tile) : (s.setTile t x).dirs = s.dirs := rfl
@[simp] theorem setTile_held (s : State) (t : Nat) (x : Tile) : (s.setTile t x).held = s.held := rfl
@[simp] theorem setTile_heldIds (s : State) (t : Nat) (x : Tile) : (s.setTile t x).heldIds = s.heldIds := rfl
@[simp] theorem setTile_present (s : State) (t : Nat) (x : Tile) : (s.setTile t x).present = s.present := rfl
@[simp] theorem setTile_devices (s : State) (t : Nat) (x : Tile) : (s.setTile t x).devices = s.devices := rfl
@[simp] theorem setTile_partitions (s : State) (t : Nat) (x : Tile) : (s.setTile t x).partitions = s.partitions := rfl
@[simp] theorem setTile_compacts (s : State) (t : Nat) (x : Tile) : (s.setTile t x).compacts = s.compacts := rfl
@[simp] theorem setTile_away (s : State) (t : Nat) (x : Tile) : (s.setTile t x).away = s.away := rfl
@[simp] theorem setTile_aonHolds (s : State) (t : Nat) (x : Tile) : (s.setTile t x).aonHolds = s.aonHolds := rfl
@[simp] theorem setTile_aonWaits (s : State) (t : Nat) (x : Tile) : (s.setTile t x).aonWaits = s.aonWaits := rfl
@[simp] theorem setTile_agenda (s : State) (t : Nat) (x : Tile) : (s.setTile t x).agenda = s.agenda := rfl
@[simp] theorem setTile_cur (s : State) (t : Nat) (x : Tile) : (s.setTile t x).cur = s.cur := rfl
@[simp] theorem setTile_cid (s : State) (t : Nat) (x : Tile) : (s.setTile t x).cid = s.cid := rfl
@[simp] theorem setTile_compute (s : State) (t : Nat) (x : Tile) : (s.setTile t x).compute = s.compute := rfl
@[simp] theorem setTile_fate (s : State) (t : Nat) (x : Tile) : (s.setTile t x).fate = s.fate := rfl
@[simp] theorem setTile_now (s : State) (t : Nat) (x : Tile) : (s.setTile t x).now = s.now := rfl
@[simp] theorem setTile_turns (s : State) (t : Nat) (x : Tile) : (s.setTile t x).turns = s.turns := rfl
@[simp] theorem setTile_slots (s : State) (t : Nat) (x : Tile) : (s.setTile t x).slots = s.slots := rfl
@[simp] theorem setTile_ports (s : State) (t : Nat) (x : Tile) : (s.setTile t x).ports = s.ports := rfl

@[simp] theorem setTile_dev (s : State) (t : Nat) (x : Tile) (u : Nat) : (s.setTile t x).dev u = s.dev u := rfl
@[simp] theorem setTile_dir (s : State) (t : Nat) (x : Tile) (u : Nat) : (s.setTile t x).dir u = s.dir u := rfl

/-! ## State.modTile -/

@[simp] theorem modTile_mem (s : State) (t : Nat) (f : Tile → Tile) : (s.modTile t f).mem = s.mem := rfl
@[simp] theorem modTile_dirs (s : State) (t : Nat) (f : Tile → Tile) : (s.modTile t f).dirs = s.dirs := rfl
@[simp] theorem modTile_held (s : State) (t : Nat) (f : Tile → Tile) : (s.modTile t f).held = s.held := rfl
@[simp] theorem modTile_heldIds (s : State) (t : Nat) (f : Tile → Tile) : (s.modTile t f).heldIds = s.heldIds := rfl
@[simp] theorem modTile_present (s : State) (t : Nat) (f : Tile → Tile) : (s.modTile t f).present = s.present := rfl
@[simp] theorem modTile_devices (s : State) (t : Nat) (f : Tile → Tile) : (s.modTile t f).devices = s.devices := rfl
@[simp] theorem modTile_partitions (s : State) (t : Nat) (f : Tile → Tile) : (s.modTile t f).partitions = s.partitions := rfl
@[simp] theorem modTile_compacts (s : State) (t : Nat) (f : Tile → Tile) : (s.modTile t f).compacts = s.compacts := rfl
@[simp] theorem modTile_away (s : State) (t : Nat) (f : Tile → Tile) : (s.modTile t f).away = s.away := rfl
@[simp] theorem modTile_aonHolds (s : State) (t : Nat) (f : Tile → Tile) : (s.modTile t f).aonHolds = s.aonHolds := rfl
@[simp] theorem modTile_aonWaits (s : State) (t : Nat) (f : Tile → Tile) : (s.modTile t f).aonWaits = s.aonWaits := rfl
@[simp] theorem modTile_agenda (s : State) (t : Nat) (f : Tile → Tile) : (s.modTile t f).agenda = s.agenda := rfl
@[simp] theorem modTile_cur (s : State) (t : Nat) (f : Tile → Tile) : (s.modTile t f).cur = s.cur := rfl
@[simp] theorem modTile_cid (s : State) (t : Nat) (f : Tile → Tile) : (s.modTile t f).cid = s.cid := rfl
@[simp] theorem modTile_compute (s : State) (t : Nat) (f : Tile → Tile) : (s.modTile t f).compute = s.compute := rfl
@[simp] theorem modTile_fate (s : State) (t : Nat) (f : Tile → Tile) : (s.modTile t f).fate = s.fate := rfl
@[simp] theorem modTile_now (s : State) (t : Nat) (f : Tile → Tile) : (s.modTile t f).now = s.now := rfl
@[simp] theorem modTile_turns (s : State) (t : Nat) (f : Tile → Tile) : (s.modTile t f).turns = s.turns := rfl
@[simp] theorem modTile_slots (s : State) (t : Nat) (f : Tile → Tile) : (s.modTile t f).slots = s.slots := rfl
@[simp] theorem modTile_ports (s : State) (t : Nat) (f : Tile → Tile) : (s.modTile t f).ports = s.ports := rfl

@[simp] theorem modTile_dev (s : State) (t : Nat) (f : Tile → Tile) (u : Nat) : (s.modTile t f).dev u = s.dev u := rfl
@[simp] theorem modTile_dir (s : State) (t : Nat) (f : Tile → Tile) (u : Nat) : (s.modTile t f).dir u = s.dir u := rfl

/-! ## State.setCtxAt -/

@[simp] theorem setCtxAt_mem (s : State) (t c : Nat) (k : Ctx) : (s.setCtxAt t c k).mem = s.mem := rfl
@[simp] theorem setCtxAt_dirs (s : State) (t c : Nat) (k : Ctx) : (s.setCtxAt t c k).dirs = s.dirs := rfl
@[simp] theorem setCtxAt_held (s : State) (t c : Nat) (k : Ctx) : (s.setCtxAt t c k).held = s.held := rfl
@[simp] theorem setCtxAt_heldIds (s : State) (t c : Nat) (k : Ctx) : (s.setCtxAt t c k).heldIds = s.heldIds := rfl
@[simp] theorem setCtxAt_present (s : State) (t c : Nat) (k : Ctx) : (s.setCtxAt t c k).present = s.present := rfl
@[simp] theorem setCtxAt_devices (s : State) (t c : Nat) (k : Ctx) : (s.setCtxAt t c k).devices = s.devices := rfl
@[simp] theorem setCtxAt_partitions (s : State) (t c : Nat) (k : Ctx) : (s.setCtxAt t c k).partitions = s.partitions := rfl
@[simp] theorem setCtxAt_compacts (s : State) (t c : Nat) (k : Ctx) : (s.setCtxAt t c k).compacts = s.compacts := rfl
@[simp] theorem setCtxAt_away (s : State) (t c : Nat) (k : Ctx) : (s.setCtxAt t c k).away = s.away := rfl
@[simp] theorem setCtxAt_aonHolds (s : State) (t c : Nat) (k : Ctx) : (s.setCtxAt t c k).aonHolds = s.aonHolds := rfl
@[simp] theorem setCtxAt_aonWaits (s : State) (t c : Nat) (k : Ctx) : (s.setCtxAt t c k).aonWaits = s.aonWaits := rfl
@[simp] theorem setCtxAt_agenda (s : State) (t c : Nat) (k : Ctx) : (s.setCtxAt t c k).agenda = s.agenda := rfl
@[simp] theorem setCtxAt_cur (s : State) (t c : Nat) (k : Ctx) : (s.setCtxAt t c k).cur = s.cur := rfl
@[simp] theorem setCtxAt_cid (s : State) (t c : Nat) (k : Ctx) : (s.setCtxAt t c k).cid = s.cid := rfl
@[simp] theorem setCtxAt_compute (s : State) (t c : Nat) (k : Ctx) : (s.setCtxAt t c k).compute = s.compute := rfl
@[simp] theorem setCtxAt_fate (s : State) (t c : Nat) (k : Ctx) : (s.setCtxAt t c k).fate = s.fate := rfl
@[simp] theorem setCtxAt_now (s : State) (t c : Nat) (k : Ctx) : (s.setCtxAt t c k).now = s.now := rfl
@[simp] theorem setCtxAt_turns (s : State) (t c : Nat) (k : Ctx) : (s.setCtxAt t c k).turns = s.turns := rfl
@[simp] theorem setCtxAt_slots (s : State) (t c : Nat) (k : Ctx) : (s.setCtxAt t c k).slots = s.slots := rfl
@[simp] theorem setCtxAt_ports (s : State) (t c : Nat) (k : Ctx) : (s.setCtxAt t c k).ports = s.ports := rfl

@[simp] theorem setCtxAt_dev (s : State) (t c : Nat) (k : Ctx) (u : Nat) : (s.setCtxAt t c k).dev u = s.dev u := rfl
@[simp] theorem setCtxAt_dir (s : State) (t c : Nat) (k : Ctx) (u : Nat) : (s.setCtxAt t c k).dir u = s.dir u := rfl

/-! ## State.modCtxAt -/

@[simp] theorem modCtxAt_mem (s : State) (t c : Nat) (f : Ctx → Ctx) : (s.modCtxAt t c f).mem = s.mem := rfl
@[simp] theorem modCtxAt_dirs (s : State) (t c : Nat) (f : Ctx → Ctx) : (s.modCtxAt t c f).dirs = s.dirs := rfl
@[simp] theorem modCtxAt_held (s : State) (t c : Nat) (f : Ctx → Ctx) : (s.modCtxAt t c f).held = s.held := rfl
@[simp] theorem modCtxAt_heldIds (s : State) (t c : Nat) (f : Ctx → Ctx) : (s.modCtxAt t c f).heldIds = s.heldIds := rfl
@[simp] theorem modCtxAt_present (s : State) (t c : Nat) (f : Ctx → Ctx) : (s.modCtxAt t c f).present = s.present := rfl
@[simp] theorem modCtxAt_devices (s : State) (t c : Nat) (f : Ctx → Ctx) : (s.modCtxAt t c f).devices = s.devices := rfl
@[simp] theorem modCtxAt_partitions (s : State) (t c : Nat) (f : Ctx → Ctx) : (s.modCtxAt t c f).partitions = s.partitions := rfl
@[simp] theorem modCtxAt_compacts (s : State) (t c : Nat) (f : Ctx → Ctx) : (s.modCtxAt t c f).compacts = s.compacts := rfl
@[simp] theorem modCtxAt_away (s : State) (t c : Nat) (f : Ctx → Ctx) : (s.modCtxAt t c f).away = s.away := rfl
@[simp] theorem modCtxAt_aonHolds (s : State) (t c : Nat) (f : Ctx → Ctx) : (s.modCtxAt t c f).aonHolds = s.aonHolds := rfl
@[simp] theorem modCtxAt_aonWaits (s : State) (t c : Nat) (f : Ctx → Ctx) : (s.modCtxAt t c f).aonWaits = s.aonWaits := rfl
@[simp] theorem modCtxAt_agenda (s : State) (t c : Nat) (f : Ctx → Ctx) : (s.modCtxAt t c f).agenda = s.agenda := rfl
@[simp] theorem modCtxAt_cur (s : State) (t c : Nat) (f : Ctx → Ctx) : (s.modCtxAt t c f).cur = s.cur := rfl
@[simp] theorem modCtxAt_cid (s : State) (t c : Nat) (f : Ctx → Ctx) : (s.modCtxAt t c f).cid = s.cid := rfl
@[simp] theorem modCtxAt_compute (s : State) (t c : Nat) (f : Ctx → Ctx) : (s.modCtxAt t c f).compute = s.compute := rfl
@[simp] theorem modCtxAt_fate (s : State) (t c : Nat) (f : Ctx → Ctx) : (s.modCtxAt t c f).fate = s.fate := rfl
@[simp] theorem modCtxAt_now (s : State) (t c : Nat) (f : Ctx → Ctx) : (s.modCtxAt t c f).now = s.now := rfl
@[simp] theorem modCtxAt_turns (s : State) (t c : Nat) (f : Ctx → Ctx) : (s.modCtxAt t c f).turns = s.turns := rfl
@[simp] theorem modCtxAt_slots (s : State) (t c : Nat) (f : Ctx → Ctx) : (s.modCtxAt t c f).slots = s.slots := rfl
@[simp] theorem modCtxAt_ports (s : State) (t c : Nat) (f : Ctx → Ctx) : (s.modCtxAt t c f).ports = s.ports := rfl

@[simp] theorem modCtxAt_dev (s : State) (t c : Nat) (f : Ctx → Ctx) (u : Nat) : (s.modCtxAt t c f).dev u = s.dev u := rfl
@[simp] theorem modCtxAt_dir (s : State) (t c : Nat) (f : Ctx → Ctx) (u : Nat) : (s.modCtxAt t c f).dir u = s.dir u := rfl

/-! ## State.setCtx -/

@[simp] theorem setCtx_mem (s : State) (k : Ctx) : (s.setCtx k).mem = s.mem := rfl
@[simp] theorem setCtx_dirs (s : State) (k : Ctx) : (s.setCtx k).dirs = s.dirs := rfl
@[simp] theorem setCtx_held (s : State) (k : Ctx) : (s.setCtx k).held = s.held := rfl
@[simp] theorem setCtx_heldIds (s : State) (k : Ctx) : (s.setCtx k).heldIds = s.heldIds := rfl
@[simp] theorem setCtx_present (s : State) (k : Ctx) : (s.setCtx k).present = s.present := rfl
@[simp] theorem setCtx_devices (s : State) (k : Ctx) : (s.setCtx k).devices = s.devices := rfl
@[simp] theorem setCtx_partitions (s : State) (k : Ctx) : (s.setCtx k).partitions = s.partitions := rfl
@[simp] theorem setCtx_compacts (s : State) (k : Ctx) : (s.setCtx k).compacts = s.compacts := rfl
@[simp] theorem setCtx_away (s : State) (k : Ctx) : (s.setCtx k).away = s.away := rfl
@[simp] theorem setCtx_aonHolds (s : State) (k : Ctx) : (s.setCtx k).aonHolds = s.aonHolds := rfl
@[simp] theorem setCtx_aonWaits (s : State) (k : Ctx) : (s.setCtx k).aonWaits = s.aonWaits := rfl
@[simp] theorem setCtx_agenda (s : State) (k : Ctx) : (s.setCtx k).agenda = s.agenda := rfl
@[simp] theorem setCtx_cur (s : State) (k : Ctx) : (s.setCtx k).cur = s.cur := rfl
@[simp] theorem setCtx_cid (s : State) (k : Ctx) : (s.setCtx k).cid = s.cid := rfl
@[simp] theorem setCtx_compute (s : State) (k : Ctx) : (s.setCtx k).compute = s.compute := rfl
@[simp] theorem setCtx_fate (s : State) (k : Ctx) : (s.setCtx k).fate = s.fate := rfl
@[simp] theorem setCtx_now (s : State) (k : Ctx) : (s.setCtx k).now = s.now := rfl
@[simp] theorem setCtx_turns (s : State) (k : Ctx) : (s.setCtx k).turns = s.turns := rfl
@[simp] theorem setCtx_slots (s : State) (k : Ctx) : (s.setCtx k).slots = s.slots := rfl
@[simp] theorem setCtx_ports (s : State) (k : Ctx) : (s.setCtx k).ports = s.ports := rfl

@[simp] theorem setCtx_dev (s : State) (k : Ctx) (u : Nat) : (s.setCtx k).dev u = s.dev u := rfl
@[simp] theorem setCtx_dir (s : State) (k : Ctx) (u : Nat) : (s.setCtx k).dir u = s.dir u := rfl

/-! ## State.setDev -/

@[simp] theorem setDev_mem (s : State) (p : Nat) (x : Device) : (s.setDev p x).mem = s.mem := rfl
@[simp] theorem setDev_dirs (s : State) (p : Nat) (x : Device) : (s.setDev p x).dirs = s.dirs := rfl
@[simp] theorem setDev_held (s : State) (p : Nat) (x : Device) : (s.setDev p x).held = s.held := rfl
@[simp] theorem setDev_heldIds (s : State) (p : Nat) (x : Device) : (s.setDev p x).heldIds = s.heldIds := rfl
@[simp] theorem setDev_present (s : State) (p : Nat) (x : Device) : (s.setDev p x).present = s.present := rfl
@[simp] theorem setDev_tiles (s : State) (p : Nat) (x : Device) : (s.setDev p x).tiles = s.tiles := rfl
@[simp] theorem setDev_partitions (s : State) (p : Nat) (x : Device) : (s.setDev p x).partitions = s.partitions := rfl
@[simp] theorem setDev_compacts (s : State) (p : Nat) (x : Device) : (s.setDev p x).compacts = s.compacts := rfl
@[simp] theorem setDev_away (s : State) (p : Nat) (x : Device) : (s.setDev p x).away = s.away := rfl
@[simp] theorem setDev_aonHolds (s : State) (p : Nat) (x : Device) : (s.setDev p x).aonHolds = s.aonHolds := rfl
@[simp] theorem setDev_aonWaits (s : State) (p : Nat) (x : Device) : (s.setDev p x).aonWaits = s.aonWaits := rfl
@[simp] theorem setDev_agenda (s : State) (p : Nat) (x : Device) : (s.setDev p x).agenda = s.agenda := rfl
@[simp] theorem setDev_cur (s : State) (p : Nat) (x : Device) : (s.setDev p x).cur = s.cur := rfl
@[simp] theorem setDev_cid (s : State) (p : Nat) (x : Device) : (s.setDev p x).cid = s.cid := rfl
@[simp] theorem setDev_compute (s : State) (p : Nat) (x : Device) : (s.setDev p x).compute = s.compute := rfl
@[simp] theorem setDev_fate (s : State) (p : Nat) (x : Device) : (s.setDev p x).fate = s.fate := rfl
@[simp] theorem setDev_now (s : State) (p : Nat) (x : Device) : (s.setDev p x).now = s.now := rfl
@[simp] theorem setDev_turns (s : State) (p : Nat) (x : Device) : (s.setDev p x).turns = s.turns := rfl
@[simp] theorem setDev_slots (s : State) (p : Nat) (x : Device) : (s.setDev p x).slots = s.slots := rfl
@[simp] theorem setDev_ports (s : State) (p : Nat) (x : Device) : (s.setDev p x).ports = s.ports := rfl

@[simp] theorem setDev_tile (s : State) (p : Nat) (x : Device) (u : Nat) : (s.setDev p x).tile u = s.tile u := rfl
@[simp] theorem setDev_ctxAt (s : State) (p : Nat) (x : Device) (u v : Nat) : (s.setDev p x).ctxAt u v = s.ctxAt u v := rfl
@[simp] theorem setDev_ctx (s : State) (p : Nat) (x : Device) : (s.setDev p x).ctx = s.ctx := rfl
@[simp] theorem setDev_dir (s : State) (p : Nat) (x : Device) (u : Nat) : (s.setDev p x).dir u = s.dir u := rfl

/-! ## State.modDev -/

@[simp] theorem modDev_mem (s : State) (p : Nat) (f : Device → Device) : (s.modDev p f).mem = s.mem := rfl
@[simp] theorem modDev_dirs (s : State) (p : Nat) (f : Device → Device) : (s.modDev p f).dirs = s.dirs := rfl
@[simp] theorem modDev_held (s : State) (p : Nat) (f : Device → Device) : (s.modDev p f).held = s.held := rfl
@[simp] theorem modDev_heldIds (s : State) (p : Nat) (f : Device → Device) : (s.modDev p f).heldIds = s.heldIds := rfl
@[simp] theorem modDev_present (s : State) (p : Nat) (f : Device → Device) : (s.modDev p f).present = s.present := rfl
@[simp] theorem modDev_tiles (s : State) (p : Nat) (f : Device → Device) : (s.modDev p f).tiles = s.tiles := rfl
@[simp] theorem modDev_partitions (s : State) (p : Nat) (f : Device → Device) : (s.modDev p f).partitions = s.partitions := rfl
@[simp] theorem modDev_compacts (s : State) (p : Nat) (f : Device → Device) : (s.modDev p f).compacts = s.compacts := rfl
@[simp] theorem modDev_away (s : State) (p : Nat) (f : Device → Device) : (s.modDev p f).away = s.away := rfl
@[simp] theorem modDev_aonHolds (s : State) (p : Nat) (f : Device → Device) : (s.modDev p f).aonHolds = s.aonHolds := rfl
@[simp] theorem modDev_aonWaits (s : State) (p : Nat) (f : Device → Device) : (s.modDev p f).aonWaits = s.aonWaits := rfl
@[simp] theorem modDev_agenda (s : State) (p : Nat) (f : Device → Device) : (s.modDev p f).agenda = s.agenda := rfl
@[simp] theorem modDev_cur (s : State) (p : Nat) (f : Device → Device) : (s.modDev p f).cur = s.cur := rfl
@[simp] theorem modDev_cid (s : State) (p : Nat) (f : Device → Device) : (s.modDev p f).cid = s.cid := rfl
@[simp] theorem modDev_compute (s : State) (p : Nat) (f : Device → Device) : (s.modDev p f).compute = s.compute := rfl
@[simp] theorem modDev_fate (s : State) (p : Nat) (f : Device → Device) : (s.modDev p f).fate = s.fate := rfl
@[simp] theorem modDev_now (s : State) (p : Nat) (f : Device → Device) : (s.modDev p f).now = s.now := rfl
@[simp] theorem modDev_turns (s : State) (p : Nat) (f : Device → Device) : (s.modDev p f).turns = s.turns := rfl
@[simp] theorem modDev_slots (s : State) (p : Nat) (f : Device → Device) : (s.modDev p f).slots = s.slots := rfl
@[simp] theorem modDev_ports (s : State) (p : Nat) (f : Device → Device) : (s.modDev p f).ports = s.ports := rfl

@[simp] theorem modDev_tile (s : State) (p : Nat) (f : Device → Device) (u : Nat) : (s.modDev p f).tile u = s.tile u := rfl
@[simp] theorem modDev_ctxAt (s : State) (p : Nat) (f : Device → Device) (u v : Nat) : (s.modDev p f).ctxAt u v = s.ctxAt u v := rfl
@[simp] theorem modDev_ctx (s : State) (p : Nat) (f : Device → Device) : (s.modDev p f).ctx = s.ctx := rfl
@[simp] theorem modDev_dir (s : State) (p : Nat) (f : Device → Device) (u : Nat) : (s.modDev p f).dir u = s.dir u := rfl

/-! ## State.modCluster -/

@[simp] theorem modCluster_mem (s : State) (p n : Nat) (f : Cluster → Cluster) : (s.modCluster p n f).mem = s.mem := rfl
@[simp] theorem modCluster_dirs (s : State) (p n : Nat) (f : Cluster → Cluster) : (s.modCluster p n f).dirs = s.dirs := rfl
@[simp] theorem modCluster_held (s : State) (p n : Nat) (f : Cluster → Cluster) : (s.modCluster p n f).held = s.held := rfl
@[simp] theorem modCluster_heldIds (s : State) (p n : Nat) (f : Cluster → Cluster) : (s.modCluster p n f).heldIds = s.heldIds := rfl
@[simp] theorem modCluster_present (s : State) (p n : Nat) (f : Cluster → Cluster) : (s.modCluster p n f).present = s.present := rfl
@[simp] theorem modCluster_tiles (s : State) (p n : Nat) (f : Cluster → Cluster) : (s.modCluster p n f).tiles = s.tiles := rfl
@[simp] theorem modCluster_partitions (s : State) (p n : Nat) (f : Cluster → Cluster) : (s.modCluster p n f).partitions = s.partitions := rfl
@[simp] theorem modCluster_compacts (s : State) (p n : Nat) (f : Cluster → Cluster) : (s.modCluster p n f).compacts = s.compacts := rfl
@[simp] theorem modCluster_away (s : State) (p n : Nat) (f : Cluster → Cluster) : (s.modCluster p n f).away = s.away := rfl
@[simp] theorem modCluster_aonHolds (s : State) (p n : Nat) (f : Cluster → Cluster) : (s.modCluster p n f).aonHolds = s.aonHolds := rfl
@[simp] theorem modCluster_aonWaits (s : State) (p n : Nat) (f : Cluster → Cluster) : (s.modCluster p n f).aonWaits = s.aonWaits := rfl
@[simp] theorem modCluster_agenda (s : State) (p n : Nat) (f : Cluster → Cluster) : (s.modCluster p n f).agenda = s.agenda := rfl
@[simp] theorem modCluster_cur (s : State) (p n : Nat) (f : Cluster → Cluster) : (s.modCluster p n f).cur = s.cur := rfl
@[simp] theorem modCluster_cid (s : State) (p n : Nat) (f : Cluster → Cluster) : (s.modCluster p n f).cid = s.cid := rfl
@[simp] theorem modCluster_compute (s : State) (p n : Nat) (f : Cluster → Cluster) : (s.modCluster p n f).compute = s.compute := rfl
@[simp] theorem modCluster_fate (s : State) (p n : Nat) (f : Cluster → Cluster) : (s.modCluster p n f).fate = s.fate := rfl
@[simp] theorem modCluster_now (s : State) (p n : Nat) (f : Cluster → Cluster) : (s.modCluster p n f).now = s.now := rfl
@[simp] theorem modCluster_turns (s : State) (p n : Nat) (f : Cluster → Cluster) : (s.modCluster p n f).turns = s.turns := rfl
@[simp] theorem modCluster_slots (s : State) (p n : Nat) (f : Cluster → Cluster) : (s.modCluster p n f).slots = s.slots := rfl
@[simp] theorem modCluster_ports (s : State) (p n : Nat) (f : Cluster → Cluster) : (s.modCluster p n f).ports = s.ports := rfl

@[simp] theorem modCluster_tile (s : State) (p n : Nat) (f : Cluster → Cluster) (u : Nat) : (s.modCluster p n f).tile u = s.tile u := rfl
@[simp] theorem modCluster_ctxAt (s : State) (p n : Nat) (f : Cluster → Cluster) (u v : Nat) : (s.modCluster p n f).ctxAt u v = s.ctxAt u v := rfl
@[simp] theorem modCluster_ctx (s : State) (p n : Nat) (f : Cluster → Cluster) : (s.modCluster p n f).ctx = s.ctx := rfl
@[simp] theorem modCluster_dir (s : State) (p n : Nat) (f : Cluster → Cluster) (u : Nat) : (s.modCluster p n f).dir u = s.dir u := rfl

/-! ## State.modRegion -/

@[simp] theorem modRegion_mem (s : State) (p n : Nat) (f : Region → Region) : (s.modRegion p n f).mem = s.mem := rfl
@[simp] theorem modRegion_dirs (s : State) (p n : Nat) (f : Region → Region) : (s.modRegion p n f).dirs = s.dirs := rfl
@[simp] theorem modRegion_held (s : State) (p n : Nat) (f : Region → Region) : (s.modRegion p n f).held = s.held := rfl
@[simp] theorem modRegion_heldIds (s : State) (p n : Nat) (f : Region → Region) : (s.modRegion p n f).heldIds = s.heldIds := rfl
@[simp] theorem modRegion_present (s : State) (p n : Nat) (f : Region → Region) : (s.modRegion p n f).present = s.present := rfl
@[simp] theorem modRegion_tiles (s : State) (p n : Nat) (f : Region → Region) : (s.modRegion p n f).tiles = s.tiles := rfl
@[simp] theorem modRegion_partitions (s : State) (p n : Nat) (f : Region → Region) : (s.modRegion p n f).partitions = s.partitions := rfl
@[simp] theorem modRegion_compacts (s : State) (p n : Nat) (f : Region → Region) : (s.modRegion p n f).compacts = s.compacts := rfl
@[simp] theorem modRegion_away (s : State) (p n : Nat) (f : Region → Region) : (s.modRegion p n f).away = s.away := rfl
@[simp] theorem modRegion_aonHolds (s : State) (p n : Nat) (f : Region → Region) : (s.modRegion p n f).aonHolds = s.aonHolds := rfl
@[simp] theorem modRegion_aonWaits (s : State) (p n : Nat) (f : Region → Region) : (s.modRegion p n f).aonWaits = s.aonWaits := rfl
@[simp] theorem modRegion_agenda (s : State) (p n : Nat) (f : Region → Region) : (s.modRegion p n f).agenda = s.agenda := rfl
@[simp] theorem modRegion_cur (s : State) (p n : Nat) (f : Region → Region) : (s.modRegion p n f).cur = s.cur := rfl
@[simp] theorem modRegion_cid (s : State) (p n : Nat) (f : Region → Region) : (s.modRegion p n f).cid = s.cid := rfl
@[simp] theorem modRegion_compute (s : State) (p n : Nat) (f : Region → Region) : (s.modRegion p n f).compute = s.compute := rfl
@[simp] theorem modRegion_fate (s : State) (p n : Nat) (f : Region → Region) : (s.modRegion p n f).fate = s.fate := rfl
@[simp] theorem modRegion_now (s : State) (p n : Nat) (f : Region → Region) : (s.modRegion p n f).now = s.now := rfl
@[simp] theorem modRegion_turns (s : State) (p n : Nat) (f : Region → Region) : (s.modRegion p n f).turns = s.turns := rfl
@[simp] theorem modRegion_slots (s : State) (p n : Nat) (f : Region → Region) : (s.modRegion p n f).slots = s.slots := rfl
@[simp] theorem modRegion_ports (s : State) (p n : Nat) (f : Region → Region) : (s.modRegion p n f).ports = s.ports := rfl

@[simp] theorem modRegion_tile (s : State) (p n : Nat) (f : Region → Region) (u : Nat) : (s.modRegion p n f).tile u = s.tile u := rfl
@[simp] theorem modRegion_ctxAt (s : State) (p n : Nat) (f : Region → Region) (u v : Nat) : (s.modRegion p n f).ctxAt u v = s.ctxAt u v := rfl
@[simp] theorem modRegion_ctx (s : State) (p n : Nat) (f : Region → Region) : (s.modRegion p n f).ctx = s.ctx := rfl
@[simp] theorem modRegion_dir (s : State) (p n : Nat) (f : Region → Region) (u : Nat) : (s.modRegion p n f).dir u = s.dir u := rfl

/-! ## State.modMgmt -/

@[simp] theorem modMgmt_mem (s : State) (p : Nat) (f : Mgmt → Mgmt) : (s.modMgmt p f).mem = s.mem := rfl
@[simp] theorem modMgmt_dirs (s : State) (p : Nat) (f : Mgmt → Mgmt) : (s.modMgmt p f).dirs = s.dirs := rfl
@[simp] theorem modMgmt_held (s : State) (p : Nat) (f : Mgmt → Mgmt) : (s.modMgmt p f).held = s.held := rfl
@[simp] theorem modMgmt_heldIds (s : State) (p : Nat) (f : Mgmt → Mgmt) : (s.modMgmt p f).heldIds = s.heldIds := rfl
@[simp] theorem modMgmt_present (s : State) (p : Nat) (f : Mgmt → Mgmt) : (s.modMgmt p f).present = s.present := rfl
@[simp] theorem modMgmt_tiles (s : State) (p : Nat) (f : Mgmt → Mgmt) : (s.modMgmt p f).tiles = s.tiles := rfl
@[simp] theorem modMgmt_partitions (s : State) (p : Nat) (f : Mgmt → Mgmt) : (s.modMgmt p f).partitions = s.partitions := rfl
@[simp] theorem modMgmt_compacts (s : State) (p : Nat) (f : Mgmt → Mgmt) : (s.modMgmt p f).compacts = s.compacts := rfl
@[simp] theorem modMgmt_away (s : State) (p : Nat) (f : Mgmt → Mgmt) : (s.modMgmt p f).away = s.away := rfl
@[simp] theorem modMgmt_aonHolds (s : State) (p : Nat) (f : Mgmt → Mgmt) : (s.modMgmt p f).aonHolds = s.aonHolds := rfl
@[simp] theorem modMgmt_aonWaits (s : State) (p : Nat) (f : Mgmt → Mgmt) : (s.modMgmt p f).aonWaits = s.aonWaits := rfl
@[simp] theorem modMgmt_agenda (s : State) (p : Nat) (f : Mgmt → Mgmt) : (s.modMgmt p f).agenda = s.agenda := rfl
@[simp] theorem modMgmt_cur (s : State) (p : Nat) (f : Mgmt → Mgmt) : (s.modMgmt p f).cur = s.cur := rfl
@[simp] theorem modMgmt_cid (s : State) (p : Nat) (f : Mgmt → Mgmt) : (s.modMgmt p f).cid = s.cid := rfl
@[simp] theorem modMgmt_compute (s : State) (p : Nat) (f : Mgmt → Mgmt) : (s.modMgmt p f).compute = s.compute := rfl
@[simp] theorem modMgmt_fate (s : State) (p : Nat) (f : Mgmt → Mgmt) : (s.modMgmt p f).fate = s.fate := rfl
@[simp] theorem modMgmt_now (s : State) (p : Nat) (f : Mgmt → Mgmt) : (s.modMgmt p f).now = s.now := rfl
@[simp] theorem modMgmt_turns (s : State) (p : Nat) (f : Mgmt → Mgmt) : (s.modMgmt p f).turns = s.turns := rfl
@[simp] theorem modMgmt_slots (s : State) (p : Nat) (f : Mgmt → Mgmt) : (s.modMgmt p f).slots = s.slots := rfl
@[simp] theorem modMgmt_ports (s : State) (p : Nat) (f : Mgmt → Mgmt) : (s.modMgmt p f).ports = s.ports := rfl

@[simp] theorem modMgmt_tile (s : State) (p : Nat) (f : Mgmt → Mgmt) (u : Nat) : (s.modMgmt p f).tile u = s.tile u := rfl
@[simp] theorem modMgmt_ctxAt (s : State) (p : Nat) (f : Mgmt → Mgmt) (u v : Nat) : (s.modMgmt p f).ctxAt u v = s.ctxAt u v := rfl
@[simp] theorem modMgmt_ctx (s : State) (p : Nat) (f : Mgmt → Mgmt) : (s.modMgmt p f).ctx = s.ctx := rfl
@[simp] theorem modMgmt_dir (s : State) (p : Nat) (f : Mgmt → Mgmt) (u : Nat) : (s.modMgmt p f).dir u = s.dir u := rfl

/-! ## State.modDir -/

@[simp] theorem modDir_mem (s : State) (k : Nat) (f : Dir → Dir) : (s.modDir k f).mem = s.mem := rfl
@[simp] theorem modDir_held (s : State) (k : Nat) (f : Dir → Dir) : (s.modDir k f).held = s.held := rfl
@[simp] theorem modDir_heldIds (s : State) (k : Nat) (f : Dir → Dir) : (s.modDir k f).heldIds = s.heldIds := rfl
@[simp] theorem modDir_present (s : State) (k : Nat) (f : Dir → Dir) : (s.modDir k f).present = s.present := rfl
@[simp] theorem modDir_devices (s : State) (k : Nat) (f : Dir → Dir) : (s.modDir k f).devices = s.devices := rfl
@[simp] theorem modDir_tiles (s : State) (k : Nat) (f : Dir → Dir) : (s.modDir k f).tiles = s.tiles := rfl
@[simp] theorem modDir_partitions (s : State) (k : Nat) (f : Dir → Dir) : (s.modDir k f).partitions = s.partitions := rfl
@[simp] theorem modDir_compacts (s : State) (k : Nat) (f : Dir → Dir) : (s.modDir k f).compacts = s.compacts := rfl
@[simp] theorem modDir_away (s : State) (k : Nat) (f : Dir → Dir) : (s.modDir k f).away = s.away := rfl
@[simp] theorem modDir_aonHolds (s : State) (k : Nat) (f : Dir → Dir) : (s.modDir k f).aonHolds = s.aonHolds := rfl
@[simp] theorem modDir_aonWaits (s : State) (k : Nat) (f : Dir → Dir) : (s.modDir k f).aonWaits = s.aonWaits := rfl
@[simp] theorem modDir_agenda (s : State) (k : Nat) (f : Dir → Dir) : (s.modDir k f).agenda = s.agenda := rfl
@[simp] theorem modDir_cur (s : State) (k : Nat) (f : Dir → Dir) : (s.modDir k f).cur = s.cur := rfl
@[simp] theorem modDir_cid (s : State) (k : Nat) (f : Dir → Dir) : (s.modDir k f).cid = s.cid := rfl
@[simp] theorem modDir_compute (s : State) (k : Nat) (f : Dir → Dir) : (s.modDir k f).compute = s.compute := rfl
@[simp] theorem modDir_fate (s : State) (k : Nat) (f : Dir → Dir) : (s.modDir k f).fate = s.fate := rfl
@[simp] theorem modDir_now (s : State) (k : Nat) (f : Dir → Dir) : (s.modDir k f).now = s.now := rfl
@[simp] theorem modDir_turns (s : State) (k : Nat) (f : Dir → Dir) : (s.modDir k f).turns = s.turns := rfl
@[simp] theorem modDir_slots (s : State) (k : Nat) (f : Dir → Dir) : (s.modDir k f).slots = s.slots := rfl
@[simp] theorem modDir_ports (s : State) (k : Nat) (f : Dir → Dir) : (s.modDir k f).ports = s.ports := rfl

@[simp] theorem modDir_tile (s : State) (k : Nat) (f : Dir → Dir) (u : Nat) : (s.modDir k f).tile u = s.tile u := rfl
@[simp] theorem modDir_ctxAt (s : State) (k : Nat) (f : Dir → Dir) (u v : Nat) : (s.modDir k f).ctxAt u v = s.ctxAt u v := rfl
@[simp] theorem modDir_ctx (s : State) (k : Nat) (f : Dir → Dir) : (s.modDir k f).ctx = s.ctx := rfl
@[simp] theorem modDir_dev (s : State) (k : Nat) (f : Dir → Dir) (u : Nat) : (s.modDir k f).dev u = s.dev u := rfl

/-! ## The part that was updated -/

theorem setTile_tile (s : State) (t : Nat) (x : Tile) (u : Nat) : (s.setTile t x).tile u = if u = t then x else s.tile u :=
  mget_mset ..
@[simp] theorem setTile_tile_same (s : State) (t : Nat) (x : Tile) : (s.setTile t x).tile t = x := mget_mset_same ..
theorem modTile_tile (s : State) (t : Nat) (f : Tile → Tile) (u : Nat) :
    (s.modTile t f).tile u = if u = t then f (s.tile t) else s.tile u := mget_mset ..
@[simp] theorem modTile_tile_same (s : State) (t : Nat) (f : Tile → Tile) : (s.modTile t f).tile t = f (s.tile t) := mget_mset_same ..
theorem setDev_dev (s : State) (p : Nat) (x : Device) (q : Nat) : (s.setDev p x).dev q = if q = p then x else s.dev q :=
  mget_mset ..
theorem modDev_dev (s : State) (p : Nat) (f : Device → Device) (q : Nat) :
    (s.modDev p f).dev q = if q = p then f (s.dev p) else s.dev q := mget_mset ..
@[simp] theorem modDev_dev_same (s : State) (p : Nat) (f : Device → Device) : (s.modDev p f).dev p = f (s.dev p) := mget_mset_same ..
theorem modDir_dir (s : State) (k : Nat) (f : Dir → Dir) (j : Nat) :
    (s.modDir k f).dir j = if j = k then f (s.dir k) else s.dir j := mget_mset ..
@[simp] theorem modDir_dir_same (s : State) (k : Nat) (f : Dir → Dir) : (s.modDir k f).dir k = f (s.dir k) := mget_mset_same ..
@[simp] theorem setCtx_tile_ctx (x : Tile) (c d : Nat) (k : Ctx) : (x.setCtx c k).ctx d = if d = c then k else x.ctx d := mget_mset ..
theorem setCtxAt_ctxAt (s : State) (t c : Nat) (k : Ctx) (u d : Nat) :
    (s.setCtxAt t c k).ctxAt u d = if u = t ∧ d = c then k else s.ctxAt u d := by
  simp only [State.setCtxAt, State.ctxAt, modTile_tile]
  by_cases h : u = t
  · subst h; simp
  · simp [h]
@[simp] theorem setCtxAt_ctxAt_same (s : State) (t c : Nat) (k : Ctx) : (s.setCtxAt t c k).ctxAt t c = k := by
  simp [setCtxAt_ctxAt]
@[simp] theorem modCtxAt_ctxAt_same (s : State) (t c : Nat) (f : Ctx → Ctx) : (s.modCtxAt t c f).ctxAt t c = f (s.ctxAt t c) := by
  simp [State.modCtxAt]
@[simp] theorem setCtx_ctx (s : State) (k : Ctx) : (s.setCtx k).ctx = k := by simp [State.ctx, State.setCtx]

@[simp] theorem setTile_setTile (s : State) (t : Nat) (x y : Tile) : (s.setTile t x).setTile t y = s.setTile t y := by
  simp [State.setTile]
@[simp] theorem setCtx_setCtx_tile (x : Tile) (c : Nat) (k l : Ctx) : (x.setCtx c k).setCtx c l = x.setCtx c l := by
  simp [Tile.setCtx]
@[simp] theorem setCtxAt_setCtxAt (s : State) (t c : Nat) (k l : Ctx) : (s.setCtxAt t c k).setCtxAt t c l = s.setCtxAt t c l := by
  simp [State.setCtxAt, State.modTile]
@[simp] theorem setCtx_setCtx (s : State) (k l : Ctx) : (s.setCtx k).setCtx l = s.setCtx l := by
  simp [State.setCtx]
@[simp] theorem setDev_setDev (s : State) (p : Nat) (x y : Device) : (s.setDev p x).setDev p y = s.setDev p y := by
  simp [State.setDev]

/-! ## A field of the state set -/

@[simp] theorem with_mem_tile (s : State) (x : List Host.Cell) (u : Nat) : ({ s with mem := x } : State).tile u = s.tile u := rfl
@[simp] theorem with_mem_ctxAt (s : State) (x : List Host.Cell) (u c : Nat) : ({ s with mem := x } : State).ctxAt u c = s.ctxAt u c := rfl
@[simp] theorem with_mem_ctx (s : State) (x : List Host.Cell) : ({ s with mem := x } : State).ctx  = s.ctx  := rfl
@[simp] theorem with_mem_dev (s : State) (x : List Host.Cell) (u : Nat) : ({ s with mem := x } : State).dev u = s.dev u := rfl
@[simp] theorem with_mem_dir (s : State) (x : List Host.Cell) (u : Nat) : ({ s with mem := x } : State).dir u = s.dir u := rfl
@[simp] theorem with_dirs_tile (s : State) (x : Map Dir) (u : Nat) : ({ s with dirs := x } : State).tile u = s.tile u := rfl
@[simp] theorem with_dirs_ctxAt (s : State) (x : Map Dir) (u c : Nat) : ({ s with dirs := x } : State).ctxAt u c = s.ctxAt u c := rfl
@[simp] theorem with_dirs_ctx (s : State) (x : Map Dir) : ({ s with dirs := x } : State).ctx  = s.ctx  := rfl
@[simp] theorem with_dirs_dev (s : State) (x : Map Dir) (u : Nat) : ({ s with dirs := x } : State).dev u = s.dev u := rfl
@[simp] theorem with_held_tile (s : State) (x : List Held) (u : Nat) : ({ s with held := x } : State).tile u = s.tile u := rfl
@[simp] theorem with_held_ctxAt (s : State) (x : List Held) (u c : Nat) : ({ s with held := x } : State).ctxAt u c = s.ctxAt u c := rfl
@[simp] theorem with_held_ctx (s : State) (x : List Held) : ({ s with held := x } : State).ctx  = s.ctx  := rfl
@[simp] theorem with_held_dev (s : State) (x : List Held) (u : Nat) : ({ s with held := x } : State).dev u = s.dev u := rfl
@[simp] theorem with_held_dir (s : State) (x : List Held) (u : Nat) : ({ s with held := x } : State).dir u = s.dir u := rfl
@[simp] theorem with_heldIds_tile (s : State) (x : Nat) (u : Nat) : ({ s with heldIds := x } : State).tile u = s.tile u := rfl
@[simp] theorem with_heldIds_ctxAt (s : State) (x : Nat) (u c : Nat) : ({ s with heldIds := x } : State).ctxAt u c = s.ctxAt u c := rfl
@[simp] theorem with_heldIds_ctx (s : State) (x : Nat) : ({ s with heldIds := x } : State).ctx  = s.ctx  := rfl
@[simp] theorem with_heldIds_dev (s : State) (x : Nat) (u : Nat) : ({ s with heldIds := x } : State).dev u = s.dev u := rfl
@[simp] theorem with_heldIds_dir (s : State) (x : Nat) (u : Nat) : ({ s with heldIds := x } : State).dir u = s.dir u := rfl
@[simp] theorem with_present_tile (s : State) (x : List Nat) (u : Nat) : ({ s with present := x } : State).tile u = s.tile u := rfl
@[simp] theorem with_present_ctxAt (s : State) (x : List Nat) (u c : Nat) : ({ s with present := x } : State).ctxAt u c = s.ctxAt u c := rfl
@[simp] theorem with_present_ctx (s : State) (x : List Nat) : ({ s with present := x } : State).ctx  = s.ctx  := rfl
@[simp] theorem with_present_dev (s : State) (x : List Nat) (u : Nat) : ({ s with present := x } : State).dev u = s.dev u := rfl
@[simp] theorem with_present_dir (s : State) (x : List Nat) (u : Nat) : ({ s with present := x } : State).dir u = s.dir u := rfl
@[simp] theorem with_devices_tile (s : State) (x : Map Device) (u : Nat) : ({ s with devices := x } : State).tile u = s.tile u := rfl
@[simp] theorem with_devices_ctxAt (s : State) (x : Map Device) (u c : Nat) : ({ s with devices := x } : State).ctxAt u c = s.ctxAt u c := rfl
@[simp] theorem with_devices_ctx (s : State) (x : Map Device) : ({ s with devices := x } : State).ctx  = s.ctx  := rfl
@[simp] theorem with_devices_dir (s : State) (x : Map Device) (u : Nat) : ({ s with devices := x } : State).dir u = s.dir u := rfl
@[simp] theorem with_tiles_dev (s : State) (x : Map Tile) (u : Nat) : ({ s with tiles := x } : State).dev u = s.dev u := rfl
@[simp] theorem with_tiles_dir (s : State) (x : Map Tile) (u : Nat) : ({ s with tiles := x } : State).dir u = s.dir u := rfl
@[simp] theorem with_partitions_tile (s : State) (x : List Partition) (u : Nat) : ({ s with partitions := x } : State).tile u = s.tile u := rfl
@[simp] theorem with_partitions_ctxAt (s : State) (x : List Partition) (u c : Nat) : ({ s with partitions := x } : State).ctxAt u c = s.ctxAt u c := rfl
@[simp] theorem with_partitions_ctx (s : State) (x : List Partition) : ({ s with partitions := x } : State).ctx  = s.ctx  := rfl
@[simp] theorem with_partitions_dev (s : State) (x : List Partition) (u : Nat) : ({ s with partitions := x } : State).dev u = s.dev u := rfl
@[simp] theorem with_partitions_dir (s : State) (x : List Partition) (u : Nat) : ({ s with partitions := x } : State).dir u = s.dir u := rfl
@[simp] theorem with_compacts_tile (s : State) (x : List Compact) (u : Nat) : ({ s with compacts := x } : State).tile u = s.tile u := rfl
@[simp] theorem with_compacts_ctxAt (s : State) (x : List Compact) (u c : Nat) : ({ s with compacts := x } : State).ctxAt u c = s.ctxAt u c := rfl
@[simp] theorem with_compacts_ctx (s : State) (x : List Compact) : ({ s with compacts := x } : State).ctx  = s.ctx  := rfl
@[simp] theorem with_compacts_dev (s : State) (x : List Compact) (u : Nat) : ({ s with compacts := x } : State).dev u = s.dev u := rfl
@[simp] theorem with_compacts_dir (s : State) (x : List Compact) (u : Nat) : ({ s with compacts := x } : State).dir u = s.dir u := rfl
@[simp] theorem with_away_tile (s : State) (x : List Image) (u : Nat) : ({ s with away := x } : State).tile u = s.tile u := rfl
@[simp] theorem with_away_ctxAt (s : State) (x : List Image) (u c : Nat) : ({ s with away := x } : State).ctxAt u c = s.ctxAt u c := rfl
@[simp] theorem with_away_ctx (s : State) (x : List Image) : ({ s with away := x } : State).ctx  = s.ctx  := rfl
@[simp] theorem with_away_dev (s : State) (x : List Image) (u : Nat) : ({ s with away := x } : State).dev u = s.dev u := rfl
@[simp] theorem with_away_dir (s : State) (x : List Image) (u : Nat) : ({ s with away := x } : State).dir u = s.dir u := rfl
@[simp] theorem with_aonHolds_tile (s : State) (x : List (Nat × Nat)) (u : Nat) : ({ s with aonHolds := x } : State).tile u = s.tile u := rfl
@[simp] theorem with_aonWaits_tile (s : State) (x : List (Nat × Nat)) (u : Nat) : ({ s with aonWaits := x } : State).tile u = s.tile u := rfl
@[simp] theorem with_aonHolds_ctxAt (s : State) (x : List (Nat × Nat)) (u c : Nat) : ({ s with aonHolds := x } : State).ctxAt u c = s.ctxAt u c := rfl
@[simp] theorem with_aonWaits_ctxAt (s : State) (x : List (Nat × Nat)) (u c : Nat) : ({ s with aonWaits := x } : State).ctxAt u c = s.ctxAt u c := rfl
@[simp] theorem with_aonHolds_ctx (s : State) (x : List (Nat × Nat)) : ({ s with aonHolds := x } : State).ctx  = s.ctx  := rfl
@[simp] theorem with_aonWaits_ctx (s : State) (x : List (Nat × Nat)) : ({ s with aonWaits := x } : State).ctx  = s.ctx  := rfl
@[simp] theorem with_aonHolds_dev (s : State) (x : List (Nat × Nat)) (u : Nat) : ({ s with aonHolds := x } : State).dev u = s.dev u := rfl
@[simp] theorem with_aonWaits_dev (s : State) (x : List (Nat × Nat)) (u : Nat) : ({ s with aonWaits := x } : State).dev u = s.dev u := rfl
@[simp] theorem with_aonHolds_dir (s : State) (x : List (Nat × Nat)) (u : Nat) : ({ s with aonHolds := x } : State).dir u = s.dir u := rfl
@[simp] theorem with_aonWaits_dir (s : State) (x : List (Nat × Nat)) (u : Nat) : ({ s with aonWaits := x } : State).dir u = s.dir u := rfl
@[simp] theorem with_agenda_tile (s : State) (x : List Turn) (u : Nat) : ({ s with agenda := x } : State).tile u = s.tile u := rfl
@[simp] theorem with_agenda_ctxAt (s : State) (x : List Turn) (u c : Nat) : ({ s with agenda := x } : State).ctxAt u c = s.ctxAt u c := rfl
@[simp] theorem with_agenda_ctx (s : State) (x : List Turn) : ({ s with agenda := x } : State).ctx  = s.ctx  := rfl
@[simp] theorem with_agenda_dev (s : State) (x : List Turn) (u : Nat) : ({ s with agenda := x } : State).dev u = s.dev u := rfl
@[simp] theorem with_agenda_dir (s : State) (x : List Turn) (u : Nat) : ({ s with agenda := x } : State).dir u = s.dir u := rfl
@[simp] theorem with_cur_tile (s : State) (x : Nat) (u : Nat) : ({ s with cur := x } : State).tile u = s.tile u := rfl
@[simp] theorem with_cur_ctxAt (s : State) (x : Nat) (u c : Nat) : ({ s with cur := x } : State).ctxAt u c = s.ctxAt u c := rfl
@[simp] theorem with_cur_dev (s : State) (x : Nat) (u : Nat) : ({ s with cur := x } : State).dev u = s.dev u := rfl
@[simp] theorem with_cur_dir (s : State) (x : Nat) (u : Nat) : ({ s with cur := x } : State).dir u = s.dir u := rfl
@[simp] theorem with_cid_tile (s : State) (x : Nat) (u : Nat) : ({ s with cid := x } : State).tile u = s.tile u := rfl
@[simp] theorem with_cid_ctxAt (s : State) (x : Nat) (u c : Nat) : ({ s with cid := x } : State).ctxAt u c = s.ctxAt u c := rfl
@[simp] theorem with_cid_dev (s : State) (x : Nat) (u : Nat) : ({ s with cid := x } : State).dev u = s.dev u := rfl
@[simp] theorem with_cid_dir (s : State) (x : Nat) (u : Nat) : ({ s with cid := x } : State).dir u = s.dir u := rfl
@[simp] theorem with_compute_tile (s : State) (x : Bool) (u : Nat) : ({ s with compute := x } : State).tile u = s.tile u := rfl
@[simp] theorem with_compute_ctxAt (s : State) (x : Bool) (u c : Nat) : ({ s with compute := x } : State).ctxAt u c = s.ctxAt u c := rfl
@[simp] theorem with_compute_ctx (s : State) (x : Bool) : ({ s with compute := x } : State).ctx  = s.ctx  := rfl
@[simp] theorem with_compute_dev (s : State) (x : Bool) (u : Nat) : ({ s with compute := x } : State).dev u = s.dev u := rfl
@[simp] theorem with_compute_dir (s : State) (x : Bool) (u : Nat) : ({ s with compute := x } : State).dir u = s.dir u := rfl
@[simp] theorem with_fate_tile (s : State) (x : Fate) (u : Nat) : ({ s with fate := x } : State).tile u = s.tile u := rfl
@[simp] theorem with_fate_ctxAt (s : State) (x : Fate) (u c : Nat) : ({ s with fate := x } : State).ctxAt u c = s.ctxAt u c := rfl
@[simp] theorem with_fate_ctx (s : State) (x : Fate) : ({ s with fate := x } : State).ctx  = s.ctx  := rfl
@[simp] theorem with_fate_dev (s : State) (x : Fate) (u : Nat) : ({ s with fate := x } : State).dev u = s.dev u := rfl
@[simp] theorem with_fate_dir (s : State) (x : Fate) (u : Nat) : ({ s with fate := x } : State).dir u = s.dir u := rfl
@[simp] theorem with_now_tile (s : State) (x : Nat) (u : Nat) : ({ s with now := x } : State).tile u = s.tile u := rfl
@[simp] theorem with_now_ctxAt (s : State) (x : Nat) (u c : Nat) : ({ s with now := x } : State).ctxAt u c = s.ctxAt u c := rfl
@[simp] theorem with_now_ctx (s : State) (x : Nat) : ({ s with now := x } : State).ctx  = s.ctx  := rfl
@[simp] theorem with_now_dev (s : State) (x : Nat) (u : Nat) : ({ s with now := x } : State).dev u = s.dev u := rfl
@[simp] theorem with_now_dir (s : State) (x : Nat) (u : Nat) : ({ s with now := x } : State).dir u = s.dir u := rfl
@[simp] theorem with_turns_tile (s : State) (x : Nat) (u : Nat) : ({ s with turns := x } : State).tile u = s.tile u := rfl
@[simp] theorem with_turns_ctxAt (s : State) (x : Nat) (u c : Nat) : ({ s with turns := x } : State).ctxAt u c = s.ctxAt u c := rfl
@[simp] theorem with_turns_ctx (s : State) (x : Nat) : ({ s with turns := x } : State).ctx  = s.ctx  := rfl
@[simp] theorem with_turns_dev (s : State) (x : Nat) (u : Nat) : ({ s with turns := x } : State).dev u = s.dev u := rfl
@[simp] theorem with_turns_dir (s : State) (x : Nat) (u : Nat) : ({ s with turns := x } : State).dir u = s.dir u := rfl
@[simp] theorem with_slots_tile (s : State) (x : List Nat) (u : Nat) : ({ s with slots := x } : State).tile u = s.tile u := rfl
@[simp] theorem with_slots_ctxAt (s : State) (x : List Nat) (u c : Nat) : ({ s with slots := x } : State).ctxAt u c = s.ctxAt u c := rfl
@[simp] theorem with_slots_ctx (s : State) (x : List Nat) : ({ s with slots := x } : State).ctx  = s.ctx  := rfl
@[simp] theorem with_slots_dev (s : State) (x : List Nat) (u : Nat) : ({ s with slots := x } : State).dev u = s.dev u := rfl
@[simp] theorem with_slots_dir (s : State) (x : List Nat) (u : Nat) : ({ s with slots := x } : State).dir u = s.dir u := rfl

theorem with_now_setCtx (s : State) (n : Nat) (k : Ctx) : ({ s with now := n } : State).setCtx k = { s.setCtx k with now := n } := rfl
theorem with_fate_setCtx (s : State) (n : Fate) (k : Ctx) : ({ s with fate := n } : State).setCtx k = { s.setCtx k with fate := n } := rfl

/-! ## State.issueAt -/

@[simp] theorem issueAt_mem (s : State) (n : Nat) : (s.issueAt n).mem = s.mem := rfl
@[simp] theorem issueAt_dirs (s : State) (n : Nat) : (s.issueAt n).dirs = s.dirs := rfl
@[simp] theorem issueAt_held (s : State) (n : Nat) : (s.issueAt n).held = s.held := rfl
@[simp] theorem issueAt_heldIds (s : State) (n : Nat) : (s.issueAt n).heldIds = s.heldIds := rfl
@[simp] theorem issueAt_present (s : State) (n : Nat) : (s.issueAt n).present = s.present := rfl
@[simp] theorem issueAt_devices (s : State) (n : Nat) : (s.issueAt n).devices = s.devices := rfl
@[simp] theorem issueAt_tiles (s : State) (n : Nat) : (s.issueAt n).tiles = s.tiles := rfl
@[simp] theorem issueAt_partitions (s : State) (n : Nat) : (s.issueAt n).partitions = s.partitions := rfl
@[simp] theorem issueAt_compacts (s : State) (n : Nat) : (s.issueAt n).compacts = s.compacts := rfl
@[simp] theorem issueAt_away (s : State) (n : Nat) : (s.issueAt n).away = s.away := rfl
@[simp] theorem issueAt_aonHolds (s : State) (n : Nat) : (s.issueAt n).aonHolds = s.aonHolds := rfl
@[simp] theorem issueAt_aonWaits (s : State) (n : Nat) : (s.issueAt n).aonWaits = s.aonWaits := rfl
@[simp] theorem issueAt_agenda (s : State) (n : Nat) : (s.issueAt n).agenda = s.agenda := rfl
@[simp] theorem issueAt_cur (s : State) (n : Nat) : (s.issueAt n).cur = s.cur := rfl
@[simp] theorem issueAt_cid (s : State) (n : Nat) : (s.issueAt n).cid = s.cid := rfl
@[simp] theorem issueAt_compute (s : State) (n : Nat) : (s.issueAt n).compute = s.compute := rfl
@[simp] theorem issueAt_fate (s : State) (n : Nat) : (s.issueAt n).fate = s.fate := rfl
@[simp] theorem issueAt_slots (s : State) (n : Nat) : (s.issueAt n).slots = s.slots := rfl
@[simp] theorem issueAt_ports (s : State) (n : Nat) : (s.issueAt n).ports = s.ports := rfl
@[simp] theorem issueAt_turns (s : State) (n : Nat) : (s.issueAt n).turns = s.turns := rfl
@[simp] theorem issueAt_now (s : State) (n : Nat) : (s.issueAt n).now = max s.now n := rfl
@[simp] theorem issueAt_tile (s : State) (n u : Nat) : (s.issueAt n).tile u = s.tile u := rfl
@[simp] theorem issueAt_ctx (s : State) (n : Nat) : (s.issueAt n).ctx = s.ctx := rfl
@[simp] theorem issueAt_dev (s : State) (n p : Nat) : (s.issueAt n).dev p = s.dev p := rfl
@[simp] theorem issueAt_dir (s : State) (n k : Nat) : (s.issueAt n).dir k = s.dir k := rfl

/-! ## State.flashTile -/

@[simp] theorem flashTile_mem (s : State) (t : Nat) : (s.flashTile t).mem = s.mem := rfl
@[simp] theorem flashTile_dirs (s : State) (t : Nat) : (s.flashTile t).dirs = s.dirs := rfl
@[simp] theorem flashTile_held (s : State) (t : Nat) : (s.flashTile t).held = s.held := rfl
@[simp] theorem flashTile_heldIds (s : State) (t : Nat) : (s.flashTile t).heldIds = s.heldIds := rfl
@[simp] theorem flashTile_present (s : State) (t : Nat) : (s.flashTile t).present = s.present := rfl
@[simp] theorem flashTile_devices (s : State) (t : Nat) : (s.flashTile t).devices = s.devices := rfl
@[simp] theorem flashTile_partitions (s : State) (t : Nat) : (s.flashTile t).partitions = s.partitions := rfl
@[simp] theorem flashTile_compacts (s : State) (t : Nat) : (s.flashTile t).compacts = s.compacts := rfl
@[simp] theorem flashTile_away (s : State) (t : Nat) : (s.flashTile t).away = s.away := rfl
@[simp] theorem flashTile_aonHolds (s : State) (t : Nat) : (s.flashTile t).aonHolds = s.aonHolds := rfl
@[simp] theorem flashTile_aonWaits (s : State) (t : Nat) : (s.flashTile t).aonWaits = s.aonWaits := rfl
@[simp] theorem flashTile_agenda (s : State) (t : Nat) : (s.flashTile t).agenda = s.agenda := rfl
@[simp] theorem flashTile_cur (s : State) (t : Nat) : (s.flashTile t).cur = s.cur := rfl
@[simp] theorem flashTile_cid (s : State) (t : Nat) : (s.flashTile t).cid = s.cid := rfl
@[simp] theorem flashTile_compute (s : State) (t : Nat) : (s.flashTile t).compute = s.compute := rfl
@[simp] theorem flashTile_fate (s : State) (t : Nat) : (s.flashTile t).fate = s.fate := rfl
@[simp] theorem flashTile_now (s : State) (t : Nat) : (s.flashTile t).now = s.now := rfl
@[simp] theorem flashTile_slots (s : State) (t : Nat) : (s.flashTile t).slots = s.slots := rfl
@[simp] theorem flashTile_ports (s : State) (t : Nat) : (s.flashTile t).ports = s.ports := rfl
@[simp] theorem flashTile_turns (s : State) (t : Nat) : (s.flashTile t).turns = s.turns := rfl
@[simp] theorem flashTile_dev (s : State) (t p : Nat) : (s.flashTile t).dev p = s.dev p := rfl
@[simp] theorem flashTile_dir (s : State) (t k : Nat) : (s.flashTile t).dir k = s.dir k := rfl

/-! ## State.modFabric -/

@[simp] theorem modFabric_mem (s : State) (p : Nat) (f : Fabric → Fabric) : (s.modFabric p f).mem = s.mem := rfl
@[simp] theorem modFabric_dirs (s : State) (p : Nat) (f : Fabric → Fabric) : (s.modFabric p f).dirs = s.dirs := rfl
@[simp] theorem modFabric_held (s : State) (p : Nat) (f : Fabric → Fabric) : (s.modFabric p f).held = s.held := rfl
@[simp] theorem modFabric_heldIds (s : State) (p : Nat) (f : Fabric → Fabric) : (s.modFabric p f).heldIds = s.heldIds := rfl
@[simp] theorem modFabric_present (s : State) (p : Nat) (f : Fabric → Fabric) : (s.modFabric p f).present = s.present := rfl
@[simp] theorem modFabric_tiles (s : State) (p : Nat) (f : Fabric → Fabric) : (s.modFabric p f).tiles = s.tiles := rfl
@[simp] theorem modFabric_partitions (s : State) (p : Nat) (f : Fabric → Fabric) : (s.modFabric p f).partitions = s.partitions := rfl
@[simp] theorem modFabric_compacts (s : State) (p : Nat) (f : Fabric → Fabric) : (s.modFabric p f).compacts = s.compacts := rfl
@[simp] theorem modFabric_away (s : State) (p : Nat) (f : Fabric → Fabric) : (s.modFabric p f).away = s.away := rfl
@[simp] theorem modFabric_aonHolds (s : State) (p : Nat) (f : Fabric → Fabric) : (s.modFabric p f).aonHolds = s.aonHolds := rfl
@[simp] theorem modFabric_aonWaits (s : State) (p : Nat) (f : Fabric → Fabric) : (s.modFabric p f).aonWaits = s.aonWaits := rfl
@[simp] theorem modFabric_agenda (s : State) (p : Nat) (f : Fabric → Fabric) : (s.modFabric p f).agenda = s.agenda := rfl
@[simp] theorem modFabric_cur (s : State) (p : Nat) (f : Fabric → Fabric) : (s.modFabric p f).cur = s.cur := rfl
@[simp] theorem modFabric_cid (s : State) (p : Nat) (f : Fabric → Fabric) : (s.modFabric p f).cid = s.cid := rfl
@[simp] theorem modFabric_compute (s : State) (p : Nat) (f : Fabric → Fabric) : (s.modFabric p f).compute = s.compute := rfl
@[simp] theorem modFabric_fate (s : State) (p : Nat) (f : Fabric → Fabric) : (s.modFabric p f).fate = s.fate := rfl
@[simp] theorem modFabric_now (s : State) (p : Nat) (f : Fabric → Fabric) : (s.modFabric p f).now = s.now := rfl
@[simp] theorem modFabric_slots (s : State) (p : Nat) (f : Fabric → Fabric) : (s.modFabric p f).slots = s.slots := rfl
@[simp] theorem modFabric_ports (s : State) (p : Nat) (f : Fabric → Fabric) : (s.modFabric p f).ports = s.ports := rfl
@[simp] theorem modFabric_turns (s : State) (p : Nat) (f : Fabric → Fabric) : (s.modFabric p f).turns = s.turns := rfl
@[simp] theorem modFabric_tile (s : State) (p : Nat) (f : Fabric → Fabric) (u : Nat) : (s.modFabric p f).tile u = s.tile u := rfl
@[simp] theorem modFabric_ctx (s : State) (p : Nat) (f : Fabric → Fabric) : (s.modFabric p f).ctx = s.ctx := rfl
@[simp] theorem modFabric_dir (s : State) (p : Nat) (f : Fabric → Fabric) (k : Nat) : (s.modFabric p f).dir k = s.dir k := rfl
@[simp] theorem modFabric_fabric (s : State) (p : Nat) (f : Fabric → Fabric) : ((s.modFabric p f).dev p).fabric = f (s.dev p).fabric := by
  simp [State.modFabric]

/-! ## The flash of an acquire (R81) -/

@[simp] theorem flash_own (x : Tile) : x.flash.lines.map (fun l => l.own) = x.lines.map (fun l => l.own) := by
  simp [Tile.flash, Function.comp_def]
@[simp] theorem flash_pins (x : Tile) : x.flash.pins = x.pins := rfl
@[simp] theorem flash_ctxs (x : Tile) : x.flash.ctxs = x.ctxs := rfl

/-! ## The scalar registers of a context -/

@[simp] theorem sreg_zero (k : Ctx) : k.sreg 0 = 0 := by simp [Ctx.sreg]

theorem getD_setIfInBounds {n : Nat} (v : Vector α n) (i j : Nat) (x d : α) (hi : i < n) :
    (v.setIfInBounds i x).getD j d = if j = i then x else v.getD j d := by
  rcases v with ⟨⟨l⟩, h⟩
  simp only [Vector.getD, Vector.setIfInBounds, Array.getD]
  simp only [List.size_toArray] at h
  by_cases hj : j < l.length
  · by_cases e : j = i
    · subst e; simp [hj]
    · simp [hj, e, Ne.symm e]
  · have : j ≠ i := by omega
    simp [hj, this]

/-- Writing s[r] writes it and no other register; s0 is never written (R128). -/
theorem setSreg_sreg (k : Ctx) (d r : BitVec 5) (v : Word) : (k.setSreg d v).sreg r = if r = d ∧ r ≠ 0 then v else k.sreg r := by
  unfold Ctx.setSreg Ctx.sreg
  by_cases hd : d = 0
  · subst hd; simp
  · simp only [hd, if_false]
    by_cases hr : r = 0
    · simp [hr]
    · have : d.toNat < 32 := d.isLt
      rw [getD_setIfInBounds _ _ _ _ _ this]
      simp only [hr, if_false, BitVec.toNat_inj, ne_eq, not_false_iff, and_true]

end Sys2Proof.Machine
end

