-- ==== Sys2Proof/Laws/Scalar.lean ====
section
/-! SUPPORT. What the shared operations on scalar registers do when they complete, and when they stop. -/
namespace Sys2Proof.Machine

/-! ## Meanings in sequence -/

theorem bind_run (x : M α) (f : α → M β) (s : State) :
    (x >>= f) s = match x s with
      | .ok (a, s') => f a s'
      | .error e => .error e := by
  simp only [bind, StateT.bind, Except.bind]
  cases x s <;> rfl

theorem pure_run (a : α) (s : State) : (pure a : M α) s = .ok (a, s) := rfl
theorem getC_run (s : State) : getC s = .ok (s.ctx, s) := rfl
theorem getT_run (s : State) : getT s = .ok (s.tile s.cur, s) := rfl
theorem get_run (s : State) : (get : M State) s = .ok (s, s) := rfl
theorem set_run (s t : State) : (set t : M PUnit) s = .ok (⟨⟩, t) := rfl
theorem upd_run (f : State → State) (s : State) : upd f s = .ok ((), f s) := rfl
theorem ask_run (f : State → α) (s : State) : ask f s = .ok (f s, s) := rfl
theorem modC_run (f : Ctx → Ctx) (s : State) : modC f s = .ok ((), s.setCtx (f s.ctx)) := rfl
theorem modT_run (f : Tile → Tile) (s : State) : modT f s = .ok ((), s.modTile s.cur f) := rfl
theorem trap_run (c : BitVec 8) (v : Word) (s : State) : (trap c v : M α) s = .error (.trap c v) := rfl
theorem trapKeep_run (c : BitVec 8) (v : Word) (s : State) : (trapKeep c v : M α) s = .error (.trapWith c v s) := rfl
theorem wait_run (s : State) : (wait : M α) s = .error .wait := rfl
theorem waitKeep_run (s : State) : (waitKeep : M α) s = .error (.waitWith s) := rfl
theorem need_true (c : BitVec 8) (v : Word) (s : State) : need true c v s = .ok ((), s) := rfl
theorem need_false (c : BitVec 8) (v : Word) (s : State) : need false c v s = .error (.trap c v) := rfl
theorem raise_run (f : BitVec 11) (s : State) : raise f s = .ok ((), s.flagged f) := rfl
theorem inHelper_run (s : State) : inHelper s = .ok (decide (s.cid ≠ 0), s) := rfl

/-- A meaning that completes gives a next state. -/
theorem finish_ok {m : M Unit} {s t : State} (h : m s = .ok ((), t)) : finish m s = .next { t with fate := .done } := by
  simp [finish, h, settleStop]

/-- A meaning that traps takes the trap. -/
theorem finish_trap {m : M Unit} {s : State} {c : BitVec 8} {v : Word} (h : m s = .error (.trap c v)) :
    finish m s = .next (s.takeTrap c v none) := by
  simp [finish, h, settleStop]

/-- A meaning that waits is tried again; what it has changed on the way stays. -/
theorem finish_wait {m : M Unit} {s : State} (h : m s = .error .wait) : finish m s = .next { s with fate := .waited } := by
  simp [finish, h, settleStop]
theorem finish_waitWith {m : M Unit} {s t : State} (h : m s = .error (.waitWith t)) : finish m s = .next { t with fate := .waited } := by
  simp [finish, h, settleStop]

/-- An event is done in the state that it gives. -/
theorem happen_run (f : State → State) (s : State) : happen f s = .next { f s with fate := .done } := rfl

/-- Privilege (R198), and the groups that a helper may not run (R275). -/
theorem supervisor_ok {s : State} (h : s.ctx.priv = true) : supervisor s = .ok ((), s) := by
  simp [supervisor, bind_run, getC_run, h, need_true]
theorem supervisor_user {s : State} (h : s.ctx.priv = false) : supervisor s = .error (.trap cPRIV s.ctx.unit) := by
  simp [supervisor, bind_run, getC_run, h, need_false]
theorem notHelper_control {s : State} (g : Word) (h : s.cid = 0) : notHelper g s = .ok ((), s) := by
  simp [notHelper, bind_run, inHelper_run, h, pure_run]
theorem notHelper_helper {s : State} (g : Word) (h : s.cid ≠ 0) : notHelper g s = .error (.trap cILLEGAL g) := by
  simp [notHelper, bind_run, inHelper_run, h, trap_run]

/-- A blocking instruction whose condition fails (R214). -/
theorem block_control {s : State} (v : Word) (h : s.cid = 0) : (block v : M α) s = .error .wait := by
  simp [block, bind_run, inHelper_run, h, wait_run]
theorem block_helper {s : State} (v : Word) (h : s.cid ≠ 0) : (block v : M α) s = .error (.trap cHELPERWAIT v) := by
  simp [block, bind_run, inHelper_run, h, trap_run]

theorem flash_run (s : State) : flash s = .ok ((), s.flashTile s.cur) := rfl
theorem modF_run (f : Fabric → Fabric) (s : State) : modF f s = .ok ((), s.modFabric (pkgOf s.cur) f) := rfl

/-- With no acquire whose value is still out, a later access goes on (R229). -/
theorem acquired_run {s : State} (h : (s.ctx.pend.any fun l => l.acq) = false) : acquired s = .ok ((), s) := by
  simp only [acquired, bind_run, get_run, h]
  rfl

/-! ## Reading and writing registers -/

/-- t is s after operands have been read: the clock is at n, and nothing else has moved. -/
structure State.Issued (s t : State) (n : Nat) : Prop where
  rest : t.setCtx t.ctx = { s.setCtx t.ctx with now := n }
  own : t.ctx = s.ctx

theorem issued_refl (s : State) : s.Issued s s.now := ⟨rfl, rfl⟩

/-- What t holds besides the current context is what s holds. -/
theorem State.Issued.fields {s t : State} {n : Nat} (h : s.Issued t n) :
    t.now = n ∧ t.compute = s.compute ∧ t.cur = s.cur ∧ t.cid = s.cid ∧ t.mem = s.mem ∧ t.fate = s.fate := by
  have h1 := h.rest
  refine ⟨?_, ?_, ?_, ?_, ?_, ?_⟩
  · have := congrArg State.now h1; exact this
  · have := congrArg State.compute h1; exact this
  · have := congrArg State.cur h1; exact this
  · have := congrArg State.cid h1; exact this
  · have := congrArg State.mem h1; exact this
  · have := congrArg State.fate h1; exact this

theorem State.Issued.sreg {s t : State} {n : Nat} (h : s.Issued t n) (r : BitVec 5) : t.ctx.sreg r = s.ctx.sreg r := by
  rw [h.own]
theorem State.Issued.sready {s t : State} {n : Nat} (h : s.Issued t n) : t.ctx.sready = s.ctx.sready := by rw [h.own]
theorem State.Issued.readable {s t : State} {n : Nat} (h : s.Issued t n) (r : BitVec 5) : t.ctx.readable r = s.ctx.readable r := by
  rw [h.own]
theorem State.Issued.pendingReg {s t : State} {n : Nat} (h : s.Issued t n) (r : BitVec 5) : t.ctx.pendingReg r = s.ctx.pendingReg r := by
  rw [h.own]
theorem State.Issued.upc {s t : State} {n : Nat} (h : s.Issued t n) : t.ctx.upc = s.ctx.upc := by rw [h.own]

theorem State.Issued.setCtx {s t : State} {n : Nat} (h : s.Issued t n) (k : Ctx) : t.setCtx k = { s.setCtx k with now := n } := by
  have := congrArg (fun u : State => u.setCtx k) h.rest
  simp only [setCtx_setCtx, with_now_setCtx] at this
  exact this

theorem State.Issued.issueAt {s t : State} {n m : Nat} (h : s.Issued t n) : s.Issued (t.issueAt m) (max n m) := by
  constructor
  · show ({ t.setCtx t.ctx with now := max t.now m } : State) = _
    rw [h.setCtx, h.fields.1]; rfl
  · exact h.own

/-- Reading a register that can be read gives its value, once it is ready. -/
theorem rs_run {s t : State} {n : Nat} (h : s.Issued t n) {r : BitVec 5} (hr : s.ctx.readable r = true) :
    ∃ u, rs r t = .ok (s.ctx.sreg r, u) ∧ s.Issued u (max n (s.ctx.sready.getD r.toNat 0)) := by
  refine ⟨t.issueAt (t.ctx.sready.getD r.toNat 0), ?_, ?_⟩
  · have hr' := h.readable r
    rw [hr] at hr'
    have : (t.ctx.pendingReg r && !t.ctx.trust) = false := by
      unfold Ctx.readable at hr'
      revert hr'; cases t.ctx.pendingReg r <;> cases t.ctx.trust <;> simp
    simp only [rs, bind_run, getC_run, this, Bool.false_eq_true, if_false, upd_run, pure_run, h.sreg]
  · rw [h.sready]; exact h.issueAt

/-- An early read under STRICT traps (R140, R142). -/
theorem rs_early {s : State} {r : BitVec 5} (h : s.ctx.readable r = false) : rs r s = .error (.trap cEARLYREAD (zext r)) := by
  have : (s.ctx.pendingReg r && !s.ctx.trust) = true := by
    unfold Ctx.readable at h
    revert h; cases s.ctx.pendingReg r <;> cases s.ctx.trust <;> simp
  simp only [rs, bind_run, getC_run, this, if_true, trap_run]

theorem writeSreg_fields (k : Ctx) (c : Bool) (d : BitVec 5) (v : Word) :
    k.writeSreg c d v = { k with sregs := (k.setSreg d v).sregs, backlog := (k.writeSreg c d v).backlog } := by
  unfold Ctx.writeSreg Ctx.setSreg
  split
  · rfl
  · split <;> rfl

theorem writeSreg_backlog (k : Ctx) (c : Bool) (d : BitVec 5) (v : Word) : (k.writeSreg c d v).backlogButRegs = k.backlogButRegs := by
  unfold Ctx.writeSreg Ctx.setSreg Ctx.backlogButRegs
  split
  · rfl
  · split
    · simp
    · rfl

theorem writeSreg_backlog_address (k : Ctx) (d : BitVec 5) (v : Word) : (k.writeSreg false d v).backlog = k.backlog := by
  unfold Ctx.writeSreg Ctx.setSreg
  split <;> rfl

theorem writeSreg_sreg (k : Ctx) (c : Bool) (d r : BitVec 5) (v : Word) :
    (k.writeSreg c d v).sreg r = if r = d ∧ r ≠ 0 then v else k.sreg r := by
  rw [← setSreg_sreg, writeSreg_fields]; rfl

/-- Writing a register that no pending load names (R128, R141). -/
theorem wsLat_run {s t : State} {n : Nat} (h : s.Issued t n) (lat : Nat) {d : BitVec 5} (v : Word) (hd : s.ctx.pendingReg d = false) :
    ∃ u, wsLat lat d v t = .ok ((), u) ∧ s.wrote { u with fate := .done } n lat d v := by
  have hf := h.fields
  by_cases h0 : d = 0
  · subst h0
    refine ⟨t, by simp [wsLat, pure_run], ?_⟩
    have e : ({ t with fate := .done } : State).ctx = t.ctx := rfl
    refine ⟨?_, ?_, ?_, ?_, ?_⟩
    · unfold State.elseAs; rw [e, with_fate_setCtx, h.setCtx]
    · rw [e, h.own]
    · rw [e, h.own]
    · rw [e, h.own]; intro _; rfl
    · intro r; rw [e, h.sreg, h.sready]
      have hr : ¬ (r = 0 ∧ r ≠ 0) := fun q => q.2 q.1
      rw [if_neg hr, if_neg hr]; exact ⟨rfl, rfl⟩
  · refine ⟨t.setCtx { t.ctx.writeSreg t.compute d v with sready := t.ctx.sready.setIfInBounds d.toNat (t.now + lat) }, ?_, ?_⟩
    · have : t.ctx.pendingReg d = false := by rw [h.pendingReg, hd]
      simp only [wsLat, h0, if_false, bind_run, getC_run, this]
      rfl
    · have e : ∀ k, ({ t.setCtx k with fate := .done } : State).ctx = k := fun k => setCtx_ctx t k
      have f := writeSreg_fields t.ctx t.compute d v
      refine ⟨?_, ?_, ?_, ?_, ?_⟩
      · unfold State.elseAs; rw [e, with_fate_setCtx, setCtx_setCtx, h.setCtx]
      · rw [e, f, h.own]
      · rw [e]
        show (t.ctx.writeSreg t.compute d v).backlogButRegs = _
        rw [writeSreg_backlog, h.own]
      · intro hc; rw [e]
        show (t.ctx.writeSreg t.compute d v).backlog = _
        rw [hf.2.1, hc, writeSreg_backlog_address, h.own]
      · intro r; rw [e]
        constructor
        · show (t.ctx.writeSreg t.compute d v).sreg r = _
          rw [writeSreg_sreg, h.sreg]
        · show (t.ctx.sready.setIfInBounds d.toNat (t.now + lat)).getD r.toNat 0 = _
          rw [getD_setIfInBounds _ _ _ _ _ d.isLt, h.sready, hf.1]
          by_cases q : r = d
          · subst q; rw [if_pos rfl, if_pos ⟨rfl, h0⟩]
          · have : r.toNat ≠ d.toNat := fun q' => q (BitVec.eq_of_toNat_eq q')
            simp [q, this]

/-! ## The scalar operations -/

theorem canRun_cons {s : State} {r d : BitVec 5} {ops : List (BitVec 5)} (h : s.canRun (r :: ops) d = true) :
    s.ctx.readable r = true ∧ s.canRun ops d = true := by
  simp [State.canRun, and_assoc] at h ⊢; exact h

theorem canRun_nil {s : State} {d : BitVec 5} (h : s.canRun [] d = true) : s.ctx.pendingReg d = false := by
  simpa [State.canRun] using h

/-- An operation on two registers (R215). -/
theorem alu_run {s : State} (lat : Nat) (f : CR) (op : Word → Word → Word) (h : s.canRun [f.a, f.b] f.d = true) :
    ∃ t, finish (alu lat f op) s = .next t ∧
      s.wrote t (s.issueCycle [f.a, f.b]) lat f.d (op (s.ctx.sreg f.a) (s.ctx.sreg f.b)) := by
  obtain ⟨ha, h⟩ := canRun_cons h
  obtain ⟨hb, h⟩ := canRun_cons h
  obtain ⟨u, e1, i1⟩ := rs_run (issued_refl s) ha
  obtain ⟨w, e2, i2⟩ := rs_run i1 hb
  obtain ⟨x, e3, i3⟩ := wsLat_run i2 lat (op (s.ctx.sreg f.a) (s.ctx.sreg f.b)) (canRun_nil h)
  refine ⟨_, finish_ok (t := x) ?_, i3⟩
  simp only [alu, bind_run, e1, e2, e3]

/-- An immediate operation (R218). -/
theorem aluImm_run {s : State} (f : CI) (op : Word → Word → Word) (h : s.canRun [f.a] f.d = true) :
    ∃ t, finish (aluImm f op) s = .next t ∧ s.wrote t (s.issueCycle [f.a]) 1 f.d (op (s.ctx.sreg f.a) (sext f.imm)) := by
  obtain ⟨ha, h⟩ := canRun_cons h
  obtain ⟨u, e1, i1⟩ := rs_run (issued_refl s) ha
  obtain ⟨x, e3, i3⟩ := wsLat_run i1 1 (op (s.ctx.sreg f.a) (sext f.imm)) (canRun_nil h)
  refine ⟨_, finish_ok (t := x) ?_, i3⟩
  simp only [aluImm, ws, bind_run, e1, e3]

/-- A shift by an immediate count (R218). -/
theorem shiftImm_run {s : State} (f : CI) (op : Word → Nat → Word) (h : s.canRun [f.a] f.d = true) :
    ∃ t, finish (shiftImm f op) s = .next t ∧ s.wrote t (s.issueCycle [f.a]) 1 f.d (op (s.ctx.sreg f.a) f.imm.toNat) := by
  obtain ⟨ha, h⟩ := canRun_cons h
  obtain ⟨u, e1, i1⟩ := rs_run (issued_refl s) ha
  obtain ⟨x, e3, i3⟩ := wsLat_run i1 1 (op (s.ctx.sreg f.a) f.imm.toNat) (canRun_nil h)
  refine ⟨_, finish_ok (t := x) ?_, i3⟩
  simp only [shiftImm, ws, bind_run, e1, e3]

end Sys2Proof.Machine
end

