-- ==== Sys2Proof/Tests/Slice0.lean ====
section
/-! SUPPORT. Tests: words of the encoding tables and the instructions they stand for, ill-formed terms that the checks refuse, single
steps whose results the spec states, and for each statement states that meet its hypotheses. -/
open Sys2Proof Sys2Proof.Machine
namespace Sys2Proof.Tests
/- One theorem after the other: each is checked before the next is read. -/
set_option Elab.async false

/-! ## Decoding: for each row of the opcode table one word, its fixed bits and its fields as the table places them -/

theorem test_decode_cword0 : ∀ p ∈ ([
    (0x00000000, .cnop), (0x01190A00, .add ⟨false, 3, 4, 5⟩), (0x01190A01, .sub ⟨false, 3, 4, 5⟩),
    (0x01190A02, .and ⟨false, 3, 4, 5⟩), (0x01190A03, .or ⟨false, 3, 4, 5⟩), (0x01190A04, .xor ⟨false, 3, 4, 5⟩),
    (0x01190A05, .andn ⟨false, 3, 4, 5⟩), (0x01190A06, .shl ⟨false, 3, 4, 5⟩), (0x01190A07, .shr ⟨false, 3, 4, 5⟩),
    (0x01190A08, .sar ⟨false, 3, 4, 5⟩), (0x01190A09, .mul ⟨false, 3, 4, 5⟩), (0x01190A0A, .mulh ⟨false, 3, 4, 5⟩),
    (0x01190A0B, .mulhu ⟨false, 3, 4, 5⟩), (0x01190A0C, .div ⟨false, 3, 4, 5⟩), (0x01190A0D, .divu ⟨false, 3, 4, 5⟩),
    (0x01190A0E, .rem ⟨false, 3, 4, 5⟩), (0x01190A0F, .remu ⟨false, 3, 4, 5⟩), (0x01190A10, .min ⟨false, 3, 4, 5⟩),
    (0x01190A11, .max ⟨false, 3, 4, 5⟩), (0x01190A12, .minu ⟨false, 3, 4, 5⟩), (0x01190A13, .maxu ⟨false, 3, 4, 5⟩),
    (0x01190A14, .slt ⟨false, 3, 4, 5⟩), (0x01190A15, .sltu ⟨false, 3, 4, 5⟩), (0x01190A16, .seq ⟨false, 3, 4, 5⟩),
    (0x01190017, .clz ⟨false, 3, 4, 0⟩), (0x01190018, .ctz ⟨false, 3, 4, 0⟩), (0x01190019, .popc ⟨false, 3, 4, 0⟩),
    (0x01190A1A, .csel ⟨false, 3, 4, 5⟩), (0x01190A1B, .padd ⟨false, 3, 4, 5⟩), (0x01190A1C, .psub ⟨false, 3, 4, 5⟩)] :
    List (BitVec 32 × Instr)), decodeC p.1 = some p.2 := by decide +kernel

theorem test_decode_cword1 : ∀ p ∈ ([
    (0x01190A1D, .bfx ⟨false, 3, 4, 5⟩), (0x02190155, .addi ⟨false, 3, 4, 341⟩), (0x03190155, .andi ⟨false, 3, 4, 341⟩),
    (0x04190155, .ori ⟨false, 3, 4, 341⟩), (0x05190155, .xori ⟨false, 3, 4, 341⟩), (0x06190155, .slti ⟨false, 3, 4, 341⟩),
    (0x07190155, .sltiu ⟨false, 3, 4, 341⟩), (0x08190009, .shli ⟨false, 3, 4, 9⟩), (0x09190009, .shri ⟨false, 3, 4, 9⟩),
    (0x0A190009, .sari ⟨false, 3, 4, 9⟩), (0x0B190155, .paddi ⟨false, 3, 4, 341⟩), (0x0C190228, .ptag ⟨false, 3, 4, 552⟩),
    (0x0D21402A, .beq ⟨false, 4, 5, 42⟩), (0x0E21402A, .bne ⟨false, 4, 5, 42⟩), (0x0F21402A, .blt ⟨false, 4, 5, 42⟩),
    (0x1021402A, .bge ⟨false, 4, 5, 42⟩), (0x1121402A, .bltu ⟨false, 4, 5, 42⟩), (0x1221402A, .bgeu ⟨false, 4, 5, 42⟩),
    (0x1320002A, .loop ⟨false, 4, 0, 42⟩), (0x14190155, .jr ⟨false, 3, 4, 341⟩), (0x1519102A, .ldl ⟨false, 3, 4, 2, 42⟩),
    (0x1619102A, .stl ⟨false, 3, 4, 2, 42⟩), (0x1719102A, .ldg ⟨false, 3, 4, 2, 42⟩), (0x1819102A, .stg ⟨false, 3, 4, 2, 42⟩),
    (0x1919202A, .ldacq ⟨false, 3, 4, 4, 42⟩), (0x1A19302A, .strel ⟨false, 3, 4, 6, 42⟩), (0x1B190A04, .amoadd ⟨false, 3, 4, 5, 1, 0⟩),
    (0x1B190A14, .amoand ⟨false, 3, 4, 5, 1, 0⟩), (0x1B190A24, .amoor ⟨false, 3, 4, 5, 1, 0⟩), (0x1B190A34, .amoxor ⟨false, 3, 4, 5, 1, 0⟩)] :
    List (BitVec 32 × Instr)), decodeC p.1 = some p.2 := by decide +kernel

theorem test_decode_cword2 : ∀ p ∈ ([
    (0x1B190A44, .amomin ⟨false, 3, 4, 5, 1, 0⟩), (0x1B190A54, .amomax ⟨false, 3, 4, 5, 1, 0⟩), (0x1B190A64, .amominu ⟨false, 3, 4, 5, 1, 0⟩),
    (0x1B190A74, .amomaxu ⟨false, 3, 4, 5, 1, 0⟩), (0x1B190A84, .amoswp ⟨false, 3, 4, 5, 1, 0⟩), (0x1B190A94, .amocas ⟨false, 3, 4, 5, 1, 0⟩),
    (0x1B190AA4, .amofadd ⟨false, 3, 4, 5, 1, 0⟩), (0x1B190AB4, .amofmax ⟨false, 3, 4, 5, 1, 0⟩), (0x1C000000, .acq ⟨false, 0, 0, 0, 0⟩),
    (0x1C000020, .rel ⟨false, 0, 0, 0, 0⟩), (0x1C000040, .fence ⟨false, 0, 0, 0, 0⟩), (0x1D000009, .qwait ⟨false, 0, 0, 0, 9⟩),
    (0x1E010002, .mbw ⟨false, 0, 4, 0, 2⟩), (0x1E180A22, .mbr ⟨false, 3, 0, 5, 2⟩), (0x1E180042, .mbtest ⟨false, 3, 0, 0, 2⟩),
    (0x61000041, .tfence 65), (0x22010A09, .binit ⟨false, 0, 4, 5, 9⟩), (0x22190A30, .bexpect ⟨false, 3, 4, 5, 16⟩),
    (0x22010050, .barrive ⟨false, 0, 4, 0, 16⟩), (0x2200006F, .bwait ⟨false, 0, 0, 0, 15⟩), (0x22190A90, .btest ⟨false, 3, 4, 5, 16⟩),
    (0x221900A0, .bwany ⟨false, 3, 4, 0, 0⟩), (0x23190A01, .chtest ⟨false, 3, 4, 5, 1⟩), (0x23010A21, .chwait ⟨false, 0, 4, 5, 1⟩),
    (0x23010A41, .chclr ⟨false, 0, 4, 5, 1⟩), (0x24180205, .lsalloc ⟨false, 3, 0, 1, 5⟩), (0x24010020, .lsfree ⟨false, 0, 4, 0, 0⟩),
    (0x25180407, .pmint ⟨false, 3, 0, 2, 7⟩), (0x25010020, .pdrop ⟨false, 0, 4, 0, 0⟩), (0x25190040, .pstat ⟨false, 3, 4, 0, 0⟩)] :
    List (BitVec 32 × Instr)), decodeC p.1 = some p.2 := by decide +kernel

theorem test_decode_cword3 : ∀ p ∈ ([
    (0x26190002, .cpych ⟨false, 3, 4, 0, 2⟩), (0x26180022, .cpystat ⟨false, 3, 0, 0, 2⟩), (0x26000042, .cpywait ⟨false, 0, 0, 0, 2⟩),
    (0x26000062, .cpykill ⟨false, 0, 0, 0, 2⟩), (0x27190205, .trkset ⟨false, 3, 4, 1, 5⟩), (0x27180225, .trkclr ⟨false, 3, 0, 1, 5⟩),
    (0x28190A0A, .hstart ⟨false, 3, 4, 5, 10⟩), (0x28000020, .hend ⟨false, 0, 0, 0, 0⟩), (0x28190040, .hjoin ⟨false, 3, 4, 0, 0⟩),
    (0x28010060, .hkill ⟨false, 0, 4, 0, 0⟩), (0x28190A8A, .taskq ⟨false, 3, 4, 5, 10⟩), (0x29190000, .gfuse ⟨false, 3, 4, 0, 0⟩),
    (0x29000020, .gsplit ⟨false, 0, 0, 0, 0⟩), (0x2A190000, .csign ⟨false, 3, 4, 0, 0⟩), (0x2A190020, .cstep ⟨false, 3, 4, 0, 0⟩),
    (0x2A180040, .cdiss ⟨false, 3, 0, 0, 0⟩), (0x2B190A00, .send ⟨false, 3, 4, 5, 0⟩), (0x2B190020, .recv ⟨false, 3, 4, 0, 0⟩),
    (0x2B190A40, .recvt ⟨false, 3, 4, 5, 0⟩), (0x2C190000, .coll ⟨false, 3, 4, 0, 0⟩), (0x2C190020, .cwait ⟨false, 3, 4, 0, 0⟩),
    (0x2D000000, .mbegin ⟨false, 0, 0, 0, 0⟩), (0x2D000020, .mend ⟨false, 0, 0, 0, 0⟩), (0x2D000041, .mzero ⟨false, 0, 0, 0, 1⟩),
    (0x2D000060, .msync ⟨false, 0, 0, 0, 0⟩), (0x2E000009, .ecall ⟨false, 0, 0, 0, 9⟩), (0x2E000020, .eret ⟨false, 0, 0, 0, 0⟩),
    (0x2E180041, .sysr ⟨false, 3, 0, 0, 1⟩), (0x2E010062, .sysw ⟨false, 0, 4, 0, 2⟩), (0x2E000080, .waiti ⟨false, 0, 0, 0, 0⟩)] :
    List (BitVec 32 × Instr)), decodeC p.1 = some p.2 := by decide +kernel

theorem test_decode_cword4 : ∀ p ∈ ([
    (0x2E0000A0, .yield ⟨false, 0, 0, 0, 0⟩), (0x2E0000C9, .brk ⟨false, 0, 0, 0, 9⟩), (0x2E0000E0, .halt ⟨false, 0, 0, 0, 0⟩),
    (0x2E000100, .snap ⟨false, 0, 0, 0, 0⟩), (0x2F010A00, .tlbinv ⟨false, 0, 4, 5, 0⟩), (0x2F180034, .resize ⟨false, 3, 0, 0, 20⟩),
    (0x2F010040, .lineclr ⟨false, 0, 4, 0, 0⟩), (0x2F010060, .cwb ⟨false, 0, 4, 0, 0⟩), (0x2F010080, .cinv ⟨false, 0, 4, 0, 0⟩),
    (0x30190000, .ctxsave ⟨false, 3, 4, 0, 0⟩), (0x30190020, .ctxload ⟨false, 3, 4, 0, 0⟩), (0x30190040, .preempt ⟨false, 3, 4, 0, 0⟩),
    (0x31180001, .kget ⟨false, 3, 0, 0, 1⟩), (0x31010021, .kset ⟨false, 0, 4, 0, 1⟩), (0x1F11102A, .vld ⟨false, 2, 4, 2, 42⟩),
    (0x2001102A, .vsta ⟨false, 0, 4, 2, 42⟩)] :
    List (BitVec 32 × Instr)), decodeC p.1 = some p.2 := by decide +kernel

theorem test_decode_aword0 : ∀ p ∈ ([
    (0x40000000, .anop 2), (0x40C13515, .vadd ⟨2, 2, 0, 19, 20, 21⟩), (0x41413515, .vsub ⟨2, 2, 0, 19, 20, 21⟩),
    (0x41C13515, .vmul ⟨2, 2, 0, 19, 20, 21⟩), (0x42413515, .vmulh ⟨2, 2, 0, 19, 20, 21⟩), (0x42C13515, .vmin ⟨2, 2, 0, 19, 20, 21⟩),
    (0x43413515, .vmax ⟨2, 2, 0, 19, 20, 21⟩), (0x43C13515, .vand ⟨2, 2, 0, 19, 20, 21⟩), (0x44413515, .vor ⟨2, 2, 0, 19, 20, 21⟩),
    (0x44C13515, .vxor ⟨2, 2, 0, 19, 20, 21⟩), (0x45413515, .vandn ⟨2, 2, 0, 19, 20, 21⟩), (0x45C13515, .vshl ⟨2, 2, 0, 19, 20, 21⟩),
    (0x46413515, .vshr ⟨2, 2, 0, 19, 20, 21⟩), (0x46C13515, .vsar ⟨2, 2, 0, 19, 20, 21⟩), (0x47413538, .vabs ⟨2, 2, 0, 19, 20, 56⟩),
    (0x47C13538, .vclz ⟨2, 2, 0, 19, 20, 56⟩), (0x48413538, .vpopc ⟨2, 2, 0, 19, 20, 56⟩), (0x48C13515, .vadds ⟨2, 2, 0, 19, 20, 21⟩),
    (0x49413515, .vsubs ⟨2, 2, 0, 19, 20, 21⟩), (0x49C93515, .vfadd ⟨2, 2, 2, 19, 20, 21⟩), (0x4A493515, .vfsub ⟨2, 2, 2, 19, 20, 21⟩),
    (0x4AC93515, .vfmul ⟨2, 2, 2, 19, 20, 21⟩), (0x4B493515, .vfma ⟨2, 2, 2, 19, 20, 21⟩), (0x4BC93515, .vfmin ⟨2, 2, 2, 19, 20, 21⟩),
    (0x4C493515, .vfmax ⟨2, 2, 2, 19, 20, 21⟩), (0x4CC93538, .vrcp ⟨2, 2, 2, 19, 20, 56⟩), (0x4D493538, .vrsq ⟨2, 2, 2, 19, 20, 56⟩),
    (0x4DC93538, .vexp2 ⟨2, 2, 2, 19, 20, 56⟩), (0x4E493538, .vlog2 ⟨2, 2, 2, 19, 20, 56⟩), (0x4EC93538, .vsqrt ⟨2, 2, 2, 19, 20, 56⟩)] :
    List (BitVec 32 × Instr)), decodeA p.1 = some p.2 := by decide +kernel

theorem test_decode_aword1 : ∀ p ∈ ([
    (0x4F413515, .vcvt ⟨2, 2, 0, 19, 20, 21⟩), (0x4F4804D5, .vcvtNarrow ⟨2, 2, 2, 0, 19, 21⟩), (0x4FC13515, .vceq ⟨2, 2, 0, 19, 20, 21⟩),
    (0x50413515, .vcne ⟨2, 2, 0, 19, 20, 21⟩), (0x50C13515, .vclt ⟨2, 2, 0, 19, 20, 21⟩), (0x51413515, .vcle ⟨2, 2, 0, 19, 20, 21⟩),
    (0x51C13515, .vsel ⟨2, 2, 0, 19, 20, 21⟩), (0x52413538, .vrsum ⟨2, 2, 0, 19, 20, 56⟩), (0x52C13538, .vrmax ⟨2, 2, 0, 19, 20, 56⟩),
    (0x53413538, .vrmin ⟨2, 2, 0, 19, 20, 56⟩), (0x53C13515, .vshuf ⟨2, 2, 0, 19, 20, 21⟩), (0x54413515, .vrotl ⟨2, 2, 0, 19, 20, 21⟩),
    (0x54C13515, .vbcast ⟨2, 2, 0, 19, 20, 21⟩), (0x55413538, .vcompr ⟨2, 2, 0, 19, 20, 56⟩), (0x55C13538, .vexpnd ⟨2, 2, 0, 19, 20, 56⟩),
    (0x56493515, .vtmrg ⟨2, 2, 2, 19, 20, 21⟩), (0x56C93515, .vtscl ⟨2, 2, 2, 19, 20, 21⟩), (0x57413515, .vhash ⟨2, 2, 0, 19, 20, 21⟩),
    (0x57C13515, .vpart ⟨2, 2, 0, 19, 20, 21⟩), (0x58413515, .vrng ⟨2, 2, 0, 19, 20, 21⟩), (0x58C13538, .vscan ⟨2, 2, 0, 19, 20, 56⟩),
    (0x59413538, .vrank ⟨2, 2, 0, 19, 20, 56⟩), (0x59C38538, .vstd ⟨2, 2, 0, 56, 20, 56⟩), (0x5A413538, .vmkmask ⟨2, 2, 0, 19, 20, 56⟩),
    (0x5A839EBB, .kand ⟨2, 0, 0, 57, 58, 59⟩), (0x5A879EBB, .kor ⟨2, 0, 1, 57, 58, 59⟩), (0x5A8B9EBB, .kxor ⟨2, 0, 2, 57, 58, 59⟩),
    (0x5A8F9EBB, .kandn ⟨2, 0, 3, 57, 58, 59⟩), (0x5A939EB8, .knot ⟨2, 0, 4, 57, 58, 56⟩), (0x5B014EB8, .kpopc ⟨2, 0, 0, 20, 58, 56⟩)] :
    List (BitVec 32 × Instr)), decodeA p.1 = some p.2 := by decide +kernel

theorem test_decode_lone0 : ∀ p ∈ ([
    (0x400000008A085022, .taskqLone ⟨false, 4, 5, 34, 2, 0, 0⟩), (0x460000008B085041, .collLone ⟨false, 4, 5, 65, 2, 6, 0⟩), (0x4000012384085042, .mma ⟨false, 4, 5, 66, 2, 0, 291⟩),
    (0x4000002084880001, .mldb ⟨false, 4, 0, 1, 2, 0, 32⟩), (0x4000000084C00001, .mrot ⟨false, 0, 0, 1, 2, 0, 0⟩), (0x4000001185085065, .mstore ⟨false, 4, 5, 101, 2, 0, 17⟩),
    (0x4000000085480003, .mload ⟨false, 4, 0, 3, 2, 0, 0⟩), (0x4000012380080041, .li ⟨false, 4, 0, 65, 2, 0, 291⟩), (0x4000012380480041, .lih ⟨false, 4, 0, 65, 2, 0, 291⟩),
    (0x4000012380800041, .j ⟨false, 0, 0, 65, 2, 0, 291⟩), (0x4000012380C80041, .jal ⟨false, 4, 0, 65, 2, 0, 291⟩), (0x4000012381080041, .lia ⟨false, 4, 0, 65, 2, 0, 291⟩),
    (0x4600000088085067, .cpy ⟨false, 4, 5, 103, 2, 6, 0⟩), (0x40000040C888004D, .vgather ⟨true, 4, 0, 77, 2, 0, 64⟩), (0x4000009BC8C8004C, .vscatter ⟨true, 4, 0, 76, 2, 0, 155⟩)] :
    List (BitVec 64 × Instr)), decodeLone p.1 = some p.2 := by decide +kernel

/-! ## Ill-formed terms, one for each field that a check reads -/

theorem test_refused0 : ∀ i ∈ ([
    .clz ⟨false, 3, 4, 1⟩, .ctz ⟨false, 3, 4, 1⟩, .popc ⟨false, 3, 4, 1⟩, .shli ⟨false, 3, 4, 16383⟩,
    .shri ⟨false, 3, 4, 16383⟩, .sari ⟨false, 3, 4, 16383⟩, .ptag ⟨false, 3, 4, 1⟩, .loop ⟨false, 0, 0, 42⟩,
    .loop ⟨false, 4, 1, 42⟩, .ldl ⟨false, 3, 4, 7, 42⟩, .stl ⟨false, 3, 4, 1, 42⟩, .ldg ⟨false, 3, 4, 7, 42⟩,
    .stg ⟨false, 3, 4, 1, 42⟩, .ldacq ⟨false, 3, 4, 1, 42⟩, .strel ⟨false, 3, 4, 1, 42⟩, .amoadd ⟨false, 3, 4, 5, 1, 2⟩,
    .amoand ⟨false, 3, 4, 5, 1, 2⟩, .amoor ⟨false, 3, 4, 5, 1, 2⟩, .amoxor ⟨false, 3, 4, 5, 1, 2⟩, .amomin ⟨false, 3, 4, 5, 1, 2⟩,
    .amomax ⟨false, 3, 4, 5, 1, 2⟩, .amominu ⟨false, 3, 4, 5, 1, 2⟩, .amomaxu ⟨false, 3, 4, 5, 1, 2⟩, .amoswp ⟨false, 3, 4, 5, 1, 2⟩,
    .amocas ⟨false, 3, 4, 5, 1, 2⟩, .amofadd ⟨false, 3, 4, 5, 1, 1⟩, .amofmax ⟨false, 3, 4, 5, 1, 1⟩, .acq ⟨false, 1, 0, 0, 0⟩,
    .acq ⟨false, 0, 1, 0, 0⟩, .acq ⟨false, 0, 0, 1, 0⟩, .acq ⟨false, 0, 0, 0, 1⟩, .rel ⟨false, 1, 0, 0, 0⟩,
    .rel ⟨false, 0, 1, 0, 0⟩, .rel ⟨false, 0, 0, 1, 0⟩, .rel ⟨false, 0, 0, 0, 1⟩, .fence ⟨false, 1, 0, 0, 0⟩,
    .fence ⟨false, 0, 1, 0, 0⟩, .fence ⟨false, 0, 0, 1, 0⟩, .fence ⟨false, 0, 0, 0, 1⟩, .qwait ⟨false, 1, 0, 0, 9⟩,
    .qwait ⟨false, 0, 1, 0, 9⟩, .qwait ⟨false, 0, 0, 1, 9⟩, .mbw ⟨false, 1, 4, 0, 2⟩, .mbw ⟨false, 0, 4, 1, 2⟩,
    .mbw ⟨false, 0, 4, 0, 31⟩, .mbr ⟨false, 3, 0, 5, 31⟩, .mbtest ⟨false, 3, 1, 0, 2⟩, .mbtest ⟨false, 3, 0, 1, 2⟩,
    .mbtest ⟨false, 3, 0, 0, 31⟩, .binit ⟨false, 1, 4, 5, 9⟩, .binit ⟨false, 0, 4, 5, 31⟩, .bexpect ⟨false, 3, 4, 5, 1⟩,
    .barrive ⟨false, 1, 4, 0, 16⟩, .barrive ⟨false, 0, 4, 1, 16⟩, .barrive ⟨false, 0, 4, 0, 1⟩, .bwait ⟨false, 1, 0, 0, 15⟩,
    .bwait ⟨false, 0, 1, 0, 15⟩, .bwait ⟨false, 0, 0, 1, 15⟩, .bwait ⟨false, 0, 0, 0, 31⟩, .btest ⟨false, 3, 4, 5, 1⟩,
    .bwany ⟨false, 3, 4, 1, 0⟩, .bwany ⟨false, 3, 4, 0, 1⟩, .chtest ⟨false, 3, 4, 5, 2⟩, .chwait ⟨false, 1, 4, 5, 1⟩,
    .chwait ⟨false, 0, 4, 5, 2⟩, .chclr ⟨false, 1, 4, 5, 1⟩, .chclr ⟨false, 0, 4, 5, 2⟩, .lsalloc ⟨false, 3, 1, 1, 5⟩,
    .lsalloc ⟨false, 3, 0, 31, 5⟩, .lsfree ⟨false, 1, 4, 0, 0⟩] : List Instr), i.wf = false := by decide +kernel

theorem test_refused1 : ∀ i ∈ ([
    .lsfree ⟨false, 0, 4, 1, 0⟩, .lsfree ⟨false, 0, 4, 0, 1⟩, .pmint ⟨false, 3, 1, 2, 7⟩, .pmint ⟨false, 3, 0, 31, 7⟩,
    .pmint ⟨false, 3, 0, 2, 31⟩, .pdrop ⟨false, 1, 4, 0, 0⟩, .pdrop ⟨false, 0, 4, 1, 0⟩, .pdrop ⟨false, 0, 4, 0, 1⟩,
    .pstat ⟨false, 3, 4, 1, 0⟩, .pstat ⟨false, 3, 4, 0, 1⟩, .cpych ⟨false, 3, 4, 1, 2⟩, .cpych ⟨false, 3, 4, 0, 31⟩,
    .cpystat ⟨false, 3, 1, 0, 2⟩, .cpystat ⟨false, 3, 0, 1, 2⟩, .cpystat ⟨false, 3, 0, 0, 31⟩, .cpywait ⟨false, 1, 0, 0, 2⟩,
    .cpywait ⟨false, 0, 1, 0, 2⟩, .cpywait ⟨false, 0, 0, 1, 2⟩, .cpywait ⟨false, 0, 0, 0, 31⟩, .cpykill ⟨false, 1, 0, 0, 2⟩,
    .cpykill ⟨false, 0, 1, 0, 2⟩, .cpykill ⟨false, 0, 0, 1, 2⟩, .cpykill ⟨false, 0, 0, 0, 31⟩, .trkset ⟨false, 3, 4, 2, 5⟩,
    .trkclr ⟨false, 3, 1, 1, 5⟩, .trkclr ⟨false, 3, 0, 2, 5⟩, .hstart ⟨false, 3, 4, 5, 31⟩, .hend ⟨false, 1, 0, 0, 0⟩,
    .hend ⟨false, 0, 1, 0, 0⟩, .hend ⟨false, 0, 0, 1, 0⟩, .hend ⟨false, 0, 0, 0, 1⟩, .hjoin ⟨false, 3, 4, 1, 0⟩,
    .hjoin ⟨false, 3, 4, 0, 1⟩, .hkill ⟨false, 1, 4, 0, 0⟩, .hkill ⟨false, 0, 4, 1, 0⟩, .hkill ⟨false, 0, 4, 0, 1⟩,
    .taskq ⟨false, 3, 4, 5, 31⟩, .gfuse ⟨false, 3, 4, 1, 0⟩, .gfuse ⟨false, 3, 4, 0, 1⟩, .gsplit ⟨false, 1, 0, 0, 0⟩,
    .gsplit ⟨false, 0, 1, 0, 0⟩, .gsplit ⟨false, 0, 0, 1, 0⟩, .gsplit ⟨false, 0, 0, 0, 1⟩, .csign ⟨true, 3, 4, 0, 0⟩,
    .csign ⟨false, 3, 4, 1, 0⟩, .csign ⟨false, 3, 4, 0, 1⟩, .cstep ⟨true, 3, 4, 0, 0⟩, .cstep ⟨false, 3, 4, 1, 0⟩,
    .cstep ⟨false, 3, 4, 0, 1⟩, .cdiss ⟨true, 3, 0, 0, 0⟩, .cdiss ⟨false, 3, 1, 0, 0⟩, .cdiss ⟨false, 3, 0, 1, 0⟩,
    .cdiss ⟨false, 3, 0, 0, 1⟩, .send ⟨false, 3, 4, 5, 1⟩, .recv ⟨false, 3, 4, 1, 0⟩, .recv ⟨false, 3, 4, 0, 1⟩,
    .recvt ⟨false, 3, 4, 5, 1⟩, .coll ⟨false, 3, 4, 1, 0⟩, .coll ⟨false, 3, 4, 0, 1⟩, .cwait ⟨false, 3, 4, 1, 0⟩,
    .cwait ⟨false, 3, 4, 0, 1⟩, .mbegin ⟨false, 1, 0, 0, 0⟩, .mbegin ⟨false, 0, 1, 0, 0⟩, .mbegin ⟨false, 0, 0, 1, 0⟩,
    .mbegin ⟨false, 0, 0, 0, 2⟩, .mend ⟨false, 1, 0, 0, 0⟩, .mend ⟨false, 0, 1, 0, 0⟩, .mend ⟨false, 0, 0, 1, 0⟩,
    .mend ⟨false, 0, 0, 0, 1⟩, .mzero ⟨false, 1, 0, 0, 1⟩] : List Instr), i.wf = false := by decide +kernel

theorem test_refused2 : ∀ i ∈ ([
    .mzero ⟨false, 0, 1, 0, 1⟩, .mzero ⟨false, 0, 0, 1, 1⟩, .mzero ⟨false, 0, 0, 0, 2⟩, .msync ⟨false, 1, 0, 0, 0⟩,
    .msync ⟨false, 0, 1, 0, 0⟩, .msync ⟨false, 0, 0, 1, 0⟩, .msync ⟨false, 0, 0, 0, 1⟩, .ecall ⟨false, 1, 0, 0, 9⟩,
    .ecall ⟨false, 0, 1, 0, 9⟩, .ecall ⟨false, 0, 0, 1, 9⟩, .eret ⟨false, 1, 0, 0, 0⟩, .eret ⟨false, 0, 1, 0, 0⟩,
    .eret ⟨false, 0, 0, 1, 0⟩, .eret ⟨false, 0, 0, 0, 1⟩, .sysr ⟨false, 3, 1, 0, 1⟩, .sysr ⟨false, 3, 0, 1, 1⟩,
    .sysr ⟨false, 3, 0, 0, 27⟩, .sysw ⟨false, 1, 4, 0, 2⟩, .sysw ⟨false, 0, 4, 1, 2⟩, .sysw ⟨false, 0, 4, 0, 1⟩,
    .waiti ⟨false, 1, 0, 0, 0⟩, .waiti ⟨false, 0, 1, 0, 0⟩, .waiti ⟨false, 0, 0, 1, 0⟩, .waiti ⟨false, 0, 0, 0, 1⟩,
    .yield ⟨false, 1, 0, 0, 0⟩, .yield ⟨false, 0, 1, 0, 0⟩, .yield ⟨false, 0, 0, 1, 0⟩, .yield ⟨false, 0, 0, 0, 1⟩,
    .brk ⟨false, 1, 0, 0, 9⟩, .brk ⟨false, 0, 1, 0, 9⟩, .brk ⟨false, 0, 0, 1, 9⟩, .halt ⟨false, 1, 0, 0, 0⟩,
    .halt ⟨false, 0, 1, 0, 0⟩, .halt ⟨false, 0, 0, 1, 0⟩, .halt ⟨false, 0, 0, 0, 1⟩, .snap ⟨false, 1, 0, 0, 0⟩,
    .snap ⟨false, 0, 1, 0, 0⟩, .snap ⟨false, 0, 0, 1, 0⟩, .snap ⟨false, 0, 0, 0, 1⟩, .tlbinv ⟨false, 1, 4, 5, 0⟩,
    .tlbinv ⟨false, 0, 4, 5, 2⟩, .resize ⟨true, 3, 0, 0, 20⟩, .resize ⟨false, 3, 1, 0, 20⟩, .resize ⟨false, 3, 0, 1, 20⟩,
    .resize ⟨false, 3, 0, 0, 31⟩, .lineclr ⟨false, 1, 4, 0, 0⟩, .lineclr ⟨false, 0, 4, 1, 0⟩, .lineclr ⟨false, 0, 4, 0, 1⟩,
    .cwb ⟨false, 1, 4, 0, 0⟩, .cwb ⟨false, 0, 4, 1, 0⟩, .cwb ⟨false, 0, 4, 0, 1⟩, .cinv ⟨false, 1, 4, 0, 0⟩,
    .cinv ⟨false, 0, 4, 1, 0⟩, .cinv ⟨false, 0, 4, 0, 1⟩, .ctxsave ⟨false, 3, 4, 1, 0⟩, .ctxsave ⟨false, 3, 4, 0, 1⟩,
    .ctxload ⟨false, 3, 4, 1, 0⟩, .ctxload ⟨false, 3, 4, 0, 1⟩, .preempt ⟨false, 3, 4, 1, 0⟩, .preempt ⟨false, 3, 4, 0, 1⟩,
    .kget ⟨false, 3, 1, 0, 1⟩, .kget ⟨false, 3, 0, 1, 1⟩, .kget ⟨false, 3, 0, 0, 0⟩, .kset ⟨false, 1, 4, 0, 1⟩,
    .kset ⟨false, 0, 4, 1, 1⟩, .kset ⟨false, 0, 4, 0, 0⟩, .vld ⟨false, 31, 4, 2, 42⟩, .vld ⟨false, 2, 4, 7, 42⟩,
    .vsta ⟨false, 1, 4, 2, 42⟩, .vsta ⟨false, 0, 4, 7, 42⟩] : List Instr), i.wf = false := by decide +kernel

theorem test_refused3 : ∀ i ∈ ([
    .vadd ⟨2, 2, 2, 19, 20, 21⟩, .vadd ⟨2, 2, 0, 1, 20, 21⟩, .vadd ⟨2, 2, 0, 19, 63, 21⟩, .vadd ⟨2, 2, 0, 19, 20, 63⟩,
    .vsub ⟨2, 2, 2, 19, 20, 21⟩, .vsub ⟨2, 2, 0, 1, 20, 21⟩, .vsub ⟨2, 2, 0, 19, 63, 21⟩, .vsub ⟨2, 2, 0, 19, 20, 63⟩,
    .vmul ⟨2, 2, 2, 19, 20, 21⟩, .vmul ⟨2, 2, 0, 1, 20, 21⟩, .vmul ⟨2, 2, 0, 19, 63, 21⟩, .vmul ⟨2, 2, 0, 19, 20, 63⟩,
    .vmulh ⟨2, 2, 2, 19, 20, 21⟩, .vmulh ⟨2, 2, 0, 1, 20, 21⟩, .vmulh ⟨2, 2, 0, 19, 63, 21⟩, .vmulh ⟨2, 2, 0, 19, 20, 63⟩,
    .vmin ⟨2, 2, 2, 19, 20, 21⟩, .vmin ⟨2, 2, 0, 1, 20, 21⟩, .vmin ⟨2, 2, 0, 19, 63, 21⟩, .vmin ⟨2, 2, 0, 19, 20, 63⟩,
    .vmax ⟨2, 2, 2, 19, 20, 21⟩, .vmax ⟨2, 2, 0, 1, 20, 21⟩, .vmax ⟨2, 2, 0, 19, 63, 21⟩, .vmax ⟨2, 2, 0, 19, 20, 63⟩,
    .vand ⟨2, 2, 0, 1, 20, 21⟩, .vand ⟨2, 2, 0, 19, 63, 21⟩, .vand ⟨2, 2, 0, 19, 20, 63⟩, .vor ⟨2, 2, 0, 1, 20, 21⟩,
    .vor ⟨2, 2, 0, 19, 63, 21⟩, .vor ⟨2, 2, 0, 19, 20, 63⟩, .vxor ⟨2, 2, 0, 1, 20, 21⟩, .vxor ⟨2, 2, 0, 19, 63, 21⟩,
    .vxor ⟨2, 2, 0, 19, 20, 63⟩, .vandn ⟨2, 2, 0, 1, 20, 21⟩, .vandn ⟨2, 2, 0, 19, 63, 21⟩, .vandn ⟨2, 2, 0, 19, 20, 63⟩,
    .vshl ⟨2, 2, 2, 19, 20, 21⟩, .vshl ⟨2, 2, 0, 1, 20, 21⟩, .vshl ⟨2, 2, 0, 19, 63, 21⟩, .vshl ⟨2, 2, 0, 19, 20, 63⟩,
    .vshr ⟨2, 2, 2, 19, 20, 21⟩, .vshr ⟨2, 2, 0, 1, 20, 21⟩, .vshr ⟨2, 2, 0, 19, 63, 21⟩, .vshr ⟨2, 2, 0, 19, 20, 63⟩,
    .vsar ⟨2, 2, 2, 19, 20, 21⟩, .vsar ⟨2, 2, 0, 1, 20, 21⟩, .vsar ⟨2, 2, 0, 19, 63, 21⟩, .vsar ⟨2, 2, 0, 19, 20, 63⟩,
    .vabs ⟨2, 2, 1, 19, 20, 56⟩, .vabs ⟨2, 2, 0, 1, 20, 56⟩, .vabs ⟨2, 2, 0, 19, 63, 56⟩, .vabs ⟨2, 2, 0, 19, 20, 1⟩,
    .vclz ⟨2, 2, 2, 19, 20, 56⟩, .vclz ⟨2, 2, 0, 1, 20, 56⟩, .vclz ⟨2, 2, 0, 19, 63, 56⟩, .vclz ⟨2, 2, 0, 19, 20, 1⟩,
    .vpopc ⟨2, 2, 2, 19, 20, 56⟩, .vpopc ⟨2, 2, 0, 1, 20, 56⟩, .vpopc ⟨2, 2, 0, 19, 63, 56⟩, .vpopc ⟨2, 2, 0, 19, 20, 1⟩,
    .vadds ⟨2, 2, 2, 19, 20, 21⟩, .vadds ⟨2, 2, 0, 1, 20, 21⟩, .vadds ⟨2, 2, 0, 19, 63, 21⟩, .vadds ⟨2, 2, 0, 19, 20, 63⟩,
    .vsubs ⟨2, 2, 2, 19, 20, 21⟩, .vsubs ⟨2, 2, 0, 1, 20, 21⟩, .vsubs ⟨2, 2, 0, 19, 63, 21⟩, .vsubs ⟨2, 2, 0, 19, 20, 63⟩,
    .vfadd ⟨2, 2, 1, 19, 20, 21⟩, .vfadd ⟨2, 2, 2, 1, 20, 21⟩] : List Instr), i.wf = false := by decide +kernel

theorem test_refused4 : ∀ i ∈ ([
    .vfadd ⟨2, 2, 2, 19, 63, 21⟩, .vfadd ⟨2, 2, 2, 19, 20, 63⟩, .vfsub ⟨2, 2, 1, 19, 20, 21⟩, .vfsub ⟨2, 2, 2, 1, 20, 21⟩,
    .vfsub ⟨2, 2, 2, 19, 63, 21⟩, .vfsub ⟨2, 2, 2, 19, 20, 63⟩, .vfmul ⟨2, 2, 1, 19, 20, 21⟩, .vfmul ⟨2, 2, 2, 1, 20, 21⟩,
    .vfmul ⟨2, 2, 2, 19, 63, 21⟩, .vfmul ⟨2, 2, 2, 19, 20, 63⟩, .vfma ⟨2, 2, 1, 19, 20, 21⟩, .vfma ⟨2, 2, 2, 1, 20, 21⟩,
    .vfma ⟨2, 2, 2, 19, 63, 21⟩, .vfma ⟨2, 2, 2, 19, 20, 63⟩, .vfmin ⟨2, 2, 1, 19, 20, 21⟩, .vfmin ⟨2, 2, 2, 1, 20, 21⟩,
    .vfmin ⟨2, 2, 2, 19, 63, 21⟩, .vfmin ⟨2, 2, 2, 19, 20, 63⟩, .vfmax ⟨2, 2, 1, 19, 20, 21⟩, .vfmax ⟨2, 2, 2, 1, 20, 21⟩,
    .vfmax ⟨2, 2, 2, 19, 63, 21⟩, .vfmax ⟨2, 2, 2, 19, 20, 63⟩, .vrcp ⟨2, 2, 1, 19, 20, 56⟩, .vrcp ⟨2, 2, 2, 1, 20, 56⟩,
    .vrcp ⟨2, 2, 2, 19, 63, 56⟩, .vrcp ⟨2, 2, 2, 19, 20, 1⟩, .vrsq ⟨2, 2, 1, 19, 20, 56⟩, .vrsq ⟨2, 2, 2, 1, 20, 56⟩,
    .vrsq ⟨2, 2, 2, 19, 63, 56⟩, .vrsq ⟨2, 2, 2, 19, 20, 1⟩, .vexp2 ⟨2, 2, 1, 19, 20, 56⟩, .vexp2 ⟨2, 2, 2, 1, 20, 56⟩,
    .vexp2 ⟨2, 2, 2, 19, 63, 56⟩, .vexp2 ⟨2, 2, 2, 19, 20, 1⟩, .vlog2 ⟨2, 2, 1, 19, 20, 56⟩, .vlog2 ⟨2, 2, 2, 1, 20, 56⟩,
    .vlog2 ⟨2, 2, 2, 19, 63, 56⟩, .vlog2 ⟨2, 2, 2, 19, 20, 1⟩, .vsqrt ⟨2, 2, 1, 19, 20, 56⟩, .vsqrt ⟨2, 2, 2, 1, 20, 56⟩,
    .vsqrt ⟨2, 2, 2, 19, 63, 56⟩, .vsqrt ⟨2, 2, 2, 19, 20, 1⟩, .vcvt ⟨2, 2, 2, 19, 20, 21⟩, .vcvt ⟨2, 2, 0, 1, 20, 21⟩,
    .vcvt ⟨2, 2, 0, 19, 63, 21⟩, .vcvt ⟨2, 2, 0, 19, 20, 1⟩, .vcvtNarrow ⟨2, 2, 1, 0, 19, 21⟩, .vcvtNarrow ⟨2, 2, 2, 1, 19, 21⟩,
    .vcvtNarrow ⟨2, 2, 2, 0, 63, 21⟩, .vcvtNarrow ⟨2, 2, 2, 0, 19, 1⟩, .vceq ⟨2, 2, 0, 1, 20, 21⟩, .vceq ⟨2, 2, 0, 19, 63, 21⟩,
    .vceq ⟨2, 2, 0, 19, 20, 63⟩, .vcne ⟨2, 2, 0, 1, 20, 21⟩, .vcne ⟨2, 2, 0, 19, 63, 21⟩, .vcne ⟨2, 2, 0, 19, 20, 63⟩,
    .vclt ⟨2, 2, 0, 1, 20, 21⟩, .vclt ⟨2, 2, 0, 19, 63, 21⟩, .vclt ⟨2, 2, 0, 19, 20, 63⟩, .vcle ⟨2, 2, 0, 1, 20, 21⟩,
    .vcle ⟨2, 2, 0, 19, 63, 21⟩, .vcle ⟨2, 2, 0, 19, 20, 63⟩, .vsel ⟨2, 2, 0, 1, 20, 21⟩, .vsel ⟨2, 2, 0, 19, 63, 21⟩,
    .vsel ⟨2, 2, 0, 19, 20, 63⟩, .vrsum ⟨2, 2, 0, 1, 20, 56⟩, .vrsum ⟨2, 2, 0, 19, 63, 56⟩, .vrsum ⟨2, 2, 0, 19, 20, 1⟩,
    .vrmax ⟨2, 2, 0, 1, 20, 56⟩, .vrmax ⟨2, 2, 0, 19, 63, 56⟩] : List Instr), i.wf = false := by decide +kernel

theorem test_refused5 : ∀ i ∈ ([
    .vrmax ⟨2, 2, 0, 19, 20, 1⟩, .vrmin ⟨2, 2, 0, 1, 20, 56⟩, .vrmin ⟨2, 2, 0, 19, 63, 56⟩, .vrmin ⟨2, 2, 0, 19, 20, 1⟩,
    .vshuf ⟨2, 2, 0, 1, 20, 21⟩, .vshuf ⟨2, 2, 0, 19, 63, 21⟩, .vshuf ⟨2, 2, 0, 19, 20, 63⟩, .vrotl ⟨2, 2, 0, 1, 20, 21⟩,
    .vrotl ⟨2, 2, 0, 19, 63, 21⟩, .vrotl ⟨2, 2, 0, 19, 20, 63⟩, .vbcast ⟨2, 2, 0, 1, 20, 21⟩, .vbcast ⟨2, 2, 0, 19, 63, 21⟩,
    .vbcast ⟨2, 2, 0, 19, 20, 63⟩, .vcompr ⟨2, 2, 0, 1, 20, 56⟩, .vcompr ⟨2, 2, 0, 19, 63, 56⟩, .vcompr ⟨2, 2, 0, 19, 20, 1⟩,
    .vexpnd ⟨2, 2, 0, 1, 20, 56⟩, .vexpnd ⟨2, 2, 0, 19, 63, 56⟩, .vexpnd ⟨2, 2, 0, 19, 20, 1⟩, .vtmrg ⟨2, 2, 1, 19, 20, 21⟩,
    .vtmrg ⟨2, 2, 2, 1, 20, 21⟩, .vtmrg ⟨2, 2, 2, 19, 63, 21⟩, .vtmrg ⟨2, 2, 2, 19, 20, 63⟩, .vtscl ⟨2, 2, 1, 19, 20, 21⟩,
    .vtscl ⟨2, 2, 2, 1, 20, 21⟩, .vtscl ⟨2, 2, 2, 19, 63, 21⟩, .vtscl ⟨2, 2, 2, 19, 20, 63⟩, .vhash ⟨2, 2, 2, 19, 20, 21⟩,
    .vhash ⟨2, 2, 0, 1, 20, 21⟩, .vhash ⟨2, 2, 0, 19, 63, 21⟩, .vhash ⟨2, 2, 0, 19, 20, 63⟩, .vpart ⟨2, 2, 2, 19, 20, 21⟩,
    .vpart ⟨2, 2, 0, 1, 20, 21⟩, .vpart ⟨2, 2, 0, 19, 63, 21⟩, .vpart ⟨2, 2, 0, 19, 20, 63⟩, .vrng ⟨2, 2, 2, 19, 20, 21⟩,
    .vrng ⟨2, 2, 0, 1, 20, 21⟩, .vrng ⟨2, 2, 0, 19, 63, 21⟩, .vrng ⟨2, 2, 0, 19, 20, 63⟩, .vscan ⟨2, 2, 0, 1, 20, 56⟩,
    .vscan ⟨2, 2, 0, 19, 63, 56⟩, .vscan ⟨2, 2, 0, 19, 20, 1⟩, .vrank ⟨2, 2, 6, 19, 20, 56⟩, .vrank ⟨2, 2, 0, 1, 20, 56⟩,
    .vrank ⟨2, 2, 0, 19, 63, 56⟩, .vrank ⟨2, 2, 0, 19, 20, 1⟩, .vstd ⟨2, 2, 0, 1, 20, 56⟩, .vstd ⟨2, 2, 0, 56, 63, 56⟩,
    .vstd ⟨2, 2, 0, 56, 20, 1⟩, .vmkmask ⟨2, 2, 2, 19, 20, 56⟩, .vmkmask ⟨2, 2, 0, 1, 20, 56⟩, .vmkmask ⟨2, 2, 0, 19, 63, 56⟩,
    .vmkmask ⟨2, 2, 0, 19, 20, 1⟩, .kand ⟨2, 1, 0, 57, 58, 59⟩, .kand ⟨2, 0, 1, 57, 58, 59⟩, .kand ⟨2, 0, 0, 1, 58, 59⟩,
    .kand ⟨2, 0, 0, 57, 1, 59⟩, .kand ⟨2, 0, 0, 57, 58, 1⟩, .kor ⟨2, 1, 1, 57, 58, 59⟩, .kor ⟨2, 0, 2, 57, 58, 59⟩,
    .kor ⟨2, 0, 1, 1, 58, 59⟩, .kor ⟨2, 0, 1, 57, 1, 59⟩, .kor ⟨2, 0, 1, 57, 58, 1⟩, .kxor ⟨2, 1, 2, 57, 58, 59⟩,
    .kxor ⟨2, 0, 1, 57, 58, 59⟩, .kxor ⟨2, 0, 2, 1, 58, 59⟩, .kxor ⟨2, 0, 2, 57, 1, 59⟩, .kxor ⟨2, 0, 2, 57, 58, 1⟩,
    .kandn ⟨2, 1, 3, 57, 58, 59⟩, .kandn ⟨2, 0, 1, 57, 58, 59⟩] : List Instr), i.wf = false := by decide +kernel

theorem test_refused6 : ∀ i ∈ ([
    .kandn ⟨2, 0, 3, 1, 58, 59⟩, .kandn ⟨2, 0, 3, 57, 1, 59⟩, .kandn ⟨2, 0, 3, 57, 58, 1⟩, .knot ⟨2, 1, 4, 57, 58, 56⟩,
    .knot ⟨2, 0, 1, 57, 58, 56⟩, .knot ⟨2, 0, 4, 1, 58, 56⟩, .knot ⟨2, 0, 4, 57, 1, 56⟩, .knot ⟨2, 0, 4, 57, 58, 1⟩,
    .kpopc ⟨2, 1, 0, 20, 58, 56⟩, .kpopc ⟨2, 0, 1, 20, 58, 56⟩, .kpopc ⟨2, 0, 0, 1, 58, 56⟩, .kpopc ⟨2, 0, 0, 20, 1, 56⟩,
    .kpopc ⟨2, 0, 0, 20, 58, 1⟩, .taskqLone ⟨false, 4, 5, 4095, 2, 0, 0⟩, .taskqLone ⟨false, 4, 5, 34, 2, 1, 0⟩, .taskqLone ⟨false, 4, 5, 34, 2, 0, 1⟩,
    .collLone ⟨false, 4, 5, 65, 2, 6, 1⟩, .mma ⟨false, 4, 5, 1, 2, 0, 291⟩, .mma ⟨false, 4, 5, 66, 2, 1, 291⟩, .mldb ⟨false, 4, 1, 1, 2, 0, 32⟩,
    .mldb ⟨false, 4, 0, 4095, 2, 0, 32⟩, .mldb ⟨false, 4, 0, 1, 2, 1, 32⟩, .mldb ⟨false, 4, 0, 1, 2, 0, 16777215⟩, .mrot ⟨false, 1, 0, 1, 2, 0, 0⟩,
    .mrot ⟨false, 0, 1, 1, 2, 0, 0⟩, .mrot ⟨false, 0, 0, 2, 2, 0, 0⟩, .mrot ⟨false, 0, 0, 1, 2, 1, 0⟩, .mrot ⟨false, 0, 0, 1, 2, 0, 1⟩,
    .mstore ⟨false, 4, 5, 1, 2, 0, 17⟩, .mstore ⟨false, 4, 5, 101, 2, 1, 17⟩, .mstore ⟨false, 4, 5, 101, 2, 0, 16777215⟩, .mload ⟨false, 4, 1, 3, 2, 0, 0⟩,
    .mload ⟨false, 4, 0, 4095, 2, 0, 0⟩, .mload ⟨false, 4, 0, 3, 2, 1, 0⟩, .mload ⟨false, 4, 0, 3, 2, 0, 1⟩, .li ⟨false, 4, 1, 65, 2, 0, 291⟩,
    .li ⟨false, 4, 0, 4095, 2, 0, 291⟩, .li ⟨false, 4, 0, 65, 2, 1, 291⟩, .lih ⟨false, 4, 1, 65, 2, 0, 291⟩, .lih ⟨false, 4, 0, 4095, 2, 0, 291⟩,
    .lih ⟨false, 4, 0, 65, 2, 1, 291⟩, .j ⟨false, 1, 0, 65, 2, 0, 291⟩, .j ⟨false, 0, 1, 65, 2, 0, 291⟩, .j ⟨false, 0, 0, 4095, 2, 0, 291⟩,
    .j ⟨false, 0, 0, 65, 2, 1, 291⟩, .jal ⟨false, 4, 1, 65, 2, 0, 291⟩, .jal ⟨false, 4, 0, 4095, 2, 0, 291⟩, .jal ⟨false, 4, 0, 65, 2, 1, 291⟩,
    .lia ⟨false, 4, 1, 65, 2, 0, 291⟩, .lia ⟨false, 4, 0, 4095, 2, 0, 291⟩, .lia ⟨false, 4, 0, 65, 2, 1, 291⟩, .cpy ⟨false, 4, 5, 4095, 2, 6, 0⟩,
    .cpy ⟨false, 4, 5, 103, 2, 6, 1⟩, .vgather ⟨false, 4, 0, 77, 2, 0, 64⟩, .vgather ⟨true, 4, 1, 77, 2, 0, 64⟩, .vgather ⟨true, 4, 0, 4095, 2, 0, 64⟩,
    .vgather ⟨true, 4, 0, 77, 2, 1, 64⟩, .vgather ⟨true, 4, 0, 77, 2, 0, 1⟩, .vscatter ⟨false, 4, 0, 76, 2, 0, 155⟩, .vscatter ⟨true, 4, 1, 76, 2, 0, 155⟩,
    .vscatter ⟨true, 4, 0, 1, 2, 0, 155⟩, .vscatter ⟨true, 4, 0, 76, 2, 1, 155⟩, .vscatter ⟨true, 4, 0, 76, 2, 0, 16777215⟩] : List Instr), i.wf = false := by decide +kernel


/-! ## Words that the spec itself gives beside its assembly lines -/

theorem test_spec_cwords : ∀ p ∈ ([
    (0x12298003, .bgeu ⟨false, 5, 6, 3⟩), (0x4E203FFA, .bne ⟨true, 4, 0, 0x3FFA⟩), (0x2F010060, .cwb ⟨false, 0, 4, 0, 0⟩),
    (0x2F010080, .cinv ⟨false, 0, 4, 0, 0⟩), (0x28298040, .hjoin ⟨false, 5, 6, 0, 0⟩), (0x28018060, .hkill ⟨false, 0, 6, 0, 0⟩),
    (0x282A540A, .hstart ⟨false, 5, 9, 10, 10⟩), (0x14F9C000, .jr ⟨false, 31, 7, 0⟩), (0x2440000F, .lsalloc ⟨false, 8, 0, 0, 15⟩),
    (0x2440061F, .lsalloc ⟨false, 8, 0, 3, 31⟩), (0x24020020, .lsfree ⟨false, 0, 8, 0, 0⟩), (0x25020020, .pdrop ⟨false, 0, 8, 0, 0⟩),
    (0x2540040A, .pmint ⟨false, 8, 0, 2, 10⟩), (0x252A0040, .pstat ⟨false, 5, 8, 0, 0⟩), (0x1D000003, .qwait ⟨false, 0, 0, 0, 3⟩),
    (0x2B298020, .recv ⟨false, 5, 6, 0, 0⟩), (0x2B298E40, .recvt ⟨false, 5, 6, 7, 0⟩), (0x2F280034, .resize ⟨false, 5, 0, 0, 20⟩),
    (0x2B298E00, .send ⟨false, 5, 6, 7, 0⟩), (0x2E280041, .sysr ⟨false, 5, 0, 0, 1⟩), (0x2E038069, .syswRingcfg ⟨false, 0, 14, 0, 9⟩),
    (0x2F010A00, .tlbinv ⟨false, 0, 4, 5, 0⟩), (0x27280225, .trkclr ⟨false, 5, 0, 1, 5⟩), (0x27290205, .trkset ⟨false, 5, 4, 1, 5⟩),
    (0x282A5489, .taskq ⟨false, 5, 9, 10, 9⟩), (0x2C290000, .coll ⟨false, 5, 4, 0, 0⟩), (0x29000020, .gsplit ⟨false, 0, 0, 0, 0⟩),
    (0x1F010000, .vld ⟨false, 0, 4, 0, 0⟩), (0x2001C000, .vsta ⟨false, 0, 7, 0, 0⟩), (0x610007FF, .tfence 0x7FF)] :
    List (BitVec 32 × Instr)), decodeC p.1 = some p.2 := by decide +kernel

theorem test_spec_awords : ∀ p ∈ ([
    (0x108B94D4, .vclt ⟨0, 0, 2, 57, 19, 20⟩), (0x0D880038, .vexp2 ⟨0, 0, 2, 0, 0, 56⟩), (0x120804F8, .vrsum ⟨0, 0, 2, 0, 19, 56⟩),
    (0x18840EF8, .vscan ⟨0, 0, 1, 0, 59, 56⟩), (0x11A804D4, .vsel ⟨0, 1, 2, 0, 19, 20⟩)] : List (BitVec 32 × Instr)),
    decodeA p.1 = some p.2 := by decide +kernel

theorem test_spec_lone : ∀ p ∈ ([
    (0x00FFFFFA808000FF, .j ⟨false, 0, 0, 0xFF, 0, 0, 0xFFFFFA⟩), (0x0000000A80FE0000, .jal ⟨false, 31, 0, 0, 0, 0, 10⟩),
    (0x00000040C898004D, .vgather ⟨true, 12, 0, 0x4D, 0, 0, 0x40⟩), (0x4000001BC8D40000, .vscatter ⟨true, 10, 0, 0, 2, 0, 0x1B⟩),
    (0x000000008A12A011, .taskqLone ⟨false, 9, 10, 0x11, 0, 0, 0⟩), (0x060000008B085007, .collLone ⟨false, 4, 5, 7, 0, 6, 0⟩)] :
    List (BitVec 64 × Instr)), decodeLone p.1 = some p.2 := by decide +kernel

/-- R189, R207: a unit whose low word has L = 0 is a pair; words that no table defines decode to nothing. -/
theorem test_units : decodeUnit 0x0000000001184A00 = .pair (some (.add ⟨false, 3, 1, 5⟩)) (some (.anop 0)) ∧
    decodeUnit 0x1F80000000000001 = .pair none none ∧ decodeUnit 0x00000000BFC00000 = .lone none := by decide +kernel

/-- R2: the byte at the lowest address holds bits [7:0]. -/
theorem test_unit_bytes : unitOfBytes [0x00, 0x4A, 0x18, 0x01, 0, 0, 0, 0x20] = some 0x2000000001184A00 := by decide +kernel

/-! ## Single steps -/

/-- A control context at 0x1000 with some scalar registers. -/
def ctx (rs : List (Nat × Word)) : Ctx :=
  { Ctx.reset with pc := 0x1000, npc := 0x1008, upc := 0x1000, sregs := rs.foldl (fun v r => v.setIfInBounds r.1 r.2) Ctx.reset.sregs }

/-- A tile that runs a control context. -/
def tile (k : Ctx) : Tile := { Tile.reset with mode := .free, pid := 1, ctxs := [(0, k)] }

/-- One tile and nothing else. -/
def one (x : Tile) : State := { State.reset with tiles := [(0, x)] }

/-- One tile whose control context has some scalar registers. -/
def with' (rs : List (Nat × Word)) : State := one (tile (ctx rs))

/-- The state that an outcome leads to. -/
def after (o : Host.Outcome State Fault Refusal) : State :=
  match o with
  | .next t => t
  | _ => State.reset

def cr : CR := ⟨false, 3, 1, 2⟩
def ci (imm : BitVec 14) : CI := ⟨false, 3, 1, imm⟩
/-- s[3] after an operation on s[1] and s[2]. -/
def gives (i : Instr) (a b : Word) : Word := (after (exec i (with' [(1, a), (2, b)]))).ctx.sreg 3

/-- R216's table of examples. -/
theorem test_division : gives (.div cr) (-7) 2 = -3 ∧ gives (.rem cr) (-7) 2 = -1 ∧ gives (.divu cr) 7 0 = BitVec.allOnes 64 ∧
    gives (.remu cr) 7 0 = 7 ∧ gives (.div cr) (2 ^ 63) (-1) = 2 ^ 63 := by decide +kernel
/-- R216, R244: the flag of a division by zero. -/
theorem test_division_flag : (after (exec (.divu cr) (with' [(1, 7)]))).ctx.flags = 2 ∧
    (after (exec (.div cr) (with' [(1, 2 ^ 63), (2, -1)]))).ctx.flags = 0 := by decide +kernel
/-- R217's example: FMT of a pointer. -/
theorem test_bfx : gives (.bfx cr) 0x4000001234567800 0x43B = 8 := by decide +kernel
/-- R215: sums wrap, the count of a shift is s[b][5:0]. -/
theorem test_alu : gives (.add cr) (-1) 2 = 1 ∧ gives (.shl cr) 1 0x47 = 0x80 ∧ gives (.sar cr) (-8) 1 = -4 ∧
    gives (.mulh cr) (-1) 1 = -1 ∧ gives (.mulhu cr) (-1) 2 = 1 ∧ gives (.clz cr) 0 0 = 64 := by decide +kernel
/-- R219: a carry out of bit 51 traps, with s[a] in TRAPVAL and s[d] unchanged. -/
theorem test_padd_carry :
    let t := after (exec (.padd cr) (with' [(1, 2 ^ 52 - 1), (2, 1), (3, 9)]))
    t.ctx.cause = 0x18 ∧ t.ctx.trapVal = 2 ^ 52 - 1 ∧ t.ctx.sreg 3 = 9 ∧ t.ctx.trapPc = 0x200 ∧ t.ctx.tip = true := by decide +kernel
/-- R223: a LOOP that finds 0 leaves all ones and is taken; one that finds 1 is not. -/
theorem test_loop :
    let t := after (exec (.loop ⟨false, 1, 0, 0x3FFF⟩) (with' []))
    let u := after (exec (.loop ⟨false, 1, 0, 0x3FFF⟩) (with' [(1, 1)]))
    t.ctx.sreg 1 = BitVec.allOnes 64 ∧ t.ctx.npc = 0xFF8 ∧ u.ctx.sreg 1 = 0 ∧ u.ctx.npc = 0x1008 := by decide +kernel
/-- R224: the target is taken before the link is written. -/
theorem test_jr_link :
    let t := after (exec (.jr ⟨false, 1, 1, 2⟩) (with' [(1, 0x2000)]))
    t.ctx.npc = 0x2010 ∧ t.ctx.sreg 1 = 0x1008 := by decide +kernel
/-- R221: LIH keeps the low half; LI extends the sign. -/
theorem test_constants :
    (after (exec (.lih ⟨false, 1, 0, 0xFF, 0, 0, 0xFFFFFE⟩) (with' [(1, 5)]))).ctx.sreg 1 = 0xFFFFFFFE00000005 ∧
    (after (exec (.li ⟨false, 1, 0, 0x80, 0, 0, 0⟩) (with' []))).ctx.sreg 1 = 0xFFFFFFFF80000000 := by decide +kernel
/-- R128: a write to s0 is discarded. -/
theorem test_s0 : (after (exec (.add ⟨false, 0, 1, 1⟩) (with' [(1, 4)]))).ctx.sreg 0 = 0 := by decide +kernel
/-- R105, R240, R241: BARRIVE completes a phase that expects one arrival; BTEST then gives 1, and 0 when it is asked again. -/
theorem test_barrier :
    let s := after (exec (.binit ⟨false, 0, 1, 0, 3⟩) (with' [(1, 1)]))
    let t := after (exec (.barrive ⟨false, 0, 0, 0, 3⟩) s)
    let u := after (exec (.btest ⟨false, 4, 0, 0, 3⟩) t)
    t.fate = .done ∧ u.ctx.sreg 4 = 1 ∧ (after (exec (.btest ⟨false, 4, 0, 0, 3⟩) u)).ctx.sreg 4 = 0 := by decide +kernel
/-- R312, R343: ECALL saves the unit, its number and the privilege; ERET gives them back. -/
theorem test_ecall_eret :
    let t := after (exec (.ecall ⟨false, 0, 0, 0, 9⟩) (with' []))
    let u := after (exec (.eret ⟨false, 0, 0, 0, 0⟩) t)
    t.ctx.cause = 0x30 ∧ t.ctx.trapVal = 9 ∧ t.ctx.priv = true ∧ t.ctx.ppriv = false ∧ u.ctx.priv = false ∧ u.ctx.tip = false ∧
      u.ctx.npc = 0x1000 := by decide +kernel
/-- R345: a trap while TIP = 1 puts the fencing of the rectangle on the agenda. -/
theorem test_double_trap :
    (after (exec (.ecall ⟨false, 0, 0, 0, 9⟩) (one (tile { ctx [] with tip := true })))).agenda = [.event (.fenceRectangle 0 0x130)] := by
  decide +kernel
/-- R313: user reads of STATUS are allowed and show HELPER = 0; the value is that of R342. -/
theorem test_sysr : (after (exec (.sysr ⟨false, 5, 0, 0, 1⟩) (one (tile { ctx [] with flags := 0x41 })))).ctx.sreg 5 = 0x41 := by
  decide +kernel
/-- R246: TFENCE traps with the masked flags. -/
theorem test_tfence :
    let t := after (exec (.tfence 0x06) (one (tile { ctx [] with flags := 0x03 })))
    t.ctx.cause = 0x20 ∧ t.ctx.trapVal = 2 := by decide +kernel
/-- R291, R175, R292: a minted pip is dropped into its mailbox with tag 2 and its own pointer. -/
theorem test_pip :
    let s := after (exec (.pmint ⟨false, 8, 0, 2, 0⟩) (with' []))
    let t := after (exec (.pdrop ⟨false, 0, 8, 0, 0⟩) s)
    let m := t.ctx.mbs.getD 2 Mailbox.reset
    s.ctx.sreg 8 = 0x0020000008000000 ∧ m.full = true ∧ m.tag = 2 ∧ m.val = 0x0020000008000000 := by decide +kernel
/-- R289: a slot of one chunk, and its handle. -/
theorem test_lsalloc :
    let t := after (exec (.lsalloc ⟨false, 8, 0, 0, 0⟩) (with' [(8, 0x400)]))
    t.ctx.sreg 8 = 0x0030000000000000 ∧ ((t.tile 0).slot 0).off = 0x400 ∧ (t.tile 0).pins.length = 4 := by decide +kernel
/-- R251: VADD.i8 wraps in each byte; the result goes to the queue and v3. -/
theorem test_vadd :
    let k := { ctx [] with banks := 1, vregs := ⟨0x01FF, 0, 0⟩ :: ⟨0x0202, 0, 0⟩ :: List.replicate 6 VReg.reset }
    let t := after (exec (.vadd ⟨0, 0, 6, 19, 16, 17⟩) (one (tile k)))
    (t.ctx.vreg 3).val = 0x0301 ∧ (t.ctx.qent 0).val = 0x0301 := by decide +kernel
/-- R257: with k0 the result is A. -/
theorem test_vsel :
    let k := { ctx [] with banks := 1, vregs := ⟨5, 0, 0⟩ :: ⟨6, 0, 0⟩ :: List.replicate 6 VReg.reset }
    ((after (exec (.vsel ⟨0, 0, 0, 0, 16, 17⟩) (one (tile k)))).ctx.qent 0).val = 5 := by decide +kernel
/-- A unit that withFetchWord places is fetched and runs: `BGEU s5, s6, +3` of R222 with both 0 is taken. -/
theorem test_step_branch : (after (step (State.reset.withFetchWord 32 0x12298003))).ctx.pc =
    (State.reset.withFetchWord 32 0x12298003).ctx.pc + 24 := by decide +kernel
/-- R207: a word that no table defines traps as ILLEGAL. -/
theorem test_step_illegal : (after (step (State.reset.withFetchWord 32 0x3F000000))).ctx.cause = 1 := by decide +kernel

/-! ## States that meet the hypotheses of the statements, clause by clause -/


/-- A line of the array, readable, writable and owned. -/
def line (va : Nat) (data : LineData) : Line := ⟨va, 0, va, BitVec.allOnes 32, BitVec.allOnes 32, 0, 7, data⟩

/-- AluResults, BitResults, BitFields, DivisionResults. -/
theorem wit_registers : (with' []).canRun [1, 2] 3 = true ∧ (with' []).ctx.readable 3 = true ∧ (with' []).ctx.sreg 2 = 0 ∧
    (with' [(2, 1)]).canRun [1, 2] 3 = true ∧ (with' [(2, 1)]).ctx.sreg 2 ≠ 0 := by decide +kernel
/-- ImmediateResults. -/
theorem wit_immediates : (with' []).canRun [1] 3 = true ∧ (with' []).canRun [] 1 = true ∧
    padd? (with' []).ctx.upc (8 * (⟨false, 1, 0, 0xFF, 0, 0, 0xFFFE00⟩ : LF).imm32.toInt) = some 0 := by decide +kernel
/-- PointerResults: the last address, and past it, up and down. -/
theorem wit_pointers : padd? (2 ^ 52 - 1) 0 = some (2 ^ 52 - 1) ∧ padd? (2 ^ 52 - 1) 1 = none ∧ padd? 0 (-1) = none ∧
    (with' [(1, 2 ^ 52 - 1), (2, 1)]).canRun [1, 2] 3 = true ∧ (with' [(1, 2 ^ 52 - 1)]).canRun [1] 3 = true := by decide +kernel
/-- BranchesAndJumps: taken, not taken, and out of bits [51:0]; LOOP from 1, 0 and 2; JR by each of its outcomes. -/
theorem wit_branches : (with' []).ctx.readable 1 = true ∧ (with' []).ctx.readable 2 = true ∧ (with' []).ctx.sreg 1 = (with' []).ctx.sreg 2 ∧
    (with' [(1, 1)]).ctx.sreg 1 ≠ (with' [(1, 1)]).ctx.sreg 2 ∧ padd? (with' []).ctx.upc (8 * ((0 : BitVec 14).toInt)) ≠ none ∧
    padd? (with' []).ctx.upc (8 * (0x2000 : BitVec 14).toInt) = none ∧
    (with' [(1, 1)]).canRun [1] 1 = true ∧ (with' [(1, 1)]).ctx.sreg 1 = 1 ∧ (with' []).ctx.sreg 1 ≠ 1 := by decide +kernel
theorem wit_jumps : (with' []).canRun [1] 3 = true ∧ padd? ((with' [(1, 2 ^ 52 - 8)]).ctx.sreg 1) (8 * (1 : BitVec 14).toInt) = none ∧
    spaceOf 0x0010000000000000 ≠ 0 ∧ (7 : Word).toNat % 8 ≠ 0 ∧ (with' []).canRun [] 4 = true ∧
    padd? (with' []).ctx.upc (8 * (⟨false, 0, 0, 0x80, 0, 0, 0⟩ : LF).imm32.toInt) = none := by decide +kernel

/-- A pending load of s1. -/
def loads : State := one (tile { ctx [] with pend := [⟨1, 0, 8, true, [], 0, 0, false⟩] })
/-- OperandAndAccessChecks: early reads under STRICT. -/
theorem wit_early_reads : loads.ctx.trust = false ∧ loads.ctx.pendingReg 1 = true := by decide +kernel
/-- OperandAndAccessChecks: no pointer, each space, each alignment; 4 and 8 bytes of an AMO. -/
theorem wit_access_checks :
    let p := fun n => (with' [(1, n)]).ctx.sreg 1
    padd? (p (2 ^ 52 - 1)) ((1 : BitVec 11).toInt * 2) = none ∧ padd? (p 1) ((0 : BitVec 11).toInt * 2) = some 1 ∧
    spaceOf (p 0x0010000000000001) = 1 ∧ addrOf (p 0x0010000000000001) % 2 ≠ 0 ∧ spaceOf (p 0x0050000000000000) = 5 ∧ spaceOf (p 1) = 0 ∧
    addrOf (p 4) % 8 ≠ 0 ∧ addrOf (p 2) % 4 ≠ 0 := by decide +kernel

/-- TrapEntry: a control context, a helper beside a control context, and a context with TIP = 1. -/
def helper : State := { one { tile (ctx []) with ctxs := [(0, ctx []), (1, ctx [])] } with cid := 1 }
theorem wit_trap_entry : (with' []).cid = 0 ∧ (with' []).ctx.tip = false ∧ (with' []).compute = false ∧ helper.cid ≠ 0 ∧
    helper.compute = false ∧ mhas (helper.tile helper.cur).ctxs 0 = true ∧ (one (tile { ctx [] with tip := true })).ctx.tip = true ∧
    (0x30 : BitVec 8) ≠ cHELPERTRAP := by decide +kernel
/-- TrapInstructions: user privilege; a handler that returns. -/
def handler : State := one (tile { ctx [(1, 7)] with priv := true, tip := true })
theorem wit_trap_return : (with' []).ctx.priv = false ∧ handler.ctx.priv = true ∧ handler.ctx.mx = false ∧ handler.ctx.kept = none ∧
    handler.releasable = true := by decide +kernel
/-- CsrReads: as user and as supervisor, of a register that a user may read and of one that it may not. -/
theorem wit_csr_reads : csrIndexed 1 = false ∧ csrIndexed 0x10 = false ∧ (with' []).canRun [] 3 = true ∧ (with' []).retired = true ∧
    csrReadPriv 1 = false ∧ csrReadPriv 0x10 = true ∧ (with' []).ctx.priv = false ∧ handler.retired = true := by decide +kernel
/-- CsrWrites: each register number of a clause, read-only ones, and the last and first index that is and is not one. -/
theorem wit_csr_writes : handler.ctx.priv = true ∧ handler.ctx.readable 1 = true ∧ handler.ctx.readable 2 = true ∧ handler.retired = true ∧
    (∀ n ∈ [0, 2, 4, 6, 7, 16], ∃ b < 32, ∃ p < 32, (⟨false, 0, 1, BitVec.ofNat 5 b, BitVec.ofNat 5 p⟩ : CF).csr = n) ∧
    csrReadOnly (⟨false, 0, 1, 0, 18⟩ : CF).csr 0 = true ∧ csrIndexed (⟨false, 0, 1, 0, 18⟩ : CF).csr = false ∧
    (handler.tile handler.cur).engine.busy = false ∧ (handler.tile handler.cur).engine.outgoing = none ∧
    (with' [(2, 127)]).ctx.sreg 2 = 127 ∧ (with' [(2, 128)]).ctx.sreg 2 = 128 ∧ (with' [(2, 63)]).ctx.sreg 2 = 63 ∧ (with' [(2, 64)]).ctx.sreg 2 = 64 := by
  decide +kernel
/-- MailboxesAndMasks: empty and full mailboxes, the first and the last, in a control context and in a helper; masks 1 and 3. -/
def mail : State := one (tile { ctx [] with mbs := Ctx.reset.mbs.setIfInBounds 7 ⟨5, true, 0, true, 0⟩ })
theorem wit_mailboxes : mail.ctx.readable 1 = true ∧ (mail.ctx.mbs.getD 7 Mailbox.reset).full = true ∧
    (mail.ctx.mbs.getD 0 Mailbox.reset).full = false ∧ mail.canRun [] 3 = true ∧ mail.canRun [] 4 = true ∧
    ((mail.tile mail.cur).pips.all fun e => e.2.st ≠ .landed) = true ∧ mail.cid = 0 ∧ helper.cid ≠ 0 ∧
    (helper.ctx.mbs.getD 0 Mailbox.reset).full = false ∧ (1 : BitVec 5).toNat = 1 ∧ (3 : BitVec 5).toNat ≤ 3 := by decide +kernel
/-- FencesAndFlags. -/
theorem wit_fences : (with' []).releasable = true ∧ ((with' []).ctx.pend.all fun l => !l.acq) = true ∧ (with' []).ctx.pend.length ≤ 0 ∧
    (loads.ctx.pend.filter fun l => l.seq ≤ loads.ctx.useq) = loads.ctx.pend ∧ loads.ctx.lostLoads = [] ∧ (with' []).ctx.backlog = [] ∧
    loads.ctx.pend = [⟨1, 0, 8, true, [], 0, 0, false⟩] ∧ loads.compute = false ∧ (with' []).retired = true ∧
    (with' []).ctx.flags &&& (0x7FF : BitVec 11) = 0 ∧ (one (tile { ctx [] with flags := 1 })).ctx.flags &&& (1 : BitVec 11) ≠ 0 ∧
    Ctx.reset.firstV = false ∧ (1 : BitVec 11) &&& ~~~Ctx.reset.flags ≠ 0 ∧ (0 : BitVec 11) &&& ~~~Ctx.reset.flags = 0 ∧
    ({ Ctx.reset with firstV := true } : Ctx).firstV = true := by decide +kernel
/-- FencesAndFlags: a FENCE of the compute stream with its unit at the head of the backlog; a lost load that QWAIT 0 covers, and one that it does not. -/
def queued : Part := ⟨0x1000, 0, 0, 0, Vector.replicate 32 0, Vector.replicate 3 KReg.reset, [], false, false, none⟩
theorem wit_refetch :
    let s := { one (tile { ctx [] with backlog := [queued, { queued with pc := 0x1008, seq := 1 }] }) with compute := true }
    let lost := fun after => (one (tile { ctx [] with lostLoads := [⟨0x15, 5, 0, after⟩] })).ctx
    s.releasable = true ∧ (s.ctx.pend.all fun l => !l.acq) = true ∧ s.ctx.backlog.head? = some queued ∧ queued.seq = s.ctx.useq ∧
      (lost []).lostLoads = [⟨0x15, 5, 0, []⟩] ∧ 0 ≤ (lost []).useq ∧ ([] : List Nat).length ≤ 0 ∧ ¬ ([0].filter fun m => m ≤ (lost [0]).useq).length ≤ 0 := by
  decide +kernel
/-- BarrierPhases: nothing expected; the last arrival, one short, one too many. -/
theorem wit_barrier_phases : Barrier.reset.toV.expArr = 0 ∧ Barrier.reset.toV.expBytes = 0 ∧
    (let b : BarV := ⟨2, 0, false, false, 1, 0, 0⟩
    b.expArr ≠ 0 ∧ b.pendArr ≤ 1 ∧ b.pendBytes ≤ 0 ∧ 0 < b.pendArr ∧ b.pendBytes < 1) := by decide +kernel
/-- LocalBarrierUpdates, LocalBarrierWaits: the first and the last barrier, observed and not. -/
def barriers : State := one { tile (ctx [(1, 0x180)]) with bars := Tile.reset.bars.setIfInBounds 15 ⟨1, 0, true, false, 1, 0, 1⟩ }
theorem wit_local_barriers : (15 : BitVec 5).toNat < 16 ∧ barriers.ctx.readable 1 = true ∧ barriers.ctx.readable 2 = true ∧ barriers.releasable = true ∧
    barriers.canRun [] 3 = true ∧ ((barriers.tile barriers.cur).bars.getD 15 Barrier.reset).done ≠ barriers.ctx.seen.getD 15 0 ∧
    ((barriers.tile barriers.cur).bars.getD 0 Barrier.reset).done = barriers.ctx.seen.getD 0 0 ∧ barriers.cid = 0 ∧ helper.cid ≠ 0 ∧
    ((helper.tile helper.cur).bars.getD 0 Barrier.reset).done = helper.ctx.seen.getD 0 0 ∧ helper.canRun [] 3 = true := by decide +kernel
/-- LocalBarrierUpdates: an arrival alone in its cycle, after a credit, and after another arrival. -/
theorem wit_ports :
    let old := (barriers.tile 0).bars.getD 15 Barrier.reset
    let port := fun (arr : Bool) => (⟨localName 0 15, barriers.now, old.toV, old.toV, arr, if arr then none else some 0, []⟩ : BarPort)
    barriers.ports = [] ∧ ({ barriers with ports := [port true] } : State).releasable = true ∧ (port false).credit = some 0 ∧ (port false).post = old.toV := by
  decide +kernel
/-- LocalBarrierWaits, BWANY: the last barrier of the high half is the first fresh one; none of an empty mask. -/
theorem wit_bwany : barriers.canRun [1] 3 = true ∧
    (let a := barriers.ctx.sreg 1
    let fresh := fun (i : Nat) => a.getLsbD i = true ∧ ((barriers.tile barriers.cur).bars.getD (8 + i) Barrier.reset).done ≠ barriers.ctx.seen.getD (8 + i) 0
    a.getLsbD 8 = true ∧ fresh 7 ∧ ∀ r < 7, ¬ fresh r) ∧ ∀ i < 8, ((with' []).ctx.sreg 1).getLsbD i = false := by decide +kernel

/-- A line of scratch that the launch pinned. -/
def pin : PinLine := { PinLine.zero with pid := 1 }
/-- A tile with its control context, local lines 0 to n - 1 pinned, and lines of the array. -/
def cell (k : Ctx) (n : Nat) (ls : List Line) : Tile :=
  { tile k with pins := (List.range n).map (fun i => (i, pin)), lines := ls }
/-- A leaf with every permission that maps the first 512 MiB to themselves. -/
def leaf : Word := BitVec.ofNat 64 (leafEntry 0)
/-- That tile on a package whose first cluster has the leaf in its TLB. -/
def mapped (x : Tile) : State := { one x with
  devices := [(0, { Device.reset with clusters := [(0, { Cluster.reset with tlb := [⟨0, 0, true, leaf⟩] })] })] }

/-- LocalMemory: the last bytes of the last pinned line; an unpinned one; the end of scratch. -/
theorem wit_local :
    let s := one (cell (ctx [(1, 0x001000000000007C)]) 1 [])
    let p : Word := 0x001000000000007C
    padd? (s.ctx.sreg 1) ((0 : BitVec 11).toInt * 4) = some p ∧ spaceOf p = 1 ∧ addrOf p % 4 = 0 ∧ s.clear = true ∧ addrOf p < 0xA0000 ∧
      mhas (s.tile s.cur).pins (addrOf p / 128) = true ∧ s.canRun [1] 3 = true ∧ s.ctx.readable 1 = true ∧ s.ctx.readable 3 = true ∧
      mhas ((with' []).tile 0).pins (addrOf p / 128) = false ∧ (with' []).clear = true ∧ 0xA0000 ≤ addrOf 0x00100000000A0000 := by decide +kernel
theorem wit_lines :
    let s := one (cell (ctx [(1, 0x80)]) 0 [line 1 0])
    s.ctx.readable 1 = true ∧ spaceOf (s.ctx.sreg 1) = 0 ∧ (s.tile s.cur).line (addrOf (s.ctx.sreg 1) / 128) s.ctx.asid = some (line 1 0) ∧
      s.held = [] ∧ ((with' []).tile 0).line 0 (with' []).ctx.asid = none ∧ spaceOf 0x0010000000000000 ≠ 0 := by decide +kernel
/-- LocalMemory: the line's registration waits at its home. -/
def registering (va gl : Nat) (perm : BitVec 3) : Held :=
  { id := 4, tile := 0, pid := 1, self := 0, cid := 0, unit := 0, gl := gl, words := 3, work := .register 0xFF 5, ptr := 0x80, seq := 0, stage := .home
    via := none, slot := none, fill := some ⟨gl, va, 0, perm⟩, mine := 0, mineData := 0, answer := none, lost := false, cause := 0 }
theorem wit_lines_registering :
    let s := { one (cell (ctx [(1, 0x80)]) 0 [line 1 0]) with held := [registering 1 1 7] }
    s.ctx.readable 1 = true ∧ s.held = [registering 1 1 7] ∧ (registering 1 1 7).registers s.cur (line 1 0).gl = true ∧
      (registering 1 1 7).words ≠ 0 := by decide +kernel
/-- GlobalLoads, GlobalStores: the last doubleword of an owned line. -/
theorem wit_global_hits :
    let s := one (cell (ctx [(1, 0xF8)]) 0 [line 1 5])
    let p : Word := 0xF8
    let l := line 1 5
    padd? (s.ctx.sreg 1) ((0 : BitVec 11).toInt * 8) = some p ∧ spaceOf p = 0 ∧ addrOf p % 8 = 0 ∧ s.canRun [1] 3 = true ∧ s.clear = true ∧
      s.ctx.loadsBehind = true ∧ (s.ctx.pend.all fun l => !l.acq) = true ∧ s.ctx.effects = [] ∧
      (s.tile s.cur).line (addrOf p / 128) s.ctx.asid = some l ∧ spanWords (addrOf p % 128) 8 &&& ~~~l.valid = 0 ∧ l.perm.getLsbD 0 = true ∧
      s.ctx.readable 1 = true ∧ s.ctx.readable 3 = true ∧ s.cid = 0 ∧ spanWords (addrOf p % 128) 8 &&& ~~~l.own = 0 ∧ l.perm.getLsbD 1 = true ∧
      s.releasable = true := by decide +kernel
/-- GlobalLoads, GlobalStores, Atomics, GlobalBarriers: an access of each kind to a mapped line that concerns no one. -/
def missing : State := mapped (cell (ctx [(1, 0xF8)]) 0 [])
theorem wit_global_misses : padd? (missing.ctx.sreg 1) ((0 : BitVec 11).toInt * 8) = some 0xF8 ∧ missing.canRun [1] 3 = true ∧
    missing.clear = true ∧ (missing.tile missing.cur).lines = [] ∧ leaf.getLsbD 57 = true ∧ 0 < (missing.tile missing.cur).ways (0xF8 / 128 % 256) ∧
    missing.ctx.loadsBehind = true ∧
    missing.releasable = true ∧ Memory.wf missing.mem = true ∧ missing.cid = 0 ∧ missing.ctx.readable 2 = true ∧ missing.canRun [1, 2] 3 = true := by
  decide +kernel
theorem wit_global_maps : ∀ a ∈ [Acc.load, .store, .amo], missing.mapped 0xF8 a 0xF8 leaf := by
  intro a ha
  exists ⟨0, 0, true, leaf⟩
  revert a
  decide +kernel
theorem wit_global_calm : missing.calmLine 0xF8 := by unfold State.calmLine; decide +kernel
/-- Atomics: 4 and 8 bytes, with and without the release; the two outcomes of AMOCAS. -/
theorem wit_atomics : (⟨false, 3, 1, 2, 2, 1⟩ : AF).order.getLsbD 1 = true ∧ (⟨false, 3, 1, 2, 0, 0⟩ : AF).order.getLsbD 1 = false ∧
    addrOf 0xF8 % 8 = 0 ∧ readNat (mapped (cell (ctx [(1, 0xF8)]) 0 [])).mem 0xF8 8 = 0 := by decide +kernel
/-- GlobalBarriers: an object with a phase not seen, and one seen. -/
def objects : State := mapped (cell (ctx [(1, 0xE0), (3, 0xE0)]) 0 [])
theorem wit_global_barriers :
    let s := objects
    let p : Word := 0xE0
    (0x10 : BitVec 5).getLsbD 4 = true ∧ s.ports = [] ∧ s.cid = 0 ∧ s.answered = true ∧ Memory.wf s.mem = true ∧ s.ctx.readable 1 = true ∧ s.ctx.readable 2 = true ∧
      s.ctx.readable 3 = true ∧ p = s.ctx.sreg 1 ∧ p = s.ctx.sreg 3 ∧ spaceOf p = 0 ∧ addrOf p % 32 = 0 ∧
      s.releasable = true ∧ (BarV.ofNat (readNat s.mem 0xE0 32)).done = (s.ctx.sreg 2).toNat % 2 ^ 32 ∧
      (BarV.ofNat (readNat s.mem 0xE0 32)).done ≠ (1 : Word).toNat % 2 ^ 32 ∧ s.ctx.pendingReg 3 = false := by decide +kernel
theorem wit_objects : objects.calmLine 0xE0 ∧ objects.mapped (addrOf 0xE0) .amo 0xE0 leaf ∧ objects.mapped (addrOf 0xE0) .load 0xE0 leaf :=
  ⟨by unfold State.calmLine; decide +kernel, ⟨⟨0, 0, true, leaf⟩, by decide +kernel⟩, ⟨⟨0, 0, true, leaf⟩, by decide +kernel⟩⟩

/-- A landing slot of one chunk, and its handle. -/
def landing : State := one { tile (ctx [(1, 0x0030000000000000), (2, 1)]) with slots := [(0, ⟨true, 1, 1, 0, 0, 0⟩)] }
/-- LandingSlots: the last chunk of scratch, past it, misaligned; with slots 0 to 30 taken; all taken; a handle, a stale one; the
chunk's bit, past it, set and clear. -/
theorem wit_slots :
    let full := fun n => (List.range n).map fun i => (i, (⟨true, 1, 1, 0, 0, 0⟩ : Slot))
    let s := one { tile (ctx [(3, 0x9FE00)]) with slots := full 31 }
    let lines := (List.range 4).map fun i => 0x9FE00 / 128 + i
    s.canRun [3] 3 = true ∧ ((s.tile 0).slot 31).alloc = false ∧ (∀ j < 31, ((s.tile 0).slot j).alloc = true) ∧ 0x9FE00 % 512 = 0 ∧
      0x9FE00 + 512 * 1 ≤ 0xA0000 ∧ (s.tile 0).canPin lines = true ∧ (s.tile 0).lines = [] ∧ 0xA0000 < 0x9FE00 + 512 * 2 ∧ 0x9FE01 % 512 ≠ 0 ∧
      (∀ j < 32, ((one { tile (ctx []) with slots := full 32 }).tile 0 |>.slot j).alloc = true) ∧
      (one { tile (ctx [(3, 0x9FE00)]) with pins := [(0x9FE00 / 128, pin)] } |>.tile 0).canPin lines = false := by decide +kernel
theorem wit_handles : landing.ctx.readable 1 = true ∧ landing.handleOk (landing.ctx.sreg 1) = true ∧ (with' [(1, 0x0030000000000000)]).handleOk 0x0030000000000000 = false ∧
    (landing.tile 0).engine.queue = [] ∧ (landing.tile 0).gate = [] ∧ landing.canRun [1, 2] 3 = true ∧ (1 : BitVec 128).toNat < 2 ^ 1 ∧
    ¬ (2 : BitVec 128).toNat < 2 ^ 1 ∧ ((landing.tile 0).slot 0).chunks &&& 1#128 ≠ 1#128 ∧
    (⟨true, 1, 1, 0, 1, 0⟩ : Slot).chunks &&& 1#128 = 1#128 ∧ landing.cid = 0 ∧ helper.cid ≠ 0 := by decide +kernel
/-- Pips: in a helper; with slots 64 to 126 taken; all taken; a live pip, a landed one that a store delivered, a spent one; another
tile's; a full mailbox. -/
def pips (n : Nat) : Map Pip := (List.range n).map fun i => (64 + i, { Pip.reset with st := .live, pid := 1 })
def live : State := one { tile { ctx [(1, 0x0020000008000000)] with mbs := Ctx.reset.mbs.setIfInBounds 0 ⟨0, true, 0, false, 0⟩ } with pips := pips 1 }
theorem wit_pips : helper.canRun [] 3 = true ∧ helper.cid ≠ 0 ∧ (∀ j, 64 ≤ j → j < 128 → ((one { tile (ctx []) with pips := pips 64 }).tile 0 |>.pip j).st ≠ .free) ∧
    ((one { tile (ctx []) with pips := pips 63 }).tile 0 |>.pip 127).st = .free ∧
    (∀ i, 64 ≤ i → i < 127 → ((one { tile (ctx []) with pips := pips 63 }).tile 0 |>.pip i).st ≠ .free) := by
  refine ⟨by decide +kernel, by decide +kernel, ?_, by decide +kernel, ?_⟩
  · have h : ∀ j < 128, 64 ≤ j → ((one { tile (ctx []) with pips := pips 64 }).tile 0 |>.pip j).st ≠ .free := by decide +kernel
    exact fun j a b => h j b a
  · have h : ∀ j < 127, 64 ≤ j → ((one { tile (ctx []) with pips := pips 63 }).tile 0 |>.pip j).st ≠ .free := by decide +kernel
    exact fun j a b => h j b a
theorem wit_pip_names :
    let p := live.ctx.sreg 1
    let k := (live.tile 0).pip (pipSlot p)
    live.canRun [1] 3 = true ∧ live.cid = 0 ∧ spaceOf p = 2 ∧ ptrDev p = live.devNum 0 ∧ ptrTile p = numOf 0 ∧ pipSlot p = 64 ∧ k.st = .live ∧
      k.gen.toNat = pipGen p ∧ k.cid = 0 ∧ k.pid = (live.tile 0).pid ∧ (live.ctx.mbs.getD k.mb Mailbox.reset).full = true ∧
      ptrTile 0x0020000018000000 ≠ numOf 0 ∧ spaceOf 0 ≠ 2 ∧ ((with' []).tile 0 |>.pip 64).st ≠ .live ∧ ((with' []).tile 0 |>.pip 64).st ≠ .landed ∧
      (let q : Pip := { Pip.reset with st := .landed, delivered := true, gen := 1 }
      q.st = .landed ∧ q.delivered = true ∧ (q.gen - 1).toNat = pipGen p) := by decide +kernel

/-- CopyInstructions, CPY: destinations in the four spaces, another space, a source in scratch and out of it; no tile; one transfer queued,
and two. -/
def xfer : Xfer := Xfer.new 0 false 0 0 8 31 ⟨1, 0, 0, 0, 0, 0, false, 0⟩
theorem wit_cpy : (with' []).ctx.readable 1 = true ∧ (with' []).cid = 0 ∧ spaceOf 0 = 0 ∧ spaceOf 0x0010000000000000 = 1 ∧
    spaceOf 0x0030000000000000 = 3 ∧ spaceOf 0x0040000000000000 = 4 ∧ spaceOf 0x0020000000000000 = 2 ∧ 1 < spaceOf 0x0020000000000000 ∧
    2688 ≤ ptrTile 0x003000A800000000 ∧ ptrTile 0x003000A7F0000000 < 2688 ∧ ((one { tile (ctx []) with direct := [xfer] }).tile 0).direct.length < 2 ∧
    2 ≤ ((one { tile (ctx []) with direct := [xfer, xfer] }).tile 0).direct.length ∧ (one { tile (ctx []) with direct := [xfer] }).releasable = true := by
  decide +kernel
/-- CopyInstructions, channels: the last channel idle and running; a direct transfer of the context. -/
theorem wit_channels :
    let s := with' [(1, 0x40)]
    let r := one { tile (ctx []) with chans := Tile.reset.chans.setIfInBounds 3 ⟨.running, 0, none, 0, Armer.reset⟩ }
    let k := one { tile (ctx []) with direct := [xfer] }
    s.canRun [1] 3 = true ∧ s.cid = 0 ∧ (3 : BitVec 5).toNat < 4 ∧ ((s.tile 0).chans.getD 3 Chan.reset).st ≠ .running ∧ (s.tile 0).held = [] ∧
      s.ctx.vsta = [] ∧ s.storesOpen = false ∧ ((r.tile 0).chans.getD 3 Chan.reset).st = .running ∧ r.canRun [1] 3 = true ∧ (k.tile 0).direct = [xfer] ∧
      xfer.finished = false ∧ xfer.ver = none ∧ xfer.aon = false ∧ xfer.armer.cid = 0 ∧ xfer.armer.pid = (k.tile 0).pid ∧
      xfer.armer.self = (k.tile 0).self ∧ xfer.armer.is k.ctx = true ∧ (∀ e ∈ k.tiles, e.2.pid = xfer.armer.pid → e.2.self = xfer.armer.self → e.1 = k.cur) ∧ mhas (k.tile 0).ctxs 0 = true := by decide +kernel
/-- StoreTrackers: a valid descriptor of 8 bytes at 0x200 with threshold 8, and one with threshold 0; a free tracker and a counting one. -/
def desc (thresh : Nat) : LineData := BitVec.ofNat 1024 (0x200 + 8 * 2 ^ 64 + thresh * 2 ^ 128)
theorem wit_trackers :
    let s := fun n => mapped (cell (ctx [(1, 0x80)]) 0 [line 1 (desc n)])
    let p : Word := 0x80
    let v := fun n => (desc n).toNat % 2 ^ 512
    let e : TlbEntry := ⟨0, 0, true, leaf⟩
    (s 8).canRun [1] 3 = true ∧ (s 8).cid = 0 ∧ p = (s 8).ctx.sreg 1 ∧ spaceOf p = 0 ∧ addrOf p % 64 = 0 ∧ (s 8).clear = true ∧
      ((s 8).ctx.pend.all fun l => !l.acq) = true ∧ (s 8).ctx.effects = [] ∧ ((s 8).tile 0).line 1 0 = some (line 1 (desc 8)) ∧
      spanWords (addrOf p % 128) 64 &&& ~~~(line 1 (desc 8)).valid = 0 ∧ (line 1 (desc 8)).perm.getLsbD 0 = true ∧
      (((s 8).dev 0).cluster 0).tlb = [e] ∧ e.hits 0 (addrOf p) = true ∧ permits e.attr .load false = true ∧
      (s 8).globalAddr 0 (leafPa e.attr e.large (addrOf p)) = some 0x80 ∧ (s 8).lineReached 0 1 = true ∧ trackerDescOk (v 0) = false ∧
      trackerDescOk (v 8) = true ∧ (dword (v 8) 3).toNat / 2 ^ 60 = 0 ∧ e.hits 0 (addrOf (dword (v 8) 0)) = true ∧
      (s 8).rangeAt 0 (leafPa e.attr e.large (addrOf (dword (v 8) 0))) (2 ^ 29) ((dword (v 8) 1).toNat % 2 ^ 40) = some 0x200 ∧
      ((((s 8).dev 0).cluster 0).tracker 63).st = .free ∧ (s 8).canRun [] 3 = true ∧
      ({ Tracker.reset with st := .counting } : Tracker).st ≠ .free := by decide +kernel

/-- A context with its banks, v0 to v7 and an element in every source. -/
def vec (k : Ctx) : Ctx := { k with
  banks := 1, vregs := List.replicate 8 ⟨0x3F800000, 0, 0⟩, mbs := Vector.replicate 8 ⟨2, true, 0, false, 0⟩
  dqs := Vector.replicate 4 [⟨3, true, [], 0, 0⟩] }
def vecs : State := one (tile (vec (ctx [])))
/-- VectorIntegers, VectorFloats, VectorConversions, LaneSelect, VectorMasks, VectorLanes: named registers, one mailbox as both sources, two
entries of one data queue where there are two; discarded and queued results; masks 0 and 3; two data types. -/
theorem wit_vectors : vecs.canVector ⟨0, 0, 0, 19, 16, 17⟩ true = true ∧ vecs.canVector ⟨0, 3, 2, 0, 48, 48⟩ true = true ∧
    vecs.canVector ⟨0, 0, 7, 56, 59, 60⟩ true = true ∧ vecs.canVector ⟨0, 0, 2, 20, 16, 56⟩ false = true ∧
    vecs.canSource 19 = true ∧ vecs.canSource 0 = true ∧ (vecs.issueAt (vecs.tile 0).sfuBusy).canVector ⟨0, 0, 2, 0, 16, 56⟩ false = true := by
  decide +kernel
theorem wit_conversions : (vecs.dev 0).featAck.getLsbD 1 = false ∧
    (({ vecs with devices := [(0, { Device.reset with featAck := 2 })] } : State).dev 0).featAck.getLsbD 1 = true ∧
    ({ vecs with devices := [(0, { Device.reset with featAck := 2 })] } : State).canVector ⟨0, 0, 6, 0, 16, 0x30⟩ false = true ∧
    vecs.canVector ⟨0, 0, 2, 0, 16, 0x10⟩ false = true ∧ (2 : BitVec 2).toNat = 2 ∧ (3 : BitVec 2).toNat ≠ 2 := by decide +kernel
theorem wit_masks : vecs.canMask (56 - 56) = true ∧ vecs.canMask (59 - 56) = true ∧ 57 ≤ (57 : BitVec 6).toNat ∧ (59 : BitVec 6).toNat < 60 ∧
    vecs.ctx.rangeBad 23 = false ∧ vecs.ctx.vregs.length = 8 * vecs.ctx.banks := by decide +kernel
/-- VectorLanes: a mask with active lanes, which all lanes are. -/
theorem wit_lanes : ((List.range 64).filter fun i => activeBit 32 (vecs.opK ⟨0, 0, 0, 0, 16, 56⟩) i) ≠ [] := by decide +kernel
/-- VectorLoadsAndStores, VLD: 8 pinned bytes to splat; an unpinned byte after them; a decoded load; an array hit. -/
theorem wit_vld :
    let s := one (cell (ctx [(1, 0x0010000000000078), (2, 0x4810000000000000)]) 1 [])
    let p : Word := 0x0010000000000078
    s.ctx.readable 1 = true ∧ padd? (s.ctx.sreg 1) ((0 : BitVec 11).toInt * vldWidth 4) = some p ∧ (s.ctx.dqs.getD 3 []).length < 4 ∧ s.clear = true ∧
      addrOf p % 8 = 0 ∧ vldBytes 4 p = 8 ∧ spaceOf p = 1 ∧ (∀ i < 8, addrOf p + i < 0xA0000 ∧ mhas (s.tile 0).pins ((addrOf p + i) / 128) = true) ∧
      (∃ i < 256, mhas (s.tile 0).pins ((0 + i) / 128) = false) ∧ (decFmt 0x4810000000000000).isSome = true ∧ vldBytes 6 0x4810000000000000 = 64 ∧
      (∀ i < 64, 0 + i < 0xA0000 ∧ mhas (s.tile 0).pins ((0 + i) / 128) = true) := by decide +kernel
theorem wit_vld_hit :
    let s := one (cell (ctx [(1, 0x80)]) 0 [line 1 5])
    vldBytes 1 0x80 ≤ 128 ∧ (1 : BitVec 3) ≠ 6 ∧ (s.ctx.pend.all fun l => !l.acq) = true ∧ s.ctx.effects = [] ∧
      (s.tile 0).line 1 0 = some (line 1 5) ∧ spanWords 0 128 &&& ~~~(line 1 5).valid = 0 ∧ (line 1 5).perm.getLsbD 0 = true ∧ s.clear = true := by
  decide +kernel
/-- VectorLoadsAndStores: VSTA to the last bytes of a pinned line and to a mapped one; VSTD; a complete pair. -/
def storing' : State := mapped (cell (ctx [(1, 0x0010000000000040), (2, 0x80)]) 1 [])
theorem wit_vsta :
    let s := storing'
    s.ctx.readable 1 = true ∧ padd? (s.ctx.sreg 1) ((0 : BitVec 11).toInt * (256 / 2 ^ 2 : Nat)) = some 0x0010000000000040 ∧ s.ctx.vsta.length < 8 ∧
      addrOf 0x0010000000000040 % 64 = 0 ∧ (2 : BitVec 3).toNat ≤ 6 ∧ spaceOf 0x0010000000000040 = 1 ∧
      (∀ i < 64, 0x40 + i < 0xA0000 ∧ mhas (s.tile 0).pins ((0x40 + i) / 128) = true) ∧ spaceOf 0x80 = 0 := by decide +kernel
theorem wit_vsta_mapped : storing'.mapped 0x80 .store 0x80 leaf ∧ storing'.calmLine 0x80 :=
  ⟨⟨⟨0, 0, true, leaf⟩, by decide +kernel⟩, by unfold State.calmLine; decide +kernel⟩
def pair : State := one (cell { ctx [] with vsta := [⟨0x0010000000000040, 64, [], 0, 0⟩], vstd := [⟨0xFFFF, 7, 0⟩] } 1 [])
theorem wit_pair : vecs.canVector ⟨0, 0, 0, 56, 16, 56⟩ false = true ∧ vecs.ctx.vstd.length < 8 ∧
    (pair.ctxAt 0 0).vsta = [⟨0x0010000000000040, 64, [], 0, 0⟩] ∧ (pair.ctxAt 0 0).vstd = [⟨0xFFFF, 7, 0⟩] ∧ (pair.ctxAt 0 0).backlog = [] ∧
    ((pair.ctxAt 0 0).pend.all fun l => !l.acq) = true ∧ (pair.tile 0).flashUntil ≤ pair.now ∧ spaceOf 0x0010000000000040 = 1 ∧ 64 % 4 = 0 ∧ 64 ≤ 256 ∧ addrOf 0x0010000000000040 % 64 = 0 ∧
    (∀ i < 64, addrOf 0x0010000000000040 + i < 0xA0000 ∧ mhas (pair.tile 0).pins ((addrOf 0x0010000000000040 + i) / 128) = true) := by decide +kernel
/-- GatherAndScatter: all lanes take word 0 of scratch; the gather's entry is the only one of its queue. -/
def gather (d : List DqEntry) : State := one (cell { vec (ctx [(1, 0x0010000000000000)]) with
  vregs := List.replicate 8 ⟨0, 0, 0⟩, dqs := (Vector.replicate 4 []).setIfInBounds 1 d } 1 [])
theorem wit_gather :
    let s := gather [⟨0, false, [], 0, 0⟩]
    let u := s.issueAt (s.issueCycle [1])
    let m := u.maskVal 0
    let base := s.ctx.sreg 1
    let at' := fun i => addrOf base + 4 * el 32 (u.source 1 19) i
    s.ctx.readable 1 = true ∧ s.vectorCalm = true ∧ s.ctx.resumes = false ∧ s.ctx.vsta = [] ∧ (s.tile 0).engine.queue = [] ∧ s.ctx.pend = [] ∧
      u.canMask 0 = true ∧ u.canSource 19 = true ∧ spaceOf base = 1 ∧ addrOf base % 4 = 0 ∧
      (∀ i < 64, m.getLsbD i = true → at' i < 0xA0000 ∧ mhas (s.tile 0).pins (at' i / 128) = true) ∧
      s.ctx.dqs.getD 1 [] = [] ++ [⟨0, false, [], 0, s.ctx.useq⟩] ∧ (∀ j < 4, j ≠ 1 → ((s.ctx.dqs.getD j []).all fun e => e.filled) = true) := by decide +kernel
theorem wit_scatter :
    let s := gather []
    let u := s.issueAt (s.issueCycle [1])
    s.vectorCalm = true ∧ u.canSource 19 = true ∧ (u.setCtx (u.ctx.sourceTaken 19)).canSource 17 = true ∧ u.canSource 48 = true ∧ isMb 48 = true ∧
      (∀ j < 4, ((s.ctx.dqs.getD j []).all fun e => e.filled) = true) := by decide +kernel

/-- Helpers: in a helper; with a free CTXID 1, with none; entries in another space and misaligned; with one effect line; a live and a stopped
helper, none, and the control context named. -/
def beside (k : Ctx) : State := { one { tile (ctx [(1, 1)]) with ctxs := [(0, ctx [(1, 1)]), (1, k)] } with cid := 1 }
def crowd : State := one { tile (ctx [(1, 0x80)]) with ctxs := (0, ctx [(1, 0x80)]) :: (List.range 10).map fun i => (i + 1, ctx []) }
theorem wit_helpers :
    let s := with' [(1, 0x80)]
    let x := s.tile 0
    helper.cid ≠ 0 ∧ s.cid = 0 ∧ mhas x.ctxs 0 = true ∧ s.canRun [1, 2] 3 = true ∧ spaceOf (s.ctx.sreg 1) = 0 ∧ addrOf (s.ctx.sreg 1) % 8 = 0 ∧
      s.releasable = true ∧ ¬ (8 < x.banksHeld + 4 ∨ storeBytes x.pinLimit < x.imageBytes + acbBytes 1 4) ∧ mhas x.ctxs 1 = false ∧
      ¬ 8 < x.banksHeld + 7 ∧ spaceOf 0x0010000000000000 ≠ 0 ∧ addrOf 4 % 8 ≠ 0 ∧ crowd.canRun [1, 2] 3 = true ∧ crowd.releasable = true := by
  decide +kernel
theorem wit_crowd (c : Nat) (a : 1 ≤ c) (b : c ≤ 10) : mhas (crowd.tile 0).ctxs c = true :=
  (by decide +kernel : ∀ c < 11, 1 ≤ c → mhas (crowd.tile 0).ctxs c = true) c (by omega) a
def eff : EffLine := ⟨1, 1, 0xFF, 5, 0, 0⟩
theorem wit_helper_ends :
    let s := beside { ctx [] with effects := [eff] }
    (beside (ctx [])).cid ≠ 0 ∧ (beside (ctx [])).releasable = true ∧ Map.rises ((beside (ctx [])).tile 0).ctxs = true ∧
      (beside (ctx [])).ctx.heldArrivals = [] ∧ (beside (ctx [])).ctx.effects = [] ∧ s.ctx.effects = [eff] ∧ pkgOfGl eff.gl = pkgOf s.cur ∧
      (s.dir eff.gl).st = .normal ∧ s.held = [] ∧ s.noTrackers (pkgOfGl eff.gl) := by
  unfold State.noTrackers; decide +kernel
theorem wit_joins :
    let s := { beside (ctx []) with cid := 0 }
    let u := { beside { ctx [] with stopped := true } with cid := 0 }
    s.canRun [1] 3 = true ∧ (s.ctx.sreg 1).toNat % 16 = 1 ∧ mhas (s.tile 0).ctxs 1 = true ∧ ((s.tile 0).ctx 1).stopped = false ∧
      Map.rises (s.tile 0).ctxs = true ∧ ((s.tile 0).ctx 1).effects = [] ∧ ((u.tile 0).ctx 1).stopped = true ∧ ((with' []).ctx.sreg 1).toNat % 16 = 0 ∧
      mhas ((with' [(1, 1)]).tile 0).ctxs 1 = false ∧ mget 3 ((with' [(1, 1)]).tile 0).joins 1 = 3 ∧
      mget 3 ((one { tile (ctx [(1, 1)]) with joins := [(1, 0)] }).tile 0).joins 1 = 0 := by decide +kernel
/-- Tasks: records with 5 inputs, with a bad one, with none; a gate of 15 tasks and of 16; a task that may start. -/
def task : Task := ⟨0x80, 0x100, [], 0, 2, 0⟩
def asks (n : Nat) (g : List Task) : State := one { cell (ctx [(1, 0x80), (2, 0x100)]) 0 [line 2 (BitVec.ofNat 1024 n)] with gate := g }
theorem wit_tasks :
    let l := fun n => line 2 (BitVec.ofNat 1024 n)
    let s := asks 5 []
    s.cid = 0 ∧ s.releasable = true ∧ s.canRun [1, 2] 3 = true ∧ spaceOf (s.ctx.sreg 1) = 0 ∧ addrOf (s.ctx.sreg 1) % 8 = 0 ∧ addrOf (s.ctx.sreg 2) % 8 = 0 ∧
      4 < ((l 5).word 0x100 0).toNat % 8 ∧ s.cached 0x100 8 (l 5) ∧ ((l 4).word 0x100 0).toNat % 8 ≤ 4 ∧ (asks 1 []).cached 0x100 32 (l 1) ∧
      (asks 1 []).handleOk ((l 1).word 0x100 1) = false ∧ (asks 0 []).cached 0x100 8 (l 0) ∧ (asks 4 []).cached 0x100 104 (l 4) ∧
      (List.replicate 15 task).length < 16 ∧ 16 ≤ ((asks 0 (List.replicate 16 task)).tile 0).gate.length := by
  unfold State.cached
  decide +kernel
theorem wit_task_start :
    let x := (one { tile (ctx []) with gate := [task] }).tile 0
    x.gate = [task] ∧ mhas x.ctxs 0 = true ∧ x.fenced = false ∧ x.quiet = none ∧ x.gateFrom ≤ State.reset.now ∧ task.inputs = [] ∧
      ¬ (8 < x.banksHeld + task.banks ∨ storeBytes x.pinLimit < x.imageBytes + acbBytes 1 task.banks) ∧ mhas x.ctxs 1 = false := by decide +kernel
/-- Gangs: a mask without the tile, with a tile of another partition, with a ganged member, one that clashes; two tiles of which the other has
asked, and has not. -/
def pairOf (g h : Option (BitVec 8)) (n : Option Nat) : State := { State.reset with
  tiles := [(0, { tile (ctx [(1, 3)]) with fuse := g }), (1, { tile (ctx [(1, 3)]) with fuse := h, gang := n })] }
theorem wit_gangs :
    let s := pairOf none (some 3) none
    s.cid = 0 ∧ mhas (s.tile 0).ctxs 0 = true ∧ s.canRun [1] 3 = true ∧ (3 : BitVec 8).getLsbD 0 = true ∧ (2 : BitVec 8).getLsbD 0 = false ∧
      s.inPartition 0 1 = true ∧ s.inPartition 1 1 = true ∧ s.inPartition 2 1 = false ∧ (s.tile 1).gang.isSome = false ∧ (s.tile 1).fuse = some 3 ∧
      ((pairOf none none (some 1)).tile 1).gang.isSome = true ∧ ((pairOf none none none).tile 1).fuse ≠ some 3 ∧
      ((pairOf none (some 5) none).tile 1).fuse = some 5 ∧ (5 : BitVec 8) ≠ 3 ∧ (5 : BitVec 8).getLsbD 0 = true ∧
      ((pairOf (some 3) none none).tile 0).fuse = some 3 := by decide +kernel
/-- Compacts: a helper; a member between boundaries that has formed and one that has not; no member; published, complete. -/
def member (p : Phase) : Member := ⟨0, 7, 0, 0, p, 0, false⟩
def inCompact (m : Mode) (p : Phase) (pins : Map PinLine) (c : List Compact) : State := { one { tile (ctx [(1, 0x80)]) with
  mode := m, member := some (member p), pins := pins } with compacts := c }
def bound : PinLine := { pin with kind := .compact, gl := some 9, dirty := 1 }
def compact (arrived : List (Nat × Bool)) : Compact := ⟨0, 7, 0x80, [0], [0], true, arrived, [], []⟩
theorem wit_compacts :
    let s := inCompact .member .formed [] []
    let b := inCompact .member .between [(0, bound)] []
    let p := inCompact .member .published [] [compact []]
    helper.cid ≠ 0 ∧ s.cid = 0 ∧ s.canRun [1] 3 = true ∧ (s.tile 0).member = some (member .formed) ∧ (s.tile 0).mode ≠ .signing ∧ s.releasable = true ∧
      ((with' []).tile 0).mode ≠ .member ∧ (b.tile 0).mode = .member ∧ (member .between).lost = false ∧ (b.tile 0).pins = [(0, bound)] ∧
      bound.pid = (b.tile 0).pid ∧ bound.gl = some 9 ∧ (p.tile 0).member = some (member .published) ∧ p.compacts = [compact []] ∧
      (compact []).dev = (member .published).dev ∧ (compact []).cid = (member .published).cid ∧ (compact []).members = [p.cur] ∧ (compact []).arrived = [] ∧
      ((inCompact .member (.complete true false) [] []).tile 0).member = some (member (.complete true false)) ∧
      ((inCompact .member (.complete true false) [] []).tile 0).pins = [] := by decide +kernel
/-- Compacts, CSIGN: a descriptor in one line: a header of n members, the table at 0xA0, whose entry names tile t and one range at 0xC0. -/
def descriptor (n t loff len gva : Nat) : Line := line 1 (BitVec.ofNat 1024 ((7 + n * 2 ^ 16) + 0xA0 * 2 ^ 64 +
  ((t * 2 ^ 12 + 2 ^ 24) + 0xC0 * 2 ^ 64) * 2 ^ 256 + (loff + len * 2 ^ 64 + gva * 2 ^ 128) * 2 ^ 512))
def signs (l : Line) (dirs : Map Dir) : State := { mapped (cell (ctx [(1, 0x80)]) 0 [l]) with dirs := dirs }
theorem wit_csign :
    let l := descriptor 1 0 0x9FF80 128 0
    let b := descriptor 1 0 0x9FF80 (128 + 2 ^ 63) 0x480
    let s := signs l []
    let x := s.tile 0
    let header := fun (l : Line) (i : Nat) => (l.word 0x80 i).toNat
    let entry := fun (l : Line) (i : Nat) => (l.word 0xA0 i).toNat
    let range := fun (l : Line) (i : Nat) => (l.word 0xC0 i).toNat
    s.cid = 0 ∧ s.releasable = true ∧ s.canRun [1] 3 = true ∧ x.member = none ∧ x.mode ≠ .signing ∧ s.ctx.sreg 1 = 0x80 ∧ addrOf 0x80 % 32 = 0 ∧
      header l 0 / 2 ^ 29 = 0 ∧ header l 2 = 0 ∧ header l 0 / 2 ^ 16 % 2 ^ 13 = 1 ∧ header (descriptor 0 0 0 128 0) 0 / 2 ^ 16 % 2 ^ 13 = 0 ∧
      l.word 0x80 1 = 0xA0 ∧ entry l 0 / 2 ^ 30 = 0 ∧ entry l 3 = 0 ∧ entry l 0 / 2 ^ 12 % 2 ^ 12 = 0 ∧ entry l 0 / 2 ^ 6 % 2 ^ 6 = (s.dev 0).domain.toNat ∧
      entry l 0 % 2 ^ 12 = s.devNum 0 ∧ entry (descriptor 1 2687 0 128 0) 0 / 2 ^ 12 % 2 ^ 12 = 2687 ∧ entry (descriptor 1 2688 0 128 0) 0 / 2 ^ 12 % 2 ^ 12 = 2688 ∧
      entry l 0 / 2 ^ 24 % 16 = 1 ∧ l.word 0xA0 1 = 0xC0 ∧ s.pkgOfDev (s.devNum 0) = some 0 ∧ x.lines = [l] ∧ x.pins = [] ∧ x.slots = [] ∧ x.fenced = false ∧
      range l 0 = 0x9FF80 ∧ range l 0 < 0xA0000 ∧ range l 0 % 128 = 0 ∧ range l 1 = 128 ∧ range l 3 = 0 ∧ l.word 0xC0 2 = 0 ∧
      x.pinned (0x9FF80 / 128 % 256) < x.pinLimit ∧ 2 ≤ x.ways (0x9FF80 / 128 % 256) ∧ s.compacts = [] ∧
      ({ x with pinLimit := 0 } : Tile).pinLimit ≤ ({ x with pinLimit := 0 } : Tile).pinned (0x9FF80 / 128 % 256) ∧
      range b 1 / 2 ^ 63 = 1 ∧ range b 1 % 2 ^ 63 = 128 ∧ b.word 0xC0 2 = 0x480 ∧ addrOf 0x480 % 128 = 0 ∧ pkgOfGl 9 = 0 ∧ isHostGl 9 = false ∧ b.gl ≠ 9 ∧
      leaf.getLsbD 58 = true ∧ leaf.getLsbD 57 = true ∧ ((signs b [(9, { Dir.reset with st := .held })]).dir 9).st = .held ∧
      ((signs b [(9, { Dir.reset with st := .poison })]).dir 9).st = .poison := by decide +kernel
theorem wit_csign_reads :
    let l := descriptor 1 0 0x9FF80 (128 + 2 ^ 63) 0x480
    let s := signs l []
    s.cached 0x80 32 l ∧ s.cached 0xA0 32 l ∧ s.cached 0xC0 32 l ∧ s.calmLine 0x480 ∧ s.mapped 0x480 .load 0x480 leaf := by
  refine ⟨?_, ?_, ?_, ?_, ⟨⟨0, 0, true, leaf⟩, by decide +kernel⟩⟩ <;> first | (unfold State.cached; decide +kernel) | (unfold State.calmLine; decide +kernel)
/-- Compacts, CDISS: one bound line, clean, in a set with room and in one without. -/
theorem wit_dissolves :
    let s := inCompact .member (.complete true false) [(0, { bound with dirty := 0 })] []
    let x := s.tile 0
    x.pins = [(0, { bound with dirty := 0 })] ∧ bound.kind = .compact ∧ bound.pid = x.pid ∧ bound.gl = some 9 ∧ x.lines = [] ∧ x.engine.queue = [] ∧
      s.held = [] ∧ 0 < ({ x with pins := [] } : Tile).ways (bound.va % 256) ∧
      ¬ 0 < ({ x with pins := [], parked := [⟨2, x.chans, [], [], [], [], none, none, (List.range 20).map fun i => (256 * i, pin)⟩] } : Tile).ways (bound.va % 256) := by
  decide +kernel
/-- Messages: a ring of two entries, empty, with one entry, full, and none; endpoints past the last; buffers misaligned and in another
space; a time that has passed and one that has not. -/
def ring (n : BitVec 11) : State := one (cell { ctx [(1, 0), (2, 0x0010000000000000), (4, 0x0010000000000000)] with
  recvBase := 2, recvSize := 2, recvCount := n, recvTail := 1 } 2 [])
theorem wit_messages :
    let s := ring 1
    let k := s.ctxAt 0 0
    let e := k.recvBase.toNat * 64 + 64 * k.recvTail.toNat
    s.cid = 0 ∧ mhas (s.tile 0).ctxs 0 = true ∧ s.canRun [1, 2] 3 = true ∧ (s.ctx.pend.all fun l => !l.acq) = true ∧ spaceOf (s.ctx.sreg 2) = 1 ∧ addrOf (s.ctx.sreg 2) % 64 = 0 ∧
      (s.tile 0).holds 0 64 ∧ 2 ^ 24 ≤ (0x1000000 : Word).toNat ∧ 2688 ≤ (0xA80 : Word).toNat % 4096 ∧ (s.ctx.sreg 1).toNat / 4096 = s.devNum 0 ∧
      s.pkgOfDev (s.devNum 0) = some 0 ∧ s.releasable = true ∧ (s.tile 0).fenced = false ∧ k.recvSize ≠ 0 ∧
      (∀ i < 64, e + i < 0xA0000 ∧ mhas (s.tile 0).pins ((e + i) / 128) = true) ∧ k.recvCount ≠ k.recvSize ∧
      ((ring 2).ctxAt 0 0).recvCount = ((ring 2).ctxAt 0 0).recvSize ∧ ((with' []).ctxAt 0 0).recvSize = 0 ∧ spaceOf 0 ≠ 1 ∧
      addrOf 0x0010000000000020 % 64 ≠ 0 ∧ (ring 0).ctx.recvCount = 0 ∧ s.ctx.recvCount ≠ 0 ∧ s.canRun [4, 2] 3 = true ∧
      (ring 0).ctx.timeFrom = none ∧ 0 + ((ring 0).ctx.sreg 1).toNat ≤ (ring 0).issueCycle [1] ∧ (ring 0).issueCycle [4] < 0 + ((ring 0).ctx.sreg 4).toNat := by
  unfold Tile.holds
  decide +kernel
/-- Collectives: an argument block that is good and one with a reserved bit; 15 and 16 live programs, one with the id; registers of the lone
form, good and bad; an id that has ended, and one that never was. -/
def prog (id : Nat) : Prog := ⟨id, 0, 0, 0, 1, 0, false, 0x80, 0x100, 0, 1, 0x80, 0, [0, 0, 0, 0], 0, true, false, none, [], [], 0, [], false⟩
def block (id : Nat) : LineData := BitVec.ofNat 1024 (0x80 + 0x100 * 2 ^ 64 + id * 2 ^ 192)
def coll (l : LineData) (ps : List Prog) (d : Map Word) : State := { one (cell (ctx [(1, 0x80), (4, 0x80), (5, 0x100)]) 0 [line 1 l]) with
  devices := [(0, { Device.reset with regions := [(0, { Region.reset with progs := ps, done := d })] })] }
theorem wit_collectives :
    let s := coll (block 7) [] []
    let l := line 1 (block 7)
    let r := fun (s : State) => (s.dev 0).region 0
    let many := fun n => coll (block 7) ((List.range n).map fun i => prog (100 + i)) []
    s.cid = 0 ∧ s.releasable = true ∧ s.canRun [1] 3 = true ∧ s.ctx.readable 4 = true ∧ s.ctx.readable 5 = true ∧ s.ctx.readable 6 = true ∧ s.cached 0x80 32 l ∧
      (l.word 0x80 3).toNat / 2 ^ 12 = 0 ∧ (l.word 0x80 2).toNat / 2 ^ 32 = 0 ∧ spaceOf (l.word 0x80 0) = 0 ∧ addrOf (l.word 0x80 0) % 8 = 0 ∧
      spaceOf (l.word 0x80 1) = 0 ∧ addrOf (l.word 0x80 1) % 16 = 0 ∧ (r (many 15)).progs.length < 16 ∧ (∀ q ∈ (r (many 15)).progs, q.id ≠ 7) ∧
      16 ≤ (r (many 16)).progs.length ∧ (∃ q ∈ (r (coll (block 7) [prog 7] [])).progs, q.id = 7) ∧
      ((line 1 (block 4096)).word 0x80 3).toNat / 2 ^ 12 ≠ 0 ∧ s.ctx.sreg 4 = 0x80 ∧ addrOf (s.ctx.sreg 4) % 8 = 0 ∧ addrOf (s.ctx.sreg 5) % 16 = 0 ∧
      addrOf 0x84 % 8 ≠ 0 ∧ mhas (r s).done 0 = false ∧ mhas (r (coll (block 7) [] [(0x80, 5)])).done 0x80 = true ∧ (s.ctx.sreg 1).toNat % 4096 = 0x80 ∧
      helper.cid ≠ 0 := by
  unfold State.cached
  decide +kernel

/-- MatrixCommands. The unit of an MMA of one k-step from local memory into bank 0, and of one from the latch. -/
def mmaUnit : Word := 0x0000000084025040 ||| 2
def latchUnit : Word := 0x0000000084020040
/-- A tile with 48 pinned lines, its engine, and int8 operands at 0 and at 0x800. -/
def matrix (u : Word) (e : Engine) : State := one { cell { ctx [(1, 0x0810000000000000), (5, 0x0810000000000800), (6, 0x2810000000000000), (7, 0x2800000000000000)] with
  unit := u } 48 [] with engine := e }
def ringOf : Engine := { Engine.reset with en := true }
def cmd (u ra rb : Word) (step : Nat) : MCmd := ⟨u, 0x1000, ra, rb, 0, step, 0, []⟩
/-- A tile that has pinned local lines 0 to 47 holds all their bytes. -/
theorem holds_first (x : Tile) (o n : Nat) (h : ∀ l < 48, mhas x.pins l = true) (hn : o + n ≤ 6144) : x.holds o n :=
  fun i hi => ⟨by omega, h _ (by omega)⟩
theorem wit_matrix_operands : (∀ l < 48, mhas ((matrix mmaUnit Engine.reset).tile 0).pins l = true) ∧ aSlice 64 1 = 2048 ∧ bSlice 64 1 = 4096 ∧
    0 + 1 * 2048 ≤ 6144 ∧ 0x800 + 1 * 4096 ≤ 6144 ∧ 0 + 4096 * 1 ≤ 6144 := by decide +kernel
theorem wit_matrix_holds : ((matrix mmaUnit Engine.reset).tile 0).holds 0 (4096 * 1) ∧ ((matrix mmaUnit Engine.reset).tile 0).holds 0x800 (1 * 4096) ∧
    ((matrix mmaUnit Engine.reset).tile 0).holds 0 2048 ∧ ((matrix latchUnit ringOf).tile 0).holds 0 2048 :=
  ⟨holds_first _ _ _ wit_matrix_operands.1 (by omega), holds_first _ _ _ wit_matrix_operands.1 (by omega), holds_first _ _ _ wit_matrix_operands.1 (by omega),
    holds_first _ _ _ (by decide +kernel) (by omega)⟩
/-- Commands with a queue of one entry, of two, of none; a chain open and not. -/
theorem wit_matrix_queue :
    let c := cmd 0 0 0 0
    let s := matrix mmaUnit { Engine.reset with queue := [c] }
    s.cid = 0 ∧ s.ctx.vsta = [] ∧ (s.tile 0).engine.queue ≠ [] ∧ (s.tile 0).engine.queue.length < 2 ∧ (s.tile 0).engine.chain = none ∧
      ((matrix mmaUnit Engine.reset).tile 0).engine.queue = [] ∧ 2 ≤ ((matrix mmaUnit { Engine.reset with queue := [c, c] }).tile 0).engine.queue.length ∧
      ((matrix mmaUnit { Engine.reset with chain := some true }).tile 0).engine.chain ≠ none ∧ s.ctx.readable 1 = true ∧ s.ctx.readable 5 = true := by
  decide +kernel
/-- An MMA from local memory, one from the latch, one that fails a check (a count of 0), and one whose operand is elsewhere. -/
theorem wit_mma :
    let s := matrix mmaUnit Engine.reset
    let m := mmaF mmaUnit 0
    let ra := s.ctx.sreg 1
    let rb := s.ctx.sreg 5
    decodeLone mmaUnit = some (.mma ⟨false, 1, 5, 0x42, 0, 0, 0⟩) ∧ decodeLone latchUnit = some (.mma ⟨false, 1, 0, 0x40, 0, 0, 0⟩) ∧ m.sp = false ∧
      m.n = 1 ∧ addrOf ra % 128 = 0 ∧ fmtOf ra = 1 ∧ m.loc = true ∧ fmtOf rb = 1 ∧ scaleOk 1 (blogOf ra) m.aPlane = true ∧
      (s.tile 0).engine.modeAhead m.bank = .empty ∧ spaceOf ra = 1 ∧ spaceOf rb = 1 ∧ kstepPair 1 1 = some 64 ∧ m.layout < 2 ∧
      scaleOk 1 (blogOf rb) m.bPlane = true ∧ 64 * 1 % 2 ^ blogOf ra = 0 ∧ m.aPlane = 0 ∧ m.bPlane = 0 ∧ spaceOf 0 ≠ 1 ∧ (mmaF 0x0000000084025002 0).n = 0 ∧
      (mmaF latchUnit 0).loc = false ∧ kstepOf 1 = some 64 ∧ ringOf.ringBad 0 = false ∧ (mmaF latchUnit 0).sp = false ∧ (mmaF latchUnit 0).layout = 0 ∧
      (mmaF latchUnit 0).bPlane = 0 ∧ blogOf ra = 0 ∧ ringOf.ringSize * aSlice 64 1 = 2048 ∧
      Engine.reset.ringBad 0 = true := by decide +kernel
/-- MLDB of one buffer, of a third and of none; MSTORE and MLOAD to scratch and to mapped memory, of a format with and without conversion, and of
none; a block-scaled MSTORE. -/
theorem wit_matrix_memory :
    let s := matrix mmaUnit Engine.reset
    let ra := s.ctx.sreg 1
    let z : Word := 0x0800000000000000
    let at' := fun (i : Nat) => (mapped (cell (ctx []) 0 [])).globalAddr 0 (leafPa leaf true (0 + 128 * i))
    spaceOf ra = 1 ∧ (kstepOf 1).isSome = true ∧ scaleOk 1 (blogOf ra) 0 = true ∧ blogOf ra = 0 ∧ 1 + Engine.reset.full + Engine.reset.reserved ≤ 2 ∧
      2 < 2 + ({ Engine.reset with reserved := 1 } : Engine).full + 1 ∧ addrOf ra % 128 = 0 ∧ 256 * fmtBits 1 = 2048 ∧
      fmtOf (s.ctx.sreg 6) = 5 ∧ fmtOf 0xF810000000000000 = 31 ∧ (0x43 : BitVec 12).getLsbD 6 = true ∧ (0x45 : BitVec 12).getLsbD 6 = true ∧
      blogOf 0x4990000000000000 = 3 ∧ narrow (fmtOf 0x4990000000000000) = true ∧ spaceOf z = 0 ∧ addrOf z % 65536 + 2048 ≤ 65536 ∧
      ((((mapped (cell (ctx []) 0 [])).dev 0).cluster 0).tlb.find? fun e => e.hits 0 0) = some ⟨0, 0, true, leaf⟩ ∧ permits leaf .store false = true ∧
      permits leaf .load false = true ∧ (∀ i < 16, at' i = some (128 * i)) ∧ (mapped (cell (ctx []) 0 [])).dirs = [] ∧
      blogOf 0x4990000000000000 ≤ 6 ∧ (Option.isSome (some 3)) = true := by decide +kernel
/-- MatrixEngine, a k-step: of two int8 operands. -/
theorem wit_kstep :
    let c := cmd mmaUnit 0x0810000000000000 0x0810000000000800 0
    let s := matrix 0 { Engine.reset with queue := [c] }
    let e := (s.tile 0).engine
    let m := mmaF c.image c.rc
    e.queue = [c] ∧ c.image.getLsbD 31 = true ∧ c.image.toNat / 2 ^ 22 % 256 = 0x10 ∧ e.stopped = false ∧ e.outgoing = none ∧ e.refused = none ∧
      c.step < m.n ∧ m.loc = true ∧ m.sp = false ∧ m.layout = 0 ∧ m.aPlane = 0 ∧ m.bPlane = 0 ∧ blogOf c.ra = 0 ∧ blogOf c.rb = 0 ∧ fmtOf c.ra = 1 ∧
      fmtOf c.rb = 1 ∧ fmtOf 0x1010000000000000 = 2 ∧ (e.bank m.bank).mode ≠ .float ∧ mhas (s.tile 0).ctxs 0 = true := by decide +kernel
/-- A handover from position 0 to position 1 of a ring of two, to a receiver that refuses it, that has room, and that consumes already. -/
def latch : Latch := ⟨0, 1, 0, 0, 0, 0⟩
def two (g : Engine) : State := { State.reset with
  tiles := [(0, { tile (ctx []) with engine := { Engine.reset with en := true, order := 8, logp := 1, outgoing := some latch } }), (1, { tile (ctx []) with engine := g })] }
theorem wit_handover :
    let g : Engine := { Engine.reset with en := true, order := 8, logp := 1 }
    let e := ((two g).tile 0).engine
    let reserves := fun (h : Engine) => if h.consume = none ∧ h.outgoing = none then 2 ≤ h.reserved else 1 ≤ h.reserved
    e.outgoing = some latch ∧ (e.pos 0 + 1) % e.ringSize = 1 ∧ e.member 1 = 1 ∧ Engine.reset.en = false ∧ ((two g).tile 1).engine = g ∧ g.en = true ∧
      g.order = e.order ∧ g.logp = e.logp ∧ g.receive = none ∧ ¬ reserves g ∧ ¬ reserves { g with consume := some latch } ∧
      reserves { g with consume := some latch, reserved := 1 } ∧ reserves { g with reserved := 2 } ∧ reserves { g with outgoing := some latch, reserved := 1 } ∧
      e.queue = [] ∧ ({ g with receive := some latch } : Engine).receive ≠ none := by decide +kernel
/-- MatrixEngine: an MMA of the ring hands its buffer on. -/
def handing : State := (two { Engine.reset with en := true, order := 8, logp := 1 }).modTile 0 fun x => { cell (ctx []) 48 [] with
  engine := { x.engine with queue := [cmd latchUnit 0x0810000000000000 0 0] } }
theorem wit_ring_step :
    let c := cmd latchUnit 0x0810000000000000 0 0
    let e := (handing.tile 0).engine
    let m := mmaF c.image c.rc
    e.queue = [c] ∧ c.image.getLsbD 31 = true ∧ c.image.toNat / 2 ^ 22 % 256 = 0x10 ∧ m.sp = false ∧ m.aPlane = 0 ∧ blogOf c.ra = 0 ∧ fmtOf c.ra = 1 ∧
      (e.bank m.bank).mode ≠ .float ∧ mhas (handing.tile 0).ctxs 0 = true ∧ e.outgoing = some latch ∧ latch.fmt = 1 ∧
      e.member ((e.pos 0 + 1) % e.ringSize) = 1 ∧ (handing.tile 1).engine.receive = none ∧ (handing.tile 1).engine.reserved = 0 := by decide +kernel
/-- The heads of a queue that retire: control words of each kind, an MMA that is through, MLDB, MROT waiting and taking a buffer, MSTORE and MLOAD;
a trap that may be taken. -/
theorem wit_retire :
    (0x2D000000 : Word).toNat / 32 % 16 = 0 ∧ (0x2D000040 : Word).toNat / 32 % 16 = 2 ∧ (0x2D000020 : Word).toNat / 32 % 16 = 1 ∧
      (0x2D000040 : Word).getLsbD 31 = false ∧ (mmaF mmaUnit 0).n ≤ 1 ∧ (0x84800001 : Word).toNat / 2 ^ 22 % 256 = 0x12 ∧ (0x84800001 : Word).toNat % 64 = 1 ∧
      (0x84800001 : Word).toNat / 2 ^ 32 % 4096 = 0 ∧ (0x84C00000 : Word).toNat / 2 ^ 22 % 256 = 0x13 ∧ (0x84C00000 : Word).getLsbD 0 = false ∧
      (0x85000000 : Word).toNat / 2 ^ 22 % 256 = 0x14 ∧ (0x85000000 : Word).getLsbD 6 = false ∧ (0x85400000 : Word).toNat / 2 ^ 22 % 256 = 0x15 ∧
      spaceOf 0x0810000000000000 = 1 ∧ fmtOf 0x0810000000000000 = 1 ∧ addrOf 0x0810000000000000 % 128 = 0 ∧ Engine.reset.consume = none ∧ Engine.reset.receive = none ∧ (1 : Nat) ≠ 0 ∧
      ({ Engine.reset with consume := some latch } : Engine).consume = some latch ∧ (0x85400000 : Word).getLsbD 31 = true := by decide +kernel
theorem wit_matrix_trap :
    let s := matrix 0 { Engine.reset with trap := some ⟨0x19, 0, 0⟩ }
    let k := s.ctxAt 0 0
    (s.tile 0).engine.trap = some ⟨0x19, 0, 0⟩ ∧ k.tip = false ∧ mhas (s.tile 0).ctxs 0 = true ∧ k.midLong = false ∧ k.backlog = [] := by decide +kernel
/-- SystemInstructions: WAITI before its wait, with no event since, and with one; HALT in a compact and free; SNAP, RESIZE and LINECLR as
supervisor; limits that are too small and the last that is not; a mapped line. -/
def super (x : Tile) : State := mapped { x with ctxs := [(0, { x.ctx 0 with priv := true })] }
theorem wit_system :
    let s := super (cell (ctx [(1, 0x80)]) 0 [])
    let k := (with' []).ctx
    helper.cid ≠ 0 ∧ s.cid = 0 ∧ k.waitFrom = none ∧ ({ k with waitFrom := some 0 } : Ctx).waitFrom = some k.wakes ∧ k.wakes ≠ 1 ∧
      ((inCompact .member .between [] []).tile 0).mode ≠ .free ∧ ((with' []).tile 0).mode = .free ∧ ((with' []).tile 0).ctxs = [(0, k)] ∧ k.pend = [] ∧
      ((with' []).tile 0).directOf 0 = [] ∧ ((with' []).tile 0).engine.queue = [] ∧ ((with' []).tile 0).engine.outgoing = none ∧ (with' []).releasable = true ∧ s.ctx.priv = true ∧
      s.ctx.readable 1 = true ∧ s.ctx.readable 2 = true ∧ spaceOf (s.ctx.sreg 1) = 0 ∧ spaceOf 0x0010000000000000 ≠ 0 ∧ s.releasable = true ∧
      s.ctx.pendingReg 3 = false ∧ ¬ (20 < (s.tile 0).maxPinned ∨ storeBytes 20 < (s.tile 0).imageBytes) ∧ 0 < ((one (cell (ctx []) 1 [])).tile 0).maxPinned ∧
      (∀ c ∈ (s.tile 0).chans.toList, c.st ≠ .running) ∧ (s.tile 0).direct = [] ∧
      ((super { cell (ctx []) 0 [] with direct := [xfer] }).tile 0).direct ≠ [] ∧ (super { cell (ctx []) 0 [] with direct := [xfer] }).releasable = true ∧ (s.tile 0).engine.busy = false ∧ (s.tile 0).engine.outgoing = none ∧ (s.tile 0).lines = [] ∧
      (((s.dev 0).cluster 0).tlb.find? fun e => e.hits s.ctx.asid 0x80) = some ⟨0, 0, true, leaf⟩ ∧ s.globalAddr 0 (leafPa leaf true 0x80) = some 0x80 ∧
      s.lineReached 0 1 = true ∧ pkgOfGl 1 = pkgOf s.cur ∧ s.held = [] ∧ (s.dir 1).st = .normal ∧ (s.dir 1).owners = [] ∧ (s.dir 1).remote = .none ∧ Memory.wf s.mem = true := by
  decide +kernel
/-- SnapshotTrigger: both privileges; no trigger yet, one in this hub cycle, one before that has not been read. -/
theorem wit_snap :
    let snapped := fun (n : Nat) => handler.modMgmt 0 fun m => { m with snap := some ⟨0, n⟩, snapAt := some n }
    (with' []).ctx.priv = false ∧ handler.ctx.priv = true ∧ (handler.dev 0).mgmt.snapAt = none ∧ (handler.dev 0).mgmt.snap = none ∧
      ((snapped 0).dev 0).mgmt.snapAt = some ((snapped 0).now * 16 / 19) ∧ ((snapped 1).dev 0).mgmt.snapAt ≠ some ((snapped 1).now * 16 / 19) ∧
      ((snapped 1).dev 0).mgmt.snap ≠ none ∧ (snapped 0).ctx.priv = true ∧ (snapped 1).ctx.priv = true := by decide +kernel

/-- Images: CTXSAVE and CTXLOAD as supervisor at a space-0, a landing and another pointer; with an image in the store and without. -/
def image : Image := ⟨[(1, { ctx [(1, 5)] with nr := true })], Engine.reset, Tile.reset.bars, [], 2, 0, 0⟩
def storing (sv : Option Image) : State := super { cell (ctx [(1, 0x1000)]) 0 [] with save := sv }
def holdsOk {α : Type} : EngRes α → Bool
  | .ok _ => true
  | _ => false
theorem wit_images : (storing none).ctx.priv = true ∧ (storing none).canRun [1] 3 = true ∧ spaceOf ((storing none).ctx.sreg 1) = 0 ∧
    spaceOf 0x0010000000000000 ≠ 0 ∧ spaceOf 0x0010000000000000 ≠ 3 ∧ spaceOf 0x0030000000000000 = 3 ∧
    ((storing (some image)).tile 0).save.isSome = true ∧ (storing none).cid = 0 ∧ (storing none).held = [] ∧ ptrTile 0x003000A7F0000000 < 2688 ∧ 2688 ≤ ptrTile 0x003000A800000000 ∧
    (storing none).ctx.sready.getD 1 0 ≤ (storing none).now := by
  decide +kernel
def away : State := (storing (some image)).modTile 0 fun x => { x with save := some image }
theorem wit_ctxsave : ((storing (some image)).tile 0).save = some image ∧ ((storing (some image)).tile 0).saved = 0 ∧
    (∀ h ∈ image.ctxs, h.2.effects = [] ∧ h.2.heldArrivals = []) ∧ addrOf 0x1000 + image.bytes ≤ 2 ^ 52 := by decide +kernel
theorem wit_ctxsave_store :
    let r := away.engineStore ⟨0, engineCid, 0, true⟩ 0x1000 0x1000 image.bytes (away.imageNat image)
    holdsOk r.1 = true ∧ r.2.2.cur = 0 ∧ r.2.2.cid = 0 ∧ r.2.2.ctx.sregs = away.ctx.sregs ∧ r.2.2.ctx.pend = [] := by decide +kernel
/-- CTXLOAD reads 464 lines of two pages, whose frames put them in the slices of four clusters: the state after n of them. -/
def loading (n : Nat) : State :=
  let page := fun v f => TlbEntry.mk 0 v false (BitVec.ofNat 64 (leafEntry f))
  let slice := fun a k => (List.range k).reverse.map (· + a)
  let tlb := if 232 < n then [page 1 0xF0000, page 0 0x300000] else [page 0 0x300000, page 1 0xF0000]
  let part := fun c a k => if k = 0 then [] else [(c, { Cluster.reset with slice := slice a k })]
  { super (cell (ctx [(1, 0x8C00)]) 0 []) with
    devices := [(0, { Device.reset with clusters := (0, { Cluster.reset with tlb := tlb }) ::
      (part 9 7680 (min (n - 232) 122) ++ part 10 7802 (n - 354) ++ part 31 24856 (min n 111) ++ part 32 24967 (min (n - 111) 121)) })] }
def loader : Asker := ⟨0, engineCid, 0, true⟩
def chunk (k : Nat) : List (Nat × Nat × Nat × Nat) := ((pieces 0x8C00 0xE800).drop (58 * k)).take 58
abbrev readsTo (n k : Nat) : Prop := (chunk k).foldl (readPiece loader 0x8C00) (.ok 0, loading n) = (.ok 0, loading (58 * (k + 1)))
theorem wit_load0 : readsTo 1 0 := by decide +kernel
theorem wit_load1 : readsTo 58 1 := by decide +kernel
theorem wit_load2 : readsTo 116 2 := by decide +kernel
theorem wit_load3 : readsTo 174 3 := by decide +kernel
theorem wit_load4 : readsTo 232 4 := by decide +kernel
theorem wit_load5 : readsTo 290 5 := by decide +kernel
theorem wit_load6 : readsTo 348 6 := by decide +kernel
theorem wit_load7 : readsTo 406 7 := by decide +kernel
theorem wit_chunks : pieces 0x8C00 0xE800 = chunk 0 ++ chunk 1 ++ chunk 2 ++ chunk 3 ++ chunk 4 ++ chunk 5 ++ chunk 6 ++ chunk 7 := by
  decide +kernel
theorem wit_load_lines : (loading 1).engineRead loader 0x8C00 0x8C00 0xE800 = (.ok 0, loading 464) := by
  rw [State.engineRead, wit_chunks]
  simp only [List.foldl_append]
  rw [wit_load0, wit_load1, wit_load2, wit_load3, wit_load4, wit_load5, wit_load6, wit_load7]
theorem wit_load_first : (loading 0).engineRead loader 0x8C00 (addrOf 0x8C00) 16 = (.ok 0, loading 1) := by decide +kernel
theorem wit_load_next : (loading 464).engineRead loader 0x8C00 (addrOf 0x8C00 + 0xE800) 16 = (.ok 0, loading 465) := by decide +kernel
/-- An image of one context: its first bytes, the context, and a header after it that continues nothing. -/
theorem readImage_one {s t u w : State} {k : Asker} {p : Word} {h v g n : Nat} (a : s.engineRead k p (addrOf p) 16 = (.ok h, t))
    (hn : acbBytes 0 (min 4 (getBytes h 1 1 / 32)) = n) (b : t.engineRead k p (addrOf p) n = (.ok v, u))
    (c : u.engineRead k p (addrOf p + n) 16 = (.ok g, w)) (e : helperAt g 0 (getBytes h 8 2) = none) :
    s.readImage k p = (.ok [(0, v)], w) := by
  simp [State.readImage, State.readAcbs, a, hn, b, c, e]
theorem wit_load_read : (loading 0).readImage loader 0x8C00 = (.ok [(0, 0)], loading 465) :=
  readImage_one wit_load_first (by decide +kernel) ((by decide +kernel : addrOf 0x8C00 = 0x8C00) ▸ wit_load_lines) wit_load_next
    (by decide +kernel)
theorem wit_ctxload : ((loading 0).tile 0).save = none ∧ (loading 0).ctx.priv = true ∧ (loading 0).canRun [1] 3 = true ∧
    (loading 465).cur = 0 ∧ (loading 465).cid = 0 ∧ (loading 465).ctx.sregs = (loading 0).ctx.sregs ∧ (loading 465).ctx.pend = [] := by
  decide +kernel
/-- PREEMPT: the partition of the second cluster, named by a shape of FORM 0; another ASID names none. -/
def rect : Partition := ⟨2, .live, 0, [], 0, 0, (List.range 8).map (· + 8), [], [], 0⟩
def shape (asid : Nat) : LineData := BitVec.ofNat 1024 (2 ^ 33 + 2 ^ 36 + 2 ^ 42 + asid * 2 ^ 128)
def preempts (asid : Nat) : State :=
  let s := super (cell (ctx [(1, 0x80)]) 0 [line 1 (shape asid)])
  { s with tiles := s.tiles ++ (List.range 8).map (fun i => (i + 8, { tile (ctx [(1, 6)]) with pid := 2 })), partitions := [rect] }
theorem wit_preempt :
    let s := preempts 0
    let l := line 1 (shape 0)
    let ts := s.shapeTiles 0 (l.word 0x80 0) (l.word 0x80 1)
    s.ctx.priv = true ∧ s.canRun [1] 3 = true ∧ addrOf (s.ctx.sreg 1) % 8 = 0 ∧ s.cached (s.ctx.sreg 1) 24 l ∧ shapeForm (l.word 0x80 0) ≠ 3 ∧
      addrOf 0x84 % 8 ≠ 0 ∧ s.partitionOf ts (BitVec.ofNat 16 (l.word 0x80 2).toNat) = some rect ∧ s.partitionOf ts 1 = none ∧ s.compactOn ts 1 = none ∧
      s.cur ∉ rect.tiles ∧ rect.tiles.Nodup ∧ (∀ h ∈ s.held, h.tile ∉ rect.tiles) ∧
      ∀ u ∈ rect.tiles, (s.tile u).pid = rect.pid ∧ (s.tile u).member = none ∧ (s.tile u).engine.outgoing = none ∧ Map.rises (s.tile u).ctxs = true ∧
        (∀ l ∈ (s.tile u).lines, l.dirty = 0) ∧ mhas (s.tile u).ctxs 0 = true := by
  unfold State.cached
  decide +kernel
theorem wit_preempt_contexts : ∀ u ∈ rect.tiles, ∀ c, mhas ((preempts 0).tile u).ctxs c = true →
    let k := (preempts 0).ctxAt u c
    k.pend = [] ∧ k.backlog = [] ∧ k.vsta = [] ∧ (k.dqs.toList.all fun q => q.all fun e => e.filled && e.awaits.isEmpty) = true := by
  intro u hu c hc
  have h : ∀ u ∈ rect.tiles, ((preempts 0).tile u).ctxs = [(0, ctx [(1, 6)])] := by decide +kernel
  have : c = 0 := by
    rw [h u hu] at hc
    simp [mhas] at hc
    exact hc.symm
  subst this
  revert u
  decide +kernel
/-- Resumption of that partition from images, and by the service; the oldest post; the events of the slots. -/
def gone : Partition := { rect with st := .preempted }
def saved (u : Nat) : Image := ⟨[(0, ctx [(1, 6)])], Engine.reset, Tile.reset.bars, [], 2, u, u⟩
def parking : Parked := ({ Tile.reset with pid := 2 } : Tile).park
def resumes : State := { State.reset with
  tiles := rect.tiles.map (fun u => (u, { Tile.reset with save := some (saved u), parked := [parking] })), partitions := [gone] }
theorem wit_resume :
    let s := resumes
    s.partitions = [gone] ∧ gone.st = .preempted ∧ gone.loaded = [] ∧ gone.halted = [] ∧ gone.tiles ≠ [] ∧ gone.tiles.Nodup ∧
      Map.rises s.tiles = true ∧ (∀ q ∈ s.present, (s.dev q).yarrow.svEn = false) ∧ s.held = [] ∧ (parking.pid = gone.pid ∧ parking.member = none ∧ parking.lines = []) ∧
      ∀ t ∈ gone.tiles, mhas (s.tile t).ctxs 0 = false ∧ (s.tile t).fenced = false ∧ ((s.tile t).pips.all fun e => e.2.st ≠ .landed) = true ∧
        (s.tile t).save = some (saved t) ∧ (saved t).pid = gone.pid ∧ (saved t).origin = t ∧ (s.tile t).parked = [parking] := by
  decide +kernel
theorem wit_resume_others : ∀ t ∉ gone.tiles, (resumes.tile t).save = none := by
  intro t h
  have : ∀ u ∈ resumes.tiles, u.1 ∈ gone.tiles := by decide +kernel
  exact congrArg Tile.save (mget_missing _ t _ fun e he g => h (g ▸ this e he))
def service : State := { State.reset with
  partitions := [gone], away := [saved 8], devices := [(0, { Device.reset with yarrow := { Yarrow.reset with svEn := true, svEntry := 0x200, pids := 3 } })] }
theorem wit_service : service.partitions = [gone] ∧ gone.loaded = [] ∧ saved 8 ∈ service.away ∧ (saved 8).pid = gone.pid ∧ (saved 8).origin = 8 ∧ (service.tile 8).save = none ∧
    mhas (service.tile 8).ctxs 0 = false ∧ (service.tile 8).fenced = false ∧ (service.dev (pkgOf 8)).yarrow.svEn = true ∧
    ∀ q ∈ service.present, (service.dev q).yarrow.queues = [] := by decide +kernel
theorem wit_post :
    let s := one { tile (ctx []) with posts := [⟨1, 0x12, 0x200⟩] }
    (s.tile 0).posts = [⟨1, 0x12, 0x200⟩] ∧ (s.ctxAt 0 0).tip = false ∧ mhas (s.tile 0).ctxs 0 = true ∧ (s.ctxAt 0 0).midLong = false ∧ (s.ctxAt 0 0).backlog = [] := by decide +kernel

/-- A line at its home with one owner, which holds it with dirty words; with none; under a marked host copy; and remote copies. -/
def ownedBy (t : Nat) : Dir := { Dir.reset with owners := [⟨t, 3⟩] }
def home (d : Dir) (l : Line) : State := { one (cell (ctx []) 0 []) with
  tiles := [(0, cell (ctx []) 0 []), (1, cell (ctx []) 0 [l])], dirs := [(9, d)] }
/-- HomeEvents: READ and REGISTER recall the words of another tile; what an owner sends back. -/
theorem wit_home_owner :
    let l : Line := { line 9 5 with dirty := 1 }
    let s := home (ownedBy 1) l
    let k : WordMask := 3 &&& 1
    pkgOf 0 = pkgOfGl 9 ∧ 1 ≠ 0 ∧ k ≠ 0 ∧ s.dir 9 = { Dir.reset with owners := [⟨1, 3⟩] } ∧ (s.tile 1).lines = [l] ∧ l.gl = 9 ∧
      s.held = [] ∧ (∀ c ∈ (s.dev 0).clusters, c.2.trackers = [] ∧ c.2.slice.length < 16) ∧ l.dirty &&& k ≠ 0 ∧ l.dirty &&& 2 = 0 ∧ pkgOf 1 = pkgOfGl 9 := by decide +kernel
/-- A store under way to line 9 of its own package, or waiting there; a read that waits there. -/
def heldStore (st : Stage) : Held :=
  { id := 4, tile := 0, pid := 1, self := 0, cid := 0, unit := 0, gl := 9, words := 3, work := .store 0xFF 5, ptr := 0x480, seq := 0, stage := st
    via := none, slot := none, fill := none, mine := 0, mineData := 0, answer := none, lost := false, cause := 0 }
def heldRead : Held := { heldStore .home with work := .read }
/-- The request's grant; a span that arrives, one that fails, and one that fails for the eighth time. -/
def failing (n : Nat) (st : Stage) : State := { one (cell (ctx []) 0 []) with
  held := [heldStore st], devices := [(0, { Device.reset with fabric := { Fabric.reset with
    failing := if n = 0 then [] else [(64, ⟨.request 4, n⟩)], slots := [(1, 0x8000)], lanes := [(0, { Lane.reset with st := 1 })] } })]
  now := 10070 }
theorem wit_home_free : ∀ n ∈ [0, 6, 7],
    let s := failing n (.relay 0)
    let h := heldStore (.relay 0)
    s.dir 9 = Dir.reset ∧ s.dir (dirKey (pkgOf 0) 9) = Dir.reset ∧ (∀ p ∈ [pkgOf 0, pkgOfGl 9], ∀ c ∈ (s.dev p).clusters, c.2.trackers = [] ∧ c.2.slice.length < 16) ∧
      s.held = [h] ∧ h.stage ≠ .home ∧ s.slotRoom 0 (s.dev (pkgOfGl 9)).pos.toNat ≠ 0 ∧ (heldStore .home).stage = .home ∧ (s.dev 0).fabric.garbled = [] ∧ s.heldKey h = 64 ∧
      (s.dev 0).fabric.failing = (if n = 0 then [] else [(s.heldKey h, ⟨.request h.id, n⟩)]) ∧
      (∀ e ∈ s.tiles, e.2.pid = h.pid ∧ e.2.self = h.self ∧ mhas e.2.ctxs h.cid = true → e.1 = 0) ∧ (s.tile 0).pid = h.pid ∧ (s.tile 0).self = h.self ∧
      mhas (s.tile 0).ctxs 0 = true := by decide +kernel
theorem wit_home_calm :
    let s := one (cell (ctx []) 0 [])
    s.held = [] ∧ 0x4F8 / 128 = 9 ∧ 0x4F8 % 8 = 0 ∧ Memory.wf s.mem = true ∧ pkgOf 0 = pkgOfGl 9 ∧ (s.tile 0).lines = [] ∧
      0 < (s.tile 0).ways (9 % 256) := by decide +kernel
theorem wit_home_remote :
    let s := fun r => ({ State.reset with dirs := [(9, { Dir.reset with remote := r })] } : State)
    1 ≠ pkgOfGl 9 ∧ ((s (.modified 0)).dir (dirKey 1 9)).owners = [] ∧ ((s (.modified 0)).dev 1).pos.toNat = 0 ∧
      ((s (.modified 0)).dir 9).remote = .modified 0 ∧ ((s (.shared 1)).dir 9).remote = .shared 1 ∧ ((s (.shared 3)).dir 9).remote = .shared 3 := by
  decide +kernel

/-- HostEvents: the host's reads and writes under HOST_COPY; a snoop of host memory; an answer; the link; a helper's line; a walk; the scrubber. -/
def linked (f : BitVec 8) (up : Bool) (dirs : Map Dir) : State := { State.reset with devices := [(0, { Device.reset with featAck := f, cxlUp := up })], dirs := dirs }
theorem wit_host_copy : isHostGl 9 = false ∧ (linked 0x20 true []).dir 9 = Dir.reset ∧ ((linked 0x20 true []).dev (pkgOfGl 9)).cxlUp = true ∧ ((linked 0x20 true []).dev 0).barOpen = true ∧
    ((linked 0x20 true []).dev (pkgOfGl 9)).featAck.getLsbD 5 = true ∧
    (∀ c ∈ ((linked 0x20 true []).dev (pkgOfGl 9)).clusters, c.2.trackers = [] ∧ c.2.slice.length < 16) := by decide +kernel
theorem wit_host_link :
    let d : Dir := { Dir.reset with host := .modified }
    let e : Dir := { Dir.reset with host := .shared }
    (linked 0 true [(9, d)]).dirs = [(9, d)] ∧ pkgOfGl 9 = 0 ∧ 9 < 2 ^ 57 ∧ d.owners = [] ∧ d.remote = .none ∧ d.host = .modified ∧ e.host = .shared ∧
      (∀ c ∈ ((linked 0 true [(9, d)]).dev 0).clusters, c.2.slice.length < 16) ∧ ((linked 0 true [(9, d)]).dir 9).host = .modified ∧
      ((linked 0 false []).dev 0).cxlUp = false ∧ ((linked 0 false []).dev 0).barOpen = true ∧ ((linked 0 false []).dev 0).yarrow.queues = [] := by decide +kernel
theorem wit_host_snoop :
    let g := 2 ^ 37
    let l : Line := { line 0 5 with gl := g, dirty := 2 }
    let s : State := { State.reset with tiles := [(1, cell (ctx []) 0 [l])], dirs := [(g, ownedBy 1)] }
    isHostGl g = true ∧ s.dir g = { Dir.reset with owners := [⟨1, 3⟩] } ∧ (3 : WordMask) ≠ 0 ∧ (s.tile 1).lines = [l] ∧ l.gl = g ∧
      (∀ c ∈ (s.dev (pkgOfGl g)).clusters, c.2.slice.length < 16) ∧ l.dirty &&& 3 ≠ 0 := by decide +kernel
/-- A read that waits for a host's copy, and one that waits for a helper's words, which may commit. -/
theorem wit_host_read :
    let s : State := { linked 0 true [(9, { Dir.reset with host := .modified })] with held := [heldRead] }
    s.held = [heldRead] ∧ s.dir 9 = { Dir.reset with host := .modified } ∧ (∀ c ∈ (s.dev (pkgOfGl 9)).clusters, c.2.slice.length < 16) ∧
      heldRead.readsAt 9 := by
  unfold Held.readsAt
  decide +kernel
def buffered (held : List Held) : State := { one { tile (ctx []) with ctxs := [(0, ctx []), (1, { ctx [] with effects := [⟨9, 1, 0xFF, 5, 0, 0⟩] })] } with
  dirs := [(9, { Dir.reset with tentative := [⟨0, 17, 3⟩] })], held := held }
theorem wit_tentative : ∀ hs ∈ [[], [heldRead]],
    let s := buffered hs
    (s.ctxAt 0 1).effects = [⟨9, 1, 0xFF, 5, 0, 0⟩] ∧ (s.ctxAt 0 1).heldArrivals = [] ∧ (s.dir 9).st = .normal ∧ s.commitReady 0 1 = true ∧
      s.dir 9 = { Dir.reset with tentative := [⟨0, 1 + 16 * (s.tile 0).pid, touched 0xFF⟩] } ∧
      (∀ c ∈ (s.dev (pkgOfGl 9)).clusters, c.2.trackers = [] ∧ c.2.slice.length < 16) := by
  decide +kernel
/-- A walk of region 0 whose pointer in the root table is the leaf's table at 0x10000, and that one's a leaf of 512 MiB. -/
def walk : Walk := ⟨0, 0, [0], false⟩
theorem wit_walk :
    let s : State := (State.reset.withFetchWord 32 0).modDev 0 fun d => { d with regions := [(0, { Region.reset with walks := [walk] })] }
    let r := s.walkAll ⟨0, engineCid, 0, false⟩ 0 0
    ((s.dev 0).region 0).walks[0]? = some walk ∧ walk.discard = false ∧ (match r.1 with | .leaf _ _ => true | _ => false) = true := by decide +kernel
theorem wit_scrub : State.reset.dir 9 = Dir.reset ∧ State.reset.held = [] ∧ ∀ c ∈ (State.reset.dev (pkgOfGl 9)).clusters, c.2.slice.length < 16 := by decide +kernel

/-- CopyEvents: a channel whose record moves from line 0 to line 1 of scratch, at its first piece and at its end; a record whose TRANSFER
is at 0x1000 in mapped memory; a direct transfer; a held start. -/
def piece (pos : Nat) : Xfer := { Xfer.new 0 false 0x0010000000000000 0x0010000000000080 128 31 Armer.reset with pos := pos, wrote := pos, moved := pos, begun := decide (pos ≠ 0) }
def channel (x : Xfer) : State := one { cell (ctx []) 2 [] with chans := Tile.reset.chans.setIfInBounds 3 ⟨.running, 0x1000, some x, 0, Armer.reset⟩ }
theorem wit_piece :
    let x := piece 0
    let c := ((channel x).tile 0).chan 3
    3 < 4 ∧ c.st = .running ∧ c.cur = some x ∧ x.finished = false ∧ x.kind = 0 ∧ x.aon = false ∧ spaceOf x.src = 1 ∧ spaceOf x.dst = 1 ∧ 16 ≤ x.bx ∧
      x.bar = none ∧ x.len ≠ 0 ∧ x.pos < x.len ∧ min (512 - x.pos % 512) (x.len - x.pos) = 128 ∧
      (∀ i < 128, (0 + i < 0xA0000 ∧ mhas ((channel x).tile 0).pins ((0 + i) / 128) = true) ∧
        0x80 + i < 0xA0000 ∧ mhas ((channel x).tile 0).pins ((0x80 + i) / 128) = true) ∧
      (piece 128).len ≤ (piece 128).pos ∧ (piece 128).stale = false ∧ (((channel (piece 128)).tile 0).chan 3).cur = some (piece 128) := by decide +kernel
/-- Images: a context that bank retention may take, and one that it may not. -/
theorem wit_descheduled : ({ Ctx.reset with stopped := true } : Ctx).descheduled = true ∧ Ctx.reset.descheduled = false := by decide +kernel

def recorded : State := mapped { cell (ctx []) 0 [] with
  chans := Tile.reset.chans.setIfInBounds 3 ⟨.running, 0x1000, some { piece 128 with finished := true }, 0, { Armer.reset with pid := 1 }⟩ }
theorem wit_record :
    let x := { piece 128 with finished := true }
    let c := (recorded.tile 0).chan 3
    let k := c.armer.asker
    let a := ((recorded.dropHolds (x.key 0 3)).modChan 0 3 fun c => { c with cur := some x }).engineStore k 0x1000 (addrOf 0x1000 + 0x30) 8
      (x.retry * 2 ^ 8 + x.moved * 2 ^ 16)
    let d := a.2.2.engineStore k 0x1000 (addrOf 0x1000 + 0x0C) 4 (x.flags.toNat % 2 ^ 31)
    c.cur = some x ∧ x.finished = true ∧ x.ver = none ∧ x.code = 0 ∧ c.head = 0x1000 ∧ a.1 = .ok () ∧ d.1 = .ok () := by
  decide +kernel
theorem wit_direct :
    let x := { xfer with finished := true, code := 0x13 }
    let s := one { tile (ctx []) with direct := [x] }
    let a := x.armer
    (s.tile 0).direct = [x] ∧ x.finished = true ∧ x.ver = none ∧ ((s.tile 0).pid = a.pid ∧ (s.tile 0).self = a.self ∧ mhas (s.tile 0).ctxs a.cid = true) ∧
      ∀ e ∈ s.tiles, e.2.pid = a.pid ∧ e.2.self = a.self ∧ mhas e.2.ctxs a.cid = true → e.1 = 0 := by
  decide +kernel
/-- CopyEvents: the last chunk of a slot, a chunk past it, another generation; a barrier; an AON version, even, odd and held. -/
theorem wit_landing :
    let s := landing.modTile 0 fun x => { x with pins := (List.range 4).map fun i => (i, { pin with pid := 1 }) }
    let k := (s.tile 0).slot 0
    k.alloc = true ∧ k.gen.toNat = 0 ∧ 0 < k.size ∧ k.off % 512 = 0 ∧ k.off / 128 = 0 ∧
      (∀ l < 4, mhas (s.tile 0).pins l = true ∧ ((s.tile 0).pin l).pid = k.pid) ∧
      k.size ≤ 1 ∧ k.gen.toNat ≠ 1 ∧ ((with' []).tile 0 |>.slot 0).alloc = false := by decide +kernel
theorem wit_versions :
    let odd : State := { State.reset with mem := [⟨0x480, 1⟩] }
    let kept : State := { State.reset with aonHolds := [(0x480, 0)] }
    let waited : State := { State.reset with aonWaits := [(0x480, 8)] }
    State.reset.dir (0x480 / 128) = Dir.reset ∧ (∀ c ∈ (State.reset.dev (pkgOfGl (0x480 / 128))).clusters, c.2.slice.length < 16) ∧
      Memory.wf State.reset.mem = true ∧ Memory.wf odd.mem = true ∧ 0x480 % 32 = 0 ∧ 0x480 % 8 = 0 ∧ readNat State.reset.mem 0x480 8 % 2 = 0 ∧
      (∀ h ∈ State.reset.aonHolds, h.1 ≠ 0x480) ∧ (∀ w ∈ State.reset.aonWaits, w.1 ≠ 0x480) ∧ readNat odd.mem 0x480 8 % 2 = 1 ∧
      (∃ h ∈ kept.aonHolds, h.1 = 0x480) ∧ (waited.aonWaits.find? fun w => w.1 = 0x480) = some (0x480, 8) ∧ keyTile 8 ≠ 4095 := by decide +kernel
/-- CopyEvents: a tracker that counts 8 bytes of line 9 toward 9, and one that fires its CHAIN action at 8. -/
def tracker (st : TrkState) (thresh : Nat) : Tracker := { Tracker.reset with
  st := st, base := 0x480, len := 8, thresh := thresh, act := 1, aux := 3, opd0 := 0x1000, desc := 0x200, armer := { Armer.reset with pid := 1 } }
def tracked (k : Tracker) : State := { one (tile (ctx [])) with devices := [(0, { Device.reset with clusters := [(0, { Cluster.reset with trackers := [(63, k)] })] })] }
theorem wit_report :
    let k := tracker .armed 8
    let s := tracked k
    let mask : ByteMask := 0xFF
    let b := (List.range 128).countP fun i => mask.getLsbD i && decide (k.base ≤ 9 * 128 + i) && decide (9 * 128 + i < k.base + k.len)
    ((s.dev (pkgOfGl 9)).cluster 0).trackers = [(63, k)] ∧ k.st ≠ .free ∧ b = 8 ∧ k.st = .armed ∧ k.thresh ≤ k.count + b ∧ k.act = 1 ∧
      ((s.tile k.tile).chan (k.aux % 4)).st ≠ .running ∧ (s.tile k.tile).pid = k.armer.pid ∧ s.dir (k.desc.toNat / 128) = Dir.reset ∧
      (∀ c ∈ (s.dev (pkgOfGl (k.desc.toNat / 128))).clusters, c.2.slice.length < 16) ∧ Memory.wf s.mem = true ∧
      (tracker .armed 9).count + b < (tracker .armed 9).thresh ∧ (tracker .counting 8).st ≠ .armed ∧ (tracker .counting 8).st ≠ .free := by decide +kernel
theorem wit_held_start :
    let h : HeldStart := ⟨3, 0x1000, 0, 63, Armer.reset⟩
    let s := (tracked (tracker .fired 8)).modTile 0 fun x => { x with held := [h] }
    3 < 4 ∧ (s.tile 0).held = [h] ∧ h.chan = 3 ∧ (s.tile 0).save = none ∧ ((s.tile 0).chan 3).st ≠ .running ∧
      (((s.dev (pkgOf 0)).cluster h.cluster).tracker h.tracker).desc.toNat = 0x200 ∧ s.dir (0x200 / 128) = Dir.reset ∧
      (∀ c ∈ (s.dev (pkgOfGl (0x200 / 128))).clusters, c.2.slice.length < 16) ∧ Memory.wf s.mem = true := by decide +kernel

/-- ArrivalEvents: a signature that is one of two, the last, and one served before; a withdrawal. -/
def signing (members signed : List Nat) (formed : Bool) (m : Mode) (p : Phase) : State := { one { tile (ctx []) with mode := m, member := some (member p) } with
  compacts := [{ compact [] with desc := 0, members := members, signed := signed, formed := formed }] }
theorem wit_signature :
    let s := signing [0, 1] [1] false .signing .signing
    let c := s.compacts.headD (compact [])
    (s.tile 0).mode = .signing ∧ (s.tile 0).member = some (member .signing) ∧ s.compacts = [c] ∧ c.dev = (member .signing).dev ∧ c.cid = (member .signing).cid ∧
      0 ∉ c.signed ∧ (s.ctxAt 0 0).backlog = [] ∧ c.desc = (s.ctxAt 0 0).sreg ((s.ctxAt 0 0).unit.extractLsb' 14 5) ∧ c.formed = false ∧
      s.tileReached (pkgOf 0) (c.members.headD 0) = true ∧ c.signed.length + 1 = c.members.length ∧ (s.tile 0).pins = [] ∧ c.lost = [] ∧
      (let d := (signing [0, 1] [] false .signing .signing).compacts.headD (compact [])
      0 ∉ d.signed ∧ d.signed.length + 1 ≠ d.members.length) ∧ 0 ∈ ((signing [0, 1] [0] false .signing .signing).compacts.headD (compact [])).signed := by
  decide +kernel

/-- ArrivalEvents: members whose chain has ended, by IDLE and by STOPPED, with another still to arrive and with all others arrived; a chain that
runs; a member between boundaries; a member with a bound line that is lost. -/
theorem wit_tree :
    let m := member .chained
    let s := signing [0, 1] [] true .member .chained
    let c := s.compacts.headD (compact [])
    let d := { c with arrived := [(1, true)] }
    let ends := fun st => (s.modTile 0 fun x => { x with chans := x.chans.setIfInBounds m.chan ⟨st, 0x1000, none, 0, Armer.reset⟩ }).tile 0
    (s.tile 0).mode = .member ∧ (s.tile 0).member = some m ∧ s.compacts = [c] ∧ c.dev = m.dev ∧ c.cid = m.cid ∧ m.phase = .chained ∧
      (ends .idle).chanBusy m.chan = false ∧ false = decide (((ends .idle).chan m.chan).st ≠ .idle) ∧ (ends (.stopped 0x13)).chanBusy m.chan = false ∧
      true = decide (((ends (.stopped 0x13)).chan m.chan).st ≠ .idle) ∧ (ends .running).chanBusy m.chan = true ∧ 0 ∈ c.members ∧
      c.leaving = [] ∧ (∀ q ∈ c.arrived, q.1 ≠ 0) ∧ (∃ v ∈ c.members, v ≠ 0 ∧ ∀ q ∈ c.arrived, q.1 ≠ v) ∧
      (∀ v ∈ d.members, v ≠ 0 → ∃ q ∈ d.arrived, q.1 = v) ∧ (∀ q ∈ d.arrived, q.1 ≠ 0) ∧ (member .between).phase ≠ .chained := by decide +kernel
theorem wit_loss :
    let s := (signing [0, 1] [] true .member .between).modTile 0 fun x => { x with pins := [(4, bound)] }
    let c := s.compacts.headD (compact [])
    (s.tile 0).parked = [] ∧ c.formed = true ∧ (s.tile 0).pins = [(4, bound)] ∧ bound.gl = some 9 ∧ (s.dir 9).owners = [] ∧ (s.dir 9).remote = .none ∧ s.held = [] ∧
      ∀ c ∈ (s.dev (pkgOfGl 9)).clusters, c.2.slice.length < 16 := by decide +kernel
/-- ArrivalEvents: a live pip whose mailbox is full, and one whose mailbox is empty; one that has expired, one that has not; a quarantine. -/
def pipOf (p : Pip) (full : Bool) : State := one { tile { ctx [] with mbs := Ctx.reset.mbs.setIfInBounds 0 ⟨0, full, 0, false, 0⟩ } with pips := [(64, p)] }
theorem wit_pip_events :
    let p : Pip := { Pip.reset with st := .live, pid := 1, expiry := some 0 }
    let q : Pip := { p with expiry := some 1 }
    let time := (pipOf p true).time (pkgOf 0)
    let box := fun s => ((s : State).ctxAt 0 p.cid).mbs.getD p.mb Mailbox.reset
    ((pipOf p true).tile 0).pip 64 = p ∧ p.st = .live ∧ p.gen.toNat = 0 ∧ (box (pipOf p true)).full = true ∧ (box (pipOf p false)).full = false ∧
      mhas ((pipOf p false).tile 0).ctxs p.cid = true ∧ p.pid = ((pipOf p false).tile 0).pid ∧ p.self = ((pipOf p false).tile 0).self ∧
      ((pipOf p true).tile 0).save = none ∧ 64 ≤ 64 ∧
      (((pipOf p false).tile 0).pips.all fun e => e.2.st ≠ .landed) = true ∧ p.expiry = some 0 ∧ 0 ≤ time ∧ q.expiry = some 1 ∧ time < 1 ∧
      Pip.reset.st ≠ .live ∧ p.gen.toNat ≠ 1 ∧ 63 < 64 ∧ ({ p with st := .quar } : Pip).quarEnd ≤ time ∧ time < ({ p with quarEnd := 1 } : Pip).quarEnd := by
  decide +kernel
/-- ArrivalEvents: the pip of a partition whose state is saved expires. -/
theorem wit_pip_saved :
    let p : Pip := { Pip.reset with st := .live, pid := 2, expiry := some 0 }
    let im : Image := ⟨[(0, ctx [])], Engine.reset, Tile.reset.bars, [], 2, 0, 0⟩
    let s : State := one { tile (ctx []) with pips := [(64, p)], save := some im }
    (s.tile 0).pip 64 = p ∧ p.st = .live ∧ p.expiry = some 0 ∧ 0 ≤ s.time (pkgOf 0) ∧ (s.tile 0).save = some im ∧ (s.tile 0).pid ≠ p.pid ∧
      im.pid = p.pid ∧ im.self = p.self ∧ mhas im.ctxs p.cid = true ∧ ((mget Ctx.reset im.ctxs p.cid).mbs.getD p.mb Mailbox.reset).full = false ∧
      ((s.tile 0).pips.all fun e => e.2.st ≠ .landed) = true := by decide +kernel
/-- ArrivalEvents: the END of a pip of a partition that was resumed on another tile. -/
theorem wit_pip_end :
    let p : Pip := { Pip.reset with st := .live, pid := 2 }
    let s : State := { State.reset with tiles := [(0, { tile (ctx []) with pips := [(64, p)] }), (1, { tile (ctx []) with pid := 2, origin := 0 })] }
    (s.tile 1).origin = 0 ∧ 0 ≠ 1 ∧ mhas (s.tile 1).ctxs 0 = true ∧ (s.tile 0).pips = [(64, p)] ∧ p.st = .live ∧ p.pid = (s.tile 1).pid ∧ p.self = (s.tile 1).self ∧
      (s.tile 0).pid ≠ p.pid ∧ mhas (s.tile 1).ctxs p.cid = true ∧ ((s.ctxAt 1 p.cid).mbs.getD p.mb Mailbox.reset).full = false := by decide +kernel
/-- ArrivalEvents: a ring of two entries that holds one, one that is full, and none; a RECVT that waits. -/
def inbox (size count : Nat) : State := one (cell { ctx [] with recvSize := BitVec.ofNat 11 size, recvCount := BitVec.ofNat 11 count, recvTail := 1 } 1 [])
theorem wit_message :
    let k := (inbox 2 1).ctxAt 0 0
    let e := k.recvBase.toNat * 64 + 64 * k.recvTail.toNat
    (inbox 2 1).isEndpoint 0xA7F = true ∧ (inbox 2 1).isEndpoint 0xA80 = false ∧ mhas ((inbox 2 1).tile 0).ctxs 0 = true ∧ k.recvSize ≠ 0 ∧ k.recvCount ≠ k.recvSize ∧ e = 64 ∧
      (∀ i < 64, e + i < 0xA0000 ∧ mhas ((inbox 2 1).tile 0).pins ((e + i) / 128) = true) ∧
      ((inbox 2 2).ctxAt 0 0).recvCount = ((inbox 2 2).ctxAt 0 0).recvSize ∧ ((inbox 0 0).ctxAt 0 0).recvSize = 0 ∧
      ((one (tile { ctx [] with timeFrom := some 5 })).ctxAt 0 0).timeFrom = some 5 ∧ (ctx []).backlog = [] := by decide +kernel

/-- VetchEvents: a stopped program; one whose step at 0x80 of mapped memory is each operation; buffers in local memory; a partner in another
region that has sent; the aperture. -/
def vetchOf (g : Prog) (step : Nat) : State :=
  let s := mapped (cell (ctx []) 48 [])
  { (s.modDev 0 fun d => { d with regions := [(0, { Region.reset with progs := [g] })] }) with
    mem := ((List.range 8).filter fun j => step / 256 ^ j % 256 ≠ 0).map fun j => ⟨0x80 + j, BitVec.ofNat 8 (step / 256 ^ j)⟩ }
theorem wit_vetch :
    let r := fun n => (vetchOf (prog 3) n).vetchRead (prog 3) 0x80 0 8
    (((vetchOf (prog 3) 0).dev 0).region 0).progs = [prog 3] ∧ (prog 3).stopped = false ∧ (prog 3).checked = true ∧ (prog 3).halfway = false ∧
      (r 0).1 = .ok 0 ∧ ((r 0).2.dev 0).region 0 = { Region.reset with progs := [prog 3] } ∧ (r (10 * 2 ^ 60)).1 = .ok (10 * 2 ^ 60) ∧
      (r (6 * 2 ^ 60 + 1)).1 = .ok (6 * 2 ^ 60 + 1) ∧ (r (6 * 2 ^ 60 + 2 ^ 57)).1 = .ok (6 * 2 ^ 60 + 2 ^ 57) ∧ (r (8 * 2 ^ 60 + 5)).1 = .ok (8 * 2 ^ 60 + 5) ∧
      (r (9 * 2 ^ 60 + 1)).1 = .ok (9 * 2 ^ 60 + 1) ∧ ({ prog 3 with stopped := true } : Prog).stopped = true := by decide +kernel

/-- Memory with doublewords at addresses that rise. -/
def dwords (ds : List (Nat × Nat)) : List Host.Cell :=
  ds.flatMap fun d => ((List.range 8).filter fun j => d.2 / 256 ^ j % 256 ≠ 0).map fun j => ⟨d.1 + j, BitVec.ofNat 8 (d.2 / 256 ^ j)⟩
/-- A SEND or a RECV of one line between ranks 0 and 1, in regions 0 and 1, whose buffer 0 is the first line of scratch. -/
def ranked : Prog := { prog 3 with nranks := 2 }
def sent (pulled : Option Nat) : Contrib := ⟨0, 0, 0, 0, 1, 0x0010000000000000, 0, 64, 0x1234, pulled, none, [], [], [], false⟩
def partner : Prog := { ranked with rank := 1, out := some (sent none) }
def exchange (op : Nat) : State :=
  let s := mapped (cell (ctx []) 48 [])
  { (s.modDev 0 fun d => { d with regions := [(0, { Region.reset with progs := [ranked] }), (1, { Region.reset with progs := [partner] })] }) with
    mem := dwords [(0x80, op * 2 ^ 60 + 2 ^ 44 + 1), (0x100, 0x200), (0x110, 0x0010000000000000), (0x118, 1), (0x204, 0x1000)] }
theorem wit_exchange : ∀ op ∈ [1, 2],
    let v := op * 2 ^ 60 + 2 ^ 44 + 1
    let a := (exchange op).vetchRead ranked 0x80 0 8
    let b := a.2.bufEntry ranked 0
    let c := b.2.rankPlace ranked 1
    let d := c.2.bufEntry ranked 0
    a.1 = .ok v ∧ b.1 = .ok (0x0010000000000000, 1) ∧ (match c.1 with | .at' q t => decide (q = 0 ∧ t = 1) | _ => false) = true ∧
      d.1 = .ok (0x0010000000000000, 1) ∧ (c.2.dev 0).region 0 = { Region.reset with progs := [ranked] } ∧
      (c.2.dev 0).region 1 = { Region.reset with progs := [partner] } ∧ (d.2.dev 0).region 0 = { Region.reset with progs := [ranked] } ∧
      (d.2.dev 0).region 1 = { Region.reset with progs := [partner] } ∧ d.2.tile 0 = c.2.tile 0 ∧
      (BitVec.ofNat 64 v : Word).toNat / 2 ^ 60 = op ∧ (BitVec.ofNat 64 v : Word).toNat / 2 ^ 30 % 4 = 0 ∧
      (BitVec.ofNat 64 v : Word).toNat % 2 ^ 24 * 64 ≤ (1 : Word).toNat % 2 ^ 24 * 64 ∧ (c.2.tile 0).pins.length = 48 ∧ (∀ e ∈ (c.2.tile 0).pins, e.2.pid = ranked.pid) ∧ spaceOf 0x0010000000000000 = 1 := by
  decide +kernel
theorem wit_partner :
    let k := sent none
    let keys := (List.range k.spans).map fun j => (k.step, k.src, j)
    let taken := { ranked with applied := [(0, 1, 0)] }
    spaceOf k.buf = 1 ∧ addrOf k.buf + k.off = 0 ∧ k.len = 64 ∧ partner.tile = ranked.tile ∧ partner.pid = ranked.pid ∧
      ranked.stopped = false ∧ ranked.checked = true ∧ ranked.halfway = false ∧ ranked.forwards = [] ∧ partner.id = ranked.id ∧ partner.rank = 1 ∧
      partner.out = some k ∧ k.dst = ranked.rank ∧ k.acked = false ∧ k.pulled = none ∧ (sent (some 0)).pulled.isSome = true ∧ (0, 0) ≠ (0, 1) ∧
      (∃ e ∈ keys, e ∉ ranked.applied) ∧ ∀ e ∈ keys, e ∈ taken.applied := by decide +kernel
theorem wit_aperture :
    let a := (exchange 1).bufEntry ranked 0
    let b := a.2.bufEntry ranked 0
    a.1 = .ok (0x0010000000000000, 1) ∧ (1 : Word).getLsbD 30 = false ∧ b.1 = .ok (0x0010000000000000, 1) ∧ (1 : Nat) ≠ ranked.inst ∧
      (b.2.dev 0).region 0 = { Region.reset with progs := [ranked] } ∧ (b.2.tile 0).pins.length = 48 ∧
      ∀ e ∈ (b.2.tile 0).pins, e.2.pid = ranked.pid := by decide +kernel

/-- FabricEvents: the states of the fabric; a held store to the other package of two, with a path and allowance and without. -/
def net (f : Fabric) (hs : List Held) : State := { State.reset with
  present := [0, 1], held := hs, devices := [(0, { Device.reset with fabric := f }), (1, { Device.reset with pos := 1 })] }
def farStore (via : Option Nat) (st : Stage) : Held := { heldStore st with gl := 2 ^ 45 + 9, via := via }
def reaching (owe : Bool) : Fabric := { Fabric.reset with
  slots := [(1, 0x8100), (6, 0x8200)], lanes := [(0, { Lane.reset with st := 1 }), (8, { Lane.reset with st := 1 })], allows := [(1, { Allow.reset with send := owe.toNat, up := true })] }
/-- The second package, and the third, which relays, in slots 1 and 2 after their guard. -/
def lit : Fabric := { Fabric.reset with lanes := [(0, { Lane.reset with st := 1 }), (8, { Lane.reset with st := 1 })] }
theorem wit_slot_edge : ∀ via ∈ [none, some 2],
    let h := farStore via .queue
    let net := fun owe => ({ net (reaching owe) [h] with now := (if via = none then 10070 else 19570), present := [0, 1, 2], devices := [(0, { Device.reset with fabric := reaching owe }),
      (1, { Device.reset with pos := 1, fabric := lit }), (2, { Device.reset with pos := 2, fabric := lit })] } : State)
    let s := net true
    let q := pkgOfGl h.gl
    let hop := h.via.getD (s.dev q).pos.toNat
    let f := (s.dev 0).fabric
    f.slotOf (s.time 0) = (if via = none then 1 else 2) ∧ 0 ≠ f.slotOf (s.time 0) ∧ f.st = .run ∧ s.held = [h] ∧ h.stage = .queue ∧ h.answer = none ∧
      h.lost = false ∧ h.fill = none ∧ pkgOf h.tile = 0 ∧ s.dir h.gl = Dir.reset ∧ s.dir (dirKey 0 h.gl) = Dir.reset ∧
      (∀ q ∈ [0, pkgOfGl h.gl], ∀ c ∈ (s.dev q).clusters, c.2.trackers = [] ∧ c.2.slice.length < 16) ∧ f.garbled = [] ∧
      f.failing = [] ∧ s.hopOpen 0 q via 1 = true ∧ s.slotRoom 0 hop = 937 ∧ (∀ i ∈ via, s.pkgAtPos 0 i ≠ none) ∧
      (net false).hopOpen 0 q via 1 = false ∧ ({ s with now := 9500 } : State).slotRoom 0 hop = 0 := by decide +kernel
/-- DRAIN with one package, before the next slot edge and after it, and with another that is reached by a path or not; 1 ms; rotation AT; the
lock; returned flits; lanes. -/
def draining : Fabric := { Fabric.reset with st := .drain }
theorem wit_drain :
    let s : State := { net draining [] with present := [0] }
    let far : Fabric := { Fabric.reset with paths := [(0, 0x40)] }
    let t : State := { net draining [] with devices := [(0, { Device.reset with fabric := draining }), (1, { Device.reset with pos := 1, fabric := far })] }
    draining.slotOf draining.since = draining.slotOf (s.time 0) ∧ draining.slotOf draining.since ≠ draining.slotOf (({ s with now := 10070 } : State).time 0) ∧
      (s.dev 0).fabric.st = .drain ∧ s.present = [0] ∧ (t.dev 1).fabric.pathTo 0 = true ∧ (t.dev 1).domain = (t.dev 0).domain ∧
      (t.dev 1).dark = false ∧ ((net draining []).dev 1).fabric.pathTo 0 = false ∧ draining.since + 1000000 ≤ ({ s with now := 4000000 } : State).time 0 ∧
      s.time 0 < draining.since + 1000000 ∧ Fabric.reset.st ≠ .drain ∧ s.held = [] ∧ s.devices.length = 2 ∧
      (∀ e ∈ s.devices, ∀ r ∈ e.2.regions, ∀ g ∈ r.2.progs, g.out = none) ∧ (net draining [farStore none (.relay 0)]).held = [farStore none (.relay 0)] := by decide +kernel
theorem wit_relock :
    let f : Fabric := { Fabric.reset with st := .dark, relockGo := true }
    let g : Fabric := { Fabric.reset with st := .relock, slots := [(1, 0x8100), (6, 0)], paths := [(4, 0x40)] }
    let at' := fun (n : Nat) (f : Fabric) => ({ net f [] with now := n } : State)
    let good : State := { at' 38000 g with devices := [(0, { Device.reset with fabric := g }), (1, { Device.reset with pos := 1, fabric := { g with slots := [(1, 0x8000)] } })] }
    f.st = .dark ∧ f.relockGo = true ∧ f.at'.toNat ≤ (at' 38000 f).time 0 / 20000 ∧ f.since / 20000 < (at' 38000 f).time 0 / 20000 ∧
      ¬ f.since / 20000 < (at' 0 f).time 0 / 20000 ∧ Fabric.reset.relockGo = false ∧
      g.st = .relock ∧ g.since + 2 * 20000 ≤ (at' 76000 g).time 0 ∧ good.symmetric 0 = 2 ∧ g.since + 20000 ≤ good.time 0 ∧
      (∀ e ∈ g.slots, (e.2.getLsbD 15 && !(2 : BitVec 64).getLsbD e.1) = false) ∧ (good.dev 0).regions = [] ∧
      (net g []).held = [] ∧ (∀ e ∈ (net g []).dirs, e.2.remote = .none) ∧ (0x8100 : Word).getLsbD 15 = true ∧ (0 : BitVec 64).getLsbD 1 = false ∧
      Fabric.reset.st ≠ .relock ∧ 1 ≠ ((net g []).dev 0).pos.toNat ∧ g.pathTo 1 = true ∧ g.pathTo 2 = false ∧ (g.allow 1).up = false ∧
      (net g []).pkgAtPos 0 1 = some 1 ∧ (((net g []).dev 1).fabric.allow 0).withhold = false := by decide +kernel
/-- Returned flits: in a slot that matches the pair, in another, and withheld. -/
theorem wit_returns :
    let s : State := { net (reaching true) [] with
      devices := [(0, { Device.reset with fabric := reaching true }), (1, { Device.reset with pos := 1, fabric := { lit with paths := [(0, 0x40)] } })] }
    let t : State := { net (reaching true) [] with
      devices := [(0, Device.reset), (1, { Device.reset with pos := 1, fabric := { Fabric.reset with allows := [(0, { Allow.reset with withhold := true })] } })] }
    s.pkgAtPos 0 1 = some 1 ∧ s.withheld 0 1 = false ∧ t.pkgAtPos 0 1 = some 1 ∧ t.withheld 0 1 = true ∧
      ({ s with now := 10070 } : State).returnsNow 0 1 = true ∧ s.returnsNow 0 1 = false := by decide +kernel
/-- A lane that has never trained, in the slot of a rotation in which the calibration path is free, and once it has been used; a withdrawn lane,
in its slot and in the next. -/
theorem wit_lanes_of_ports :
    let f : Fabric := { Fabric.reset with lanes := [(9, { Lane.reset with st := 2, failTimes := [100] })] }
    let s := net f []
    let asks := fun n => (f.lane n).en = true ∧ ((f.lane n).pend = true ∨ (f.lane n).st = 0)
    asks 8 ∧ ¬ asks 9 ∧ f.st = .run ∧ 5 ≤ (s.dev 0).mgmt.stage ∧ f.calRot ≠ f.rotOf (s.time 0) + 1 ∧ (mget 0 f.slots 0).getLsbD 15 = false ∧ f.calPort = 0 ∧
      ({ f with calRot := 1 } : Fabric).calRot = f.rotOf (s.time 0) + 1 ∧ (f.lane 9).st = 2 ∧ (f.lane 9).failTimes.getLast? = some 100 ∧
      ¬ f.slotOf 100 < f.slotOf (s.time 0) ∧ f.slotOf 100 < f.slotOf (({ s with now := 10070 } : State).time 0) ∧
      f.guardNs ≤ ({ s with now := 10070 } : State).time 0 % f.slotNs ∧ (f.lane 8).st ≠ 2 := by decide +kernel

/-- LaunchEvents: Yarrow on and off; a descriptor with V = 0, with LOG2N = 0, and with a tail that has not moved, has moved by one, and too far. -/
def qdesc (v logn tail : Nat) : State := { State.reset with
  devices := [(0, { Device.reset with yarrow := { Yarrow.reset with acked := true, en := true, qtBase := 1 } })]
  mem := dwords [(0x1000, 0x4000), (0x1008, v * 2 ^ 31 + logn), (0x1010, 0x5000), (0x2000, 0x100), (0x5000, tail)] }

theorem wit_yarrow_registers : ((qdesc 1 1 0).dev 0).yarrow.en = true ∧ (State.reset.dev 0).yarrow.en = false ∧
    (State.reset.dev 0).barOpen = true ∧ ({ Device.reset with mgmt := { Mgmt.reset with stage := 2, failed := true } } : Device).barOpen = false := by decide +kernel
theorem wit_tail : ∀ n ∈ [0, 1, 3],
    let s := qdesc 1 1 n
    let a := s.readDesc 0 0
    s.serving 0 = true ∧ 0 < 131072 ∧ (match a.1 with
      | .ok x => decide (hostQueue 0 x = false ∧ ((a.2.physRead 0 (descTail x) 8).2.modQueue 0 0 fun y => { y with watch := true, err := false }).physWrite 0
            ((a.2.dev 0).yarrow.descAt 0 + 0x18) 8 (2 ^ 63) ≠ none ∧ x / 2 ^ 64 % 2 ^ 64 / 2 ^ 31 % 2 = 1 ∧ x / 2 ^ 64 % 2 ^ 5 = 1 ∧ x / 2 ^ 192 % 2 ^ 64 = 0 ∧ a.2.hostAbsent 0 x = false ∧
          (a.2.physRead 0 (descTail x) 8).1 = .ok n ∧ ((a.2.physRead 0 (descTail x) 8).2.dev 0).yarrow.queue 0 = YQueue.reset ∧
          (a.2.dev 0).yarrow.queue 0 = YQueue.reset)
      | _ => false) = true := by decide +kernel
theorem wit_tail_record :
    let s := ((qdesc 1 1 1).readDesc 0 0).2
    let u := (s.physRead 0 0x5000 8).2.modQueue 0 0 fun y => { y with watch := true, err := false }
    let a := u.physRead 0 (0x4000 + 64 * (0 % 2 ^ 1)) 64
    let v := a.2.physWrite 0 ((a.2.dev 0).yarrow.descAt 0 + 0x18) 8 1
    a.1 = .ok 0 ∧ (v.map fun v => (v.dev 0).yarrow.queue 0) = some { YQueue.reset with watch := true } ∧ YQueue.reset.lost = false ∧ (1 + 2 ^ 32 - 0) % 2 ^ 32 = 1 ∧ 2 ^ 1 < (3 + 2 ^ 32 - 0) % 2 ^ 32 := by
  decide +kernel
theorem wit_tail_bad : ∀ d ∈ [(0, 1), (1, 0), (1, 17)],
    let a := (qdesc d.1 d.2 0).readDesc 0 0
    (match a.1 with
    | .ok x => decide (a.2.physWrite 0 ((a.2.dev 0).yarrow.descAt 0 + 0x18) 8 (2 ^ 63) ≠ none ∧ x / 2 ^ 64 % 2 ^ 64 / 2 ^ 31 % 2 = d.1 ∧ x / 2 ^ 64 % 2 ^ 5 = d.2)
    | _ => false) = true := by decide +kernel
/-- LaunchEvents: a queue with a record for the first cluster, which nothing uses; a partition that another package forwarded, and one that has ended. -/
def record (cpl : Word) : List Word := [BitVec.ofNat 64 (2 ^ 33 + 2 ^ 36), 0, 0, 0x10000, 7, 0, 0, cpl]
def launching : State := { qdesc 1 1 1 with devices := [(0, { Device.reset with
  yarrow := { Yarrow.reset with acked := true, en := true, qtBase := 1, gtBase := 2, queues := [(0, { YQueue.reset with records := [record 0] })] } })] }
theorem wit_launch :
    let s := launching
    let h : Head := (s.heads 0).headD ⟨9, [], 0, 0, 0, 0, 0⟩
    let a := s.checkLaunch 0 h.record
    let ts := List.range 8
    s.serving 0 = true ∧ s.heads 0 = [h] ∧ h.queue = 0 ∧ h.record = record 0 ∧ (match a.1 with | .tiles us => decide (us = ts) | _ => false) = true ∧
      (ts.any fun t => (a.2.tile t).reserveBad a.2.nextPid (recLres h.record)) = false ∧ a.2.placeable ts h.rclass = true ∧ a.2.reserved 0 h ts = false ∧
      (∀ r ∈ a.2.partitions, r.pid ≠ a.2.nextPid) ∧ a.2.held = [] ∧
      (∀ t ∈ ts, (a.2.tile t).pid ≠ a.2.nextPid ∧ ∀ q ∈ (a.2.tile t).parked, q.pid ≠ a.2.nextPid) ∧ pkgOf 7 = 0 ∧ (s.headOf 0 0).isSome = true := by decide +kernel
def part (cpl : Word) (halted : List Nat) : Partition := ⟨2, .live, 0, record cpl, 0, 0, [0], halted, [], 0⟩
theorem wit_forward :
    let s : State := { State.reset with partitions := [part 0 []] }
    s.partitions = [part 0 []] ∧ (part 0 []).st = .live ∧ (part 0 []).halted = [] ∧ pkgOf 0 = 0 ∧ mhas (s.tile 0).ctxs 0 = false ∧
      (s.tile 0).pid ≠ (part 0 []).pid ∧ (s.tile 0).parked = [] := by decide +kernel
theorem wit_complete :
    let q := part 0x1000 [0]
    let s : State := { State.reset.withFetchWord 32 0 with partitions := [q] }
    q.st = .live ∧ (∀ t ∈ q.tiles, t ∈ q.halted) ∧ dw (part 0 [0]).record 7 = 0 ∧
      (match s.complete q.dev q.record q.cplCode with | some u => decide (u.partitions = [q]) | none => false) = true := by decide +kernel

/-- RecoveryEvents: a quiet cluster; with its row shifted once and not; its fence record, online and offline. -/
theorem wit_fence :
    let s : State := { one (tile (ctx [])) with devices := [(0, { Device.reset with rows := [(rowKey (dieOf 0) (rowOf 0), 1)] })] }
    (∀ v ∈ List.range 8, (s.tile v).mode ≠ .signing ∧ (s.tile v).member = none ∧ (s.tile v).parked = [] ∧ (s.tile v).pins = [] ∧ (s.tile v).lines = [] ∧
      (s.tile v).slots = [] ∧ (∀ im ∈ (s.tile v).save, ∀ e ∈ im.ctxs, e.2.effects = []) ∧ ∀ e ∈ (s.tile v).ctxs, ((s.tile v).ctx e.1).effects = []) ∧
      s.held = [] ∧ s.partitions = [] ∧ (s.dev (pkgOf 0)).yarrow.ftBase = 0 ∧ mget 0 (s.dev (pkgOf 0)).rows (rowKey (dieOf 0) (rowOf 0)) ≠ 0 ∧ State.reset.partitions = [] ∧
      mget 0 (State.reset.dev (pkgOf 0)).rows (rowKey (dieOf 0) (rowOf 0)) = 0 := by decide +kernel
theorem wit_quarantine : ∀ v, (State.reset.tile v).lines = [] := fun _ => rfl
/-- RecoveryEvents: the suspect is the unit that waits, or the next one. -/
theorem wit_suspect : (1 ≠ 0 ∨ mhas ((with' []).tile 0).ctxs 0 = false) ∧ mhas ((with' []).tile 0).ctxs 0 = true ∧ ((with' []).ctxAt 0 0).tip = false ∧
    ((with' []).ctxAt 0 0).backlog = [] := by decide +kernel
theorem wit_ready :
    let r : FenceRec := ⟨0x14, 0, [], List.range 8, false⟩
    let s := one { Tile.reset with fenced := true, fenceRec := some r }
    let t : State := { s with devices := [(0, { Device.reset with clusters := [(0, { Cluster.reset with offline := true })] })] }
    (s.tile 0).fenceRec = some r ∧ (∀ v ∈ r.tiles, ((s.dev (pkgOf v)).cluster (clusterOf v)).offline = false) ∧
      ∃ v ∈ r.tiles, ((t.dev (pkgOf v)).cluster (clusterOf v)).offline = true := by decide +kernel

/-- ManagementEvents: each state of the responder in which a request is answered, and those in which it is not; no power; a failed stage. -/
theorem wit_attestation :
    let d : Spdm := ⟨true, true, true, false, false, none, none, 0, 0, 0, []⟩
    d.versioned = true ∧ (d.capable && 3 % 4 = 3) = true ∧ d.negotiated = true ∧ (d.negotiated && !d.session) = true ∧
      (({ d with session := true } : Spdm).session && !({ d with session := true } : Spdm).finished) = true ∧ Spdm.reset.versioned = false ∧
      Mgmt.reset.powered = true ∧ Mgmt.reset.failed = false ∧ ({ Mgmt.reset with powered := false, failed := true } : Mgmt).failed = true := by decide +kernel
/-- An image that does not verify, and what it takes of the package's functions for one that does. -/
theorem wit_image_bad : State.reset.verifies 0 1 0 = false := by decide +kernel
theorem wit_image_good (i : Nat) (h : imgMagic i = 0x464B4E38 ∧ imgKind i = 1) (k : Config.sha3 (imgKey i) 1312 = Config.vendorKeyHash)
    (v : Config.mldsaVerify (imgKey i) (imgSigned i) (imgSig i) = true) (d : (Config.sha3 (imgPayload i) (imgLen i)).toNat = imgDigest i) :
    State.reset.verifies 0 1 i = true := by
  have : mget 0 (State.reset.dev 0).mgmt.svnMin 1 = 0 := by decide +kernel
  simp [State.verifies, h.1, h.2, k, v, d, this]
theorem wit_management :
    let s : State := { State.reset with present := [0, 1] }
    let e : MgmtEvent := ⟨0, 7, 0, 1⟩
    (s.dev 0).mgmt.events.length < 1024 ∧ ({ Mgmt.reset with events := [e] } : Mgmt).events = [e] ∧ Mgmt.reset.lostEvents = 0 ∧
      0 < ({ Mgmt.reset with events := [e], lostEvents := 2 } : Mgmt).lostEvents ∧ Mgmt.reset.powered = true ∧ Mgmt.reset.snapAt ≠ some (s.now * 16 / 19) ∧ Mgmt.reset.snap = none ∧
      ({ Mgmt.reset with snapAt := some (s.now * 16 / 19) } : Mgmt).snapAt = some (s.now * 16 / 19) ∧
      ({ Mgmt.reset with snap := some ⟨0, 7⟩ } : Mgmt).snap ≠ none ∧ Mgmt.reset.pcap < 3001 ∧ 3000 ≤ Mgmt.reset.pcap ∧ Mgmt.reset.hot = false ∧
      104 < 105 ∧ 105 ≤ 114 ∧ 114 < 115 ∧ (∀ e ∈ s.tiles, pkgOf e.1 ≠ 0) ∧ s.held = [] ∧ s.dirs = [] ∧ 0 ∈ s.present ∧ 5 ∉ s.present ∧ (s.dev 0).mgmt.stage ≠ 5 ∧
      (let m : Mgmt := { Mgmt.reset with stage := 5 }
      m.stage = 5 ∧ m.failed = false ∧ m.powered = true) ∧
      (∃ q ∈ s.present, q ≠ 0 ∧ (s.dev q).dark = false ∧ (s.dev q).number = 64 * 0 + 0) ∧
      ¬ (∃ q ∈ s.present, q ≠ 0 ∧ (s.dev q).dark = false ∧ (s.dev q).number = 64 * 0 + 1) ∧ 63 < 64 := by decide +kernel

/-- StepRunsDecoded: an event; the slots of a tile; a unit in the instruction cache, lone and not, with X = 0 and X = 1, first in its stream and
after another, whose entry has a place and has none; a backlog of each kind. -/
def cached (k : Ctx) (u : Nat) : State := one { tile k with icache := [⟨0x20, 0, true, BitVec.ofNat 1024 u⟩] }
def waiting (k : Ctx) (u : Word) (onlyA : Bool) (rules : Option (BitVec 2 × Bool)) : State := one (tile { k with
  backlog := [⟨0x1000, u, 0, 0, Vector.replicate 32 0, Vector.replicate 3 KReg.reset, [], onlyA, false, rules⟩] })
theorem wit_slots_of_tile :
    let s := { cached (ctx []) 0 with slots := [0, 5] }
    s.agenda = [] ∧ s.slots = [0, 5] ∧ (s.tile 0).gang = none ∧ (s.outerTrap 0).isNone = true ∧ s.liveCtxs 0 = [0] ∧ s.ctx.pairReady = false ∧
      (∀ p ∈ (s.ctxAt 0 0).backlog.head?, p.held = false) ∧ (Instr.homeRead 0 0 0).form = .event := by decide +kernel
theorem wit_fetch : ∀ u ∈ [2 ^ 31 + 0x3F, 0x12298003, 0x40000000, 0x40000040C888004D], ∀ k ∈ [ctx [], { ctx [] with lastC := some 0 }],
    let s : State := { cached k u with now := 2 }
    mhas (s.tile 0).ctxs 0 = true ∧ k.backlog = [] ∧ k.skipC = false ∧ ((s.tile 0).icache.find? fun l => l.va = addrOf k.pc / 128 && l.asid = k.asid) =
        some ⟨0x20, 0, true, BitVec.ofNat 1024 u⟩ ∧ (∀ n, k.lastC = some n → n + max ((BitVec.ofNat 64 u : Word).toNat / 2 ^ 61) 1 ≤ s.now) := by
  intro u hu k hk
  simp only [List.mem_cons, List.not_mem_nil, or_false] at hu hk
  obtain rfl | rfl | rfl | rfl := hu <;> obtain rfl | rfl := hk <;>
    refine ⟨by decide +kernel, rfl, rfl, by decide +kernel, fun n h => ?_⟩ <;> cases h <;> decide +kernel
theorem wit_units : (BitVec.ofNat 64 (2 ^ 31 + 0x3F) : Word).getLsbD 31 = true ∧ (BitVec.ofNat 64 0x12298003 : Word).getLsbD 31 = false ∧
    (BitVec.ofNat 64 0x12298003 : Word).getLsbD 30 = false ∧ (cached (ctx []) 0).flashing 0 0x12298003 = false ∧
    (BitVec.ofNat 64 0x40000000 : Word).getLsbD 30 = true ∧ (BitVec.ofNat 64 0x40000040C888004D : Word).getLsbD 31 = true ∧ handler.ctx.priv = true := by
  decide +kernel
theorem wit_reserve :
    let s := fun (n : Nat) => (cached { ctx [] with unit := 0x40000040C888004D, dqs := Vector.replicate 4 (List.replicate n ⟨0, true, [], 0, 0⟩) } 0)
    (s 3).reserve.isSome = true ∧ (s 4).reserve.isNone = true := by decide +kernel
/-- Fates of a unit in the address stream: a branch, a word of no table, a read of an empty mailbox. -/
theorem wit_fates : ∀ r ∈ [((0x12298003 : Word), Fate.done), (0x8FC00000, .trapped), (0x1E000020, .waited)],
    let s : State := (cached (ctx []) 0).setCtx { ctx [] with unit := r.1 }
    let i := if r.1.getLsbD 31 then decodeLone r.1 else decodeC (r.1.extractLsb' 0 32)
    (match exec (i.getD (.reservedEncoding r.1 false)) s with
    | .next z => decide (z.fate = r.2 ∧ z.now ≤ s.now)
    | _ => false) = true := by decide +kernel
/-- A backlog whose head is a lone unit (MROT), an A-word alone (VEXP2), one after a skipped C-word, and one after its C-word (ADD). -/
def aWord : Word := 0x0D88003800000000
def both : Word := 0x0D88003841184400
theorem wit_backlog : ∀ n < 4,
    let u : Word := if n = 0 then 0x84800000 else if n = 1 then aWord else both
    let s := waiting (ctx []) u (n = 2) none
    let k := s.ctxAt 0 0
    mhas (s.tile 0).ctxs 0 = true ∧ k.backlog.map (fun p => (p.image, p.onlyA, p.held)) = [(u, decide (n = 2), false)] ∧ k.retained = false ∧
      k.wakeAt ≤ s.now ∧ k.lastA = none ∧ s.flashing 0 u = false := by decide +kernel
theorem wit_spaced : ({ ctx [] with lastA := some 0 } : Ctx).lastA = some 0 ∧ 0 + max (aWord.toNat / 2 ^ 61) 1 ≤ 1 := by decide +kernel
/-- An A-word that waits for an entry of d3 to fill, and one that finds none while the address stream cannot go on. -/
def popping : Word := 0x0D880FB800000000
theorem wit_pop : ∀ d ∈ [([⟨0, false, [], 0, 0⟩], none), (([] : List DqEntry), some 3)],
    let k := { ctx [] with banks := 1, vregs := List.replicate 8 VReg.reset, seq := 65, dqs := Vector.replicate 4 d.1 }
    let s := waiting k popping false none
    let a := ((s.asCtx 0 0).atPart (s.ctx.backlog.headD ⟨0, 0, 0, 0, s.ctx.sregs, s.ctx.kregs, [], false, false, none⟩))
    (match exec ((decodeA (popping.extractLsb' 32 32)).getD (.reservedEncoding 0 true)) a with
    | .next z => decide (z.fate = .waited ∧ z.now ≤ s.now)
    | _ => false) = true ∧ s.ctx.popEmpty (sourceCodes popping) = d.2 ∧
    (∀ p ∈ s.ctx.backlog, (match ahead p (s.asCtx 0 0) with | .stuck => true | _ => false) = true) := by decide +kernel
/-- StepRunsDecoded, last clause: the C-word (ADD) and the A-word of that unit both complete. -/
theorem wit_both :
    let s := waiting (ctx []) both false none
    let p : Part := ⟨0x1000, both, 0, 0, Vector.replicate 32 0, Vector.replicate 3 KReg.reset, [], false, false, none⟩
    let e := (s.asCtx 0 0).atPart p
    p.image.getLsbD 31 = false ∧ p.image.getLsbD 30 = true ∧ (decodeC (p.image.extractLsb' 0 32)).isSome = true ∧
      (match decodeC (p.image.extractLsb' 0 32), decodeA (p.image.extractLsb' 32 32) with
      | some c, some a => (match exec c e with
          | .next y => decide (y.fate = .done ∧ mhas (y.tile y.cur).ctxs y.cid = true) && (match underRules (e.ctx.oldRules y.ctx) (exec a) y with
              | .next z => decide (z.fate = .done ∧ z.now ≤ s.now)
              | _ => false)
          | _ => false)
      | _, _ => false) = true := by decide +kernel
/-- RoundTrip, MemoryFormKept. -/
theorem wit_roundtrip : (Instr.mma ⟨false, 1, 5, 0x42, 0, 0, 0⟩).wf = true ∧ (Instr.mma ⟨false, 1, 5, 0x42, 0, 0, 0⟩).form ≠ .event := by decide +kernel
theorem wit_memory_form : Memory.wf State.reset.mem = true ∧ (match step State.reset with | .next _ => true | _ => false) = true := by decide +kernel

end Sys2Proof.Tests
end

section
/-! What reset leaves (R13, R116, R325, R361 to R365, R373, R377, R379). -/
namespace Sys2Proof.Machine

@[simp] theorem reset_tile (t : Nat) : State.reset.tile t = Tile.reset := rfl
@[simp] theorem reset_dev (p : Nat) : State.reset.dev p = Device.reset := rfl
@[simp] theorem reset_lane (l : Nat) : Fabric.reset.lane l = Lane.reset := rfl

/-- TIME of a package counts from the cycle in which its base was set (R379). -/
theorem time_of_timeFrom {s : State} {p : Nat} (h : (s.dev p).timeFrom = s.now) : s.time p = (s.dev p).timeBase := by
  simp [State.time, h]

/-- Settles O60: no table lists anything at reset, so every tile and package stands at its own reset value. -/
theorem resetState : Obligations.ResetState := by
  have tiles (t : Nat) : (State.reset.tile t).mode = .idle ∧ (State.reset.tile t).pinLimit = 10 ∧ (State.reset.tile t).ctxs = [] ∧
      (State.reset.tile t).lines = [] ∧ (State.reset.tile t).pins = [] := by
    rw [reset_tile]
    exact ⟨rfl, rfl, rfl, rfl, rfl⟩
  have lanes (l : Nat) : (Fabric.reset.lane l).en = true ∧ (Fabric.reset.lane l).st = 0 := by
    rw [reset_lane]
    exact ⟨rfl, rfl⟩
  refine ⟨nil_wf, tiles, mget_nil _, fun p => ?_⟩
  rw [reset_dev]
  exact ⟨rfl, rfl, time_of_timeFrom rfl, rfl, rfl, rfl, rfl, rfl, rfl, rfl, rfl, lanes, rfl⟩

end Sys2Proof.Machine
end

section
/-! What an event leaves of the part being issued, and of the other parts of the state. -/
namespace Sys2Proof.Machine

/-- Nothing of the part being issued differs between two states. -/
structure State.SameIssue (s t : State) : Prop where
  cur : t.cur = s.cur
  cid : t.cid = s.cid
  compute : t.compute = s.compute
  slots : t.slots = s.slots
  turns : t.turns = s.turns

theorem State.SameIssue.refl (s : State) : s.SameIssue s := ⟨rfl, rfl, rfl, rfl, rfl⟩
theorem sameIssue_setDev (s : State) (p : Nat) (x : Device) : s.SameIssue (s.setDev p x) := ⟨rfl, rfl, rfl, rfl, rfl⟩

theorem happens_of_exec {s t : State} {i : Instr} (he : exec i s = .next { t with fate := .done }) (h : s.SameIssue t) :
    s.happens { t with fate := .done } i := ⟨he, rfl, h.cur, h.cid, h.compute, h.slots, h.turns⟩

theorem exec_of_happen {s t : State} {i : Instr} {f : State → State} (he : exec i s = happen f s) (hf : f s = t) :
    exec i s = .next { t with fate := .done } := by
  rw [he, happen_run, hf]

/-- Event i leaves memory and tiles, and package p as e. -/
def State.becomes (s : State) (p : Nat) (i : Instr) (e : Device) : Prop :=
  ∃ u, s.happens u i ∧ u.mem = s.mem ∧ u.tiles = s.tiles ∧ u.dev p = e

theorem becomes_of_same {s : State} {i : Instr} (p : Nat) (he : exec i s = .next { s with fate := .done }) : s.becomes p i (s.dev p) :=
  ⟨_, happens_of_exec he (.refl s), rfl, rfl, rfl⟩
theorem becomes_of_setDev {s : State} {i : Instr} {p : Nat} {e : Device}
    (he : exec i s = .next { s.setDev p e with fate := .done }) : s.becomes p i e :=
  ⟨_, happens_of_exec he (sameIssue_setDev s p e), rfl, rfl, mget_mset_same ..⟩

/-! ## Updates of a package as one -/

@[simp] theorem setDev_dev_same (s : State) (p : Nat) (x : Device) : (s.setDev p x).dev p = x := mget_mset_same ..
theorem modDev_eq (s : State) (p : Nat) (f : Device → Device) : s.modDev p f = s.setDev p (f (s.dev p)) := rfl
theorem modMgmt_eq (s : State) (p : Nat) (f : Mgmt → Mgmt) :
    s.modMgmt p f = s.setDev p { s.dev p with mgmt := f (s.dev p).mgmt } := rfl

/-- A record joins a queue with room for it (R379). -/
theorem logEvent_eq {s : State} {p : Nat} (cls source data : Nat) (h : (s.dev p).mgmt.events.length < 1024) :
    s.logEvent p cls source data = s.modMgmt p fun m => { m with events := m.events ++ [⟨s.time p, cls, source, data⟩] } := by
  simp [State.logEvent, modMgmt_eq, Nat.not_le.2 h]

theorem time_setDev {s : State} {p : Nat} {e : Device} (hb : e.timeBase = (s.dev p).timeBase) (hf : e.timeFrom = (s.dev p).timeFrom) :
    (s.setDev p e).time p = s.time p := by
  simp [State.time, hb, hf]

end Sys2Proof.Machine
end

section
/-! The attestation responder (R376). -/
namespace Sys2Proof.Machine

theorem modSpdm_eq (s : State) (p : Nat) (f : Spdm → Spdm) :
    s.modSpdm p f = s.setDev p { s.dev p with mgmt := { (s.dev p).mgmt with spdm := f (s.dev p).mgmt.spdm } } := rfl

/-- The responder after an answer. -/
def Spdm.answered (d : Spdm) (code : Nat) (payload : List Nat) : Spdm :=
  { d with response := code, payload := payload, transcript := d.transcript + 1 }

theorem respond_eq (s : State) (p code : Nat) (payload : List Nat) : s.respond p code payload = s.modSpdm p fun d => d.answered code payload := rfl
theorem modSpdm_modSpdm (s : State) (p : Nat) (f g : Spdm → Spdm) : (s.modSpdm p f).modSpdm p g = s.modSpdm p fun d => g (f d) := by
  simp [modSpdm_eq]

/-- What a request does that is answered with a code in the states of ready, in which it makes next of the responder's state. -/
def State.attests (s : State) (p : Nat) (i : Instr) (ready : Bool) (code : Nat) (next : Spdm) : Prop :=
  let m := (s.dev p).mgmt
  let d := m.spdm
  (m.powered = false → exec i s = .next { s with fate := .done }) ∧
  (m.powered = true → ∃ u, s.happens u i ∧ u.mem = s.mem ∧ u.tiles = s.tiles ∧
    let e := (u.dev p).mgmt.spdm
    if m.failed then e = { d with response := 0x7F, payload := [m.stage], transcript := d.transcript + 1 }
    else if ready then e = { next with response := code, payload := e.payload, transcript := d.transcript + 1 }
    else e = { d with response := 0x7F, payload := [], transcript := d.transcript + 1 })

/-- A change of the responder alone, as an event. -/
theorem happens_modSpdm {s : State} {i : Instr} {p : Nat} {f : Spdm → Spdm} (he : exec i s = .next { s.modSpdm p f with fate := .done }) :
    ∃ u, s.happens u i ∧ u.mem = s.mem ∧ u.tiles = s.tiles ∧ (u.dev p).mgmt.spdm = f (s.dev p).mgmt.spdm := by
  obtain ⟨u, hu, hm, ht, hd⟩ := becomes_of_setDev (s := s) (p := p) he
  exact ⟨u, hu, hm, ht, by rw [hd]⟩

/-- R376, R373: a request whose answer changes the responder by f. -/
theorem attests_of_request {s : State} {p : Nat} {i : Instr} (ready : Spdm → Bool) (f : Spdm → Spdm) {answer : State → State} {code : Nat}
    {payload : List Nat} (he : exec i s = happen (fun s => s.request p ready answer) s)
    (ha : answer s = (s.modSpdm p f).respond p code payload) (hf : (f (s.dev p).mgmt.spdm).transcript = (s.dev p).mgmt.spdm.transcript) :
    s.attests p i (ready (s.dev p).mgmt.spdm) code (f (s.dev p).mgmt.spdm) := by
  rw [happen_run] at he
  refine ⟨fun hp => by simpa [State.request, hp] using he, fun hp => ?_⟩
  cases hfail : (s.dev p).mgmt.failed with
  | true =>
    have he : exec i s = .next { s.modSpdm p (fun d => d.answered rspError [(s.dev p).mgmt.stage]) with fate := .done } := by
      simpa [State.request, hp, hfail, respond_eq] using he
    exact happens_modSpdm he
  | false =>
    cases hr : ready (s.dev p).mgmt.spdm with
    | true =>
      have he : exec i s = .next { s.modSpdm p (fun d => (f d).answered code payload) with fate := .done } := by
        simpa [State.request, hp, hfail, hr, ha, respond_eq, modSpdm_modSpdm] using he
      obtain ⟨u, hu, hm, ht, hd⟩ := happens_modSpdm he
      refine ⟨u, hu, hm, ht, ?_⟩
      simp only [hd, Spdm.answered, hf]
      simp
    | false =>
      have he : exec i s = .next { s.modSpdm p (fun d => d.answered rspError []) with fate := .done } := by
        simpa [State.request, hp, hfail, hr, respond_eq] using he
      exact happens_modSpdm he

/-- A request that only answers. -/
theorem attests_of_answer {s : State} {p : Nat} {i : Instr} (ready : Spdm → Bool) {answer : State → State} {code : Nat}
    {payload : List Nat} (he : exec i s = happen (fun s => s.request p ready answer) s) (ha : answer s = s.respond p code payload) :
    s.attests p i (ready (s.dev p).mgmt.spdm) code (s.dev p).mgmt.spdm :=
  attests_of_request ready id (payload := payload) he (ha.trans (by simp [respond_eq, modSpdm_modSpdm])) rfl


/-- Each request of the flows, with the states in which it is answered, its code, and what it makes of the responder's state. -/
theorem attestation_flows (s : State) (p offer nonce : Nat) :
    let d := (s.dev p).mgmt.spdm
    s.attests p (.getVersion p) true 0x04 { Spdm.reset with keys := d.keys, ide := d.ide, uec := d.uec, versioned := true } ∧
    s.attests p (.getCapabilities p) d.versioned 0x61 { d with capable := true } ∧
    s.attests p (.negotiateAlgorithms p offer) (d.capable && offer % 4 = 3) 0x63 { d with negotiated := true } ∧
    s.attests p (.getDigests p) d.negotiated 0x01 d ∧ s.attests p (.getCertificate p) d.negotiated 0x02 d ∧
    s.attests p (.challenge p nonce) d.negotiated 0x03 d ∧ s.attests p (.getMeasurements p nonce) d.negotiated 0x60 d ∧
    s.attests p (.keyExchange p nonce) (d.negotiated && !d.session) 0x64 { d with session := true, finished := false } ∧
    s.attests p (.finish p) (d.session && !d.finished) 0x65 { d with
      finished := true, ide := some (Config.sessionKey p d.transcript 0), uec := some (Config.sessionKey p d.transcript 1) } ∧
    s.attests p (.keyUpdate p) (d.session && d.finished) 0x69 { d with keys := d.keys + 1 } ∧
    s.attests p (.heartbeat p) (d.session && d.finished) 0x68 d ∧
    s.attests p (.endSession p) d.session 0x6C { d with session := false, finished := false } :=
  ⟨attests_of_request (fun _ => true) (fun d => { Spdm.reset with
      keys := d.keys, ide := d.ide, uec := d.uec, transcript := d.transcript, versioned := true }) rfl rfl rfl,
    attests_of_request (fun d => d.versioned) (fun d => { d with capable := true }) rfl rfl rfl,
    attests_of_request (fun d => d.capable && offer % 4 = 3) (fun d => { d with negotiated := true }) rfl rfl rfl,
    attests_of_answer (fun d => d.negotiated) rfl rfl, attests_of_answer (fun d => d.negotiated) rfl rfl,
    attests_of_answer (fun d => d.negotiated) rfl rfl, attests_of_answer (fun d => d.negotiated) rfl rfl,
    attests_of_request (fun d => d.negotiated && !d.session) (fun d => { d with session := true, finished := false }) rfl rfl rfl,
    attests_of_request (fun d => d.session && !d.finished) (fun d => { d with
      finished := true, ide := some (Config.sessionKey p d.transcript 0), uec := some (Config.sessionKey p d.transcript 1) }) rfl rfl rfl,
    attests_of_request (fun d => d.session && d.finished) (fun d => { d with keys := d.keys + 1 }) rfl rfl rfl,
    attests_of_answer (fun d => d.session && d.finished) rfl rfl,
    attests_of_request (fun d => d.session) (fun d => { d with session := false, finished := false }) rfl rfl rfl⟩

end Sys2Proof.Machine
end

section
/-! Firmware updates, event records, snapshots, power and temperature (R374, R379 to R381), TIME and DEVID (R379, R14). -/
namespace Sys2Proof.Machine

/-! ## What the management controller does while its package has power -/

theorem managed_off {s : State} {p : Nat} (f : State → State) (h : (s.dev p).mgmt.powered = false) : s.managed p f = s := by
  simp [State.managed, h]
theorem managed_on {s : State} {p : Nat} (f : State → State) (h : (s.dev p).mgmt.powered = true) : s.managed p f = f s := by
  simp [State.managed, h]

/-- A command to a controller without power. -/
theorem exec_managed_off {s : State} {p : Nat} {i : Instr} {f : State → State} (he : exec i s = happen (fun s => s.managed p f) s)
    (h : (s.dev p).mgmt.powered = false) : exec i s = .next { s with fate := .done } := exec_of_happen he (managed_off f h)
/-- A command to a controller with power, which leaves package p as e. -/
theorem becomes_of_managed {s : State} {p : Nat} {i : Instr} {f : State → State} {e : Device}
    (he : exec i s = happen (fun s => s.managed p f) s) (h : (s.dev p).mgmt.powered = true) (hf : f s = s.setDev p e) : s.becomes p i e :=
  becomes_of_setDev (exec_of_happen he ((managed_on f h).trans hf))
/-- A command that a controller with power ignores. -/
theorem becomes_of_managed_same {s : State} {p : Nat} {i : Instr} {f : State → State}
    (he : exec i s = happen (fun s => s.managed p f) s) (h : (s.dev p).mgmt.powered = true) (hf : f s = s) : s.becomes p i (s.dev p) :=
  becomes_of_same p (exec_of_happen he ((managed_on f h).trans hf))

/-! ## Firmware (R374) -/

theorem firmwareUpdate_refused {s : State} {p kind image : Nat} (burn : Bool)
    (h : s.verifies p kind image = false ∨ (s.dev p).mgmt.powered = false) :
    exec (.pldmFirmwareUpdate p kind image burn) s = .next { s with fate := .done } := by
  rcases h with hv | hp
  · exact exec_of_happen rfl (by simp [hv])
  · exact exec_managed_off rfl hp

theorem firmwareUpdate_kept {s : State} {p kind image : Nat} (burn : Bool) (hv : s.verifies p kind image = true)
    (hp : (s.dev p).mgmt.powered = true) (hl : (s.dev p).mgmt.events.length < 1024) :
    let m := (s.dev p).mgmt
    s.becomes p (.pldmFirmwareUpdate p kind image burn) { s.dev p with mgmt := { m with
      images := mset m.images kind image
      svnMin := if burn then mset m.svnMin kind (max (mget 0 m.svnMin kind) (imgSvn image)) else m.svnMin
      events := m.events ++ [⟨s.time p, evFIRMWARE, hubSource, kind⟩] } } := by
  refine becomes_of_managed rfl hp ?_
  rw [hv, Bool.not_true, if_neg Bool.false_ne_true, logEvent_eq]
  · simp [modMgmt_eq, time_setDev]
  · simpa [modMgmt_eq] using hl

/-! ## Event records (R379) -/

theorem eventSend_oldest {s : State} {p : Nat} {e : MgmtEvent} {rest : List MgmtEvent} (hp : (s.dev p).mgmt.powered = true)
    (he : (s.dev p).mgmt.events = e :: rest) (hl : (s.dev p).mgmt.lostEvents = 0) :
    let m := (s.dev p).mgmt
    s.becomes p (.mgmtEventSend p) { s.dev p with mgmt := { m with events := rest, sent := m.sent ++ [e.record] } } :=
  becomes_of_managed rfl hp (by simp [modMgmt_eq, he, hl])

theorem eventSend_lost {s : State} {p : Nat} (hp : (s.dev p).mgmt.powered = true) (hl : 0 < (s.dev p).mgmt.lostEvents)
    (hr : (s.dev p).mgmt.events.length < 1024) :
    let m := (s.dev p).mgmt
    s.becomes p (.mgmtEventSend p) { s.dev p with mgmt := { m with
      sent := m.sent ++ [(⟨s.time p, evLOST, hubSource, m.lostEvents⟩ : MgmtEvent).record], lostEvents := 0 } } :=
  becomes_of_managed rfl hp (by simp [modMgmt_eq, hl, hr])

/-! ## Snapshots (R380) -/

theorem snapTrigger_merged {s : State} {p : Nat} (hp : (s.dev p).mgmt.powered = true) (ht : (s.dev p).mgmt.snapAt = some s.hubCycle) :
    s.becomes p (.snapTrigger p) (s.dev p) :=
  becomes_of_managed_same rfl hp (if_pos ht)

theorem snapTrigger_latched {s : State} {p : Nat} (hp : (s.dev p).mgmt.powered = true) (ht : (s.dev p).mgmt.snapAt ≠ some s.hubCycle)
    (hs : (s.dev p).mgmt.snap = none) (hl : (s.dev p).mgmt.events.length < 1024) :
    let m := (s.dev p).mgmt
    s.becomes p (.snapTrigger p) { s.dev p with mgmt := { m with
      snap := some ⟨s.time p, s.hubCycle⟩, snapAt := some s.hubCycle, events := m.events ++ [⟨s.time p, evSNAP, hubSource, 0⟩] } } := by
  refine becomes_of_managed rfl hp ?_
  simp only [State.snapshot, State.snapshotAt, if_neg ht, hs]
  rw [logEvent_eq]
  · simp [modMgmt_eq, time_setDev]
  · simpa [modMgmt_eq] using hl

theorem snapTrigger_dropped {s : State} {p : Nat} (hp : (s.dev p).mgmt.powered = true) (ht : (s.dev p).mgmt.snapAt ≠ some s.hubCycle)
    (hs : (s.dev p).mgmt.snap ≠ none) :
    let m := (s.dev p).mgmt
    s.becomes p (.snapTrigger p) { s.dev p with mgmt := { m with snapLost := m.snapLost + 1, snapAt := some s.hubCycle } } := by
  obtain ⟨n, hn⟩ := Option.ne_none_iff_exists'.1 hs
  refine becomes_of_managed rfl hp ?_
  simp only [State.snapshot, State.snapshotAt, if_neg ht, hn, modMgmt_eq]

theorem snapRead_cleared {s : State} {p : Nat} (hp : (s.dev p).mgmt.powered = true) :
    s.becomes p (.snapRead p) { s.dev p with mgmt := { (s.dev p).mgmt with snap := none } } :=
  becomes_of_managed rfl hp rfl

/-! ## Power and temperature (R381) -/

theorem setPcap_checked {s : State} {p : Nat} (watts : Nat) (hp : (s.dev p).mgmt.powered = true) :
    let m := (s.dev p).mgmt
    s.becomes p (.pldmSetPcap p watts) { s.dev p with mgmt := { m with pcap := if 1000 ≤ watts ∧ watts ≤ 3000 then watts else m.pcap } } := by
  by_cases hw : 1000 ≤ watts ∧ watts ≤ 3000
  · simp only [if_pos hw]
    exact becomes_of_managed rfl hp (if_pos hw)
  · simp only [if_neg hw]
    exact becomes_of_managed_same rfl hp (if_neg hw)

theorem setStep_eq (s : State) (p n : Nat) :
    s.setStep p n = s.setDev p { s.dev p with cycBase := s.cycles p, cycFrom := s.now, mgmt := { (s.dev p).mgmt with clockStep := n } } := by
  simp [State.setStep, modDev_eq, modMgmt_eq]

theorem exec_powerWindow (p watts : Nat) (s : State) : exec (.powerWindow p watts) s = execPowerWindow p watts s := rfl
theorem exec_thermalTrip (p celsius : Nat) (s : State) : exec (.thermalTrip p celsius) s = execThermalTrip p celsius s := rfl

theorem powerWindow_above {s : State} {p watts : Nat} (h : (s.dev p).mgmt.pcap < watts) :
    exec (.powerWindow p watts) s = .next { s.setStep p (min maxStep ((s.dev p).mgmt.clockStep + 1)) with fate := .done } := by
  refine exec_of_happen (exec_powerWindow ..) ?_
  exact if_pos h
theorem powerWindow_within {s : State} {p watts : Nat} (h : watts ≤ (s.dev p).mgmt.pcap) :
    exec (.powerWindow p watts) s =
      .next { (if (s.dev p).mgmt.hot then s else s.setStep p ((s.dev p).mgmt.clockStep - 1)) with fate := .done } := by
  refine exec_of_happen (exec_powerWindow ..) ?_
  exact if_neg (Nat.not_lt.2 h)

theorem becomes_setStep {s : State} {p n : Nat} {i : Instr} (he : exec i s = .next { s.setStep p n with fate := .done }) :
    s.becomes p i { s.dev p with cycBase := s.cycles p, cycFrom := s.now, mgmt := { (s.dev p).mgmt with clockStep := n } } :=
  becomes_of_setDev (by rw [he, setStep_eq])

theorem thermalTrip_cool {s : State} {p celsius : Nat} (h : celsius < 105) :
    s.becomes p (.thermalTrip p celsius) { s.dev p with mgmt := { (s.dev p).mgmt with hot := false } } := by
  refine becomes_of_setDev (exec_of_happen (exec_thermalTrip ..) ?_)
  exact (if_neg (by omega)).trans (if_neg (by omega))

theorem thermalTrip_hot {s : State} {p celsius : Nat} (h : 105 ≤ celsius) (h' : celsius < 115) (hl : (s.dev p).mgmt.events.length < 1024) :
    let m := (s.dev p).mgmt
    s.becomes p (.thermalTrip p celsius) { s.dev p with
      cycBase := s.cycles p, cycFrom := s.now, mgmt := { m with
        clockStep := maxStep, hot := true, events := m.events ++ [⟨s.time p, evTHERMAL, hubSource, celsius⟩] } } := by
  refine becomes_of_setDev (exec_of_happen (exec_thermalTrip ..) ?_)
  refine (if_neg (by omega)).trans ((if_pos h).trans ?_)
  rw [logEvent_eq]
  · simp [setStep_eq, modMgmt_eq, time_setDev]
  · simpa [setStep_eq, modMgmt_eq] using hl

theorem thermalTrip_dark {s : State} {p celsius : Nat} (h : 115 ≤ celsius) :
    exec (.thermalTrip p celsius) s =
      .next { ((s.resetPackage p).modMgmt p fun m => { m with trip := true, powered := false }) with fate := .done } := by
  refine exec_of_happen (exec_thermalTrip ..) ?_
  exact if_pos h

/-! ## TIME and DEVID -/

theorem timeSync_exec (s : State) (p ns : Nat) :
    exec (.ieee1588Synchronisation p ns) s = .next { s.setDev p { s.dev p with timeBase := ns, timeFrom := s.now } with fate := .done } := rfl

theorem timeSync_time {s u : State} {p ns : Nat} (h : exec (.ieee1588Synchronisation p ns) s = .next u) : u.time p = ns := by
  obtain rfl := Host.Outcome.next.inj ((timeSync_exec s p ns).symm.trans h)
  have hd := setDev_dev_same s p { s.dev p with timeBase := ns, timeFrom := s.now }
  exact (time_of_timeFrom (congrArg Device.timeFrom hd)).trans (congrArg Device.timeBase hd)

/-- Another package of the system, not dark, has the number that a domain and position make (R14). -/
def State.numberTaken (s : State) (p domain pos : Nat) : Prop :=
  ∃ q ∈ s.present, q ≠ p ∧ (s.dev q).dark = false ∧ (s.dev q).number = 64 * domain + pos

theorem exec_devidAssignment (p domain pos : Nat) (s : State) :
    exec (.devidAssignment p domain pos) s = execDevidAssignment p domain pos s := rfl

theorem devid_ignored {s : State} {p : Nat} (domain pos : Nat) (hs : p ∈ s.present)
    (h : (s.dev p).mgmt.stage ≠ 5 ∨ (s.dev p).mgmt.failed = true ∨ (s.dev p).mgmt.powered = false) :
    exec (.devidAssignment p domain pos) s = .next { s with fate := .done } := by
  refine exec_of_happen (exec_devidAssignment ..) ?_
  exact if_pos (by simpa [hs, or_assoc] using h)

/-- The package is one of the system. -/
def State.join (s : State) (p : Nat) : State := { s with present := s.present.filter (· ≠ p) ++ [p] }

theorem sameIssue_join_setDev (s : State) (p : Nat) (x : Device) : s.SameIssue ((s.join p).setDev p x) := ⟨rfl, rfl, rfl, rfl, rfl⟩

theorem becomes_of_join {s : State} {i : Instr} {p : Nat} {e : Device}
    (he : exec i s = .next { (s.join p).setDev p e with fate := .done }) : s.becomes p i e :=
  ⟨_, happens_of_exec he (sameIssue_join_setDev s p e), rfl, rfl, mget_mset_same ..⟩

/-- The check of R14 finds the number taken by another package exactly when one has it. -/
theorem numberTaken_iff {s : State} {p domain pos : Nat} (hd : domain < 64) (hp : pos < 64) :
    ((s.join p).present.any fun q => q ≠ p && !((s.join p).dev q).dark && ((s.join p).dev q).number = 64 * (domain % 64) + pos % 64) = true ↔
      s.numberTaken p domain pos := by
  simp only [Nat.mod_eq_of_lt hd, Nat.mod_eq_of_lt hp, State.numberTaken, State.join]
  simp only [List.any_eq_true, List.mem_append, List.mem_filter, List.mem_singleton, Bool.and_eq_true, decide_eq_true_eq, Bool.not_eq_true']
  constructor
  · rintro ⟨q, ⟨hq, -⟩ | rfl, ⟨hne, hdark⟩, hn⟩
    · exact ⟨q, hq, hne, hdark, hn⟩
    · exact absurd rfl hne
  · rintro ⟨q, hq, hne, hdark, hn⟩
    exact ⟨q, .inl ⟨hq, hne⟩, ⟨hne, hdark⟩, hn⟩

/-- A package that waits for its number, or joins the system. -/
def State.takesNumber (s : State) (p : Nat) : Prop :=
  p ∉ s.present ∨ ((s.dev p).mgmt.stage = 5 ∧ (s.dev p).mgmt.failed = false ∧ (s.dev p).mgmt.powered = true)

theorem not_devid_ignored {s : State} {p : Nat} (h : s.takesNumber p) :
    ¬ (s.present.contains p && ((s.dev p).mgmt.stage ≠ 5 || (s.dev p).mgmt.failed || !(s.dev p).mgmt.powered)) = true := by
  rcases h with h | ⟨h5, hf, hw⟩
  · simp [h]
  · simp [h5, hf, hw]

theorem devid_refused {s : State} {p domain pos : Nat} (hd : domain < 64) (hp : pos < 64) (h : s.takesNumber p)
    (ht : s.numberTaken p domain pos) :
    s.becomes p (.devidAssignment p domain pos) { s.dev p with dark := true, mgmt := { (s.dev p).mgmt with stage := 5 } } := by
  refine becomes_of_join (exec_of_happen (exec_devidAssignment ..) ?_)
  exact (if_neg (not_devid_ignored h)).trans (if_pos ((numberTaken_iff hd hp).2 ht))

theorem devid_given {s : State} {p domain pos : Nat} (hd : domain < 64) (hp : pos < 64) (h : s.takesNumber p)
    (ht : ¬ s.numberTaken p domain pos) :
    let d := s.dev p
    s.becomes p (.devidAssignment p domain pos) { d with
      domain := BitVec.ofNat 6 domain, pos := BitVec.ofNat 6 pos, dark := false, fabric := d.fabric.train, mgmt := { d.mgmt with stage := 6 } } := by
  refine becomes_of_join (exec_of_happen (exec_devidAssignment ..) ?_)
  exact (if_neg (not_devid_ignored h)).trans (if_neg (mt (numberTaken_iff hd hp).1 ht))

end Sys2Proof.Machine
end

section
/-! The reset of a package that holds nothing of the rest of the system, and its boot (R373, R374). -/
namespace Sys2Proof.Machine

/-! ## Reset -/

/-- No tile of package p has left its reset state, and nothing anywhere waits at a home or stands in a directory. -/
structure State.Untouched (s : State) (p : Nat) : Prop where
  tiles : ∀ e ∈ s.tiles, pkgOf e.1 ≠ p
  held : s.held = []
  dirs : s.dirs = []

/-- The system without what package p held or launched. -/
def State.withoutPackage (s : State) (p : Nat) : State :=
  { s with
    aonHolds := s.aonHolds.filter fun h => pkgOf (keyTile h.2) ≠ p
    aonWaits := s.aonWaits.filter fun h => pkgOf (keyTile h.2) ≠ p
    partitions := s.partitions.filter fun q => q.dev ≠ p }

theorem dropPackage_eq {s : State} {p : Nat} (h : s.Untouched p) : s.dropPackage p = s.withoutPackage p := by
  have here : s.tiles.filter (fun e => pkgOf e.1 = p) = [] := List.filter_eq_nil_iff.2 fun e he => by simpa using h.tiles e he
  have there : s.tiles.filter (fun e => pkgOf e.1 ≠ p) = s.tiles := List.filter_eq_self.2 fun e he => by simpa using h.tiles e he
  simp only [State.dropPackage, here, there, h.held, h.dirs, List.map_nil, List.foldl_nil, List.filter_nil]
  simp only [← h.held, ← h.dirs, State.withoutPackage]

/-- A package as its reset leaves it: what fuses and the last trip left, in stage 1. -/
def Device.afterReset (d : Device) (now : Nat) : Device :=
  { Device.reset with
    dark := true, timeFrom := now, cycFrom := now, cxlUp := false
    mgmt := { Mgmt.reset with stage := 1, svnMin := d.mgmt.svnMin, images := d.mgmt.images, sent := d.mgmt.sent, trip := d.mgmt.trip } }

theorem resetPackage_eq {s : State} {p : Nat} (h : s.Untouched p) :
    s.resetPackage p = (s.withoutPackage p).setDev p ((s.dev p).afterReset s.now) := by
  rw [State.resetPackage, dropPackage_eq h]
  rfl

theorem sameIssue_withoutPackage_setDev (s : State) (p : Nat) (x : Device) : s.SameIssue ((s.withoutPackage p).setDev p x) :=
  ⟨rfl, rfl, rfl, rfl, rfl⟩

/-- R381: a package that loses power keeps its fuses and the record of its trip. -/
theorem thermalTrip_removesPower {s : State} {p celsius : Nat} (h : 115 ≤ celsius) (hu : s.Untouched p) :
    ∃ u, s.happens u (.thermalTrip p celsius) ∧ u.mem = s.mem ∧ (u.dev p).dark = true ∧ (u.dev p).mgmt.powered = false ∧
      (u.dev p).mgmt.trip = true ∧ (u.dev p).regions = [] ∧ (u.dev p).yarrow = Yarrow.reset ∧
      u.partitions = s.partitions.filter fun q => q.dev ≠ p := by
  let r := (s.dev p).afterReset s.now
  let e : Device := { r with mgmt := { r.mgmt with trip := true, powered := false } }
  have he : exec (.thermalTrip p celsius) s = .next { (s.withoutPackage p).setDev p e with fate := .done } := by
    rw [thermalTrip_dark h, resetPackage_eq hu, modMgmt_eq, setDev_setDev, setDev_dev_same]
  have hd : (({ (s.withoutPackage p).setDev p e with fate := .done } : State).dev p) = e := setDev_dev_same ..
  refine ⟨_, happens_of_exec he (sameIssue_withoutPackage_setDev ..), rfl, ?_⟩
  rw [hd]
  exact ⟨rfl, rfl, rfl, rfl, rfl, rfl⟩

/-! ## Boot -/

/-- The image of measurement register n verifies. -/
def State.good (s : State) (p n : Nat) : Bool := s.verifies p n (s.firmwareOf p n)

/-- The image of register n is measured. -/
def State.measured (s : State) (p n : Nat) : State :=
  s.modMgmt p fun m => { m with measures := mset m.measures n (extend (romMeasure p n) (imgHash (s.firmwareOf p n))) }

theorem firmwareOf_congr {s t : State} {p : Nat} (hi : (t.dev p).mgmt.images = (s.dev p).mgmt.images) (n : Nat) :
    t.firmwareOf p n = s.firmwareOf p n := by simp only [State.firmwareOf, hi]
theorem good_congr {s t : State} {p : Nat} (hi : (t.dev p).mgmt.images = (s.dev p).mgmt.images)
    (hv : (t.dev p).mgmt.svnMin = (s.dev p).mgmt.svnMin) (n : Nat) : t.good p n = s.good p n := by
  simp only [State.good, State.verifies, firmwareOf_congr hi, hv]

theorem measured_dev (s : State) (p n : Nat) : (s.measured p n).dev p = { s.dev p with mgmt := { (s.dev p).mgmt with
    measures := mset (s.dev p).mgmt.measures n (extend (romMeasure p n) (imgHash (s.firmwareOf p n))) } } := setDev_dev_same ..
theorem measured_good (s : State) (p n k : Nat) : (s.measured p n).good p k = s.good p k := by
  apply good_congr <;> rw [measured_dev]
theorem measured_firmwareOf (s : State) (p n k : Nat) : (s.measured p n).firmwareOf p k = s.firmwareOf p k := by
  apply firmwareOf_congr; rw [measured_dev]
theorem measured_setDev (s : State) (p n : Nat) (x : Device) : (s.measured p n).setDev p x = s.setDev p x := setDev_setDev ..

theorem bootFrom_good {s : State} {p n : Nat} (ns : List Nat) (h : s.good p n = true) :
    s.bootFrom p (n :: ns) = (s.measured p n).bootFrom p ns := by
  rw [State.good] at h
  simp only [State.bootFrom, h, Bool.not_true, Bool.false_eq_true, if_false]
  rfl
theorem bootFrom_bad {s : State} {p n : Nat} (ns : List Nat) (h : s.good p n = false) :
    s.bootFrom p (n :: ns) = s.modMgmt p fun m => { m with failed := true, stage := if n = 0 then 1 else 2 } := by
  rw [State.good] at h
  simp only [State.bootFrom, h, Bool.not_false, if_true]

/-- Measurement registers after the images of ns. -/
def State.measuresOf (s : State) (p : Nat) (ns : List Nat) : Map (BitVec 256) :=
  ns.foldl (fun m n => mset m n (extend (romMeasure p n) (imgHash (s.firmwareOf p n)))) (s.dev p).mgmt.measures

theorem measured_measuresOf (s : State) (p n : Nat) (ns : List Nat) : (s.measured p n).measuresOf p ns = s.measuresOf p (n :: ns) := by
  simp only [State.measuresOf, measured_firmwareOf, measured_dev, List.foldl_cons]

/-- A boot whose images all verify comes to stage 5 and has the host link. -/
theorem bootFrom_passes {s : State} {p : Nat} {ns : List Nat} (h : ∀ n ∈ ns, s.good p n = true) :
    s.bootFrom p ns = s.setDev p { s.dev p with cxlUp := true, mgmt := { (s.dev p).mgmt with measures := s.measuresOf p ns, stage := 5 } } := by
  induction ns generalizing s with
  | nil => rfl
  | cons n ns ih =>
    obtain ⟨hn, hns⟩ := List.forall_mem_cons.1 h
    rw [bootFrom_good ns hn, ih fun k hk => (measured_good s p n k).trans (hns k hk), measured_setDev, measured_dev, measured_measuresOf]

/-- A boot fails at its first image that does not verify: stage 1 for the first image of all, stage 2 for the others. -/
theorem bootFrom_fails {s : State} {p n : Nat} {ns : List Nat} (h : ns.find? (fun k => !s.good p k) = some n) :
    ∃ ms, s.bootFrom p ns = s.setDev p { s.dev p with mgmt := { (s.dev p).mgmt with
      measures := ms, failed := true, stage := if n = 0 then 1 else 2 } } := by
  induction ns generalizing s with
  | nil => cases h
  | cons k ns ih =>
    cases hk : s.good p k with
    | true =>
      have hns : ns.find? (fun j => !(s.measured p k).good p j) = some n := by simpa [List.find?_cons, hk, measured_good] using h
      obtain ⟨ms, hms⟩ := ih hns
      exact ⟨ms, by rw [bootFrom_good ns hk, hms, measured_setDev, measured_dev]⟩
    | false =>
      obtain rfl : k = n := by simpa [List.find?_cons, hk] using h
      exact ⟨_, bootFrom_bad ns hk⟩

/-! ## Power-on reset -/

/-- The images of a boot, in its order. -/
def bootOrder : List Nat := [0, 1, 2, 3]

theorem mem_bootOrder (n : Nat) : n ∈ bootOrder ↔ n < 4 := by
  simp only [bootOrder, List.mem_cons, List.not_mem_nil, or_false]
  omega

/-- A package whose boot has ended, passed or failed. -/
def Device.booted (d : Device) (now : Nat) (measures : Map (BitVec 256)) (failed : Bool) (stage : Nat) : Device :=
  let r := d.afterReset now
  { r with cxlUp := !failed, mgmt := { r.mgmt with measures := measures, failed := failed, stage := stage } }

theorem afterReset_good (s : State) (p n : Nat) :
    ((s.withoutPackage p).setDev p ((s.dev p).afterReset s.now)).good p n = s.good p n := by
  apply good_congr <;> rw [setDev_dev_same] <;> rfl

/-- The registers of a boot that passes hold its images' measurements. -/
theorem measuresOf_bootOrder {s : State} {p n : Nat} (hm : (s.dev p).mgmt.measures = []) (hn : n < 4) (d : BitVec 256) :
    mget d (s.measuresOf p bootOrder) n = extend (romMeasure p n) (imgHash (s.firmwareOf p n)) := by
  simp only [State.measuresOf, bootOrder, hm, List.foldl_cons, List.foldl_nil]
  interval_cases n <;> simp [mget_mset]

theorem exec_powerOnReset (p : Nat) (s : State) : exec (.powerOnReset p) s = execPowerOnReset p s := rfl

theorem powerOnReset_passes {s : State} {p : Nat} (hu : s.Untouched p) (h : ∀ n < 4, s.good p n = true) :
    ∃ ms, exec (.powerOnReset p) s = .next { (s.withoutPackage p).setDev p ((s.dev p).booted s.now ms false 5) with fate := .done } ∧
      ∀ n < 4, ∀ d, mget d ms n = extend (romMeasure p n) (imgHash (s.firmwareOf p n)) := by
  let r := (s.withoutPackage p).setDev p ((s.dev p).afterReset s.now)
  have hr : r.dev p = (s.dev p).afterReset s.now := setDev_dev_same ..
  have hf (n : Nat) : r.firmwareOf p n = s.firmwareOf p n := firmwareOf_congr (by rw [hr]; rfl) n
  refine ⟨r.measuresOf p bootOrder, exec_of_happen (exec_powerOnReset ..) ?_, fun n hn d => ?_⟩
  · rw [resetPackage_eq hu]
    refine (bootFrom_passes (ns := bootOrder) fun n hn => ?_).trans ?_
    · exact (afterReset_good s p n).trans (h n ((mem_bootOrder n).1 hn))
    · rw [hr, setDev_setDev]
      rfl
  · rw [measuresOf_bootOrder (by rw [hr]; rfl) hn, hf]

theorem powerOnReset_fails {s : State} {p n : Nat} (hu : s.Untouched p) (h : bootOrder.find? (fun k => !s.good p k) = some n) :
    ∃ ms, exec (.powerOnReset p) s =
      .next { (s.withoutPackage p).setDev p ((s.dev p).booted s.now ms true (if n = 0 then 1 else 2)) with fate := .done } := by
  obtain ⟨ms, hms⟩ := bootFrom_fails (s := (s.withoutPackage p).setDev p ((s.dev p).afterReset s.now)) (p := p) (n := n) (ns := bootOrder)
    (by simpa only [afterReset_good] using h)
  refine ⟨ms, exec_of_happen (exec_powerOnReset ..) ?_⟩
  rw [resetPackage_eq hu]
  refine hms.trans ?_
  rw [setDev_setDev, setDev_dev_same]
  rfl

/-- The first image of a boot that does not verify is that of register 0 exactly when that one does not. -/
theorem find_bad {s : State} {p : Nat} (h : ∃ n < 4, s.good p n = false) :
    ∃ n, bootOrder.find? (fun k => !s.good p k) = some n ∧ (n = 0 ↔ s.good p 0 = false) := by
  obtain ⟨n, hn, hbad⟩ := h
  cases h0 : s.good p 0 with
  | false => exact ⟨0, by simp [bootOrder, h0], by simp⟩
  | true =>
    obtain ⟨k, hk⟩ := Option.isSome_iff_exists.1 (List.find?_isSome.2 ⟨n, (mem_bootOrder n).2 hn, by rw [hbad]; rfl⟩ :
      (bootOrder.find? fun k => !s.good p k).isSome = true)
    have hbad : s.good p k = false := by simpa using List.find?_some hk
    refine ⟨k, hk, fun e => ?_, fun e => nomatch e⟩
    rw [e, h0] at hbad
    exact hbad

/-- R373, R374: where a boot ends, by the images that verify. -/
theorem powerOnReset_boots {s : State} {p : Nat} (hu : s.Untouched p) :
    ∃ u, s.happens u (.powerOnReset p) ∧ u.mem = s.mem ∧
      let e := (u.dev p).mgmt
      u.dev p = (s.dev p).booted s.now e.measures e.failed e.stage ∧
      ((∀ n < 4, s.good p n = true) → e.failed = false ∧ e.stage = 5 ∧
        ∀ n < 4, u.measure p n = extend (romMeasure p n) (imgHash (s.firmwareOf p n))) ∧
      (s.good p 0 = false → e.failed = true ∧ e.stage = 1) ∧
      (s.good p 0 = true → (∃ n < 4, s.good p n = false) → e.failed = true ∧ e.stage = 2) := by
  have dev (e : Device) : (({ (s.withoutPackage p).setDev p e with fate := .done } : State).dev p) = e := setDev_dev_same ..
  by_cases h : ∃ n < 4, s.good p n = false
  · obtain ⟨n, hn, h0⟩ := find_bad h
    obtain ⟨ms, he⟩ := powerOnReset_fails hu hn
    refine ⟨_, happens_of_exec he (sameIssue_withoutPackage_setDev ..), rfl, ?_⟩
    rw [dev]
    refine ⟨rfl, fun hall => ?_, fun hbad => ⟨rfl, if_pos (h0.2 hbad)⟩, fun hgood _ => ⟨rfl, if_neg fun e => ?_⟩⟩
    · obtain ⟨k, hk, hbad⟩ := h
      exact absurd (hall k hk) (by simp [hbad])
    · exact absurd (h0.1 e) (by simp [hgood])
  · have hall : ∀ n < 4, s.good p n = true := by simpa using h
    obtain ⟨ms, he, hms⟩ := powerOnReset_passes hu hall
    refine ⟨_, happens_of_exec he (sameIssue_withoutPackage_setDev ..), rfl, ?_⟩
    simp only [State.measure, dev]
    refine ⟨rfl, fun _ => ⟨rfl, rfl, fun n hn => hms n hn _⟩, fun hbad => ?_, fun _ hbad => absurd hbad h⟩
    exact absurd (hall 0 (by decide)) (by simp [hbad])

end Sys2Proof.Machine
end

section
/-! What the management controller and the security root do (R14, R374, R376, R379 to R381). -/
namespace Sys2Proof.Machine

/-- Settles O55: each event by the lemma that says what it leaves of its package. -/
theorem managementEvents : Obligations.ManagementEvents := by
  refine ⟨fun s p offer nonce => ?_, fun s p => ⟨fun kind image burn => ⟨firmwareUpdate_refused burn, firmwareUpdate_kept burn⟩,
    fun hp => ⟨fun watts => exec_managed_off rfl hp, exec_managed_off rfl hp, exec_managed_off rfl hp, exec_managed_off rfl hp⟩,
    fun watts => setPcap_checked watts,
    fun hp => ⟨snapTrigger_merged hp, snapTrigger_latched hp, snapTrigger_dropped hp, snapRead_cleared hp⟩,
    fun e rest hp he => ⟨eventSend_oldest hp he, eventSend_lost hp⟩,
    fun watts => ⟨fun h => becomes_setStep (powerWindow_above h), fun h hot => ?_, fun h hot => ?_⟩,
    fun celsius => ⟨thermalTrip_cool, fun h h' hl => ?_, fun h ht hh hd => thermalTrip_removesPower h ⟨ht, hh, hd⟩⟩,
    fun ns => ⟨becomes_of_setDev (timeSync_exec s p ns), fun u => timeSync_time⟩,
    fun domain pos hd hp => ⟨devid_ignored domain pos, fun h => ⟨devid_refused hd hp h, devid_given hd hp h⟩⟩,
    fun ht hh hd => powerOnReset_boots ⟨ht, hh, hd⟩⟩⟩
  · exact List.forall_iff_forall_mem.1 (attestation_flows s p offer nonce)
  · exact becomes_setStep (by simpa [hot] using powerWindow_within h)
  · simpa [hot] using powerWindow_within h
  · obtain ⟨u, hu, hm, htiles, hdev⟩ := thermalTrip_hot h h' hl
    refine ⟨u, hu, hm, htiles, ?_⟩
    rw [hdev]
    exact ⟨rfl, rfl, _, rfl, rfl, rfl⟩

end Sys2Proof.Machine
end

section
/-! A fenced tile on which no context runs but whose save store holds an image (R350, R355). -/
namespace Sys2Proof.Machine

/-- The image of a partition whose control context has the unit at 8 in hand. -/
def loadedImage : Image := ⟨[(0, { Ctx.reset with upc := 8 })], Engine.reset, Tile.reset.bars, [], 1, 0, 0⟩

/-- Nothing but tile 0, as after a CTXLOAD: no context runs, and an image waits in the save store. -/
def loadedState : State := { State.reset with tiles := [(0, { Tile.reset with save := some loadedImage, loaded := true })] }

/-- The unit of a tile's fence record after an event. -/
def fencedUnit (o : Host.Outcome State Fault Refusal) (t : Nat) : Option (BitVec 49) :=
  match o with
  | .next u => (u.tile t).fenceRec.map fun r => r.unit
  | _ => none

/-- The model's fence record names the unit of the saved context: at byte 8, unit 1. -/
theorem loadedState_fencedUnit : fencedUnit (exec (.fenceRectangle 0 0x14) loadedState) 0 = some 1 := by decide +kernel

/-- Refutes O54: its first clause allows an image in the save store of a quiet tile, and takes the unit of every fence record from the context that
runs as number 0. Where none runs that is the unit of no context, 0, but the record has the unit of the image that it replaces (R355). -/
theorem not_recoveryEvents : ¬ Obligations.RecoveryEvents := by
  unfold Obligations.RecoveryEvents
  intro h
  obtain ⟨fence, -, -⟩ := h loadedState 0 0x14
  obtain ⟨⟨u, ⟨he, -⟩, -, records, -⟩, -⟩ := fence (by decide +kernel) rfl rfl
  obtain ⟨-, -, -, r, hr, -, -, hunit⟩ := records 0 (by decide)
  have saved : some r.unit = some 1 := by
    have := loadedState_fencedUnit
    rwa [he, fencedUnit, hr] at this
  have running : r.unit = 0 := hunit
  rw [running] at saved
  exact absurd saved (by decide)

end Sys2Proof.Machine
end

section
/-! The state that an outcome leaves, for counterexamples that the model evaluates. -/
namespace Sys2Proof.Machine

/-- The next state of an outcome, if it has one. -/
def nextOf (o : Host.Outcome State Fault Refusal) : Option State :=
  match o with
  | .next u => some u
  | _ => none

@[simp] theorem nextOf_next (u : State) : nextOf (.next u) = some u := rfl

end Sys2Proof.Machine
end

section
/-! A store over two pages, the second line of which waits to register at its home when that line's page is invalidated (R40, R79, R317). -/
namespace Sys2Proof.Machine

/-- Tile 1's VSTD of 128 bytes at 0xFFC0, its second line: the words of page 1 are on their way to register in package 1, under the pointer of the
whole store, which lies in page 0. -/
def crossingStore : Held where
  id := 0
  tile := 1
  pid := 0
  self := 1
  cid := 0
  unit := 0
  gl := 2 ^ 45
  words := 0xFFFF
  work := .register (spanBytes 0 64) 0
  ptr := 0xFFC0
  seq := 0
  stage := .queue
  via := none
  slot := some 0
  fill := some ⟨2 ^ 45, 512, 0, 7⟩
  mine := 0
  mineData := 0
  answer := none
  lost := false
  cause := 0

/-- That line in tile 1's array: the words are written and not yet the tile's. -/
def crossingLine : Line := ⟨512, 0, 2 ^ 45, 0xFFFF, 0xFFFF, 0xFFFF, 7, 0⟩

/-- Tile 1 has the store under way; the supervisor on tile 0 is to invalidate page 1, which s1 names, of ASID 0. -/
def crossingState : State := { State.reset with
  present := [0, 1]
  held := [crossingStore]
  heldIds := 1
  tiles := [
    (0, { Tile.reset with mode := .free, ctxs := [(0, { Ctx.reset with priv := true, sregs := (Vector.replicate 32 0).set 1 0x10000 })] }),
    (1, { Tile.reset with mode := .free, self := 1, ctxs := [(0, Ctx.reset)], lines := [crossingLine] })] }

/-- TLBINV of a page of 64 KiB, by s1 and s2. -/
def invalidatePage : CF := ⟨false, 0, 1, 2, 0⟩

/-- The request went through the page's entry, and its home has not accepted it. -/
theorem crossingState_oldRequests : crossingState.oldRequests 0 0 0x10000 false = true := by decide +kernel

/-- The eviction of the line takes the request's fill away, and TLBINV, which looks for old requests after it, finds none. -/
theorem crossingState_tlbinv_done : (nextOf (exec (.tlbinv invalidatePage) crossingState)).map State.fate = some .done := by decide +kernel

/-- Refutes O44: its clause on TLBINV has the instruction wait for every request that went through the dropped entry (R40). The model evicts the
page's lines first, and a registration of an evicted line is known by its store's pointer alone from then on: that of a store from the page before
is not waited for. -/
theorem not_systemInstructions : ¬ Obligations.SystemInstructions := by
  unfold Obligations.SystemInstructions
  intro h
  obtain ⟨-, -, -, tlbinv, -⟩ := h
  obtain ⟨-, completes⟩ := tlbinv invalidatePage crossingState rfl (by decide +kernel) (by decide +kernel)
  obtain ⟨t, he, hfate, -⟩ := completes (by decide +kernel) (by decide +kernel)
  have waits : t.fate = .waited := hfate.trans (if_pos crossingState_oldRequests)
  have done : t.fate = .done := by simpa [he] using crossingState_tlbinv_done
  rw [waits] at done
  exact absurd done (by decide)

end Sys2Proof.Machine
end

section
/-! A helper's buffered write of host memory that is committed while the host link is down (R167, R298, R367). -/
namespace Sys2Proof.Machine

/-- One byte of host memory's first line, written by a helper. -/
def hostWrite : EffLine := ⟨2 ^ 37, 0, 1, 5, 0, 0⟩

/-- Helper 1 of tile 0 has the byte in its effect buffer and its word tentative at the home; the host window is enabled, and its link is down. -/
def unlinkedState : State := { State.reset with
  dirs := [(2 ^ 37, { Dir.reset with tentative := [⟨0, 1, 1⟩] })]
  devices := [(0, { Device.reset with featAck := 0x40, cxlUp := false })]
  tiles := [(0, { Tile.reset with mode := .free, ctxs := [(0, Ctx.reset), (1, { Ctx.reset with effects := [hostWrite] })] })] }

/-- A commit does not wait for a home that is out of reach. -/
theorem unlinkedState_commitReady : unlinkedState.commitReady 0 1 = true := by decide +kernel

/-- The line is lost, and memory stays as it was. -/
theorem unlinkedState_commit_mem : (nextOf (exec (.tentativeCommit 0 1) unlinkedState)).map State.mem = some [] := by decide +kernel

/-- Refutes O48: its clause on a commit asks for the helper's bytes in memory whenever the commit may go, but a commit may go also when the line's
home is out of reach, and then the words are lost (R167) and memory keeps the older bytes. -/
theorem not_hostEvents : ¬ Obligations.HostEvents := by
  unfold Obligations.HostEvents
  intro h
  obtain ⟨-, -, -, -, -, tentative, -⟩ := h
  obtain ⟨ends, -⟩ := tentative unlinkedState 0 1 hostWrite rfl rfl (by decide +kernel) (by decide +kernel)
  obtain ⟨commit, -⟩ := ends (by decide +kernel)
  obtain ⟨u, ⟨he, -⟩, hmem, -⟩ := commit unlinkedState_commitReady
  have kept : u.mem = [] := by simpa [he] using unlinkedState_commit_mem
  rw [hmem] at kept
  exact absurd kept (by decide +kernel)

end Sys2Proof.Machine
end

section
/-! The values of the e2m1 codes and of the e3m5 block scales (R51, R53). -/
namespace Sys2Proof.Machine

/-- An e2m1 code: bit 3 is the sign, bits 2 and 1 the exponent (0: subnormal), bit 0 the fraction. -/
theorem e2m1_decode : ∀ c < 16, e2m1.decode c =
    if c % 8 < 2 then .fin (decide (8 ≤ c)) (c % 2) (-1) else .fin (decide (8 ≤ c)) (2 + c % 2) ((c % 8 / 2 : Nat) - 2) := by decide

/-- The magnitudes that R51 lists. -/
def e2m1Magnitudes : List ℚ := [0, 1 / 2, 1, 3 / 2, 2, 3, 4, 6]

theorem e2m1_magnitude (c : Nat) (h : c < 8) :
    (if c < 2 then ((c % 2 : Nat) : ℚ) * 2 ^ (-1 : ℤ) else ((2 + c % 2 : Nat) : ℚ) * 2 ^ (((c / 2 : Nat) : ℤ) - 2)) = e2m1Magnitudes.getD c 0 := by
  interval_cases c <;> norm_num [e2m1Magnitudes]

theorem e2m1_value {c : Nat} (h : c < 16) :
    ∃ m e, e2m1.decode c = .fin (decide (8 ≤ c)) m e ∧ (m : ℚ) * 2 ^ (e : ℤ) = e2m1Magnitudes.getD (c % 8) 0 := by
  rw [e2m1_decode c h, ← e2m1_magnitude (c % 8) (Nat.mod_lt _ (by decide)), Nat.mod_mod_of_dvd c (by decide : 2 ∣ 8)]
  split
  · exact ⟨_, _, rfl, rfl⟩
  · exact ⟨_, _, rfl, rfl⟩

/-- The one NaN of the block scales is the code of all ones. -/
theorem scaleVal_nan {c : Nat} (hx : c / 32 = 7 ∧ c % 32 = 31) : scaleVal c = .nan := by
  rw [show c = 255 by omega]
  rfl

theorem scaleVal_subnormal {c : Nat} (hx : c / 32 = 0) : scaleVal c = .fin false (c % 32) (-7) := by
  simp [scaleVal, show c % 256 = c by omega, hx, show c ≠ 255 by omega]

theorem scaleVal_normal {c : Nat} (h : c < 256) (hn : ¬ (c / 32 = 7 ∧ c % 32 = 31)) (hx : c / 32 ≠ 0) :
    scaleVal c = .fin false (32 + c % 32) (((c / 32 : Nat) : ℤ) - 8) := by
  simp only [scaleVal, show c % 256 = c by omega, hx, show c ≠ 255 by omega, if_false]

/-- R53: the value of a block scale that is no NaN. -/
theorem scaleVal_value {c : Nat} (h : c < 256) (hn : ¬ (c / 32 = 7 ∧ c % 32 = 31)) :
    ∃ m e, scaleVal c = .fin false m e ∧ (m : ℚ) * 2 ^ (e : ℤ) =
      if c / 32 = 0 then 2 ^ (-2 : ℤ) * (((c % 32 : Nat) : ℚ) / 32) else 2 ^ (((c / 32 : Nat) : ℤ) - 3) * (1 + ((c % 32 : Nat) : ℚ) / 32) := by
  by_cases hx : c / 32 = 0
  · refine ⟨_, _, scaleVal_subnormal hx, ?_⟩
    rw [if_pos hx]
    norm_num
    ring
  · refine ⟨_, _, scaleVal_normal h hn hx, ?_⟩
    have shift : (2 : ℚ) ^ (((c / 32 : Nat) : ℤ) - 3) = 2 ^ (((c / 32 : Nat) : ℤ) - 8) * 32 := by
      rw [show ((c / 32 : Nat) : ℤ) - 3 = ((c / 32 : Nat) : ℤ) - 8 + 5 by ring, zpow_add₀ two_ne_zero]
      norm_num
    rw [if_neg hx, shift, Nat.cast_add]
    ring

/-- Settles O1, format by format. -/
theorem elementCodes : Obligations.ElementCodes := by
  refine ⟨fun c h => e2m1_value h, fun c h => ?_⟩
  by_cases hn : c / 32 = 7 ∧ c % 32 = 31
  · simpa only [if_pos hn] using scaleVal_nan hn
  · simpa only [if_neg hn] using scaleVal_value h hn

end Sys2Proof.Machine
end

section
/-! Numbers as digits of w bits: packed lists, vector elements, spread masks. -/
namespace Sys2Proof.Machine

/-! ## Digits -/

/-- A digit does not see what lies above it. -/
theorem digit_mod {w i n : Nat} (h : w * i + w ≤ n) (x : Nat) : x % 2 ^ n / 2 ^ (w * i) % 2 ^ w = x / 2 ^ (w * i) % 2 ^ w := by
  refine Nat.eq_of_testBit_eq fun j => ?_
  simp only [Nat.testBit_mod_two_pow, Nat.testBit_div_two_pow]
  by_cases hj : j < w
  · simp [hj, show j + w * i < n by omega]
  · simp [hj]

/-- Nor does one that a word of n bits has room for. -/
theorem ofNat_digit {w i n : Nat} (h : w * i + w ≤ n) (x : Nat) :
    (BitVec.ofNat n x).toNat / 2 ^ (w * i) % 2 ^ w = x / 2 ^ (w * i) % 2 ^ w := by
  rw [BitVec.toNat_ofNat, digit_mod h]

theorem packNat_lt (w : Nat) (l : List Nat) : packNat w l < 2 ^ (w * l.length) := by
  induction l with
  | nil => simp [packNat]
  | cons x xs ih =>
    rw [packNat, List.length_cons, Nat.mul_succ, Nat.add_comm, Nat.pow_add, Nat.mul_comm (2 ^ (w * _))]
    calc 2 ^ w * packNat w xs + x % 2 ^ w < 2 ^ w * packNat w xs + 2 ^ w := Nat.add_lt_add_left (Nat.mod_lt _ (by positivity)) _
      _ = 2 ^ w * (packNat w xs + 1) := rfl
      _ ≤ 2 ^ w * 2 ^ (w * xs.length) := Nat.mul_le_mul_left _ ih

/-- Digit i of a packed list is its element i, cut to the width. -/
theorem packNat_digit (w : Nat) (l : List Nat) (i : Nat) : packNat w l / 2 ^ (w * i) % 2 ^ w = l.getD i 0 % 2 ^ w := by
  induction l generalizing i with
  | nil => simp [packNat]
  | cons x xs ih =>
    cases i with
    | zero => simp [packNat]
    | succ i =>
      have head : (x % 2 ^ w + 2 ^ w * packNat w xs) / 2 ^ w = packNat w xs := by
        rw [Nat.add_mul_div_left _ _ (by positivity), Nat.div_eq_of_lt (Nat.mod_lt _ (by positivity)), Nat.zero_add]
      rw [packNat, Nat.mul_succ, Nat.add_comm (w * i), Nat.pow_add, ← Nat.div_div_eq_div_mul, head, ih]
      rfl

theorem packNat_append (w : Nat) (l l' : List Nat) : packNat w (l ++ l') = packNat w l + 2 ^ (w * l.length) * packNat w l' := by
  induction l with
  | nil => simp [packNat]
  | cons x xs ih =>
    rw [List.cons_append, packNat, ih, packNat, List.length_cons, Nat.mul_succ, Nat.pow_add]
    ring

theorem getD_map_range {α : Type} (g : Nat → α) (d : α) {n i : Nat} (h : i < n) : ((List.range n).map g).getD i d = g i := by
  simp [List.getD_eq_getElem?_getD, h]

/-- A number is its digits packed. -/
theorem packNat_digits (w n v : Nat) : packNat w ((List.range n).map fun i => v / 2 ^ (w * i)) = v % 2 ^ (w * n) := by
  induction n with
  | zero => simp [packNat, Nat.mod_one]
  | succ n ih =>
    rw [List.range_succ, List.map_append, packNat_append, ih, List.length_map, List.length_range, List.map_singleton, packNat, packNat,
      Nat.mul_zero, Nat.add_zero, Nat.mul_succ, Nat.pow_add, Nat.mod_mul]

/-! ## Elements of a vector -/

theorem el_lt (w : Nat) (x : Vec) (i : Nat) : el w x i < 2 ^ w := Nat.mod_lt _ (by positivity)
@[simp] theorem el_mod (w : Nat) (x : Vec) (i : Nat) : el w x i % 2 ^ w = el w x i := Nat.mod_mod _ _

theorem elems_eq (w : Nat) (x : Vec) : elems w x = (List.range (2048 / w)).map (el w x) := rfl

/-- Element i of a packed list of results. -/
theorem el_pack {w i : Nat} (h : i < 2048 / w) (l : List Nat) : el w (pack w l) i = l.getD i 0 % 2 ^ w := by
  have fits : w * i + w ≤ 2048 :=
    calc w * (i + 1) ≤ w * (2048 / w) := Nat.mul_le_mul_left _ h
      _ ≤ 2048 := Nat.mul_div_le _ _
  rw [el, pack, ofNat_digit fits, packNat_digit]

theorem el_pack_map {w i : Nat} (h : i < 2048 / w) (g : Nat → Nat) :
    el w (pack w ((List.range (2048 / w)).map g)) i = g i % 2 ^ w := by
  rw [el_pack h, getD_map_range g 0 h]

theorem zip_map_range {α : Type} (g : Nat → α) (n : Nat) :
    ((List.range n).map g).zip (List.range n) = (List.range n).map fun i => (g i, i) := by
  rw [List.zip_map_left, List.zip_eq_zipWith, List.zipWith_self, List.map_map]
  rfl

theorem zipWith_map_range {α β γ : Type} (op : α → β → γ) (g : Nat → α) (h : Nat → β) (n : Nat) :
    List.zipWith op ((List.range n).map g) ((List.range n).map h) = (List.range n).map fun i => op (g i) (h i) := by
  rw [List.zipWith_map, List.zipWith_self]

theorem masked_eq (w : Nat) (m : Word) (ident : Nat) (x : Vec) :
    masked w m ident x = (List.range (2048 / w)).map fun i => if activeBit w m i then el w x i else ident := by
  rw [masked, elems_eq, zip_map_range, List.map_map]
  rfl

/-! ## Spread masks -/

/-- Bit i of a spread mask is the mask's bit for it. -/
theorem spread_testBit {k : Nat} (hk : 0 < k) (n : Nat) (x : BitVec n) (i : Nat) :
    (spread k n x).testBit i = x.getLsbD (i / k) := by
  induction n generalizing i with
  | zero => simp [spread]
  | succ n ih =>
    have low : (if x.getLsbD 0 then 2 ^ k - 1 else 0) < 2 ^ k := by
      have := Nat.two_pow_pos k
      split <;> omega
    rw [spread, Nat.add_comm, Nat.testBit_two_pow_mul_add _ low]
    by_cases hi : i < k
    · rw [if_pos hi, Nat.div_eq_of_lt hi]
      cases x.getLsbD 0 <;> simp [hi]
    · have : i / k = 1 + (i - k) / k := by
        rw [Nat.div_eq_sub_div hk (by omega), Nat.add_comm]
      rw [if_neg hi, ih, this, BitVec.getLsbD_extractLsb']
      by_cases hn : (i - k) / k < n
      · simp [hn]
      · simp only [hn, decide_false, Bool.false_and]
        exact (BitVec.getLsbD_of_ge _ _ (by omega)).symm

theorem blend_getLsbD {n : Nat} (sel old new : BitVec n) (i : Nat) :
    (blend sel old new).getLsbD i = if sel.getLsbD i then new.getLsbD i else old.getLsbD i := by
  rw [blend]
  by_cases hi : i < n
  · simp only [BitVec.getLsbD_or, BitVec.getLsbD_and, BitVec.getLsbD_not, hi, decide_true, Bool.true_and]
    cases sel.getLsbD i <;> simp
  · simp [BitVec.getLsbD_of_ge _ _ (Nat.le_of_not_lt hi)]

end Sys2Proof.Machine
end

section
/-! What an A-word reads and writes when its operands can be read (R132, R138, R141 to R144, R201, R202, R247, R249). -/
namespace Sys2Proof.Machine

/-! ## Sources taken -/

theorem vectorCalm_iff (s : State) : s.vectorCalm = true ↔
    s.ctx.queuesCalm = true ∧ ((s.tile s.cur).pips.all fun e => e.2.st ≠ .landed) = true ∧ s.ctx.vregs.length = 8 * s.ctx.banks := by
  simp [State.vectorCalm, and_assoc]

theorem canSource_iff (s : State) (c : BitVec 6) : s.canSource c = true ↔
    s.ctx.rangeBad c = false ∧ (s.ctx.trust = true ∨ s.ctx.readyAt c ≤ s.now) ∧
      (isMb c = true → (s.ctx.mbs.getD (c.toNat - 48) Mailbox.reset).full = true ∧ (s.ctx.mbs.getD (c.toNat - 48) Mailbox.reset).ready ≤ s.now) ∧
      (isPop c = true → ((s.ctx.dqs.getD (c.toNat - 59) []).head?.any fun e => e.filled) = true) := by
  simp only [State.canSource, Bool.and_eq_true, Bool.or_eq_true, Bool.not_eq_true', decide_eq_true_eq, and_assoc]
  cases isMb c <;> cases isPop c <;> simp

theorem canVector_iff (s : State) (f : AW) (two : Bool) : s.canVector f two = true ↔
    s.vectorCalm = true ∧ s.canSource f.a = true ∧ (two = true → readOnce f = false → (s.firstTaken f).canSource f.b = true) ∧
      s.ctx.rangeBad f.d = false ∧ s.canMask f.k.toNat = true := by
  simp only [State.canVector, Bool.and_eq_true, Bool.or_eq_true, Bool.not_eq_true', and_assoc]
  cases two <;> cases readOnce f <;> simp

/-- Reading a source changes the mailboxes and the data queues alone. -/
theorem sourceTaken_eq (k : Ctx) (c : BitVec 6) : k.sourceTaken c = { k with mbs := (k.sourceTaken c).mbs, dqs := (k.sourceTaken c).dqs } := by
  unfold Ctx.sourceTaken
  split
  · rfl
  · split <;> rfl

@[simp] theorem sourceTaken_rangeBad (k : Ctx) (c d : BitVec 6) : (k.sourceTaken c).rangeBad d = k.rangeBad d := by
  rw [sourceTaken_eq]; rfl
@[simp] theorem sourceTaken_readyAt (k : Ctx) (c d : BitVec 6) : (k.sourceTaken c).readyAt d = k.readyAt d := by
  rw [sourceTaken_eq]; rfl
@[simp] theorem sourceTaken_trust (k : Ctx) (c : BitVec 6) : (k.sourceTaken c).trust = k.trust := by rw [sourceTaken_eq]
@[simp] theorem sourceTaken_frm (k : Ctx) (c : BitVec 6) : (k.sourceTaken c).frm = k.frm := by rw [sourceTaken_eq]
@[simp] theorem sourceTaken_vregs (k : Ctx) (c : BitVec 6) : (k.sourceTaken c).vregs = k.vregs := by rw [sourceTaken_eq]
@[simp] theorem sourceTaken_banks (k : Ctx) (c : BitVec 6) : (k.sourceTaken c).banks = k.banks := by rw [sourceTaken_eq]

theorem isMb_iff (c : BitVec 6) : isMb c = true ↔ 48 ≤ c.toNat ∧ c.toNat < 56 := by simp [isMb]
theorem isPop_iff (c : BitVec 6) : isPop c = true ↔ 59 ≤ c.toNat ∧ c.toNat < 63 := by simp [isPop]
theorem isV_iff (c : BitVec 6) : isV c = true ↔ 16 ≤ c.toNat ∧ c.toNat < 48 := by simp [isV]

/-- A mailbox other than the one that was read is as it was. -/
theorem sourceTaken_mbs {c b : BitVec 6} (k : Ctx) (hb : isMb b = true) (h : isMb c = true → c ≠ b) :
    (k.sourceTaken c).mbs.getD (b.toNat - 48) Mailbox.reset = k.mbs.getD (b.toNat - 48) Mailbox.reset := by
  unfold Ctx.sourceTaken
  split
  case isTrue hc =>
    have ne : c.toNat ≠ b.toNat := fun e => h hc (BitVec.eq_of_toNat_eq e)
    rw [isMb_iff] at hb hc
    rw [getD_setIfInBounds _ _ _ _ _ (by omega), if_neg (by omega)]
  case isFalse => split <;> rfl

/-- A pop takes the oldest entry of its queue; no other read changes a queue. -/
theorem sourceTaken_dqs {d : Nat} (k : Ctx) (c : BitVec 6) (hd : d < 4) :
    (k.sourceTaken c).dqs.getD d [] = if c.toNat = 59 + d then (k.dqs.getD d []).tail else k.dqs.getD d [] := by
  unfold Ctx.sourceTaken
  split
  case isTrue hc =>
    rw [isMb_iff] at hc
    rw [if_neg (by omega)]
  case isFalse =>
    split
    case isTrue hc =>
      rw [isPop_iff] at hc
      rw [getD_setIfInBounds _ _ _ _ _ (by omega)]
      by_cases e : c.toNat = 59 + d
      · rw [if_pos e, if_pos (by omega), show c.toNat - 59 = d by omega]
      · rw [if_neg e, if_neg (by omega)]
    case isFalse hc =>
      rw [isPop_iff] at hc
      rw [if_neg (by omega)]

@[simp] theorem setCtx_source (s : State) (t : BitVec 3) (c : BitVec 6) : (s.setCtx s.ctx).source t c = s.source t c := by
  simp only [State.source, setCtx_ctx, setCtx_now]

/-! ## Waiting for sources -/

theorem queuesCalm_entry {k : Ctx} (h : k.queuesCalm = true) {q : List DqEntry} (hq : q ∈ k.dqs) {e : DqEntry} (he : e ∈ q) :
    e.awaits = [] ∧ decOf e.dec = none := by
  simp only [Ctx.queuesCalm, List.all_eq_true, Vector.mem_toList_iff, Bool.and_eq_true, List.isEmpty_iff, decide_eq_true_eq] at h
  exact h q hq e he

theorem convert_plain {e : DqEntry} (h : decOf e.dec = none) : e.convert = e := by
  simp [DqEntry.convert, h]

/-- With no bytes awaited the data queues stay as they are. -/
theorem fillQueues_calm {s : State} (h : s.ctx.queuesCalm = true) : s.fillQueues = s.setCtx s.ctx := by
  have none_awaited : s.ctx.dqs.toList.flatten.flatMap (fun e => e.awaits) = [] := by
    simp only [List.flatMap_eq_nil_iff, List.mem_flatten, Vector.mem_toList_iff]
    rintro e ⟨q, hq, he⟩
    exact (queuesCalm_entry h hq he).1
  have none_lost : s.ctx.dqs.toList.flatten.flatMap (fun e => e.awaits.map fun a => (a.req, e.seq)) = [] := by
    simp only [List.flatMap_eq_nil_iff, List.mem_flatten, Vector.mem_toList_iff, List.map_eq_nil_iff]
    rintro e ⟨q, hq, he⟩
    exact (queuesCalm_entry h hq he).1
  have same : (s.ctx.dqs.map fun q => q.map fun e => DqEntry.convert
      { e with val := BitVec.ofNat 2048 (settle s.held e.awaits e.val.toNat).1, awaits := (settle s.held e.awaits e.val.toNat).2.1 }) = s.ctx.dqs := by
    refine Vector.ext fun i hi => ?_
    rw [Vector.getElem_map]
    refine (List.map_congr_left fun e he => ?_).trans (List.map_id _)
    obtain ⟨ha, hd⟩ := queuesCalm_entry h (Vector.getElem_mem hi) he
    simp only [ha, settle, BitVec.ofNat_toNat, BitVec.setWidth_eq]
    rw [← ha]
    exact convert_plain hd
  simp only [State.fillQueues, none_awaited, none_lost, List.filterMap_nil, List.append_nil, List.foldl_nil]
  exact congrArg s.setCtx (by rw [same])

/-- With no bytes awaited an entry is ready when it is filled. -/
theorem popReady_calm {k : Ctx} (h : k.queuesCalm = true) {d : Nat} (hd : d < 4) (i : Nat) :
    k.popReady d i = (k.dqs.getD d [])[i]?.any fun e => e.filled := by
  unfold Ctx.popReady
  cases he : (k.dqs.getD d [])[i]? with
  | none => rfl
  | some e =>
    have hq : k.dqs.getD d [] ∈ k.dqs := by
      rw [show k.dqs.getD d [] = k.dqs[d] by simp [Vector.getD, hd]]
      exact Vector.getElem_mem hd
    simp [(queuesCalm_entry h hq (List.mem_of_getElem? he)).1]

/-- Codes whose values can be read one after another now. -/
structure State.Sources (s : State) (cs : List (BitVec 6)) : Prop where
  ranges : ∀ c ∈ cs, s.ctx.rangeBad c = false
  ready : ∀ c ∈ cs, s.ctx.trust = true ∨ s.ctx.readyAt c ≤ s.now
  boxes : ∀ c ∈ cs, isMb c = true →
    (s.ctx.mbs.getD (c.toNat - 48) Mailbox.reset).full = true ∧ (s.ctx.mbs.getD (c.toNat - 48) Mailbox.reset).ready ≤ s.now
  pops : s.ctx.popsReady cs = true

theorem popReady_first {s : State} (h : s.ctx.queuesCalm = true) {a : BitVec 6} (ha : s.canSource a = true) {d : Nat} (hd : d < 4)
    (e : a.toNat = 59 + d) : s.ctx.popReady d 0 = true := by
  obtain ⟨-, -, -, hpop⟩ := (canSource_iff s a).1 ha
  rw [popReady_calm h hd, ← List.head?_eq_getElem?, show d = a.toNat - 59 by omega]
  exact hpop ((isPop_iff a).2 (by omega))

/-- The second source, read after the first. -/
theorem popReady_second {s : State} (h : s.ctx.queuesCalm = true) {f : AW} (hb : (s.firstTaken f).canSource f.b = true) {d : Nat} (hd : d < 4)
    (e : f.b.toNat = 59 + d) : s.ctx.popReady d (if f.a.toNat = 59 + d then 1 else 0) = true := by
  obtain ⟨-, -, -, hpop⟩ := (canSource_iff _ f.b).1 hb
  have := hpop ((isPop_iff f.b).2 (by omega))
  rw [State.firstTaken, setCtx_ctx, show f.b.toNat - 59 = d by omega, sourceTaken_dqs _ _ hd, List.head?_eq_getElem?] at this
  rw [popReady_calm h hd]
  split
  case isTrue ea => rwa [if_pos ea, List.getElem?_tail] at this
  case isFalse ea => rwa [if_neg ea] at this

theorem popsReady_iff (k : Ctx) (cs : List (BitVec 6)) : k.popsReady cs = true ↔
    ∀ d < 4, ∀ i < (cs.filter fun c => c.toNat = 59 + d).length, k.popReady d i = true := by
  simp [Ctx.popsReady]

theorem sources_one {s : State} (h : s.ctx.queuesCalm = true) {a : BitVec 6} (ha : s.canSource a = true) : s.Sources [a] := by
  obtain ⟨hrange, hready, hbox, -⟩ := (canSource_iff s a).1 ha
  refine ⟨by simpa using hrange, by simpa using hready, by simpa using hbox, (popsReady_iff _ _).2 fun d hd i hi => ?_⟩
  by_cases e : a.toNat = 59 + d
  · obtain rfl : i = 0 := by simpa [e] using hi
    exact popReady_first h ha hd e
  · simp [e] at hi

theorem sources_two {s : State} (h : s.ctx.queuesCalm = true) {f : AW} (ha : s.canSource f.a = true)
    (hb : (s.firstTaken f).canSource f.b = true) (hf : readOnce f = false) : s.Sources [f.a, f.b] := by
  obtain ⟨hrange, hready, hbox, -⟩ := (canSource_iff s f.a).1 ha
  obtain ⟨hrange', hready', hbox', -⟩ := (canSource_iff _ f.b).1 hb
  simp only [State.firstTaken, setCtx_ctx, setCtx_now, sourceTaken_rangeBad, sourceTaken_readyAt, sourceTaken_trust] at hrange' hready' hbox'
  refine ⟨by simp [hrange, hrange'], by simp [hready, hready'], ?_, (popsReady_iff _ _).2 fun d hd i hi => ?_⟩
  · simp only [List.mem_cons, List.not_mem_nil, or_false, forall_eq_or_imp, forall_eq]
    refine ⟨hbox, fun hm => ?_⟩
    rw [readOnce, Bool.and_eq_false_imp] at hf
    rw [← sourceTaken_mbs s.ctx hm fun hma => of_decide_eq_false (hf hma)]
    exact hbox' hm
  · by_cases ea : f.a.toNat = 59 + d
    · by_cases eb : f.b.toNat = 59 + d
      · have : i = 0 ∨ i = 1 := by simp [ea, eb] at hi; omega
        rcases this with rfl | rfl
        · exact popReady_first h ha hd ea
        · simpa only [if_pos ea] using popReady_second h hb hd eb
      · obtain rfl : i = 0 := by simpa [ea, eb] using hi
        exact popReady_first h ha hd ea
    · by_cases eb : f.b.toNat = 59 + d
      · obtain rfl : i = 0 := by simpa [ea, eb] using hi
        simpa only [if_neg ea] using popReady_second h hb hd eb
      · simp [ea, eb] at hi

/-- The codes that an A-word waits for. -/
def sourcesOf (f : AW) (two : Bool) : List (BitVec 6) := if two && !readOnce f then [f.a, f.b] else [f.a]

theorem sources_of_canVector {s : State} {f : AW} {two : Bool} (h : s.canVector f two = true) : s.Sources (sourcesOf f two) := by
  obtain ⟨hcalm, ha, hb, -⟩ := (canVector_iff s f two).1 h
  obtain ⟨hq, -⟩ := (vectorCalm_iff s).1 hcalm
  unfold sourcesOf
  split
  case isTrue hx =>
    simp only [Bool.and_eq_true, Bool.not_eq_true'] at hx
    exact sources_two hq ha (hb hx.1 hx.2) hx.2
  case isFalse => exact sources_one hq ha

theorem mailboxReady_le {s : State} {cs : List (BitVec 6)} (h : s.Sources cs) : s.ctx.mailboxReady cs ≤ s.now := by
  have step : ∀ (l : List (BitVec 6)) (n : Nat), (∀ c ∈ l, c ∈ cs) → n ≤ s.now →
      l.foldl (fun n c => if isMb c then max n (s.ctx.mbs.getD (c.toNat - 48) Mailbox.reset).ready else n) n ≤ s.now := by
    intro l
    induction l with
    | nil => exact fun n _ hn => hn
    | cons c l ih =>
      intro n hl hn
      refine ih _ (fun c hc => hl c (.tail _ hc)) ?_
      dsimp only
      split
      case isTrue hc => exact Nat.max_le.2 ⟨hn, (h.boxes c (hl c (.head _)) hc).2⟩
      case isFalse => exact hn
  exact step cs 0 (fun _ hc => hc) (Nat.zero_le _)

theorem issueAt_past {s : State} {n : Nat} (h : n ≤ s.now) : s.issueAt n = s := by
  rw [State.issueAt, Nat.max_eq_left h]

/-- Sources that can be read are waited for in no time. -/
theorem awaitSources_run {s : State} {cs : List (BitVec 6)} (hq : s.ctx.queuesCalm = true) (h : s.Sources cs) :
    awaitSources cs s = .ok ((), s.setCtx s.ctx) := by
  have full : (cs.find? fun c => isMb c && !(s.ctx.mbs.getD (c.toNat - 48) Mailbox.reset).full) = none := by
    rw [List.find?_eq_none]
    intro c hc hx
    rw [Bool.and_eq_true] at hx
    rw [(h.boxes c hc hx.1).1] at hx
    exact absurd hx.2 (by decide)
  have late : (s.setCtx s.ctx).issueAt (s.ctx.mailboxReady cs) = s.setCtx s.ctx := issueAt_past (mailboxReady_le h)
  simp only [awaitSources, bind_run, upd_run, fillQueues_calm hq, getC_run, setCtx_ctx, h.pops, full, Bool.not_true,
    Bool.false_eq_true, if_false, late]

theorem inRange_run {s : State} {cs : List (BitVec 6)} (h : ∀ c ∈ cs, s.ctx.rangeBad c = false) : inRange cs s = .ok ((), s) := by
  have none_bad : cs.find? s.ctx.rangeBad = none := by
    rw [List.find?_eq_none]
    intro c hc
    rw [h c hc]
    exact Bool.false_ne_true
  simp only [inRange, bind_run, getC_run, none_bad, pure_run]

theorem checkReady_run {s : State} (field : Nat) {c : BitVec 6} (h : s.ctx.trust = true ∨ s.ctx.readyAt c ≤ s.now) :
    checkReady field c s = .ok ((), s) := by
  have : (s.ctx.trust || decide (s.ctx.readyAt c ≤ s.now)) = true := by simpa using h
  simp only [checkReady, bind_run, get_run, this, need_true]

theorem checkMask_run {s : State} (field : Nat) {n : Nat} (h : s.canMask n = true) : checkMask field n s = .ok ((), s) := by
  simp only [State.canMask] at h
  simp only [checkMask, bind_run, get_run, h, need_true]

/-! ## Reading sources -/

/-- With no landed pip nothing enters a mailbox that is emptied. -/
theorem pipTurn_calm {s : State} {t : Nat} (h : ((s.tile t).pips.all fun e => e.2.st ≠ .landed) = true) (c mb : Nat) : s.pipTurn t c mb = s := by
  have none_waits : ((s.tile t).pips.filter fun e => e.2.fills (s.tile t).pid (s.tile t).self c mb) = [] := by
    rw [List.filter_eq_nil_iff]
    intro e he
    have := List.all_eq_true.1 h e he
    simp only [decide_eq_true_eq] at this
    simp [Pip.fills, this]
  simp [State.pipTurn, State.pipFrom, none_waits]

@[simp] theorem setCtx_pips (s : State) (k : Ctx) (t : Nat) : ((s.setCtx k).tile t).pips = (s.tile t).pips := by
  rw [State.setCtx, State.setCtxAt, modTile_tile]
  split
  case isTrue e => rw [e]; rfl
  case isFalse => rfl

/-- Reading a source gives its value and takes it from its mailbox or queue. -/
theorem readSrc_run {s : State} (hp : ((s.tile s.cur).pips.all fun e => e.2.st ≠ .landed) = true) (t : BitVec 3) {c : BitVec 6} {k : Ctx}
    (h : (s.setCtx k).canSource c = true) :
    readSrc t c (s.setCtx k) = .ok ((s.setCtx k).source t c, s.setCtx (k.sourceTaken c)) := by
  obtain ⟨-, -, -, hpop⟩ := (canSource_iff _ c).1 h
  rw [setCtx_ctx] at hpop
  unfold readSrc State.source Ctx.sourceTaken
  simp only [bind_run, get_run, setCtx_ctx, setCtx_now]
  by_cases h16 : c.toNat < 16
  · rw [if_pos h16, if_pos h16, if_neg (mt (isMb_iff c).1 (by omega)), if_neg (mt (isPop_iff c).1 (by omega))]
    rfl
  rw [if_neg h16, if_neg h16]
  by_cases h48 : c.toNat < 48
  · rw [if_pos h48, if_pos h48, if_neg (mt (isMb_iff c).1 (by omega)), if_neg (mt (isPop_iff c).1 (by omega))]
    rfl
  rw [if_neg h48, if_neg h48]
  by_cases h56 : c.toNat < 56
  · rw [if_pos h56, if_pos h56, if_pos ((isMb_iff c).2 (by omega))]
    simp only [bind_run, emptyMailbox, modC_run, upd_run, setCtx_ctx, setCtx_setCtx, pure_run, setCtx_cur, setCtx_cid]
    rw [pipTurn_calm (by rw [setCtx_pips]; exact hp)]
  rw [if_neg h56, if_neg h56, if_neg (mt (isMb_iff c).1 (by omega))]
  by_cases h59 : c.toNat < 59
  · rw [if_pos h59, if_pos h59, if_neg (mt (isPop_iff c).1 (by omega))]
    rfl
  rw [if_neg h59, if_neg h59]
  cases hq : k.dqs.getD (c.toNat - 59) [] with
  | nil =>
    have : isPop c = false := by
      cases hc : isPop c with
      | false => rfl
      | true => simp [hq] at hpop; exact absurd hc (by simp [hpop])
    rw [this]
    rfl
  | cons e rest =>
    have : isPop c = true := by
      rw [isPop_iff]
      refine ⟨by omega, ?_⟩
      by_contra hc
      simp [Vector.getD, show ¬ c.toNat - 59 < 4 by omega] at hq
    rw [if_pos this]
    simp only [bind_run, modC_run, setCtx_ctx, setCtx_setCtx, pure_run]
    rfl

end Sys2Proof.Machine
end

section
/-! What an A-word reads and writes when its operands can be read: whole words (R129, R202, R247, R249). -/
namespace Sys2Proof.Machine

theorem sourcesOf_eq (f : AW) (two : Bool) : sourcesOf f two =
    if (two && isMb f.a && decide (f.a = f.b)) = true then [f.a] else if two = true then [f.a, f.b] else [f.a] := by
  unfold sourcesOf readOnce
  cases two <;> cases isMb f.a <;> cases decide (f.a = f.b) <;> rfl

@[simp] theorem setCtx_canSource (s : State) (c : BitVec 6) : (s.setCtx s.ctx).canSource c = s.canSource c := by
  simp only [State.canSource, setCtx_ctx, setCtx_now]
@[simp] theorem setCtx_canMask (s : State) (n : Nat) : (s.setCtx s.ctx).canMask n = s.canMask n := by
  simp only [State.canMask, setCtx_ctx, setCtx_now]
@[simp] theorem setCtx_maskVal (s : State) (n : Nat) : (s.setCtx s.ctx).maskVal n = s.maskVal n := by
  simp only [State.maskVal, setCtx_ctx, setCtx_now]

/-- Both operands are ready, one mailbox that both name included. -/
theorem ready_of_canVector {s : State} {f : AW} (h : s.canVector f true = true) :
    (s.ctx.rangeBad f.a = false ∧ (s.ctx.trust = true ∨ s.ctx.readyAt f.a ≤ s.now)) ∧
      s.ctx.rangeBad f.b = false ∧ (s.ctx.trust = true ∨ s.ctx.readyAt f.b ≤ s.now) := by
  obtain ⟨-, ha, hb, -⟩ := (canVector_iff s f true).1 h
  obtain ⟨hrange, hready, -⟩ := (canSource_iff s f.a).1 ha
  refine ⟨⟨hrange, hready⟩, ?_⟩
  cases hr : readOnce f with
  | true =>
    obtain ⟨-, e⟩ : isMb f.a = true ∧ f.a = f.b := by simpa [readOnce] using hr
    exact e ▸ ⟨hrange, hready⟩
  | false =>
    obtain ⟨hrange', hready', -⟩ := (canSource_iff _ f.b).1 (hb rfl hr)
    simp only [State.firstTaken, setCtx_ctx, setCtx_now, sourceTaken_rangeBad, sourceTaken_readyAt, sourceTaken_trust] at hrange' hready'
    exact ⟨hrange', hready'⟩

theorem readTwo_run {s : State} {f : AW} (h : s.canVector f true = true) :
    readTwo f.t f.a f.b (s.setCtx s.ctx) = .ok ((s.opA f, s.opB f), s.taken f true) := by
  obtain ⟨hcalm, ha, hb, -⟩ := (canVector_iff s f true).1 h
  obtain ⟨-, hp, -⟩ := (vectorCalm_iff s).1 hcalm
  rw [← setCtx_canSource] at ha
  have first := readSrc_run hp f.t ha
  rw [setCtx_source] at first
  unfold readTwo State.opB State.taken
  simp only [bind_run, first]
  cases hr : readOnce f with
  | true =>
    rw [readOnce] at hr
    simp only [hr]
    rfl
  | false =>
    have second := readSrc_run hp f.t (hb rfl hr)
    rw [readOnce] at hr
    simp only [hr, Bool.false_eq_true, if_false, bind_run, second, pure_run, State.firstTaken, setCtx_setCtx, setCtx_ctx]
    rfl

/-- An A-word's operands, when they can be read: acc is a further source that is checked and not taken. -/
theorem operands_run {s : State} {f : AW} {two : Bool} (h : s.canVector f two = true) {acc : Option (BitVec 6)}
    (hacc : ∀ c, acc = some c → s.ctx.trust = true ∨ s.ctx.readyAt c ≤ s.now) :
    operands f two acc s = .ok ((s.opA f, if two then s.opB f else 0, s.opK f), s.taken f two) := by
  obtain ⟨hcalm, ha, hb, hd, hk⟩ := (canVector_iff s f two).1 h
  obtain ⟨hq, hp, -⟩ := (vectorCalm_iff s).1 hcalm
  obtain ⟨hrange, hready, -⟩ := (canSource_iff s f.a).1 ha
  have await := awaitSources_run hq (sources_of_canVector h)
  rw [sourcesOf_eq] at await
  have check (field : Nat) {c : BitVec 6} (hc : s.ctx.trust = true ∨ s.ctx.readyAt c ≤ s.now) :
      checkReady field c (s.setCtx s.ctx) = .ok ((), s.setCtx s.ctx) := checkReady_run field (by simpa using hc)
  have mask : checkMask 3 f.k.toNat (s.setCtx s.ctx) = .ok ((), s.setCtx s.ctx) := checkMask_run 3 (by simpa using hk)
  have third : ∀ c, acc = some c → checkReady 2 c (s.setCtx s.ctx) = .ok ((), s.setCtx s.ctx) := fun c hc => check 2 (hacc c hc)
  unfold operands
  cases two with
  | false =>
    have range : inRange ([f.a] ++ [f.d]) s = .ok ((), s) := inRange_run (by simp [hrange, hd])
    have read := readSrc_run hp f.t ((setCtx_canSource s f.a).symm ▸ ha)
    rw [setCtx_source] at read
    rw [if_neg Bool.false_ne_true] at await
    cases acc with
    | none => simp only [Bool.false_eq_true, if_false, bind_run, range, await, check 0 hready, mask, read, pure_run, get_run, setCtx_maskVal]; rfl
    | some c => simp only [Bool.false_eq_true, if_false, bind_run, range, await, check 0 hready, third c rfl, mask, read, pure_run, get_run, setCtx_maskVal]; rfl
  | true =>
    obtain ⟨-, hrange', hready'⟩ := ready_of_canVector h
    have range : inRange ([f.a, f.b] ++ [f.d]) s = .ok ((), s) := inRange_run (by simp [hrange, hrange', hd])
    simp only [if_true] at await
    cases acc with
    | none => simp only [if_true, bind_run, range, await, check 0 hready, check 1 hready', mask, readTwo_run h, pure_run, get_run, setCtx_maskVal]; rfl
    | some c => simp only [if_true, bind_run, range, await, check 0 hready, check 1 hready', third c rfl, mask, readTwo_run h, pure_run, get_run, setCtx_maskVal]; rfl

/-! ## Destinations -/

theorem elemWidth_cases (t : BitVec 3) : elemWidth t = 8 ∨ elemWidth t = 16 ∨ elemWidth t = 32 ∨ elemWidth t = 64 := by
  revert t
  decide

/-- Bit i of a vector is active when the mask's bit for its lane is set (R133). -/
theorem activeBits_getLsbD (t : BitVec 3) (m : Word) {i : Nat} (hi : i < 2048) :
    (activeBits (elemWidth t) m).getLsbD i = m.getLsbD (i / max (elemWidth t) 32) := by
  by_cases hw : elemWidth t = 64
  · rw [activeBits, if_pos hw, BitVec.getLsbD_ofNat, spread_testBit (by decide), hw, BitVec.getLsbD_extractLsb']
    simp [hi, show i / 64 < 32 by omega]
  · have lane : max (elemWidth t) 32 = 32 := by have := elemWidth_cases t; omega
    rw [activeBits, if_neg hw, BitVec.getLsbD_ofNat, spread_testBit (by decide), lane]
    simp [hi]

/-- A context that an event of R314 has woken. -/
def Ctx.woken (k : Ctx) : Ctx := { k with wakes := k.wakes + 1 }

/-- A context to which a result has been delivered in every place that its destination names (R129, R202). -/
def Ctx.delivered (k : Ctx) (d : BitVec 6) (ready : Nat) (v : Vec) (box : Word) : Ctx := { k with
  queue := (k.pushEntry v ready).queue
  vregs := if isV d then k.vregs.set (d.toNat - 16) ⟨v, ready, (k.vreg (d.toNat - 16)).val⟩ else k.vregs
  mbs := if isMb d then k.mbs.setIfInBounds (d.toNat - 48) ⟨box, true, 0, false, ready⟩ else k.mbs
  wakes := if isMb d then k.wakes + 1 else k.wakes }

/-- The steps of a delivery: the result queue, then the named register or mailbox. -/
theorem delivered_steps (k : Ctx) (d : BitVec 6) (ready : Nat) (v : Vec) (box : Word) : k.delivered d ready v box =
    let q := k.pushEntry v ready
    let r := if isV d then q.setVreg (d.toNat - 16) v ready else q
    if isMb d then (r.setMailbox (d.toNat - 48) box ready).woken else r := by
  cases hv : isV d <;> cases hm : isMb d <;>
    simp only [Ctx.delivered, Ctx.pushEntry, Ctx.setVreg, Ctx.vreg, Ctx.setMailbox, Ctx.woken, hv, hm, Bool.false_eq_true, if_false, if_true]

theorem getD_ofFn {α : Type} {n : Nat} (g : Fin n → α) (d : α) {i : Nat} (h : i < n) : (Vector.ofFn g).getD i d = g ⟨i, h⟩ := by
  simp [Vector.getD, h]

theorem pushEntry_qent_zero (k : Ctx) (v : Vec) (ready : Nat) :
    (k.pushEntry v ready).qent 0 = ⟨v, ready, if (k.qent 15).ready = 0 then 0 else (k.qent 15).val⟩ :=
  getD_ofFn _ _ (by omega)

theorem pushEntry_qent_succ (k : Ctx) (v : Vec) (ready : Nat) {n : Nat} (hn : n < 15) :
    (k.pushEntry v ready).qent (n + 1) = k.qent n :=
  getD_ofFn _ _ (by omega)

/-- The destination's registers are there. -/
structure Ctx.Takes (k : Ctx) (d : BitVec 6) : Prop where
  range : k.rangeBad d = false
  regs : k.vregs.length = 8 * k.banks

theorem delivered_vreg {k : Ctx} {d : BitVec 6} (h : k.Takes d) (ready : Nat) (v : Vec) (box : Word) {n : Nat} (hn : n < 32) :
    (k.delivered d ready v box).vreg n = if d.toNat = 16 + n then ⟨v, ready, (k.vreg n).val⟩ else k.vreg n := by
  show (if isV d then k.vregs.set (d.toNat - 16) ⟨v, ready, (k.vreg (d.toNat - 16)).val⟩ else k.vregs).getD n VReg.reset = _
  cases hv : isV d with
  | false =>
    have : ¬ isV d = true := by simp [hv]
    rw [isV_iff] at this
    have ne : ¬ d.toNat = 16 + n := by omega
    rw [if_neg Bool.false_ne_true, if_neg ne]
    rfl
  | true =>
    have there : d.toNat - 16 < k.vregs.length := by
      have := h.range
      simp only [Ctx.rangeBad, hv, Bool.true_and, decide_eq_false_iff_not] at this
      rw [h.regs]
      omega
    rw [isV_iff] at hv
    rw [if_pos rfl, List.getD_eq_getElem?_getD, List.getElem?_set]
    by_cases e : d.toNat = 16 + n
    · rw [if_pos e, if_pos (by omega), if_pos there, Option.getD_some, show d.toNat - 16 = n by omega]
    · rw [if_neg e, if_neg (by omega), ← List.getD_eq_getElem?_getD]
      rfl

theorem delivered_mailbox (k : Ctx) (d : BitVec 6) (ready : Nat) (v : Vec) (box : Word) {n : Nat} (hn : n < 8) :
    (k.delivered d ready v box).mbs.getD n Mailbox.reset =
      if d.toNat = 48 + n then ⟨box, true, 0, false, ready⟩ else k.mbs.getD n Mailbox.reset := by
  show (if isMb d then k.mbs.setIfInBounds (d.toNat - 48) ⟨box, true, 0, false, ready⟩ else k.mbs).getD n Mailbox.reset = _
  cases hm : isMb d with
  | false =>
    have : ¬ isMb d = true := by simp [hm]
    rw [isMb_iff] at this
    have ne : ¬ d.toNat = 48 + n := by omega
    rw [if_neg Bool.false_ne_true, if_neg ne]
  | true =>
    rw [isMb_iff] at hm
    rw [if_pos rfl, getD_setIfInBounds _ _ _ _ _ (by omega)]
    by_cases e : d.toNat = 48 + n
    · rw [if_pos e, if_pos (by omega)]
    · rw [if_neg e, if_neg (by omega)]

/-- What a delivery leaves (R129, R144, R202). -/
theorem delivers_setCtx {e : State} {d : BitVec 6} (h : e.ctx.Takes d) (hd : d ≠ 56) (lat : Nat) (v : Vec) (box : Word) :
    e.delivers { e.setCtx (e.ctx.delivered d (e.now + lat) v box) with fate := .done } d lat v box := by
  have own : ({ e.setCtx (e.ctx.delivered d (e.now + lat) v box) with fate := .done } : State).ctx = e.ctx.delivered d (e.now + lat) v box :=
    setCtx_ctx ..
  have queue (n : Nat) : (e.ctx.delivered d (e.now + lat) v box).qent n = (e.ctx.pushEntry v (e.now + lat)).qent n := rfl
  refine ⟨?_, ?_, fun h56 => absurd h56 hd, fun _ => ?_, fun n hn => ?_, fun n hn => ?_⟩
  · rw [State.elseAs, own, with_fate_setCtx, setCtx_setCtx]
    rfl
  · rw [own]
    rfl
  · rw [own, queue, pushEntry_qent_zero]
    refine ⟨rfl, rfl, rfl, fun n hn => ?_⟩
    rw [queue, pushEntry_qent_succ _ _ _ hn]
  · rw [own]
    exact delivered_vreg h _ _ _ hn
  · rw [own]
    exact delivered_mailbox _ _ _ _ _ hn

/-- Code 56 takes nothing. -/
theorem delivers_nowhere (e : State) (lat : Nat) (v : Vec) (box : Word) : e.delivers { e with fate := .done } 56 lat v box := by
  refine ⟨rfl, rfl, fun _ => rfl, fun h => absurd rfl h, fun n hn => ?_, fun n hn => ?_⟩
  · rw [if_neg (by simp; omega)]
    rfl
  · rw [if_neg (by simp; omega)]
    rfl

theorem mhas_setCtx (s : State) (k : Ctx) : mhas ((s.setCtx k).tile s.cur).ctxs s.cid = true := by
  rw [State.setCtx, State.setCtxAt, modTile_tile_same, Tile.setCtx, mhas_mset]
  simp

theorem wake_setCtx (s : State) (k : Ctx) : (s.setCtx k).wake s.cur s.cid = s.setCtx k.woken := by
  rw [State.wake, if_pos (mhas_setCtx s k), State.modCtxAt]
  have here : (s.setCtx k).ctxAt s.cur s.cid = k := setCtx_ctx s k
  rw [here]
  exact setCtx_setCtx ..

/-- The result of an A-word under its mask. -/
def maskedResult (e : State) (t : BitVec 3) (d : BitVec 6) (r : Vec) (m : Word) : Vec :=
  blend (activeBits (elemWidth t) m) (e.ctx.kept' d) r

theorem writeDest_run (e : State) (t : BitVec 3) {d : BitVec 6} (hd : d ≠ 56) (lat : Nat) (r : Vec) (m : Word) :
    writeDest t d lat r m e = .ok ((), e.setCtx (e.ctx.delivered d (e.now + lat) (maskedResult e t d r m)
      (BitVec.ofNat 64 ((maskedResult e t d r m).toNat % 2 ^ elemWidth t)))) := by
  have result : blend (activeBits (elemWidth t) m) (if isV d then (e.ctx.vreg (d.toNat - 16)).val else 0) r = maskedResult e t d r m := rfl
  simp only [writeDest, bind_run, get_run, if_neg hd, modC_run, result]
  rw [delivered_steps]
  cases isV d <;> cases isMb d <;>
    simp only [Bool.false_eq_true, if_false, if_true, pure_run, bind_run, modC_run, fillMailbox, upd_run, setCtx_ctx, setCtx_setCtx,
      setCtx_now, wake_setCtx]

/-- An A-word that ends with its result's delivery (R249). -/
theorem writeDest_vwrote {e : State} {d : BitVec 6} (h : e.ctx.Takes d) (t : BitVec 3) (lat : Nat) (r : Vec) (m : Word) :
    ∃ u, writeDest t d lat r m e = .ok ((), u) ∧ e.vwrote { u with fate := .done } t d lat r m := by
  have bit : ∀ i < 2048, (maskedResult e t d r m).getLsbD i =
      if m.getLsbD (i / max (elemWidth t) 32) then r.getLsbD i else (e.ctx.kept' d).getLsbD i := fun i hi => by
    rw [maskedResult, blend_getLsbD, activeBits_getLsbD t m hi]
  have box : (BitVec.ofNat 64 (el (elemWidth t) (maskedResult e t d r m) 0)) = BitVec.ofNat 64 ((maskedResult e t d r m).toNat % 2 ^ elemWidth t) := by
    rw [el, Nat.mul_zero, Nat.pow_zero, Nat.div_one]
  by_cases hd : d = 56
  · subst hd
    exact ⟨e, rfl, _, bit, delivers_nowhere ..⟩
  · refine ⟨_, writeDest_run e t hd lat r m, _, bit, ?_⟩
    rw [box]
    exact delivers_setCtx h hd ..

/-! ## The state in which an A-word writes -/

theorem taken_ctx (s : State) (f : AW) (two : Bool) : (s.taken f two).ctx =
    { s.ctx with mbs := (s.taken f two).ctx.mbs, dqs := (s.taken f two).ctx.dqs } := by
  unfold State.taken State.firstTaken
  split
  · rw [setCtx_ctx, setCtx_ctx, sourceTaken_eq (s.ctx.sourceTaken f.a), sourceTaken_eq s.ctx]
  · rw [setCtx_ctx, sourceTaken_eq s.ctx]

theorem taken_frm (s : State) (f : AW) (two : Bool) : (s.taken f two).ctx.frm = s.ctx.frm := by rw [taken_ctx]

theorem takes_taken {s : State} {f : AW} {two : Bool} (h : s.canVector f two = true) : (s.taken f two).ctx.Takes f.d := by
  obtain ⟨hcalm, -, -, hd, -⟩ := (canVector_iff s f two).1 h
  obtain ⟨-, -, hregs⟩ := (vectorCalm_iff s).1 hcalm
  rw [taken_ctx]
  exact ⟨hd, hregs⟩

theorem raise_ctx (k : Ctx) (fl : BitVec 11) (u : BitVec 49) : k.raise fl u =
    { k with flags := (k.raise fl u).flags, firstV := (k.raise fl u).firstV, firstUnit := (k.raise fl u).firstUnit } := by
  unfold Ctx.raise
  dsimp only
  split
  · rfl
  · split <;> rfl

theorem takes_flagged {e : State} {d : BitVec 6} (h : e.ctx.Takes d) (fl : BitVec 11) : (e.flagged fl).ctx.Takes d := by
  unfold State.flagged
  split
  · rw [setCtx_ctx, raise_ctx]
    exact ⟨h.range, h.regs⟩
  · rw [setCtx_ctx]
    exact ⟨h.range, h.regs⟩

/-- No flag, no change but that the context is listed. -/
theorem flagged_zero (e : State) : e.flagged 0 = e.setCtx e.ctx := by
  simp [State.flagged, Ctx.raise]

theorem taken_listed (s : State) (f : AW) (two : Bool) : (s.taken f two).setCtx (s.taken f two).ctx = s.taken f two := by
  unfold State.taken State.firstTaken
  split
  · rw [setCtx_ctx, setCtx_ctx, setCtx_setCtx, setCtx_setCtx]
  · rw [setCtx_ctx, setCtx_setCtx]

theorem taken_flagged_zero (s : State) (f : AW) (two : Bool) : (s.taken f two).flagged 0 = s.taken f two := by
  rw [flagged_zero, taken_listed]

/-- An A-word that takes its operands, raises flags and delivers a result. -/
theorem vector_next {s : State} {f : AW} {two : Bool} (h : s.canVector f two = true) {o : Host.Outcome State Fault Refusal} {m : M Unit}
    (ho : o = finish m s) {fl : BitVec 11} {lat : Nat} {r : Vec} {k : Word}
    (hm : m s = (do raise fl; writeDest f.t f.d lat r k : M Unit) (s.taken f two)) :
    ∃ t, o = .next t ∧ ((s.taken f two).flagged fl).vwrote t f.t f.d lat r k := by
  obtain ⟨u, hu, hw⟩ := writeDest_vwrote (takes_flagged (takes_taken h) fl) f.t lat r k
  exact ⟨_, ho.trans (finish_ok (t := u) (by rw [hm, bind_run, raise_run]; exact hu)), hw⟩

/-- An A-word that takes its operands and delivers a result, with no flag. -/
theorem vector_next_unflagged {s : State} {f : AW} {two : Bool} (h : s.canVector f two = true) {o : Host.Outcome State Fault Refusal}
    {m : M Unit} (ho : o = finish m s) {lat : Nat} {r : Vec} {k : Word} (hm : m s = writeDest f.t f.d lat r k (s.taken f two)) :
    ∃ t, o = .next t ∧ (s.taken f two).vwrote t f.t f.d lat r k := by
  obtain ⟨u, hu, hw⟩ := writeDest_vwrote (takes_taken h) f.t lat r k
  exact ⟨_, ho.trans (finish_ok (t := u) (by rw [hm, hu])), hw⟩

end Sys2Proof.Machine
end

section
/-! The tree of a reduction and the prefixes of a scan, in any notion of a block's value that the operation keeps (R67, R259, R260). -/
namespace Sys2Proof.Machine

variable {op : Nat → Nat → Nat × BitVec 11}

/-! ## Levels -/

theorem pairUp_length : ∀ l : List Nat, (pairUp op l).1.length = (l.length + 1) / 2
  | [] => rfl
  | [_] => by simp [pairUp]
  | a :: b :: rest => by
    have := pairUp_length rest
    simp only [pairUp, List.length_cons]
    omega

theorem pairUp_getD : ∀ (l : List Nat) {i : Nat}, 2 * i + 1 < l.length →
    (pairUp op l).1.getD i 0 = (op (l.getD (2 * i) 0) (l.getD (2 * i + 1) 0)).1
  | [], _, h => absurd h (by simp)
  | [_], _, h => absurd h (by simp)
  | _ :: _ :: _, 0, _ => rfl
  | _ :: _ :: rest, i + 1, h => pairUp_getD rest (i := i) (by simp only [List.length_cons] at h; omega)

/-- Level j of the tree over a list. -/
def levelAt (op : Nat → Nat → Nat × BitVec 11) : Nat → List Nat → List Nat
  | 0, l => l
  | j + 1, l => (pairUp op (levelAt op j l)).1

theorem levelAt_pairUp (j : Nat) (l : List Nat) : levelAt op j (pairUp op l).1 = levelAt op (j + 1) l := by
  induction j with
  | zero => rfl
  | succ j ih => exact congrArg (fun l => (pairUp op l).1) ih

theorem treeLevels_eq (n : Nat) (l : List Nat) : (treeLevels op n l).1 = (List.range (n + 1)).map fun j => levelAt op j l := by
  induction n generalizing l with
  | zero => rfl
  | succ n ih =>
    rw [List.range_succ_eq_map, List.map_cons, List.map_map]
    show l :: (treeLevels op n (pairUp op l).1).1 = _
    rw [ih]
    simp only [levelAt_pairUp]
    rfl

theorem length_levelAt (j : Nat) (l : List Nat) : l.length / 2 ^ j ≤ (levelAt op j l).length := by
  induction j with
  | zero => simp [levelAt]
  | succ j ih =>
    rw [levelAt, pairUp_length, Nat.pow_succ, ← Nat.div_div_eq_div_mul]
    omega

/-! ## Blocks -/

/-- Elements a to b - 1 of a list make the value c, by a notion that elements have and the operation keeps. -/
structure Blocks (op : Nat → Nat → Nat × BitVec 11) (l : List Nat) (P : Nat → Nat → Nat → Prop) : Prop where
  leaf : ∀ i < l.length, P i (i + 1) (l.getD i 0)
  node : ∀ a b c x y, P a b x → P b c y → P a c (op x y).1

variable {l : List Nat} {P : Nat → Nat → Nat → Prop}

/-- Entry i of level j is the value of the i-th block of 2^j elements. -/
theorem Blocks.level (h : Blocks op l P) (j i : Nat) (hi : (i + 1) * 2 ^ j ≤ l.length) :
    P (i * 2 ^ j) ((i + 1) * 2 ^ j) ((levelAt op j l).getD i 0) := by
  induction j generalizing i with
  | zero => simpa [levelAt] using h.leaf i (by simpa using hi)
  | succ j ih =>
    have twice (k : Nat) : k * 2 ^ (j + 1) = 2 * k * 2 ^ j := by ring
    have inside : 2 * i + 1 < (levelAt op j l).length := by
      refine Nat.lt_of_lt_of_le ?_ (length_levelAt j l)
      rw [Nat.lt_iff_add_one_le, Nat.le_div_iff_mul_le (by positivity), show 2 * i + 1 + 1 = 2 * (i + 1) by ring, ← twice]
      exact hi
    rw [twice] at hi
    have next : (2 * i + 1 + 1) * 2 ^ j = (i + 1) * 2 ^ (j + 1) := by ring
    rw [levelAt, pairUp_getD _ inside, twice i, ← next]
    refine h.node _ ((2 * i + 1) * 2 ^ j) _ _ _ (ih (2 * i) ?_) (ih (2 * i + 1) ?_)
    · exact Nat.le_trans (Nat.mul_le_mul_right _ (by omega)) hi
    · exact Nat.le_trans (Nat.mul_le_mul_right _ (by omega)) hi

/-- The root is the value of the whole list. -/
theorem Blocks.root (h : Blocks op l P) {k : Nat} (hl : l.length = 2 ^ k) : P 0 l.length (tree op l).1 := by
  have top : (tree op l).1 = (levelAt op k l).getD 0 0 := by
    show (((treeLevels op (Nat.log2 l.length) l).1.getLastD []).headD 0) = _
    rw [hl, Nat.log2_two_pow, treeLevels_eq, List.range_succ, List.map_append, List.map_singleton, List.getLastD_concat]
    cases levelAt op k l <;> rfl
  rw [top]
  simpa [hl] using h.level k 0 (by simp [hl])

/-- The part that ends before element k is the value of its elements. -/
theorem Blocks.scan (h : Blocks op l P) {n k : Nat} (hl : l.length = 2 ^ n) (hk : 0 < k) (hkn : k ≤ 2 ^ n) (j : Nat) (hj : j ≤ n + 1)
    (acc : Option Nat) (fl : BitVec 11)
    (hacc : acc = none ∧ k / 2 ^ j * 2 ^ j = 0 ∨ ∃ a, acc = some a ∧ P 0 (k / 2 ^ j * 2 ^ j) a) :
    P 0 k (scanAt op (treeLevels op n l).1 k j (k / 2 ^ j * 2 ^ j) acc fl).1 := by
  induction j generalizing acc fl with
  | zero =>
    rw [Nat.pow_zero, Nat.div_one, Nat.mul_one] at hacc ⊢
    rcases hacc with ⟨-, h0⟩ | ⟨a, rfl, ha⟩
    · omega
    · exact ha
  | succ j ih =>
    have half : k / 2 ^ (j + 1) = k / 2 ^ j / 2 := by rw [Nat.pow_succ, Nat.div_div_eq_div_mul]
    have twice : k / 2 ^ (j + 1) * 2 ^ (j + 1) = 2 * (k / 2 ^ j / 2) * 2 ^ j := by rw [half]; ring
    have bit : k.testBit j = decide (k / 2 ^ j % 2 = 1) := by rw [Nat.testBit_eq_decide_div_mod_eq]
    rw [twice] at hacc ⊢
    unfold scanAt
    rw [bit]
    by_cases hb : k / 2 ^ j % 2 = 1
    · have whole : k / 2 ^ j = 2 * (k / 2 ^ j / 2) + 1 := by omega
      have sum : 2 * (k / 2 ^ j / 2) * 2 ^ j + 2 ^ j = k / 2 ^ j * 2 ^ j := by
        rw [← Nat.succ_mul]
        exact congrArg (· * 2 ^ j) whole.symm
      have block : P (2 * (k / 2 ^ j / 2) * 2 ^ j) (k / 2 ^ j * 2 ^ j) ((levelAt op j l).getD (2 * (k / 2 ^ j / 2)) 0) := by
        have := h.level j (2 * (k / 2 ^ j / 2)) (by
          rw [← whole, hl]
          exact Nat.le_trans (Nat.div_mul_le_self _ _) hkn)
        rwa [← whole] at this
      have entry : ((treeLevels op n l).1.getD j []).getD (2 * (k / 2 ^ j / 2) * 2 ^ j / 2 ^ j) 0 =
          (levelAt op j l).getD (2 * (k / 2 ^ j / 2)) 0 := by
        rw [treeLevels_eq, getD_map_range _ _ (by omega), Nat.mul_div_cancel _ (by positivity)]
      rw [decide_eq_true hb, if_pos rfl, entry, sum]
      rcases hacc with ⟨rfl, h0⟩ | ⟨a, rfl, ha⟩
      · rw [h0] at block
        exact ih (by omega) _ _ (.inr ⟨_, rfl, block⟩)
      · exact ih (by omega) _ _ (.inr ⟨_, rfl, h.node _ _ _ _ _ ha block⟩)
    · have whole : 2 * (k / 2 ^ j / 2) = k / 2 ^ j := by omega
      rw [decide_eq_false hb, if_neg Bool.false_ne_true]
      rw [whole] at hacc ⊢
      exact ih (by omega) _ _ hacc

theorem Blocks.initial (h : Blocks op l P) {n k : Nat} (hl : l.length = 2 ^ n) (hk : 0 < k) (hkn : k ≤ 2 ^ n) :
    P 0 k (scanAt op (treeLevels op n l).1 k (n + 1) 0 none 0).1 := by
  have none_above : k / 2 ^ (n + 1) * 2 ^ (n + 1) = 0 := by
    rw [Nat.div_eq_of_lt (Nat.lt_of_le_of_lt hkn (Nat.pow_lt_pow_right (by decide) (by omega))), Nat.zero_mul]
  have := h.scan hl hk hkn (n + 1) (Nat.le_refl _) none 0 (.inl ⟨rfl, none_above⟩)
  rwa [none_above] at this

/-! ## Flags -/

theorem pairUp_unflagged (h : ∀ a b, (op a b).2 = 0) : ∀ l : List Nat, (pairUp op l).2 = 0
  | [] => rfl
  | [_] => by simp [pairUp]
  | a :: b :: rest => by simp [pairUp, h, pairUp_unflagged h rest]

theorem treeLevels_unflagged (h : ∀ a b, (op a b).2 = 0) (n : Nat) (l : List Nat) : (treeLevels op n l).2 = 0 := by
  induction n generalizing l with
  | zero => rfl
  | succ n ih => simp [treeLevels, pairUp_unflagged h, ih]

end Sys2Proof.Machine
end

section
/-! Reductions, scans and ranks (R67, R259 to R261). -/
namespace Sys2Proof.Machine

/-! ## Elements of a type -/

theorem lanes_eq_pow (t : BitVec 3) : 2048 / elemWidth t = 2 ^ Nat.log2 (2048 / elemWidth t) := by
  revert t
  decide

theorem pow_elemWidth (t : BitVec 3) : 2 ^ elemWidth t = 2 * 2 ^ (elemWidth t - 1) := by
  rw [← pow_succ']
  congr 1
  have := elemWidth_cases t
  omega

theorem elemInt_eq (t : BitVec 3) (x : Nat) :
    elemInt t x = if isSigned t = true ∧ 2 ^ (elemWidth t - 1) ≤ x then (x : Int) - 2 * (2 ^ (elemWidth t - 1) : Nat) else x := by
  have whole : (2 : Int) ^ elemWidth t = 2 * (2 ^ (elemWidth t - 1) : Nat) := by exact_mod_cast pow_elemWidth t
  simp only [elemInt, Bool.and_eq_true, decide_eq_true_eq, whole]

/-- An element is known by its integer. -/
theorem elemInt_inj {t : BitVec 3} {x y : Nat} (hx : x < 2 ^ elemWidth t) (hy : y < 2 ^ elemWidth t) (h : elemInt t x = elemInt t y) : x = y := by
  rw [pow_elemWidth] at hx hy
  rw [elemInt_eq, elemInt_eq] at h
  split at h <;> split at h <;> omega

/-! ## Integer sums -/

theorem sum_filter_range (p : Nat → Bool) (g : Nat → Nat) (n : Nat) :
    (((List.range n).filter p).map g).sum = ∑ i ∈ Finset.range n, if p i then g i else 0 := by
  induction n with
  | zero => rfl
  | succ n ih =>
    rw [List.range_succ, List.filter_append, List.map_append, List.sum_append, ih, Finset.sum_range_succ]
    cases h : p n <;> simp [h]

/-- A block's value is the sum of its elements, modulo 2^w. -/
def isSum (w : Nat) (g : Nat → Nat) (a b c : Nat) : Prop := a ≤ b ∧ c % 2 ^ w = (∑ i ∈ Finset.Ico a b, g i) % 2 ^ w

theorem blocks_sum {t : BitVec 3} (ht : isFloat t = false) (mode n : Nat) (g : Nat → Nat) :
    Blocks (addElem t mode) ((List.range n).map g) (isSum (elemWidth t) g) where
  leaf i hi := by
    rw [List.length_map, List.length_range] at hi
    rw [getD_map_range g 0 hi]
    exact ⟨by omega, by simp⟩
  node a b c x y := by
    rintro ⟨hab, hx⟩ ⟨hbc, hy⟩
    refine ⟨hab.trans hbc, ?_⟩
    simp only [addElem, ht, Bool.false_eq_true, if_false]
    rw [Nat.mod_mod, Nat.add_mod, hx, hy, ← Nat.add_mod, Finset.sum_Ico_consecutive _ hab hbc]

/-- The masked elements of an integer sum: those of inactive lanes are 0. -/
theorem masked_sum {t : BitVec 3} (ht : isFloat t = false) (mode : Nat) (m : Word) (x : Vec) :
    masked (elemWidth t) m (sumIdentity t mode) x =
      (List.range (2048 / elemWidth t)).map fun i => if activeBit (elemWidth t) m i then el (elemWidth t) x i else 0 := by
  rw [masked_eq, sumIdentity, ht]
  rfl

theorem length_masked (w : Nat) (m : Word) (ident : Nat) (x : Vec) : (masked w m ident x).length = 2048 / w := by
  rw [masked_eq, List.length_map, List.length_range]

theorem tree_sum {t : BitVec 3} (ht : isFloat t = false) (mode : Nat) (m : Word) (x : Vec) :
    (tree (addElem t mode) (masked (elemWidth t) m (sumIdentity t mode) x)).1 % 2 ^ elemWidth t =
      (((List.range (2048 / elemWidth t)).filter fun i => activeBit (elemWidth t) m i).map fun j => el (elemWidth t) x j).sum % 2 ^ elemWidth t := by
  rw [masked_sum ht, sum_filter_range, Finset.range_eq_Ico]
  obtain ⟨-, h⟩ := (blocks_sum ht mode (2048 / elemWidth t) fun i => if activeBit (elemWidth t) m i then el (elemWidth t) x i else 0).root
    (k := Nat.log2 (2048 / elemWidth t)) (by rw [List.length_map, List.length_range]; exact lanes_eq_pow t)
  rwa [List.length_map, List.length_range] at h

theorem filter_le_range {n i : Nat} (h : i ≤ n) : ((List.range n).filter fun j => decide (j < i)) = List.range i := by
  obtain ⟨k, rfl⟩ := Nat.exists_eq_add_of_le h
  rw [List.range_add, List.filter_append, List.filter_eq_self.2, List.filter_eq_nil_iff.2, List.append_nil]
  · intro j hj
    obtain ⟨a, -, rfl⟩ := List.mem_map.1 hj
    simp
  · intro j hj
    simpa using hj

theorem scan_sum {t : BitVec 3} (ht : isFloat t = false) (mode : Nat) (m : Word) (x : Vec) {i : Nat} (hi : i < 2048 / elemWidth t) :
    let n := 2048 / elemWidth t
    let live := (List.range n).filter fun i => activeBit (elemWidth t) m i
    let adds := masked (elemWidth t) m (sumIdentity t mode) x
    (scanAt (addElem t mode) (treeLevels (addElem t mode) (Nat.log2 n) adds).1 (i + 1) (Nat.log2 n + 1) 0 none 0).1 % 2 ^ elemWidth t =
      ((live.filter fun j => decide (j ≤ i)).map fun j => el (elemWidth t) x j).sum % 2 ^ elemWidth t := by
  intro n live adds
  have upTo : (live.filter fun j => decide (j ≤ i)) = (List.range (i + 1)).filter fun j => activeBit (elemWidth t) m j := by
    rw [List.filter_comm, ← filter_le_range (n := n) (i := i + 1) hi]
    simp only [Nat.lt_succ_iff]
  rw [upTo, sum_filter_range, Finset.range_eq_Ico]
  obtain ⟨-, h⟩ := (blocks_sum ht mode n fun i => if activeBit (elemWidth t) m i then el (elemWidth t) x i else 0).initial
    (n := Nat.log2 n) (k := i + 1) (by rw [List.length_map, List.length_range]; exact lanes_eq_pow t) (by omega)
    (by rw [← lanes_eq_pow t]; exact hi)
  rw [← masked_sum ht mode] at h
  exact h

/-! ## Integer maxima and minima -/

/-- The order in which an extremum is last. -/
def upTo (t : BitVec 3) (larger : Bool) (x y : Nat) : Prop := if larger then elemInt t x ≤ elemInt t y else elemInt t y ≤ elemInt t x

theorem upTo_refl (t : BitVec 3) (larger : Bool) (x : Nat) : upTo t larger x x := by
  cases larger <;> exact le_refl _

theorem upTo_trans {t : BitVec 3} {larger : Bool} {x y z : Nat} (h : upTo t larger x y) (h' : upTo t larger y z) : upTo t larger x z := by
  cases larger
  · exact le_trans h' h
  · exact le_trans h h'

/-- The pick of two is one of them, and neither lies past it. -/
theorem pickElem_upTo {t : BitVec 3} (ht : isFloat t = false) (larger : Bool) (a b : Nat) :
    ((pickElem t larger a b).1 = a ∨ (pickElem t larger a b).1 = b) ∧
      upTo t larger a (pickElem t larger a b).1 ∧ upTo t larger b (pickElem t larger a b).1 := by
  unfold upTo
  simp only [pickElem, ht, Bool.false_eq_true, if_false]
  by_cases h : elemInt t a < elemInt t b
  · cases larger <;> simp [h, le_of_lt h]
  · cases larger <;> simp [h, not_lt.1 h]

/-- A block's value is one of its elements, and none of them lies past it. -/
def isExtremum (t : BitVec 3) (larger : Bool) (g : Nat → Nat) (a b c : Nat) : Prop :=
  a ≤ b ∧ (∃ i, a ≤ i ∧ i < b ∧ c = g i) ∧ ∀ i, a ≤ i → i < b → upTo t larger (g i) c

theorem blocks_extremum {t : BitVec 3} (ht : isFloat t = false) (larger : Bool) (n : Nat) (g : Nat → Nat) :
    Blocks (pickElem t larger) ((List.range n).map g) (isExtremum t larger g) where
  leaf i hi := by
    rw [List.length_map, List.length_range] at hi
    rw [getD_map_range g 0 hi]
    refine ⟨by omega, ⟨i, by omega, by omega, rfl⟩, fun j h h' => ?_⟩
    rw [show j = i by omega]
    exact upTo_refl ..
  node a b c x y := by
    rintro ⟨hab, ⟨i, hai, hib, hx⟩, hpast⟩ ⟨hbc, ⟨j, hbj, hjc, hy⟩, hpast'⟩
    obtain ⟨hone, hleft, hright⟩ := pickElem_upTo ht larger x y
    refine ⟨hab.trans hbc, ?_, fun k h h' => ?_⟩
    · rcases hone with h | h
      · exact ⟨i, hai, by omega, by rw [h, hx]⟩
      · exact ⟨j, by omega, hjc, by rw [h, hy]⟩
    · by_cases hk : k < b
      · exact upTo_trans (hpast k h hk) hleft
      · exact upTo_trans (hpast' k (by omega) h') hright

/-- The identity of a pick is an element that lies past none. -/
theorem pickIdentity_first {t : BitVec 3} (ht : isFloat t = false) (larger : Bool) :
    pickIdentity t larger < 2 ^ elemWidth t ∧ ∀ x < 2 ^ elemWidth t, upTo t larger (pickIdentity t larger) x := by
  have half : 0 < 2 ^ (elemWidth t - 1) := by positivity
  simp only [pickIdentity, ht, Bool.false_eq_true, if_false, upTo, elemInt_eq, pow_elemWidth t]
  generalize 2 ^ (elemWidth t - 1) = h at half
  cases isSigned t <;> cases larger <;> simp only [Bool.false_eq_true, false_and, true_and, if_false, if_true] <;>
    refine ⟨by omega, fun x hx => ?_⟩ <;> omega

/-- The tree of a pick over the masked elements: one of the active ones, where there are any, past which none of them lies. -/
theorem tree_extremum {t : BitVec 3} (ht : isFloat t = false) (larger : Bool) (m : Word) (x : Vec) :
    let live := (List.range (2048 / elemWidth t)).filter fun i => activeBit (elemWidth t) m i
    let c := (tree (pickElem t larger) (masked (elemWidth t) m (pickIdentity t larger) x)).1
    c < 2 ^ elemWidth t ∧ (live ≠ [] → ∃ j ∈ live, c = el (elemWidth t) x j) ∧ ∀ j ∈ live, upTo t larger (el (elemWidth t) x j) c := by
  intro live c
  obtain ⟨small, first⟩ := pickIdentity_first ht larger
  have active {j : Nat} (hj : j ∈ live) : j < 2048 / elemWidth t ∧ activeBit (elemWidth t) m j = true := by
    simpa [live] using hj
  obtain ⟨-, ⟨i, -, hi, hc⟩, hpast⟩ := (blocks_extremum ht larger (2048 / elemWidth t)
    fun i => if activeBit (elemWidth t) m i then el (elemWidth t) x i else pickIdentity t larger).root
    (k := Nat.log2 (2048 / elemWidth t)) (by rw [List.length_map, List.length_range]; exact lanes_eq_pow t)
  rw [List.length_map, List.length_range] at hi hpast
  rw [← masked_eq] at hc hpast
  have past : ∀ j ∈ live, upTo t larger (el (elemWidth t) x j) c := fun j hj => by
    simpa only [(active hj).2, if_true] using hpast j (Nat.zero_le _) (active hj).1
  cases ha : activeBit (elemWidth t) m i with
  | true =>
    have hc : c = el (elemWidth t) x i := by simpa only [ha, if_true] using hc
    exact ⟨hc ▸ el_lt .., fun _ => ⟨i, by simp [live, hi, ha], hc⟩, past⟩
  | false =>
    have hc : c = pickIdentity t larger := by simpa only [ha, Bool.false_eq_true, if_false] using hc
    refine ⟨hc ▸ small, fun hne => ?_, past⟩
    obtain ⟨j, hj⟩ := List.exists_mem_of_ne_nil _ hne
    refine ⟨j, hj, elemInt_inj (hc ▸ small) (el_lt ..) ?_⟩
    have below := first _ (el_lt (elemWidth t) x j)
    have above := past j hj
    rw [← hc] at below
    unfold upTo at below above
    cases larger
    · exact le_antisymm above below
    · exact le_antisymm below above

end Sys2Proof.Machine
end

section
/-! The operations across lanes (R149, R259 to R266). -/
namespace Sys2Proof.Machine

/-! ## Reductions, scans and ranks -/

theorem no_acc {s : State} (c : BitVec 6) (h : none = some c) : s.ctx.trust = true ∨ s.ctx.readyAt c ≤ s.now := nomatch h

/-- R259: the root of the tree goes to every element. -/
theorem reduceLanes_next {s : State} {f : AW} (h : s.canVector f false = true) (ident : Nat → Nat) (op : Nat → Nat → Nat → Nat × BitVec 11) :
    let root := tree (op s.ctx.frm.toNat) (masked (elemWidth f.t) (s.opK f) (ident s.ctx.frm.toNat) (s.opA f))
    ∃ t r, finish (reduceLanes f ident op) s = .next t ∧
      ((s.taken f false).flagged root.2).vwrote t f.t f.d 6 r (BitVec.allOnes 64) ∧
      ∀ i < 2048 / elemWidth f.t, el (elemWidth f.t) r i = root.1 % 2 ^ elemWidth f.t := by
  intro root
  obtain ⟨t, ht, hw⟩ := vector_next h (o := finish (reduceLanes f ident op) s) rfl (fl := root.2) (lat := 6)
    (r := pack (elemWidth f.t) (List.replicate (2048 / elemWidth f.t) root.1)) (k := BitVec.allOnes 64) (by
      simp only [reduceLanes, bind_run, operands_run h no_acc, getC_run, taken_frm]
      rfl)
  refine ⟨t, _, ht, hw, fun i hi => ?_⟩
  rw [el_pack hi, List.getD_replicate _ hi]

/-- R259: a sum. -/
theorem vrsum_next {s : State} {f : AW} (h : s.canVector f false = true) :
    let w := elemWidth f.t
    let add := addElem f.t s.ctx.frm.toNat
    let adds := masked w (s.opK f) (sumIdentity f.t s.ctx.frm.toNat) (s.opA f)
    ∃ t r fl, exec (.vrsum f) s = .next t ∧ ((s.taken f false).flagged fl).vwrote t f.t f.d 6 r (BitVec.allOnes 64) ∧
      (fl = (tree add adds).2) ∧ ∀ i < 2048 / w, el w r i = (tree add adds).1 % 2 ^ w ∧
        (isFloat f.t = false → el w r i =
          (((List.range (2048 / w)).filter fun i => activeBit w (s.opK f) i).map fun j => el w (s.opA f) j).sum % 2 ^ w) := by
  obtain ⟨t, r, ht, hw, hr⟩ := reduceLanes_next h (sumIdentity f.t) (addElem f.t)
  exact ⟨t, r, _, ht, hw, rfl, fun i hi => ⟨hr i hi, fun hf => (hr i hi).trans (tree_sum hf ..)⟩⟩

theorem pickElem_unflagged (t : BitVec 3) (larger : Bool) (a b : Nat) : (pickElem t larger a b).2 = 0 := by
  unfold pickElem
  dsimp only
  split
  · split <;> rfl
  · rfl

/-- R259: a maximum or minimum. -/
theorem pick_next {s : State} {f : AW} (h : s.canVector f false = true) {larger : Bool} {i : Instr}
    (he : exec i s = finish (reduceLanes f (fun _ => pickIdentity f.t larger) fun _ => pickElem f.t larger) s) :
    let w := elemWidth f.t
    let live := (List.range (2048 / w)).filter fun i => activeBit w (s.opK f) i
    ∃ t r, exec i s = .next t ∧ (s.taken f false).vwrote t f.t f.d 6 r (BitVec.allOnes 64) ∧ ∀ i < 2048 / w,
      (isFloat f.t = true → el w r i = (tree (pickElem f.t larger) (masked w (s.opK f) (pickIdentity f.t larger) (s.opA f))).1 % 2 ^ w) ∧
      (isFloat f.t = false → (live ≠ [] → ∃ j ∈ live, el w r i = el w (s.opA f) j) ∧
        ∀ j ∈ live, if larger then elemInt f.t (el w (s.opA f) j) ≤ elemInt f.t (el w r i)
          else elemInt f.t (el w r i) ≤ elemInt f.t (el w (s.opA f) j)) := by
  obtain ⟨t, r, ht, hw, hr⟩ := reduceLanes_next h (fun _ => pickIdentity f.t larger) fun _ => pickElem f.t larger
  have unflagged (l : List Nat) : (tree (pickElem f.t larger) l).2 = 0 := treeLevels_unflagged (pickElem_unflagged f.t larger) _ l
  rw [unflagged, taken_flagged_zero] at hw
  refine ⟨t, r, he.trans ht, hw, fun i hi => ⟨fun _ => hr i hi, fun hf => ?_⟩⟩
  obtain ⟨small, one, past⟩ := tree_extremum hf larger (s.opK f) (s.opA f)
  rw [hr i hi, Nat.mod_eq_of_lt small]
  exact ⟨one, past⟩

/-- R260: the prefixes. -/
theorem vscan_next {s : State} {f : AW} (h : s.canVector f false = true) :
    let w := elemWidth f.t
    let n := 2048 / w
    let add := addElem f.t s.ctx.frm.toNat
    let nodes := treeLevels add (Nat.log2 n) (masked w (s.opK f) (sumIdentity f.t s.ctx.frm.toNat) (s.opA f))
    let scan := fun i => scanAt add nodes.1 (i + 1) (Nat.log2 n + 1) 0 none 0
    let live := (List.range n).filter fun i => activeBit w (s.opK f) i
    ∃ t r fl, exec (.vscan f) s = .next t ∧ ((s.taken f false).flagged fl).vwrote t f.t f.d 6 r (BitVec.allOnes 64) ∧
      fl = (List.range n).foldl (fun acc i => acc ||| (scan i).2) nodes.2 ∧ ∀ i < n,
      el w r i = if isFloat f.t then (scan i).1 % 2 ^ w
        else ((live.filter fun j => decide (j ≤ i)).map fun j => el w (s.opA f) j).sum % 2 ^ w := by
  intro w n add nodes scan live
  obtain ⟨t, ht, hw⟩ := vector_next h (o := exec (.vscan f) s) rfl
    (fl := (List.range n).foldl (fun acc i => acc ||| (scan i).2) nodes.2) (lat := 6)
    (r := pack w ((List.range n).map fun i => (scan i).1)) (k := BitVec.allOnes 64) (by
      simp only [bind_run, operands_run h no_acc, getC_run, taken_frm, List.foldl_map, List.map_map]
      rfl)
  refine ⟨t, _, _, ht, hw, rfl, fun i hi => ?_⟩
  rw [el_pack_map hi]
  cases hf : isFloat f.t with
  | true => rfl
  | false => exact scan_sum hf _ _ _ hi

theorem lanes_le_pow (t : BitVec 3) : 2048 / elemWidth t ≤ 2 ^ elemWidth t := by
  rcases elemWidth_cases t with h | h | h | h <;> rw [h] <;> decide

/-- R261: how many active elements come before each. -/
theorem vrank_next {s : State} {f : AW} (h : s.canVector f false = true) :
    let w := elemWidth f.t
    let n := 2048 / w
    let live := (List.range n).filter fun i => activeBit w (s.opK f) i
    ∃ t r, exec (.vrank f) s = .next t ∧ (s.taken f false).vwrote t f.t f.d 6 r (s.opK f) ∧ ∀ i < n,
      let key := fun j => rankKey f.t (el w (s.opA f) j)
      el w r i = live.countP fun j => decide (key j < key i) || (decide (key j = key i) && decide (j < i)) := by
  intro w n live
  let key := fun j => rankKey f.t (el w (s.opA f) j)
  let before := fun i j => decide (key j < key i) || (decide (key j = key i) && decide (j < i))
  have ranks : (elems w (s.opA f)).map (rankKey f.t) = (List.range n).map key := by rw [elems_eq, List.map_map]; rfl
  obtain ⟨t, ht, hw⟩ := vector_next_unflagged h (o := exec (.vrank f) s) rfl (lat := 6)
    (r := pack w ((List.range n).map fun i => live.countP (before i))) (k := s.opK f) (by
      simp only [bind_run, operands_run h no_acc]
      refine congrArg (fun l => writeDest f.t f.d 6 (pack w l) (s.opK f) (s.taken f false)) ?_
      rw [ranks, zip_map_range, List.map_map]
      refine List.map_congr_left fun i _ => ?_
      rw [Function.comp_apply, List.filter_map, List.filter_map, List.length_map, ← List.countP_eq_length_filter]
      rfl)
  refine ⟨t, _, ht, hw, fun i hi => ?_⟩
  have others : live.countP (before i) < n := by
    refine Nat.lt_of_le_of_lt List.filter_sublist.countP_le ?_
    have self : ∃ j ∈ List.range n, before i j = false := ⟨i, List.mem_range.2 hi, by simp [before]⟩
    simpa using List.countP_lt_length_iff.2 self
  rw [el_pack_map hi]
  exact Nat.mod_eq_of_lt (Nat.lt_of_lt_of_le others (lanes_le_pow f.t))

/-! ## Moving lanes -/

theorem laneWidth_fits (t : BitVec 3) : 0 < 2048 / laneWidth t := by
  revert t
  decide

/-- R262: lanes of A, moved as B tells. -/
theorem moveLanes_next {s : State} {f : AW} (h : s.canVector f true = true) {i : Instr} (src : List Nat → Nat → Nat → Nat) (at' : Nat → Nat)
    (he : exec i s = finish (moveLanes f src) s)
    (hs : ∀ i < 2048 / laneWidth f.t, src ((List.range (2048 / laneWidth f.t)).map (el (laneWidth f.t) (s.opB f))) (2048 / laneWidth f.t) i = at' i) :
    let w := laneWidth f.t
    let n := 2048 / w
    ∃ t r, exec i s = .next t ∧ (s.taken f true).vwrote t f.t f.d 3 r (s.opK f) ∧ ∀ i < n, el w r i = el w (s.opA f) (at' i % n) := by
  intro w n
  obtain ⟨t, ht, hw⟩ := vector_next_unflagged h he (lat := 3)
    (r := pack w ((List.range n).map fun i => el w (s.opA f) (at' i % n))) (k := s.opK f) (by
      simp only [moveLanes, bind_run, operands_run h no_acc, if_true]
      refine congrArg (fun l => writeDest f.t f.d 3 (pack w l) (s.opK f) (s.taken f true)) (List.map_congr_left fun i hi => ?_)
      rw [List.mem_range] at hi
      rw [elems_eq, elems_eq, hs i hi, getD_map_range _ _ (Nat.mod_lt _ (laneWidth_fits f.t))])
  refine ⟨t, _, ht, hw, fun i hi => ?_⟩
  rw [el_pack_map hi, el_mod]

theorem headD_map_range (g : Nat → Nat) {n : Nat} (h : 0 < n) : ((List.range n).map g).headD 0 = g 0 := by
  obtain ⟨k, rfl⟩ := Nat.exists_eq_succ_of_ne_zero h.ne'
  rw [List.range_succ_eq_map]
  rfl

/-- R262: the chosen lanes of A one after another, then zeros. -/
theorem vcompr_next {s : State} {f : AW} (h : s.canVector f false = true) :
    let w := laneWidth f.t
    let n := 2048 / w
    let chosen := (List.range n).filter fun i => (s.opK f).getLsbD i
    ∃ t r, exec (.vcompr f) s = .next t ∧ (s.taken f false).vwrote t f.t f.d 3 r (BitVec.allOnes 64) ∧
      ∀ i < n, el w r i = if h : i < chosen.length then el w (s.opA f) chosen[i] else 0 := by
  intro w n chosen
  obtain ⟨t, ht, hw⟩ := vector_next_unflagged h (o := exec (.vcompr f) s) rfl (lat := 3)
    (r := pack w (chosen.map (el w (s.opA f)))) (k := BitVec.allOnes 64) (by
      simp only [bind_run, operands_run h no_acc]
      refine congrArg (fun l => writeDest f.t f.d 3 (pack w l) (BitVec.allOnes 64) (s.taken f false)) ?_
      rw [elems_eq, zip_map_range, List.filter_map, List.map_map]
      rfl)
  refine ⟨t, _, ht, hw, fun i hi => ?_⟩
  rw [el_pack hi, List.getD_eq_getElem?_getD]
  split
  case isTrue hc => simp [hc]
  case isFalse hc => simp [hc]

/-- R263: consecutive lanes of A to the chosen lanes. -/
theorem vexpnd_next {s : State} {f : AW} (h : s.canVector f false = true) :
    let w := laneWidth f.t
    let n := 2048 / w
    let chosen := (List.range n).filter fun i => (s.opK f).getLsbD i
    ∃ t r, exec (.vexpnd f) s = .next t ∧ (s.taken f false).vwrote t f.t f.d 3 r (s.opK f) ∧
      ∀ i < n, (s.opK f).getLsbD i = true → el w r i = el w (s.opA f) (chosen.countP fun j => decide (j < i)) := by
  intro w n chosen
  obtain ⟨t, ht, hw⟩ := vector_next_unflagged h (o := exec (.vexpnd f) s) rfl (lat := 3)
    (r := pack w ((List.range n).map fun i => el w (s.opA f) (chosen.countP fun j => decide (j < i)))) (k := s.opK f) (by
      simp only [bind_run, operands_run h no_acc]
      refine congrArg (fun l => writeDest f.t f.d 3 (pack w l) (s.opK f) (s.taken f false)) (List.map_congr_left fun i hi => ?_)
      rw [List.mem_range] at hi
      have before : (chosen.countP fun j => decide (j < i)) = ((List.range i).filter fun j => (s.opK f).getLsbD j).length := by
        rw [List.countP_eq_length_filter, List.filter_comm, filter_le_range (Nat.le_of_lt hi)]
      have few : ((List.range i).filter fun j => (s.opK f).getLsbD j).length < n :=
        Nat.lt_of_le_of_lt (List.length_filter_le _ _) (by rw [List.length_range]; exact hi)
      rw [before, elems_eq, getD_map_range _ _ few])
  refine ⟨t, _, ht, hw, fun i hi _ => ?_⟩
  rw [el_pack_map hi, el_mod]

/-! ## Hashes -/

/-- R149, R264: two operands to a result, lane by lane. -/
theorem hashLanes_next {s : State} {f : AW} (h : s.canVector f true = true) {i : Instr} (op : Nat → Nat → Nat → Nat)
    (he : exec i s = finish (hashLanes f op) s) :
    let w := elemWidth f.t
    ∃ t r, exec i s = .next t ∧ (s.taken f true).vwrote t f.t f.d 5 r (s.opK f) ∧
      ∀ i < 2048 / w, el w r i = op i (el w (s.opA f) i) (el w (s.opB f) i) % 2 ^ w := by
  intro w
  obtain ⟨t, ht, hw⟩ := vector_next_unflagged h he (lat := 5)
    (r := pack w ((List.range (2048 / w)).map fun i => op i (el w (s.opA f) i) (el w (s.opB f) i))) (k := s.opK f) (by
      simp only [hashLanes, bind_run, operands_run h no_acc, if_true]
      refine congrArg (fun l => writeDest f.t f.d 5 (pack w l) (s.opK f) (s.taken f true)) ?_
      rw [elems_eq, elems_eq, List.zip, zipWith_map_range, List.zipWith_map_left, List.zipWith_self])
  exact ⟨t, _, ht, hw, fun i hi => el_pack_map hi _⟩

/-! ## The triple merge -/

/-- A flag of several elements is one of those that count. -/
theorem foldl_flags {α : Type} (p : α → Bool) (g : α → BitVec 11) (l : List α) (fl : BitVec 11) (j : Nat) :
    (l.foldl (fun acc e => if p e then acc ||| g e else acc) fl).getLsbD j = true ↔
      fl.getLsbD j = true ∨ ∃ e ∈ l, p e = true ∧ (g e).getLsbD j = true := by
  induction l generalizing fl with
  | nil => simp
  | cons e l ih =>
    rw [List.foldl_cons, ih]
    cases hp : p e <;> simp [hp, or_assoc]

/-- Those of the elements 0 to n - 1 that count. -/
theorem foldl_flags_range (p : Nat → Bool) (g : Nat → BitVec 11) (n j : Nat) :
    ((List.range n).foldl (fun acc i => if p i then acc ||| g i else acc) 0).getLsbD j = true ↔
      ∃ i < n, p i = true ∧ (g i).getLsbD j = true := by
  rw [foldl_flags]
  simp

/-- Entry j of block i, when a list is made of blocks of k. -/
theorem getD_flatMap {α β : Type} (g : α → List β) (d : β) {k : Nat} (hg : ∀ a, (g a).length = k) (l : List α) {i j : Nat} (hj : j < k) :
    (l.flatMap g).getD (k * i + j) d = (l[i]?.map fun a => (g a).getD j d).getD d := by
  induction l generalizing i with
  | nil => simp
  | cons a l ih =>
    rw [List.flatMap_cons, List.getD_eq_getElem?_getD]
    cases i with
    | zero => rw [Nat.mul_zero, Nat.zero_add, List.getElem?_append_left (by rw [hg]; exact hj)]; simp
    | succ i =>
      rw [List.getElem?_append_right (by rw [hg, Nat.mul_succ]; omega), hg, ← List.getD_eq_getElem?_getD,
        show k * (i + 1) + j - k = k * i + j by rw [Nat.mul_succ]; omega, ih]
      rfl

theorem getD_flatMap_range {β : Type} (g : Nat → List β) (d : β) {k n : Nat} (hg : ∀ a, (g a).length = k) {i j : Nat} (hi : i < n) (hj : j < k) :
    ((List.range n).flatMap g).getD (k * i + j) d = (g i).getD j d := by
  rw [getD_flatMap g d hg _ hj]
  simp [hi]

/-- Four elements of a row. -/
theorem row_getD (x : Vec) {q b : Nat} (hq : q < 16) (hb : b < 4) :
    (((elems 32 x).drop (4 * q)).take 4).getD b 0 = el 32 x (4 * q + b) := by
  rw [List.getD_eq_getElem?_getD, List.getElem?_take_of_lt hb, List.getElem?_drop, elems_eq, ← List.getD_eq_getElem?_getD,
    getD_map_range _ _ (by omega)]

/-- The heads of row q of a merge. -/
def rowHeads (x y : Vec) (q : Nat) : Nat × Nat × Nat × BitVec 11 :=
  mergeHead (el 32 x (4 * q)) (el 32 x (4 * q + 1)) (el 32 y (4 * q)) (el 32 y (4 * q + 1))

theorem headRow_eq (x y : Vec) {q : Nat} (hq : q < 16) :
    headRow (((elems 32 x).drop (4 * q)).take 4) (((elems 32 y).drop (4 * q)).take 4) =
      ([(rowHeads x y q).1, (rowHeads x y q).2.1, (rowHeads x y q).2.2.1, 0], (rowHeads x y q).2.2.2) := by
  simp only [headRow, row_getD _ hq (show 0 < 4 by decide), row_getD _ hq (show 1 < 4 by decide)]
  rfl

/-- A row counts when one of its four lanes is active. -/
theorem row_active (m : Word) (q : Nat) : (decide (bits m (4 * q) 4 ≠ 0)) = true ↔ ∃ b < 4, m.getLsbD (4 * q + b) = true := by
  rw [decide_eq_true_eq, ne_eq, BitVec.eq_of_getLsbD_eq_iff]
  simp [BitVec.getLsbD_extractLsb']

/-- R265: the heads of each row. -/
theorem vtmrg_next {s : State} {f : AW} (h : s.canVector f true = true) :
    let hd := rowHeads (s.opA f) (s.opB f)
    ∃ t r fl, exec (.vtmrg f) s = .next t ∧ ((s.taken f true).flagged fl).vwrote t f.t f.d 4 r (s.opK f) ∧
      (∀ q < 16, el 32 r (4 * q) = (hd q).1 % 2 ^ 32 ∧ el 32 r (4 * q + 1) = (hd q).2.1 % 2 ^ 32 ∧
        el 32 r (4 * q + 2) = (hd q).2.2.1 % 2 ^ 32 ∧ el 32 r (4 * q + 3) = 0) ∧
      ∀ j < 11, fl.getLsbD j = true ↔ ∃ q < 16, (∃ b < 4, (s.opK f).getLsbD (4 * q + b) = true) ∧ (hd q).2.2.2.getLsbD j = true := by
  intro hd
  let lanes := fun q => [(hd q).1, (hd q).2.1, (hd q).2.2.1, 0]
  have rows : ((List.range 16).map fun q => headRow (((elems 32 (s.opA f)).drop (4 * q)).take 4) (((elems 32 (s.opB f)).drop (4 * q)).take 4)) =
      (List.range 16).map fun q => (lanes q, (hd q).2.2.2) :=
    List.map_congr_left fun q hq => headRow_eq _ _ (List.mem_range.1 hq)
  obtain ⟨t, ht, hw⟩ := vector_next h (o := exec (.vtmrg f) s) rfl (lat := 4)
    (fl := (List.range 16).foldl (fun acc q => if decide (bits (s.opK f) (4 * q) 4 ≠ 0) then acc ||| (hd q).2.2.2 else acc) 0)
    (r := pack 32 ((List.range 16).flatMap lanes)) (k := s.opK f) (by
      simp only [bind_run, operands_run h no_acc, if_true]
      rw [rows, zip_map_range]
      simp only [List.foldl_map, List.flatMap_map, decide_eq_true_eq, ne_eq, ite_not])
  have lane {q b : Nat} (hq : q < 16) (hb : b < 4) : el 32 (pack 32 ((List.range 16).flatMap lanes)) (4 * q + b) = (lanes q).getD b 0 % 2 ^ 32 := by
    rw [el_pack (by omega), getD_flatMap_range lanes 0 (fun _ => rfl) hq hb]
  refine ⟨t, _, _, ht, hw, fun q hq => ⟨?_, ?_, ?_, ?_⟩, fun j _ => ?_⟩
  · exact lane hq (b := 0) (by decide)
  · exact lane hq (b := 1) (by decide)
  · exact lane hq (b := 2) (by decide)
  · exact lane hq (b := 3) (by decide)
  · rw [foldl_flags_range]
    simp only [row_active]

/-- A register or result-queue entry is read with nothing taken. -/
theorem readSrc_register (s : State) (t : BitVec 3) {c : BitVec 6} (h : c.toNat < 48) : readSrc t c s = .ok (s.source t c, s) := by
  unfold readSrc State.source
  simp only [bind_run, get_run]
  by_cases h16 : c.toNat < 16
  · rw [if_pos h16, if_pos h16]
    rfl
  · rw [if_neg h16, if_neg h16, if_pos h, if_pos h]
    rfl

theorem accCode_lt (d : BitVec 6) : (accCode d).toNat < 48 := by
  unfold accCode
  split
  case isTrue h => exact ((isV_iff d).1 h).2
  case isFalse => decide

/-- R266: one element of each merged vector. -/
theorem vtscl_next {s : State} {f : AW} (h : s.canVector f true = true) (hl : s.canSource (accCode f.d) = true) :
    let c := fun i => mergeElem (el 32 (s.source f.t (accCode f.d)) i) (el 32 (s.opA f) i) (el 32 (s.opB f) i)
    ∃ t r fl, exec (.vtscl f) s = .next t ∧ ((s.taken f true).flagged fl).vwrote t f.t f.d 4 r (s.opK f) ∧
      (∀ i < 64, el 32 r i = (c i).1 % 2 ^ 32) ∧
      ∀ j < 11, fl.getLsbD j = true ↔ ∃ i < 64, (s.opK f).getLsbD i = true ∧ (c i).2.getLsbD j = true := by
  intro c
  obtain ⟨-, hready, -⟩ := (canSource_iff s (accCode f.d)).1 hl
  have third : ∀ c, some (accCode f.d) = some c → s.ctx.trust = true ∨ s.ctx.readyAt c ≤ s.now := fun _ hc => Option.some.inj hc ▸ hready
  have elements : List.zipWith (fun (p : Nat × Nat) c => mergeElem p.1 p.2 c)
      ((elems 32 (s.source f.t (accCode f.d))).zip (elems 32 (s.opA f))) (elems 32 (s.opB f)) = (List.range 64).map c := by
    rw [elems_eq, elems_eq, elems_eq, List.zip, zipWith_map_range, zipWith_map_range]
  obtain ⟨t, ht, hw⟩ := vector_next h (o := exec (.vtscl f) s) rfl (lat := 4)
    (fl := (List.range 64).foldl (fun acc i => if (s.opK f).getLsbD i then acc ||| (c i).2 else acc) 0)
    (r := pack 32 ((List.range 64).map fun i => (c i).1)) (k := s.opK f) (by
      have left : readSrc f.t (if isV f.d then f.d else 0) s = .ok (s.source f.t (accCode f.d), s) := readSrc_register s f.t (accCode_lt f.d)
      have taken : operands f true (some (if isV f.d then f.d else 0)) s = _ := operands_run h third
      simp only [bind_run, left, taken, if_true, elements, zip_map_range, List.foldl_map, List.map_map]
      rfl)
  refine ⟨t, _, _, ht, hw, fun i hi => el_pack_map (w := 32) hi _, fun j _ => ?_⟩
  exact foldl_flags_range _ _ 64 j

/-! ## The statement -/

/-- Settles O32: instruction by instruction, each by the lemma that says what it writes. -/
theorem vectorLanes : Obligations.VectorLanes := by
  refine ⟨fun f s h => ⟨vrsum_next h,
      List.forall_mem_cons.2 ⟨pick_next h rfl, List.forall_mem_singleton.2 (pick_next h rfl)⟩, vscan_next h, vrank_next h⟩,
    fun f s => ⟨⟨fun h => ?_, fun h => ⟨vcompr_next h, vexpnd_next h⟩⟩, fun h => ⟨?_, vtmrg_next h, vtscl_next h⟩⟩⟩
  · refine List.forall_mem_cons.2 ⟨?_, List.forall_mem_cons.2 ⟨?_, List.forall_mem_singleton.2 ?_⟩⟩
    · exact moveLanes_next h _ _ rfl fun i hi => getD_map_range _ _ hi
    · exact moveLanes_next h _ _ rfl fun i _ => by rw [headD_map_range _ (laneWidth_fits f.t)]; rfl
    · exact moveLanes_next h _ _ rfl fun i _ => headD_map_range _ (laneWidth_fits f.t)
  · exact List.forall_mem_cons.2 ⟨hashLanes_next h _ rfl, List.forall_mem_cons.2 ⟨hashLanes_next h _ rfl,
      List.forall_mem_singleton.2 (hashLanes_next h _ rfl)⟩⟩

end Sys2Proof.Machine
end

section
/-! The bytes of a tile's scratch (R114): a read is its bytes, a write is read back. -/
namespace Sys2Proof.Machine

/-! ## The lines of a span -/

/-- How many of the n bytes from va on lie in the first m lines that they touch. -/
def pieceEnd (va n m : Nat) : Nat := min (va + n) ((va / 128 + m) * 128) - va

/-- How many lines n bytes from va on touch. -/
def pieceCount (va n : Nat) : Nat := if n = 0 then 0 else (va % 128 + n + 127) / 128

theorem pieceEnd_zero (va n : Nat) : pieceEnd va n 0 = 0 := by
  unfold pieceEnd
  omega

theorem pieceEnd_count (va n : Nat) : pieceEnd va n (pieceCount va n) = n := by
  unfold pieceEnd pieceCount
  split <;> omega

/-- Piece m begins where the pieces before it end, and lies in one line. -/
theorem pieceEnd_succ (va n : Nat) {m : Nat} (h : m < pieceCount va n) :
    pieceEnd va n m ≤ pieceEnd va n (m + 1) ∧
      (va + pieceEnd va n m) % 128 + (pieceEnd va n (m + 1) - pieceEnd va n m) ≤ 128 := by
  unfold pieceCount at h
  unfold pieceEnd
  split at h <;> omega

theorem pieces_eq (va n : Nat) : pieces va n = (List.range (pieceCount va n)).map fun m =>
    (va + pieceEnd va n m, (va + pieceEnd va n m) % 128, pieceEnd va n (m + 1) - pieceEnd va n m, pieceEnd va n m) := by
  refine List.map_congr_left fun m hm => ?_
  have hm : m < pieceCount va n := List.mem_range.1 hm
  unfold pieceCount at hm
  have start : (if m = 0 then va else (va / 128 + m) * 128) = va + pieceEnd va n m := by
    unfold pieceEnd
    split at hm <;> split <;> omega
  have stop : min (va + n) ((va / 128 + m + 1) * 128) - (va + pieceEnd va n m) = pieceEnd va n (m + 1) - pieceEnd va n m := by
    unfold pieceEnd
    omega
  simp only [start, stop, Nat.add_sub_cancel_left]

/-! ## Bytes -/

theorem byte_lt (x : Tile) (o : Nat) : x.byte o < 256 := Nat.mod_lt _ (by decide)

theorem packNat_map_mod (w : Nat) (l : List Nat) : packNat w (l.map (· % 2 ^ w)) = packNat w l := by
  induction l with
  | nil => rfl
  | cons a l ih => rw [List.map_cons, packNat, packNat, ih, Nat.mod_mod]

/-- n bytes of a tile from o on, as a number. -/
def Tile.bytesAt (x : Tile) (o n : Nat) : Nat := packNat 8 ((List.range n).map fun i => x.byte (o + i))

theorem bytesAt_add (x : Tile) (o n k : Nat) : x.bytesAt o (n + k) = x.bytesAt o n + 2 ^ (8 * n) * x.bytesAt (o + n) k := by
  simp only [Tile.bytesAt, List.range_add, List.map_append, packNat_append, List.length_map, List.length_range, List.map_map, Function.comp_def,
    Nat.add_assoc]

/-- Bytes within one line. -/
theorem bytesAt_line (x : Tile) {o n : Nat} (h : o % 128 + n ≤ 128) :
    x.bytesAt o n = (x.pin (o / 128)).data.toNat / 2 ^ (8 * (o % 128)) % 2 ^ (8 * n) := by
  rw [← packNat_digits 8 n, ← packNat_map_mod, List.map_map, Tile.bytesAt]
  refine congrArg (packNat 8) (List.map_congr_left fun i hi => ?_)
  have hi := List.mem_range.1 hi
  rw [Function.comp_apply, Tile.byte, show (o + i) / 128 = o / 128 by omega, show (o + i) % 128 = o % 128 + i by omega, Nat.mul_add,
    Nat.pow_add, Nat.div_div_eq_div_mul]
  rfl

/-- A read gives its bytes. -/
theorem localRead_eq (x : Tile) (o n : Nat) : x.localRead o n = x.bytesAt o n := by
  have upTo (m : Nat) (hm : m ≤ pieceCount o n) : (List.range m).foldl (fun v k =>
      v + ((x.pin ((o + pieceEnd o n k) / 128)).data.toNat / 2 ^ (8 * ((o + pieceEnd o n k) % 128))) %
        2 ^ (8 * (pieceEnd o n (k + 1) - pieceEnd o n k)) * 2 ^ (8 * pieceEnd o n k)) 0 = x.bytesAt o (pieceEnd o n m) := by
    induction m with
    | zero => rw [pieceEnd_zero]; rfl
    | succ m ih =>
      obtain ⟨mono, inLine⟩ := pieceEnd_succ o n hm
      rw [List.range_succ, List.foldl_append, ih (by omega), List.foldl_cons, List.foldl_nil, ← bytesAt_line x inLine, Nat.mul_comm,
        ← bytesAt_add, Nat.add_sub_cancel' mono]
  rw [Tile.localRead, pieces_eq, List.foldl_map, upTo _ (Nat.le_refl _), pieceEnd_count]

/-- Byte i of a read. -/
theorem localRead_byte (x : Tile) (o : Nat) {n i : Nat} (h : i < n) : x.localRead o n / 2 ^ (8 * i) % 2 ^ 8 = x.byte (o + i) := by
  rw [localRead_eq, Tile.bytesAt, packNat_digit, getD_map_range _ _ h]
  exact Nat.mod_eq_of_lt (byte_lt ..)

/-! ## Writes -/

theorem byteBits_getLsbD (mask : ByteMask) {i : Nat} (h : i < 1024) : (byteBits mask).getLsbD i = mask.getLsbD (i / 8) := by
  rw [byteBits, BitVec.getLsbD_ofNat, spread_testBit (by decide)]
  simp [h]

theorem spanBytes_getLsbD (off n : Nat) {i : Nat} (h : i < 128) : (spanBytes off n).getLsbD i = (decide (off ≤ i) && decide (i < off + n)) := by
  rw [spanBytes, BitVec.getLsbD_ofNat, Nat.mul_comm, Nat.testBit_two_pow_mul, Nat.testBit_two_pow_sub_one]
  by_cases ho : off ≤ i
  · simp [h, ho, show (i - off < n) = (i < off + n) by simp only [eq_iff_iff]; omega]
  · simp [ho]

/-- Byte r of a line is 8 of its bits. -/
theorem lineByte_testBit (d : LineData) (r j : Nat) : (d.toNat / 2 ^ (8 * r) % 256).testBit j = (decide (j < 8) && d.getLsbD (8 * r + j)) := by
  rw [show 256 = 2 ^ 8 by rfl, Nat.testBit_mod_two_pow, Nat.testBit_div_two_pow, Nat.add_comm j]
  rfl

/-- A byte of a line after enabled bytes of it have changed. -/
theorem lineByte_blend (d : LineData) (v pos : Nat) {off len r : Nat} (hr : r < 128) :
    (blend (byteBits (spanBytes off len)) d (placeBytes v pos off len)).toNat / 2 ^ (8 * r) % 256 =
      if off ≤ r ∧ r < off + len then v / 2 ^ (8 * (pos + (r - off))) % 256 else d.toNat / 2 ^ (8 * r) % 256 := by
  refine Nat.eq_of_testBit_eq fun j => ?_
  rw [lineByte_testBit]
  by_cases hj : j < 8
  · rw [blend_getLsbD, byteBits_getLsbD _ (by omega), show (8 * r + j) / 8 = r by omega, spanBytes_getLsbD _ _ hr]
    by_cases hin : off ≤ r ∧ r < off + len
    · have place : (placeBytes v pos off len).getLsbD (8 * r + j) = v.testBit (8 * (pos + (r - off)) + j) := by
        rw [placeBytes, BitVec.getLsbD_ofNat, Nat.mul_comm _ (2 ^ (8 * off)), Nat.testBit_two_pow_mul, Nat.testBit_mod_two_pow, Nat.testBit_div_two_pow]
        simp only [show 8 * r + j < 1024 by omega, show 8 * off ≤ 8 * r + j by omega, show 8 * r + j - 8 * off < 8 * len by omega,
          decide_true, Bool.true_and]
        congr 1
        omega
      rw [if_pos hin, place, show 256 = 2 ^ 8 by rfl, Nat.testBit_mod_two_pow, Nat.testBit_div_two_pow, Nat.add_comm j]
      simp [hin]
    · have : (decide (off ≤ r) && decide (r < off + len)) = false := by simpa using hin
      rw [this, if_neg hin, if_neg Bool.false_ne_true, lineByte_testBit]
  · rw [decide_eq_false hj, Bool.false_and]
    refine (Nat.testBit_lt_two_pow (Nat.lt_of_lt_of_le ?_ (Nat.pow_le_pow_right (by decide) (Nat.le_of_not_lt hj)))).symm
    split <;> exact Nat.mod_lt _ (by decide)

/-- A byte of a tile after enabled bytes of one of its lines have changed. -/
theorem localLine_byte (x : Tile) (l v pos off len o : Nat) :
    (x.localLine l (spanBytes off len) (placeBytes v pos off len)).byte o =
      if o / 128 = l ∧ off ≤ o % 128 ∧ o % 128 < off + len then v / 2 ^ (8 * (pos + (o % 128 - off))) % 256 else x.byte o := by
  unfold Tile.byte Tile.localLine Tile.pin
  rw [mget_mset]
  by_cases hl : o / 128 = l
  · subst hl
    rw [if_pos rfl]
    simp only [true_and]
    exact lineByte_blend _ _ _ (Nat.mod_lt _ (by decide))
  · simp [hl]

/-- A byte of a tile after a write. -/
theorem localWrite_byte (x : Tile) (o n v a : Nat) :
    (x.localWrite o n v).byte a = if o ≤ a ∧ a < o + n then v / 2 ^ (8 * (a - o)) % 256 else x.byte a := by
  have upTo (m : Nat) (hm : m ≤ pieceCount o n) : ((List.range m).foldl (fun x k =>
      x.localLine ((o + pieceEnd o n k) / 128) (spanBytes ((o + pieceEnd o n k) % 128) (pieceEnd o n (k + 1) - pieceEnd o n k))
        (placeBytes v (pieceEnd o n k) ((o + pieceEnd o n k) % 128) (pieceEnd o n (k + 1) - pieceEnd o n k))) x).byte a =
        if o ≤ a ∧ a < o + pieceEnd o n m then v / 2 ^ (8 * (a - o)) % 256 else x.byte a := by
    induction m with
    | zero => rw [pieceEnd_zero, if_neg (by omega)]; rfl
    | succ m ih =>
      obtain ⟨mono, inLine⟩ := pieceEnd_succ o n hm
      rw [List.range_succ, List.foldl_append, List.foldl_cons, List.foldl_nil, localLine_byte, ih (by omega)]
      generalize pieceEnd o n m = p at mono inLine
      generalize pieceEnd o n (m + 1) = q at mono inLine
      by_cases hin : o + p ≤ a ∧ a < o + q
      · rw [if_pos (by omega), if_pos (by omega), show p + (a % 128 - (o + p) % 128) = a - o by omega]
      · rw [if_neg (by omega)]
        by_cases hb : o ≤ a ∧ a < o + p
        · rw [if_pos hb, if_pos (by omega)]
        · rw [if_neg hb, if_neg (by omega)]
  rw [Tile.localWrite, pieces_eq, List.foldl_map, upTo _ (Nat.le_refl _), pieceEnd_count]

/-- What was written is read. -/
theorem localRead_localWrite (x : Tile) (o n v : Nat) : (x.localWrite o n v).localRead o n = v % 2 ^ (8 * n) := by
  rw [localRead_eq, Tile.bytesAt, ← packNat_digits 8 n, ← packNat_map_mod 8 ((List.range n).map fun i => v / 2 ^ (8 * i)), List.map_map]
  refine congrArg (packNat 8) (List.map_congr_left fun i hi => ?_)
  have hi := List.mem_range.1 hi
  rw [localWrite_byte, if_pos (by omega), Nat.add_sub_cancel_left]
  rfl

end Sys2Proof.Machine
end

section
/-! The integer k-step of the matrix engine: exact products added to a bank, saturating (R62 to R64, R151). -/
namespace Sys2Proof.Machine

/-! ## Values of a bank -/

/-- Code p of a bank. -/
def Bank.code (b : Bank) (p : Nat) : Nat := b.vals.toNat / 2 ^ (56 * p) % 2 ^ 56

theorem code_lt (b : Bank) (p : Nat) : b.code p < 2 ^ 56 := Nat.mod_lt _ (by decide)

theorem codesOf_eq (w n v : Nat) : codesOf w n v = (List.range n).map fun i => v / 2 ^ (w * i) % 2 ^ w := rfl

theorem codesOf_getD (w v : Nat) {n i : Nat} (h : i < n) : (codesOf w n v).toArray.getD i 0 = v / 2 ^ (w * i) % 2 ^ w := by
  rw [codesOf_eq, Array.getD_eq_getD_getElem?, List.getElem?_toArray, ← List.getD_eq_getElem?_getD, getD_map_range _ _ h]

/-- Code p of a packed bank. -/
theorem packed_code (l : List Nat) (mode : BankMode) (taint : Bool) {p : Nat} (h : p < 2048) :
    (Bank.mk (BitVec.ofNat 114688 (packNat 56 l)) mode taint).code p = l.getD p 0 % 2 ^ 56 := by
  rw [Bank.code, ofNat_digit (by omega), packNat_digit]

theorem i56_eq {c : Nat} (h : c < 2 ^ 56) : i56 c = (c : Int).bmod (2 ^ 56) := by
  unfold i56
  rw [Int.bmod]
  split <;> split <;> omega

/-- A 56-bit integer is what its code says. -/
theorem wrap_bmod {x : Int} (h : -(2 ^ 55) ≤ x) (h' : x < 2 ^ 55) : ((wrap 56 x : Nat) : Int).bmod (2 ^ 56) = x := by
  unfold wrap
  rw [Int.bmod]
  split <;> omega

theorem wrap_lt (x : Int) : wrap 56 x < 2 ^ 56 := by
  unfold wrap
  omega

theorem satI56_eq (x : Int) : (satI56 x).1 = max (-(2 ^ 55)) (min (2 ^ 55 - 1) x) ∧
    (satI56 x).2 = if x < -(2 ^ 55) ∨ 2 ^ 55 ≤ x then fSA else 0 := by
  unfold satI56
  by_cases low : x < -(2 ^ 55)
  · rw [if_pos low, if_pos (.inl low)]
    exact ⟨by omega, rfl⟩
  · by_cases high : 2 ^ 55 ≤ x
    · rw [if_neg low, if_pos high, if_pos (.inr high)]
      exact ⟨by omega, rfl⟩
    · rw [if_neg low, if_neg high, if_neg (not_or.2 ⟨low, high⟩)]
      exact ⟨by omega, rfl⟩

/-- The exact result of one accumulation. -/
def exactSum (c : Nat) (sum : Int) (neg : Bool) : Int := i56 c + if neg then -sum else sum

theorem addI56_eq (c : Nat) (sum : Int) (neg : Bool) :
    addI56 c sum neg = (wrap 56 (satI56 (exactSum c sum neg)).1, (satI56 (exactSum c sum neg)).2) := by
  rw [addI56, exactSum]

/-- One accumulation saturates the exact result. -/
theorem addI56_value (c : Nat) (sum : Int) (neg : Bool) :
    ((addI56 c sum neg).1 : Int).bmod (2 ^ 56) = max (-(2 ^ 55)) (min (2 ^ 55 - 1) (exactSum c sum neg)) := by
  obtain ⟨value, -⟩ := satI56_eq (exactSum c sum neg)
  rw [addI56_eq, wrap_bmod (by omega) (by omega), value]

theorem addI56_lt (c : Nat) (sum : Int) (neg : Bool) : (addI56 c sum neg).1 < 2 ^ 56 := by
  rw [addI56_eq]
  exact wrap_lt _

theorem addI56_flag (c : Nat) (sum : Int) (neg : Bool) :
    (addI56 c sum neg).2 = if exactSum c sum neg < -(2 ^ 55) ∨ 2 ^ 55 ≤ exactSum c sum neg then fSA else 0 := by
  rw [addI56_eq, (satI56_eq _).2]

/-! ## The two operands -/

/-- A byte as an operand of format 1, signed, or 2. -/
def int8 (fmt b : Nat) : Int := if fmt = 1 then (b : Int).bmod 256 else b

theorem int8Val_eq {b : Nat} (h : b < 256) (fmt : Nat) : int8Val fmt b = int8 fmt b := by
  unfold int8Val int8
  by_cases hf : fmt = 1
  · simp only [hf, decide_true, Bool.true_and, decide_eq_true_eq, if_true]
    rw [Int.bmod]
    split <;> split <;> omega
  · simp [hf]

/-- Element k of row i of slice apos of A, by the bytes of scratch. -/
def Tile.rowByte (x : Tile) (ra : Word) (apos i k : Nat) : Nat := x.byte (addrOf ra + apos * 2048 + 64 * i + k)

theorem rowByte_lt (x : Tile) (ra : Word) (apos i k : Nat) : x.rowByte ra apos i k < 256 := byte_lt ..

/-- A whole row of int8, without scales. -/
def Tile.intRow (x : Tile) (ra : Word) (apos i : Nat) : ARow := ⟨(List.range 64).map fun k => (k, x.rowByte ra apos i k), fun _ => .fin false 1 0⟩

theorem int8_bits {f : Nat} (h : f = 1 ∨ f = 2) : fmtBits f = 8 ∧ kstepOf f = some 64 ∧ isInt8 f = true ∧ latchK f = 64 := by
  rcases h with rfl | rfl <;> decide

theorem foldl_rows {α : Type} (g : Nat → α) (l : List Nat) (acc : List α) :
    l.foldl (fun (acc : List α × BitVec 11) r => (acc.1 ++ [g r], acc.2 ||| 0)) (acc, 0) = (acc ++ l.map g, 0) := by
  induction l generalizing acc with
  | nil => simp
  | cons r l ih => simpa using ih (acc ++ [g r])

/-- The rows of a slice of int8 elements without scales or structure. -/
theorem rowsOf_int8 (x : Tile) {m : MmaF} {ra : Word} (rc : Word) (apos i nb : Nat) (hs : m.sp = false) (hb : blogOf ra = 0)
    (hf : fmtOf ra = 1 ∨ fmtOf ra = 2) : x.rowsOf m ra rc 64 apos i nb = ((List.range 32).map (x.intRow ra apos), 0) := by
  obtain ⟨hw, -⟩ := int8_bits hf
  have row {r : Nat} (hr : r < 32) : (List.range 64).zip (codesOf 8 64 (x.localRead (addrOf ra + apos * 2048) 2048 / 2 ^ (8 * 64 * r))) =
      (List.range 64).map fun k => (k, x.rowByte ra apos r k) := by
    rw [codesOf_eq, List.zip_map_right, List.zip_eq_zipWith, List.zipWith_self, List.map_map]
    refine List.map_congr_left fun k hk => ?_
    have hk := List.mem_range.1 hk
    dsimp only [Function.comp_apply, Prod.map, id]
    rw [Nat.div_div_eq_div_mul, ← Nat.pow_add, show 8 * 64 * r + 8 * k = 8 * (64 * r + k) by ring,
      localRead_byte _ _ (by omega), ← Nat.add_assoc]
    rfl
  have slice : aSlice 64 (fmtOf ra) = 2048 := by rw [aSlice, hw]
  simp only [Tile.rowsOf, keptPairs, hs, hb, hw, slice, Bool.not_false, if_true]
  rw [foldl_rows, List.nil_append]
  refine congrArg (·, 0) (List.map_congr_left fun r hr => ?_)
  rw [row (List.mem_range.1 hr)]
  rfl

/-! ## Sums of products -/

/-- The exact sum of products for output (i, j) of a slice of A and a slice b of B. -/
def Tile.products (x : Tile) (ra : Word) (apos fb : Nat) (b : Nat → Nat → Nat) (i j : Nat) : Int :=
  ((List.range 64).map fun k => int8 (fmtOf ra) (x.rowByte ra apos i k) * int8 fb (b k j)).sum

/-- The bytes of a B slice of 64 rows. -/
structure BSlice.Holds (s : BSlice) (fb : Nat) (b : Nat → Nat → Nat) : Prop where
  fmt : s.fmt = fb
  codes : ∀ k < 64, ∀ j < 64, s.codes.getD (k * 64 + j) 0 = b k j
  bytes : ∀ k < 64, ∀ j < 64, b k j < 256

theorem foldl_add_eq {α : Type} (g : α → Int) (l : List α) (a : Int) : l.foldl (fun acc p => acc + g p) a = a + (l.map g).sum := by
  induction l generalizing a with
  | nil => simp
  | cons p l ih => rw [List.foldl_cons, ih, List.map_cons, List.sum_cons, Int.add_assoc]

theorem intRow_sum (x : Tile) (ra : Word) (apos : Nat) {s : BSlice} {fb : Nat} {b : Nat → Nat → Nat} (h : s.Holds fb b) (i : Nat) {j : Nat} (hj : j < 64) :
    (x.intRow ra apos i).pairs.foldl (fun (acc : Int) p => acc + int8Val (fmtOf ra) p.2 * int8Val s.fmt (s.codes.getD (p.1 * 64 + j) 0)) 0 =
      x.products ra apos fb b i j := by
  rw [foldl_add_eq, Int.zero_add, Tile.intRow, List.map_map]
  refine congrArg List.sum (List.map_congr_left fun k hk => ?_)
  have hk := List.mem_range.1 hk
  dsimp only [Function.comp_apply]
  rw [h.fmt, h.codes k hk j hj, int8Val_eq (rowByte_lt ..), int8Val_eq (h.bytes k hk j hj)]

/-- What a k-step does to output (i, j). -/
def Tile.output (x : Tile) (bank : Bank) (ra : Word) (apos fb : Nat) (b : Nat → Nat → Nat) (neg : Bool) (i j : Nat) : Nat × BitVec 11 :=
  addI56 (bank.code (64 * i + j)) (x.products ra apos fb b i j) neg

/-- A k-step's outputs, in the bank's order. -/
def Tile.outputs (x : Tile) (bank : Bank) (ra : Word) (apos fb : Nat) (b : Nat → Nat → Nat) (neg : Bool) : List (Nat × BitVec 11) :=
  (List.range 32).flatMap fun i => (List.range 64).map (x.output bank ra apos fb b neg i)

/-- The bank after a k-step of int8 operands, and the flags of the step. -/
def Tile.stepped (x : Tile) (bank : Bank) (ra : Word) (apos fb : Nat) (b : Nat → Nat → Nat) (neg : Bool) : Bank × BitVec 11 :=
  (⟨BitVec.ofNat 114688 (packNat 56 ((x.outputs bank ra apos fb b neg).map fun p => p.1)), if bank.mode = .empty then .int else bank.mode, bank.taint⟩,
    (x.outputs bank ra apos fb b neg).foldl (fun acc p => acc ||| p.2) 0)

theorem stepped_flags_eq (x : Tile) (bank : Bank) (ra : Word) (apos fb : Nat) (b : Nat → Nat → Nat) (neg : Bool) :
    (x.stepped bank ra apos fb b neg).2 = (x.outputs bank ra apos fb b neg).foldl (fun acc p => acc ||| p.2) 0 := by
  rw [Tile.stepped]

theorem zipIdx_map_range {α : Type} (g : Nat → α) (n : Nat) : ((List.range n).map g).zipIdx = (List.range n).map fun i => (g i, i) := by
  rw [List.zipIdx_eq_zip_range', List.length_map, List.length_range, ← List.range_eq_range', zip_map_range]

theorem stepBank_int8 (x : Tile) (bank : Bank) {ra : Word} (apos : Nat) {s : BSlice} {fb : Nat} {b : Nat → Nat → Nat} (h : s.Holds fb b)
    (hf : fmtOf ra = 1 ∨ fmtOf ra = 2) (bandA : Nat) (neg : Bool) :
    stepBank bank (fmtOf ra) ((List.range 32).map (x.intRow ra apos)) s bandA neg = x.stepped bank ra apos fb b neg := by
  obtain ⟨-, -, hi, -⟩ := int8_bits hf
  have rows : (((List.range 32).map (x.intRow ra apos)).zipIdx.flatMap fun (r, i) => (List.range 64).map fun j =>
      let sum := r.pairs.foldl (fun (acc : Int) p => acc + int8Val (fmtOf ra) p.2 * int8Val s.fmt (s.codes.getD (p.1 * 64 + j) 0)) 0
      addI56 ((codesOf 56 2048 bank.vals.toNat).toArray.getD (i * 64 + j) 0) sum neg) = x.outputs bank ra apos fb b neg := by
    rw [zipIdx_map_range, List.flatMap_map]
    refine List.flatMap_congr fun i hi => List.map_congr_left fun j hj => ?_
    have hi := List.mem_range.1 hi
    have hj := List.mem_range.1 hj
    dsimp only
    rw [intRow_sum x ra apos h i hj, codesOf_getD _ _ (by omega), Nat.mul_comm i]
    rfl
  simp only [stepBank, hi, if_true, rows, kindOf]
  rfl

/-- Flags of which each is f or none. -/
theorem foldl_or_mem {l : List (Nat × BitVec 11)} {f g : BitVec 11} (h : ∀ p ∈ l, p.2 = 0 ∨ p.2 = f) (hg : g = 0 ∨ g = f) :
    (l.foldl (fun acc p => acc ||| p.2) g = 0 ∨ l.foldl (fun acc p => acc ||| p.2) g = f) ∧
      (g = f ∨ (∃ p ∈ l, p.2 = f) → l.foldl (fun acc p => acc ||| p.2) g = f) := by
  induction l generalizing g with
  | nil => exact ⟨hg, fun h => h.elim id fun ⟨_, hp, _⟩ => nomatch hp⟩
  | cons p l ih =>
    have hp := h p (.head _)
    have next : g ||| p.2 = 0 ∨ g ||| p.2 = f := by
      rcases hg with rfl | rfl <;> rcases hp with e | e <;> simp [e]
    obtain ⟨one, all⟩ := ih (fun q hq => h q (.tail _ hq)) next
    refine ⟨one, fun hex => all ?_⟩
    rcases hex with rfl | ⟨q, hq, hf⟩
    · left
      rcases hp with e | e <;> simp [e]
    · rcases List.mem_cons.1 hq with rfl | hq
      · left
        rcases hg with rfl | rfl <;> simp [hf]
      · exact .inr ⟨q, hq, hf⟩

section
variable (x : Tile) (bank : Bank) (ra : Word) (apos fb : Nat) (b : Nat → Nat → Nat) (neg : Bool)

/-- A value of the bank after a k-step. -/
theorem stepped_code {i j : Nat} (hi : i < 32) (hj : j < 64) :
    ((x.stepped bank ra apos fb b neg).1.code (64 * i + j) : Int).bmod (2 ^ 56) =
      max (-(2 ^ 55)) (min (2 ^ 55 - 1) (exactSum (bank.code (64 * i + j)) (x.products ra apos fb b i j) neg)) := by
  have code : (x.stepped bank ra apos fb b neg).1.code (64 * i + j) = (x.output bank ra apos fb b neg i j).1 := by
    rw [Tile.stepped, packed_code _ _ _ (by omega), Tile.outputs, List.map_flatMap,
      getD_flatMap_range _ 0 (k := 64) (fun _ => by rw [List.length_map, List.length_map, List.length_range]) hi hj, List.map_map,
      getD_map_range _ _ hj]
    exact Nat.mod_eq_of_lt (addI56_lt ..)
  rw [code]
  exact addI56_value ..

theorem stepped_mode (h : bank.mode ≠ .float) : (x.stepped bank ra apos fb b neg).1.mode = .int := by
  show (if bank.mode = .empty then BankMode.int else bank.mode) = .int
  cases hm : bank.mode with
  | empty => rfl
  | float => exact absurd hm h
  | int => rfl

/-- An output saturates. -/
def Tile.overflows (i j : Nat) : Prop :=
  exactSum (bank.code (64 * i + j)) (x.products ra apos fb b i j) neg < -(2 ^ 55) ∨
    2 ^ 55 ≤ exactSum (bank.code (64 * i + j)) (x.products ra apos fb b i j) neg

theorem output_flag (i j : Nat) :
    (x.overflows bank ra apos fb b neg i j → (x.output bank ra apos fb b neg i j).2 = fSA) ∧
      (¬ x.overflows bank ra apos fb b neg i j → (x.output bank ra apos fb b neg i j).2 = 0) := by
  rw [Tile.output, addI56_flag, Tile.overflows]
  exact ⟨fun h => if_pos h, fun h => if_neg h⟩

/-- The flag of a k-step: SA when an output saturates, else none. -/
theorem stepped_flag :
    ((x.stepped bank ra apos fb b neg).2 = 0 ∨ (x.stepped bank ra apos fb b neg).2 = fSA) ∧
      ∀ i < 32, ∀ j < 64, x.overflows bank ra apos fb b neg i j → (x.stepped bank ra apos fb b neg).2 = fSA := by
  obtain ⟨one, all⟩ := foldl_or_mem (l := x.outputs bank ra apos fb b neg) (f := fSA) (g := 0)
    (fun p hp => by
      obtain ⟨i, -, hp⟩ := List.mem_flatMap.1 hp
      obtain ⟨j, -, rfl⟩ := List.mem_map.1 hp
      by_cases h : x.overflows bank ra apos fb b neg i j
      · exact .inr ((output_flag x bank ra apos fb b neg i j).1 h)
      · exact .inl ((output_flag x bank ra apos fb b neg i j).2 h)) (.inl rfl)
  rw [stepped_flags_eq]
  refine ⟨one, fun i hi j hj h => all (.inr ⟨x.output bank ra apos fb b neg i j, ?_, (output_flag x bank ra apos fb b neg i j).1 h⟩)⟩
  exact List.mem_flatMap.2 ⟨i, List.mem_range.2 hi, List.mem_map.2 ⟨j, List.mem_range.2 hj, rfl⟩⟩

end

end Sys2Proof.Machine
end

section
/-! What the events of the matrix engine do to a state: the rules of the head command, the banks and the flags (R150, R158, R160). -/
namespace Sys2Proof.Machine

/-! ## The image of a command -/

theorem bits_toNat {n : Nat} (x : BitVec n) (lo w : Nat) : (bits x lo w).toNat = x.toNat / 2 ^ lo % 2 ^ w := by
  rw [BitVec.extractLsb'_toNat, Nat.shiftRight_eq_div_pow]

section
variable {c : MCmd}

theorem lop_lone (h : c.image.getLsbD 31 = true) : c.lop = c.image.toNat / 2 ^ 22 % 256 := by
  rw [MCmd.lop, if_pos h, bits_toNat]
  rfl

theorem lop_word (h : c.image.getLsbD 31 = false) : c.lop = 0 := by
  rw [MCmd.lop, h]
  rfl

theorem sub_lone (h : c.image.getLsbD 31 = true) : c.sub = none := by
  rw [MCmd.sub, if_pos h]

theorem sub_word (h : c.image.getLsbD 31 = false) : c.sub = some (c.image.toNat / 32 % 16) := by
  rw [MCmd.sub, h, bits_toNat]
  rfl

/-- A command whose bits [29:22] are not MMA's is no MMA. -/
theorem lop_ne_mma (h : c.image.toNat / 2 ^ 22 % 256 ≠ 0x10) : c.lop ≠ 0x10 := by
  cases hl : c.image.getLsbD 31 with
  | true => rwa [lop_lone hl]
  | false =>
    rw [lop_word hl]
    decide

end

theorem bankBit (c : MCmd) : (bits c.image 0 1).toNat = c.image.toNat % 2 := by
  rw [bits_toNat, Nat.pow_zero, Nat.div_one, Nat.pow_one]

/-! ## Tiles under two changes, and events that change one tile -/

theorem modTile_modTile (s : State) (t : Nat) (f g : Tile → Tile) : (s.modTile t f).modTile t g = s.modTile t fun x => g (f x) := by
  simp only [State.modTile, State.setTile, State.tile, mget_mset_same, mset_mset]

theorem modEngine_eq (s : State) (t : Nat) (f : Engine → Engine) :
    s.modEngine t f = s.modTile t fun x => { x with engine := f x.engine } := rfl

theorem sameIssue_modTile (s : State) (t : Nat) (f : Tile → Tile) : s.SameIssue (s.modTile t f) := ⟨rfl, rfl, rfl, rfl, rfl⟩

/-- An event that leaves state u. -/
theorem happens_of_happen {s u : State} {i : Instr} {g : State → State} (he : exec i s = happen g s) (hg : g s = u) (hi : s.SameIssue u) :
    ∃ v, s.happens v i ∧ v.mem = u.mem ∧ ∀ t, v.tile t = u.tile t :=
  ⟨_, happens_of_exec (exec_of_happen he hg) hi, rfl, fun _ => rfl⟩

/-- An event whose next state differs in one tile. -/
theorem happens_of_modTile {s : State} {i : Instr} {t : Nat} {f : Tile → Tile} (he : exec i s = .next { s.modTile t f with fate := .done }) :
    ∃ u, s.happens u i ∧ u.mem = s.mem ∧ u.tile t = f (s.tile t) :=
  ⟨_, happens_of_exec he (sameIssue_modTile s t f), rfl, modTile_tile_same s t f⟩

/-- An event that changes one tile. -/
theorem happens_modTile {s : State} {i : Instr} {g : State → State} {t : Nat} {f : Tile → Tile} (he : exec i s = happen g s)
    (hg : g s = s.modTile t f) : ∃ u, s.happens u i ∧ u.mem = s.mem ∧ u.tile t = f (s.tile t) :=
  happens_of_modTile (exec_of_happen he hg)

/-! ## The fields of an engine -/

section
variable (e : Engine) (b : Nat) (k : Bank) (f : MCmd → MCmd)

@[simp] theorem setBank_bank : (e.setBank b k).bank b = k := by
  by_cases h : b = 0 <;> simp [Engine.setBank, Engine.bank, h]

@[simp] theorem setBank_queue : (e.setBank b k).queue = e.queue := by
  by_cases h : b = 0 <;> simp [Engine.setBank, h]

@[simp] theorem setBank_outgoing : (e.setBank b k).outgoing = e.outgoing := by
  by_cases h : b = 0 <;> simp [Engine.setBank, h]

@[simp] theorem setBank_rstep : (e.setBank b k).rstep = e.rstep := by
  by_cases h : b = 0 <;> simp [Engine.setBank, h]

theorem modHead_eq {c : MCmd} {rest : List MCmd} (h : e.queue = c :: rest) : e.modHead f = { e with queue := f c :: rest } := by
  rw [Engine.modHead, h]

@[simp] theorem modHead_bank : (e.modHead f).bank b = e.bank b := by
  unfold Engine.modHead
  split <;> rfl

@[simp] theorem modHead_outgoing : (e.modHead f).outgoing = e.outgoing := by
  unfold Engine.modHead
  split <;> rfl

@[simp] theorem modHead_rstep : (e.modHead f).rstep = e.rstep := by
  unfold Engine.modHead
  split <;> rfl

end

/-! ## The flags of a command -/

theorem or_of_covered {f g : BitVec 11} (h : f &&& ~~~g = 0) : g = g ||| f := by
  ext i hi
  have bit := congrArg (fun x : BitVec 11 => x.getLsbD i) h
  simp only [BitVec.getLsbD_and, BitVec.getLsbD_not, hi, decide_true, Bool.true_and] at bit
  simp only [← BitVec.getLsbD_eq_getElem]
  cases hf : f.getLsbD i <;> cases hg : g.getLsbD i <;> simp_all

theorem flags_or_zero (f : BitVec 11) : f ||| 0 = f := BitVec.or_zero
theorem zero_or_flags (f : BitVec 11) : 0 ||| f = f := BitVec.zero_or

theorem raise_flags (k : Ctx) (f : BitVec 11) (u : BitVec 49) : (k.raise f u).flags = k.flags ||| f := by
  unfold Ctx.raise
  dsimp only
  split
  · exact or_of_covered ‹_›
  · split <;> rfl

/-- A tile whose command c raised flags. -/
def Tile.raised (x : Tile) (c : MCmd) (f : BitVec 11) : Tile := x.setCtx 0 ((x.ctx 0).raise f (unitAddr c.pc))

@[simp] theorem raised_engine (x : Tile) (c : MCmd) (f : BitVec 11) : (x.raised c f).engine = x.engine := rfl
theorem raised_flags (x : Tile) (c : MCmd) (f : BitVec 11) : ((x.raised c f).ctx 0).flags = (x.ctx 0).flags ||| f := by
  rw [Tile.raised, setCtx_tile_ctx, if_pos rfl, raise_flags]

theorem raiseMatrix_eq {s : State} {t : Nat} (h : mhas (s.tile t).ctxs 0 = true) (c : MCmd) (f : BitVec 11) :
    s.raiseMatrix t c f = s.modTile t fun x => x.raised c f := by
  rw [State.raiseMatrix, if_pos h]
  rfl

end Sys2Proof.Machine
end

section
/-! The k-step of int8 operands as an event, of a local B and of a buffer that is handed on (R154, R277, R278). -/
namespace Sys2Proof.Machine

/-! ## The accumulation of a k-step -/

/-- Command c of tile t is an MMA of a dense int8 A without block scales, and its bank may hold integers. -/
structure State.IntMma (s : State) (t : Nat) (c : MCmd) : Prop where
  lone : c.image.getLsbD 31 = true
  mma : c.image.toNat / 2 ^ 22 % 256 = 0x10
  dense : (mmaF c.image c.rc).sp = false
  plane : (mmaF c.image c.rc).aPlane = 0
  blocks : blogOf c.ra = 0
  fmt : fmtOf c.ra = 1 ∨ fmtOf c.ra = 2
  mode : ((s.tile t).engine.bank (mmaF c.image c.rc).bank).mode ≠ .float
  control : mhas (s.tile t).ctxs 0 = true

/-- The bank and the flags of the k-step of command c with slice apos of A and the elements b of B. -/
def MCmd.result (c : MCmd) (x : Tile) (apos fb : Nat) (b : Nat → Nat → Nat) : Bank × BitVec 11 :=
  x.stepped (x.engine.bank (mmaF c.image c.rc).bank) c.ra apos fb b (mmaF c.image c.rc).neg

/-- A tile whose command c accumulated a k-step. -/
def Tile.accumulated (x : Tile) (c : MCmd) (r : Bank × BitVec 11) : Tile :=
  ({ x with engine := x.engine.setBank (mmaF c.image c.rc).bank r.1 } : Tile).raised c r.2

theorem accumulate_int8 {s : State} {t : Nat} {c : MCmd} (h : s.IntMma t c) (apos nb : Nat) {bs : BSlice} {fb : Nat} {b : Nat → Nat → Nat}
    (hb : bs.Holds fb b) : s.accumulate t c (mmaF c.image c.rc) 64 apos nb bs =
      s.modTile t fun x => x.accumulated c (c.result (s.tile t) apos fb b) := by
  simp only [State.accumulate, rowsOf_int8 _ _ _ _ _ h.dense h.blocks h.fmt, stepBank_int8 _ _ _ hb h.fmt, zero_or_flags]
  rw [raiseMatrix_eq (by rw [modEngine_eq, modTile_tile_same]; exact h.control), modEngine_eq, modTile_modTile]
  simp only [Tile.accumulated, MCmd.result]

/-- What a whole k-step of command c leaves, with the others of the queue behind it. -/
structure State.KstepAdds (s : State) (t : Nat) (c : MCmd) (rest : List MCmd) (u : State) (slice fb : Nat) (b : Nat → Nat → Nat) : Prop where
  mem : u.mem = s.mem
  queue : (u.tile t).engine.queue = { c with step := c.step + 1 } :: rest
  bank : (u.tile t).engine.bank (mmaF c.image c.rc).bank = (c.result (s.tile t) slice fb b).1
  flags : (u.ctxAt t 0).flags = (s.ctxAt t 0).flags ||| (c.result (s.tile t) slice fb b).2

theorem accumulated_queue (x : Tile) (c : MCmd) (r : Bank × BitVec 11) : (x.accumulated c r).engine.queue = x.engine.queue :=
  setBank_queue ..
theorem accumulated_bank (x : Tile) (c : MCmd) (r : Bank × BitVec 11) :
    (x.accumulated c r).engine.bank (mmaF c.image c.rc).bank = r.1 := setBank_bank ..
theorem accumulated_flags (x : Tile) (c : MCmd) (r : Bank × BitVec 11) :
    ((x.accumulated c r).ctx 0).flags = (x.ctx 0).flags ||| r.2 := raised_flags ..

section
variable {s u : State} {t : Nat} {c : MCmd} {rest : List MCmd} {slice fb : Nat} {b : Nat → Nat → Nat}

theorem State.KstepAdds.mode (h : s.KstepAdds t c rest u slice fb b) (hc : s.IntMma t c) : ((u.tile t).engine.bank (mmaF c.image c.rc).bank).mode = .int := by
  rw [h.bank]
  exact stepped_mode _ _ _ _ _ _ _ hc.mode

/-- The values of the bank after a k-step. -/
theorem State.KstepAdds.value (h : s.KstepAdds t c rest u slice fb b) {i j : Nat} (hi : i < 32) (hj : j < 64) :
    i56 (((u.tile t).engine.bank (mmaF c.image c.rc).bank).code (64 * i + j)) =
      max (-(2 ^ 55)) (min (2 ^ 55 - 1) (exactSum (((s.tile t).engine.bank (mmaF c.image c.rc).bank).code (64 * i + j))
        ((s.tile t).products c.ra slice fb b i j) (mmaF c.image c.rc).neg)) := by
  rw [h.bank, i56_eq (code_lt ..)]
  exact stepped_code _ _ _ _ _ _ _ hi hj

/-- A k-step sets SA or no flag. -/
theorem State.KstepAdds.flags_cases (h : s.KstepAdds t c rest u slice fb b) :
    (u.ctxAt t 0).flags = (s.ctxAt t 0).flags ∨ (u.ctxAt t 0).flags = (s.ctxAt t 0).flags ||| fSA := by
  obtain ⟨one, -⟩ := stepped_flag (s.tile t) ((s.tile t).engine.bank (mmaF c.image c.rc).bank) c.ra slice fb b (mmaF c.image c.rc).neg
  rw [h.flags]
  rcases one with e | e
  · exact .inl (by rw [MCmd.result, e, flags_or_zero])
  · exact .inr (by rw [MCmd.result, e])

/-- A k-step in which an output saturates sets SA. -/
theorem State.KstepAdds.flags_saturated (h : s.KstepAdds t c rest u slice fb b) {i j : Nat} (hi : i < 32) (hj : j < 64)
    (hsat : (s.tile t).overflows ((s.tile t).engine.bank (mmaF c.image c.rc).bank) c.ra slice fb b (mmaF c.image c.rc).neg i j) :
    (u.ctxAt t 0).flags &&& fSA = fSA := by
  obtain ⟨-, all⟩ := stepped_flag (s.tile t) ((s.tile t).engine.bank (mmaF c.image c.rc).bank) c.ra slice fb b (mmaF c.image c.rc).neg
  rw [h.flags, MCmd.result, all i hi j hj hsat]
  ext i hi
  simp only [BitVec.getElem_and, BitVec.getElem_or]
  cases fSA[i] <;> simp

end

/-! ## A k-step of a local B -/

/-- B of a local MMA, row-major int8 without block scales. -/
structure MCmd.LocalB (c : MCmd) : Prop where
  loc : (mmaF c.image c.rc).loc = true
  layout : (mmaF c.image c.rc).layout = 0
  plane : (mmaF c.image c.rc).bPlane = 0
  blocks : blogOf c.rb = 0
  fmt : fmtOf c.rb = 1 ∨ fmtOf c.rb = 2

theorem localB_holds (x : Tile) {c : MCmd} (h : c.LocalB) (i : Nat) :
    (x.localB (mmaF c.image c.rc) c.rb 64 i).Holds (fmtOf c.rb) fun k j => x.byte (addrOf c.rb + i * 4096 + 64 * k + j) where
  fmt := rfl
  codes k hk j hj := by
    obtain ⟨hw, -⟩ := int8_bits h.fmt
    have size : bSlice 64 (fmtOf c.rb) = 4096 := by rw [bSlice, hw]
    simp only [Tile.localB, h.layout, if_true, hw, size]
    rw [codesOf_getD _ _ (by omega), localRead_byte _ _ (by omega), Nat.mul_comm k, Nat.add_assoc _ (64 * k)]
  bytes k _ j _ := byte_lt ..

/-- The engine takes k-steps: it runs, and no buffer is on its way or came back. -/
structure Engine.Steps (e : Engine) (c : MCmd) : Prop where
  runs : e.stopped = false
  sent : e.outgoing = none
  taken : e.refused = none
  more : c.step < (mmaF c.image c.rc).n

theorem kstep_local {s : State} {t : Nat} {c : MCmd} {rest : List MCmd} (hq : (s.tile t).engine.queue = c :: rest) (h : s.IntMma t c)
    (hs : (s.tile t).engine.Steps c) (hb : c.LocalB) :
    s.kstep t = s.modTile t fun x =>
      let y := x.accumulated c (c.result (s.tile t) c.step (fmtOf c.rb) fun k j => (s.tile t).byte (addrOf c.rb + c.step * 4096 + 64 * k + j))
      { y with engine := y.engine.modHead fun c => { c with step := c.step + 1 } } := by
  obtain ⟨-, hka, hia, -⟩ := int8_bits h.fmt
  obtain ⟨-, hkb, hib, -⟩ := int8_bits hb.fmt
  have lop : c.lop = 0x10 := (lop_lone h.lone).trans h.mma
  have pair : kstepPair (fmtOf c.ra) (fmtOf c.rb) = some 64 := by
    simp only [kstepPair, hka, hkb, hia, hib, bne_self_eq_false, Bool.false_eq_true, if_false, if_true]
  have kind : ((((s.tile t).engine.bank (mmaF c.image c.rc).bank).mode ≠ .empty &&
      ((s.tile t).engine.bank (mmaF c.image c.rc).bank).mode ≠ kindOf (fmtOf c.ra)) : Bool) = false := by
    rw [kindOf, if_pos hia]
    cases hm : ((s.tile t).engine.bank (mmaF c.image c.rc).bank).mode with
    | empty => rfl
    | int => rfl
    | float => exact absurd hm h.mode
  have stays : ((s.tile t).engine.stopped || decide (c.lop ≠ 0x10) || decide ((mmaF c.image c.rc).n ≤ c.step) ||
      (s.tile t).engine.outgoing.isSome) = false := by
    simp [hs.runs, hs.sent, lop, hs.more]
  have scales : ((s.tile t).engine.badScale && (decide ((mmaF c.image c.rc).aPlane ≠ 0) || decide ((mmaF c.image c.rc).bPlane ≠ 0))) = false := by
    simp [h.plane, hb.plane]
  simp only [State.kstep, hq, stays, Bool.false_eq_true, if_false, hs.taken, kind, hb.loc, if_true, pair, scales, h.dense]
  rw [accumulate_int8 h _ _ (localB_holds _ hb _), modEngine_eq, modTile_modTile]

end Sys2Proof.Machine
end

section
/-! The handover of a buffer to the next ring member (R154, R155). -/
namespace Sys2Proof.Machine

/-! ## The ring k-step -/

theorem slice_holds {l : Latch} (h : l.fmt = 1 ∨ l.fmt = 2) :
    l.slice.Holds l.fmt.toNat fun k j => l.data.toNat / 256 ^ (64 * k + j) % 256 where
  fmt := rfl
  codes k hk j hj := by
    obtain ⟨hw, -, -, hk'⟩ := int8_bits (f := l.fmt.toNat) (by rcases h with h | h <;> rw [h] <;> decide)
    simp only [Latch.slice, hw, hk']
    rw [codesOf_getD _ _ (by omega), Nat.pow_mul, Nat.mul_comm k]
    rfl
  bytes _ _ _ _ := Nat.mod_lt _ (by decide)

theorem ringStep_int8 {s : State} {t : Nat} {c : MCmd} {rest : List MCmd} (hq : (s.tile t).engine.queue = c :: rest) (h : s.IntMma t c)
    {l : Latch} (hl : l.fmt = 1 ∨ l.fmt = 2) : s.ringStep t l = s.modTile t fun x => x.accumulated c
      (c.result (s.tile t) ((s.tile t).engine.idx (memberOf t)) l.fmt.toNat fun k j => l.data.toNat / 256 ^ (64 * k + j) % 256) := by
  obtain ⟨-, hk, -⟩ := int8_bits h.fmt
  have lop : c.lop = 0x10 := (lop_lone h.lone).trans h.mma
  simp only [State.ringStep, hq, lop, ne_eq, not_true_eq_false, if_false, hk, Option.getD_some]
  exact accumulate_int8 h _ _ (slice_holds hl)

/-- Without an MMA at the head, a handover adds nothing. -/
theorem ringStep_other {s : State} {t : Nat} (h : ∀ c ∈ (s.tile t).engine.queue, c.image.toNat / 2 ^ 22 % 256 ≠ 0x10) (l : Latch) :
    s.ringStep t l = s := by
  unfold State.ringStep
  dsimp only
  split
  · next c rest hq => rw [if_pos (lop_ne_mma (h c (by rw [hq]; exact .head _)))]
  · rfl

/-! ## The receive buffer -/

theorem receiveReserved_iff (g : Engine) : g.receiveReserved = true ↔
    if g.consume = none ∧ g.outgoing = none then 2 ≤ g.reserved else 1 ≤ g.reserved := by
  rw [Engine.receiveReserved, decide_eq_true_iff]
  cases g.consume <;> cases g.outgoing <;> simp <;> rfl

theorem take_free {g : Engine} (h : g.receive = none) (hr : ¬ g.receiveReserved = true) (l : Latch) :
    g.take l = some { g with receive := some l } := by
  rw [Engine.take, if_neg (by rw [h]; simpa using hr)]

theorem take_blocked {g : Engine} (h : g.receive ≠ none ∨ g.receiveReserved = true) (l : Latch) : g.take l = none := by
  rw [Engine.take, if_pos (by rw [Bool.or_eq_true, Option.isSome_iff_ne_none]; exact h)]

/-! ## The three ends of a handover -/

/-- The ring position after the tile's own. -/
def State.nextPos (s : State) (t : Nat) : Nat := ((s.tile t).engine.pos (memberOf t) + 1) % (s.tile t).engine.ringSize
/-- The tile at that position. -/
def State.nextTile (s : State) (t : Nat) : Nat := t - t % 8 + (s.tile t).engine.member (s.nextPos t)

/-- The engine after its buffer has gone: the k-step is done. -/
def Engine.sent (e : Engine) : Engine :=
  ({ e with outgoing := none, rstep := e.rstep + 1 } : Engine).modHead fun c => { c with step := c.step + 1 }

/-- The next member runs the same ring. -/
def Engine.joins (g e : Engine) : Prop := g.en = true ∧ g.order = e.order ∧ g.logp = e.logp

section
variable {s : State} {t : Nat} {l : Latch}

theorem joins_test (g e : Engine) : (!g.en || decide (g.order ≠ e.order) || decide (g.logp ≠ e.logp)) = true ↔ ¬ g.joins e := by
  simp only [Engine.joins, Bool.or_eq_true, Bool.not_eq_true', decide_eq_true_eq]
  cases g.en <;> simp [or_iff_not_imp_left]

theorem handover_refused (ho : (s.tile t).engine.outgoing = some l) (hj : ¬ (s.tile (s.nextTile t)).engine.joins (s.tile t).engine) :
    s.handover t = (s.ringStep t l).modEngine t fun e => { e.sent with refused := some (s.nextPos t) } := by
  have test := (joins_test (s.tile (s.nextTile t)).engine (s.tile t).engine).2 hj
  simp only [State.handover, ho]
  exact if_pos test

theorem handover_blocked (ho : (s.tile t).engine.outgoing = some l) (hj : (s.tile (s.nextTile t)).engine.joins (s.tile t).engine)
    (ht : (s.tile (s.nextTile t)).engine.take l = none) : s.handover t = s := by
  have test := mt (joins_test (s.tile (s.nextTile t)).engine (s.tile t).engine).1 (not_not_intro hj)
  simp only [State.handover, ho]
  refine (if_neg test).trans ?_
  simp only [State.nextTile, State.nextPos] at ht
  rw [ht]

theorem handover_taken {g : Engine} (ho : (s.tile t).engine.outgoing = some l)
    (hj : (s.tile (s.nextTile t)).engine.joins (s.tile t).engine) (ht : (s.tile (s.nextTile t)).engine.take l = some g) :
    s.handover t = ((s.ringStep t l).modEngine (s.nextTile t) fun g => (g.take l).getD g).modEngine t Engine.sent := by
  have test := mt (joins_test (s.tile (s.nextTile t)).engine (s.tile t).engine).1 (not_not_intro hj)
  simp only [State.handover, ho]
  refine (if_neg test).trans ?_
  simp only [State.nextTile, State.nextPos] at ht ⊢
  rw [ht]
  rfl

/-- A handover that the next member takes: state r is that after the ring k-step. -/
theorem handover_happens {r : State} {g : Engine} (ho : (s.tile t).engine.outgoing = some l)
    (hj : (s.tile (s.nextTile t)).engine.joins (s.tile t).engine) (ht : (s.tile (s.nextTile t)).engine.take l = some g)
    (hne : s.nextTile t ≠ t) (hr : s.ringStep t l = r) (hi : s.SameIssue r) (hm : r.mem = s.mem)
    (hd : r.tile (s.nextTile t) = s.tile (s.nextTile t)) :
    ∃ u, s.happens u (.ringHandover t) ∧ u.mem = s.mem ∧ u.tile t = { r.tile t with engine := (r.tile t).engine.sent } ∧
      (u.tile (s.nextTile t)).engine = g := by
  have ends := handover_taken ho hj ht
  rw [hr] at ends
  obtain ⟨u, hu, hum, tiles⟩ := happens_of_happen (i := .ringHandover t) (g := fun s => s.handover t) rfl ends
    ⟨hi.cur, hi.cid, hi.compute, hi.slots, hi.turns⟩
  refine ⟨u, hu, hum.trans hm, ?_, ?_⟩
  · rw [tiles, modEngine_eq, modTile_tile_same, modEngine_eq, modTile_tile, if_neg (Ne.symm hne)]
  · rw [tiles, modEngine_eq, modTile_tile, if_neg hne, modEngine_eq, modTile_tile_same, hd, ht, Option.getD_some]

end

end Sys2Proof.Machine
end

section
/-! Whole k-steps and handovers as the statement has them (R154, R160, R277, R278). -/
namespace Sys2Proof.Machine

section
variable {s : State} {t : Nat} {c : MCmd} {rest : List MCmd}

/-- The engine of a tile whose command c accumulated a k-step, when that k-step is done. -/
theorem accumulated_done (x : Tile) (hq : x.engine.queue = c :: rest) (r : Bank × BitVec 11) :
    ((x.accumulated c r).engine.modHead fun c => { c with step := c.step + 1 }).queue = { c with step := c.step + 1 } :: rest := by
  rw [modHead_eq _ _ ((accumulated_queue x c r).trans hq)]

theorem kstep_adds (hq : (s.tile t).engine.queue = c :: rest) (h : s.IntMma t c) (hs : (s.tile t).engine.Steps c) (hb : c.LocalB) :
    ∃ u, s.happens u (.matrixKstep t) ∧ s.KstepAdds t c rest u c.step (fmtOf c.rb) fun k j =>
      (s.tile t).byte (addrOf c.rb + c.step * 4096 + 64 * k + j) := by
  obtain ⟨u, hu, hm, tile⟩ := happens_modTile (i := .matrixKstep t) (g := fun s => s.kstep t) rfl (kstep_local hq h hs hb)
  refine ⟨u, hu, hm, ?_, ?_, ?_⟩
  · rw [tile]
    exact accumulated_done _ hq _
  · rw [tile]
    exact (modHead_bank ..).trans (accumulated_bank ..)
  · rw [State.ctxAt, tile]
    exact accumulated_flags ..

theorem sent_queue (e : Engine) {c : MCmd} {rest : List MCmd} (h : e.queue = c :: rest) :
    e.sent.queue = { c with step := c.step + 1 } :: rest := by
  rw [Engine.sent, modHead_eq _ _ (by exact h)]

theorem handover_adds {l : Latch} (hq : (s.tile t).engine.queue = c :: rest) (h : s.IntMma t c) (ho : (s.tile t).engine.outgoing = some l)
    (hl : l.fmt = 1 ∨ l.fmt = 2) (hne : s.nextTile t ≠ t) (hj : (s.tile (s.nextTile t)).engine.joins (s.tile t).engine)
    (hrec : (s.tile (s.nextTile t)).engine.receive = none) (hres : (s.tile (s.nextTile t)).engine.reserved = 0) :
    ∃ u, s.happens u (.ringHandover t) ∧ (s.KstepAdds t c rest u ((s.tile t).engine.idx (memberOf t)) l.fmt.toNat fun k j =>
        l.data.toNat / 256 ^ (64 * k + j) % 256) ∧
      (u.tile t).engine.outgoing = none ∧ (u.tile t).engine.rstep = (s.tile t).engine.rstep + 1 ∧
      (u.tile (s.nextTile t)).engine = { (s.tile (s.nextTile t)).engine with receive := some l } := by
  have free : ¬ (s.tile (s.nextTile t)).engine.receiveReserved = true := by
    rw [receiveReserved_iff, hres]
    split <;> omega
  obtain ⟨u, hu, hm, tile, next⟩ := handover_happens ho hj (take_free hrec free l) hne (ringStep_int8 hq h hl) (sameIssue_modTile ..) rfl
    (by rw [modTile_tile, if_neg hne])
  rw [modTile_tile_same] at tile
  refine ⟨u, hu, ⟨hm, ?_, ?_, ?_⟩, ?_, ?_, next⟩
  · rw [tile]
    exact sent_queue _ ((accumulated_queue ..).trans hq)
  · rw [tile]
    exact (modHead_bank ..).trans (accumulated_bank ..)
  · rw [State.ctxAt, tile]
    exact accumulated_flags ..
  · rw [tile]
    exact modHead_outgoing ..
  · rw [tile]
    exact (modHead_rstep ..).trans (congrArg (· + 1) (setBank_rstep ..))

/-! ## Handovers without a k-step -/

section
variable {l : Latch} (ho : (s.tile t).engine.outgoing = some l) (hne : s.nextTile t ≠ t)
  (hk : ∀ c ∈ (s.tile t).engine.queue, c.image.toNat / 2 ^ 22 % 256 ≠ 0x10)
include ho hne hk

/-- A member that does not run the same ring refuses the buffer. -/
theorem handover_steps_refused (hj : ¬ (s.tile (s.nextTile t)).engine.joins (s.tile t).engine) :
    ∃ u, s.happens u (.ringHandover t) ∧ u.mem = s.mem ∧ (u.tile t).engine = { (s.tile t).engine.sent with refused := some (s.nextPos t) } ∧
      (u.tile (s.nextTile t)).engine = (s.tile (s.nextTile t)).engine := by
  have ends := handover_refused ho hj
  rw [ringStep_other hk] at ends
  obtain ⟨u, hu, hm, tiles⟩ := happens_of_happen (i := .ringHandover t) (g := fun s => s.handover t) rfl ends (sameIssue_modTile ..)
  refine ⟨u, hu, hm, ?_, ?_⟩
  · rw [tiles, modEngine_eq, modTile_tile_same]
  · rw [tiles, modEngine_eq, modTile_tile, if_neg hne]

theorem handover_steps_taken (hj : (s.tile (s.nextTile t)).engine.joins (s.tile t).engine)
    (hrec : (s.tile (s.nextTile t)).engine.receive = none) (free : ¬ (s.tile (s.nextTile t)).engine.receiveReserved = true) :
    ∃ u, s.happens u (.ringHandover t) ∧ u.mem = s.mem ∧ (u.tile t).engine = (s.tile t).engine.sent ∧
      (u.tile (s.nextTile t)).engine = { (s.tile (s.nextTile t)).engine with receive := some l } := by
  obtain ⟨u, hu, hm, tile, next⟩ := handover_happens ho hj (take_free hrec free l) hne (ringStep_other hk l) (.refl s) rfl rfl
  exact ⟨u, hu, hm, by rw [tile], next⟩

omit hne hk in
/-- A full or reserved receive buffer keeps the handover waiting. -/
theorem handover_steps_blocked (hj : (s.tile (s.nextTile t)).engine.joins (s.tile t).engine)
    (full : (s.tile (s.nextTile t)).engine.receive ≠ none ∨ (s.tile (s.nextTile t)).engine.receiveReserved = true) :
    ∃ u, s.happens u (.ringHandover t) ∧ u.mem = s.mem ∧ (u.tile t).engine = (s.tile t).engine ∧
      (u.tile (s.nextTile t)).engine = (s.tile (s.nextTile t)).engine := by
  obtain ⟨u, hu, hm, tiles⟩ := happens_of_happen (i := .ringHandover t) (g := fun s => s.handover t) rfl
    (handover_blocked ho hj (take_blocked full l)) (.refl s)
  exact ⟨u, hu, hm, by rw [tiles], by rw [tiles]⟩

end
end

end Sys2Proof.Machine
end

section
/-! What the other commands of the matrix engine do when they retire (R158, R160, R279 to R283), and the engine's trap (R160). -/
namespace Sys2Proof.Machine

/-! ## Writes to scratch leave the rest of a tile -/

theorem localWrite_eq (x : Tile) (o n v : Nat) : x.localWrite o n v = { x with pins := (x.localWrite o n v).pins } := by
  unfold Tile.localWrite
  induction pieces o n generalizing x with
  | nil => rfl
  | cons q l ih =>
    rw [List.foldl_cons, ih]
    rfl

theorem localWrite_engine (x : Tile) (o n v : Nat) : (x.localWrite o n v).engine = x.engine := by rw [localWrite_eq]
theorem localWrite_ctxs (x : Tile) (o n v : Nat) : (x.localWrite o n v).ctxs = x.ctxs := by rw [localWrite_eq]

/-! ## Retirement -/

/-- Command c is at the head of a running engine with no buffer on its way. -/
structure State.Heads (s : State) (t : Nat) (c : MCmd) (rest : List MCmd) : Prop where
  queue : (s.tile t).engine.queue = c :: rest
  runs : (s.tile t).engine.stopped = false
  sent : (s.tile t).engine.outgoing = none

/-- The head command leaves the engine as g, with the commands behind it. -/
def State.RetiresAs (s : State) (t : Nat) (rest : List MCmd) (g : Engine) : Prop :=
  ∃ u, s.happens u (.matrixCommandRetirement t) ∧ u.mem = s.mem ∧ (u.tile t).engine = { g with queue := rest }

section
variable {s : State} {t : Nat} {c : MCmd} {rest : List MCmd}

theorem retires_modEngine {f : Engine → Engine} (he : s.retireCmd t = s.modEngine t f) :
    ∃ u, s.happens u (.matrixCommandRetirement t) ∧ u.mem = s.mem ∧ (u.tile t).engine = f (s.tile t).engine := by
  obtain ⟨u, hu, hm, tile⟩ := happens_modTile (i := .matrixCommandRetirement t) (g := fun s => s.retireCmd t) rfl (he.trans (modEngine_eq ..))
  exact ⟨u, hu, hm, by rw [tile]⟩

theorem retires_of_retire {f : Engine → Engine} (h : s.Heads t c rest) (he : s.retireCmd t = s.modEngine t fun e => (f e).retire)
    (hf : (f (s.tile t).engine).queue = (s.tile t).engine.queue) : s.RetiresAs t rest (f (s.tile t).engine) := by
  obtain ⟨u, hu, hm, engine⟩ := retires_modEngine he
  refine ⟨u, hu, hm, ?_⟩
  rw [engine, Engine.retire, hf, h.queue, List.tail_cons]

/-! ### C-words -/

theorem retires_rstep (h : s.Heads t c rest) (hw : c.image.getLsbD 31 = false) (hsub : c.image.toNat / 32 % 16 = 0) :
    s.RetiresAs t rest { (s.tile t).engine with rstep := 0 } := by
  refine retires_of_retire (f := fun e => { e with rstep := 0 }) h ?_ rfl
  simp [State.retireCmd, h.queue, h.runs, h.sent, sub_word hw, hsub]

theorem retires_zero (h : s.Heads t c rest) (hw : c.image.getLsbD 31 = false) (hsub : c.image.toNat / 32 % 16 = 2) :
    s.RetiresAs t rest ((s.tile t).engine.setBank (c.image.toNat % 2) Bank.reset) := by
  refine retires_of_retire (f := fun e => e.setBank (c.image.toNat % 2) Bank.reset) h ?_ (setBank_queue ..)
  simp [State.retireCmd, h.queue, h.runs, h.sent, sub_word hw, hsub]

theorem retires_word (h : s.Heads t c rest) (hw : c.image.getLsbD 31 = false) (h0 : c.image.toNat / 32 % 16 ≠ 0)
    (h2 : c.image.toNat / 32 % 16 ≠ 2) : s.RetiresAs t rest (s.tile t).engine := by
  refine retires_of_retire (f := id) h ?_ rfl
  generalize hn : c.image.toNat / 32 % 16 = n at h0 h2
  simp only [State.retireCmd, h.queue, h.runs, h.sent, sub_word hw, hn, Option.isSome_none, Bool.or_false, Bool.false_eq_true, if_false]
  rfl

/-! ### Lone commands -/

/-- The latch of one slice without scales. -/
theorem latchOf_plain (x : Tile) (pos : Nat) (hplane : c.image.toNat / 2 ^ 32 % 4096 = 0) (hblog : blogOf c.ra = 0) :
    x.latchOf c pos 0 = ⟨BitVec.ofNat 65536 (x.localRead (addrOf c.ra) 4096), BitVec.ofNat 5 (fmtOf c.ra), 0, 0x3F80, 0, pos⟩ := by
  have plane : (bits c.image 32 12).toNat = 0 := (bits_toNat ..).trans hplane
  simp only [Tile.latchOf, plane, hblog, blocksOf, if_true, Tile.band]
  rfl

/-- MROT sends the consume buffer, or a received one that moves up. -/
theorem rotate_first (e : Engine) (hsent : e.outgoing = none) (hstep : c.step = 0) : e.rotate c =
    match e.consume, e.receive with
    | some l, _ => { e with outgoing := some l, consume := none }
    | none, some l => { e with outgoing := some l, receive := none }
    | none, none => e := by
  rw [Engine.rotate, if_pos hstep, Engine.shift]
  cases hc : e.consume with
  | some l => simp [hc, hsent]
  | none =>
    cases hr : e.receive with
    | some l => simp [hsent, ← hc]
    | none => simp

section
variable (h : s.Heads t c rest) (hl : c.image.getLsbD 31 = true)
include h hl

theorem retires_mma (hlop : c.image.toNat / 2 ^ 22 % 256 = 0x10) (hn : (mmaF c.image c.rc).n ≤ c.step) :
    s.RetiresAs t rest (s.tile t).engine := by
  refine retires_of_retire (f := id) h ?_ rfl
  simp only [State.retireCmd, h.queue, h.runs, h.sent, sub_lone hl, (lop_lone hl).trans hlop, Option.isSome_none, Bool.or_false,
    Bool.false_eq_true, if_false, hn, if_true]
  rfl

theorem retires_mldb (hlop : c.image.toNat / 2 ^ 22 % 256 = 0x12) (hn : c.image.toNat % 64 = 1)
    (hplane : c.image.toNat / 2 ^ 32 % 4096 = 0) (hblog : blogOf c.ra = 0) (hfree : (s.tile t).engine.consume = none) :
    s.RetiresAs t rest { (s.tile t).engine with
      reserved := (s.tile t).engine.reserved - 1
      consume := some ⟨BitVec.ofNat 65536 ((s.tile t).localRead (addrOf c.ra) 4096), BitVec.ofNat 5 (fmtOf c.ra), 0, 0x3F80, 0,
        (s.tile t).engine.pos (memberOf t)⟩ } := by
  have one : (bits c.image 0 6).toNat = 1 := by
    rw [bits_toNat, Nat.pow_zero, Nat.div_one]
    exact hn
  have ends : s.retireCmd t = s.modEngine t fun _ => (s.tile t).retireMldb c ((s.tile t).engine.pos (memberOf t)) := by
    simp only [State.retireCmd, h.queue, h.runs, h.sent, sub_lone hl, (lop_lone hl).trans hlop, Option.isSome_none, Bool.or_false,
      Bool.false_eq_true, if_false]
  obtain ⟨u, hu, hm, engine⟩ := retires_modEngine ends
  refine ⟨u, hu, hm, ?_⟩
  rw [engine]
  simp only [Tile.retireMldb, one, List.range_one, List.foldl_cons, List.foldl_nil, Engine.fill, hfree, Option.isNone_none, if_true,
    Engine.retire, h.queue, List.tail_cons, latchOf_plain _ _ hplane hblog]

theorem retireCmd_rotate (hlop : c.image.toNat / 2 ^ 22 % 256 = 0x13) : s.retireCmd t = s.modEngine t fun e => e.rotate c := by
  simp only [State.retireCmd, h.queue, h.runs, h.sent, sub_lone hl, (lop_lone hl).trans hlop, Option.isSome_none, Bool.or_false,
    Bool.false_eq_true, if_false]

/-- MROT whose buffer has gone retires, unless it waits for an incoming one. -/
theorem retires_mrot (hlop : c.image.toNat / 2 ^ 22 % 256 = 0x13) (hstep : c.step ≠ 0)
    (hin : c.image.getLsbD 0 = false ∨ (s.tile t).engine.consume ≠ none ∨ (s.tile t).engine.receive ≠ none) :
    s.RetiresAs t rest (s.tile t).engine := by
  have goes : (c.image.getLsbD 0 && (s.tile t).engine.consume.isNone && (s.tile t).engine.receive.isNone) = false := by
    rcases hin with h0 | h0 | h0
    · rw [h0]
      rfl
    · rw [Option.isNone_eq_false_iff.2 (Option.isSome_iff_ne_none.2 h0), Bool.and_false, Bool.false_and]
    · rw [Option.isNone_eq_false_iff.2 (Option.isSome_iff_ne_none.2 h0), Bool.and_false]
  obtain ⟨u, hu, hm, engine⟩ := retires_modEngine (retireCmd_rotate h hl hlop)
  refine ⟨u, hu, hm, ?_⟩
  rw [engine, Engine.rotate, if_neg hstep, goes, if_neg Bool.false_ne_true, Engine.retire, h.queue, List.tail_cons]

end

end

/-! ### MSTORE and MLOAD in scratch -/

theorem cmdLines_scratch (s : State) (t : Nat) {c : MCmd} (h : spaceOf c.ra = 1) (acc : Acc) : s.cmdLines t c acc = (.ok c.addrs, s) := by
  rw [State.cmdLines, h]
  rfl

/-- What MSTORE without scaling makes of value i of a bank. -/
def MCmd.stored (c : MCmd) (k : Bank) (i : Nat) : Nat × BitVec 11 :=
  storeElem k.mode (c.image.toNat / 8 % 4) (policyOf (c.image.toNat / 2 % 4)) (fmtOf c.ra) (k.code i)

/-- The flags of an MSTORE. -/
def MCmd.storeFlags (c : MCmd) (k : Bank) : BitVec 11 :=
  ((List.range 2048).map (c.stored k)).foldl (fun acc p => acc ||| p.2) (flagIf k.taint fTG)

/-- The bytes of an MSTORE. -/
def MCmd.storeBytes (c : MCmd) (k : Bank) : Nat := packNat (fmtBits (fmtOf c.ra)) ((List.range 2048).map fun i => (c.stored k i).1)

theorem storeImage_plain {c : MCmd} (h : c.image.getLsbD 6 = false) (k : Bank) :
    storeImage k c = (c.storeBytes k, 0, c.storeFlags k) := by
  simp only [storeImage, h, Bool.false_eq_true, if_false, bits_toNat, codesOf_eq, List.map_map]
  rfl

theorem packNat_mod_digit {w n : Nat} {l : List Nat} (h : w * l.length = n) (i : Nat) :
    packNat w l % 2 ^ n / 2 ^ (w * i) % 2 ^ w = l.getD i 0 % 2 ^ w := by
  subst h
  rw [Nat.mod_eq_of_lt (packNat_lt w l), packNat_digit]

theorem storeBytes_digit (c : MCmd) (k : Bank) {i : Nat} (hi : i < 2048) :
    c.storeBytes k % 2 ^ (8 * (256 * fmtBits (fmtOf c.ra))) / 2 ^ (fmtBits (fmtOf c.ra) * i) % 2 ^ fmtBits (fmtOf c.ra) =
      (c.stored k i).1 % 2 ^ fmtBits (fmtOf c.ra) := by
  rw [MCmd.storeBytes, packNat_mod_digit (by rw [List.length_map, List.length_range]; ring), getD_map_range _ _ hi]

/-- The engine after an MSTORE, whose bit 5 empties the bank. -/
def MCmd.afterStore (c : MCmd) (e : Engine) : Engine :=
  (if c.image.getLsbD 5 then e.setBank (c.image.toNat % 2) Bank.reset else e).retire

theorem afterStore_queue (c : MCmd) (e : Engine) : (c.afterStore e).queue = e.queue.tail := by
  unfold MCmd.afterStore
  split
  · exact congrArg List.tail (setBank_queue ..)
  · rfl

theorem retire_bank (e : Engine) (b : Nat) : e.retire.bank b = e.bank b := rfl

theorem afterStore_bank (c : MCmd) (e : Engine) : (c.afterStore e).bank (c.image.toNat % 2) =
    if c.image.getLsbD 5 then Bank.reset else e.bank (c.image.toNat % 2) := by
  unfold MCmd.afterStore
  split
  · rw [retire_bank, setBank_bank]
  · rw [retire_bank]

/-- What MLOAD makes of value i of those read. -/
def MCmd.loaded (c : MCmd) (v i : Nat) : Nat × BitVec 11 :=
  loadElem (fmtOf c.ra) (v / 2 ^ (fmtBits (fmtOf c.ra) * i) % 2 ^ fmtBits (fmtOf c.ra))

/-- The bank after an MLOAD of v. -/
def MCmd.loadedBank (c : MCmd) (v : Nat) : Bank :=
  ⟨BitVec.ofNat 114688 (packNat 56 ((List.range 2048).map fun i => (c.loaded v i).1)), loadMode (fmtOf c.ra), false⟩

theorem loadedBank_code (c : MCmd) (v : Nat) {i : Nat} (hi : i < 2048) : (c.loadedBank v).code i = (c.loaded v i).1 % 2 ^ 56 := by
  rw [MCmd.loadedBank, packed_code _ _ _ hi, getD_map_range _ _ hi]

/-- The flags of an MLOAD of v. -/
def MCmd.loadFlags (c : MCmd) (v : Nat) : BitVec 11 := ((List.range 2048).map (c.loaded v)).foldl (fun acc p => acc ||| p.2) 0

section
variable {s : State} {t : Nat} {c : MCmd} {rest : List MCmd} (h : s.Heads t c rest) (hl : c.image.getLsbD 31 = true)
  (hctl : mhas (s.tile t).ctxs 0 = true) (hspace : spaceOf c.ra = 1)
include h hl hctl hspace

theorem retireCmd_store (hlop : c.image.toNat / 2 ^ 22 % 256 = 0x14) (hplain : c.image.getLsbD 6 = false) :
    s.retireCmd t = s.modTile t fun x =>
      let y := (x.localWrite (addrOf c.ra) (256 * fmtBits (fmtOf c.ra))
        (c.storeBytes ((s.tile t).engine.bank (c.image.toNat % 2)))).raised c (c.storeFlags ((s.tile t).engine.bank (c.image.toNat % 2)))
      { y with engine := c.afterStore y.engine } := by
  have ends : s.retireCmd t = (s.retireStore t c).getD s := by
    simp only [State.retireCmd, h.queue, h.runs, h.sent, sub_lone hl, (lop_lone hl).trans hlop, cmdLines_scratch s t hspace,
      Option.isSome_none, Bool.or_false, Bool.false_eq_true, if_false, ne_eq, not_true_eq_false, decide_false, Bool.false_and, if_true]
  rw [ends]
  simp only [State.retireStore, storeImage_plain hplain, hplain, hspace, bankBit, Bool.false_eq_true, if_false, if_true, Option.map_some,
    Option.getD_some]
  rw [raiseMatrix_eq (by rw [modTile_tile_same, localWrite_ctxs]; exact hctl), modEngine_eq, modTile_modTile, modTile_modTile]
  rfl

/-- MSTORE of a whole bank without scaling into scratch. -/
theorem retires_store (hlop : c.image.toNat / 2 ^ 22 % 256 = 0x14) (hplain : c.image.getLsbD 6 = false) :
    ∃ u, s.happens u (.matrixCommandRetirement t) ∧ u.mem = s.mem ∧ (u.tile t).engine.queue = rest ∧
      (u.tile t).engine.bank (c.image.toNat % 2) =
        (if c.image.getLsbD 5 then Bank.reset else (s.tile t).engine.bank (c.image.toNat % 2)) ∧
      ∀ i < 2048, (u.tile t).localRead (addrOf c.ra) (256 * fmtBits (fmtOf c.ra)) / 2 ^ (fmtBits (fmtOf c.ra) * i) %
        2 ^ fmtBits (fmtOf c.ra) = (c.stored ((s.tile t).engine.bank (c.image.toNat % 2)) i).1 % 2 ^ fmtBits (fmtOf c.ra) := by
  obtain ⟨u, hu, hm, tile⟩ := happens_modTile (i := .matrixCommandRetirement t) (g := fun s => s.retireCmd t) rfl
    (retireCmd_store h hl hctl hspace hlop hplain)
  refine ⟨u, hu, hm, ?_, ?_, fun i hi => ?_⟩
  · rw [tile]
    exact (afterStore_queue ..).trans (by rw [raised_engine, localWrite_engine, h.queue, List.tail_cons])
  · rw [tile]
    exact (afterStore_bank ..).trans (by rw [raised_engine, localWrite_engine])
  · have read : (u.tile t).localRead (addrOf c.ra) (256 * fmtBits (fmtOf c.ra)) =
        c.storeBytes ((s.tile t).engine.bank (c.image.toNat % 2)) % 2 ^ (8 * (256 * fmtBits (fmtOf c.ra))) := by
      rw [tile]
      exact localRead_localWrite ..
    rw [read, storeBytes_digit _ _ hi]

theorem retireCmd_load (hlop : c.image.toNat / 2 ^ 22 % 256 = 0x15) (hstep : c.step = 0) :
    s.retireCmd t = s.modTile t fun x =>
      let v := (s.tile t).localRead (addrOf c.ra) (256 * fmtBits (fmtOf c.ra))
      let y := x.raised c (c.loadFlags v)
      { y with engine := (y.engine.setBank (c.image.toNat % 2) (c.loadedBank v)).retire } := by
  have ends : s.retireCmd t = s.retireLoad t c := by
    simp only [State.retireCmd, h.queue, h.runs, h.sent, sub_lone hl, (lop_lone hl).trans hlop, cmdLines_scratch s t hspace,
      Option.isSome_none, Bool.or_false, Bool.false_eq_true, if_false]
    rw [if_neg (by rw [hstep]; decide)]
    exact if_neg (by decide)
  rw [ends]
  simp only [State.retireLoad, hspace, bankBit, if_true, codesOf_eq, List.map_map]
  rw [raiseMatrix_eq hctl, modEngine_eq, modTile_modTile]
  rfl

/-- MLOAD of a whole bank from scratch. -/
theorem retires_load (hlop : c.image.toNat / 2 ^ 22 % 256 = 0x15) (hstep : c.step = 0) :
    ∃ u, s.happens u (.matrixCommandRetirement t) ∧ u.mem = s.mem ∧ (u.tile t).engine.queue = rest ∧
      (u.tile t).engine.bank (c.image.toNat % 2) = c.loadedBank ((s.tile t).localRead (addrOf c.ra) (256 * fmtBits (fmtOf c.ra))) := by
  obtain ⟨u, hu, hm, tile⟩ := happens_modTile (i := .matrixCommandRetirement t) (g := fun s => s.retireCmd t) rfl
    (retireCmd_load h hl hctl hspace hlop hstep)
  refine ⟨u, hu, hm, ?_, ?_⟩
  · rw [tile]
    exact (congrArg List.tail (setBank_queue ..)).trans (by rw [raised_engine, h.queue, List.tail_cons])
  · rw [tile]
    exact setBank_bank ..

end

end Sys2Proof.Machine
end

section
/-! The trap of the matrix engine as the control context takes it (R160). -/
namespace Sys2Proof.Machine

/-- The address of a unit, as a word. -/
theorem entryWord_eq (e : BitVec 49) : zext (e ++ 0#3) = BitVec.ofNat 64 (e.toNat * 8) := by
  refine BitVec.eq_of_toNat_eq ?_
  have := e.isLt
  rw [BitVec.toNat_setWidth, BitVec.toNat_append, BitVec.toNat_ofNat]
  simp [Nat.shiftLeft_eq]

theorem unitAddr_eq (pc : Word) : unitAddr pc = BitVec.ofNat 49 (pc.toNat / 8) := by
  refine BitVec.eq_of_toNat_eq ?_
  rw [unitAddr, bits_toNat, BitVec.toNat_ofNat]
  rfl

/-- A control context with nothing fetched ahead after a trap of the matrix engine. -/
def Ctx.matrixTrapped (k : Ctx) (m : MTrap) : Ctx := { k with
  trapPc := unitAddr k.pc, mx := true, stream := true, cause := m.code, trapVal := m.val
  pixK := false, pixIndex := BitVec.ofNat 16 m.index, pixC := k.skipC, ppriv := k.priv, priv := true, tip := true
  pc := zext (k.evBase ++ 0#3), npc := zext (k.evBase ++ 0#3), skipC := false
  waitFrom := none, timeFrom := none, late := 0 }

theorem takeOuterTrap_matrix {s : State} {t : Nat} (h : (s.ctxAt t 0).backlog = []) (m : MTrap) :
    s.takeOuterTrap t true m.code m.val (some m.index) =
      s.modTile t fun x => ({ x with fuse := none, quiet := none } : Tile).setCtx 0 ((s.ctxAt t 0).matrixTrapped m) := by
  simp only [State.takeOuterTrap, h, State.setCtxAt, modTile_modTile, Ctx.matrixTrapped]

/-- The tile after it took the engine's trap. -/
def Tile.matrixTrapped (x : Tile) (m : MTrap) : Tile :=
  ({ x with engine := { x.engine with trap := none }, fuse := none, quiet := none } : Tile).setCtx 0 ((x.ctx 0).matrixTrapped m)

/-- The control context takes the trap, when it is at a unit boundary with TIP clear. -/
theorem exec_matrixTrap {s : State} {t : Nat} {m : MTrap} (hm : (s.tile t).engine.trap = some m) (htip : (s.ctxAt t 0).tip = false)
    (hctl : mhas (s.tile t).ctxs 0 = true) (hlong : (s.ctxAt t 0).midLong = false) (hback : (s.ctxAt t 0).backlog = []) :
    exec (.matrixTrap t) s = .next { s.modTile t fun x => x.matrixTrapped m with fate := .done } := by
  have ctx : (s.modTile t fun x => { x with engine := { x.engine with trap := none } }).ctxAt t 0 = s.ctxAt t 0 := by
    rw [State.ctxAt, modTile_tile_same]
    rfl
  show execMatrixTrap t s = _
  simp only [execMatrixTrap, happen_run, hm, htip, hctl, hlong, Bool.not_true, Bool.or_self, Bool.false_eq_true, if_false]
  rw [takeOuterTrap_matrix (by rw [ctx]; exact hback), modTile_modTile, ctx]
  rfl

theorem matrixTrapped_engine (x : Tile) (m : MTrap) : (x.matrixTrapped m).engine = { x.engine with trap := none } := rfl
theorem matrixTrapped_ctx (x : Tile) (m : MTrap) : (x.matrixTrapped m).ctx 0 = (x.ctx 0).matrixTrapped m := by
  rw [Tile.matrixTrapped, setCtx_tile_ctx, if_pos rfl]

/-- The engine's trap, as an event. -/
theorem matrixTrap_happens {s : State} {t : Nat} {m : MTrap} (hm : (s.tile t).engine.trap = some m) (htip : (s.ctxAt t 0).tip = false)
    (hctl : mhas (s.tile t).ctxs 0 = true) (hlong : (s.ctxAt t 0).midLong = false) (hback : (s.ctxAt t 0).backlog = []) :
    ∃ u, s.happens u (.matrixTrap t) ∧ u.mem = s.mem ∧ (u.tile t).engine = { (s.tile t).engine with trap := none } ∧
      u.ctxAt t 0 = (s.ctxAt t 0).matrixTrapped m := by
  obtain ⟨u, hu, hmem, tile⟩ := happens_of_modTile (exec_matrixTrap hm htip hctl hlong hback)
  refine ⟨u, hu, hmem, by rw [tile, matrixTrapped_engine], ?_⟩
  rw [State.ctxAt, tile]
  exact matrixTrapped_ctx ..

end Sys2Proof.Machine
end

section
/-! O43: what the matrix engine does. -/
namespace Sys2Proof.Machine

/-- A bank's value as the statement writes it. -/
theorem value_eq (b : Bank) (p : Nat) : ((b.vals.toNat / 2 ^ (56 * p) % 2 ^ 56 : Nat) : Int).bmod (2 ^ 56) = i56 (b.code p) :=
  (i56_eq (code_lt b p)).symm

/-- Settles O43, by what each event leaves of the engine: a k-step of int8 operands is a tile step whose outputs are the saturated exact sums, a handover is
that step with the buffer passed on, and each other command retires as its own rule says. -/
theorem matrixEngine : Obligations.MatrixEngine := by
  unfold Obligations.MatrixEngine
  refine ⟨?_, ?_, ?_, ?_⟩
  · intro s t c rest x e m bank hq hlone hmma hdense hplane hblocks hfmt hmode hctl int val adds
    have mma : s.IntMma t c := ⟨hlone, hmma, hdense, hplane, hblocks, hfmt, hmode, hctl⟩
    have added {u : State} {slice fb : Nat} {b : Nat → Nat → Nat} (h : s.KstepAdds t c rest u slice fb b) : adds u slice fb b := by
      refine ⟨h.mem, h.queue, h.mode mma, fun i hi j hj => ?_, h.flags_cases, ?_⟩
      · simp only [val, value_eq]
        exact h.value hi hj
      · rintro ⟨i, hi, j, hj, hsat⟩
        simp only [val, value_eq] at hsat
        exact h.flags_saturated hi hj hsat
    refine ⟨fun hrun hsent htaken hmore hloc hlayout hbplane hbblocks hbfmt => ?_, ?_⟩
    · obtain ⟨u, hu, h⟩ := kstep_adds hq mma ⟨hrun, hsent, htaken, hmore⟩ ⟨hloc, hlayout, hbplane, hbblocks, hbfmt⟩
      exact ⟨u, hu, added h⟩
    · intro l p d g ho hl hne hen horder hlogp hrec hres
      obtain ⟨u, hu, h, hafter⟩ := handover_adds hq mma ho hl hne ⟨hen, horder, hlogp⟩ hrec hres
      exact ⟨u, hu, added h, hafter⟩
  · intro s t l e q d g ho hne hk sent step reserves
    refine ⟨fun hj => handover_steps_refused ho hne hk fun ⟨hen, horder, hlogp⟩ => ?_, fun hen horder hlogp => ⟨fun hrec free => ?_, fun full => ?_⟩⟩
    · rcases hj with h | h | h
      · exact Bool.false_ne_true (h.symm.trans hen)
      · exact h horder
      · exact h hlogp
    · exact handover_steps_taken ho hne hk ⟨hen, horder, hlogp⟩ hrec (mt (receiveReserved_iff g).1 free)
    · exact handover_steps_blocked ho ⟨hen, horder, hlogp⟩ (full.imp_right (receiveReserved_iff g).2)
  · intro s t c rest x e b sub lop fa w code hq hrun hsent hctl becomes
    have head : s.Heads t c rest := ⟨hq, hrun, hsent⟩
    refine ⟨fun hword => ⟨fun h0 => retires_rstep head hword h0, fun h2 => retires_zero head hword h2,
      fun h0 h2 => retires_word head hword h0 h2⟩, fun hlone => ⟨fun hlop hn => retires_mma head hlone hlop hn,
      fun hlop hn hplane hblog hfree => retires_mldb head hlone hlop hn hplane hblog hfree,
      fun hlop hstep hin => retires_mrot head hlone hlop hstep hin, fun hlop hstep => ?_, fun hlop hspace hplain _ _ _ => ?_,
      fun hlop hspace hstep _ _ => ?_⟩⟩
    · obtain ⟨u, hu, hm, engine⟩ := retires_modEngine (retireCmd_rotate head hlone hlop)
      exact ⟨u, hu, hm, engine.trans (rotate_first e hsent hstep)⟩
    · exact retires_store head hlone hctl hspace hlop hplain
    · obtain ⟨u, hu, hm, hqueue, hbank⟩ := retires_load head hlone hctl hspace hlop hstep
      refine ⟨u, hu, hm, hqueue, ?_, fun i hi => ?_⟩
      · rw [hbank]
        rfl
      · simp only [b, hbank]
        exact loadedBank_code c _ hi
  · intro s t m k h hm htip hctl hlong hback
    obtain ⟨u, hu, hmem, engine, ctx⟩ := matrixTrap_happens hm htip hctl hlong hback
    refine ⟨u, hu, hmem, engine, ctx.trans ?_⟩
    rw [Ctx.matrixTrapped, entryWord_eq, unitAddr_eq]

end Sys2Proof.Machine
end

section
/-! Releases and acquires with nothing under way (R80, R81), and the oldest load that leaves the pending state (R140). -/
namespace Sys2Proof.Machine

/-! ## A part that leaves its context as it is -/

/-- The state with its own context written back. -/
def State.touchCtx (s : State) : State := s.setCtx s.ctx

@[simp] theorem touchCtx_ctx (s : State) : s.touchCtx.ctx = s.ctx := setCtx_ctx ..
@[simp] theorem touchCtx_cur (s : State) : s.touchCtx.cur = s.cur := rfl
@[simp] theorem touchCtx_cid (s : State) : s.touchCtx.cid = s.cid := rfl

/-- What a part's own tile holds besides its context. -/
theorem setCtx_tile_cur (s : State) (k : Ctx) : (s.setCtx k).tile s.cur = (s.tile s.cur).setCtx s.cid k := by
  simp [State.setCtx, State.setCtxAt]

/-- A part that issues in cycle n and changes its context alone. -/
theorem elseAs_setCtx (s : State) (k : Ctx) (n : Nat) : s.elseAs { s.setCtx k with now := n, fate := .done } n := by
  have own : ({ s.setCtx k with now := n, fate := .done } : State).ctx = k := setCtx_ctx s k
  rw [State.elseAs, own]
  exact congrArg (fun t : State => { t with now := n, fate := .done }) (setCtx_setCtx s k k)

/-- A part that issues in cycle n and does nothing else, or writes its context back. -/
theorem issued_done (s : State) (n : Nat) : s.issued { s with now := n, fate := .done } n := ⟨rfl, rfl⟩
theorem issued_touched (s : State) (n : Nat) : s.issued { s.touchCtx with now := n, fate := .done } n :=
  ⟨elseAs_setCtx s s.ctx n, touchCtx_ctx s⟩

/-- A change of the part's own tile that does not look at its context comes before or after a change of the context. -/
theorem modTile_setCtx {s : State} {f : Tile → Tile} (k : Ctx) (h : ∀ x c k, f (Tile.setCtx x c k) = (f x).setCtx c k) :
    (s.setCtx k).modTile s.cur f = (s.modTile s.cur f).setCtx k := by
  simp only [State.setCtx, State.setCtxAt, modTile_cur, modTile_cid, modTile_modTile, h]

/-- A change of the part's own tile that leaves its contexts leaves the part's. -/
theorem modTile_ctx {s : State} {f : Tile → Tile} (t : Nat) (h : (f (s.tile t)).ctxs = (s.tile t).ctxs) : (s.modTile t f).ctx = s.ctx := by
  simp only [State.ctx, State.ctxAt, modTile_cur, modTile_cid, modTile_tile]
  split
  case isTrue e => rw [e, Tile.ctx, h]; rfl
  case isFalse => rfl

/-! ## Releases -/

theorem performPairs_none {s : State} (h : s.ctx.vsta = []) (n : Nat) : performPairs n s = .ok ((), s) := by
  have one : performPair s = .ok ((), s) := by
    simp only [performPair, bind_run, get_run, Ctx.pairReady, h, Bool.false_eq_true, if_false, pure_run]
  induction n with
  | zero => rfl
  | succ n ih => rw [performPairs, bind_run, one]; exact ih

theorem touchCtx_loadsDone (s : State) : s.touchCtx.loadsDone = s.loadsDone := by
  simp only [State.loadsDone, touchCtx_ctx]; rfl
theorem touchCtx_storesOpen (s : State) : s.touchCtx.storesOpen = s.storesOpen := by
  have tile : s.touchCtx.tile s.cur = (s.tile s.cur).setCtx s.cid s.ctx := setCtx_tile_cur ..
  simp only [State.storesOpen, State.grantsOpen, State.mstoresOpen, State.asks, touchCtx_cur, touchCtx_cid, tile]
  rfl

theorem releasable_iff (s : State) : s.releasable = true ↔
    s.ctx.vsta = [] ∧ s.ctx.queuesCalm = true ∧ s.loadsDone = true ∧ s.storesOpen = false ∧ s.ctx.losses = [] := by
  simp [State.releasable, and_assoc]

/-- A release that has nothing to wait for and nothing to report changes nothing (R80). -/
theorem release_run {s : State} (h : s.releasable = true) : release s = .ok ((), s.touchCtx) := by
  obtain ⟨hv, hq, hl, hs, hloss⟩ := (releasable_iff s).1 h
  have waits : (!s.touchCtx.loadsDone || s.touchCtx.storesOpen) = false := by
    rw [touchCtx_loadsDone, touchCtx_storesOpen, hl, hs]; rfl
  simp only [release, releaseAfter, bind_run, performPairs_none hv, upd_run, fillQueues_calm hq, get_run]
  rw [← State.touchCtx, waits, touchCtx_ctx, hloss]
  rfl

/-! ## Acquires -/

theorem flashTile_setCtx (s : State) (k : Ctx) : (s.setCtx k).flashTile s.cur = (s.flashTile s.cur).setCtx k :=
  modTile_setCtx k fun _ _ _ => rfl
@[simp] theorem flashTile_ctx (s : State) (t : Nat) : (s.flashTile t).ctx = s.ctx := modTile_ctx t rfl
theorem flashed_eq (s : State) : s.flashed s.now = s.flashTile s.cur := rfl

/-- No load's acquire is outstanding, as the statements have it. -/
theorem noAcquire_iff (k : Ctx) : (k.pend.all fun l => !l.acq) = true ↔ (k.pend.any fun l => l.acq) = false := by
  simp

theorem exec_rel (f : CF) (s : State) : exec (.rel f) s = finish release s := rfl
theorem exec_acq (f : CF) (s : State) : exec (.acq f) s = finish (do acquired; flash) s := rfl
theorem exec_fence (f : CF) (s : State) : exec (.fence f) s = finish (do release; acquired; flash; modC Ctx.refetch) s := rfl
theorem exec_tfence (m : BitVec 11) (s : State) : exec (.tfence m) s = execTfence m s := rfl

/-- REL with nothing to wait for (R80). -/
theorem rel_done {s : State} (f : CF) (h : s.releasable = true) : ∃ t, exec (.rel f) s = .next t ∧ s.issued t s.now :=
  ⟨_, (exec_rel f s).trans (finish_ok (release_run h)), issued_touched s s.now⟩

/-- ACQ flashes the tile (R81). -/
theorem acq_done {s : State} (f : CF) (h : (s.ctx.pend.any fun l => l.acq) = false) :
    ∃ t, exec (.acq f) s = .next t ∧ (s.flashed s.now).issued t s.now := by
  refine ⟨_, (exec_acq f s).trans (finish_ok (t := s.flashTile s.cur) ?_), issued_done (s.flashTile s.cur) s.now⟩
  simp only [bind_run, acquired_run h, flash_run]

/-- FENCE flashes the tile, and what its context has fetched is fetched again (R191, R233). -/
theorem fence_run {s : State} (f : CF) (hr : s.releasable = true) (h : (s.ctx.pend.any fun l => l.acq) = false) :
    exec (.fence f) s = .next { (s.flashTile s.cur).setCtx s.ctx.refetch with fate := .done } := by
  refine (exec_fence f s).trans (finish_ok ?_)
  have h' : (s.touchCtx.ctx.pend.any fun l => l.acq) = false := by rw [touchCtx_ctx]; exact h
  simp only [bind_run, release_run hr, acquired_run h', flash_run, modC_run, flashTile_ctx, touchCtx_ctx, touchCtx_cur]
  rw [State.touchCtx, flashTile_setCtx, setCtx_setCtx]

/-- A fetched unit that is not of the backlog has nothing behind it to fetch again. -/
theorem refetch_none {k : Ctx} (h : ∀ p ∈ k.backlog, p.seq ≠ k.useq) : k.refetch = k := by
  have : k.backlog.find? (fun p => p.seq = k.useq) = none := List.find?_eq_none.2 fun p hp => by simpa using h p hp
  rw [Ctx.refetch, this]
theorem refetch_head {k : Ctx} {p : Part} {rest : List Part} (hb : k.backlog = p :: rest) (hp : p.seq = k.useq) (hv : k.vsta = []) : k.refetch = { k with
    pc := p.pc + 8, seq := p.seq + 1, skipC := false, sregs := p.sregs, kregs := p.kregs, pend := p.pend, backlog := [p], late := 0, vsta := []
    dqs := k.dqs.map fun q => q.filter fun e => e.seq ≤ p.seq
    lostLoads := k.keepLost p.seq } := by
  have : k.backlog.find? (fun q => q.seq = k.useq) = some p := by simp [hb, hp]
  simp only [Ctx.refetch, this, hv, List.filter_nil]

theorem fence_done {s : State} (f : CF) (hr : s.releasable = true) (ha : (s.ctx.pend.any fun l => l.acq) = false)
    (h : ∀ p ∈ s.ctx.backlog, p.seq ≠ s.ctx.useq) : ∃ t, exec (.fence f) s = .next t ∧ (s.flashed s.now).issued t s.now := by
  refine ⟨_, fence_run f hr ha, ?_⟩
  rw [refetch_none h, flashed_eq, ← flashTile_ctx s s.cur]
  exact issued_touched (s.flashTile s.cur) s.now

theorem fence_refetches {s : State} (f : CF) (hr : s.releasable = true) (ha : (s.ctx.pend.any fun l => l.acq) = false) :
    ∃ t, exec (.fence f) s = .next t ∧ (s.flashed s.now).elseAs t s.now ∧ t.ctx = s.ctx.refetch :=
  ⟨_, fence_run f hr ha, elseAs_setCtx (s.flashTile s.cur) s.ctx.refetch s.now, setCtx_ctx ..⟩

/-! ## Loads that leave the pending state -/

/-- The oldest load leaves the pending state with its value: its bytes are all there, and it is no acquire. -/
theorem retireLoad_run {s : State} {l : PendLoad} {rest : List PendLoad} (h : s.ctx.pend = l :: rest) (hb : l.awaits = []) (ha : l.acq = false) :
    retireLoad s = .ok ((), s.setCtx (({ s.ctx with
      pend := rest, backlog := s.ctx.backlog.map fun p => p.retire s.compute l.seq l.raw [] } : Ctx).writeSreg s.compute l.d
        (extendLoad l.size l.signed l.raw))) := by
  simp only [retireLoad, bind_run, get_run, h, hb, settle, ha, List.foldl_nil, BitVec.ofNat_toNat, BitVec.setWidth_eq, if_true,
    Bool.false_eq_true, if_false, ne_eq, not_true, set_run, pure_run]

end Sys2Proof.Machine
end

section
/-! QWAIT and TFENCE (R234, R246). -/
namespace Sys2Proof.Machine

/-- A lost load that QWAIT n covers: at most n loads were issued after it, up to QWAIT's own unit (R370). -/
def Ctx.covers (k : Ctx) (n : Nat) (l : LostLoad) : Prop := l.seq ≤ k.useq ∧ (l.after.filter fun m => m ≤ k.useq).length ≤ n

/-- QWAIT's second half: the first lost load that it covers traps. -/
def reportLost (n : Nat) : M Unit := do
  let k ← getC
  match k.lostLoads.find? fun l => decide (l.seq ≤ k.useq) && decide ((l.after.filter fun m => decide (m ≤ k.useq)).length ≤ n) with
  | some l =>
    modC fun k => { k with lostLoads := k.lostLoads.filter fun m => m ≠ l }
    trapKeep l.cause l.ptr
  | none => pure ()

theorem exec_qwait_eq (f : CF) (s : State) : exec (.qwait f) s = finish (do
    let k ← getC
    retireLoads ((k.pend.filter fun l => decide (l.seq ≤ k.useq)).length - f.p5.toNat)
    reportLost f.p5.toNat) s := rfl

theorem reportLost_none {s : State} {n : Nat} (h : ∀ l ∈ s.ctx.lostLoads, ¬ s.ctx.covers n l) : reportLost n s = .ok ((), s) := by
  have : s.ctx.lostLoads.find? (fun l => decide (l.seq ≤ s.ctx.useq) &&
      decide ((l.after.filter fun m => decide (m ≤ s.ctx.useq)).length ≤ n)) = none :=
    List.find?_eq_none.2 fun l hl => by simpa [Ctx.covers] using h l hl
  simp only [reportLost, bind_run, getC_run, this, pure_run]

theorem reportLost_one {s : State} {n : Nat} {l : LostLoad} (hl : s.ctx.lostLoads = [l]) (h : s.ctx.covers n l) :
    reportLost n s = .error (.trapWith l.cause l.ptr (s.setCtx { s.ctx with lostLoads := [] })) := by
  have : s.ctx.lostLoads.find? (fun l => decide (l.seq ≤ s.ctx.useq) &&
      decide ((l.after.filter fun m => decide (m ≤ s.ctx.useq)).length ≤ n)) = some l := by
    rw [hl]
    exact List.find?_cons_of_pos (by simpa [Ctx.covers] using h)
  have only : s.ctx.lostLoads.filter (fun m => m ≠ l) = [] := by simp [hl]
  simp only [reportLost, bind_run, getC_run, this, modC_run, trapKeep_run, only]

/-- QWAIT n where no more than n loads of the units up to its own are pending (R234). -/
theorem qwait_none {s : State} (f : CF) (h : (s.ctx.pend.filter fun l => l.seq ≤ s.ctx.useq).length ≤ f.p5.toNat) :
    exec (.qwait f) s = finish (reportLost f.p5.toNat) s := by
  rw [exec_qwait_eq, finish, finish]
  simp only [bind_run, getC_run, Nat.sub_eq_zero_of_le h, retireLoads, pure_run]

theorem qwait_done {s : State} (f : CF) (h : (s.ctx.pend.filter fun l => l.seq ≤ s.ctx.useq).length ≤ f.p5.toNat)
    (hl : ∀ l ∈ s.ctx.lostLoads, ¬ s.ctx.covers f.p5.toNat l) : exec (.qwait f) s = .next { s with fate := .done } :=
  (qwait_none f h).trans (finish_ok (reportLost_none hl))

/-- A lost load that QWAIT covers traps (R370). -/
theorem qwait_traps {s : State} (f : CF) {l : LostLoad} (h : (s.ctx.pend.filter fun l => l.seq ≤ s.ctx.useq).length ≤ f.p5.toNat)
    (hl : s.ctx.lostLoads = [l]) (hc : s.ctx.covers f.p5.toNat l) :
    exec (.qwait f) s = .next ((s.setCtx { s.ctx with lostLoads := [] }).takeTrap l.cause l.ptr none) := by
  rw [qwait_none f h, finish, reportLost_one hl hc]
  rfl

/-- The context of the address stream when its oldest load, whose bytes are all there, has left the pending state. -/
def Ctx.loaded (k : Ctx) (l : PendLoad) (rest : List PendLoad) : Ctx :=
  ({ k with pend := rest, backlog := k.backlog.map fun p => p.retire false l.seq l.raw [] } : Ctx).setSreg l.d (extendLoad l.size l.signed l.raw)

theorem loaded_eq (k : Ctx) (l : PendLoad) (rest : List PendLoad) : k.loaded l rest =
    { k with pend := rest, sregs := (k.loaded l rest).sregs, backlog := k.backlog.map fun p => p.retire false l.seq l.raw [] } := by
  unfold Ctx.loaded Ctx.setSreg
  split <;> rfl
theorem loaded_sreg (k : Ctx) (l : PendLoad) (rest : List PendLoad) (r : BitVec 5) :
    (k.loaded l rest).sreg r = if r = l.d ∧ r ≠ 0 then extendLoad l.size l.signed l.raw else k.sreg r := setSreg_sreg ..

/-- QWAIT n with n + 1 loads pending writes the value of the oldest (R140, R234). -/
theorem qwait_retires {s : State} (f : CF) {l : PendLoad} {rest : List PendLoad} (h : s.ctx.pend = l :: rest)
    (hm : (s.ctx.pend.filter fun l => l.seq ≤ s.ctx.useq) = s.ctx.pend) (hn : rest.length = f.p5.toNat) (hb : l.awaits = [])
    (ha : l.acq = false) (hc : s.compute = false) (hl : ∀ l ∈ s.ctx.lostLoads, ¬ s.ctx.covers f.p5.toNat l) :
    exec (.qwait f) s = .next { s.setCtx (s.ctx.loaded l rest) with fate := .done } := by
  have one : (s.ctx.pend.filter fun l => decide (l.seq ≤ s.ctx.useq)).length - f.p5.toNat = 1 := by
    rw [hm, h, List.length_cons, hn, Nat.add_sub_cancel_left]
  have retired : retireLoad s = .ok ((), s.setCtx (s.ctx.loaded l rest)) := by
    rw [retireLoad_run h hb ha, hc, Ctx.loaded, Ctx.writeSreg, Ctx.setSreg]
    split <;> rfl
  have reported : reportLost f.p5.toNat (s.setCtx (s.ctx.loaded l rest)) = .ok ((), s.setCtx (s.ctx.loaded l rest)) := by
    refine reportLost_none ?_
    rw [setCtx_ctx, loaded_eq]
    exact hl
  rw [exec_qwait_eq]
  refine finish_ok ?_
  simp only [bind_run, getC_run, one, retireLoads, retired, pure_run, reported]

theorem retired_iff (s : State) : s.retired = true ↔ (s.cid = 0 && (s.tile s.cur).engine.busy) = false ∧ s.loadsDone = true := by
  simp only [State.retired, Bool.and_eq_true, Bool.not_eq_true']

theorem settled_run {s : State} (h : s.retired = true) : settled s = .ok ((), s) := by
  obtain ⟨hm, hl⟩ := (retired_iff s).1 h
  simp only [settled, bind_run, get_run, hm, hl, Bool.not_true, Bool.false_eq_true, if_false, pure_run]

/-- TFENCE, when all that it waits for is done (R246). -/
theorem tfence_run {s : State} (m : BitVec 11) (h : s.retired = true) :
    exec (.tfence m) s = finish (need (s.ctx.flags &&& m = 0) cARITH (zext (s.ctx.flags &&& m))) s := by
  rw [exec_tfence, execTfence, finish, finish]
  simp only [bind_run, settled_run h, getC_run]

theorem tfence_done {s : State} (m : BitVec 11) (h : s.retired = true) (hf : s.ctx.flags &&& m = 0) :
    exec (.tfence m) s = .next { s with fate := .done } := by
  rw [tfence_run m h, decide_eq_true hf]
  exact finish_ok (need_true ..)
theorem tfence_traps {s : State} (m : BitVec 11) (h : s.retired = true) (hf : s.ctx.flags &&& m ≠ 0) :
    s.traps (.tfence m) 0x20 (BitVec.ofNat 64 (s.ctx.flags &&& m).toNat) := by
  rw [State.traps, tfence_run m h, decide_eq_false hf, finish_trap (need_false ..), zext, BitVec.ofNat_toNat]
  rfl

/-! ## Flags (R244, R245) -/

theorem raise_none {k : Ctx} {f : BitVec 11} (u : BitVec 49) (h : f &&& ~~~k.flags = 0) : k.raise f u = k := by
  simp only [Ctx.raise, h, if_true]
theorem raise_more {k : Ctx} (f : BitVec 11) (u : BitVec 49) (h : k.firstV = true) :
    (k.raise f u).firstV = true ∧ (k.raise f u).firstUnit = k.firstUnit := by
  simp only [Ctx.raise, h, if_true]
  split
  · exact ⟨h, rfl⟩
  · exact ⟨rfl, rfl⟩
theorem raise_first {k : Ctx} {f : BitVec 11} (u : BitVec 49) (h : k.firstV = false) (hf : f &&& ~~~k.flags ≠ 0) :
    (k.raise f u).firstV = true ∧ (k.raise f u).firstUnit = u := by
  simp only [Ctx.raise, h, hf, Bool.false_eq_true, if_false, and_self]

/-- Settles O15: a release with nothing to wait for writes its context back as it was, an acquire flashes the tile, QWAIT retires the oldest load
or reports a lost one, and TFENCE looks at the masked flags. -/
theorem fencesAndFlags : Obligations.FencesAndFlags := by
  unfold Obligations.FencesAndFlags
  refine ⟨⟨fun f s hr ha => ?_, fun f s => ⟨?_, ?_, ?_⟩⟩, fun m s h => ⟨tfence_done m h, tfence_traps m h⟩, fun k f u => ?_⟩
  · have hp := (noAcquire_iff s.ctx).1 ha
    refine ⟨rel_done f hr, acq_done f hp, fence_done f hr hp, fun p rest hb hs => ?_⟩
    obtain ⟨t, he, helse, hctx⟩ := fence_refetches f hr hp
    refine ⟨t, he, helse, ?_⟩
    rw [hctx, refetch_head hb hs ((releasable_iff s).1 hr).1]
  · exact qwait_done f
  · exact fun l h hl hc => qwait_traps f h hl hc
  · intro l rest h hm hn hb ha hc hl
    have own : ({ s.setCtx (s.ctx.loaded l rest) with fate := .done } : State).ctx = s.ctx.loaded l rest := setCtx_ctx ..
    refine ⟨_, qwait_retires f h hm hn hb ha hc hl, ?_, fun r => ?_⟩
    · rw [own, ← loaded_eq]
      exact issued_done (s.setCtx (s.ctx.loaded l rest)) s.now
    · rw [own, loaded_sreg]
  · exact ⟨raise_flags k f u, raise_more f u, raise_first u, raise_none u⟩

end Sys2Proof.Machine
end

section
/-! A line of an array with words that its tile owns and that are not marked valid (R71, R79). -/
namespace Sys2Proof.Machine

/-- Line 0, owned whole, readable and writable, with no word marked valid. -/
def unmarkedLine : Line := ⟨0, 0, 0, 0, BitVec.allOnes 32, 0, 7, 0⟩

/-- Tile 0's control context is to store a doubleword at 0, which s1 names. -/
def unmarkedState : State := { State.reset with
  tiles := [(0, { Tile.reset with mode := .free, ctxs := [(0, Ctx.reset)], lines := [unmarkedLine] })] }

/-- STG.d of s2 at s1. -/
def storeDoubleword : CM := ⟨false, 2, 1, 6, 0⟩

/-- The words of the lines of a state's current tile that are marked valid. -/
def State.validWords (s : State) : List WordMask := (s.tile s.cur).lines.map Line.valid

/-- The store completes in the array and marks its two words valid. -/
theorem unmarkedState_stg_valid : (nextOf (exec (.stg storeDoubleword) unmarkedState)).map State.validWords = some [3] := by decide +kernel

/-- What a part issues as alone leaves the tile's lines as they are. -/
theorem setCtx_validWords (s : State) (k : Ctx) : (s.setCtx k).validWords = s.validWords := by
  rw [State.validWords, setCtx_cur, setCtx_tile_cur]
  rfl
theorem State.issued.validWords {s t : State} {n : Nat} (h : s.issued t n) : t.validWords = s.validWords :=
  calc t.validWords = (t.setCtx t.ctx).validWords := (setCtx_validWords t t.ctx).symm
    _ = ({ s.setCtx t.ctx with now := n, fate := .done } : State).validWords := congrArg State.validWords h.1
    _ = s.validWords := setCtx_validWords s t.ctx

/-- Refutes O21: its first clause asks of the stored words only that the tile owns them, and says of the line that its bytes and its D words change and
nothing else. The model marks the stored words valid too, so the line differs where an owned word was not yet marked. -/
theorem not_globalStores : ¬ Obligations.GlobalStores := by
  unfold Obligations.GlobalStores
  intro h
  obtain ⟨owned, -⟩ := h
  obtain ⟨data, -, ⟨t, he, hissued⟩, -⟩ := owned storeDoubleword unmarkedState 0 unmarkedLine (by decide +kernel) (by decide +kernel)
    (by decide +kernel) (by decide +kernel) (by decide +kernel) (by decide +kernel) rfl (by decide +kernel) (by decide +kernel) (by decide +kernel)
  have marked : t.validWords = [3] := by simpa [he] using unmarkedState_stg_valid
  rw [hissued.validWords, State.validWords, modTile_cur, modTile_tile_same] at marked
  have unmarked : [unmarkedLine.valid] = [3] := marked
  exact absurd unmarked (by decide)

end Sys2Proof.Machine
end

section
/-! Entries of tables after an update, and updates of a package's clusters. -/
namespace Sys2Proof.Machine

/-- What a table gives for a number is an entry of it, or the value of an unlisted one. -/
theorem mget_mem_or (d : α) (m : Map α) (k : Nat) : mget d m k = d ∨ ∃ e ∈ m, e.2 = mget d m k := by
  induction m with
  | nil => exact .inl rfl
  | cons e m ih =>
    obtain ⟨j, v⟩ := e
    simp only [mget]
    split
    · exact .inl rfl
    · split
      · exact .inr ⟨_, .head _, rfl⟩
      · exact ih.imp_right fun ⟨e, he, h⟩ => ⟨e, .tail _ he, h⟩

/-- An entry of a table after an update is the new one, or was there before. -/
theorem mem_mset {m : Map α} {k : Nat} {v : α} {e : Nat × α} (h : e ∈ mset m k v) : e = (k, v) ∨ e ∈ m := by
  induction m with
  | nil => exact .inl (List.mem_singleton.1 h)
  | cons a m ih =>
    obtain ⟨j, w⟩ := a
    simp only [mset] at h
    split at h
    · exact List.mem_cons.1 h
    · split at h
      · exact (List.mem_cons.1 h).imp_right (.tail _)
      · rcases List.mem_cons.1 h with h | h
        · exact .inr (h ▸ .head _)
        · exact (ih h).imp_right (.tail _)

/-- What holds of every cluster that a package lists, and of one at reset, holds of every cluster. -/
theorem cluster_of_listed {P : Cluster → Prop} {x : Device} (h : ∀ c ∈ x.clusters, P c.2) (hr : P Cluster.reset) (n : Nat) : P (x.cluster n) := by
  rcases mget_mem_or Cluster.reset x.clusters n with e | ⟨c, hc, e⟩
  · rw [Device.cluster, e]; exact hr
  · rw [Device.cluster, ← e]; exact h c hc

theorem modCluster_clusters {P : Cluster → Prop} {s : State} {p n q : Nat} {f : Cluster → Cluster} (h : ∀ c ∈ (s.dev q).clusters, P c.2)
    (hf : p = q → P (f ((s.dev q).cluster n))) : ∀ c ∈ ((s.modCluster p n f).dev q).clusters, P c.2 := by
  intro c hc
  rw [State.modCluster, modDev_dev] at hc
  split at hc
  case isTrue e =>
    subst e
    rcases mem_mset hc with rfl | hc
    · exact hf rfl
    · exact h c hc
  case isFalse => exact h c hc

end Sys2Proof.Machine
end

section
/-! A home whose line concerns no one: what its gate does with a request, and what serving it leaves (R73, R76 to R79, R84, R113). -/
namespace Sys2Proof.Machine

/-! ## Slices with room -/

/-- Every slice of a package has a way for a new line. -/
def State.roomy (s : State) (p : Nat) : Prop := ∀ c ∈ (s.dev p).clusters, c.2.slice.length < 16

theorem wayFor_free {s : State} {v : Nat} (h : s.roomy v) (gl : Nat) : s.wayFor v gl = .free := by
  have room : ((s.dev v).cluster (s.sliceOf v gl)).slice.length < 16 :=
    cluster_of_listed (P := fun c => c.slice.length < 16) h (by decide) _
  have few := Nat.lt_of_le_of_lt (List.length_filter_le (fun g => sliceSet (s.paAt v g) = sliceSet (s.paAt v gl)) _) room
  simp only [State.wayFor, few, decide_true, Bool.or_true, if_true]

/-- t is s but for what its slices hold. -/
structure State.Touched (s t : State) : Prop where
  rest : t = { s with devices := t.devices }
  trackers : ∀ p, s.noTrackers p → t.noTrackers p

theorem State.Touched.refl (s : State) : s.Touched s := ⟨rfl, fun _ => id⟩

section
variable {s t : State} (h : s.Touched t)
include h
theorem State.Touched.mem : t.mem = s.mem := by rw [h.rest]
theorem State.Touched.held : t.held = s.held := by rw [h.rest]
theorem State.Touched.tile (n : Nat) : t.tile n = s.tile n := by rw [h.rest]; rfl
theorem State.Touched.dir (k : Nat) : t.dir k = s.dir k := by rw [h.rest]; rfl
theorem State.Touched.cur : t.cur = s.cur := by rw [h.rest]
theorem State.Touched.cid : t.cid = s.cid := by rw [h.rest]
theorem State.Touched.ctx : t.ctx = s.ctx := by rw [h.rest]; rfl
theorem State.Touched.sameIssue : s.SameIssue t := by rw [h.rest]; exact ⟨rfl, rfl, rfl, rfl, rfl⟩
end

/-- A slice with room takes a line in use. -/
theorem touchSlice_touched {s : State} {v : Nat} (h : s.roomy v) (gl : Nat) : s.Touched (s.touchSlice v gl) := by
  unfold State.touchSlice
  rw [wayFor_free h]
  split
  · exact .refl s
  · refine ⟨rfl, fun p hp => modCluster_clusters (P := fun c => c.trackers = []) hp fun _ => ?_⟩
    exact cluster_of_listed (P := fun c => c.trackers = []) hp rfl _

/-! ## Reports to trackers -/

theorem report_none {s : State} {gl : Nat} (h : s.noTrackers (pkgOfGl gl)) (mask : ByteMask) : s.report gl mask = s := by
  refine (List.foldl_ext _ (fun s _ => s) s fun t c hc => ?_).trans (List.foldl_fixed' (fun _ => rfl) _)
  rw [h c (List.mem_filter.1 hc).1]
  rfl

/-! ## The gate -/

/-- The home of a line lets requests of package v through: the line is NORMAL, with no host copy, remote copy or tentative word, and there is room for
it in the slices that serve it; a visitor copy is not poisoned. -/
structure State.Lets (s : State) (v gl : Nat) : Prop where
  normal : (s.dir gl).st = .normal
  tentative : (s.dir gl).tentative = []
  host : (s.dir gl).host = .none
  remote : (s.dir gl).remote = .none
  room : s.roomy (pkgOfGl gl)
  visitor : v ≠ pkgOfGl gl → (s.dir (dirKey v gl)).st ≠ .poison ∧ s.roomy v

/-- The state of the lines and the slices is all that it depends on. -/
theorem State.Lets.congr {s t : State} {v gl : Nat} (h : s.Lets v gl) (hd : ∀ k, t.dir k = s.dir k) (hc : ∀ p, s.roomy p → t.roomy p) : t.Lets v gl where
  normal := hd gl ▸ h.normal
  tentative := hd gl ▸ h.tentative
  host := hd gl ▸ h.host
  remote := hd gl ▸ h.remote
  room := hc _ h.room
  visitor hv := ⟨hd (dirKey v gl) ▸ (h.visitor hv).1, hc _ (h.visitor hv).2⟩

theorem isVisitor_ne {s : State} {v gl : Nat} (h : s.isVisitor v gl = true) : v ≠ pkgOfGl gl := by
  simp only [State.isVisitor, Bool.and_eq_true, decide_eq_true_eq] at h
  exact h.1

theorem gateFrom_lets {s : State} {k : Asker} {gl : Nat} (h : s.Lets (pkgOf k.tile) gl) (write : Bool) (mask : WordMask) (n : Nat) :
    s.gateFrom k write mask (n + 1) gl = .ok gl := by
  have clean : (s.isVisitor (pkgOf k.tile) gl && decide ((s.dir (dirKey (pkgOf k.tile) gl)).st = .poison)) = false := by
    cases hv : s.isVisitor (pkgOf k.tile) gl
    · rfl
    · exact decide_eq_false (h.visitor (isVisitor_ne hv)).1
  have way : (s.isVisitor (pkgOf k.tile) gl && decide (s.wayFor (pkgOf k.tile) gl = .none)) = false := by
    cases hv : s.isVisitor (pkgOf k.tile) gl
    · rfl
    · rw [wayFor_free (h.visitor (isVisitor_ne hv)).2]; rfl
  have settledWords : (s.dir gl).tentOthers (s.commitName k.tile k.cid) = 0 := by rw [Dir.tentOthers, h.tentative]; rfl
  have recalls : s.remoteOpen gl (pkgOf k.tile) write = true := by rw [State.remoteOpen, h.remote]
  simp only [State.gateFrom, clean, h.normal, settledWords, h.host, recalls, wayFor_free h.room, way]
  simp

/-- No request that waits at a line keeps another back. -/
theorem behind_none {s : State} {gl : Nat} (h : ∀ r ∈ s.held, r.waits = true → r.gl ≠ gl) (k : Asker) (mask : WordMask) :
    s.behind k mask gl = false := by
  have : s.held.any (fun r => r.waits && decide (r.gl = gl) && decide (s.keepsBack r &&& mask ≠ 0)) = false := by
    rw [List.any_eq_false]
    intro r hr hall
    simp only [Bool.and_eq_true, decide_eq_true_eq] at hall
    exact h r hr hall.1.1 hall.1.2
  rw [State.behind, this, Bool.and_false]

theorem gate_lets {s : State} {k : Asker} {gl : Nat} (h : s.Lets (pkgOf k.tile) gl) (hw : ∀ r ∈ s.held, r.waits = true → r.gl ≠ gl) (write : Bool)
    (mask : WordMask) : s.gate k write mask gl = .ok gl := by
  rw [State.gate, gateFrom_lets h]
  simp only [behind_none hw, Bool.false_eq_true, if_false]

/-! ## Serving a line with no owner -/

theorem recallOwners_none {s : State} {key : Nat} (h : (s.dir key).owners = []) (gl : Nat) (mask : WordMask) (inv : Bool) (skip : Option Nat) :
    s.recallOwners key gl mask inv skip = s := by
  simp only [State.recallOwners, h, List.filter_nil, List.isEmpty_nil, if_true]

theorem clearRemote_none {s : State} {gl : Nat} (h : (s.dir gl).remote = .none) (v : Nat) (write : Bool) : s.clearRemote gl v write = s := by
  simp only [State.clearRemote, h]

/-- A read by a tile of the home's package (R77). -/
theorem serveRead_touched {s : State} {t gl : Nat} (hp : pkgOf t = pkgOfGl gl) (h : s.Lets (pkgOf t) gl) (ho : (s.dir gl).owners = []) (mask : WordMask) :
    s.Touched (s.serveRead t gl mask) := by
  simp only [State.serveRead, hp, if_true, clearRemote_none h.remote, recallOwners_none ho]
  exact touchSlice_touched h.room gl

/-- The line after a write of an agent that keeps no copy. -/
def State.unhosted (s : State) (gl : Nat) : State := s.modDir gl fun d => { d with host := .none }

/-- Such a write (R86, R93). -/
theorem serveWrite_touched {s : State} {v gl : Nat} (h : s.Lets v gl) (ho : (s.dir gl).owners = []) (hv : v ≠ pkgOfGl gl → (s.dir (dirKey v gl)).owners = [])
    (mask : WordMask) : (s.unhosted gl).Touched (s.serveWrite v gl mask) := by
  have recalled : (if v ≠ pkgOfGl gl then s.recallOwners (dirKey v gl) gl mask true none else s) = s := by
    split
    case isTrue e => exact recallOwners_none (hv e) ..
    case isFalse => rfl
  simp only [State.serveWrite, clearRemote_none h.remote, recallOwners_none ho, recalled]
  exact touchSlice_touched (s := s.unhosted gl) h.room gl

end Sys2Proof.Machine
end

section
/-! An access of a context with nothing under way: its pointer, its checks, and a line that the array answers for (R71, R140, R227 to R229). -/
namespace Sys2Proof.Machine

/-! ## The part's operands -/

/-- Reading a register that can be read waits for its last write. -/
theorem rs_now {s : State} {r : BitVec 5} (h : s.ctx.readable r = true) :
    rs r s = .ok (s.ctx.sreg r, s.issueAt (s.ctx.sready.getD r.toNat 0)) := by
  have : (s.ctx.pendingReg r && !s.ctx.trust) = false := by
    simpa [Ctx.readable, Bool.or_eq_true, or_iff_not_imp_left] using h
  simp only [rs, bind_run, getC_run, this, Bool.false_eq_true, if_false, upd_run, pure_run]

/-- The pointer of a C.M access that passes its checks. -/
theorem accessPtr_run {s : State} {f : CM} {spaces : Nat → Bool} {p : Word} (ha : s.ctx.readable f.a = true)
    (hp : padd? (s.ctx.sreg f.a) (f.off.toInt * 2 ^ (f.sz.toNat / 2)) = some p) (hs : spaces (spaceOf p) = true)
    (hn : addrOf p % 2 ^ (f.sz.toNat / 2) = 0) :
    accessPtr f spaces s = .ok (p, s.issueAt (s.ctx.sready.getD f.a.toNat 0)) := by
  have sum : padd? (s.ctx.sreg f.a) (f.off.toInt * (sizeOf f.sz : Nat)) = some p := by
    rw [sizeOf]
    exact_mod_cast hp
  have aligned : decide (addrOf p % sizeOf f.sz = 0) = true := decide_eq_true hn
  simp only [accessPtr, bind_run, rs_now ha, padd, sum, pure_run, hs, aligned, need_true]

/-- The bytes of an access within one line are one piece. -/
theorem pieces_within {va n : Nat} (hn : 0 < n) (h : va % 128 + n ≤ 128) : pieces va n = [(va, va % 128, n, 0)] := by
  have one : pieceCount va n = 1 := by
    unfold pieceCount
    split <;> omega
  have whole : pieceEnd va n 1 = n := one ▸ pieceEnd_count va n
  rw [pieces_eq, one, List.range_one, List.map_singleton, pieceEnd_zero, whole]
  rfl

/-- An aligned access of a size code lies in one line. -/
theorem aligned_within {va : Nat} (sz : BitVec 3) (h : va % 2 ^ (sz.toNat / 2) = 0) : va % 128 + 2 ^ (sz.toNat / 2) ≤ 128 := by
  have small : sz.toNat / 2 ≤ 3 := by have := sz.isLt; omega
  interval_cases sz.toNat / 2 <;> omega

/-! ## What the access waits for -/

theorem answered_iff (s : State) : s.answered = true ↔
    (∀ h ∈ s.held, h.tile ≠ s.cur ∧ s.asks h s.cur s.cid = false) ∧ (s.ctx.pend.any fun l => l.acq) = false := by
  simp [State.answered]

theorem clear_iff (s : State) : s.clear = true ↔ s.ctx.vsta = [] ∧ (s.tile s.cur).engine.queue = [] ∧ s.answered = true := by
  simp [State.clear, and_assoc]

/-- No vector store or matrix command is there to wait for (R83, R159, R270). -/
theorem afterStores_run {s : State} (hv : s.ctx.vsta = []) (hq : (s.tile s.cur).engine.queue = []) (p : Word) (n : Nat) :
    afterStores p n s = .ok ((), s) := by
  simp only [afterStores, bind_run, getC_run, getT_run, inHelper_run, hv, hq, List.any_nil, List.filter_nil, List.isEmpty_nil, Bool.and_false,
    Bool.not_true, Bool.false_eq_true, if_false, pure_run]

/-! ## A line of the array -/

/-- Nothing of the tile, nor of the context, is under way. -/
theorem any_held_false {s : State} (h : s.answered = true) {P : Held → Bool} (hP : ∀ r, P r = true → r.tile = s.cur ∨ s.asks r s.cur s.cid = true) :
    s.held.any P = false := by
  rw [List.any_eq_false]
  intro r hr hp
  obtain ⟨ht, ha⟩ := ((answered_iff s).1 h).1 r hr
  rcases hP r hp with e | e
  · exact ht e
  · rw [ha] at e; exact Bool.false_ne_true e

theorem registers_tile {h : Held} {t gl : Nat} (hr : h.registers t gl = true) : h.tile = t := by
  simp only [Held.registers, Bool.and_eq_true, decide_eq_true_eq] at hr
  exact hr.1.1.1.1

/-- No words of a tile wait for their registration. -/
theorem no_registers {s : State} {t : Nat} (h : ∀ r ∈ s.held, r.tile ≠ t) (gl : Nat) : (s.held.filter fun r => r.registers t gl) = [] :=
  List.filter_eq_nil_iff.2 fun r hr hreg => h r hr (registers_tile hreg)
theorem pendingWords_none {s : State} {t : Nat} (h : ∀ r ∈ s.held, r.tile ≠ t) (gl : Nat) : s.pendingWords t gl = 0 := by
  rw [State.pendingWords, no_registers h]
  rfl
theorem fetching_none {s : State} {t : Nat} (h : ∀ r ∈ s.held, r.tile ≠ t) (gl : Nat) : s.fetching t gl = 0 := by
  refine (List.foldl_ext _ (fun w _ => w) 0 fun w r hr => ?_).trans (List.foldl_fixed' (fun _ => rfl) _)
  have : r.registers t gl = false := Bool.eq_false_iff.2 fun hreg => h r hr (registers_tile hreg)
  simp only [this, Bool.false_eq_true, if_false]

theorem crossing_none {s : State} (h : s.answered = true) (gl : Nat) (mask : WordMask) : s.crossing gl mask = false :=
  any_held_false h fun r hr => by
    simp only [Bool.and_eq_true] at hr
    exact .inr hr.1.1.1.1

theorem overlay_none {k : Ctx} (h : k.effects = []) (gl : Nat) (d : LineData) : k.overlay gl d = d := by
  simp only [Ctx.overlay, h, List.find?_nil]

/-- A line of the array that answers for the words of a load: valid, readable, and with nothing under way (R71, R83). -/
theorem hitLine_some {s : State} {l : Line} {va : Nat} {mask : WordMask} (ha : s.answered = true)
    (hl : (s.tile s.cur).line (va / 128) s.ctx.asid = some l) (hv : mask &&& ~~~l.valid = 0) (hr : l.perm.getLsbD 0 = true) :
    s.hitLine va mask = some l := by
  have hit : s.hits l mask = true := by simp only [State.hits, hv, hr, crossing_none ha, decide_true, Bool.not_false, Bool.and_true]
  rw [State.hitLine, hl, Option.filter_some, if_pos hit]

theorem loadLine_hit {s : State} {l : Line} {va : Nat} {mask : WordMask} (val : Word) (ha : s.answered = true) (he : s.ctx.effects = [])
    (hl : (s.tile s.cur).line (va / 128) s.ctx.asid = some l) (hv : mask &&& ~~~l.valid = 0) (hr : l.perm.getLsbD 0 = true) :
    loadLine val va mask s = .ok (.data l.data, s.used l) := by
  have whole : ¬ (0 &&& mask ≠ 0) := by simp
  simp only [loadLine, bind_run, get_run, hitLine_some ha hl hv hr, fetching_none fun r hr => (((answered_iff s).1 ha).1 r hr).1, whole, if_false,
    pure_run, modT_run, overlay_none he]
  rfl

/-- A load within one line gives the line's bytes. -/
theorem loadGlobal_line {s t : State} {va n : Nat} {d : LineData} (val : Word) (hn : 0 < n) (h : va % 128 + n ≤ 128)
    (ha : (s.ctx.pend.any fun l => l.acq) = false) (hd : loadLine val va (spanWords (va % 128) n) s = .ok (.data d, t)) :
    loadGlobal val va n s = .ok ((d.toNat / 2 ^ (8 * (va % 128)) % 2 ^ (8 * n), []), t) := by
  have one : pieces va n = [(va, va % 128, n, 0)] := pieces_within hn h
  have checked : checkLoad val va n s = .ok ((), s) := by
    simp only [checkLoad, one, List.length_singleton, Nat.le_refl, if_true, pure_run]
  simp only [loadGlobal, bind_run, acquired_run ha, checked, one, List.foldlM_cons, List.foldlM_nil, hd, pure_run]
  simp

/-! ## A load joins the pending ones -/

theorem loadsBehind_iff (k : Ctx) : k.loadsBehind = true ↔ k.pend.length < 32 ∧ ∀ l ∈ k.pend, l.acq = false ∧ l.seq < k.useq := by
  simp [Ctx.loadsBehind]

/-- A load of the part's own unit is the latest of those pending. -/
theorem addPend_pend {k : Ctx} (h : k.loadsBehind = true) (c : Bool) {l : PendLoad} (hl : l.seq = k.useq) : (k.addPend c l).pend = k.pend ++ [l] := by
  have before := ((loadsBehind_iff k).1 h).2
  have first : k.pend.filter (fun m => decide (m.seq < l.seq)) = k.pend :=
    List.filter_eq_self.2 fun m hm => decide_eq_true (hl ▸ (before m hm).2)
  have none_later : k.pend.filter (fun m => decide (l.seq ≤ m.seq)) = [] :=
    List.filter_eq_nil_iff.2 fun m hm => by have := (before m hm).2; simp; omega
  unfold Ctx.addPend
  split <;> simp only [first, none_later]

theorem addPend_sregs (k : Ctx) (c : Bool) (l : PendLoad) : (k.addPend c l).sregs = k.sregs := by
  unfold Ctx.addPend
  split <;> rfl
theorem addPend_flags (k : Ctx) (c : Bool) (l : PendLoad) : (k.addPend c l).flags = k.flags := by
  unfold Ctx.addPend
  split <;> rfl

/-- The state in which a load whose value is there joins the pending ones: an acquiring one has flashed the tile (R229). -/
def State.acquiring (s : State) (acq : Bool) : State := if acq then s.flashTile s.cur else s

/-- A load with its value joins the pending ones, where fewer than 32 are and none names its destination (R135, R140). -/
theorem pendLoad_run {s t : State} {d : BitVec 5} {get : M (Nat × List Await)} {v : Nat} (size : Nat) (signed : Bool) (p : Word) (acq : Bool)
    (hk : s.ctx.pend.length < 32) (hd : s.ctx.pendingReg d = false) (hg : get s = .ok ((v, []), t)) :
    pendLoad d size signed p acq get s = .ok ((), (t.acquiring acq).setCtx (t.ctx.addPend t.compute
      ⟨d, BitVec.ofNat 64 v, size, signed, [], p, t.ctx.useq, false⟩)) := by
  cases acq <;>
    simp only [pendLoad, bind_run, getC_run, Nat.not_le.2 hk, hd, if_false, Bool.false_eq_true, hg, List.isEmpty_nil,
      Bool.false_and, Bool.true_and, Bool.not_true, if_true, flash_run, upd_run, State.acquiring, flashTile_ctx, flashTile_compute]

end Sys2Proof.Machine
end

section
/-! An access that goes to a home which concerns no one else (R36, R71, R73, R77). -/
namespace Sys2Proof.Machine

/-! ## Translation -/

/-- The state after a hit in the TLB of the part's cluster. -/
def State.usedTlb (s : State) (e : TlbEntry) : State := s.modCluster (pkgOf s.cur) (clusterOf s.cur) fun c => c.useTlb e

theorem usedTlb_touched (s : State) (e : TlbEntry) : s.Touched (s.usedTlb e) where
  rest := rfl
  trackers _ hp := modCluster_clusters (P := fun c => c.trackers = []) hp fun _ => cluster_of_listed (P := fun c => c.trackers = []) hp rfl _

theorem usedTlb_roomy {s : State} {p : Nat} (e : TlbEntry) (h : s.roomy p) : (s.usedTlb e).roomy p :=
  modCluster_clusters (P := fun c => c.slice.length < 16) h fun _ => cluster_of_listed (P := fun c => c.slice.length < 16) h (by decide) _

/-- A package but for its clusters, and the part of a cluster that serves lines. -/
theorem usedTlb_dev (s : State) (e : TlbEntry) (q : Nat) : (s.usedTlb e).dev q = { s.dev q with clusters := ((s.usedTlb e).dev q).clusters } := by
  rw [State.usedTlb, State.modCluster, modDev_dev]
  split
  case isTrue h => rw [h]
  case isFalse => rfl
theorem usedTlb_slice (s : State) (e : TlbEntry) (q n : Nat) :
    (((s.usedTlb e).dev q).cluster n).slice = ((s.dev q).cluster n).slice ∧ (((s.usedTlb e).dev q).cluster n).offline = ((s.dev q).cluster n).offline := by
  rw [State.usedTlb, State.modCluster, modDev_dev]
  split
  case isTrue h =>
    rw [h, Device.cluster, mget_mset]
    split
    case isTrue hn => rw [hn]; exact ⟨rfl, rfl⟩
    case isFalse => exact ⟨rfl, rfl⟩
  case isFalse => exact ⟨rfl, rfl⟩

section
variable (s : State) (e : TlbEntry)
theorem usedTlb_pos (q : Nat) : ((s.usedTlb e).dev q).pos = (s.dev q).pos := by rw [usedTlb_dev]
theorem usedTlb_domain (q : Nat) : ((s.usedTlb e).dev q).domain = (s.dev q).domain := by rw [usedTlb_dev]
theorem usedTlb_dark (q : Nat) : ((s.usedTlb e).dev q).dark = (s.dev q).dark := by rw [usedTlb_dev]
theorem usedTlb_featAck (q : Nat) : ((s.usedTlb e).dev q).featAck = (s.dev q).featAck := by rw [usedTlb_dev]
theorem usedTlb_fabric (q : Nat) : ((s.usedTlb e).dev q).fabric = (s.dev q).fabric := by rw [usedTlb_dev]
theorem usedTlb_cxlUp (q : Nat) : ((s.usedTlb e).dev q).cxlUp = (s.dev q).cxlUp := by rw [usedTlb_dev]

theorem usedTlb_devNum (q : Nat) : (s.usedTlb e).devNum q = s.devNum q := by
  simp only [State.devNum, Device.number, usedTlb_pos, usedTlb_domain]
theorem usedTlb_globalAddr (p pa : Nat) : (s.usedTlb e).globalAddr p pa = s.globalAddr p pa := by
  simp only [State.globalAddr, usedTlb_devNum, State.pkgOfDev, Device.number, usedTlb_pos, usedTlb_domain, usedTlb_dark]
  rfl
theorem usedTlb_sameDomain (p q : Nat) : (s.usedTlb e).sameDomain p q = s.sameDomain p q := by
  simp only [State.sameDomain, usedTlb_domain]
theorem usedTlb_reaches (p q : Nat) : (s.usedTlb e).reaches p q = s.reaches p q := by
  simp only [State.reaches, usedTlb_sameDomain, usedTlb_dark, usedTlb_featAck, usedTlb_fabric, usedTlb_pos]
theorem usedTlb_sliceOf (v gl : Nat) : (s.usedTlb e).sliceOf v gl = s.sliceOf v gl := by
  simp only [State.sliceOf, State.paAt, usedTlb_devNum]
theorem usedTlb_sliceTakes (v gl : Nat) : (s.usedTlb e).sliceTakes v gl = s.sliceTakes v gl := by
  simp only [State.sliceTakes, usedTlb_sliceOf, usedTlb_slice]
theorem usedTlb_lineReached (p gl : Nat) : (s.usedTlb e).lineReached p gl = s.lineReached p gl := by
  simp only [State.lineReached, State.isVisitor, usedTlb_sameDomain, usedTlb_reaches, usedTlb_sliceTakes, usedTlb_featAck, usedTlb_cxlUp]
end

/-- A mapped address is translated in the TLB (R36, R38). -/
theorem locateM_mapped {s : State} {va a : Nat} {acc : Acc} {leaf : Word} (h : s.mapped va acc a leaf) (val : Word) :
    ∃ e, locateM val va acc s = .ok ((a, leaf), s.usedTlb e) ∧ s.lineReached (pkgOf s.cur) (a / 128) = true := by
  obtain ⟨e, he, rfl, hp, ha, hr⟩ := h
  have translated : s.translate s.asker va val = (.leaf e.attr e.large, s.usedTlb e) := by
    simp only [State.translate, State.asker, he]
    rfl
  have place : (s.usedTlb e).globalAddr (pkgOf s.asker.tile) (leafPa e.attr e.large va) = some a := (usedTlb_globalAddr ..).trans ha
  have permitted : permits e.attr acc s.asker.priv = true := hp
  refine ⟨e, ?_, hr⟩
  simp only [locateM, State.locate, translated, permitted, place, Bool.not_true, Bool.false_eq_true, if_false]

/-! ## The home -/

/-- A line of the part's own package that concerns no one else. -/
structure State.HomeCalm (s : State) (gl : Nat) : Prop where
  here : pkgOfGl gl = pkgOf s.cur
  lets : s.Lets (pkgOf s.cur) gl
  owners : (s.dir gl).owners = []
  waiting : ∀ r ∈ s.held, r.gl ≠ gl
  trackers : s.noTrackers (pkgOf s.cur)

theorem homeCalm_of_calmLine {s : State} {a : Nat} (h : s.calmLine a) : s.HomeCalm (a / 128) := by
  obtain ⟨hp, hw, hd, hc⟩ := h
  exact {
    here := hp
    lets := {
      normal := by rw [hd]; rfl
      tentative := by rw [hd]; rfl
      host := by rw [hd]; rfl
      remote := by rw [hd]; rfl
      room := hp ▸ fun c hm => (hc c hm).2
      visitor := fun hv => absurd hp.symm hv }
    owners := by rw [hd]; rfl
    waiting := hw
    trackers := fun c hm => (hc c hm).1 }

theorem State.HomeCalm.usedTlb {s : State} {gl : Nat} (h : s.HomeCalm gl) (e : TlbEntry) : (s.usedTlb e).HomeCalm gl where
  here := h.here
  lets := h.lets.congr (fun _ => rfl) fun _ => usedTlb_roomy e
  owners := h.owners
  waiting := h.waiting
  trackers := (usedTlb_touched s e).trackers _ h.trackers

theorem State.HomeCalm.issueAt {s : State} {gl : Nat} (h : s.HomeCalm gl) (n : Nat) : (s.issueAt n).HomeCalm gl :=
  ⟨h.here, h.lets.congr (fun _ => rfl) fun _ => id, h.owners, h.waiting, h.trackers⟩

theorem gate_calm {s : State} {gl : Nat} (h : s.HomeCalm gl) (write : Bool) (mask : WordMask) : s.gate s.asker write mask gl = .ok gl :=
  gate_lets h.lets (fun r hr _ => h.waiting r hr) write mask

/-- The checks of a line that follow translation pass (R227). -/
theorem reachLine_calm {s : State} {gl : Nat} (val : Word) (write : Bool) (mask : WordMask) (h : s.HomeCalm gl)
    (hr : s.lineReached (pkgOf s.cur) gl = true) : reachLine val write gl mask s = .ok (.ok gl, s) := by
  have reached : reachLines val write [(gl, mask)] s = .ok ((), s) := by
    simp only [reachLines, bind_run, get_run, List.map_cons, List.map_nil, gate_calm h, List.any_cons, List.any_nil, Bool.or_false, Bool.and_false,
      Bool.not_false, need_true, List.all_cons, List.all_nil, hr, Bool.and_true]
  simp only [reachLine, bind_run, reached, ask_run, gate_calm h]

/-- A request to a home of the own package does not cross the fabric. -/
theorem crosses_here {s : State} {gl : Nat} (h : pkgOfGl gl = pkgOf s.cur) : Machine.crosses gl s = .ok (.ok (), s) := by
  have slot : needSlot gl s = .ok ((), s) := by
    simp only [needSlot, bind_run, get_run, State.far, h, ne_eq, not_true, decide_false, Bool.false_and, Bool.false_eq_true, if_false, pure_run]
  have asked : s.askLine (pkgOf s.cur) gl = (.ok (), s) := by
    simp only [State.askLine, State.sendAsk, State.sendNow, State.crosses, h, ne_eq, not_true, decide_false, Bool.false_and, Bool.not_false,
      Bool.false_eq_true, if_false, if_true]
  simp only [Machine.crosses, bind_run, slot, get_run, asked, set_run, pure_run]

/-! ## A load that the array does not answer (R36, R71, R77) -/

/-- A part keeps its own state when a home of another's has only touched its slices, or the part's tile its lines. -/
structure State.SamePart (s t : State) : Prop where
  mem : t.mem = s.mem
  ctx : t.ctx = s.ctx
  compute : t.compute = s.compute
  cur : t.cur = s.cur
  cid : t.cid = s.cid

theorem State.SamePart.refl (s : State) : s.SamePart s := ⟨rfl, rfl, rfl, rfl, rfl⟩
theorem State.SamePart.trans {s t u : State} (h : s.SamePart t) (g : t.SamePart u) : s.SamePart u :=
  ⟨g.mem.trans h.mem, g.ctx.trans h.ctx, g.compute.trans h.compute, g.cur.trans h.cur, g.cid.trans h.cid⟩
theorem State.Touched.samePart {s t : State} (h : s.Touched t) : s.SamePart t :=
  ⟨h.mem, h.ctx, h.sameIssue.compute, h.cur, h.cid⟩
theorem samePart_modTile (s : State) (t : Nat) {f : Tile → Tile} (h : ∀ x, (f x).ctxs = x.ctxs) : s.SamePart (s.modTile t f) :=
  ⟨rfl, modTile_ctx t (h _), rfl, rfl, rfl⟩

theorem samePart_putLine (s : State) (t : Nat) (l : Line) : s.SamePart (s.modTile t fun x => x.putLine l) := samePart_modTile s t fun _ => rfl

/-- The array opens a line for a tile that holds none, where its set has a way for it (R72). -/
theorem openLine_empty {s : State} {t va : Nat} (h : (s.tile t).lines = []) (hw : 0 < (s.tile t).ways (va % 256)) (gl : Nat) (asid : BitVec 16)
    (perm : BitVec 3) : s.openLine t va gl asid perm = some (s, ⟨va, asid, gl, 0, 0, 0, perm, 0⟩) := by
  simp only [State.openLine, h, List.find?_nil, List.filter_nil, List.foldl_nil, Nat.ne_of_gt hw, if_false, State.trimSet, List.drop_nil]

theorem and_not_zero {n : Nat} (x : BitVec n) : x &&& ~~~(0 : BitVec n) = x :=
  BitVec.eq_of_getLsbD_eq fun i hi => by simp [hi]
theorem zero_or_bits {n : Nat} (x : BitVec n) : (0 : BitVec n) ||| x = x := BitVec.zero_or
theorem zero_and_bits {n : Nat} (x : BitVec n) : (0 : BitVec n) &&& x = 0 := BitVec.zero_and
theorem blend_zero {n : Nat} (old new : BitVec n) : blend 0 old new = old := by
  refine BitVec.eq_of_getLsbD_eq fun i _ => ?_
  rw [blend_getLsbD]
  exact if_neg (by simp)
theorem wordBits_zero : wordBits 0 = 0 := by decide +kernel

/-- A fill of an empty array from a home that concerns no one reads the bytes that memory holds, and installs the words. -/
theorem fillRead_empty {s : State} {t gl : Nat} (hp : pkgOf t = pkgOfGl gl) (hl : s.Lets (pkgOf t) gl) (ho : (s.dir gl).owners = [])
    (h : (s.tile t).lines = []) (f : Fill) (hw : 0 < (s.tile t).ways (f.va % 256)) (words : WordMask) :
    ∃ u, s.Touched u ∧ s.fillRead t gl f words = (readLine s.mem gl, u.modTile t fun x => x.putLine
      ⟨f.va, f.asid, gl, words, 0, 0, f.perm, blend (wordBits words) 0 (readLine s.mem gl)⟩) := by
  have fresh : s.granted t ⟨f.va, f.asid, gl, 0, 0, 0, f.perm, 0⟩ = 0 := zero_and_bits _
  have touched : s.Touched (if words = 0 then s else s.serveRead t gl words) := by
    split
    · exact .refl s
    · exact serveRead_touched hp hl ho words
  refine ⟨_, touched, ?_⟩
  simp only [State.fillRead, openLine_empty h hw, fresh, and_not_zero, touched.mem, wordBits_zero, blend_zero, zero_or_bits]

/-- A load of a cacheable line that an empty array does not answer: the home's bytes (R36, R71, R77). -/
theorem missLine_calm {s : State} {va a : Nat} {leaf : Word} (val : Word) (mask : WordMask) (hc : s.HomeCalm (a / 128)) (ha : s.answered = true)
    (he : s.ctx.effects = []) (hr : s.lineReached (pkgOf s.cur) (a / 128) = true) (hl : leaf.getLsbD 57 = true) (h : (s.tile s.cur).lines = [])
    (hw : 0 < (s.tile s.cur).ways (va / 128 % 256)) :
    ∃ t, missLine val va mask a leaf s = .ok (.data (readLine s.mem (a / 128)), t) ∧ s.SamePart t := by
  have fill : s.fillOf va (a / 128) leaf = some ⟨a / 128, va / 128, s.ctx.asid, permOf leaf⟩ := by
    simp only [State.fillOf, hl, hc.here, State.sameDomain, beq_self_eq_true, Bool.and_self, if_true]
  have unbuffered : s.ctx.buffered (a / 128) mask = false := by simp only [Ctx.buffered, he, List.find?_nil]
  have first : s.readUnderWay val (a / 128) mask = none := by
    refine List.find?_eq_none.2 fun r hr hall => ?_
    simp only [Bool.and_eq_true] at hall
    rw [(((answered_iff s).1 ha).1 r hr).2] at hall
    exact Bool.false_ne_true hall.1.1.1.1.1
  obtain ⟨u, hu, hfill⟩ := fillRead_empty hc.here.symm hc.lets hc.owners h ⟨a / 128, va / 128, s.ctx.asid, permOf leaf⟩ hw mask
  have filled : (s.fillRead s.cur (a / 128) ⟨a / 128, va / 128, s.ctx.asid, permOf leaf⟩ mask).1 = readLine s.mem (a / 128) ∧
      s.SamePart (s.fillRead s.cur (a / 128) ⟨a / 128, va / 128, s.ctx.asid, permOf leaf⟩ mask).2 := by
    rw [hfill]
    exact ⟨rfl, hu.samePart.trans (samePart_putLine u s.cur _)⟩
  refine ⟨_, ?_, filled.2⟩
  simp only [missLine, bind_run, get_run, unbuffered, first, reachLine_calm val false mask hc hr, crosses_here hc.here, fill, filled.1, if_true,
    Bool.false_eq_true, if_false, set_run, pure_run, overlay_none he]

/-- A load of a mapped line that an empty array does not answer. -/
theorem loadLine_miss {s : State} {va a : Nat} {leaf : Word} (val : Word) (mask : WordMask) (hc : s.HomeCalm (a / 128)) (ha : s.answered = true)
    (he : s.ctx.effects = []) (hm : s.mapped va .load a leaf) (hl : leaf.getLsbD 57 = true) (h : (s.tile s.cur).lines = [])
    (hw : 0 < (s.tile s.cur).ways (va / 128 % 256)) :
    ∃ t, loadLine val va mask s = .ok (.data (readLine s.mem (a / 128)), t) ∧ s.SamePart t := by
  obtain ⟨e, hloc, hr⟩ := locateM_mapped hm val
  have miss : s.hitLine va mask = none := by simp only [State.hitLine, Tile.line, h, List.find?_nil, Option.filter_none]
  obtain ⟨t, ht, hs⟩ := missLine_calm (s := s.usedTlb e) (leaf := leaf) val mask (hc.usedTlb e) ha he ((usedTlb_lineReached ..).trans hr) hl h hw
  refine ⟨t, ?_, (usedTlb_touched s e).samePart.trans hs⟩
  simp only [loadLine, bind_run, get_run, miss, hloc]
  exact ht

end Sys2Proof.Machine
end

section
/-! LDG and LDACQ (R228, R229). -/
namespace Sys2Proof.Machine

/-- A global load up to its access: pointer, checks, and the wait for stores. -/
def loadAt (f : CM) (signed acq : Bool) : M Unit := do
  let p ← accessPtr f (· = 0)
  afterStores p (sizeOf f.sz)
  pendLoad f.d (sizeOf f.sz) signed p acq (loadGlobal p (addrOf p) (sizeOf f.sz))

theorem exec_ldg (f : CM) (s : State) : exec (.ldg f) s = finish (loadAt f (sizeSigned f.sz) false) s := rfl
theorem exec_ldacq (f : CM) (s : State) : exec (.ldacq f) s = finish (loadAt f true true) s := rfl

/-- The load that joins the pending ones. -/
def loadOf (f : CM) (p : Word) (d : LineData) (signed : Bool) (seq : Nat) : PendLoad :=
  ⟨f.d, BitVec.ofNat 64 (d.toNat / 2 ^ (8 * (addrOf p % 128)) % 2 ^ (8 * 2 ^ (f.sz.toNat / 2))), 2 ^ (f.sz.toNat / 2), signed, [], p, seq, false⟩

/-- A global load whose checks pass and whose line is there. -/
theorem loadAt_run {s t : State} {f : CM} {p : Word} {d : LineData} (signed acq : Bool)
    (hp : padd? (s.ctx.sreg f.a) (f.off.toInt * 2 ^ (f.sz.toNat / 2)) = some p) (hs : spaceOf p = 0) (hn : addrOf p % 2 ^ (f.sz.toNat / 2) = 0)
    (hr : s.canRun [f.a] f.d = true) (hc : s.clear = true) (hk : s.ctx.loadsBehind = true)
    (hd : loadLine p (addrOf p) (spanWords (addrOf p % 128) (2 ^ (f.sz.toNat / 2))) (s.issueAt (s.ctx.sready.getD f.a.toNat 0)) = .ok (.data d, t)) :
    loadAt f signed acq s = .ok ((), (t.acquiring acq).setCtx (t.ctx.addPend t.compute (loadOf f p d signed t.ctx.useq))) := by
  obtain ⟨ha, hr⟩ := canRun_cons hr
  obtain ⟨hv, hq, hans⟩ := (clear_iff s).1 hc
  have size : 0 < 2 ^ (f.sz.toNat / 2) := Nat.two_pow_pos _
  have pointer := accessPtr_run (spaces := fun sp => decide (sp = 0)) ha hp (decide_eq_true hs) hn
  have stores := afterStores_run (s := s.issueAt (s.ctx.sready.getD f.a.toNat 0)) hv hq p (sizeOf f.sz)
  have load := loadGlobal_line (s := s.issueAt (s.ctx.sready.getD f.a.toNat 0)) p size (aligned_within f.sz hn) ((answered_iff s).1 hans).2 hd
  have pending := pendLoad_run (s := s.issueAt (s.ctx.sready.getD f.a.toNat 0)) (sizeOf f.sz) signed p acq ((loadsBehind_iff s.ctx).1 hk).1 (canRun_nil hr) load
  simp only [loadAt, bind_run, pointer, stores]
  exact pending


/-- The array after a load that hits line l, and after its flash if it acquires. -/
def State.hitBy (s : State) (l : Line) (acq : Bool) (n : Nat) : State := if acq then (s.used l).flashed n else s.used l

/-- A global load that hits the array. -/
theorem loadAt_hit {s : State} {f : CM} {p : Word} {l : Line} (signed acq : Bool)
    (hp : padd? (s.ctx.sreg f.a) (f.off.toInt * 2 ^ (f.sz.toNat / 2)) = some p) (hs : spaceOf p = 0) (hn : addrOf p % 2 ^ (f.sz.toNat / 2) = 0)
    (hr : s.canRun [f.a] f.d = true) (hc : s.clear = true) (hk : s.ctx.loadsBehind = true) (he : s.ctx.effects = [])
    (hl : (s.tile s.cur).line (addrOf p / 128) s.ctx.asid = some l) (hv : spanWords (addrOf p % 128) (2 ^ (f.sz.toNat / 2)) &&& ~~~l.valid = 0)
    (hperm : l.perm.getLsbD 0 = true) :
    ∃ t, finish (loadAt f signed acq) s = .next t ∧
      ((s.hitBy l acq (s.issueCycle [f.a])).setCtx (s.ctx.addPend s.compute (loadOf f p l.data signed s.ctx.useq))).issued t (s.issueCycle [f.a]) ∧
      t.ctx.pend = s.ctx.pend ++ [loadOf f p l.data signed s.ctx.useq] := by
  have hit := loadLine_hit (s := s.issueAt (s.ctx.sready.getD f.a.toNat 0)) p ((clear_iff s).1 hc).2.2 he hl hv hperm
  have run := loadAt_run signed acq hp hs hn hr hc hk hit
  have used : ((s.issueAt (s.ctx.sready.getD f.a.toNat 0)).used l).ctx = s.ctx := modTile_ctx s.cur rfl
  rw [used] at run
  refine ⟨_, finish_ok run, ?_, ?_⟩
  · cases acq
    · exact issued_done ((s.hitBy l false (s.issueCycle [f.a])).setCtx _) _
    · exact issued_done ((s.hitBy l true (s.issueCycle [f.a])).setCtx _) _
  · rw [with_fate_ctx, setCtx_ctx]
    exact addPend_pend hk _ rfl

/-- A global load of a mapped line that an empty array does not answer. -/
theorem loadAt_miss {s : State} {f : CM} {p : Word} {a : Nat} {leaf : Word} (signed : Bool)
    (hp : padd? (s.ctx.sreg f.a) (f.off.toInt * 2 ^ (f.sz.toNat / 2)) = some p) (hs : spaceOf p = 0) (hn : addrOf p % 2 ^ (f.sz.toNat / 2) = 0)
    (hr : s.canRun [f.a] f.d = true) (hc : s.clear = true) (hk : s.ctx.loadsBehind = true) (he : s.ctx.effects = []) (h : (s.tile s.cur).lines = [])
    (hm : s.mapped (addrOf p) .load a leaf) (hl : leaf.getLsbD 57 = true) (hcalm : s.HomeCalm (a / 128))
    (hw : 0 < (s.tile s.cur).ways (addrOf p / 128 % 256)) :
    ∃ t : State, finish (loadAt f signed false) s = .next { t with fate := .done } ∧ t.mem = s.mem ∧
      t.ctx = s.ctx.addPend s.compute (loadOf f p (readLine s.mem (a / 128)) signed s.ctx.useq) := by
  obtain ⟨t, ht, hs'⟩ := loadLine_miss (s := s.issueAt (s.ctx.sready.getD f.a.toNat 0)) p (spanWords (addrOf p % 128) (2 ^ (f.sz.toNat / 2)))
    (hcalm.issueAt _) ((clear_iff s).1 hc).2.2 he hm hl h hw
  refine ⟨_, finish_ok (loadAt_run signed false hp hs hn hr hc hk ht), hs'.mem, ?_⟩
  rw [setCtx_ctx, hs'.ctx, hs'.compute]
  rfl

/-- Settles O20: a valid line of the array answers a load at its issue, an empty array leaves it to the home, whose memory answers, and in either case
the load joins the pending ones with its value. -/
theorem globalLoads : Obligations.GlobalLoads := by
  unfold Obligations.GlobalLoads
  constructor
  · intro f s p l hp n va hs hn hr hc hk he hl hv hperm raw e load joined
    exact ⟨loadAt_hit _ false hp hs hn hr hc hk he hl hv hperm, loadAt_hit true true hp hs hn hr hc hk he hl hv hperm⟩
  · intro f s p a leaf hp n va hs hn hr hc hk he hlines hm hcache hcalm hways
    obtain ⟨t, he, hmem, hctx⟩ := loadAt_miss (sizeSigned f.sz) hp hs hn hr hc hk he hlines hm hcache (homeCalm_of_calmLine hcalm) hways
    refine ⟨_, he, rfl, hmem, ?_⟩
    rw [with_fate_ctx, hctx, addPend_sregs, addPend_flags, addPend_pend hk _ rfl]
    exact ⟨rfl, rfl, rfl⟩

end Sys2Proof.Machine
end

section
/-! A number in memory and its bytes (R2). -/
namespace Sys2Proof.Machine

theorem readNat_zero (m : List Host.Cell) (a : Nat) : readNat m a 0 = 0 := by
  induction m with
  | nil => rfl
  | cons c m ih =>
    obtain ⟨k, b⟩ := c
    simp only [readNat, Nat.add_zero, ih]
    split <;> rfl

/-- Its lowest byte, and the rest of it one address further. -/
theorem readNat_succ {lo : Nat} {m : List Host.Cell} (hm : Map.risesFrom lo m = true) (a n : Nat) :
    readNat m a (n + 1) = (readByte m a).toNat + 256 * readNat m (a + 1) n := by
  induction m generalizing lo with
  | nil => rfl
  | cons c m ih =>
    obtain ⟨k, b⟩ := c
    simp only [Map.risesFrom, Bool.and_eq_true] at hm
    have rest := ih hm.2
    have unlisted : a ≤ k → readByte m a = 0 := fun h => mget_of_risesFrom Config.unwrittenByte (by omega) hm.2
    rcases Nat.lt_trichotomy k a with h | h | h
    · have : readByte ((k, b) :: m) a = readByte m a := by
        simp only [readByte, mget, Nat.not_lt.2 h.le, h.ne', if_false]
      rw [this, readNat, if_pos h, rest, readNat, if_pos (by omega)]
    · subst h
      have own : readByte ((k, b) :: m) k = b := by simp only [readByte, mget, Nat.lt_irrefl, if_false, if_true]
      rw [own, readNat, if_neg (Nat.lt_irrefl k), if_pos (by omega), rest, unlisted le_rfl, readNat, if_pos (Nat.lt_succ_self k)]
      simp
    · have below : readByte ((k, b) :: m) a = 0 := by
        simp only [readByte, mget, h, if_true]
        rfl
      by_cases inside : k < a + 1 + n
      · obtain ⟨i, rfl⟩ : ∃ i, k = a + 1 + i := ⟨k - (a + 1), by omega⟩
        rw [below, readNat, if_neg (by omega), if_pos (by omega), readNat, if_neg (by omega), if_pos inside, rest, unlisted h.le,
          show a + 1 + i - a = i + 1 by omega, Nat.add_sub_cancel_left, Nat.pow_succ]
        ring_nf
      · rw [below, readNat, if_neg (by omega), if_neg (by omega), readNat, if_neg (by omega), if_neg inside]
        rfl

theorem readNat_lt {m : List Host.Cell} (hm : Memory.wf m = true) (a n : Nat) : readNat m a n < 256 ^ n := by
  have rises : Map.risesFrom 0 m = true := ((Bool.and_eq_true _ _).mp hm).1
  induction n generalizing a with
  | zero => rw [readNat_zero]; exact Nat.one_pos
  | succ n ih =>
    have := (readByte m a).isLt
    have := ih (a + 1)
    rw [readNat_succ rises, Nat.pow_succ]
    omega

/-- A number whose bytes memory holds. -/
theorem readNat_of_bytes {m : List Host.Cell} (hm : Memory.wf m = true) {a n v : Nat} (h : ∀ i < n, readByte m (a + i) = byteAt v i) :
    readNat m a n = v % 256 ^ n := by
  have rises : Map.risesFrom 0 m = true := ((Bool.and_eq_true _ _).mp hm).1
  induction n generalizing a v with
  | zero => rw [readNat_zero, Nat.pow_zero, Nat.mod_one]
  | succ n ih =>
    have low : readByte m a = byteAt v 0 := h 0 (Nat.succ_pos n)
    have rest : readNat m (a + 1) n = v / 256 % 256 ^ n := ih fun i hi => by
      rw [Nat.add_assoc, Nat.add_comm 1 i, h (i + 1) (Nat.succ_lt_succ hi), byteAt, byteAt, Nat.pow_succ, Nat.div_div_eq_div_mul, Nat.mul_comm]
    rw [readNat_succ rises, low, rest, byteAt, Nat.pow_zero, Nat.div_one, BitVec.toNat_ofNat, Nat.pow_succ' (m := 256), Nat.mod_mul]

/-- What was written is read. -/
theorem readNat_writeNat {m : List Host.Cell} (hm : Memory.wf m = true) (a n v : Nat) : readNat (writeNat m a n v) a n = v % 256 ^ n :=
  readNat_of_bytes (writeNat_wf a n v hm) fun i hi => by
    rw [readByte_writeNat a n v _ hm, if_pos ⟨Nat.le_add_right a i, Nat.add_lt_add_left hi a⟩, Nat.add_sub_cancel_left]

end Sys2Proof.Machine
end

section
/-! An AMO at a home that concerns no one else (R86, R230, R231). -/
namespace Sys2Proof.Machine

/-! ## The operation -/

/-- What an AMO leaves in memory where it found old. -/
def amoMem (m : List Host.Cell) (a n : Nat) (new : Option Nat) : List Host.Cell := new.elim m (writeNat m a n)

/-- The home performs an AMO in one step: the old value is answered, and memory changes where there is a new one (R86). -/
theorem homeAmo_lets {s : State} {v a : Nat} (h : s.Lets v (a / 128)) (ho : (s.dir (a / 128)).owners = [])
    (hv : v ≠ pkgOfGl (a / 128) → (s.dir (dirKey v (a / 128))).owners = []) (ht : s.noTrackers (pkgOfGl (a / 128))) (op w x cmp : Nat) :
    ∃ u, (s.unhosted (a / 128)).Touched u ∧ s.homeAmo v a op w x cmp = (readNat s.mem a (w / 8), (amoNew op w (readNat s.mem a (w / 8)) x cmp).2,
      { u with mem := amoMem s.mem a (w / 8) (amoNew op w (readNat s.mem a (w / 8)) x cmp).1 }) := by
  have served := serveWrite_touched h ho hv (spanWords (a % 128) (w / 8))
  have mem : (s.serveWrite v (a / 128) (spanWords (a % 128) (w / 8))).mem = s.mem := served.mem
  have untracked := served.trackers _ ht
  refine ⟨_, served, ?_⟩
  simp only [State.homeAmo, mem]
  generalize amoNew op w (readNat s.mem a (w / 8)) x cmp = r
  obtain ⟨new, flags⟩ := r
  cases new with
  | none => simp only [amoMem, Option.elim_none, ← mem]
  | some n =>
    exact congrArg (fun t => (readNat s.mem a (w / 8), flags, t))
      (report_none (s := { s.serveWrite v (a / 128) (spanWords (a % 128) (w / 8)) with mem := writeNat s.mem a (w / 8) n }) untracked _)

/-- Bytes of memory after an AMO. -/
theorem readByte_amoMem {m : List Host.Cell} (hm : Memory.wf m = true) (a n : Nat) (new : Option Nat) (b : Nat) :
    readByte (amoMem m a n new) b = match new with
      | some v => if a ≤ b ∧ b < a + n then BitVec.ofNat 8 (v / 256 ^ (b - a)) else readByte m b
      | none => readByte m b := by
  cases new with
  | none => rfl
  | some v => exact readByte_writeNat a n v b hm

/-! ## Flags leave registers and loads -/

theorem raise_fields (k : Ctx) (f : BitVec 11) (u : BitVec 49) : (k.raise f u).sregs = k.sregs ∧ (k.raise f u).pend = k.pend ∧ (k.raise f u).useq = k.useq := by
  by_cases fresh : f &&& ~~~k.flags = 0
  · simp only [Ctx.raise, fresh, if_true, and_self]
  · cases hv : k.firstV <;> simp only [Ctx.raise, fresh, hv, if_true, if_false, Bool.false_eq_true, and_self]

theorem flagged_fields (s : State) (f : BitVec 11) :
    (s.flagged f).ctx.sregs = s.ctx.sregs ∧ (s.flagged f).ctx.pend = s.ctx.pend ∧ (s.flagged f).ctx.useq = s.ctx.useq := by
  unfold State.flagged
  split
  · rw [setCtx_ctx]; exact raise_fields ..
  · rw [setCtx_ctx]; exact ⟨rfl, rfl, rfl⟩
theorem flagged_mem (s : State) (f : BitVec 11) : (s.flagged f).mem = s.mem := by
  unfold State.flagged
  split <;> rfl

/-! ## The access -/

/-- What an AMO's access leaves: memory as the operation has it, and the part's registers and loads as they were. -/
theorem amoAccess_run {s : State} {p : Word} {a : Nat} {leaf : Word} (hcid : s.cid = 0) (ha : (s.ctx.pend.any fun l => l.acq) = false)
    (hm : s.mapped (addrOf p) .amo a leaf) (hc : s.HomeCalm (a / 128)) (op w x cmp : Nat) :
    ∃ t : State, amoAccess p op w x cmp s = .ok ((readNat s.mem a (w / 8), []), t) ∧
      t.mem = amoMem s.mem a (w / 8) (amoNew op w (readNat s.mem a (w / 8)) x cmp).1 ∧
      t.ctx.sregs = s.ctx.sregs ∧ t.ctx.pend = s.ctx.pend ∧ t.ctx.useq = s.ctx.useq := by
  obtain ⟨e, hloc, hr⟩ := locateM_mapped hm p
  have calm := hc.usedTlb e
  have reached := reachLine_calm p true (spanWords (a % 128) (w / 8)) calm ((usedTlb_lineReached ..).trans hr)
  have plain : direct (s.usedTlb e) = .ok ((), s.usedTlb e) := by
    have : (s.usedTlb e).buffers = false := by
      rw [State.buffers, show (s.usedTlb e).cid = 0 from hcid]; rfl
    simp only [direct, bind_run, get_run, this, Bool.false_eq_true, if_false, pure_run]
  obtain ⟨u, hu, hamo⟩ := homeAmo_lets (s := s.usedTlb e) (v := pkgOf s.cur) (a := a) calm.lets calm.owners (fun hv => absurd calm.here.symm hv)
    (calm.here ▸ calm.trackers) op w x cmp
  have fields := flagged_fields (({ u with mem := amoMem s.mem a (w / 8) (amoNew op w (readNat s.mem a (w / 8)) x cmp).1 } : State).modTile u.cur fun y =>
    (y.dropStale (a / 128) (spanWords (a % 128) (w / 8))).dropStale (a / 128) (spanWords (a % 128) (w / 8))) (amoNew op w (readNat s.mem a (w / 8)) x cmp).2
  rw [modTile_ctx _ rfl] at fields
  have ctx : ({ u with mem := amoMem s.mem a (w / 8) (amoNew op w (readNat s.mem a (w / 8)) x cmp).1 } : State).ctx = s.ctx := hu.ctx
  rw [ctx] at fields
  refine ⟨_, ?_, flagged_mem .., fields⟩
  simp only [amoAccess, bind_run, acquired_run ha, hloc, reached, plain, crosses_here calm.here, get_run, Nat.div_add_mod', set_run, raise_run, pure_run]
  rw [show (s.usedTlb e).homeAmo (pkgOf (s.usedTlb e).cur) a op w x cmp = _ from hamo]
  rfl

end Sys2Proof.Machine
end

section
/-! The twelve AMOs (R231). -/
namespace Sys2Proof.Machine

/-! ## A release before the access -/

theorem touchCtx_mapped {s : State} {va a : Nat} {acc : Acc} {leaf : Word} (h : s.mapped va acc a leaf) : s.touchCtx.mapped va acc a leaf := by
  simp only [State.mapped, touchCtx_ctx]
  exact h

theorem State.HomeCalm.touchCtx {s : State} {gl : Nat} (h : s.HomeCalm gl) : s.touchCtx.HomeCalm gl :=
  ⟨h.here, h.lets.congr (fun _ => rfl) fun _ => id, h.owners, h.waiting, h.trackers⟩

/-! ## An AMO after its operands are read -/

/-- The load that an AMO leaves pending. -/
def oldOf (f : AF) (s : State) (a n : Nat) : PendLoad :=
  ⟨f.d, BitVec.ofNat 64 (readNat s.mem a n), n, true, [], s.ctx.sreg f.a, s.ctx.useq, false⟩

/-- What an AMO of n bytes at a leaves: registers as they were, the old value on its way to the destination, and memory with the new one. -/
structure AmoLeaves (f : AF) (s : State) (a n : Nat) (new : Option Nat) (t : State) : Prop where
  sregs : t.ctx.sregs = s.ctx.sregs
  pend : t.ctx.pend = s.ctx.pend ++ [oldOf f s a n]
  mem : t.mem = amoMem s.mem a n new

/-- The access and the pending load. -/
theorem amoPend_run {s : State} {f : AF} {a n : Nat} {leaf : Word} (hcid : s.cid = 0) (hd : s.ctx.pendingReg f.d = false) (hk : s.ctx.loadsBehind = true)
    (hm : s.mapped (addrOf (s.ctx.sreg f.a)) .amo a leaf) (hc : s.HomeCalm (a / 128)) (op x cmp : Nat) :
    ∃ t, pendLoad f.d n true (s.ctx.sreg f.a) (f.order.getLsbD 0) (amoAccess (s.ctx.sreg f.a) op (8 * n) x cmp) s = .ok ((), t) ∧
      AmoLeaves f s a n (amoNew op (8 * n) (readNat s.mem a n) x cmp).1 t := by
  obtain ⟨hlen, hbehind⟩ := (loadsBehind_iff s.ctx).1 hk
  have quiet : (s.ctx.pend.any fun l => l.acq) = false := List.any_eq_false.2 fun l hl => by simp [(hbehind l hl).1]
  obtain ⟨t, ht, hmem, hsregs, hpend, huseq⟩ := amoAccess_run hcid quiet hm hc op (8 * n) x cmp
  rw [Nat.mul_div_cancel_left n (by decide : 0 < 8)] at ht hmem
  have behind : t.ctx.loadsBehind = true := by rw [loadsBehind_iff, hpend, huseq]; exact ⟨hlen, hbehind⟩
  have ctx : (t.acquiring (f.order.getLsbD 0)).ctx = t.ctx := by
    unfold State.acquiring
    split
    · exact flashTile_ctx t t.cur
    · rfl
  have mem : (t.acquiring (f.order.getLsbD 0)).mem = t.mem := by
    unfold State.acquiring
    split <;> rfl
  refine ⟨_, pendLoad_run n true _ _ hlen hd ht, ?_, ?_, mem.trans hmem⟩
  · rw [setCtx_ctx, addPend_sregs, hsregs]
  · rw [setCtx_ctx, addPend_pend behind _ rfl, hpend, huseq]
    rfl

/-- The bytes of an AMO's access. -/
def amoSize (f : AF) : Nat := if f.size = 0 then 4 else 8

/-- An AMO once its operands are read. -/
def amoTail (op : Nat) (f : AF) (n : Nat) (p x c : Word) : M Unit := do
  need (spaceOf p = 0) cSPACE p
  need (decide (addrOf p % n = 0)) cALIGN p
  afterStores p n
  if f.order.getLsbD 1 then release
  pendLoad f.d n true p (f.order.getLsbD 0) (amoAccess p op (8 * n) (x.toNat % 2 ^ (8 * n)) (c.toNat % 2 ^ (8 * n)))

theorem amo_eq (op : Nat) (f : AF) : amo op f = (do
    let p ← rs f.a
    let x ← rs f.b
    let c ← if op = 9 then rs f.d else pure 0
    amoTail op f (amoSize f) p x c) := rfl

/-- What the statement asks of the state, but for the operands. -/
structure State.AmoReady (s : State) (f : AF) (a : Nat) (leaf : Word) : Prop where
  space : spaceOf (s.ctx.sreg f.a) = 0
  aligned : addrOf (s.ctx.sreg f.a) % amoSize f = 0
  destination : s.ctx.pendingReg f.d = false
  clear : s.clear = true
  behind : s.ctx.loadsBehind = true
  main : s.cid = 0
  release : f.order.getLsbD 1 = true → s.releasable = true
  mapped : s.mapped (addrOf (s.ctx.sreg f.a)) .amo a leaf
  calm : s.HomeCalm (a / 128)

theorem State.AmoReady.issueAt {s : State} {f : AF} {a : Nat} {leaf : Word} (h : s.AmoReady f a leaf) (n : Nat) : (s.issueAt n).AmoReady f a leaf :=
  ⟨h.space, h.aligned, h.destination, h.clear, h.behind, h.main, h.release, h.mapped, h.calm.issueAt n⟩

theorem amoTail_run {s : State} {f : AF} {a : Nat} {leaf : Word} (h : s.AmoReady f a leaf) (op : Nat) (x c : Word) :
    ∃ t, amoTail op f (amoSize f) (s.ctx.sreg f.a) x c s = .ok ((), t) ∧ AmoLeaves f s a (amoSize f)
      (amoNew op (8 * amoSize f) (readNat s.mem a (amoSize f)) (x.toNat % 2 ^ (8 * amoSize f)) (c.toNat % 2 ^ (8 * amoSize f))).1 t := by
  obtain ⟨hv, hq, -⟩ := (clear_iff s).1 h.clear
  simp only [amoTail, bind_run, h.space, h.aligned, decide_true, need_true, afterStores_run hv hq]
  cases order : f.order.getLsbD 1 with
  | false => exact amoPend_run h.main h.destination h.behind h.mapped h.calm ..
  | true =>
    simp only [if_true, bind_run, release_run (h.release order)]
    have run := amoPend_run (s := s.touchCtx) (f := f) (n := amoSize f) h.main (by rw [touchCtx_ctx]; exact h.destination)
      (by rw [touchCtx_ctx]; exact h.behind) (by rw [touchCtx_ctx]; exact touchCtx_mapped h.mapped) h.calm.touchCtx op
      (x.toNat % 2 ^ (8 * amoSize f)) (c.toNat % 2 ^ (8 * amoSize f))
    obtain ⟨t, ht, hs, hp, hm⟩ := run
    rw [touchCtx_ctx] at ht hs hp
    exact ⟨t, ht, hs, hp.trans (by rw [oldOf, touchCtx_ctx]; rfl), hm⟩

/-! ## The whole instruction -/

/-- Only AMOCAS has a comparand, its third operand. -/
def State.comparand (s : State) (f : AF) (op : Nat) : Word := if op = 9 then s.ctx.sreg f.d else 0

theorem amo_run {s : State} {f : AF} {a : Nat} {leaf : Word} (h : s.AmoReady f a leaf) (op : Nat) (ha : s.ctx.readable f.a = true)
    (hb : s.ctx.readable f.b = true) (hd : op = 9 → s.ctx.readable f.d = true) :
    ∃ t, amo op f s = .ok ((), t) ∧ AmoLeaves f s a (amoSize f) (amoNew op (8 * amoSize f) (readNat s.mem a (amoSize f))
      ((s.ctx.sreg f.b).toNat % 2 ^ (8 * amoSize f)) ((s.comparand f op).toNat % 2 ^ (8 * amoSize f))).1 t := by
  let s1 := s.issueAt (s.ctx.sready.getD f.a.toNat 0)
  let s2 := s1.issueAt (s.ctx.sready.getD f.b.toNat 0)
  have first : rs f.a s = .ok (s.ctx.sreg f.a, s1) := rs_now ha
  have second : rs f.b s1 = .ok (s.ctx.sreg f.b, s2) := rs_now (s := s1) hb
  have ready : s2.AmoReady f a leaf := (h.issueAt _).issueAt _
  by_cases cas : op = 9
  · have third : rs f.d s2 = .ok (s.ctx.sreg f.d, s2.issueAt (s.ctx.sready.getD f.d.toNat 0)) := rs_now (s := s2) (hd cas)
    obtain ⟨t, ht, hl⟩ := amoTail_run (ready.issueAt (s.ctx.sready.getD f.d.toNat 0)) op (s.ctx.sreg f.b) (s.ctx.sreg f.d)
    refine ⟨t, ?_, ?_⟩
    · simp only [amo_eq, bind_run, first, second, cas, if_true, third]
      exact cas ▸ ht
    · rw [State.comparand, if_pos cas]
      exact ⟨hl.sregs, hl.pend, hl.mem⟩
  · obtain ⟨t, ht, hl⟩ := amoTail_run ready op (s.ctx.sreg f.b) 0
    refine ⟨t, ?_, ?_⟩
    · simp only [amo_eq, bind_run, first, second, cas, if_false, pure_run]
      exact ht
    · rw [State.comparand, if_neg cas]
      exact ⟨hl.sregs, hl.pend, hl.mem⟩

end Sys2Proof.Machine
end

section
/-! What each AMO writes (R231), and O22. -/
namespace Sys2Proof.Machine

/-! ## The new values -/

/-- A word of an AMO as the signed comparisons take it. -/
theorem amo_signed {w : Nat} (h : w = 32 ∨ w = 64) (v : Nat) :
    (if w = 32 then (BitVec.ofNat 32 v).toInt else (BitVec.ofNat 64 v).toInt) = (v : Int).bmod (2 ^ w) := by
  obtain rfl | rfl := h
  · exact BitVec.toInt_ofNat' v
  · exact BitVec.toInt_ofNat' v

theorem amoNew_min {w : Nat} (h : w = 32 ∨ w = 64) (old x cmp : Nat) :
    (amoNew 4 w old x cmp).1 = some (if (old : Int).bmod (2 ^ w) ≤ (x : Int).bmod (2 ^ w) then old else x) := by
  rw [← amo_signed h, ← amo_signed h]
  rfl
theorem amoNew_max {w : Nat} (h : w = 32 ∨ w = 64) (old x cmp : Nat) :
    (amoNew 5 w old x cmp).1 = some (if (x : Int).bmod (2 ^ w) ≤ (old : Int).bmod (2 ^ w) then old else x) := by
  rw [← amo_signed h, ← amo_signed h]
  rfl

section
variable {old x : Nat} (ho : old < 2 ^ 64) (hx : x < 2 ^ 64) (w cmp : Nat)
include ho hx
theorem amoNew_and : (amoNew 1 w old x cmp).1 = some (old &&& x) := by
  simp only [amoNew, BitVec.toNat_and, BitVec.toNat_ofNat, Nat.mod_eq_of_lt ho, Nat.mod_eq_of_lt hx]
theorem amoNew_or : (amoNew 2 w old x cmp).1 = some (old ||| x) := by
  simp only [amoNew, BitVec.toNat_or, BitVec.toNat_ofNat, Nat.mod_eq_of_lt ho, Nat.mod_eq_of_lt hx]
theorem amoNew_xor : (amoNew 3 w old x cmp).1 = some (old ^^^ x) := by
  simp only [amoNew, BitVec.toNat_xor, BitVec.toNat_ofNat, Nat.mod_eq_of_lt ho, Nat.mod_eq_of_lt hx]
end

/-! ## The instructions -/

theorem amoSize_cases (f : AF) : amoSize f = 4 ∨ amoSize f = 8 := by
  unfold amoSize
  split
  · exact .inl rfl
  · exact .inr rfl

/-- What the statement says of one AMO with the new value that it writes. -/
def amoDone (f : AF) (s : State) (a n : Nat) (o : Host.Outcome State Fault Refusal) (new : Option Nat) : Prop :=
  ∃ t, o = .next t ∧ t.fate = .done ∧ t.ctx.sregs = s.ctx.sregs ∧ t.ctx.pend = s.ctx.pend ++ [oldOf f s a n] ∧
    ∀ b, readByte t.mem b = match new with
      | some v => if a ≤ b ∧ b < a + n then BitVec.ofNat 8 (v / 256 ^ (b - a)) else readByte s.mem b
      | none => readByte s.mem b

theorem amoDone_of_leaves {f : AF} {s t : State} {a n : Nat} {new : Option Nat} {m : M Unit} (hw : Memory.wf s.mem = true) (hm : m s = .ok ((), t))
    (h : AmoLeaves f s a n new t) : amoDone f s a n (finish m s) new := by
  refine ⟨_, finish_ok hm, rfl, h.sregs, h.pend, fun b => ?_⟩
  rw [show ({ t with fate := .done } : State).mem = amoMem s.mem a n new from h.mem]
  exact readByte_amoMem hw a n new b

/-- Settles O22: the operands are read, the access passes its checks, and the home performs the operation in the same step. -/
theorem atomics : Obligations.Atomics := by
  unfold Obligations.Atomics
  intro f s a leaf p n w hspace haligned hcan hclear hbehind hmain hrel hmapped hcalm hw old x int swap
  obtain ⟨ha, hcan⟩ := canRun_cons hcan
  obtain ⟨hb, hdest⟩ := canRun_cons hcan
  have ready : s.AmoReady f a leaf := ⟨hspace, haligned, canRun_nil hdest, hclear, hbehind, hmain, hrel, hmapped, homeCalm_of_calmLine hcalm⟩
  have width : w = 32 ∨ w = 64 := by
    have : w = 8 * amoSize f := rfl
    rcases amoSize_cases f with e | e <;> omega
  have small : 2 ^ w ≤ 2 ^ 64 := Nat.pow_le_pow_right (by decide) (by omega)
  have hold : old < 2 ^ 64 := by
    have : old < 256 ^ n := readNat_lt hw a n
    rw [show (256 : Nat) = 2 ^ 8 from rfl, ← Nat.pow_mul] at this
    exact this.trans_le small
  have hx : x < 2 ^ 64 := (Nat.mod_lt _ (Nat.two_pow_pos w)).trans_le small
  have runs : ∀ op, (op = 9 → s.ctx.readable f.d = true) → amoDone f s a n (finish (amo op f) s)
      (amoNew op w old x ((s.comparand f op).toNat % 2 ^ w)).1 := fun op hd => by
    obtain ⟨t, ht, hl⟩ := amo_run ready op ha hb hd
    exact amoDone_of_leaves hw ht hl
  have plain : ∀ op new, op ≠ 9 → (amoNew op w old x 0).1 = new → amoDone f s a n (finish (amo op f) s) new := fun op new hop hnew => by
    have run := runs op fun e => absurd e hop
    rw [State.comparand, if_neg hop] at run
    rw [← hnew]
    simpa using run
  simp only [List.forall_mem_cons]
  refine ⟨fun _ => ?add, fun _ => ?and, fun _ => ?or, fun _ => ?xor, fun _ => ?min, fun _ => ?max, fun _ => ?minu, fun _ => ?maxu, fun _ => ?swp,
    fun hd => ?cas, fun _ => ?fadd, fun _ => ?fmax, by simp⟩
  case add => exact plain 0 _ (by decide) rfl
  case and => exact plain 1 _ (by decide) (amoNew_and hold hx w 0)
  case or => exact plain 2 _ (by decide) (amoNew_or hold hx w 0)
  case xor => exact plain 3 _ (by decide) (amoNew_xor hold hx w 0)
  case min => exact plain 4 _ (by decide) (amoNew_min width old x 0)
  case max => exact plain 5 _ (by decide) (amoNew_max width old x 0)
  case minu => exact plain 6 _ (by decide) rfl
  case maxu => exact plain 7 _ (by decide) rfl
  case swp => exact plain 8 _ (by decide) rfl
  case cas =>
    have run := runs 9 fun _ => hd trivial
    rw [State.comparand, if_pos rfl] at run
    exact run
  case fadd => exact plain 10 _ (by decide) rfl
  case fmax => exact plain 11 _ (by decide) rfl

end Sys2Proof.Machine
end

section
/-! A line with one owner: READ, REGISTER, and what its owner gives back (R73, R77). -/
namespace Sys2Proof.Machine

theorem State.SameIssue.trans {s t u : State} (h : s.SameIssue t) (g : t.SameIssue u) : s.SameIssue u :=
  ⟨g.cur.trans h.cur, g.cid.trans h.cid, g.compute.trans h.compute, g.slots.trans h.slots, g.turns.trans h.turns⟩
theorem sameIssue_modDir (s : State) (k : Nat) (f : Dir → Dir) : s.SameIssue (s.modDir k f) := ⟨rfl, rfl, rfl, rfl, rfl⟩

/-! ## A recall of a tile's only line -/

/-- The line after a recall of words, a write recall if inv. -/
def recalledLine (l : Line) (words : WordMask) (inv : Bool) : Line :=
  { l with own := l.own &&& ~~~words, dirty := l.dirty &&& ~~~words, valid := if inv then l.valid &&& ~~~words else l.valid }

/-- Memory after the dirty ones of the words are written back. -/
def writtenBack (m : List Host.Cell) (gl : Nat) (l : Line) (words : WordMask) : List Host.Cell :=
  if l.dirty &&& words = 0 then m else writeLine m gl (wordBytes (l.dirty &&& words)) l.data

/-- The tile with its copy of line gl replaced. -/
def withLine (x : Tile) (gl : Nat) (l : Line) : Tile := { x with lines := x.lines.map fun m => if m.gl = gl then l else m }

theorem withLine_one {x : Tile} {l : Line} {gl : Nat} (hl : x.lines = [l]) (hgl : l.gl = gl) (l' : Line) : (withLine x gl l').lines = [l'] := by
  simp only [withLine, hl, List.map_cons, List.map_nil, hgl, if_true]

/-- u is s after a recall of words of line l, the only one that tile t holds. -/
structure State.Recalls (s : State) (t gl : Nat) (l : Line) (words : WordMask) (inv : Bool) (u : State) : Prop where
  mem : u.mem = writtenBack s.mem gl l words
  lines : (u.tile t).lines = [recalledLine l words inv]
  dirs : u.dirs = s.dirs
  devices : u.devices = s.devices
  same : s.SameIssue u

theorem State.Recalls.dir {s u : State} {t gl : Nat} {l : Line} {words : WordMask} {inv : Bool} (h : s.Recalls t gl l words inv u) (k : Nat) :
    u.dir k = s.dir k := by rw [State.dir, h.dirs]; rfl
theorem recallTile_one {s : State} {t gl : Nat} {l : Line} (hl : (s.tile t).lines = [l]) (hgl : l.gl = gl) (hh : ∀ h ∈ s.held, h.tile ≠ t)
    (words : WordMask) (inv : Bool) : s.Recalls t gl l words inv (s.recallTile t gl words inv) := by
  have found : (s.tile t).lines.find? (fun l => l.gl = gl) = some l := by
    rw [hl]
    exact List.find?_cons_of_pos (by simpa using hgl)
  have eq : s.recallTile t gl words inv = ({ s with mem := writtenBack s.mem gl l words } : State).modTile t (withLine · gl (recalledLine l words inv)) := by
    simp only [State.recallTile, found, pendingWords_none hh, and_not_zero, writtenBack]
    split <;> rfl
  rw [eq]
  refine ⟨rfl, ?_, rfl, rfl, rfl, rfl, rfl, rfl, rfl⟩
  rw [modTile_tile_same]
  exact withLine_one hl hgl _

/-! ## The record of the owners -/

/-- What is left of a single owner's record. -/
def ownersLeft (o : Nat) (m mask : WordMask) : List Owner := if m &&& ~~~mask = 0 then [] else [⟨o, m &&& ~~~mask⟩]

theorem mem_ownersLeft {o : Nat} {m mask : WordMask} {x : Owner} (h : x ∈ ownersLeft o m mask) : x.tile = o := by
  unfold ownersLeft at h
  split at h
  · cases h
  · rw [List.mem_singleton.1 h]
theorem ownersLeft_length (o : Nat) (m mask : WordMask) : (ownersLeft o m mask).length ≤ 1 := by
  unfold ownersLeft
  split
  · exact Nat.zero_le _
  · exact le_rfl

/-- u is s after a recall from its one owner, whose record has lost the words. -/
structure State.OwnerRecalled (s : State) (o gl : Nat) (l : Line) (m mask : WordMask) (inv : Bool) (u : State) : Prop where
  mem : u.mem = writtenBack s.mem gl l (m &&& mask)
  lines : (u.tile o).lines = [recalledLine l (m &&& mask) inv]
  owners : (u.dir gl).owners = ownersLeft o m mask
  devices : u.devices = s.devices
  same : s.SameIssue u

theorem recallOwners_one {s : State} {t o gl : Nat} {m mask : WordMask} {l : Line} (hd : (s.dir gl).owners = [⟨o, m⟩]) (ho : o ≠ t) (hm : m &&& mask ≠ 0)
    (hl : (s.tile o).lines = [l]) (hgl : l.gl = gl) (hh : ∀ h ∈ s.held, h.tile ≠ o) (inv : Bool) :
    s.OwnerRecalled o gl l m mask inv (s.recallOwners gl gl mask inv (some t)) := by
  have other : some o ≠ some t := fun e => ho (Option.some.inj e)
  have hit : (s.dir gl).owners.filter (fun o => some o.tile ≠ some t && o.mask &&& mask ≠ 0) = [⟨o, m⟩] := by
    rw [hd]
    exact List.filter_cons_of_pos (by simpa [ho] using hm)
  have recalled := recallTile_one hl hgl hh (m &&& mask) inv
  simp only [State.recallOwners, hit, List.isEmpty_cons, Bool.false_eq_true, if_false, List.foldl_cons, List.foldl_nil]
  refine ⟨recalled.mem, recalled.lines, ?_, recalled.devices, recalled.same.trans (sameIssue_modDir ..)⟩
  rw [modDir_dir_same, recalled.dir, hd]
  simp only [List.map_cons, List.map_nil, other, if_false, List.filter_cons, List.filter_nil, ownersLeft]
  by_cases gone : m &&& ~~~mask = 0 <;> simp [gone]

/-! ## READ and REGISTER -/

/-- What the statement asks of the line and of its home. -/
structure State.OneOwner (s : State) (t o gl : Nat) (m mask : WordMask) (l : Line) : Prop where
  here : pkgOf t = pkgOfGl gl
  other : o ≠ t
  asked : m &&& mask ≠ 0
  record : s.dir gl = { Dir.reset with owners := [⟨o, m⟩] }
  lines : (s.tile o).lines = [l]
  line : l.gl = gl
  waiting : ∀ h ∈ s.held, h.gl ≠ gl ∧ h.tile ≠ o
  slices : ∀ c ∈ (s.dev (pkgOf t)).clusters, c.2.trackers = [] ∧ c.2.slice.length < 16

section
variable {s : State} {t o gl : Nat} {m mask : WordMask} {l : Line} (h : s.OneOwner t o gl m mask l)
include h

theorem State.OneOwner.roomy : s.roomy (pkgOfGl gl) := h.here ▸ fun c hc => (h.slices c hc).2
theorem State.OneOwner.lets : s.Lets (pkgOf t) gl where
  normal := by rw [h.record]; rfl
  tentative := by rw [h.record]; rfl
  host := by rw [h.record]; rfl
  remote := by rw [h.record]; rfl
  room := h.roomy
  visitor hv := absurd h.here hv
theorem State.OneOwner.gate (write : Bool) (mask : WordMask) : s.gate (tileAsker t) write mask gl = .ok gl :=
  gate_lets (k := tileAsker t) h.lets (fun r hr _ => (h.waiting r hr).1) write mask
theorem State.OneOwner.recalled (inv : Bool) : s.OwnerRecalled o gl l m mask inv (s.recallOwners gl gl mask inv (some t)) :=
  recallOwners_one (by rw [h.record]) h.other h.asked h.lines h.line (fun r hr => (h.waiting r hr).2) inv

/-- A read leaves the owner's words readable in its array. -/
theorem homeRead_owned : ∃ u, s.happens u (.homeRead t gl mask) ∧ u.mem = writtenBack s.mem gl l (m &&& mask) ∧
    (u.tile o).lines = [recalledLine l (m &&& mask) false] ∧ (u.dir gl).owners = ownersLeft o m mask := by
  have recalled := h.recalled false
  have roomy : (s.recallOwners gl gl mask false (some t)).roomy (pkgOfGl gl) := by
    rw [State.roomy, State.dev, recalled.devices]
    exact h.roomy
  have touched := touchSlice_touched roomy gl
  have served : s.serveRead t gl mask = (s.recallOwners gl gl mask false (some t)).touchSlice (pkgOfGl gl) gl := by
    simp only [State.serveRead, h.here, if_true, clearRemote_none h.lets.remote]
  refine ⟨_, happens_of_exec (t := s.serveRead t gl mask) ?_ ?_, ?_⟩
  · show execHomeRead t gl mask s = _
    simp only [execHomeRead, happen_run, h.gate, if_true]
  · rw [served]
    exact recalled.same.trans touched.sameIssue
  · rw [served]
    exact ⟨touched.mem.trans recalled.mem, (congrArg Tile.lines (touched.tile o)).trans recalled.lines,
      (congrArg Dir.owners (touched.dir gl)).trans recalled.owners⟩

end

/-- A record that does not name the tile gains it. -/
theorem addOwner_new {s : State} {t gl : Nat} (ho : ∀ x ∈ (s.dir gl).owners, x.tile ≠ t) (hlen : (s.dir gl).owners.length ≤ 1) (mask : WordMask) :
    s.addOwner gl gl t mask = s.modDir gl fun d => { d with owners := d.owners ++ [⟨t, mask⟩] } := by
  have unknown : (s.dir gl).owners.any (fun o => o.tile = t) = false := by simpa using ho
  simp only [State.addOwner, unknown, Bool.false_eq_true, if_false]
  split
  case h_1 e => rw [e] at hlen; simp at hlen
  case h_2 => rfl

section
variable {s : State} {t o gl : Nat} {m mask : WordMask} {l : Line} (h : s.OneOwner t o gl m mask l)
include h

/-- The state after the recall, with the registering tile in the record. -/
theorem serveRegister_owned : ∃ r, s.OwnerRecalled o gl l m mask true r ∧
    s.serveRegister t gl mask = ((r.unhosted gl).modDir gl fun d => { d with owners := d.owners ++ [⟨t, mask⟩] }).touchSlice (pkgOfGl gl) gl := by
  have recalled := h.recalled true
  refine ⟨_, recalled, ?_⟩
  have owners : (((s.recallOwners gl gl mask true (some t)).unhosted gl).dir gl).owners = ownersLeft o m mask := by
    rw [State.unhosted, modDir_dir_same]
    exact recalled.owners
  have added := addOwner_new (s := (s.recallOwners gl gl mask true (some t)).unhosted gl) (t := t) (gl := gl)
    (fun x hx => (mem_ownersLeft (owners ▸ hx)).trans_ne h.other) (owners ▸ ownersLeft_length o m mask) mask
  simp only [State.serveRegister, h.here, if_true, clearRemote_none h.lets.remote]
  rw [← added]
  rfl

/-- REGISTER takes the words out of the owner's array, and the tile's record comes behind the owner's. -/
theorem homeRegister_owned : ∃ u, s.happens u (.homeRegister t gl mask) ∧ u.mem = writtenBack s.mem gl l (m &&& mask) ∧
    (u.tile o).lines = [recalledLine l (m &&& mask) true] ∧ (u.dir gl).owners = ownersLeft o m mask ++ [⟨t, mask⟩] := by
  obtain ⟨r, recalled, served⟩ := serveRegister_owned h
  have roomy : ((r.unhosted gl).modDir gl fun d => { d with owners := d.owners ++ [⟨t, mask⟩] }).roomy (pkgOfGl gl) := by
    rw [State.roomy, State.dev, modDir_devices, State.unhosted, modDir_devices, recalled.devices]
    exact h.roomy
  have untracked : ((r.unhosted gl).modDir gl fun d => { d with owners := d.owners ++ [⟨t, mask⟩] }).noTrackers (pkgOfGl gl) := by
    rw [State.noTrackers, State.dev, modDir_devices, State.unhosted, modDir_devices, recalled.devices]
    exact h.here ▸ fun c hc => (h.slices c hc).1
  have touched := touchSlice_touched roomy gl
  have reported := report_none (touched.trackers _ untracked) (wordBytes mask)
  refine ⟨_, happens_of_exec (t := s.serveRegister t gl mask) ?_ ?_, ?_⟩
  · show execHomeRegister t gl mask s = _
    simp only [execHomeRegister, happen_run, h.gate, if_true]
    rw [served, reported]
  · rw [served]
    exact recalled.same.trans (((sameIssue_modDir ..).trans (sameIssue_modDir ..)).trans touched.sameIssue)
  · rw [served]
    refine ⟨touched.mem.trans recalled.mem, (congrArg Tile.lines (touched.tile o)).trans recalled.lines, (congrArg Dir.owners (touched.dir gl)).trans ?_⟩
    rw [modDir_dir_same, State.unhosted, modDir_dir_same]
    exact congrArg (· ++ [⟨t, mask⟩]) recalled.owners

end

/-! ## What an owner gives back -/

/-- The record of line gl after its tile has given words back. -/
def ownersWithout (l : List Owner) (t : Nat) (words : WordMask) : List Owner :=
  (l.map fun o => if o.tile = t then { o with mask := o.mask &&& ~~~words } else o).filter fun o => o.mask ≠ 0

/-- The owner's words are written back, and leave its array and its record. -/
theorem gives_back {s : State} {t gl : Nat} {l : Line} {i : Instr} {words : WordMask} {inv : Bool}
    (he : exec i s = happen (fun s => (s.recallTile t gl words inv).clearOwner t gl words) s) (hp : pkgOf t = pkgOfGl gl)
    (hl : (s.tile t).lines = [l]) (hgl : l.gl = gl) (hh : ∀ h ∈ s.held, h.tile ≠ t) :
    ∃ u, s.happens u i ∧ u.mem = writtenBack s.mem gl l words ∧ (u.tile t).lines = [recalledLine l words inv] ∧
      (u.dir gl).owners = ownersWithout (s.dir gl).owners t words := by
  have recalled := recallTile_one hl hgl hh words inv
  have key : dirKey (pkgOf t) gl = gl := if_pos hp
  refine ⟨_, happens_of_exec (exec_of_happen he rfl) (recalled.same.trans ⟨rfl, rfl, rfl, rfl, rfl⟩), recalled.mem, recalled.lines, ?_⟩
  rw [with_fate_dir, State.clearOwner, key, modDir_dir_same, recalled.dir]
  rfl

theorem clean_one {x : Tile} {l : Line} {gl : Nat} (hl : x.lines = [l]) (hgl : l.gl = gl) : x.clean gl = l.own &&& ~~~l.dirty := by
  simp only [Tile.clean, hl, List.find?_cons, hgl, decide_true]

theorem exec_homeReturn (t gl : Nat) (mask : WordMask) (s : State) : exec (.homeReturn t gl mask) s = happen (fun s =>
    (s.recallTile t gl (mask &&& (s.tile t).clean gl) false).clearOwner t gl (mask &&& (s.tile t).clean gl)) s := rfl

end Sys2Proof.Machine
end

section
/-! A line that concerns no one: an operation packet, an AMO and a fill; and a visitor's copy that is recalled (R72, R84 to R86). -/
namespace Sys2Proof.Machine

theorem sameIssue_with_mem {s t : State} (h : s.SameIssue t) (m : List Host.Cell) : s.SameIssue { t with mem := m } :=
  ⟨h.cur, h.cid, h.compute, h.slots, h.turns⟩

theorem blend_allOnes {n : Nat} (old new : BitVec n) : blend (BitVec.allOnes n) old new = new :=
  BitVec.eq_of_getLsbD_eq fun i hi => by rw [blend_getLsbD, if_pos (by simp [hi])]

/-! ## A line that concerns no one, asked for from any package -/

/-- A line at reset at its home and with the package that asks, and slices with room. -/
structure State.Fresh (s : State) (v gl : Nat) : Prop where
  home : s.dir gl = Dir.reset
  visitor : s.dir (dirKey v gl) = Dir.reset
  slices : ∀ p ∈ [v, pkgOfGl gl], ∀ c ∈ (s.dev p).clusters, c.2.trackers = [] ∧ c.2.slice.length < 16

section
variable {s : State} {v gl : Nat} (h : s.Fresh v gl)
include h

theorem State.Fresh.lets : s.Lets v gl where
  normal := by rw [h.home]; rfl
  tentative := by rw [h.home]; rfl
  host := by rw [h.home]; rfl
  remote := by rw [h.home]; rfl
  room c hc := (h.slices _ (.tail _ (.head _)) c hc).2
  visitor _ := ⟨by rw [h.visitor]; decide, fun c hc => (h.slices _ (.head _) c hc).2⟩
theorem State.Fresh.owners : (s.dir gl).owners = [] := by rw [h.home]; rfl
theorem State.Fresh.visitorOwners : (s.dir (dirKey v gl)).owners = [] := by rw [h.visitor]; rfl
theorem State.Fresh.untracked : s.noTrackers (pkgOfGl gl) := fun c hc => (h.slices _ (.tail _ (.head _)) c hc).1

/-- An engine's write (R93). -/
theorem engineWrite_fresh (mask : ByteMask) (data : LineData) :
    ∃ u, (s.unhosted gl).Touched u ∧ s.engineWrite v gl mask data = { u with mem := writeLine s.mem gl mask data } := by
  have served := serveWrite_touched h.lets h.owners (fun _ => h.visitorOwners) (touched mask)
  have mem : (s.serveWrite v gl (touched mask)).mem = s.mem := served.mem
  refine ⟨_, served, ?_⟩
  rw [State.engineWrite, mem]
  exact report_none (s := { s.serveWrite v gl (touched mask) with mem := writeLine s.mem gl mask data }) (served.trackers _ h.untracked) mask
end

section
variable {s : State} {t gl : Nat} (h : s.Fresh (pkgOf t) gl) (hw : ∀ r ∈ s.held, r.gl ≠ gl)
include h hw

theorem gate_fresh (write : Bool) (mask : WordMask) : s.gate (tileAsker t) write mask gl = .ok gl :=
  gate_lets (k := tileAsker t) h.lets (fun r hr _ => hw r hr) write mask

theorem operationPacket_fresh (mask : ByteMask) (data : LineData) :
    ∃ u, s.happens u (.operationPacket t gl mask data) ∧ u.mem = writeLine s.mem gl mask data := by
  obtain ⟨u, hu, written⟩ := engineWrite_fresh h mask data
  refine ⟨_, happens_of_exec (t := { u with mem := writeLine s.mem gl mask data }) ?_
    (sameIssue_with_mem ((sameIssue_modDir s gl _).trans hu.sameIssue) _), rfl⟩
  show execOperationPacket t gl mask data s = _
  simp only [execOperationPacket, happen_run, gate_fresh h hw, written]

/-- AMOADD of 8 bytes. -/
theorem homeAmo_fresh {a : Nat} (x : Word) (ha : a / 128 = gl) (hal : a % 8 = 0) (hm : Memory.wf s.mem = true) :
    ∃ u, s.happens u (.homeAmo t a 0 true x 0) ∧ readNat u.mem a 8 = (readNat s.mem a 8 + x.toNat) % 2 ^ 64 ∧
      ∀ b, b < a ∨ a + 8 ≤ b → readByte u.mem b = readByte s.mem b := by
  subst ha
  obtain ⟨u, hu, done⟩ := homeAmo_lets h.lets h.owners (fun _ => h.visitorOwners) h.untracked 0 64 x.toNat 0
  have zero : (0 : Word).toNat % 2 ^ 64 = 0 := rfl
  have start : a / (64 / 8) * (64 / 8) = a := by omega
  refine ⟨_, happens_of_exec (t := { u with mem := writeNat s.mem a 8 ((readNat s.mem a 8 + x.toNat) % 2 ^ 64) }) ?_
    (sameIssue_with_mem ((sameIssue_modDir s (a / 128) _).trans hu.sameIssue) _), ?_, fun b hb => ?_⟩
  · show execHomeAmo t a 0 true x 0 s = _
    simp only [execHomeAmo, happen_run, if_true, start, gate_fresh h hw, Nat.div_add_mod', Nat.mod_eq_of_lt x.isLt, zero, done]
    rfl
  · exact (readNat_writeNat hm a 8 _).trans (Nat.mod_mod _ _)
  · rw [readByte_writeNat a 8 _ b hm, if_neg (by omega)]

/-- A fill of all words. -/
theorem fillReturn_fresh (c va : Nat) (perm : BitVec 3) (hp : pkgOf t = pkgOfGl gl) (hl : (s.tile t).lines = []) (hways : 0 < (s.tile t).ways (va % 256)) :
    ∃ u, s.happens u (.fillReturn t c gl va perm) ∧ u.mem = s.mem ∧
      (u.tile t).lines = [⟨va, (s.ctxAt t c).asid, gl, BitVec.allOnes 32, 0, 0, perm, readLine s.mem gl⟩] := by
  obtain ⟨u, hu, filled⟩ := fillRead_empty hp h.lets h.owners hl ⟨gl, va, (s.ctxAt t c).asid, perm⟩ hways (BitVec.allOnes 32)
  have whole : wordBits (BitVec.allOnes 32) = BitVec.allOnes 1024 := by decide +kernel
  rw [whole, blend_allOnes] at filled
  refine ⟨_, happens_of_exec (t := (s.fillRead t gl ⟨gl, va, (s.ctxAt t c).asid, perm⟩ (BitVec.allOnes 32)).2) ?_ ?_, ?_⟩
  · show execFillReturn t c gl va perm s = _
    simp only [execFillReturn, happen_run, gate_fresh h hw, ne_eq, not_true, if_false]
  · rw [filled]
    exact hu.sameIssue.trans ⟨rfl, rfl, rfl, rfl, rfl⟩
  · rw [filled]
    refine ⟨hu.mem, ?_⟩
    rw [with_fate_tile, modTile_tile_same, hu.tile, Tile.putLine, hl]
    rfl
end

/-! ## A visitor's copy -/

/-- No request waits at the line. -/
theorem serveLine_none {s : State} {gl : Nat} (h : ∀ r ∈ s.held, r.gl ≠ gl) : s.serveLine gl = s := by
  have : s.held.filter (fun h => h.waits && h.gl = gl) = [] := List.filter_eq_nil_iff.2 fun r hr hall => by
    simp only [Bool.and_eq_true, decide_eq_true_eq] at hall
    exact h r hr hall.2
  rw [State.serveLine, this]
  rfl

/-- The REMOTE of a line without the package at a position. -/
def remoteWithout (pos : Nat) : Remote → Remote
  | .shared m => let m := m &&& ~~~(BitVec.ofNat 64 (2 ^ pos)); if m = 0 then .none else .shared m
  | .modified q => if q = pos then .none else .modified q
  | .none => .none

theorem remoteInvalidate_idle {s : State} {p gl : Nat} (hp : p ≠ pkgOfGl gl) (ho : (s.dir (dirKey p gl)).owners = []) (hh : ∀ h ∈ s.held, h.gl ≠ gl) :
    ∃ u, s.happens u (.remoteInvalidate p gl) ∧ u.mem = s.mem ∧ (u.dir gl).remote = remoteWithout (s.dev p).pos.toNat (s.dir gl).remote := by
  refine ⟨_, happens_of_exec (t := s.modDir gl fun d => { d with remote := remoteWithout (s.dev p).pos.toNat d.remote }) ?_ (sameIssue_modDir ..), rfl, ?_⟩
  · show execRemoteInvalidate p gl s = _
    simp only [execRemoteInvalidate, happen_run, hp, if_false, recallOwners_none ho]
    exact congrArg (fun t : State => Host.Outcome.next { t with fate := .done })
      (serveLine_none (s := s.modDir gl fun d => { d with remote := remoteWithout (s.dev p).pos.toNat d.remote }) hh)
  · rw [with_fate_dir, modDir_dir_same]

theorem bit_of_pow (pos : Nat) : BitVec.ofNat 64 (2 ^ pos) = 1#64 <<< pos :=
  BitVec.eq_of_toNat_eq (by simp [BitVec.toNat_shiftLeft, Nat.shiftLeft_eq])

end Sys2Proof.Machine
end

section
/-! A store that waits at its home, or whose span crosses the fabric to it (R79, R172). -/
namespace Sys2Proof.Machine

/-! ## Flits that move -/

/-- u is s but for the fabrics of its packages. -/
structure State.OnlyFabric (s u : State) : Prop where
  rest : u = { s with devices := u.devices }
  dev : ∀ p, u.dev p = { s.dev p with fabric := (u.dev p).fabric }

theorem State.OnlyFabric.refl (s : State) : s.OnlyFabric s := ⟨rfl, fun _ => rfl⟩
theorem State.OnlyFabric.trans {s t u : State} (h : s.OnlyFabric t) (g : t.OnlyFabric u) : s.OnlyFabric u where
  rest := g.rest.trans (congrArg (fun x : State => { x with devices := u.devices }) h.rest)
  dev p := (g.dev p).trans (congrArg (fun x : Device => { x with fabric := (u.dev p).fabric }) (h.dev p))

section
variable {s u : State} (h : s.OnlyFabric u)
include h
theorem State.OnlyFabric.mem : u.mem = s.mem := by rw [h.rest]
theorem State.OnlyFabric.held : u.held = s.held := by rw [h.rest]
theorem State.OnlyFabric.tiles : u.tiles = s.tiles := by rw [h.rest]
theorem State.OnlyFabric.dir (k : Nat) : u.dir k = s.dir k := by rw [h.rest]; rfl
theorem State.OnlyFabric.sameIssue : s.SameIssue u := by rw [h.rest]; exact ⟨rfl, rfl, rfl, rfl, rfl⟩
end

theorem onlyFabric_modFabric (s : State) (p : Nat) (f : Fabric → Fabric) : s.OnlyFabric (s.modFabric p f) where
  rest := rfl
  dev q := by
    rw [State.modFabric, modDev_dev]
    split
    case isTrue e => rw [e]
    case isFalse => rfl

theorem modFabric_keeps {s : State} {p : Nat} {f : Fabric → Fabric} {α : Type} (get : Fabric → α) (h : get (f (s.dev p).fabric) = get (s.dev p).fabric) (q : Nat) :
    get ((s.modFabric p f).dev q).fabric = get (s.dev q).fabric := by
  rw [State.modFabric, modDev_dev]
  split
  case isTrue e => rw [e]; exact h
  case isFalse => rfl

/-- A slot's use counts flits, and neither failed nor garbled spans. -/
theorem turnSlot_spans (f : Fabric) (k : Nat) : (f.turnSlot k).failing = f.failing ∧ (f.turnSlot k).garbled = f.garbled := by
  unfold Fabric.turnSlot
  split <;> exact ⟨rfl, rfl⟩

/-- Flits that a slot takes. -/
structure State.Charged (s u : State) : Prop extends s.OnlyFabric u where
  failing : ∀ p, (u.dev p).fabric.failing = (s.dev p).fabric.failing
  garbled : ∀ p, (u.dev p).fabric.garbled = (s.dev p).fabric.garbled

theorem chargePort_charged (s : State) (p port flits : Nat) : s.Charged (s.chargePort p port flits) where
  toOnlyFabric := onlyFabric_modFabric ..
  failing := modFabric_keeps Fabric.failing (turnSlot_spans ..).1
  garbled := modFabric_keeps Fabric.garbled (turnSlot_spans ..).2

theorem charge_charged (s : State) (p n flits : Nat) : s.Charged (s.charge p n flits) := by
  unfold State.charge
  refine List.foldlRecOn (motive := fun r : Nat × State => s.Charged r.2) _ _ ⟨.refl s, fun _ => rfl, fun _ => rfl⟩ fun r hr port _ => ?_
  dsimp only
  split
  · exact hr
  · have one := chargePort_charged r.2 p port (min r.1 (r.2.portRoom p port n))
    exact ⟨hr.toOnlyFabric.trans one.toOnlyFabric, fun q => (one.failing q).trans (hr.failing q), fun q => (one.garbled q).trans (hr.garbled q)⟩

theorem netConsume_onlyFabric (s : State) (p q flits : Nat) : s.OnlyFabric (s.netConsume p q flits) := by
  unfold State.netConsume State.modAllow
  exact onlyFabric_modFabric ..
theorem netAllow_onlyFabric (s : State) (p q flits : Nat) : s.OnlyFabric (s.netAllow p q flits) := by
  unfold State.netAllow
  split
  · exact (onlyFabric_modFabric ..).trans (netConsume_onlyFabric ..)
  · exact .refl s

/-! ## The store at its home -/

theorem State.Fresh.congr {s u : State} {v gl : Nat} (h : s.Fresh v gl) (hd : ∀ k, u.dir k = s.dir k)
    (hc : ∀ p, (u.dev p).clusters = (s.dev p).clusters) : u.Fresh v gl where
  home := (hd gl).trans h.home
  visitor := (hd _).trans h.visitor
  slices p hp := hc p ▸ h.slices p hp

theorem State.OnlyFabric.fresh {s u : State} {v gl : Nat} (h : s.OnlyFabric u) (hf : s.Fresh v gl) : u.Fresh v gl :=
  hf.congr h.dir fun p => by rw [h.dev p]

/-- u is s with one request done, or lost: its slot of the tile is free. -/
structure State.Closed (s : State) (h : Held) (u : State) : Prop where
  mem : u.mem = s.mem
  held : u.held = s.held.filter fun g => g.id ≠ h.id
  dirs : u.dirs = s.dirs
  devices : u.devices = s.devices
  same : s.SameIssue u

theorem closeHeld_closed (s : State) (h : Held) : s.Closed h (s.closeHeld h) := by
  unfold State.closeHeld State.freeSlotOf
  split <;> exact ⟨rfl, rfl, rfl, rfl, rfl, rfl, rfl, rfl, rfl⟩

theorem only_request_gone (h : Held) : [h].filter (fun g => g.id ≠ h.id) = [] := by simp

/-- u is s with the only request, a store, done. -/
structure State.Stored (s : State) (gl : Nat) (mask : ByteMask) (data : LineData) (u : State) : Prop where
  mem : u.mem = writeLine s.mem gl mask data
  held : u.held = []
  same : s.SameIssue u

section
variable {s : State} {h : Held} {mask : ByteMask} {data : LineData} (hf : s.Fresh (pkgOf h.tile) h.gl) (hh : s.held = [h])
  (hw : h.work = .store mask data)
include hf hh hw

/-- The home serves it: the bytes change, whether a tile or the home itself stores them. -/
theorem serveNow_stored : s.Stored h.gl mask data (s.serveNow h h.gl) := by
  have closed := closeHeld_closed s h
  have fresh : (s.closeHeld h).Fresh (pkgOf h.tile) h.gl :=
    hf.congr (fun k => by rw [State.dir, closed.dirs]; rfl) fun p => by rw [State.dev, closed.devices]; rfl
  have gone : (s.closeHeld h).held = [] := by rw [closed.held, hh, only_request_gone]
  simp only [State.serveNow, hw]
  split
  · have served := serveWrite_touched fresh.lets fresh.owners (fun _ => fresh.visitorOwners) (touched mask)
    have mem : ((s.closeHeld h).serveWrite (pkgOf h.tile) h.gl (touched mask)).mem = s.mem := served.mem.trans closed.mem
    exact ⟨by rw [mem], served.held.trans gone, sameIssue_with_mem ((closed.same.trans (sameIssue_modDir _ h.gl _)).trans served.sameIssue) _⟩
  · obtain ⟨u, hu, written⟩ := engineWrite_fresh fresh mask data
    rw [written]
    exact ⟨congrArg (writeLine · h.gl mask data) closed.mem, hu.held.trans gone,
      (sameIssue_with_mem ((closed.same.trans (sameIssue_modDir _ h.gl _)).trans hu.sameIssue) _).trans (sameIssue_modTile ..)⟩

/-- A store that waits at its home is granted (R79). -/
theorem registerGrant_stored (hs : h.stage = .home) (ha : h.answer = none) (hl : h.lost = false) :
    ∃ u, s.happens u (.registerGrant h.id) ∧ u.mem = writeLine s.mem h.gl mask data ∧ u.held = [] := by
  have waits : h.waits = true := by simp [Held.waits, hs, ha, hl]
  have found : s.held.find? (fun q => q.id = h.id && q.waits) = some h := by
    rw [hh]
    exact List.find?_cons_of_pos (by simp [waits])
  have here : s.held.filter (fun q => q.waits && q.gl = h.gl) = [h] := by
    rw [hh]
    exact List.filter_cons_of_pos (by simp [waits])
  have gate : s.gateFrom h.asker h.work.writes h.words 8 h.gl = .ok h.gl := gateFrom_lets (k := h.asker) hf.lets ..
  have one : s.serveOne h = some (s.serveNow h h.gl) := by
    simp only [State.serveOne, gate, ne_eq, not_true, decide_false, Bool.false_and, Bool.false_eq_true, if_false]
  have line : s.serveLine h.gl = s.serveNow h h.gl := by
    simp only [State.serveLine, here, List.foldl_cons, List.foldl_nil, zero_and_bits, ne_eq, not_true, decide_false, Bool.false_and,
      Bool.false_eq_true, if_false, one]
  have stored := serveNow_stored hf hh hw
  refine ⟨_, happens_of_exec (t := s.serveNow h h.gl) ?_ stored.same, stored.mem, stored.held⟩
  show execRegisterGrant h.id s = _
  simp only [execRegisterGrant, happen_run, found, line]

/-- A store that reaches its home takes effect there at once. -/
theorem arrive_stored (hs : h.stage ≠ .home) : s.Stored h.gl mask data (s.arrive h) := by
  have waits : h.waits = false := by simp [Held.waits, hs]
  have gate : s.gate h.asker h.work.writes h.words h.gl = .ok h.gl := gate_lets (k := h.asker) hf.lets (fun r hr hwaits => by
    have only : r = h := List.mem_singleton.1 (by rw [← hh]; exact hr)
    rw [only, waits] at hwaits
    exact absurd hwaits Bool.false_ne_true) ..
  rw [hw] at gate
  simp only [State.arrive, hw, gate]
  exact serveNow_stored hf hh hw
end

end Sys2Proof.Machine
end

section
/-! The span of a request at its last hop (R172). -/
namespace Sys2Proof.Machine

/-! ## A span that is sent -/

/-- The failed spans of a path on which a request's has failed n times. -/
def failedSpans (key id n : Nat) : Map Failing := if n = 0 then [] else [(key, ⟨.request id, n⟩)]

theorem failedSpans_mset (key id n : Nat) (x : Failing) : mset (failedSpans key id n) key x = [(key, x)] := by
  unfold failedSpans
  split
  · rfl
  · simp [mset]
theorem failedSpans_mdel (key id n : Nat) : mdel (failedSpans key id n) key = [] := by
  unfold failedSpans
  split
  · rfl
  · simp [mdel]
/-- How often it has failed. -/
theorem failedSpans_count (key id n : Nat) :
    ((failedSpans key id n).find? fun e => e.1 = key && e.2.owner = .request id).elim 0 (fun e => e.2.n) = n := by
  unfold failedSpans
  split
  case isTrue h => exact h.symm
  case isFalse => simp

section
variable {s : State} {p key id n : Nat}

theorem transmit_passes (hg : (s.dev p).fabric.garbled = []) (o : SpanOwner) (k v : Nat) :
    s.transmit p key o k v = (.ok, s.modFabric p fun f => { f with failing := mdel f.failing key }) := by
  simp only [State.transmit, hg, List.find?_nil]

/-- A span whose tag fails is counted, and goes again until it has failed 8 times. -/
theorem transmit_fails (hg : (s.dev p).fabric.garbled = [(key, ⟨1, 1⟩)]) (hf : (s.dev p).fabric.failing = failedSpans key id n) {k : Nat} (hk : 1 ≤ k) (v : Nat) :
    ∃ u, s.OnlyFabric u ∧ (n < 7 → s.transmit p key (.request id) k v = (.again, u) ∧ (u.dev p).fabric.failing = failedSpans key id (n + 1)) ∧
      (n = 7 → s.transmit p key (.request id) k v = (.lost, u.logEvent p evLINK hubSource key) ∧ (u.dev p).fabric.failing = []) := by
  have found : (s.dev p).fabric.garbled.find? (fun e => e.1 = key) = some (key, ⟨1, 1⟩) := by
    rw [hg]
    exact List.find?_cons_of_pos (by simp)
  have count := failedSpans_count key id n
  rw [← hf] at count
  have clear := onlyFabric_modFabric s p fun f => { f with garbled := mdel f.garbled key }
  by_cases h : n < 7
  · refine ⟨_, clear.trans (onlyFabric_modFabric _ p fun f => { f with failing := mset f.failing key ⟨.request id, n + 1⟩ }), fun _ => ⟨?_, ?_⟩,
      fun e => absurd h (by omega)⟩
    · simp only [State.transmit, found, count, le_refl, if_true, spanTag_flip k v hk, if_false, show n + 1 < 8 by omega]
    · rw [modFabric_fabric, modFabric_fabric]
      exact (congrArg (mset · key _) hf).trans (failedSpans_mset ..)
  · refine ⟨_, clear.trans (onlyFabric_modFabric _ p fun f => { f with failing := mdel f.failing key }), fun e => absurd e h, fun _ => ⟨?_, ?_⟩⟩
    · simp only [State.transmit, found, count, le_refl, if_true, spanTag_flip k v hk, if_false, show ¬ n + 1 < 8 by omega]
    · rw [modFabric_fabric, modFabric_fabric]
      exact (congrArg (mdel · key) hf).trans (failedSpans_mdel ..)
end

/-! ## SPAN_RECEIVE -/

/-- The package that sends the last hop of a request. -/
def spanSender (h : Held) : Nat :=
  match h.stage with
  | .relay i => i
  | _ => pkgOf h.tile

/-- The span of the only request may reach its target now; it has failed n times. -/
structure State.SpanDue (s : State) (h : Held) (n : Nat) : Prop where
  held : s.held = [h]
  stage : h.stage ≠ .home
  opened : h.stage = .queue → h.via = none ∧ s.hopOpen (pkgOf h.tile) (pkgOfGl h.gl) none 1 = true
  room : s.slotRoom (spanSender h) (s.dev (pkgOfGl h.gl)).pos.toNat ≠ 0
  garbled : (s.dev (pkgOf h.tile)).fabric.garbled = []
  failing : (s.dev (pkgOf h.tile)).fabric.failing = failedSpans (s.heldKey h) h.id n
  answer : h.answer = none
  lost : h.lost = false

/-- The slot takes the span. -/
def State.spanTaken (s : State) (h : Held) : State := s.charge (spanSender h) (s.dev (pkgOfGl h.gl)).pos.toNat 1
/-- A bit of it changes on the way. -/
def State.spanGarbled (s : State) (h : Held) : State :=
  (s.spanTaken h).modFabric (pkgOf h.tile) fun f => { f with garbled := mset f.garbled (s.heldKey h) ⟨1, 1⟩ }
/-- The state in which the span is at its target, its tag as ok has it. -/
def State.spanAt (s : State) (h : Held) (ok : Bool) : State := if ok then s.spanTaken h else s.spanGarbled h

theorem spanAt_true (s : State) (h : Held) : s.spanAt h true = s.spanTaken h := if_pos rfl
theorem spanAt_false (s : State) (h : Held) : s.spanAt h false = s.spanGarbled h := if_neg Bool.false_ne_true

theorem spanTaken_charged (s : State) (h : Held) : s.Charged (s.spanTaken h) := charge_charged ..

theorem spanTaken_onlyFabric (s : State) (h : Held) : s.OnlyFabric (s.spanTaken h) := (spanTaken_charged s h).toOnlyFabric
theorem spanGarbled_onlyFabric (s : State) (h : Held) : s.OnlyFabric (s.spanGarbled h) := by
  unfold State.spanGarbled
  exact (spanTaken_onlyFabric s h).trans (onlyFabric_modFabric ..)

theorem heldKey_of_onlyFabric {s u : State} (h : s.OnlyFabric u) (r : Held) : u.heldKey r = s.heldKey r := by
  rw [State.heldKey, h.dev]
  rfl

section
variable {s : State} {h : Held} {n : Nat} (d : s.SpanDue h n)
include d

theorem State.SpanDue.away : h.away = true := by simp [Held.away, d.stage, d.answer, d.lost]

/-- No other request of its path is before it. -/
theorem State.SpanDue.first : s.firstOfPath h = true := by
  simp [State.firstOfPath, d.held, d.away]

/-- The path waits for no other span that has failed. -/
theorem State.SpanDue.unblocked : s.pathBlocked (pkgOf h.tile) (s.heldKey h) (some (.request h.id)) = false := by
  unfold State.pathBlocked
  rw [d.failing, failedSpans]
  by_cases none : n = 0 <;> simp [none]

theorem spanReceive_run (ok : Bool) : exec (.spanReceive h.id ok) s = .next { (s.spanAt h ok).lastHop h (h.stage ≠ .queue) with fate := .done } := by
  have found : s.held.find? (fun q => q.id = h.id && q.away) = some h := by
    rw [d.held]
    exact List.find?_cons_of_pos (by simp [d.away])
  have room := d.room
  show execSpanReceive h.id ok s = _
  simp only [execSpanReceive, happen_run, found, d.first, d.unblocked]
  cases hs : h.stage with
  | home => exact absurd hs d.stage
  | relay i =>
    rw [spanSender, hs] at room
    simp [room, State.spanAt, State.spanTaken, State.spanGarbled, spanSender, hs]
  | queue =>
    obtain ⟨direct, opened⟩ := d.opened hs
    rw [spanSender, hs] at room
    simp [room, direct, opened, State.spanAt, State.spanTaken, State.spanGarbled, spanSender, hs]

theorem spanGarbled_failing : ((s.spanGarbled h).dev (pkgOf h.tile)).fabric.failing = failedSpans (s.heldKey h) h.id n := by
  rw [← d.failing, ← (spanTaken_charged s h).failing, State.spanGarbled, modFabric_fabric]

theorem spanTaken_garbled : ((s.spanTaken h).dev (pkgOf h.tile)).fabric.garbled = [] := ((spanTaken_charged s h).garbled _).trans d.garbled
theorem spanGarbled_garbled : ((s.spanGarbled h).dev (pkgOf h.tile)).fabric.garbled = [(s.heldKey h, ⟨1, 1⟩)] := by
  rw [State.spanGarbled, modFabric_fabric, spanTaken_garbled d]
  rfl

/-- A store whose tag passes is performed (R172). -/
theorem spanReceive_stored {mask : ByteMask} {data : LineData} (hf : s.Fresh (pkgOf h.tile) h.gl) (hw : h.work = .store mask data) :
    ∃ u, s.happens u (.spanReceive h.id true) ∧ u.mem = writeLine s.mem h.gl mask data ∧ u.held = [] := by
  have sent := transmit_passes (key := (s.spanTaken h).heldKey h) (spanTaken_garbled d) (.request h.id) 128 h.payload
  have cleared := (spanTaken_onlyFabric s h).trans (onlyFabric_modFabric (s.spanTaken h) (pkgOf h.tile) fun f =>
    { f with failing := mdel f.failing ((s.spanTaken h).heldKey h) })
  obtain ⟨u, hu, last⟩ : ∃ u, s.OnlyFabric u ∧ (s.spanTaken h).lastHop h (h.stage ≠ .queue) = u.arrive h := by
    simp only [State.lastHop, sent]
    split
    · exact ⟨_, cleared.trans (netConsume_onlyFabric ..), rfl⟩
    · exact ⟨_, cleared.trans (netAllow_onlyFabric ..), rfl⟩
  have stored := arrive_stored (hu.fresh hf) (hu.held.trans d.held) hw d.stage
  refine ⟨_, happens_of_exec (t := u.arrive h) ?_ (hu.sameIssue.trans stored.same), stored.mem.trans (by rw [hu.mem]), stored.held⟩
  rw [spanReceive_run d true, spanAt_true, last]

/-- One whose tag fails goes again, 7 times (R172). -/
theorem spanReceive_again (hn : n < 7) : ∃ u, s.happens u (.spanReceive h.id false) ∧ u.mem = s.mem ∧ u.held = [h] ∧
    (u.dev (pkgOf h.tile)).fabric.failing = failedSpans (s.heldKey h) h.id (n + 1) := by
  obtain ⟨u, hu, again, -⟩ := transmit_fails (spanGarbled_garbled d) (spanGarbled_failing d) (by decide : 1 ≤ 128) h.payload
  obtain ⟨sent, failing⟩ := again hn
  have moved := (spanGarbled_onlyFabric s h).trans hu
  refine ⟨_, happens_of_exec (t := u) ?_ moved.sameIssue, moved.mem, moved.held.trans d.held, failing⟩
  rw [spanReceive_run d false, spanAt_false]
  simp only [State.lastHop, heldKey_of_onlyFabric (spanGarbled_onlyFabric s h), sent]
end

end Sys2Proof.Machine
end

section
/-! A store that is lost on its way (R167, R172), and O47. -/
namespace Sys2Proof.Machine

/-! ## The context that issued a request -/

theorem mset_mem (m : Map α) (k : Nat) (v : α) : (k, v) ∈ mset m k v := by
  induction m with
  | nil => exact List.mem_singleton.2 rfl
  | cons e m ih =>
    obtain ⟨j, w⟩ := e
    unfold mset
    split
    · exact .head _
    · split
      · exact .head _
      · exact .tail _ ih

theorem mem_modTile (s : State) (t : Nat) (f : Tile → Tile) : (t, (s.modTile t f).tile t) ∈ (s.modTile t f).tiles := by
  rw [modTile_tile_same]
  exact mset_mem ..

/-- u lists the tiles of s, but for tile t, which belongs to the same contexts. -/
structure State.SameContexts (s : State) (t : Nat) (u : State) : Prop where
  others : ∀ e ∈ u.tiles, e.1 = t ∨ e ∈ s.tiles
  pid : (u.tile t).pid = (s.tile t).pid
  self : (u.tile t).self = (s.tile t).self
  ctxs : (u.tile t).ctxs = (s.tile t).ctxs

theorem State.SameContexts.trans {s u v : State} {t : Nat} (h : s.SameContexts t u) (g : u.SameContexts t v) : s.SameContexts t v where
  others e he := (g.others e he).elim .inl (h.others e)
  pid := g.pid.trans h.pid
  self := g.self.trans h.self
  ctxs := g.ctxs.trans h.ctxs

theorem sameContexts_of_tiles {s u : State} (h : u.tiles = s.tiles) (t : Nat) : s.SameContexts t u := by
  have : u.tile t = s.tile t := by rw [State.tile, h]; rfl
  exact ⟨fun e he => .inr (h ▸ he), by rw [this], by rw [this], by rw [this]⟩
theorem sameContexts_modTile (s : State) (t : Nat) {f : Tile → Tile} (h : ∀ x, (f x).pid = x.pid ∧ (f x).self = x.self ∧ (f x).ctxs = x.ctxs) :
    s.SameContexts t (s.modTile t f) := by
  obtain ⟨hp, hs, hc⟩ := h (s.tile t)
  refine ⟨fun e he => (mem_mset he).imp (congrArg Prod.fst) id, ?_, ?_, ?_⟩ <;> rw [modTile_tile_same] <;> assumption

/-- The tile holds the context that issued for a. -/
def runsFor (a : Armer) (x : Tile) : Prop := x.pid = a.pid ∧ x.self = a.self ∧ mhas x.ctxs a.cid = true

/-- An issuer's context that runs on one tile alone changes there. -/
theorem modIssuer_here {s : State} {a : Armer} {t : Nat} (hm : (t, s.tile t) ∈ s.tiles) (hr : runsFor a (s.tile t))
    (ho : ∀ e ∈ s.tiles, runsFor a e.2 → e.1 = t) (hb : a.birth = 0) (f : Ctx → Ctx) : s.modIssuer a f = s.modCtxAt t a.cid f := by
  have change : a.change f = f := funext fun k => by simp [Armer.change, Armer.is, hb]
  have holds : ∀ x : Tile, (x.pid = a.pid && x.self = a.self && mhas x.ctxs a.cid) = true ↔ runsFor a x := fun x => by
    simp [runsFor, and_assoc]
  unfold State.modIssuer
  rw [change]
  split
  case h_1 u x hf =>
    have found := List.find?_some hf
    have own : u = t := ho (u, x) (List.mem_of_find?_eq_some hf) ((holds x).1 found)
    rw [own]
  case h_2 hf => exact absurd ((holds _).2 hr) (List.find?_eq_none.1 hf _ hm)

/-! ## The loss -/

theorem dropHeld_contexts (s : State) (id t : Nat) : s.SameContexts t (s.dropHeld id) :=
  sameContexts_of_tiles (s := s) (u := s.dropHeld id) rfl t

theorem closeHeld_contexts (s : State) (h : Held) : s.SameContexts h.tile (s.closeHeld h) := by
  unfold State.closeHeld State.freeSlotOf
  split
  · exact dropHeld_contexts ..
  · refine (sameContexts_modTile s h.tile (f := fun x => x.setHw h.slot .free) fun x => ?_).trans (dropHeld_contexts ..)
    unfold Tile.setHw
    split <;> exact ⟨rfl, rfl, rfl⟩

/-- The tile without the copies that a lost store has made stale. -/
def State.withoutStale (s : State) (h : Held) : State := s.modTile h.tile fun x => x.dropStale h.name h.words

theorem withoutStale_contexts (s : State) (h : Held) : s.SameContexts h.tile (s.withoutStale h) := by
  unfold State.withoutStale
  exact sameContexts_modTile s h.tile fun _ => ⟨rfl, rfl, rfl⟩

/-- What a release reports of a store that is out of reach. -/
def unreached (h : Held) (k : Ctx) : Ctx := { k with losses := k.losses ++ [⟨cUNREACH, h.ptr, h.seq⟩] }

theorem loseHeld_store {s : State} {h : Held} {mask : ByteMask} {data : LineData} (hw : h.work = .store mask data) :
    s.loseHeld h cUNREACH = (((s.closeHeld h).withoutStale h).poisonVisitor (pkgOf h.tile) h.name).modIssuer h.issuer (unreached h) := by
  simp only [State.loseHeld, hw, HeldWork.asks, HeldWork.writes, Bool.false_and, Bool.false_eq_true, if_false, State.dropLost, decide_true, Bool.and_self,
    if_true]
  rfl

/-- u is s with its only request, a store of tile t, lost. -/
structure State.StoreLost (s : State) (h : Held) (u : State) : Prop where
  mem : u.mem = s.mem
  held : u.held = s.held.filter fun g => g.id ≠ h.id
  devices : u.devices = s.devices
  losses : (u.ctxAt h.tile h.cid).losses = (s.ctxAt h.tile h.cid).losses ++ [⟨cUNREACH, h.ptr, h.seq⟩]
  same : s.SameIssue u

theorem loseHeld_lost {s : State} {h : Held} {mask : ByteMask} {data : LineData} (hw : h.work = .store mask data) (hr : runsFor h.issuer (s.tile h.tile))
    (ho : ∀ e ∈ s.tiles, runsFor h.issuer e.2 → e.1 = h.tile) : s.StoreLost h (s.loseHeld h cUNREACH) := by
  have closed := closeHeld_closed s h
  have poisoned : ∃ v : State, ((s.closeHeld h).withoutStale h).poisonVisitor (pkgOf h.tile) h.name = v ∧
      v = { (s.closeHeld h).withoutStale h with dirs := v.dirs } := by
    refine ⟨_, rfl, ?_⟩
    unfold State.poisonVisitor
    split <;> rfl
  obtain ⟨v, hv, rest⟩ := poisoned
  have tiles : v.tiles = ((s.closeHeld h).withoutStale h).tiles := by rw [rest]
  have contexts := ((closeHeld_contexts s h).trans (withoutStale_contexts _ h)).trans (sameContexts_of_tiles tiles h.tile)
  have listed : (h.tile, v.tile h.tile) ∈ v.tiles := by
    rw [State.tile, tiles]
    exact mem_modTile ..
  have runs : runsFor h.issuer (v.tile h.tile) := by rw [runsFor, contexts.pid, contexts.self, contexts.ctxs]; exact hr
  have only : ∀ e ∈ v.tiles, runsFor h.issuer e.2 → e.1 = h.tile := fun e he hre => (contexts.others e he).elim id fun hs => ho e hs hre
  have ctx : v.ctxAt h.tile h.cid = s.ctxAt h.tile h.cid := by
    rw [State.ctxAt, Tile.ctx, contexts.ctxs]
    rfl
  have issued : v.modIssuer h.issuer (unreached h) = v.modCtxAt h.tile h.cid (unreached h) := modIssuer_here listed runs only rfl _
  rw [loseHeld_store hw, hv, issued]
  refine ⟨?_, ?_, ?_, ?_, ?_⟩
  · rw [modCtxAt_mem, rest]; exact closed.mem
  · rw [modCtxAt_held, rest]; exact closed.held
  · rw [modCtxAt_devices, rest]; exact closed.devices
  · rw [modCtxAt_ctxAt_same, ctx]; rfl
  · refine closed.same.trans ?_
    rw [rest]
    exact ⟨rfl, rfl, rfl, rfl, rfl⟩

/-- The eighth failure reports the path, and the store is lost (R172). -/
theorem spanReceive_lost {s : State} {h : Held} (d : s.SpanDue h 7) {mask : ByteMask} {data : LineData} (hw : h.work = .store mask data)
    (hr : runsFor h.issuer (s.tile h.tile)) (ho : ∀ e ∈ s.tiles, runsFor h.issuer e.2 → e.1 = h.tile) :
    ∃ u, s.happens u (.spanReceive h.id false) ∧ u.mem = s.mem ∧ u.held = [] ∧ (u.dev (pkgOf h.tile)).fabric.failing = [] ∧
      (u.ctxAt h.tile h.cid).losses = (s.ctxAt h.tile h.cid).losses ++ [⟨cUNREACH, h.ptr, h.seq⟩] := by
  obtain ⟨u, hu, -, lost⟩ := transmit_fails (spanGarbled_garbled d) (spanGarbled_failing d) (by decide : 1 ≤ 128) h.payload
  obtain ⟨sent, failing⟩ := lost rfl
  have moved := (spanGarbled_onlyFabric s h).trans hu
  have tile : u.tile h.tile = s.tile h.tile := by rw [State.tile, moved.tiles]; rfl
  have logged : u.SameIssue (u.logEvent (pkgOf h.tile) evLINK hubSource (s.heldKey h)) := ⟨rfl, rfl, rfl, rfl, rfl⟩
  have fabric : ((u.logEvent (pkgOf h.tile) evLINK hubSource (s.heldKey h)).dev (pkgOf h.tile)).fabric = (u.dev (pkgOf h.tile)).fabric := by
    rw [State.logEvent, modMgmt_eq, setDev_dev_same]
  have gone := loseHeld_lost (s := u.logEvent (pkgOf h.tile) evLINK hubSource (s.heldKey h)) hw (by rw [State.logEvent, modMgmt_tile, tile]; exact hr)
    (by rw [State.logEvent, modMgmt_tiles, moved.tiles]; exact ho)
  refine ⟨_, happens_of_exec ?_ ((moved.sameIssue.trans logged).trans gone.same), gone.mem.trans moved.mem, ?_, ?_, ?_⟩
  · rw [spanReceive_run d false, spanAt_false]
    simp only [State.lastHop, heldKey_of_onlyFabric (spanGarbled_onlyFabric s h), sent]
  · refine gone.held.trans ?_
    rw [State.logEvent, modMgmt_held, moved.held, d.held, only_request_gone]
  · rw [with_fate_dev, State.dev, gone.devices, ← failing, ← fabric]
    rfl
  · rw [with_fate_ctxAt, gone.losses, State.logEvent, modMgmt_ctxAt, State.ctxAt, tile]
    rfl

/-- Settles O47: each event at a home is let through, serves the line in its one step, and leaves the rest of memory as it was. -/
theorem homeEvents : Obligations.HomeEvents := by
  unfold Obligations.HomeEvents
  refine ⟨?owned, ?gives, ?fresh, ?remote⟩
  case owned =>
    intro s t o gl m mask l d k back left kept hp ho hk hd hl hgl hh hc
    have owned : s.OneOwner t o gl m mask l := ⟨hp, ho, hk, hd, hl, hgl, hh, hc⟩
    exact ⟨homeRead_owned owned, homeRegister_owned owned⟩
  case gives =>
    intro s t gl mask l hp hl hgl hh back gives
    have cleanWords : exec (.homeReturn t gl mask) s = happen (fun s =>
        (s.recallTile t gl (mask &&& (l.own &&& ~~~l.dirty)) false).clearOwner t gl (mask &&& (l.own &&& ~~~l.dirty))) s := by
      rw [exec_homeReturn, happen_run, happen_run, clean_one hl hgl]
    exact ⟨gives_back (inv := false) rfl hp hl hgl hh, gives_back (inv := false) rfl hp hl hgl hh,
      gives_back (inv := true) rfl hp hl hgl hh, gives_back (inv := false) cleanWords hp hl hgl hh⟩
  case fresh =>
    intro s t gl hd hv hc
    have fresh : s.Fresh (pkgOf t) gl := ⟨hd, hv, hc⟩
    refine ⟨fun hw => ⟨operationPacket_fresh fresh hw, fun a x ha hal hm => homeAmo_fresh fresh hw x ha hal hm,
      fun c va perm hp hl hways => fillReturn_fresh fresh hw c va perm hp hl hways⟩, ?_⟩
    rintro mask data h hh rfl rfl hwork hfill hanswer hlost stored f key failed
    refine ⟨fun hs => registerGrant_stored fresh hh hwork hs hanswer hlost, ?_⟩
    intro sender n hstage hopen hroom hgarbled hfailing
    have due : s.SpanDue h n := ⟨hh, hstage, hopen, hroom, hgarbled, hfailing, hanswer, hlost⟩
    refine ⟨spanReceive_stored due fresh hwork, fun hn => spanReceive_again due hn, fun hn ho hpid hself hctx => ?_⟩
    subst hn
    exact spanReceive_lost due hwork ⟨hpid, hself, hctx⟩ ho
  case remote =>
    intro s p gl m hp ho hh pos
    obtain ⟨u, hu, mem, remote⟩ := remoteInvalidate_idle hp ho hh
    refine ⟨fun hr => ⟨u, hu, mem, ?_⟩, fun hr => ⟨u, hu, mem, ?_⟩⟩
    · rw [remote, hr]
      exact if_pos rfl
    · rw [remote, hr, ← bit_of_pow]
      rfl

end Sys2Proof.Machine
end

section
/-! How an arrival or a credit changes a barrier (R104). -/
namespace Sys2Proof.Machine

/-- OVF after arr arrivals and a credit of bytes: a count that would pass 0 sets it. -/
def BarV.ovfAfter (b : BarV) (arr bytes : Nat) : Bool := b.ovf || decide (b.pendArr < arr) || decide (b.pendBytes < bytes)

theorem ovfAfter_iff (b : BarV) (arr bytes : Nat) : b.ovfAfter arr bytes = true ↔ b.ovf = true ∨ b.pendArr < arr ∨ b.pendBytes < bytes := by
  simp [BarV.ovfAfter, or_assoc]

/-- A barrier with no counts takes nothing. -/
theorem apply_unset {b : BarV} (ha : b.expArr = 0) (hb : b.expBytes = 0) (m arr bytes : Nat) : b.apply m arr bytes = { b with ovf := true } := by
  rw [BarV.apply, if_pos ⟨ha, hb⟩]

section
variable {b : BarV} (h : b.expArr ≠ 0 ∨ b.expBytes ≠ 0) (m : Nat) {arr bytes : Nat}
include h

/-- What was expected is there: the phase is complete. -/
theorem apply_completes (ha : b.pendArr ≤ arr) (hb : b.pendBytes ≤ bytes) : b.apply m arr bytes =
    { b with
      ovf := b.ovfAfter arr bytes, phase := !b.phase, done := (b.done + 1) % m, pendArr := b.expArr, pendBytes := b.expBytes } := by
  rw [BarV.apply, if_neg (by omega)]
  exact if_pos ⟨Nat.sub_eq_zero_of_le ha, Nat.sub_eq_zero_of_le hb⟩

/-- Something is still expected: the counts go down. -/
theorem apply_counts (hc : arr < b.pendArr ∨ bytes < b.pendBytes) : b.apply m arr bytes =
    { b with ovf := b.ovfAfter arr bytes, pendArr := b.pendArr - arr, pendBytes := b.pendBytes - bytes } := by
  rw [BarV.apply, if_neg (by omega)]
  exact if_neg (by simp only; omega)

end

/-- Settles O16: the update leaves one of three barriers, by whether anything is expected and whether all of it is there. -/
theorem barrierPhases : Obligations.BarrierPhases := by
  unfold Obligations.BarrierPhases
  intro b m arr bytes
  refine ⟨fun ha hb => apply_unset ha hb m arr bytes, fun h => ⟨?ovf, fun ha hb => ?last, fun hc => ?more⟩⟩
  case ovf =>
    rw [← ovfAfter_iff]
    by_cases hc : arr < b.pendArr ∨ bytes < b.pendBytes
    · rw [apply_counts h m hc]
    · rw [apply_completes h m (by omega) (by omega)]
  case last =>
    rw [apply_completes h m ha hb]
    exact ⟨rfl, rfl, rfl, rfl⟩
  case more =>
    rw [apply_counts h m hc]
    exact ⟨rfl, rfl, rfl, rfl⟩

end Sys2Proof.Machine
end

section
/-! A finished record of a channel whose credit has not reached its barrier (R96, R104). -/
namespace Sys2Proof.Machine

/-- One line of scratch has been copied to the next under barrier 0 of the tile, and the record is finished. -/
def creditedXfer : Xfer :=
  { Xfer.new 0 false 0x0010000000000000 0x0010000000000080 128 0 Armer.reset with pos := 128, wrote := 128, moved := 128, finished := true }

/-- The credit of the last line met another one of the same cycle at barrier 0, and waits for a later cycle (R104). -/
def creditedPort : BarPort :=
  ⟨localName 0 0, 0, BarV.init 0 256, (BarV.init 0 256).apply (2 ^ 16) 0 128, false, some 128, [(0, 128)]⟩

/-- A large leaf that maps the first 512 MiB to themselves. -/
def identityLeaf : Word := BitVec.ofNat 64 (leafEntry 0)

/-- Tile 0's channel 3 runs that record, which lies at 0x1000 in mapped memory. -/
def creditedState : State := { State.reset with
  ports := [creditedPort]
  devices := [(0, { Device.reset with clusters := [(0, { Cluster.reset with tlb := [⟨0, 0, true, identityLeaf⟩] })] })]
  tiles := [(0, { Tile.reset with
    mode := .free, ctxs := [(0, Ctx.reset)], bars := Tile.reset.bars.setIfInBounds 0 creditedPort.post.toLocal
    chans := Tile.reset.chans.setIfInBounds 3 ⟨.running, 0x1000, some creditedXfer, 0, Armer.reset⟩ })] }

/-- The engine's write of n bytes at an offset of the record. -/
def recordStore (s : State) (off n v : Nat) : EngRes Unit × Nat × State := s.engineStore Armer.reset.asker 0x1000 (addrOf 0x1000 + off) n v

/-- The state in which the record's status would be written back. -/
def creditedReady : State :=
  (creditedState.dropHolds (creditedXfer.key 0 3)).modChan 0 3 fun c => { c with cur := some creditedXfer }

/-- Both of the record's words can be written. -/
theorem creditedState_status : (recordStore creditedReady 0x30 8 (128 * 2 ^ 16)).1 = .ok () := by decide +kernel
theorem creditedState_own :
    (recordStore (recordStore creditedReady 0x30 8 (128 * 2 ^ 16)).2.2 0x0C 4 0).1 = .ok () := by decide +kernel

/-- RECORD_COMPLETE waits for the credit: the record is still in hand. -/
theorem creditedState_complete_cur :
    (nextOf (exec (.recordComplete 0 3) creditedState)).map (fun u => ((u.tile 0).chan 3).cur) = some (some creditedXfer) := by decide +kernel

/-- Refutes O49: its clause on RECORD_COMPLETE does not ask that the record's credits have reached their barriers. While one waits for a later cycle
the event does nothing (R96), and the channel keeps its record. -/
theorem not_copyEvents : ¬ Obligations.CopyEvents := by
  unfold Obligations.CopyEvents
  intro h
  obtain ⟨-, complete, -⟩ := h
  obtain ⟨u, he, -, -, hchan⟩ := complete creditedState _ _ 0 3 _ _ creditedXfer (by decide) (by decide +kernel) rfl rfl rfl
    (Prod.ext creditedState_status rfl) (Prod.ext creditedState_own rfl)
  have kept : ((u.tile 0).chan 3).cur = some creditedXfer := by simpa [he] using creditedState_complete_cur
  rw [hchan] at kept
  exact absurd kept (by simp)

end Sys2Proof.Machine
end

section
/-! The local forms of BINIT, BEXPECT and BARRIVE (R104, R238, R239). -/
namespace Sys2Proof.Machine

/-! ## Operands -/

/-- The instruction after two registers that can be read: it issues once both are ready (R141). -/
theorem rs_pair {s : State} {a b : BitVec 5} (ha : s.ctx.readable a = true) (hb : s.ctx.readable b = true) (k : Word → Word → M α) :
    (do let x ← rs a; let y ← rs b; k x y) s = k (s.ctx.sreg a) (s.ctx.sreg b) { s with now := s.issueCycle [a, b] } := by
  have second : rs b (s.issueAt (s.ctx.sready.getD a.toNat 0)) = .ok (s.ctx.sreg b, _) := rs_now (s := s.issueAt _) hb
  simp only [bind_run, rs_now ha, second]
  rfl

/-- A barrier number below 16 names a local barrier (R237). -/
theorem isGlobal_of_lt {f : CF} (h : f.p5.toNat < 16) : f.isGlobal = false := by
  rw [CF.isGlobal, BitVec.getLsbD]
  exact Nat.testBit_lt_two_pow h
theorem localN_of_lt {f : CF} (h : f.p5.toNat < 16) : f.localN = f.p5.toNat := Nat.mod_eq_of_lt h

/-- The value of a table whose entries all change, where an unlisted number reads as before. -/
theorem mget_map {d : α} {f : Nat → α → α} {k : Nat} (h : f k d = d) (m : Map α) :
    mget d (m.map fun e => (e.1, f e.1 e.2)) k = f k (mget d m k) := by
  induction m with
  | nil => exact h.symm
  | cons e m ih =>
    simp only [List.map_cons, mget, ih]
    split
    · exact h.symm
    · split
      case isTrue e => rw [e]
      case isFalse => rfl

/-! ## A local barrier as numbers -/

@[simp] theorem toLocal_toV (b : Barrier) : b.toV.toLocal = b := by
  simp [Barrier.toV, BarV.toLocal]

/-- A local barrier after BINIT or BEXPECT (R238). -/
def Barrier.updated (b : Barrier) (init : Bool) (arr : BitVec 16) (bytes : BitVec 40) : Barrier :=
  if init then ⟨arr, bytes, false, false, arr, bytes, 0⟩ else { b with expArr := arr, expBytes := bytes }

theorem updated_toV (b : Barrier) (init : Bool) (arr : BitVec 16) (bytes : BitVec 40) :
    (b.updated init arr bytes).toV = b.toV.update init arr.toNat bytes.toNat := by
  cases init <;> rfl

/-! ## BINIT and BEXPECT -/

/-- A context that has seen no phase of barrier j. -/
def Ctx.unseen (j : Nat) (k : Ctx) : Ctx := { k with seen := k.seen.setIfInBounds j 0 }

theorem unseen_reset (j : Nat) : Ctx.reset.unseen j = Ctx.reset := by
  have same : (Vector.replicate 16 (0 : BitVec 16)).setIfInBounds j 0 = Vector.replicate 16 0 := by
    ext i hi
    simp
  exact congrArg (fun v => { Ctx.reset with seen := v }) same

/-- Every context of a tile forgets what it has seen of barrier j. -/
def Tile.forgetBar (j : Nat) (x : Tile) : Tile := { x with ctxs := x.ctxs.map fun e => (e.1, e.2.unseen j) }

theorem forgetBar_ctx (j : Nat) (x : Tile) (c : Nat) : (x.forgetBar j).ctx c = (x.ctx c).unseen j :=
  mget_map (f := fun _ k => Ctx.unseen j k) (unseen_reset j) x.ctxs

/-- Barrier j of the part's tile takes the fields v, which what follows in the cycle is applied to (R104). -/
def State.putBar (s : State) (j : Nat) (v : Barrier) : State :=
  (s.restartBar (localName s.cur j) v.toV).modTile s.cur fun x => { x with bars := x.bars.setIfInBounds j v }

/-- BINIT and BEXPECT on a local barrier (R238). -/
theorem setBarrier_local {s : State} {f : CF} (h : f.p5.toNat < 16) (init : Bool) (ha : s.ctx.readable f.a = true)
    (hb : s.ctx.readable f.b = true) :
    let j := f.p5.toNat
    let v := ((s.tile s.cur).bars.getD j Barrier.reset).updated init (bits (s.ctx.sreg f.a) 0 16) (bits (s.ctx.sreg f.b) 0 40)
    let t := ({ s with now := s.issueCycle [f.a, f.b] } : State).putBar j v
    setBarrier f init s = .ok ((), if init then t.modTile s.cur (Tile.forgetBar j) else t) := by
  intro j v t
  simp only [setBarrier, rs_pair ha hb, isGlobal_of_lt h, localN_of_lt h, Bool.false_eq_true, if_false, bind_run, getT_run, upd_run, modT_run,
    ← updated_toV, toLocal_toV]
  cases init <;> rfl

/-- The low bits of a word, as the statements have them. -/
theorem bits_low (x : Word) (w : Nat) : bits x 0 w = BitVec.ofNat w x.toNat :=
  BitVec.eq_of_toNat_eq (by rw [bits_toNat, Nat.pow_zero, Nat.div_one, BitVec.toNat_ofNat])

theorem putBar_ctxAt (s : State) (j : Nat) (v : Barrier) (t c : Nat) : (s.putBar j v).ctxAt t c = s.ctxAt t c := by
  rw [State.ctxAt, State.putBar, modTile_tile]
  split
  case isTrue e => rw [e]; rfl
  case isFalse => rfl

/-- BINIT sets the barrier's counts, its phase, and what every context has seen of it. -/
theorem binit_local {s : State} {f : CF} (h : f.p5.toNat < 16) (ha : s.ctx.readable f.a = true) (hb : s.ctx.readable f.b = true) :
    let j := f.p5.toNat
    let a := BitVec.ofNat 16 (s.ctx.sreg f.a).toNat
    let b := BitVec.ofNat 40 (s.ctx.sreg f.b).toNat
    ∃ t, exec (.binit f) s = .next t ∧ t.fate = .done ∧ t.now = s.issueCycle [f.a, f.b] ∧ t.mem = s.mem ∧
      (t.tile s.cur).bars = (s.tile s.cur).bars.setIfInBounds j ⟨a, b, false, false, a, b, 0⟩ ∧
      (∀ c, (t.ctxAt s.cur c).seen = (s.ctxAt s.cur c).seen.setIfInBounds j 0) ∧ t.ctx.sregs = s.ctx.sregs ∧ t.ctx.flags = s.ctx.flags := by
  intro j a b
  have run := setBarrier_local h true ha hb
  simp only [if_true, bits_low] at run
  have ctx (c : Nat) : (((({ s with now := s.issueCycle [f.a, f.b] } : State).putBar j ⟨a, b, false, false, a, b, 0⟩).modTile s.cur
      (Tile.forgetBar j)).ctxAt s.cur c) = (s.ctxAt s.cur c).unseen j := by
    rw [State.ctxAt, modTile_tile_same, forgetBar_ctx]
    exact congrArg (Ctx.unseen j) (putBar_ctxAt _ _ _ s.cur c)
  refine ⟨_, finish_ok run, rfl, rfl, rfl, ?_, fun c => congrArg Ctx.seen (ctx c), (congrArg Ctx.sregs (ctx s.cid) :),
    (congrArg Ctx.flags (ctx s.cid) :)⟩
  exact congrArg Tile.bars ((modTile_tile_same ..).trans (congrArg (Tile.forgetBar j) (modTile_tile_same ..)))

/-- BEXPECT sets the counts that the next phase starts with. -/
theorem bexpect_local {s : State} {f : CF} (h : f.p5.toNat < 16) (ha : s.ctx.readable f.a = true) (hb : s.ctx.readable f.b = true) :
    let v := { (s.tile s.cur).bars.getD f.p5.toNat Barrier.reset with
      expArr := BitVec.ofNat 16 (s.ctx.sreg f.a).toNat, expBytes := BitVec.ofNat 40 (s.ctx.sreg f.b).toNat }
    ∃ t, exec (.bexpect f) s = .next t ∧ (s.putBar f.p5.toNat v).issued t (s.issueCycle [f.a, f.b]) := by
  have run := setBarrier_local h false ha hb
  simp only [bits_low] at run
  exact ⟨_, finish_ok run, issued_done (s.putBar f.p5.toNat _) _⟩

end Sys2Proof.Machine
end

section
/-! Arrivals and credits of a local barrier, and its three instructions together (R104, R239). -/
namespace Sys2Proof.Machine

/-! ## Wakes -/

/-- An event that wakes a context (R314) counts up its wakes. -/
theorem wake_ctxAt (s : State) (t c u d : Nat) : ∃ n, (s.wake t c).ctxAt u d = { s.ctxAt u d with wakes := n } := by
  unfold State.wake
  split
  · rw [State.modCtxAt, setCtxAt_ctxAt]
    split
    case isTrue h => obtain ⟨rfl, rfl⟩ := h; exact ⟨_, rfl⟩
    case isFalse => exact ⟨_, rfl⟩
  · exact ⟨_, rfl⟩

/-- What a change of one context leaves of the tiles. -/
theorem modCtxAt_tile (s : State) (t c : Nat) (f : Ctx → Ctx) (u : Nat) :
    (s.modCtxAt t c f).tile u = { s.tile u with ctxs := ((s.modCtxAt t c f).tile u).ctxs } := by
  rw [State.modCtxAt, State.setCtxAt, modTile_tile]
  split
  case isTrue h => rw [h]; rfl
  case isFalse => rfl

theorem wake_tile (s : State) (t c u : Nat) : (s.wake t c).tile u = { s.tile u with ctxs := ((s.wake t c).tile u).ctxs } := by
  unfold State.wake
  split
  · exact modCtxAt_tile ..
  · rfl

theorem wake_rest (s : State) (t c : Nat) : s.wake t c = { s with tiles := (s.wake t c).tiles } := by
  unfold State.wake
  split <;> rfl

/-! ## Updates that reach a local barrier -/

/-- The first update of a cycle is applied (R104). -/
theorem updateBar_first {s : State} (h : s.portsFree) (name m : Nat) (b : BarV) (arr bytes : Nat) :
    ∃ ps, s.updateBar name m b arr bytes = (some (b.apply m arr bytes), { s with ports := ps }) := by
  cases hp : s.ports.find? fun p => p.name = name with
  | none => exact ⟨_, by simp only [State.updateBar, hp]; rfl⟩
  | some p =>
    have before : p.at' ≠ s.now := Nat.ne_of_lt (h p (List.mem_of_find?_eq_some hp))
    exact ⟨_, by simp only [State.updateBar, hp, before, ne_eq, not_false_eq_true, decide_true, Bool.true_or, if_true]; rfl⟩

section
variable {s : State} {q : BarPort} {b : BarV} (hports : s.ports = [q]) (hat : q.at' = s.now) (hpost : q.post = b) (m : Nat)
include hports hat hpost

/-- An arrival merges with the credit that came before it in its cycle. -/
theorem updateBar_merged (harr : q.arr = false) {c : Nat} (hc : q.credit = some c) :
    ∃ ps, s.updateBar q.name m b 1 0 = (some (q.pre.apply m 1 c), { s with ports := ps }) := by
  exact ⟨_, by simp [State.updateBar, hports, hat, hpost, harr, hc]; rfl⟩

/-- An arrival waits for a later cycle behind the one that came before it. -/
theorem updateBar_second (harr : q.arr = true) :
    s.updateBar q.name m b 1 0 = (none, { s with ports := [{ q with later := q.later ++ [(1, 0)] }] }) := by
  simp [State.updateBar, hports, hat, hpost, harr]

end

/-- What is left when an arrival or credit has made a local barrier v: nothing but barrier, record of updates and wakes changes. -/
structure State.Arrived (s : State) (n : Nat) (v : Barrier) (u : State) : Prop where
  now : u.now = s.now
  mem : u.mem = s.mem
  bars : (u.tile s.cur).bars = (s.tile s.cur).bars.setIfInBounds n v
  sregs : u.ctx.sregs = s.ctx.sregs
  flags : u.ctx.flags = s.ctx.flags

/-- An update that is applied makes the barrier what it says. -/
theorem localBarrier_arrived {s : State} {n arr bytes : Nat} {v : BarV} {ps : List BarPort}
    (h : s.updateBar (localName s.cur n) (2 ^ 16) ((s.tile s.cur).bars.getD n Barrier.reset).toV arr bytes = (some v, { s with ports := ps })) :
    s.Arrived n v.toLocal (s.localBarrier s.cur n arr bytes) := by
  let u := ({ s with ports := ps } : State).modTile s.cur fun x => { x with bars := x.bars.setIfInBounds n v.toLocal }
  have put : s.Arrived n v.toLocal u := ⟨rfl, rfl, congrArg Tile.bars (modTile_tile_same ..), congrArg Ctx.sregs (modTile_ctx s.cur rfl),
    congrArg Ctx.flags (modTile_ctx s.cur rfl)⟩
  have woken : s.Arrived n v.toLocal (u.wake s.cur 0) := by
    have ctx : (u.wake s.cur 0).ctx = (u.wake s.cur 0).ctxAt s.cur s.cid := by
      rw [State.ctx, wake_rest]
      rfl
    obtain ⟨w, hw⟩ := wake_ctxAt u s.cur 0 s.cur s.cid
    rw [hw] at ctx
    refine ⟨?_, ?_, ?_, (congrArg Ctx.sregs ctx).trans put.sregs, (congrArg Ctx.flags ctx).trans put.flags⟩
    · rw [wake_rest]; exact put.now
    · rw [wake_rest]; exact put.mem
    · rw [wake_tile]; exact put.bars
  simp only [State.localBarrier, h]
  split
  · exact put
  · exact woken

/-! ## BARRIVE -/

/-- BARRIVE on a local barrier, once its release is done (R239). -/
theorem barrive_run {s : State} {f : CF} (h : f.p5.toNat < 16) (hr : s.releasable = true) :
    exec (.barrive f) s = .next { s.touchCtx.localBarrier s.cur f.p5.toNat 1 0 with fate := .done } := by
  refine finish_ok (m := (do if f.isGlobal then _ else release; upd fun s => s.localBarrier s.cur f.localN 1 0)) ?_
  simp only [isGlobal_of_lt h, localN_of_lt h, Bool.false_eq_true, if_false, bind_run, release_run hr, upd_run, touchCtx_cur]

theorem touchCtx_bars (s : State) : (s.touchCtx.tile s.cur).bars = (s.tile s.cur).bars := by
  rw [State.touchCtx, setCtx_tile_cur]
  rfl

/-- BARRIVE whose arrival is applied. -/
theorem barrive_arrives {s : State} {f : CF} (h : f.p5.toNat < 16) (hr : s.releasable = true) {v : BarV}
    (hu : ∃ ps, s.touchCtx.updateBar (localName s.cur f.p5.toNat) (2 ^ 16) ((s.tile s.cur).bars.getD f.p5.toNat Barrier.reset).toV 1 0 =
      (some v, { s.touchCtx with ports := ps })) :
    ∃ t, exec (.barrive f) s = .next t ∧ t.fate = .done ∧ t.now = s.now ∧ t.mem = s.mem ∧
      (t.tile s.cur).bars = (s.tile s.cur).bars.setIfInBounds f.p5.toNat v.toLocal ∧ t.ctx.sregs = s.ctx.sregs ∧ t.ctx.flags = s.ctx.flags := by
  obtain ⟨ps, hu⟩ := hu
  rw [← touchCtx_bars] at hu
  have left := localBarrier_arrived hu
  refine ⟨_, barrive_run h hr, rfl, left.now, left.mem, left.bars.trans ?_, left.sregs.trans ?_, left.flags.trans ?_⟩
  · rw [touchCtx_cur, touchCtx_bars]
  · rw [touchCtx_ctx]
  · rw [touchCtx_ctx]

/-- BARRIVE behind another arrival of its cycle. -/
theorem barrive_waits {s : State} {f : CF} (h : f.p5.toNat < 16) (hr : s.releasable = true) {ps : List BarPort}
    (hu : s.touchCtx.updateBar (localName s.cur f.p5.toNat) (2 ^ 16) ((s.tile s.cur).bars.getD f.p5.toNat Barrier.reset).toV 1 0 =
      (none, { s.touchCtx with ports := ps })) :
    ∃ t, exec (.barrive f) s = .next t ∧ t.fate = .done ∧ (t.tile s.cur).bars = (s.tile s.cur).bars ∧ t.ports = ps := by
  rw [← touchCtx_bars] at hu
  have left : s.touchCtx.localBarrier s.cur f.p5.toNat 1 0 = { s.touchCtx with ports := ps } := by
    simp only [State.localBarrier, hu]
  rw [barrive_run h hr, left]
  exact ⟨_, rfl, rfl, touchCtx_bars s, rfl⟩

/-- Settles O17: BINIT and BEXPECT put the barrier that they compute; BARRIVE's arrival is the first update of its cycle, merges with a credit, or
waits behind another arrival. -/
theorem localBarrierUpdates : Obligations.LocalBarrierUpdates := by
  unfold Obligations.LocalBarrierUpdates
  intro f s h j a b x
  refine ⟨fun ha hb => ⟨binit_local h ha hb, bexpect_local h ha hb⟩, ?arrival⟩
  case arrival =>
    intro hr gives old
    refine ⟨fun hp => ?first, ?_⟩
    case first => exact barrive_arrives h hr (updateBar_first (s := s.touchCtx) hp _ _ _ 1 0)
    intro q hports hname hat hpost
    refine ⟨fun harr c hc => ?credit, fun harr => ?second⟩
    case credit => exact barrive_arrives h hr (hname ▸ updateBar_merged (s := s.touchCtx) hports hat hpost _ harr hc)
    case second => exact barrive_waits h hr (hname ▸ updateBar_second (s := s.touchCtx) hports hat hpost _ harr)

end Sys2Proof.Machine
end

section
/-! BWAIT, BTEST and BWANY on local barriers (R105, R106, R240 to R242). -/
namespace Sys2Proof.Machine

/-! ## Phases that a context has yet to see -/

/-- The phases of barrier j completed so far. -/
def State.barDone (s : State) (j : Nat) : BitVec 16 := ((s.tile s.cur).bars.getD j Barrier.reset).done

/-- The part's context sees the phases of barrier j completed so far, and acquires (R105). -/
def State.sawBar (s : State) (j : Nat) : State :=
  (s.setCtx { s.ctx with seen := s.ctx.seen.setIfInBounds j (s.barDone j) }).flashTile s.cur

theorem sawBar_pendingReg (s : State) (j : Nat) (d : BitVec 5) : (s.sawBar j).ctx.pendingReg d = s.ctx.pendingReg d := by
  rw [State.sawBar, flashTile_ctx, setCtx_ctx]
  rfl

/-- Two meanings that do the same in a state finish alike. -/
theorem finish_congr {m n : M Unit} {s : State} (h : m s = n s) : finish m s = finish n s := by
  rw [finish, finish, h]

theorem zext_eq (x : BitVec n) : zext x = BitVec.ofNat 64 x.toNat :=
  BitVec.eq_of_toNat_eq (by rw [zext, BitVec.toNat_setWidth, BitVec.toNat_ofNat])

/-! ## BWAIT and BTEST -/

section
variable {s : State} {f : CF} (h : f.p5.toNat < 16)
include h

/-- What BWAIT and BTEST of a local barrier do is one of two, by whether its phases have been seen. -/
theorem bwait_local : exec (.bwait f) s = finish (if s.barDone f.p5.toNat = s.ctx.seen.getD f.p5.toNat 0 then
    (do block (zext f.p5); observe f.p5.toNat (s.barDone f.p5.toNat); flash) else (do observe f.p5.toNat (s.barDone f.p5.toNat); flash)) s := by
  refine finish_congr (m := (do if f.isGlobal then _ else _)) ?_
  simp only [isGlobal_of_lt h, localN_of_lt h, Bool.false_eq_true, if_false, bind_run, localBar, getT_run, pure_run, getC_run, Ctx.seenOf]
  rfl

theorem btest_local : exec (.btest f) s = finish (if s.barDone f.p5.toNat = s.ctx.seen.getD f.p5.toNat 0 then
    ws f.d 0 else (do observe f.p5.toNat (s.barDone f.p5.toNat); flash; ws f.d 1)) s := by
  refine finish_congr (m := (do if f.isGlobal then _ else _)) ?_
  simp only [isGlobal_of_lt h, localN_of_lt h, Bool.false_eq_true, if_false, bind_run, localBar, getT_run, pure_run, getC_run, Ctx.seenOf]
  rfl

/-- A phase not yet seen is seen (R240, R241). -/
theorem bwait_sees (hn : s.barDone f.p5.toNat ≠ s.ctx.seen.getD f.p5.toNat 0) :
    exec (.bwait f) s = .next { s.sawBar f.p5.toNat with fate := .done } := by
  rw [bwait_local h, if_neg hn]
  rfl

theorem btest_sees (hn : s.barDone f.p5.toNat ≠ s.ctx.seen.getD f.p5.toNat 0) (hd : s.ctx.pendingReg f.d = false) :
    ∃ t, exec (.btest f) s = .next t ∧ (s.sawBar f.p5.toNat).wrote t s.now 1 f.d 1 := by
  obtain ⟨t, run, wrote⟩ := wsLat_run (issued_refl (s.sawBar f.p5.toNat)) 1 (1 : Word) ((sawBar_pendingReg ..).trans hd)
  refine ⟨_, (btest_local h).trans ?_, wrote⟩
  rw [if_neg hn]
  exact finish_ok run

/-- With no new phase BTEST gives 0, and BWAIT waits; in a helper it traps. -/
theorem btest_seen (hn : s.barDone f.p5.toNat = s.ctx.seen.getD f.p5.toNat 0) (hd : s.ctx.pendingReg f.d = false) :
    ∃ t, exec (.btest f) s = .next t ∧ s.wrote t s.now 1 f.d 0 := by
  obtain ⟨t, run, wrote⟩ := wsLat_run (issued_refl s) 1 (0 : Word) hd
  refine ⟨_, (btest_local h).trans ?_, wrote⟩
  rw [if_pos hn]
  exact finish_ok run

theorem bwait_blocks (hn : s.barDone f.p5.toNat = s.ctx.seen.getD f.p5.toNat 0) (hc : s.cid = 0) : s.waits (.bwait f) := by
  refine (bwait_local h).trans ?_
  rw [if_pos hn]
  exact finish_wait (by rw [bind_run, block_control _ hc])

theorem bwait_traps (hn : s.barDone f.p5.toNat = s.ctx.seen.getD f.p5.toNat 0) (hc : s.cid ≠ 0) :
    s.traps (.bwait f) cHELPERWAIT (BitVec.ofNat 64 f.p5.toNat) := by
  refine (bwait_local h).trans ?_
  rw [if_pos hn]
  exact finish_trap (by rw [bind_run, block_helper _ hc, zext_eq])

end

/-! ## BWANY -/

theorem flashed_ctx (s : State) (n : Nat) : (s.flashed n).ctx = s.ctx := modTile_ctx s.cur rfl

/-- A state whose clock moves is the state after operands have been read. -/
theorem issued_now (s : State) (n : Nat) : s.Issued { s with now := n } n := ⟨rfl, rfl⟩

/-- The order in which BWANY looks through a half of the barriers, from a start on (R106). -/
def bwanyOrder (start : Nat) : List Nat := (List.range 8).map fun i => (start + i) % 8

theorem bwanyOrder_find_none {start : Nat} {p : Nat → Bool} (h : ∀ i < 8, p i = false) : (bwanyOrder start).find? p = none := by
  simp only [bwanyOrder, List.find?_eq_none, List.mem_map, List.mem_range]
  rintro _ ⟨i, -, rfl⟩
  simp [h _ (Nat.mod_lt _ (by decide))]

theorem bwanyOrder_find {start q : Nat} {p : Nat → Bool} (hq : q < 8) (h : p ((start + q) % 8) = true)
    (before : ∀ r < q, p ((start + r) % 8) = false) : (bwanyOrder start).find? p = some ((start + q) % 8) := by
  have found : (List.range 8).find? (p ∘ fun i => (start + i) % 8) = some q := by
    rw [List.find?_range_eq_some]
    exact ⟨h, by simpa using hq, fun r hr => by simp [before r hr]⟩
  rw [bwanyOrder, List.find?_map, found]
  rfl

/-- The mask a has a barrier's bit, and the barrier has a phase that the part's context has not seen. -/
def State.fresh (s : State) (a : Word) (base i : Nat) : Bool :=
  a.getLsbD i && s.barDone (base + i) ≠ s.ctx.seen.getD (base + i) 0

/-- The half of the barriers that BWANY's mask names, and the half's place in BWANYPOS. -/
def bwanyBase (a : Word) : Nat := if a.getLsbD 8 then 8 else 0
def Ctx.bwanyStart (k : Ctx) (a : Word) : Nat := (if a.getLsbD 8 then k.bwanyHigh else k.bwanyLow).toNat
def Ctx.bwanyMove (k : Ctx) (a : Word) (pos : BitVec 3) : Ctx :=
  { k with bwanyHigh := if a.getLsbD 8 then pos else k.bwanyHigh, bwanyLow := if a.getLsbD 8 then k.bwanyLow else pos }

theorem bwanyMove_eq (k : Ctx) (a : Word) (pos : BitVec 3) :
    (if a.getLsbD 8 then { k with bwanyHigh := pos } else { k with bwanyLow := pos }) = k.bwanyMove a pos := by
  unfold Ctx.bwanyMove
  split <;> rfl

/-- The barrier that BWANY takes, by its number in the half. -/
def State.bwanyPick (s : State) (a : Word) : Option Nat := (bwanyOrder (s.ctx.bwanyStart a)).find? (s.fresh a (bwanyBase a))

/-- s after BWANY has taken barrier i of the half in cycle n (R106). -/
def State.bwanyTook (s : State) (a : Word) (i n : Nat) : State :=
  let j := bwanyBase a + i
  (s.setCtx (Ctx.bwanyMove { s.ctx with seen := s.ctx.seen.setIfInBounds j (s.barDone j) } a (BitVec.ofNat 3 (i + 1)))).flashed n

theorem bwanyTook_pendingReg (s : State) (a : Word) (i n : Nat) (d : BitVec 5) : (s.bwanyTook a i n).ctx.pendingReg d = s.ctx.pendingReg d := by
  rw [State.bwanyTook, flashed_ctx, setCtx_ctx]
  rfl

section
variable {s : State} {f : CF} (h : s.canRun [f.a] f.d = true)
include h

/-- No barrier of the mask has a new phase (R242). -/
theorem bwany_none (none : s.bwanyPick (s.ctx.sreg f.a) = none) :
    ∃ t, exec (.bwany f) s = .next t ∧ s.wrote t (s.issueCycle [f.a]) 1 f.d (BitVec.allOnes 64) := by
  obtain ⟨t, run, wrote⟩ := wsLat_run ((issued_refl s).issueAt (m := s.ctx.sready.getD f.a.toNat 0)) 1 (BitVec.allOnes 64)
    (canRun_nil (canRun_cons h).2)
  refine ⟨_, finish_ok (m := (do let a ← rs f.a; _)) ?_, wrote⟩
  simp only [bind_run, rs_now (canRun_cons h).1, getC_run, getT_run]
  generalize pick : List.find? _ _ = r
  cases pick.symm.trans none
  exact run

/-- Barrier i of the half is taken. -/
theorem bwany_some {i : Nat} (some : s.bwanyPick (s.ctx.sreg f.a) = some i) :
    let n := s.issueCycle [f.a]
    ∃ t, exec (.bwany f) s = .next t ∧
      (s.bwanyTook (s.ctx.sreg f.a) i n).wrote t n 1 f.d (BitVec.ofNat 64 (bwanyBase (s.ctx.sreg f.a) + i)) := by
  intro n
  obtain ⟨t, run, wrote⟩ := wsLat_run (issued_now (s.bwanyTook (s.ctx.sreg f.a) i n) n) 1
    (BitVec.ofNat 64 (bwanyBase (s.ctx.sreg f.a) + i)) ((bwanyTook_pendingReg ..).trans (canRun_nil (canRun_cons h).2))
  refine ⟨_, finish_ok (m := (do let a ← rs f.a; _)) ?_, wrote⟩
  simp only [bind_run, rs_now (canRun_cons h).1, getC_run, getT_run]
  generalize pick : List.find? _ _ = r
  cases pick.symm.trans some
  refine Eq.trans ?_ run
  simp only [bind_run, observe, modC_run, flash_run, setCtx_setCtx, setCtx_ctx, bwanyMove_eq]
  rfl

end

/-- Settles O18: a phase not yet seen is seen and acquired; BWANY's search finds the first in its order. -/
theorem localBarrierWaits : Obligations.LocalBarrierWaits := by
  unfold Obligations.LocalBarrierWaits
  refine ⟨?one, ?any⟩
  case one =>
    intro f s h hd j done e
    have pend := canRun_nil hd
    exact ⟨fun hn => ⟨⟨_, bwait_sees h hn, issued_done (s.sawBar j) s.now⟩, btest_sees h hn pend⟩,
      fun hn => ⟨btest_seen h hn pend, bwait_blocks h hn, bwait_traps h hn⟩⟩
  case any =>
    intro f s h a high base start fresh n
    have fresh_iff (i : Nat) : s.fresh a base i = true ↔ fresh i := by
      rw [State.fresh, Bool.and_eq_true, decide_eq_true_iff]
      rfl
    refine ⟨fun none => bwany_none h (bwanyOrder_find_none fun i hi => ?_), fun q hq isFresh before => ?_⟩
    · exact Bool.eq_false_iff.mpr fun c => none i hi ((fresh_iff i).mp c)
    · intro i pos
      obtain ⟨t, run, wrote⟩ := bwany_some h (bwanyOrder_find hq ((fresh_iff i).mpr isFresh) fun r hr =>
        Bool.eq_false_iff.mpr fun c => before r hr ((fresh_iff _).mp c))
      exact ⟨t, run, wrote⟩

end Sys2Proof.Machine
end

section
/-! LSALLOC (R99, R289). -/
namespace Sys2Proof.Machine

/-! ## Lines that are pinned -/

/-- u is s with lines of tile t pinned: cached lines may have left the tile for it. -/
structure State.Pinned (s : State) (t : Nat) (u : State) : Prop where
  rest : u = { s with mem := u.mem, dirs := u.dirs, held := u.held, tiles := u.tiles }
  tile : u.tile t = { s.tile t with lines := (u.tile t).lines, pins := (u.tile t).pins }
  others : ∀ o, o ≠ t → u.tile o = s.tile o

theorem pinned_refl (s : State) (t : Nat) : s.Pinned t s := ⟨rfl, rfl, fun _ _ => rfl⟩

theorem State.Pinned.trans {s u v : State} {t : Nat} (h : s.Pinned t u) (g : u.Pinned t v) : s.Pinned t v where
  rest := by rw [g.rest, h.rest]
  tile := by rw [g.tile, h.tile]
  others o ho := (g.others o ho).trans (h.others o ho)

theorem State.Pinned.ctxAt {s u : State} {t : Nat} (h : s.Pinned t u) (o c : Nat) : u.ctxAt o c = s.ctxAt o c := by
  by_cases ho : o = t
  · rw [ho, State.ctxAt, h.tile]; rfl
  · rw [State.ctxAt, h.others o ho]; rfl

theorem State.Pinned.pid {s u : State} {t : Nat} (h : s.Pinned t u) : (u.tile t).pid = (s.tile t).pid := by
  rw [h.tile]

theorem pinned_foldl {f : State → α → State} {t : Nat} (h : ∀ (s : State) a, s.Pinned t (f s a)) (l : List α) (s : State) :
    s.Pinned t (l.foldl f s) := by
  induction l generalizing s with
  | nil => exact pinned_refl s t
  | cons a l ih => exact (h s a).trans (ih _)

/-- What a change of one tile's lines and pins keeps. -/
theorem pinned_modTile (s : State) (t : Nat) {f : Tile → Tile} (hf : ∀ x, f x = { x with lines := (f x).lines, pins := (f x).pins }) :
    s.Pinned t (s.modTile t f) where
  rest := rfl
  tile := by rw [modTile_tile_same]; exact hf _
  others o ho := by rw [modTile_tile, if_neg ho]

theorem evict_pinned (s : State) (t : Nat) (l : Line) : s.Pinned t (s.evict t l) := by
  refine State.Pinned.trans ?_ (pinned_modTile _ t (f := fun x => { x with lines := x.lines.filter fun m => m.gl ≠ l.gl }) fun _ => rfl)
  split <;> split <;> exact ⟨rfl, rfl, fun _ _ => rfl⟩

/-- The ways of a set are cleaned: no pin changes. -/
theorem evict_pins (s : State) (t : Nat) (l : Line) : ((s.evict t l).tile t).pins = (s.tile t).pins := by
  unfold State.evict
  rw [modTile_tile_same]
  simp only
  split <;> split <;> rfl

theorem trimSet_pinned (s : State) (t set n : Nat) : s.Pinned t (s.trimSet t set n) := pinned_foldl (fun s l => evict_pinned s t l) _ s

theorem trimSet_pins (s : State) (t set n : Nat) : ((s.trimSet t set n).tile t).pins = (s.tile t).pins := by
  unfold State.trimSet
  generalize List.drop _ _ = ls
  induction ls generalizing s with
  | nil => rfl
  | cons l ls ih => exact (ih _).trans (evict_pins s t l)

/-- With no cached line there is nothing to clean. -/
theorem trimSet_empty {s : State} {t : Nat} (h : (s.tile t).lines = []) (set n : Nat) : s.trimSet t set n = s := by
  simp [State.trimSet, h]

theorem pinLine_pinned (s : State) (t l : Nat) (p : PinLine) : s.Pinned t (s.pinLine t l p) :=
  (trimSet_pinned s t _ _).trans (pinned_modTile _ t (f := fun x => { x with pins := mset x.pins l p }) fun _ => rfl)

theorem pinLine_pin (s : State) (t l : Nat) (p : PinLine) (j : Nat) : ((s.pinLine t l p).tile t).pin j = if j = l then p else (s.tile t).pin j := by
  rw [State.pinLine, modTile_tile_same, Tile.pin, mget_mset, trimSet_pins]
  rfl

/-- The line that a partition's slot pins, with nothing in it. -/
def slotPin (kind : PinKind) (pid : Nat) : PinLine := { PinLine.zero with kind := kind, pid := pid }

theorem pinLines_cons (s : State) (t : Nat) (kind : PinKind) (l : Nat) (ls : List Nat) :
    s.pinLines t kind (l :: ls) = (s.pinLine t l (slotPin kind (s.tile t).pid)).pinLines t kind ls := rfl

theorem pinLines_pinned (s : State) (t : Nat) (kind : PinKind) (ls : List Nat) : s.Pinned t (s.pinLines t kind ls) :=
  pinned_foldl (fun s l => pinLine_pinned s t l _) ls s

/-- Every line of the list is pinned, zero-filled. -/
theorem pinLines_pin (s : State) (t : Nat) (kind : PinKind) (ls : List Nat) (j : Nat) :
    ((s.pinLines t kind ls).tile t).pin j = if j ∈ ls then slotPin kind (s.tile t).pid else (s.tile t).pin j := by
  induction ls generalizing s with
  | nil => rfl
  | cons l ls ih =>
    rw [pinLines_cons, ih, pinLine_pin, (pinLine_pinned ..).pid]
    by_cases hm : j ∈ ls <;> by_cases hl : j = l <;> simp [hm, hl]

/-- With no cached line nothing is written back. -/
theorem pinLines_mem {s : State} {t : Nat} (h : (s.tile t).lines = []) (kind : PinKind) (ls : List Nat) : (s.pinLines t kind ls).mem = s.mem := by
  induction ls generalizing s with
  | nil => rfl
  | cons l ls ih =>
    have cleaned (p : PinLine) : s.pinLine t l p = s.modTile t fun x => { x with pins := mset x.pins l p } := by
      rw [State.pinLine, trimSet_empty h]
    rw [pinLines_cons, cleaned]
    exact ih (by rw [modTile_tile_same]; exact h)

/-! ## What a part that writes a register leaves -/

/-- No part that changes its context alone changes anything else of a tile. -/
theorem State.elseAs.tileField {s t : State} {n : Nat} (h : s.elseAs t n) {g : Tile → α} (hg : ∀ x c k, g (Tile.setCtx x c k) = g x)
    (o : Nat) :
    g (t.tile o) = g (s.tile o) := by
  have side (u : State) (k : Ctx) : g ((u.setCtx k).tile o) = g (u.tile o) := by
    rw [State.setCtx, State.setCtxAt, modTile_tile]
    split
    case isTrue e => rw [e, hg]
    case isFalse => rfl
  exact (side t t.ctx).symm.trans ((congrArg (fun u : State => g (u.tile o)) h :).trans (side s t.ctx))

theorem State.elseAs.mem {s t : State} {n : Nat} (h : s.elseAs t n) : t.mem = s.mem := (congrArg State.mem h :)

/-! ## LSALLOC -/

/-- The slot that LSALLOC takes, if there is one. -/
def Tile.firstFree (x : Tile) : Option Nat := (List.range 32).find? fun k => !(x.slot k).alloc

theorem firstFree_none {x : Tile} (h : ∀ j < 32, (x.slot j).alloc = true) : x.firstFree = none := by
  rw [Tile.firstFree, List.find?_eq_none]
  intro j hj
  simp [h j (List.mem_range.1 hj)]

theorem firstFree_some {x : Tile} {k : Nat} (hk : k < 32) (h : (x.slot k).alloc = false) (before : ∀ j < k, (x.slot j).alloc = true) :
    x.firstFree = some k := by
  rw [Tile.firstFree, List.find?_range_eq_some]
  exact ⟨by simp [h], List.mem_range.2 hk, fun j hj => by simp [before j hj]⟩

/-- n chunks at offset o cannot be a slot of the tile (R99). -/
def Tile.slotRefused (x : Tile) (o n : Nat) : Bool :=
  o % 512 ≠ 0 || decide (0xA0000 < o + 512 * n) || !x.canPin (lineRange (o / 128) (4 * n))

/-- The chunks that LSALLOC asks for, and where. -/
def slotChunks (f : CF) : Nat := (f.b.toNat * 32 + f.p5.toNat) % 128 + 1
def slotOffset (r : Word) : Nat := r.toNat % 2 ^ 20

theorem slotChunks_eq (f : CF) : (bits (f.b ++ f.p5) 0 7 : BitVec 7).toNat + 1 = slotChunks f := by
  rw [bits_toNat, BitVec.toNat_append, ← Nat.shiftLeft_add_eq_or_of_lt f.p5.isLt, Nat.shiftLeft_eq, Nat.pow_zero, Nat.div_one]
  rfl
theorem slotOffset_eq (r : Word) : (bits r 0 20).toNat = slotOffset r := by
  rw [bits_toNat, Nat.pow_zero, Nat.div_one]
  rfl

/-- The tile's slot k is taken, its lines pinned. -/
def State.takeSlot (s : State) (k o n : Nat) : State :=
  (s.pinLines s.cur .slot (lineRange (o / 128) (4 * n))).modTile s.cur fun x =>
    { x with slots := mset x.slots k (Slot.mk true x.pid n o 0 ((s.tile s.cur).slot k).gen) }

theorem pinned_takeSlot (s : State) (o n : Nat) : s.Pinned s.cur (s.pinLines s.cur .slot (lineRange (o / 128) (4 * n))) := pinLines_pinned ..

theorem takeSlot_now (s : State) (k o n : Nat) : (s.takeSlot k o n).now = s.now := (congrArg State.now (pinned_takeSlot s o n).rest :)

theorem takeSlot_ctx (s : State) (k o n : Nat) : (s.takeSlot k o n).ctx = s.ctx := by
  have kept := pinned_takeSlot s o n
  have cur : (s.takeSlot k o n).cur = s.cur := (congrArg State.cur kept.rest :)
  have cid : (s.takeSlot k o n).cid = s.cid := (congrArg State.cid kept.rest :)
  rw [State.ctx, cur, cid, State.ctxAt, State.takeSlot, modTile_tile_same]
  exact kept.ctxAt s.cur s.cid

theorem takeSlot_mem {s : State} (h : (s.tile s.cur).lines = []) (k o n : Nat) : (s.takeSlot k o n).mem = s.mem := pinLines_mem h ..

theorem takeSlot_slot (s : State) (k o n : Nat) : ((s.takeSlot k o n).tile s.cur).slot k =
    ⟨true, (s.tile s.cur).pid, n, o, 0, ((s.tile s.cur).slot k).gen⟩ := by
  rw [State.takeSlot, modTile_tile_same, ← (pinned_takeSlot s o n).pid]
  exact mget_mset_same ..

theorem takeSlot_pin (s : State) (k o n : Nat) {l : Nat} (h : l ∈ lineRange (o / 128) (4 * n)) :
    ((s.takeSlot k o n).tile s.cur).pin l = slotPin .slot (s.tile s.cur).pid := by
  rw [State.takeSlot, modTile_tile_same]
  exact (pinLines_pin ..).trans (if_pos h)

/-- The handle of slot k (R31). -/
def State.slotHandle (s : State) (k : Nat) : Word :=
  BitVec.ofNat 64 (3 * 2 ^ 52 + s.devNum (pkgOf s.cur) * 2 ^ 40 + numOf s.cur * 2 ^ 28 + k * 2 ^ 23 + ((s.tile s.cur).slot k).gen.toNat * 2 ^ 16)

section
variable {s : State} {f : CF} (h : s.canRun [f.d] f.d = true)
include h

/-- No slot is taken (R289). -/
theorem lsalloc_refused
    (hk : ∀ k, (s.tile s.cur).firstFree = some k → (s.tile s.cur).slotRefused (slotOffset (s.ctx.sreg f.d)) (slotChunks f) = true) :
    ∃ t, exec (.lsalloc f) s = .next t ∧ s.wrote t (s.issueCycle [f.d]) 1 f.d 0 := by
  obtain ⟨t, run, wrote⟩ := wsLat_run (issued_now s (s.issueCycle [f.d])) 1 (0 : Word) (canRun_nil (canRun_cons h).2)
  refine ⟨_, finish_ok (m := (do let r ← rs f.d; _)) ?_, wrote⟩
  simp only [bind_run, rs_now (canRun_cons h).1, get_run, slotOffset_eq, slotChunks_eq]
  generalize pick : List.find? _ _ = r
  cases r with
  | none => exact run
  | some k => exact (congrFun (if_pos (hk k pick)) _).trans run

/-- The first free slot is taken. -/
theorem lsalloc_takes {k : Nat} (hk : (s.tile s.cur).firstFree = some k)
    (ok : (s.tile s.cur).slotRefused (slotOffset (s.ctx.sreg f.d)) (slotChunks f) = false) :
    let n := s.issueCycle [f.d]
    ∃ t, exec (.lsalloc f) s = .next t ∧ t.fate = .done ∧
      (({ s with now := n } : State).takeSlot k (slotOffset (s.ctx.sreg f.d)) (slotChunks f)).wrote t n 1 f.d (s.slotHandle k) := by
  intro n
  obtain ⟨hd, pend⟩ := canRun_cons h
  let u := ({ s with now := n } : State).takeSlot k (slotOffset (s.ctx.sreg f.d)) (slotChunks f)
  have own : u.ctx = s.ctx := takeSlot_ctx { s with now := n } ..
  obtain ⟨t, run, wrote⟩ := wsLat_run (issued_refl u) 1 (s.slotHandle k) (own ▸ canRun_nil pend)
  have now : u.now = n := takeSlot_now ..
  rw [now] at wrote
  refine ⟨_, finish_ok (m := (do let r ← rs f.d; _)) ?_, rfl, wrote⟩
  simp only [bind_run, rs_now hd, get_run, slotOffset_eq, slotChunks_eq]
  generalize pick : List.find? _ _ = r
  cases pick.symm.trans hk
  exact (congrFun (if_neg (Bool.eq_false_iff.mp ok)) _).trans run

end

/-- LSALLOC (R289). -/
theorem lsalloc_spec {f : CF} {s : State} (h : s.canRun [f.d] f.d = true) :
    let x := s.tile s.cur
    let n := (f.b.toNat * 32 + f.p5.toNat) % 128 + 1
    let o := (s.ctx.sreg f.d).toNat % 2 ^ 20
    let lines := (List.range (4 * n)).map fun i => o / 128 + i
    ((∀ j < 32, (x.slot j).alloc = true) ∨ o % 512 ≠ 0 ∨ 0xA0000 < o + 512 * n ∨ x.canPin lines = false →
      ∃ t, exec (.lsalloc f) s = .next t ∧ s.wrote t (s.issueCycle [f.d]) 1 f.d 0) ∧
    ∀ k < 32, (x.slot k).alloc = false → (∀ j < k, (x.slot j).alloc = true) → o % 512 = 0 → o + 512 * n ≤ 0xA0000 →
      x.canPin lines = true →
      ∃ t, exec (.lsalloc f) s = .next t ∧ t.fate = .done ∧ (x.lines = [] → t.mem = s.mem) ∧ t.ctx.flags = s.ctx.flags ∧
        (∀ r, t.ctx.sreg r = if r = f.d ∧ r ≠ 0 then BitVec.ofNat 64 (3 * 2 ^ 52 + s.devNum (pkgOf s.cur) * 2 ^ 40 +
          numOf s.cur * 2 ^ 28 + k * 2 ^ 23 + (x.slot k).gen.toNat * 2 ^ 16) else s.ctx.sreg r) ∧
        (t.tile s.cur).slot k = ⟨true, x.pid, n, o, 0, (x.slot k).gen⟩ ∧
        ∀ l ∈ lines, (t.tile s.cur).pin l = { PinLine.zero with kind := .slot, pid := x.pid } := by
  intro x n o lines
  have refused_iff : x.slotRefused o n = true ↔ o % 512 ≠ 0 ∨ 0xA0000 < o + 512 * n ∨ x.canPin lines = false := by
    simp [Tile.slotRefused, lines, lineRange, or_assoc]
  refine ⟨fun why => lsalloc_refused h fun k hk => ?none, fun k hk free before aligned fits canPin => ?some⟩
  case none =>
    refine refused_iff.mpr (why.resolve_left fun all => ?_)
    cases (firstFree_none all).symm.trans hk
  case some =>
    have ok : x.slotRefused o n = false := Bool.eq_false_iff.mpr fun c => by
      have := refused_iff.mp c
      simp [aligned, canPin, Nat.not_lt.mpr fits] at this
    obtain ⟨t, run, done, others, own, -, -, regs⟩ := lsalloc_takes h (firstFree_some hk free before) ok
    let u := ({ s with now := s.issueCycle [f.d] } : State)
    have ctx : (u.takeSlot k o n).ctx = s.ctx := takeSlot_ctx u k o n
    have flags : t.ctx.flags = (u.takeSlot k o n).ctx.flags := (congrArg Ctx.flags own :)
    refine ⟨t, run, done, fun none => others.mem.trans (takeSlot_mem (s := u) none k o n), ?_, fun r => ?_, ?_, fun l hl => ?_⟩
    · exact flags.trans (congrArg Ctx.flags ctx)
    · rw [← ctx]; exact (regs r).1
    · exact (others.tileField (g := fun x => x.slot k) (fun _ _ _ => rfl) s.cur).trans (takeSlot_slot u k o n)
    · exact (others.tileField (g := fun x => x.pin l) (fun _ _ _ => rfl) s.cur).trans (takeSlot_pin u k o n hl)

end Sys2Proof.Machine
end

section
/-! LSFREE, and the chunk maps of landing slots (R101, R243, R290). -/
namespace Sys2Proof.Machine

/-! ## Flags raised in other contexts -/

/-- u is s with flags raised, wakes counted or gate tasks dropped: memory, slots and registers stay. -/
structure State.Quiet (s u : State) : Prop where
  mem : u.mem = s.mem
  cur : u.cur = s.cur
  cid : u.cid = s.cid
  slots : ∀ t, (u.tile t).slots = (s.tile t).slots
  sregs : ∀ t c, (u.ctxAt t c).sregs = (s.ctxAt t c).sregs

theorem quiet_refl (s : State) : s.Quiet s := ⟨rfl, rfl, rfl, fun _ => rfl, fun _ _ => rfl⟩

theorem State.Quiet.trans {s u v : State} (h : s.Quiet u) (g : u.Quiet v) : s.Quiet v :=
  ⟨g.mem.trans h.mem, g.cur.trans h.cur, g.cid.trans h.cid, fun t => (g.slots t).trans (h.slots t),
    fun t c => (g.sregs t c).trans (h.sregs t c)⟩

theorem quiet_foldl {f : State → α → State} (h : ∀ (s : State) a, s.Quiet (f s a)) (l : List α) (s : State) : s.Quiet (l.foldl f s) := by
  induction l generalizing s with
  | nil => exact quiet_refl s
  | cons a l ih => exact (h s a).trans (ih _)

theorem quiet_modCtxAt (s : State) (t c : Nat) {f : Ctx → Ctx} (hf : ∀ k, (f k).sregs = k.sregs) : s.Quiet (s.modCtxAt t c f) where
  mem := rfl
  cur := rfl
  cid := rfl
  slots u := by rw [modCtxAt_tile]
  sregs u d := by
    rw [State.modCtxAt, setCtxAt_ctxAt]
    split
    case isTrue h => obtain ⟨rfl, rfl⟩ := h; exact hf _
    case isFalse => rfl

theorem quiet_modTile (s : State) (t : Nat) {f : Tile → Tile} (hs : ∀ x, (f x).slots = x.slots) (hc : ∀ x, (f x).ctxs = x.ctxs) :
    s.Quiet (s.modTile t f) where
  mem := rfl
  cur := rfl
  cid := rfl
  slots u := by
    rw [modTile_tile]
    split
    case isTrue h => rw [h, hs]
    case isFalse => rfl
  sregs u c := by
    rw [State.ctxAt, modTile_tile]
    split
    case isTrue h => rw [h, Tile.ctx, hc]; rfl
    case isFalse => rfl

/-- An issuer's context changes where it runs, or in an image that is no running context. -/
theorem quiet_modIssuer (s : State) (a : Armer) {f : Ctx → Ctx} (hf : ∀ k, (f k).sregs = k.sregs) : s.Quiet (s.modIssuer a f) := by
  have change (k : Ctx) : (a.change f k).sregs = k.sregs := by
    rw [Armer.change]
    split
    · exact hf k
    · rfl
  unfold State.modIssuer
  split
  case h_1 t _ _ => exact quiet_modCtxAt s t a.cid change
  case h_2 =>
    have tile (t : Nat) := mget_map (d := Tile.reset) (k := t)
      (f := fun _ x => { x with save := x.save.map fun im => im.modCtx a.pid a.self a.cid (a.change f) }) rfl s.tiles
    exact ⟨rfl, rfl, rfl, fun t => (congrArg Tile.slots (tile t) :), fun t c => (congrArg (fun x => (Tile.ctx x c).sregs) (tile t) :)⟩

theorem quiet_raiseIn (s : State) (a : Armer) (f : BitVec 11) : s.Quiet (s.raiseIn a f) :=
  quiet_modIssuer s a fun k => (raise_fields k f a.unit).1

theorem quiet_wake (s : State) (t c : Nat) : s.Quiet (s.wake t c) := by
  unfold State.wake
  split
  · exact quiet_modCtxAt s t c fun _ => rfl
  · exact quiet_refl s

theorem quiet_dropTasks (s : State) (t n : Nat) : s.Quiet (s.dropTasks t n) :=
  (quiet_foldl (fun s _ => quiet_raiseIn s _ fEE) _ s).trans
    (quiet_modTile _ t (f := fun x => { x with gate := x.gate.filter fun k => !k.inputs.any fun i => hSlot i.1 = n }) (fun _ => rfl) fun _ => rfl)

/-- With no task at the gate no context changes. -/
theorem dropTasks_ctxAt {s : State} {t : Nat} (h : (s.tile t).gate = []) (n u c : Nat) : (s.dropTasks t n).ctxAt u c = s.ctxAt u c := by
  simp only [State.dropTasks, h, List.filter_nil, List.foldl_nil, State.ctxAt, modTile_tile]
  split
  case isTrue e => rw [e]; rfl
  case isFalse => rfl

/-! ## A slot that is freed -/

theorem unpinOf_foldl {g : Tile → α} (hg : ∀ x pid l, g (Tile.unpinOf x pid l) = g x) (pid : Nat) (ls : List Nat) (x : Tile) :
    g (ls.foldl (fun x l => x.unpinOf pid l) x) = g x := by
  induction ls generalizing x with
  | nil => rfl
  | cons l ls ih => exact (ih _).trans (hg x pid l)

/-- The slot's lines are unpinned. -/
def Tile.unpinSlot (x : Tile) (k : Slot) : Tile := (lineRange (k.off / 128) (k.size * 4)).foldl (fun x l => x.unpinOf k.pid l) x

/-- The slot's lines are unpinned, and the slot is free in its next generation. -/
def Tile.unslot (x : Tile) (n : Nat) : Tile :=
  let y := x.unpinSlot (x.slot n)
  { y with slots := mset y.slots n (Slot.mk false 0 0 0 0 ((x.slot n).gen + 1)) }

theorem unslot_slot (x : Tile) (n : Nat) : (x.unslot n).slot n = ⟨false, 0, 0, 0, 0, (x.slot n).gen + 1⟩ := mget_mset_same ..
theorem unslot_ctxs (x : Tile) (n : Nat) : (x.unslot n).ctxs = x.ctxs := unpinOf_foldl (g := Tile.ctxs) (fun _ _ _ => rfl) ..
theorem unslot_gate (x : Tile) (n : Nat) : (x.unslot n).gate = x.gate := unpinOf_foldl (g := Tile.gate) (fun _ _ _ => rfl) ..

theorem modTile_ctxAt {s : State} {f : Tile → Tile} (t : Nat) (h : ∀ x, (f x).ctxs = x.ctxs) (u c : Nat) :
    (s.modTile t f).ctxAt u c = s.ctxAt u c := by
  rw [State.ctxAt, modTile_tile]
  split
  case isTrue e => rw [e, Tile.ctx, h]; rfl
  case isFalse => rfl

theorem freeSlot_eq (s : State) (t n : Nat) : s.freeSlot t n = (s.modTile t fun x => x.unslot n).dropTasks t n := by
  rw [State.freeSlot, modTile_modTile]
  rfl

section
variable (s : State) (t n : Nat)

theorem freeSlot_quiet : (s.modTile t fun x => x.unslot n).Quiet (s.freeSlot t n) := by
  rw [freeSlot_eq]
  exact quiet_dropTasks ..

theorem freeSlot_mem : (s.freeSlot t n).mem = s.mem := (freeSlot_quiet s t n).mem

theorem freeSlot_slot : ((s.freeSlot t n).tile t).slot n = ⟨false, 0, 0, 0, 0, ((s.tile t).slot n).gen + 1⟩ := by
  rw [Tile.slot, (freeSlot_quiet s t n).slots, modTile_tile_same]
  exact unslot_slot ..

theorem freeSlot_sregs (u c : Nat) : ((s.freeSlot t n).ctxAt u c).sregs = (s.ctxAt u c).sregs := by
  rw [(freeSlot_quiet s t n).sregs, modTile_ctxAt t (unslot_ctxs · n)]

theorem freeSlot_ctxAt {s : State} {t : Nat} (h : (s.tile t).gate = []) (n u c : Nat) : (s.freeSlot t n).ctxAt u c = s.ctxAt u c := by
  rw [freeSlot_eq, dropTasks_ctxAt, modTile_ctxAt t (unslot_ctxs · n)]
  rw [modTile_tile_same, unslot_gate, h]

end

theorem wake_flags (s : State) (t c u d : Nat) : ((s.wake t c).ctxAt u d).flags = (s.ctxAt u d).flags := by
  obtain ⟨n, h⟩ := wake_ctxAt s t c u d
  rw [h]

/-- LSFREE of slot n: the control context learns of it (R290, R314). -/
def State.releaseSlot (s : State) (n : Nat) : State := (s.freeSlot s.cur n).wake (s.freeSlot s.cur n).cur 0

section
variable (s : State) (n : Nat)

theorem releaseSlot_cur : (s.releaseSlot n).cur = s.cur := (quiet_wake ..).cur.trans (freeSlot_quiet s s.cur n).cur
theorem releaseSlot_cid : (s.releaseSlot n).cid = s.cid := (quiet_wake ..).cid.trans (freeSlot_quiet s s.cur n).cid
theorem releaseSlot_mem : (s.releaseSlot n).mem = s.mem := (quiet_wake ..).mem.trans (freeSlot_mem s s.cur n)

theorem releaseSlot_slot : ((s.releaseSlot n).tile s.cur).slot n = ⟨false, 0, 0, 0, 0, ((s.tile s.cur).slot n).gen + 1⟩ := by
  rw [State.releaseSlot, Tile.slot, (quiet_wake ..).slots]
  exact freeSlot_slot s s.cur n

theorem releaseSlot_sregs : (s.releaseSlot n).ctx.sregs = s.ctx.sregs := by
  rw [State.ctx, releaseSlot_cur, releaseSlot_cid, State.releaseSlot, (quiet_wake ..).sregs, freeSlot_sregs]
  rfl

theorem releaseSlot_flags {s : State} (h : (s.tile s.cur).gate = []) (n : Nat) : (s.releaseSlot n).ctx.flags = s.ctx.flags := by
  rw [State.ctx, releaseSlot_cur, releaseSlot_cid, State.releaseSlot, wake_flags, freeSlot_ctxAt h]
  rfl

end

/-! ## LSFREE -/

section
variable {s : State} {f : CF} (ha : s.ctx.readable f.a = true)
include ha

/-- A handle that names no slot traps (R290). -/
theorem lsfree_bad (h : s.handleOk (s.ctx.sreg f.a) = false) : s.traps (.lsfree f) cBADHANDLE (s.ctx.sreg f.a) := by
  have bad (n : Nat) : (s.issueAt n).handleOk (s.ctx.sreg f.a) = false := h
  refine finish_trap (m := (do let p ← rs f.a; _)) ?_
  simp only [bind_run, rs_now ha, get_run, bad, need_false]

/-- The slot of a live handle is freed, once no matrix command names its lines. -/
theorem lsfree_frees (h : s.handleOk (s.ctx.sreg f.a) = true)
    (names : let k := (s.tile s.cur).slot (hSlot (s.ctx.sreg f.a)); (s.tile s.cur).engine.names k.off (512 * k.size) = false) :
    exec (.lsfree f) s =
      .next { ({ s with now := s.issueCycle [f.a] } : State).releaseSlot (hSlot (s.ctx.sreg f.a)) with fate := .done } := by
  have ok (n : Nat) : (s.issueAt n).handleOk (s.ctx.sreg f.a) = true := h
  refine finish_ok (m := (do let p ← rs f.a; _)) ?_
  simp only [bind_run, rs_now ha, get_run, ok, need_true]
  exact congrFun (if_neg (Bool.eq_false_iff.mp names)) _

end

/-! ## Chunk maps -/

section
variable {s : State} {f : CF} (h : s.canRun [f.a, f.b] f.d = true)

/-- The chunks that a chunk instruction names (R243). -/
def chunkMask (f : CF) (b : Word) : BitVec 128 := BitVec.ofNat 128 (b.toNat * 2 ^ (64 * (f.p5.toNat % 2)))

theorem chunkMask_eq (f : CF) (b : Word) : b.setWidth 128 <<< (64 * (bits f.p5 0 1).toNat) = chunkMask f b := by
  have fits : b.toNat % 2 ^ 128 = b.toNat := Nat.mod_eq_of_lt (by omega)
  apply BitVec.eq_of_toNat_eq
  rw [BitVec.toNat_shiftLeft, BitVec.toNat_setWidth, fits, Nat.shiftLeft_eq, bits_toNat, Nat.pow_zero, Nat.div_one, chunkMask, BitVec.toNat_ofNat]
  rfl

/-- The handle names a slot of the tile, and the mask chunks of it. -/
def State.chunkOk (s : State) (p : Word) (mask : BitVec 128) : Bool := s.handleOk p && ((s.tile s.cur).slot (hSlot p)).covers mask

include h

theorem chunkArgs_run : chunkArgs f s =
    if s.chunkOk (s.ctx.sreg f.a) (chunkMask f (s.ctx.sreg f.b)) then
      .ok ((s.ctx.sreg f.a, chunkMask f (s.ctx.sreg f.b)), { s with now := s.issueCycle [f.a, f.b] })
    else .error (.trap cBADHANDLE (s.ctx.sreg f.a)) := by
  obtain ⟨ha, h⟩ := canRun_cons h
  obtain ⟨hb, h⟩ := canRun_cons h
  rw [chunkArgs, rs_pair ha hb]
  simp only [bind_run, get_run, chunkMask_eq]
  generalize ok : (State.handleOk _ _ && _) = r
  have named : s.chunkOk (s.ctx.sreg f.a) (chunkMask f (s.ctx.sreg f.b)) = r := ok
  rw [named]
  cases r <;> rfl

theorem chunkArgs_good (ok : s.chunkOk (s.ctx.sreg f.a) (chunkMask f (s.ctx.sreg f.b)) = true) : chunkArgs f s =
    .ok ((s.ctx.sreg f.a, chunkMask f (s.ctx.sreg f.b)), { s with now := s.issueCycle [f.a, f.b] }) := by
  rw [chunkArgs_run h, if_pos ok]

/-- A stale handle, or a chunk past the slot, traps. -/
theorem chunk_bad (bad : s.chunkOk (s.ctx.sreg f.a) (chunkMask f (s.ctx.sreg f.b)) = false) :
    s.traps (.chtest f) cBADHANDLE (s.ctx.sreg f.a) ∧ s.traps (.chwait f) cBADHANDLE (s.ctx.sreg f.a) ∧
      s.traps (.chclr f) cBADHANDLE (s.ctx.sreg f.a) := by
  have args := chunkArgs_run h
  simp only [bad, Bool.false_eq_true, if_false] at args
  refine ⟨finish_trap (m := (do let (p, mask) ← chunkArgs f; _)) ?_, finish_trap (m := (do let (p, mask) ← chunkArgs f; _)) ?_,
    finish_trap (m := (do let (p, mask) ← chunkArgs f; _)) ?_⟩ <;> rw [bind_run, args]

section
variable (ok : s.chunkOk (s.ctx.sreg f.a) (chunkMask f (s.ctx.sreg f.b)) = true)
include ok

theorem chtest_run : ∃ t, exec (.chtest f) s = .next t ∧
    s.wrote t (s.issueCycle [f.a, f.b]) 1 f.d (ofBool (s.landed s.cur (s.ctx.sreg f.a) (chunkMask f (s.ctx.sreg f.b)))) := by
  obtain ⟨t, run, wrote⟩ := wsLat_run (issued_now s (s.issueCycle [f.a, f.b])) 1
    (ofBool (s.landed s.cur (s.ctx.sreg f.a) (chunkMask f (s.ctx.sreg f.b)))) (canRun_nil (canRun_cons (canRun_cons h).2).2)
  refine ⟨_, finish_ok (m := (do let (p, mask) ← chunkArgs f; _)) ?_, wrote⟩
  simp only [bind_run, chunkArgs_good h ok, get_run]
  exact run

theorem chwait_run (all : s.landed s.cur (s.ctx.sreg f.a) (chunkMask f (s.ctx.sreg f.b)) = true) :
    exec (.chwait f) s = .next { s with now := s.issueCycle [f.a, f.b], fate := .done } := by
  have there : ¬(!s.landed s.cur (s.ctx.sreg f.a) (chunkMask f (s.ctx.sreg f.b))) = true := by simp [all]
  refine finish_ok (t := { s with now := s.issueCycle [f.a, f.b] }) (m := (do let (p, mask) ← chunkArgs f; _)) ?_
  simp only [bind_run, chunkArgs_good h ok, get_run]
  exact congrFun (if_neg there) _

theorem chwait_blocks (none : s.landed s.cur (s.ctx.sreg f.a) (chunkMask f (s.ctx.sreg f.b)) = false) :
    (s.cid = 0 → s.waits (.chwait f)) ∧ (s.cid ≠ 0 → s.traps (.chwait f) cHELPERWAIT (s.ctx.sreg f.a)) := by
  have missing : (!s.landed s.cur (s.ctx.sreg f.a) (chunkMask f (s.ctx.sreg f.b))) = true := by rw [none, Bool.not_false]
  refine ⟨fun hc => finish_wait (m := (do let (p, mask) ← chunkArgs f; _)) ?_,
    fun hc => finish_trap (m := (do let (p, mask) ← chunkArgs f; _)) ?_⟩
  all_goals simp only [bind_run, chunkArgs_good h ok, get_run]
  · exact (congrFun (if_pos missing) _).trans (block_control _ hc)
  · exact (congrFun (if_pos missing) _).trans (block_helper _ hc)

/-- The slot of a handle without the chunks of a mask. -/
def Tile.clearChunks (x : Tile) (j : Nat) (mask : BitVec 128) : Tile :=
  { x with slots := mset x.slots j { x.slot j with chunks := (x.slot j).chunks &&& ~~~mask } }

theorem chclr_run : exec (.chclr f) s = .next
    { s.modTile s.cur (fun x => x.clearChunks (hSlot (s.ctx.sreg f.a)) (chunkMask f (s.ctx.sreg f.b))) with
      now := s.issueCycle [f.a, f.b], fate := .done } := by
  refine finish_ok (t := { s.modTile s.cur (fun x => x.clearChunks (hSlot (s.ctx.sreg f.a)) (chunkMask f (s.ctx.sreg f.b))) with
    now := s.issueCycle [f.a, f.b] }) (m := (do let (p, mask) ← chunkArgs f; _)) ?_
  simp only [bind_run, chunkArgs_good h ok, modT_run]
  rfl

end

end

theorem ofBool_decide (p : Prop) [Decidable p] : ofBool (decide p) = if p then 1 else 0 := by
  by_cases h : p <;> simp [ofBool, h]

/-- A landing handle's slot number, as the statements have it. -/
theorem hSlot_eq (p : Word) : hSlot p = p.toNat / 2 ^ 23 % 32 := bits_toNat p 23 5

theorem chunkOk_iff (s : State) (p : Word) (mask : BitVec 128) :
    s.chunkOk p mask = true ↔ s.handleOk p = true ∧ mask.toNat < 2 ^ ((s.tile s.cur).slot (hSlot p)).size := by
  rw [State.chunkOk, Slot.covers, Bool.and_eq_true, decide_eq_true_iff]

/-- Settles O23: LSALLOC looks for the first free slot, LSFREE frees a slot, and the chunk instructions read and clear its map. -/
theorem landingSlots : Obligations.LandingSlots := by
  unfold Obligations.LandingSlots
  refine ⟨⟨fun f s h => lsalloc_spec h, fun f s ha => ?free⟩, fun f s h => ?chunks⟩
  case free =>
    intro p x
    let v : State := { s with now := s.issueCycle [f.a] }
    refine ⟨lsfree_bad ha, fun ok names => ⟨_, lsfree_frees ha ok names, rfl, releaseSlot_mem v (hSlot p), ?_, fun gate => ?_, ?_⟩⟩
    · rw [with_fate_ctx]; exact releaseSlot_sregs v (hSlot p)
    · rw [with_fate_ctx]; exact releaseSlot_flags (s := v) gate (hSlot p)
    · rw [with_fate_tile]; exact releaseSlot_slot v (hSlot p)
  case chunks =>
    intro p mask x k n good
    have slot : k = x.slot (hSlot p) := by rw [hSlot_eq]; rfl
    have good_iff : s.chunkOk p mask = true ↔ good := by rw [chunkOk_iff, ← slot]
    have landed : s.landed s.cur p mask = decide (k.chunks &&& mask = mask) := by rw [slot]; rfl
    refine ⟨fun ok => ?test, fun ok all => ?found, fun ok some => ?blocks, fun ok => ?clear, fun bad => ?stale⟩
    case test =>
      rw [← ofBool_decide, ← landed]
      exact chtest_run h (good_iff.mpr ok)
    case found => exact ⟨_, chwait_run h (good_iff.mpr ok) (landed.trans (decide_eq_true all)), issued_done s n⟩
    case blocks => exact chwait_blocks h (good_iff.mpr ok) (landed.trans (decide_eq_false some))
    case clear =>
      refine ⟨_, chclr_run h (good_iff.mpr ok), ?_⟩
      rw [slot, ← hSlot_eq]
      exact issued_done _ n
    case stale => exact chunk_bad h (Bool.eq_false_iff.mpr fun c => bad (good_iff.mp c))

end Sys2Proof.Machine
end

section
/-! A hit in the TLB of the part's slice, once and again (R36, R38). -/
namespace Sys2Proof.Machine

theorem usedTlb_cluster (s : State) (e : TlbEntry) (q n : Nat) : ((s.usedTlb e).dev q).cluster n =
    if q = pkgOf s.cur ∧ n = clusterOf s.cur then ((s.dev q).cluster n).useTlb e else (s.dev q).cluster n := by
  rw [State.usedTlb, State.modCluster, modDev_dev]
  by_cases hq : q = pkgOf s.cur
  · rw [if_pos hq, Device.cluster, mget_mset, hq]
    by_cases hn : n = clusterOf s.cur
    · rw [if_pos hn, if_pos ⟨rfl, hn⟩, hn]
    · rw [if_neg hn, if_neg fun c => hn c.2]
      rfl
  · rw [if_neg hq, if_neg fun c => hq c.1]

/-- A hit leaves the slice's trackers. -/
theorem usedTlb_tracker (s : State) (e : TlbEntry) (q n i : Nat) :
    (((s.usedTlb e).dev q).cluster n).tracker i = ((s.dev q).cluster n).tracker i := by
  rw [usedTlb_cluster]
  split <;> rfl

/-- The entry of the part's slice that maps an address. -/
def State.tlbHit (s : State) (va : Nat) : Option TlbEntry :=
  ((s.dev (pkgOf s.cur)).cluster (clusterOf s.cur)).tlb.find? fun e => e.hits s.ctx.asid va

/-- The entry that has just been used comes first. -/
theorem usedTlb_hit {s : State} {e : TlbEntry} {va : Nat} (h : e.hits s.ctx.asid va = true) : (s.usedTlb e).tlbHit va = some e := by
  have own : (s.usedTlb e).ctx = s.ctx := rfl
  rw [State.tlbHit, own]
  have first : ((s.usedTlb e).dev (pkgOf s.cur)).cluster (clusterOf s.cur) = ((s.dev (pkgOf s.cur)).cluster (clusterOf s.cur)).useTlb e := by
    rw [usedTlb_cluster, if_pos ⟨rfl, rfl⟩]
  exact (congrArg (fun c => c.tlb.find? fun e => e.hits s.ctx.asid va) first).trans
    (List.find?_cons_of_pos (p := fun e => TlbEntry.hits e s.ctx.asid va) h)

theorem translate_hit {s : State} {e : TlbEntry} {va : Nat} (h : s.tlbHit va = some e) (val : Word) :
    s.translate s.asker va val = (.leaf e.attr e.large, s.usedTlb e) := by
  have found : (((s.dev (pkgOf s.asker.tile)).cluster (clusterOf s.asker.tile)).tlb.find? fun e => e.hits s.asker.asid va) = some e := h
  rw [State.translate]
  simp only [found]
  rfl

/-- An address is translated by the entry that maps it, whether its home answers or not. -/
theorem locateM_hit {s : State} {e : TlbEntry} {va a : Nat} {acc : Acc} (h : s.tlbHit va = some e) (hp : permits e.attr acc s.ctx.priv = true)
    (ha : s.globalAddr (pkgOf s.cur) (leafPa e.attr e.large va) = some a) (val : Word) :
    locateM val va acc s = .ok ((a, e.attr), s.usedTlb e) := by
  have place : (s.usedTlb e).globalAddr (pkgOf s.asker.tile) (leafPa e.attr e.large va) = some a := (usedTlb_globalAddr ..).trans ha
  have permitted : permits e.attr acc s.asker.priv = true := hp
  simp only [locateM, State.locate, translate_hit h val, permitted, place, Bool.not_true, Bool.false_eq_true, if_false]

end Sys2Proof.Machine
end

section
/-! TRKSET, TRKCLR and the counting of reported bytes (R113, R294, R295). -/
namespace Sys2Proof.Machine

/-! ## Trackers of a cluster -/

theorem modTracker_tracker (s : State) (p cl n : Nat) (f : Tracker → Tracker) :
    (((s.modTracker p cl n f).dev p).cluster cl).tracker n = f (((s.dev p).cluster cl).tracker n) := by
  rw [State.modTracker, State.modCluster, modDev_dev, if_pos rfl, Device.cluster, mget_mset_same]
  exact mget_mset_same ..

theorem trackerNum_eq (f : CF) : trackerNum f = (f.b.toNat % 2) * 32 + f.p5.toNat := by
  have := f.p5.isLt
  rw [trackerNum, bits_toNat, BitVec.toNat_append, ← Nat.shiftLeft_add_eq_or_of_lt f.p5.isLt, Nat.shiftLeft_eq]
  omega

/-! ## Counting -/

/-- The bytes of a range that a report covers, counted one by one. -/
theorem bytesIn_eq (gl : Nat) (mask : ByteMask) (base len : Nat) : bytesIn gl mask base len =
    (List.range 128).countP fun i => mask.getLsbD i && decide (base ≤ gl * 128 + i) && decide (gl * 128 + i < base + len) := by
  have count (P : Nat → Bool) (l : List Nat) (n : Nat) : l.foldl (fun acc i => if P i then acc + 1 else acc) n = n + l.countP P := by
    induction l generalizing n with
    | nil => rfl
    | cons i l ih =>
      rw [List.foldl_cons, ih, List.countP_cons]
      split <;> omega
  rw [bytesIn, count, Nat.zero_add]

section
variable {s : State} {p cl n : Nat} (gl : Nat) (mask : ByteMask)

theorem countBytes_free (h : (((s.dev p).cluster cl).tracker n).st = .free) : s.countBytes p cl n gl mask = s := if_pos h

theorem countBytes_counting (h : (((s.dev p).cluster cl).tracker n).st = .counting) :
    let k := ((s.dev p).cluster cl).tracker n
    s.countBytes p cl n gl mask = s.modTracker p cl n fun x => { x with count := x.count + bytesIn gl mask k.base k.len } := by
  simp [State.countBytes, h]

end

/-! ## TRKCLR -/

section
variable {s : State} {f : CF} (hd : s.canRun [] f.d = true)
include hd

theorem trkclr_free (h : (((s.dev (pkgOf s.cur)).cluster (clusterOf s.cur)).tracker (trackerNum f)).st = .free) :
    ∃ t, exec (.trkclr f) s = .next t ∧ s.wrote t s.now 1 f.d 1 := by
  obtain ⟨t, run, wrote⟩ := wsLat_run (issued_refl s) 1 (1 : Word) (canRun_nil hd)
  refine ⟨_, finish_ok (m := (do let s ← get; _)) ?_, wrote⟩
  simp only [bind_run, get_run]
  exact (congrFun (if_pos h) _).trans run

end

/-- No held start of tracker n of a cluster is left on a tile (R113). -/
def Tile.cancelStarts (x : Tile) (cl n : Nat) : Tile :=
  let keep := fun (h : HeldStart) => !(h.cluster = cl && h.tracker = n)
  { x with held := x.held.filter keep, parked := x.parked.map fun q => { q with held := q.held.filter keep } }

/-- The state that TRKCLR leaves. -/
def State.clearTracker (s : State) (n : Nat) : State :=
  let t := s.modTracker (pkgOf s.cur) (clusterOf s.cur) n fun _ => Tracker.reset
  { t with tiles := t.tiles.map fun e => if pkgOf e.1 ≠ pkgOf s.cur then e else (e.1, e.2.cancelStarts (clusterOf s.cur) n) }

theorem clearTracker_tile (s : State) (n u : Nat) : (s.clearTracker n).tile u =
    if pkgOf u = pkgOf s.cur then (s.tile u).cancelStarts (clusterOf s.cur) n else s.tile u := by
  have same : (s.clearTracker n).tiles = s.tiles.map fun e =>
      (e.1, if pkgOf e.1 = pkgOf s.cur then e.2.cancelStarts (clusterOf s.cur) n else e.2) := by
    refine List.map_congr_left fun e _ => ?_
    by_cases h : pkgOf e.1 = pkgOf s.cur <;> simp [h]
  rw [State.tile, same]
  refine mget_map (f := fun k x => if pkgOf k = pkgOf s.cur then Tile.cancelStarts x (clusterOf s.cur) n else x) ?_ s.tiles
  split <;> rfl

theorem clearTracker_ctx (s : State) (n : Nat) : (s.clearTracker n).ctx = s.ctx := by
  have cur : (s.clearTracker n).cur = s.cur := rfl
  rw [State.ctx, State.ctxAt, cur, clearTracker_tile, if_pos rfl]
  rfl

theorem clearTracker_tracker (s : State) (n : Nat) :
    ((((s.clearTracker n).dev (pkgOf s.cur)).cluster (clusterOf s.cur)).tracker n).st = .free :=
  congrArg Tracker.st (modTracker_tracker s (pkgOf s.cur) (clusterOf s.cur) n fun _ => Tracker.reset)

theorem direct_run {s : State} (h : s.cid = 0) : direct s = .ok ((), s) := by
  simp [direct, bind_run, get_run, State.buffers, h, pure_run]

theorem trkclr_clears {s : State} {f : CF} (hd : s.canRun [] f.d = true) (hc : s.cid = 0)
    (h : (((s.dev (pkgOf s.cur)).cluster (clusterOf s.cur)).tracker (trackerNum f)).st ≠ .free) :
    ∃ t, exec (.trkclr f) s = .next t ∧ t.fate = .done ∧ (s.clearTracker (trackerNum f)).wrote t s.now 1 f.d 0 := by
  have own := clearTracker_ctx s (trackerNum f)
  obtain ⟨t, run, wrote⟩ := wsLat_run (issued_refl (s.clearTracker (trackerNum f))) 1 (0 : Word) (own ▸ canRun_nil hd)
  refine ⟨_, finish_ok (m := (do let s ← get; _)) ?_, rfl, wrote⟩
  simp only [bind_run, get_run]
  refine (congrFun (if_neg h) _).trans ?_
  simp only [bind_run, direct_run hc, upd_run]
  exact run

/-! ## TRKSET: the descriptor -/

/-- The descriptor at p is read from the array, in a page that the TLB maps (R294). -/
structure State.ReadsDesc (s : State) (p : Word) (l : Line) (e : TlbEntry) (da : Nat) : Prop where
  space : spaceOf p = 0
  aligned : addrOf p % 64 = 0
  clear : s.clear = true
  effects : s.ctx.effects = []
  line : (s.tile s.cur).line (addrOf p / 128) s.ctx.asid = some l
  valid : spanWords (addrOf p % 128) 64 &&& ~~~l.valid = 0
  readable : l.perm.getLsbD 0 = true
  hit : s.tlbHit (addrOf p) = some e
  permits : permits e.attr .load s.ctx.priv = true
  place : s.globalAddr (pkgOf s.cur) (leafPa e.attr e.large (addrOf p)) = some da

/-- The 64 bytes at p, in line l. -/
def descAt (l : Line) (p : Word) : Nat := l.data.toNat / 2 ^ (8 * (addrOf p % 128)) % 2 ^ 512

theorem used_samePart (s : State) (l : Line) : s.SamePart (s.used l) :=
  samePart_modTile s s.cur (f := fun x => { x with lines := l :: x.lines.filter fun m => m.gl ≠ l.gl }) fun _ => rfl

theorem loadNow_of_loadGlobal {s t : State} {val : Word} {va n v : Nat} (h : loadGlobal val va n s = .ok ((v, []), t)) :
    loadNow val va n s = .ok (v, t) := by
  simp only [loadNow, bind_run, h, List.isEmpty_nil, if_true, pure_run]

section
variable {s : State} {p : Word} {l : Line} {e : TlbEntry} {da : Nat} (h : s.ReadsDesc p l e da)
include h

theorem State.ReadsDesc.issueAt (n : Nat) : (s.issueAt n).ReadsDesc p l e da :=
  ⟨h.space, h.aligned, h.clear, h.effects, h.line, h.valid, h.readable, h.hit, h.permits, h.place⟩

theorem afterStores_desc : afterStores p 64 s = .ok ((), s) :=
  have ⟨hv, hq, _⟩ := (clear_iff s).1 h.clear
  afterStores_run hv hq p 64

theorem loadNow_desc : loadNow p (addrOf p) 64 s = .ok (descAt l p, s.used l) := by
  obtain ⟨-, -, ha⟩ := (clear_iff s).1 h.clear
  have within : addrOf p % 128 + 64 ≤ 128 := by have := h.aligned; omega
  have run := loadGlobal_line p (by decide) within ((answered_iff s).1 ha).2 (loadLine_hit p ha h.effects h.line h.valid h.readable)
  rw [show 8 * 64 = 512 from rfl] at run
  exact loadNow_of_loadGlobal run

theorem locateM_desc : locateM p (addrOf p) .load (s.used l) = .ok ((da, e.attr), (s.used l).usedTlb e) := by
  have own := (used_samePart s l).ctx
  refine locateM_hit (s := s.used l) ?_ ?_ h.place p
  · rw [State.tlbHit, own]; exact h.hit
  · rw [own]; exact h.permits

end

/-- The state with the descriptor read. -/
def State.gotDesc (s : State) (n : Nat) (l : Line) (e : TlbEntry) : State := ((s.issueAt n).used l).usedTlb e

theorem gotDesc_samePart (s : State) (n : Nat) (l : Line) (e : TlbEntry) : s.SamePart (s.gotDesc n l e) :=
  have issued : s.SamePart (s.issueAt n) := ⟨rfl, rfl, rfl, rfl, rfl⟩
  (issued.trans (used_samePart _ l)).trans (usedTlb_touched _ e).samePart

theorem gotDesc_hit {s : State} {e : TlbEntry} {va : Nat} (h : e.hits s.ctx.asid va = true) (n : Nat) (l : Line) :
    (s.gotDesc n l e).tlbHit va = some e := by
  refine usedTlb_hit (s := (s.issueAt n).used l) ?_
  rw [(used_samePart _ l).ctx]
  exact h

/-- The state with the range's page found too. -/
def State.gotRange (s : State) (n : Nat) (l : Line) (e : TlbEntry) : State := (s.gotDesc n l e).usedTlb e

theorem gotRange_samePart (s : State) (n : Nat) (l : Line) (e : TlbEntry) : s.SamePart (s.gotRange n l e) :=
  (gotDesc_samePart s n l e).trans (usedTlb_touched _ e).samePart

theorem gotRange_rangeAt (s : State) (n : Nat) (l : Line) (e : TlbEntry) (t pa page len : Nat) :
    (s.gotRange n l e).rangeAt t pa page len = s.rangeAt t pa page len := by
  simp only [State.rangeAt, State.gotRange, State.gotDesc, usedTlb_globalAddr]
  rfl

theorem gotDesc_tracker (s : State) (n : Nat) (l : Line) (e : TlbEntry) (q cl i : Nat) :
    (((s.gotDesc n l e).dev q).cluster cl).tracker i = ((s.dev q).cluster cl).tracker i := by
  rw [State.gotDesc, usedTlb_tracker]
  rfl

/-- The page of the range, in the TLB of the part's slice (R294). -/
theorem trackerBase_run {s : State} {e : TlbEntry} {base : Word} (h : s.tlbHit (addrOf base) = some e)
    (hp : permits e.attr .load s.ctx.priv = true) :
    trackerBase base s = .ok ((leafPa e.attr e.large (addrOf base), if e.large then 2 ^ 29 else 2 ^ 16), s.usedTlb e) := by
  have permitted : permits e.attr .load (s.usedTlb e).ctx.priv = true := hp
  simp only [trackerBase, translate_hit h base, permitted, if_true]

/-- A FREE tracker takes a descriptor with ACT NONE (R113). -/
theorem set_free {k : Tracker} (h : k.st = .free) (new : Tracker) (ha : new.act = 0) :
    k.set new = some { new with st := .counting, count := 0 } := by
  simp only [Tracker.set, h, ha, if_true]

/-! ## TRKSET: the tracker -/

/-- The tracker that a descriptor describes, over a range. -/
def descTracker (v range bar da : Nat) (a : Armer) : Tracker :=
  ⟨.free, range, (bits (dword v 1) 0 40).toNat, (bits (dword v 2) 0 40).toNat, 0, (bits (dword v 3) 60 4).toNat, (bits (dword v 3) 32 12).toNat,
    (bits (dword v 3) 0 12).toNat, dword v 4, dword v 5, bar, BitVec.ofNat 64 da, a⟩

/-- TRKSET of a valid descriptor, once it is read (R294). -/
def installTracker (f : CF) (v da : Nat) : M Unit := do
  let (pa, page) ← trackerBase (dword v 0)
  let bar ← if (bits (dword v 3) 60 4).toNat = 2 then trackerBar (dword v 4) else pure 0
  let s ← get
  match s.rangeAt s.cur pa page (bits (dword v 1) 0 40).toNat with
  | none => ws f.d 2
  | some range =>
    let a ← armer
    match ((s.dev (pkgOf s.cur)).cluster (clusterOf s.cur)).tracker (trackerNum f) |>.set (descTracker v range bar da a) with
    | none => ws f.d 1
    | some k =>
      direct
      upd fun t =>
        let t := t.modTracker (pkgOf s.cur) (clusterOf s.cur) (trackerNum f) fun _ => k
        if k.st = .armed && k.thresh ≤ k.count then t.fireTracker (pkgOf s.cur) (clusterOf s.cur) (trackerNum f) else t
      ws f.d 0

/-- TRKSET reads its descriptor, checks it, and installs the tracker. -/
theorem trkset_run {s : State} {f : CF} {l : Line} {e : TlbEntry} {da : Nat} (ha : s.ctx.readable f.a = true)
    (h : s.ReadsDesc (s.ctx.sreg f.a) l e da) : exec (.trkset f) s = .next (settleStop s
      ((if !trackerDescOk (descAt l (s.ctx.sreg f.a)) then ws f.d 3 else installTracker f (descAt l (s.ctx.sreg f.a)) da)
        (s.gotDesc (s.ctx.sready.getD f.a.toNat 0) l e))) := by
  have at' := h.issueAt (s.ctx.sready.getD f.a.toNat 0)
  refine congrArg (fun r => Host.Outcome.next (settleStop s r)) (?_ : (do
    let p ← rs f.a
    need (spaceOf p = 0) cSPACE p
    need (decide (addrOf p % 64 = 0)) cALIGN p
    afterStores p 64
    let v ← loadNow p (addrOf p) 64
    let (da, _) ← locateM p (addrOf p) .load
    if !trackerDescOk v then ws f.d 3 else installTracker f v da : M Unit) s = _)
  simp only [bind_run, rs_now ha, h.space, h.aligned, decide_true, need_true, afterStores_desc at', loadNow_desc at', locateM_desc at']
  rfl

/-- A descriptor with ACT NONE sets up a FREE tracker (R113). -/
theorem installTracker_counts {u : State} {f : CF} {e : TlbEntry} {v range : Nat} (da : Nat) (hd : u.ctx.pendingReg f.d = false) (hc : u.cid = 0)
    (none : (dword v 3).toNat / 2 ^ 60 = 0) (hit : u.tlbHit (addrOf (dword v 0)) = some e) (hp : permits e.attr .load u.ctx.priv = true)
    (hr : (u.usedTlb e).rangeAt u.cur (leafPa e.attr e.large (addrOf (dword v 0))) (if e.large then 2 ^ 29 else 2 ^ 16)
      (bits (dword v 1) 0 40).toNat = some range)
    (free : (((u.dev (pkgOf u.cur)).cluster (clusterOf u.cur)).tracker (trackerNum f)).st = .free) :
    ∃ t a, installTracker f v da u = .ok ((), t) ∧
      ((u.usedTlb e).modTracker (pkgOf u.cur) (clusterOf u.cur) (trackerNum f) fun _ =>
        { descTracker v range 0 da a with st := .counting, count := 0 }).wrote { t with fate := .done } u.now 1 f.d 0 := by
  have act : (bits (dword v 3) 60 4).toNat = 0 := by rw [bits_toNat, none, Nat.zero_mod]
  obtain ⟨a, ha⟩ : ∃ a, armer (u.usedTlb e) = .ok (a, u.usedTlb e) := ⟨_, rfl⟩
  have ranged : (u.usedTlb e).rangeAt (u.usedTlb e).cur (leafPa e.attr e.large (addrOf (dword v 0))) (if e.large then 2 ^ 29 else 2 ^ 16)
    (bits (dword v 1) 0 40).toNat = some range := hr
  have set : ((((u.usedTlb e).dev (pkgOf (u.usedTlb e).cur)).cluster (clusterOf (u.usedTlb e).cur)).tracker (trackerNum f)).set
      (descTracker v range 0 da a) = some { descTracker v range 0 da a with st := .counting, count := 0 } :=
    set_free ((congrArg Tracker.st (usedTlb_tracker ..)).trans free) _ act
  obtain ⟨t, run, wrote⟩ := wsLat_run (issued_refl ((u.usedTlb e).modTracker (pkgOf u.cur) (clusterOf u.cur) (trackerNum f) fun _ =>
    { descTracker v range 0 da a with st := .counting, count := 0 })) 1 (0 : Word) (d := f.d) hd
  refine ⟨t, a, ?_, wrote⟩
  have other : ¬ (0 : Nat) = 2 := by decide
  simp only [installTracker, bind_run, trackerBase_run hit hp, act, other, if_false, pure_run, get_run, ranged, ha, set,
    direct_run (s := u.usedTlb e) hc, upd_run]
  exact run

section
variable {s : State} {f : CF} {l : Line} {e : TlbEntry} {da : Nat} (hc : s.canRun [f.a] f.d = true) (h : s.ReadsDesc (s.ctx.sreg f.a) l e da)
include hc h

/-- A descriptor that R112 does not allow (R294). -/
theorem trkset_bad (bad : trackerDescOk (descAt l (s.ctx.sreg f.a)) = false) :
    ∃ t n, exec (.trkset f) s = .next t ∧ t.fate = .done ∧ (s.gotDesc n l e).wrote t (s.gotDesc n l e).now 1 f.d 3 := by
  obtain ⟨ha, hd⟩ := canRun_cons hc
  have own := (gotDesc_samePart s (s.ctx.sready.getD f.a.toNat 0) l e).ctx
  obtain ⟨t, run, wrote⟩ := wsLat_run (issued_refl (s.gotDesc (s.ctx.sready.getD f.a.toNat 0) l e)) 1 (3 : Word) (own ▸ canRun_nil hd)
  refine ⟨_, _, (trkset_run ha h).trans ?_, rfl, wrote⟩
  rw [bad]
  exact congrArg (fun r => Host.Outcome.next (settleStop s r)) run

/-- A valid descriptor with ACT NONE and a FREE tracker. -/
theorem trkset_sets {range : Nat} (ok : trackerDescOk (descAt l (s.ctx.sreg f.a)) = true) (hcid : s.cid = 0)
    (none : (dword (descAt l (s.ctx.sreg f.a)) 3).toNat / 2 ^ 60 = 0)
    (hit : e.hits s.ctx.asid (addrOf (dword (descAt l (s.ctx.sreg f.a)) 0)) = true)
    (hr : s.rangeAt s.cur (leafPa e.attr e.large (addrOf (dword (descAt l (s.ctx.sreg f.a)) 0))) (if e.large then 2 ^ 29 else 2 ^ 16)
      (bits (dword (descAt l (s.ctx.sreg f.a)) 1) 0 40).toNat = some range)
    (free : (((s.dev (pkgOf s.cur)).cluster (clusterOf s.cur)).tracker (trackerNum f)).st = .free) :
    ∃ t n a, exec (.trkset f) s = .next t ∧ t.fate = .done ∧
      ((s.gotRange n l e).modTracker (pkgOf s.cur) (clusterOf s.cur) (trackerNum f) fun _ =>
        { descTracker (descAt l (s.ctx.sreg f.a)) range 0 da a with st := .counting, count := 0 }).wrote t (s.gotDesc n l e).now 1 f.d 0 := by
  obtain ⟨ha, hd⟩ := canRun_cons hc
  let n := s.ctx.sready.getD f.a.toNat 0
  have part := gotDesc_samePart s n l e
  obtain ⟨t, a, run, wrote⟩ := installTracker_counts da (u := s.gotDesc n l e) (part.ctx ▸ canRun_nil hd) (part.cid.trans hcid) none
    (gotDesc_hit hit n l) (part.ctx ▸ h.permits) ((gotRange_rangeAt s n l e ..).trans (part.cur ▸ hr))
    ((congrArg Tracker.st (gotDesc_tracker ..)).trans (part.cur ▸ free))
  refine ⟨_, n, a, (trkset_run ha h).trans ?_, rfl, part.cur ▸ wrote⟩
  rw [ok]
  exact congrArg (fun r => Host.Outcome.next (settleStop s r)) run

end

/-! ## O26 -/

theorem bits_zero_toNat (x : BitVec n) (w : Nat) : (bits x 0 w).toNat = x.toNat % 2 ^ w := by rw [bits_toNat, Nat.pow_zero, Nat.div_one]

theorem samePart_modTracker (s : State) (p cl n : Nat) (f : Tracker → Tracker) : s.SamePart (s.modTracker p cl n f) :=
  ⟨rfl, rfl, rfl, rfl, rfl⟩
theorem samePart_clearTracker (s : State) (n : Nat) : s.SamePart (s.clearTracker n) := ⟨rfl, clearTracker_ctx s n, rfl, rfl, rfl⟩

/-- What a write of a register leaves of memory and of the other registers. -/
theorem State.SamePart.wrote {s u t : State} {n lat : Nat} {d : BitVec 5} {v : Word} (h : s.SamePart u) (w : u.wrote t n lat d v) :
    t.mem = s.mem ∧ ∀ r, t.ctx.sreg r = if r = d ∧ r ≠ 0 then v else s.ctx.sreg r := by
  obtain ⟨others, -, -, -, regs⟩ := w
  refine ⟨others.mem.trans h.mem, fun r => ?_⟩
  rw [(regs r).1, h.ctx]

theorem State.wrote.tracker {u t : State} {n lat : Nat} {d : BitVec 5} {v : Word} (w : u.wrote t n lat d v) (p cl i : Nat) :
    ((t.dev p).cluster cl).tracker i = ((u.dev p).cluster cl).tracker i :=
  (congrArg (fun x : State => ((x.dev p).cluster cl).tracker i) w.1 :)

/-- Settles O26: TRKSET reads a descriptor and sets up a FREE tracker, TRKCLR resets one, and a report adds the bytes it covers. -/
theorem storeTrackers : Obligations.StoreTrackers := by
  unfold Obligations.StoreTrackers
  refine ⟨⟨?set, ?clear⟩, ?count⟩
  case set =>
    intro f s l e da hc hcid
    rw [← trackerNum_eq f]
    intro p v cl c n pa len space aligned clear effects line valid readable tlb hits hp place
    have desc : s.ReadsDesc p l e da := {
      space, aligned, clear, effects, line, valid, readable, place
      hit := (congrArg (List.find? fun x => TlbEntry.hits x s.ctx.asid (addrOf p)) tlb).trans (List.find?_cons_of_pos hits)
      permits := hp }
    refine ⟨fun bad => ?bad, fun range ok none hit hr free => ?sets⟩
    case bad =>
      obtain ⟨t, k, run, done, wrote⟩ := trkset_bad hc desc bad
      exact ⟨t, run, done, (gotDesc_samePart s k l e).wrote wrote⟩
    case sets =>
      have low : len = (bits (dword v 1) 0 40).toNat := (bits_zero_toNat ..).symm
      have act : (bits (dword v 3) 60 4).toNat = 0 := by rw [bits_toNat, none, Nat.zero_mod]
      obtain ⟨t, k, a, run, done, wrote⟩ := trkset_sets hc desc ok hcid none hit (low ▸ hr) free
      obtain ⟨mem, regs⟩ := ((gotRange_samePart s k l e).trans (samePart_modTracker ..)).wrote wrote
      refine ⟨t, run, done, mem, regs, ?_⟩
      rw [wrote.tracker, modTracker_tracker]
      exact ⟨rfl, rfl, rfl, bits_zero_toNat .., bits_zero_toNat .., act⟩
  case clear =>
    intro f s hd hcid
    rw [← trackerNum_eq f]
    intro cl n k
    refine ⟨trkclr_free hd, fun busy => ?_⟩
    obtain ⟨t, run, done, wrote⟩ := trkclr_clears hd hcid busy
    obtain ⟨mem, regs⟩ := (samePart_clearTracker s _).wrote wrote
    exact ⟨t, run, done, mem, regs, (congrArg Tracker.st (wrote.tracker ..)).trans (clearTracker_tracker ..)⟩
  case count =>
    intro s p cl n gl mask k
    refine ⟨countBytes_free gl mask, fun counting => ?_⟩
    rw [countBytes_counting gl mask counting, ← bytesIn_eq]
    exact ⟨modTracker_tracker .., rfl⟩

end Sys2Proof.Machine
end

section
/-! The fields of a barrier object in memory (R103). -/
namespace Sys2Proof.Machine

/-- The fields fit in their bits. -/
structure BarV.Fits (b : BarV) : Prop where
  expArr : b.expArr < 2 ^ 16
  expBytes : b.expBytes < 2 ^ 40
  pendArr : b.pendArr < 2 ^ 16
  pendBytes : b.pendBytes < 2 ^ 40
  done : b.done < 2 ^ 32

theorem ofNat_fits (v : Nat) : (BarV.ofNat v).Fits :=
  ⟨Nat.mod_lt _ (by decide), Nat.mod_lt _ (by decide), Nat.mod_lt _ (by decide), Nat.mod_lt _ (by decide), Nat.mod_lt _ (by decide)⟩

theorem BarV.Fits.update {b : BarV} (h : b.Fits) (init : Bool) {arr bytes : Nat} (ha : arr < 2 ^ 16) (hb : bytes < 2 ^ 40) :
    (b.update init arr bytes).Fits := by
  cases init
  · exact ⟨ha, hb, h.pendArr, h.pendBytes, h.done⟩
  · exact ⟨ha, hb, ha, hb, Nat.two_pow_pos 32⟩

theorem BarV.Fits.apply {b : BarV} (h : b.Fits) (arr bytes : Nat) : (b.apply (2 ^ 32) arr bytes).Fits := by
  have arrLeft := Nat.lt_of_le_of_lt (Nat.sub_le b.pendArr arr) h.pendArr
  have bytesLeft := Nat.lt_of_le_of_lt (Nat.sub_le b.pendBytes bytes) h.pendBytes
  unfold BarV.apply
  split
  · exact ⟨h.expArr, h.expBytes, h.pendArr, h.pendBytes, h.done⟩
  · dsimp only
    split
    · exact ⟨h.expArr, h.expBytes, h.expArr, h.expBytes, Nat.mod_lt _ (by decide)⟩
    · exact ⟨h.expArr, h.expBytes, arrLeft, bytesLeft, h.done⟩

/-- The object's second doubleword. -/
def BarV.pending (b : BarV) : Nat := (if b.phase then 2 ^ 63 else 0) + (if b.ovf then 2 ^ 62 else 0) + b.pendArr * 2 ^ 40 + b.pendBytes

theorem BarV.toNat_eq (b : BarV) : b.toNat = (b.expArr * 2 ^ 40 + b.expBytes) + b.pending * 2 ^ 64 + b.done * 2 ^ 128 := rfl

theorem BarV.Fits.pending {b : BarV} (h : b.Fits) : b.pending < 2 ^ 64 ∧ (decide (b.pending / 2 ^ 63 = 1)) = b.phase ∧
    (decide (b.pending / 2 ^ 62 % 2 = 1)) = b.ovf ∧ b.pending / 2 ^ 40 % 2 ^ 16 = b.pendArr ∧ b.pending % 2 ^ 40 = b.pendBytes := by
  obtain ⟨-, -, ha, hb, -⟩ := h
  unfold BarV.pending
  cases b.phase <;> cases b.ovf <;> simp only [if_true, if_false, Bool.false_eq_true, decide_eq_true_eq, decide_eq_false_iff_not] <;> omega

theorem BarV.Fits.toNat_lt {b : BarV} (h : b.Fits) : b.toNat < 256 ^ 32 := by
  obtain ⟨small, -⟩ := h.pending
  obtain ⟨ha, hb, -, -, hd⟩ := h
  rw [BarV.toNat_eq]
  omega

/-- An object keeps the fields that it takes. -/
theorem BarV.Fits.ofNat_toNat {b : BarV} (h : b.Fits) : BarV.ofNat b.toNat = b := by
  obtain ⟨small, phase, ovf, pendArr, pendBytes⟩ := h.pending
  obtain ⟨ha, hb, -, -, hd⟩ := h
  have first : b.toNat % 2 ^ 64 = b.expArr * 2 ^ 40 + b.expBytes := by rw [BarV.toNat_eq]; omega
  have second : b.toNat / 2 ^ 64 % 2 ^ 64 = b.pending := by rw [BarV.toNat_eq]; omega
  have third : b.toNat / 2 ^ 128 % 2 ^ 32 = b.done := by rw [BarV.toNat_eq]; omega
  have expArr : (b.expArr * 2 ^ 40 + b.expBytes) / 2 ^ 40 % 2 ^ 16 = b.expArr := by omega
  have expBytes : (b.expArr * 2 ^ 40 + b.expBytes) % 2 ^ 40 = b.expBytes := by omega
  simp only [BarV.ofNat, first, second, third, phase, ovf, pendArr, pendBytes, expArr, expBytes]

/-- Memory after the object at a takes other fields. -/
theorem object_written {m : List Host.Cell} (hm : Memory.wf m = true) (a : Nat) {b : BarV} (h : b.Fits) :
    BarV.ofNat (readNat (writeNat m a 32 b.toNat) a 32) = b ∧
      ∀ x, x < a ∨ a + 32 ≤ x → readByte (writeNat m a 32 b.toNat) x = readByte m x := by
  refine ⟨?_, fun x hx => ?_⟩
  · rw [readNat_writeNat hm, Nat.mod_eq_of_lt h.toNat_lt, h.ofNat_toNat]
  · rw [readByte_writeNat a 32 _ x hm, if_neg (by omega)]

end Sys2Proof.Machine
end

section
/-! A global barrier object at a home that concerns no one else (R103, R104, R237). -/
namespace Sys2Proof.Machine

/-! ## The home changes the object -/

theorem samePart_foldl {f : State → α → State} (h : ∀ (s : State) a, s.SamePart (f s a)) (l : List α) (s : State) :
    s.SamePart (l.foldl f s) := by
  induction l generalizing s with
  | nil => exact .refl s
  | cons a l ih => exact (h s a).trans (ih _)

theorem samePart_freeSlotOf (s : State) (h : Held) : s.SamePart (s.freeSlotOf h) := by
  unfold State.freeSlotOf
  split
  · exact .refl s
  · exact samePart_modTile s h.tile (f := fun x => x.setHw h.slot .free) fun x => by unfold Tile.setHw; split <;> rfl

/-- The waits that an object's change answers are requests of others: the part keeps its state. -/
theorem samePart_answerAwaits (s : State) (a done : Nat) (init : Bool) : s.SamePart (s.answerAwaits a done init) := by
  refine samePart_foldl (fun s h => ?_) s.held s
  split
  case h_1 =>
    split
    · have freed := samePart_freeSlotOf s h
      exact ⟨freed.mem, freed.ctx, freed.compute, freed.cur, freed.cid⟩
    · exact .refl s
  case h_2 => exact .refl s

theorem samePart_restartBar (s : State) (name : Nat) (b : BarV) : s.SamePart (s.restartBar name b) := ⟨rfl, rfl, rfl, rfl, rfl⟩

/-- s with a barrier object's fields in memory. -/
def State.withObject (s : State) (a : Nat) (b : BarV) : State := { s with mem := writeNat s.mem a 32 b.toNat }

/-- The object as memory has it. -/
def State.object (s : State) (a : Nat) : BarV := BarV.ofNat (readNat s.mem a 32)

section
variable {s u : State} (h : s.SamePart u) (a : Nat)
include h
theorem State.SamePart.object : u.object a = s.object a := by rw [State.object, h.mem]; rfl
theorem State.SamePart.withObject (b : BarV) : (s.withObject a b).SamePart (u.withObject a b) :=
  ⟨congrArg (writeNat · a 32 b.toNat) h.mem, h.ctx, h.compute, h.cur, h.cid⟩
end

/-- s when the home has taken the object for a write. -/
def State.servedObject (s : State) (a : Nat) : State := s.serveWrite (pkgOfGl (a / 128)) (a / 128) (spanWords (a % 128) 32)

section
variable {s : State} {a : Nat} (h : s.HomeCalm (a / 128))
include h

theorem servedObject_touched : (s.unhosted (a / 128)).Touched (s.servedObject a) :=
  serveWrite_touched (h.here ▸ h.lets) h.owners (fun hv => absurd rfl hv) _

theorem servedObject_samePart : s.SamePart (s.servedObject a) :=
  have same : s.SamePart (s.unhosted (a / 128)) := ⟨rfl, rfl, rfl, rfl, rfl⟩
  same.trans (servedObject_touched h).samePart

/-- BINIT and BEXPECT at the home (R238). -/
theorem changeBarrier_object (init : Bool) (f : BarV → BarV) : (s.withObject a (f (s.object a))).SamePart (s.changeBarrier a init f) := by
  have served := servedObject_samePart h
  rw [← served.object a]
  exact ((served.withObject a _).trans (samePart_restartBar ..)).trans (samePart_answerAwaits ..)

/-- An arrival that is the first update of its cycle, at the home (R104). -/
theorem countBarrier_object (hp : s.portsFree) (arr bytes : Nat) :
    (s.withObject a ((s.object a).apply (2 ^ 32) arr bytes)).SamePart (s.countBarrier a arr bytes) := by
  have served := servedObject_samePart h
  have free : (s.servedObject a).portsFree := by rw [(servedObject_touched h).rest]; exact hp
  obtain ⟨ps, first⟩ := updateBar_first free (globalName a) (2 ^ 32) ((s.servedObject a).object a) arr bytes
  have counted : s.countBarrier a arr bytes = State.answerAwaits
      { (s.servedObject a).withObject a (((s.servedObject a).object a).apply (2 ^ 32) arr bytes) with ports := ps } a
      (((s.servedObject a).object a).apply (2 ^ 32) arr bytes).done false := by
    refine Eq.trans (b := match (s.servedObject a).updateBar (globalName a) (2 ^ 32) ((s.servedObject a).object a) arr bytes with
      | (some b, t) => (t.withObject a b).answerAwaits a b.done false
      | (none, t) => t) rfl ?_
    rw [first]
    rfl
  rw [counted, ← served.object a]
  refine ((served.withObject a _).trans ?_).trans (samePart_answerAwaits _ a _ false)
  exact ⟨rfl, rfl, rfl, rfl, rfl⟩

end

end Sys2Proof.Machine
end

section
/-! BINIT, BEXPECT and BARRIVE on a global object (R237 to R239). -/
namespace Sys2Proof.Machine

/-! ## The object that an instruction names -/

/-- The pointer p names the barrier object at a, in a page of entry e, at a home that concerns no one else. -/
structure State.Names (s : State) (p : Word) (acc : Acc) (e : TlbEntry) (a : Nat) : Prop where
  space : spaceOf p = 0
  aligned : addrOf p % 32 = 0
  idle : (s.ctx.pend.any fun l => l.acq) = false
  calm : s.HomeCalm (a / 128)
  hit : s.tlbHit (addrOf p) = some e
  permits : permits e.attr acc s.ctx.priv = true
  place : s.globalAddr (pkgOf s.cur) (leafPa e.attr e.large (addrOf p)) = some a
  reached : s.lineReached (pkgOf s.cur) (a / 128) = true

theorem names_of_mapped {s : State} {p leaf : Word} {acc : Acc} {a : Nat} (hs : spaceOf p = 0) (hp : addrOf p % 32 = 0) (ha : s.answered = true)
    (hc : s.calmLine a) (hm : s.mapped (addrOf p) acc a leaf) : ∃ e, s.Names p acc e a := by
  obtain ⟨e, hit, rfl, permits, place, reached⟩ := hm
  exact ⟨e, hs, hp, ((answered_iff s).1 ha).2, homeCalm_of_calmLine hc, hit, permits, place, reached⟩

section
variable {s : State} {p : Word} {acc : Acc} {e : TlbEntry} {a : Nat} (h : s.Names p acc e a)
include h

theorem State.Names.at (n : Nat) : ({ s with now := n } : State).Names p acc e a :=
  ⟨h.space, h.aligned, h.idle, ⟨h.calm.here, h.calm.lets.congr (fun _ => rfl) fun _ => id, h.calm.owners, h.calm.waiting, h.calm.trackers⟩,
    h.hit, h.permits, h.place, h.reached⟩

theorem State.Names.usedTlb : (s.usedTlb e).Names p acc e a where
  space := h.space
  aligned := h.aligned
  idle := h.idle
  calm := h.calm.usedTlb e
  hit := usedTlb_hit (List.find?_some h.hit :)
  permits := h.permits
  place := (usedTlb_globalAddr ..).trans h.place
  reached := (usedTlb_lineReached ..).trans h.reached

theorem State.Names.touchCtx : s.touchCtx.Names p acc e a where
  space := h.space
  aligned := h.aligned
  idle := by rw [touchCtx_ctx]; exact h.idle
  calm := h.calm.touchCtx
  hit := by rw [State.tlbHit, touchCtx_ctx]; exact h.hit
  permits := by rw [touchCtx_ctx]; exact h.permits
  place := h.place
  reached := h.reached

/-- The object's checks pass (R237). -/
theorem globalBarrier_run : globalBarrier p acc s = .ok ((a, .ok (a / 128)), s.usedTlb e) := by
  have calm := h.usedTlb.calm
  simp only [globalBarrier, bind_run, h.space, h.aligned, decide_true, need_true, acquired_run h.idle, locateM_hit h.hit h.permits h.place, get_run,
    gate_calm calm, reachLine_calm p _ _ calm h.usedTlb.reached, pure_run]

end

/-- The line's bytes that a tile has of its own are older than the update. -/
def State.staleObject (s : State) (a : Nat) : State := s.modTile s.cur fun x => x.dropStale (a / 128) (spanWords (a % 128) 32)

theorem samePart_staleObject (s : State) (a : Nat) : s.SamePart (s.staleObject a) :=
  samePart_modTile s s.cur (f := fun x => x.dropStale (a / 128) (spanWords (a % 128) 32)) fun _ => rfl

section
variable {s : State} {p : Word} {e : TlbEntry} {a : Nat} (h : s.Names p .amo e a)
include h

/-- The update is applied at the home at once. -/
theorem updateBarrier_run (kind arr bytes : Nat) :
    updateBarrier p kind arr bytes s = .ok ((), ((s.usedTlb e).applyUpdate a kind arr bytes).staleObject a) := by
  simp only [updateBarrier, bind_run, globalBarrier_run h, crosses_here h.usedTlb.calm.here, upd_run, Nat.div_add_mod', modT_run]
  rfl

/-- BINIT and BEXPECT set the object (R238). -/
theorem updateBarrier_sets (init : Bool) (arr bytes : Nat) : ∃ u, updateBarrier p (if init then 0 else 1) arr bytes s = .ok ((), u) ∧
    (s.withObject a ((s.object a).update init arr bytes)).SamePart u := by
  refine ⟨_, updateBarrier_run h .., ?_⟩
  have set := changeBarrier_object h.usedTlb.calm init fun b => b.update init arr bytes
  have applied : (s.usedTlb e).applyUpdate a (if init then 0 else 1) arr bytes =
      (s.usedTlb e).changeBarrier a init fun b => b.update init arr bytes := by
    cases init <;> rfl
  rw [applied]
  exact (((usedTlb_touched s e).samePart.withObject a _).trans set).trans (samePart_staleObject ..)

/-- An arrival, the first update of its cycle, is counted (R104). -/
theorem updateBarrier_counts (hp : s.portsFree) (arr bytes : Nat) : ∃ u, updateBarrier p 2 arr bytes s = .ok ((), u) ∧
    (s.withObject a ((s.object a).apply (2 ^ 32) arr bytes)).SamePart u := by
  refine ⟨_, updateBarrier_run h .., ?_⟩
  have counted := countBarrier_object (s := s.usedTlb e) h.usedTlb.calm hp arr bytes
  exact (((usedTlb_touched s e).samePart.withObject a _).trans counted).trans (samePart_staleObject ..)

end

/-! ## The instructions -/

theorem samePart_now (s : State) (n : Nat) : s.SamePart { s with now := n } := ⟨rfl, rfl, rfl, rfl, rfl⟩
theorem samePart_touchCtx (s : State) : s.SamePart s.touchCtx := ⟨rfl, touchCtx_ctx s, rfl, rfl, rfl⟩

/-- What is left of s changes the object as if s had. -/
theorem State.SamePart.changes {s t u : State} {a : Nat} {f : BarV → BarV} (h : s.SamePart t)
    (put : (t.withObject a (f (t.object a))).SamePart u) :
    (s.withObject a (f (s.object a))).SamePart u := by
  rw [h.object] at put
  exact (h.withObject a _).trans put

theorem isGlobal_of_bit {f : CF} (h : f.p5.getLsbD 4 = true) : f.isGlobal = true := h

/-- BINIT and BEXPECT after their operands (R238). -/
theorem checkedUpdate_sets {s : State} {p : Word} {e : TlbEntry} {a : Nat} (h : s.Names p .amo e a) (hc : s.cid = 0) (init : Bool)
    (arr bytes : Nat) : ∃ u, (do let _ ← globalBarrier p .amo; direct; updateBarrier p (if init then 0 else 1) arr bytes) s = .ok ((), u) ∧
      (s.withObject a ((s.object a).update init arr bytes)).SamePart u := by
  obtain ⟨u, run, put⟩ := updateBarrier_sets h.usedTlb init arr bytes
  refine ⟨u, ?_, (usedTlb_touched s e).samePart.changes (f := fun b => b.update init arr bytes) put⟩
  simp only [bind_run, globalBarrier_run h, direct_run (s := s.usedTlb e) hc]
  exact run

theorem setBarrier_global {s : State} {f : CF} {e : TlbEntry} {a : Nat} (hg : f.p5.getLsbD 4 = true) (hc : s.cid = 0)
    (ha : s.ctx.readable f.a = true) (hb : s.ctx.readable f.b = true) (hd : s.ctx.readable f.d = true) (h : s.Names (s.ctx.sreg f.d) .amo e a)
    (init : Bool) : ∃ u, setBarrier f init s = .ok ((), u) ∧
      (s.withObject a ((s.object a).update init (bits (s.ctx.sreg f.a) 0 16).toNat (bits (s.ctx.sreg f.b) 0 40).toNat)).SamePart u := by
  obtain ⟨u, run, put⟩ := checkedUpdate_sets (h.at (s.issueCycle [f.a, f.b, f.d])) hc init (bits (s.ctx.sreg f.a) 0 16).toNat
    (bits (s.ctx.sreg f.b) 0 40).toNat
  refine ⟨u, ?_, (samePart_now s _).changes (f := fun b => b.update init _ _) put⟩
  have pointer : rs f.d { s with now := s.issueCycle [f.a, f.b] } = .ok (s.ctx.sreg f.d, { s with now := s.issueCycle [f.a, f.b, f.d] }) :=
    rs_now (s := { s with now := _ }) hd
  rw [setBarrier, rs_pair ha hb]
  simp only [isGlobal_of_bit hg, if_true]
  rw [bind_run, pointer]
  exact run

theorem usedTlb_releasable {s : State} (h : s.releasable = true) (e : TlbEntry) : (s.usedTlb e).releasable = true := by
  have progs : (s.usedTlb e).progs (pkgOf (s.usedTlb e).cur) (regionOf (s.usedTlb e).cur) = s.progs (pkgOf s.cur) (regionOf s.cur) := by
    rw [State.progs, usedTlb_dev]
    rfl
  have stores : (s.usedTlb e).storesOpen = s.storesOpen := by
    simp only [State.storesOpen, State.grantsOpen, progs]
    rfl
  rw [← h, State.releasable, stores]
  rfl

/-- BARRIVE after its operand (R239). -/
def arriveAt (p : Word) : M Unit := do
  let (a, _) ← globalBarrier p .amo
  release
  let s ← get
  if s.buffers then modC fun k => { k with heldArrivals := k.heldArrivals ++ [a] }
  else updateBarrier p 2 1 0

theorem arriveAt_counts {s : State} {p : Word} {e : TlbEntry} {a : Nat} (h : s.Names p .amo e a) (hc : s.cid = 0) (hr : s.releasable = true)
    (hp : s.portsFree) : ∃ u, arriveAt p s = .ok ((), u) ∧ (s.withObject a ((s.object a).apply (2 ^ 32) 1 0)).SamePart u := by
  obtain ⟨u, run, put⟩ := updateBarrier_counts h.usedTlb.touchCtx hp 1 0
  have moved := (usedTlb_touched s e).samePart.trans (samePart_touchCtx _)
  have unbuffered : (s.usedTlb e).touchCtx.buffers = false := by
    rw [State.buffers, touchCtx_cid, show (s.usedTlb e).cid = 0 from hc]
    rfl
  refine ⟨u, ?_, moved.changes (f := fun b => b.apply (2 ^ 32) 1 0) put⟩
  simp only [arriveAt, bind_run, globalBarrier_run h, release_run (usedTlb_releasable hr e), get_run, unbuffered, Bool.false_eq_true, if_false]
  exact run

/-- BARRIVE counts at the object, once its release is done (R239). -/
theorem barrive_global {s : State} {f : CF} {e : TlbEntry} {a : Nat} (hg : f.p5.getLsbD 4 = true) (hc : s.cid = 0)
    (ha : s.ctx.readable f.a = true) (hr : s.releasable = true) (hp : s.portsFree) (h : s.Names (s.ctx.sreg f.a) .amo e a) :
    ∃ u, exec (.barrive f) s = .next { u with fate := .done } ∧ (s.withObject a ((s.object a).apply (2 ^ 32) 1 0)).SamePart u := by
  have later : ({ s with now := s.issueCycle [f.a] } : State).portsFree := fun p hm => Nat.lt_of_lt_of_le (hp p hm) (Nat.le_max_left ..)
  obtain ⟨u, run, put⟩ := arriveAt_counts (h.at (s.issueCycle [f.a])) hc hr later
  refine ⟨u, finish_ok (m := (do if f.isGlobal then (do let p ← rs f.a; arriveAt p) else _)) ?_,
    (samePart_now s _).changes (f := fun b => b.apply (2 ^ 32) 1 0) put⟩
  simp only [isGlobal_of_bit hg, if_true]
  rw [bind_run, rs_now ha]
  exact run

/-- A part that leaves another object in memory, as the statement has it. -/
theorem changes_object {s u : State} {i : Instr} {a : Nat} {b : BarV} (run : exec i s = .next { u with fate := .done })
    (hm : Memory.wf s.mem = true) (h : (s.withObject a b).SamePart u) (fits : b.Fits) :
    ∃ t, exec i s = .next t ∧ t.fate = .done ∧ t.ctx.sregs = s.ctx.sregs ∧ t.ctx.flags = s.ctx.flags ∧
      BarV.ofNat (readNat t.mem a 32) = b ∧ ∀ x, x < a ∨ a + 32 ≤ x → readByte t.mem x = readByte s.mem x := by
  have mem : u.mem = writeNat s.mem a 32 b.toNat := h.mem
  have ctx : u.ctx = s.ctx := h.ctx
  refine ⟨_, run, rfl, ?_, ?_, ?_⟩
  · rw [with_fate_ctx, ctx]
  · rw [with_fate_ctx, ctx]
  · rw [mem]
    exact object_written hm a fits

end Sys2Proof.Machine
end

section
/-! BWAIT and BTEST of a global object (R240, R241), and O35. -/
namespace Sys2Proof.Machine

/-! ## The object's count of phases -/

/-- No request of the context for an answer is under way. -/
theorem awaited_none {s : State} (h : s.answered = true) (p : Word) : s.awaited p = none := by
  refine List.find?_eq_none.2 fun r hr all => ?_
  rw [(((answered_iff s).1 h).1 r hr).2] at all
  exact absurd all (by simp)

theorem servePeek_touched {s : State} {gl : Nat} (h : s.HomeCalm gl) (mask : WordMask) : s.Touched (s.servePeek gl mask) := by
  simp only [State.servePeek, clearRemote_none h.lets.remote, recallOwners_none h.owners]
  exact touchSlice_touched h.lets.room gl

/-- s when the home has looked at the object. -/
def State.peekedObject (s : State) (e : TlbEntry) (a : Nat) : State := (s.usedTlb e).servePeek (a / 128) (spanWords (a % 128) 32)

/-- What a request for words of a line puts in the home's keeping. -/
theorem hold_run (s : State) (stage : Stage) (gl : Nat) (words : WordMask) (work : HeldWork) (p : Word) (fill : Option Fill) (mine : ByteMask)
    (mineData : LineData) : ∃ t h, hold stage gl words work p fill mine mineData s = .ok (h.id, t) ∧ s.SamePart t ∧ t.held = s.held ++ [h] ∧
      h.work = work ∧ h.stage = stage ∧ h.gl = gl ∧ h.tile = s.cur ∧ h.cid = s.cid := by
  refine ⟨_, _, rfl, ?_, rfl, rfl, rfl, rfl, rfl, rfl⟩
  refine State.SamePart.trans (t := { s with held := s.held ++ [_], heldIds := s.heldIds + 1 }) ⟨rfl, rfl, rfl, rfl, rfl⟩
    (samePart_modTile _ _ fun x => ?_)
  unfold Tile.setHw
  split <;> rfl

section
variable {s : State} {p : Word} {e : TlbEntry} {a : Nat} (h : s.Names p .load e a) (ha : s.answered = true)
include h

theorem peekedObject_touched : (s.usedTlb e).Touched (s.peekedObject e a) := servePeek_touched h.usedTlb.calm _
theorem peekedObject_samePart : s.SamePart (s.peekedObject e a) := (usedTlb_touched s e).samePart.trans (peekedObject_touched h).samePart
theorem peekedObject_now : (s.peekedObject e a).now = s.now := by rw [(peekedObject_touched h).rest]; rfl
theorem peekedObject_held : (s.peekedObject e a).held = s.held := (peekedObject_touched h).held

theorem peekDone_run : peekDone a (s.usedTlb e) = .ok ((s.object a).done, s.peekedObject e a) := by
  have same := (peekedObject_samePart h).object a
  simp only [peekDone, bind_run, upd_run, get_run, pure_run]
  exact congrArg (fun b => Except.ok (BarV.done b, s.peekedObject e a)) same

include ha

/-- The object's DONE is another than the one seen: it is the answer. -/
theorem askDone_answers {seen : Nat} (hs : (s.object a).done ≠ seen) :
    askDone p seen s = .ok (some ((s.object a).done, false), s.peekedObject e a) := by
  simp only [askDone, bind_run, get_run, awaited_none ha, globalBarrier_run h, crosses_here h.usedTlb.calm.here, Nat.div_add_mod',
    peekDone_run h, hs, if_false, pure_run]

/-- The same once operands are ready. -/
theorem askDone_later {seen : Nat} (hs : (s.object a).done ≠ seen) (n : Nat) :
    askDone p seen { s with now := n } = .ok (some ((s.object a).done, false), State.peekedObject { s with now := n } e a) :=
  askDone_answers (h.at n) ha hs

/-- It is the one seen: the request waits at the home. -/
theorem askDone_waits : ∃ t r, askDone p (s.object a).done s = .ok (none, t) ∧ s.SamePart t ∧ t.held = s.held ++ [r] ∧
    r.work = .await (a % 128) (s.object a).done ∧ r.stage = .home ∧ r.gl = a / 128 ∧ r.tile = s.cur ∧ r.cid = s.cid := by
  have part := peekedObject_samePart h
  obtain ⟨t, r, run, kept, held, work, stage, gl, tile, cid⟩ := hold_run (s.peekedObject e a) .home (a / 128) (spanWords (a % 128) 32)
    (.await (a % 128) (s.object a).done) p none 0 0
  refine ⟨t, r, ?_, part.trans kept, ?_, work, stage, gl, tile.trans part.cur, cid.trans part.cid⟩
  · simp only [askDone, bind_run, get_run, awaited_none ha, globalBarrier_run h, crosses_here h.usedTlb.calm.here, Nat.div_add_mod',
      peekDone_run h, if_true, run, pure_run]
  · rw [held, peekedObject_held h]

end

/-! ## The instructions -/

theorem samePart_flashTile (s : State) : s.SamePart (s.flashTile s.cur) :=
  samePart_modTile s s.cur (f := fun x => { x with lines := x.lines.map fun l => { l with valid := l.own }, flashUntil := s.now + 4 }) fun _ => rfl

/-- The result of a part that has changed nothing of its own but its clock. -/
theorem ws_gives {s u : State} (h : s.SamePart u) {d : BitVec 5} (hd : s.ctx.pendingReg d = false) (v : Word) :
    ∃ t, ws d v u = .ok ((), t) ∧ t.now = u.now ∧ t.mem = s.mem ∧ s.ctx.gives d v t.ctx := by
  obtain ⟨t, run, wrote⟩ := wsLat_run (issued_refl u) 1 v (h.ctx ▸ hd)
  obtain ⟨mem, regs⟩ := h.wrote wrote
  exact ⟨t, run, (congrArg State.now wrote.1 :), mem, regs⟩

section
variable {s : State} {f : CF} {e : TlbEntry} {a : Nat} (hg : f.p5.getLsbD 4 = true) (ha : s.ctx.readable f.a = true)
  (hb : s.ctx.readable f.b = true) (hans : s.answered = true) (h : s.Names (s.ctx.sreg f.a) .load e a)
include hg ha hb hans h

/-- BWAIT of a phase that the object has left behind gives its DONE, and acquires (R240). -/
theorem bwait_answers (hd : s.ctx.pendingReg f.d = false) (hs : (s.object a).done ≠ (bits (s.ctx.sreg f.b) 0 32).toNat) :
    ∃ t, exec (.bwait f) s = .next t ∧ t.fate = .done ∧ t.now = s.issueCycle [f.a, f.b] ∧ t.mem = s.mem ∧
      s.ctx.gives f.d (BitVec.ofNat 64 (s.object a).done) t.ctx := by
  have named := h.at (s.issueCycle [f.a, f.b])
  have asked := askDone_later h hans hs (s.issueCycle [f.a, f.b])
  obtain ⟨t, run, now, mem, gives⟩ := ws_gives ((samePart_now s _).trans (peekedObject_samePart named)) hd (BitVec.ofNat 64 (s.object a).done)
  refine ⟨_, finish_ok (t := t.flashTile t.cur) (m := (do if f.isGlobal then _ else _)) ?_, rfl, now.trans (peekedObject_now named), mem, ?_⟩
  · simp only [isGlobal_of_bit hg, if_true]
    rw [rs_pair ha hb, bind_run, asked]
    simp only [bind_run]
    rw [run]
    rfl
  · change s.ctx.gives f.d _ (t.flashTile t.cur).ctx
    rw [flashTile_ctx]
    exact gives

omit hans h in
/-- BTEST once its operands are ready and the object's DONE is there (R241). -/
theorem btest_global {done : Nat} {u : State}
    (asked : askDone (s.ctx.sreg f.a) (2 ^ 32) { s with now := s.issueCycle [f.a, f.b] } = .ok (some (done, false), u)) :
    exec (.btest f) s = .next (settleStop s ((if done = (bits (s.ctx.sreg f.b) 0 32).toNat then ws f.d 0 else do flash; ws f.d 1) u)) := by
  refine congrArg (fun r => Host.Outcome.next (settleStop s r)) (?_ : (do if f.isGlobal then _ else _ : M Unit) s = _)
  simp only [isGlobal_of_bit hg, if_true]
  rw [rs_pair ha hb, bind_run, asked]

/-- BTEST of such a phase gives 1, and acquires (R241). -/
theorem btest_answers (hd : s.ctx.pendingReg f.d = false) (hs : (s.object a).done ≠ (bits (s.ctx.sreg f.b) 0 32).toNat) :
    ∃ t, exec (.btest f) s = .next t ∧ t.fate = .done ∧ t.mem = s.mem ∧ s.ctx.gives f.d 1 t.ctx := by
  have named := h.at (s.issueCycle [f.a, f.b])
  have asked := askDone_later (seen := 2 ^ 32) h hans (Nat.ne_of_lt (ofNat_fits _).done) (s.issueCycle [f.a, f.b])
  obtain ⟨t, run, -, mem, gives⟩ := ws_gives (((samePart_now s _).trans (peekedObject_samePart named)).trans (samePart_flashTile _)) hd
    (1 : Word)
  refine ⟨{ t with fate := .done }, (btest_global hg ha hb asked).trans ?_, rfl, mem, gives⟩
  rw [if_neg hs]
  exact congrArg (fun r => Host.Outcome.next (settleStop s r)) run

/-- BTEST of a phase that the object is at gives 0. -/
theorem btest_waits (hd : s.ctx.pendingReg f.d = false) (hs : (s.object a).done = (bits (s.ctx.sreg f.b) 0 32).toNat) :
    ∃ t, exec (.btest f) s = .next t ∧ t.fate = .done ∧ t.mem = s.mem ∧ s.ctx.gives f.d 0 t.ctx := by
  have named := h.at (s.issueCycle [f.a, f.b])
  have asked := askDone_later (seen := 2 ^ 32) h hans (Nat.ne_of_lt (ofNat_fits _).done) (s.issueCycle [f.a, f.b])
  obtain ⟨t, run, -, mem, gives⟩ := ws_gives ((samePart_now s _).trans (peekedObject_samePart named)) hd (0 : Word)
  refine ⟨{ t with fate := .done }, (btest_global hg ha hb asked).trans ?_, rfl, mem, gives⟩
  rw [if_pos hs]
  exact congrArg (fun r => Host.Outcome.next (settleStop s r)) run

/-- BWAIT of such a phase waits at the home (R240). -/
theorem bwait_waits (hc : s.cid = 0) (hs : (s.object a).done = (bits (s.ctx.sreg f.b) 0 32).toNat) :
    ∃ t r, exec (.bwait f) s = .next t ∧ t.fate = .waited ∧ t.mem = s.mem ∧ t.ctx.sregs = s.ctx.sregs ∧ t.held = s.held ++ [r] ∧
      r.work = .await (a % 128) (s.object a).done ∧ r.stage = .home ∧ r.gl = a / 128 ∧ r.tile = s.cur ∧ r.cid = 0 := by
  obtain ⟨t, r, run, kept, held, work, stage, gl, tile, cid⟩ := askDone_waits (h.at (s.issueCycle [f.a, f.b])) hans
  have asked : askDone _ (bits (s.ctx.sreg f.b) 0 32).toNat { s with now := s.issueCycle [f.a, f.b] } = .ok (none, t) := hs ▸ run
  refine ⟨{ t with fate := .waited }, r, finish_waitWith (t := t) (m := (do if f.isGlobal then _ else _)) ?_, rfl, kept.mem,
    congrArg Ctx.sregs kept.ctx, held, work, stage, gl, tile, cid.trans hc⟩
  have control : t.cid = 0 := kept.cid.trans hc
  simp only [isGlobal_of_bit hg, if_true]
  rw [rs_pair ha hb, bind_run, asked]
  simp [bind_run, get_run, control, waitKeep_run]

end

/-- Settles O35: the home concerns no one else, so that the object is changed, or looked at, at once. -/
theorem globalBarriers : Obligations.GlobalBarriers := by
  unfold Obligations.GlobalBarriers
  intro f s a leaf hg hc hans calm hm ha hb hd old changed
  have fits : old.Fits := ofNat_fits _
  refine ⟨?set, ?arrive⟩
  case set =>
    rintro p rfl space aligned mapped
    rw [← bits_zero_toNat, ← bits_zero_toNat]
    intro arr bytes
    obtain ⟨e, named⟩ := names_of_mapped space aligned hans calm mapped
    have put (init : Bool) := setBarrier_global hg hc ha hb hd named init
    have fit (init : Bool) := fits.update init (bits (s.ctx.sreg f.a) 0 16).isLt (bits (s.ctx.sreg f.b) 0 40).isLt
    obtain ⟨u, run, inited⟩ := put true
    obtain ⟨v, run', expected⟩ := put false
    exact ⟨changes_object (finish_ok run) hm inited (fit true), changes_object (finish_ok run') hm expected (fit false)⟩
  case arrive =>
    rintro p rfl space aligned
    refine ⟨fun hr hp mapped => ?_, fun mapped => ?_⟩
    · obtain ⟨e, named⟩ := names_of_mapped space aligned hans calm mapped
      obtain ⟨u, run, counted⟩ := barrive_global hg hc ha hr hp named
      exact changes_object run hm counted (fits.apply 1 0)
    · obtain ⟨e, named⟩ := names_of_mapped space aligned hans calm mapped
      rw [← bits_zero_toNat]
      exact ⟨fun hs pend => ⟨bwait_answers hg ha hb hans named pend hs, btest_answers hg ha hb hans named pend hs⟩,
        fun hs pend => ⟨btest_waits hg ha hb hans named pend hs, bwait_waits hg ha hb hans named hc hs⟩⟩

end Sys2Proof.Machine
end

section
/-! LDL and STL: an aligned access to scratch lies in one line of it (R114, R228). -/
namespace Sys2Proof.Machine

/-! ## The words of a span -/

/-- The sum of the powers of two, up to the n-th, that a test does not leave out. -/
def powersBut (p : Nat → Prop) [DecidablePred p] (n : Nat) : Nat := (List.range n).foldl (fun acc j => if p j then acc else acc + 2 ^ j) 0

section
variable (p : Nat → Prop) [DecidablePred p]

theorem powersBut_succ (n : Nat) : powersBut p (n + 1) = if p n then powersBut p n else powersBut p n + 2 ^ n := by
  rw [powersBut, List.range_succ, List.foldl_append]
  rfl

theorem powersBut_lt (n : Nat) : powersBut p n < 2 ^ n := by
  induction n with
  | zero => exact Nat.one_pos
  | succ n ih =>
    rw [powersBut_succ, Nat.pow_succ]
    split <;> omega

theorem powersBut_testBit (n i : Nat) : (powersBut p n).testBit i = (decide (i < n) && !decide (p i)) := by
  induction n with
  | zero => exact Nat.zero_testBit i
  | succ n ih =>
    have joined : powersBut p n + 2 ^ n = 2 ^ n * 1 ||| powersBut p n := by
      rw [← Nat.two_pow_add_eq_or_of_lt (powersBut_lt p n), Nat.mul_one, Nat.add_comm]
    rw [powersBut_succ]
    by_cases hi : i = n
    · subst hi
      split
      case isTrue hp => rw [ih]; simp [hp]
      case isFalse hp => rw [joined, Nat.testBit_or, ih, Nat.mul_one, Nat.testBit_two_pow]; simp [hp]
    · have other : decide (i < n + 1) = decide (i < n) := by simp only [decide_eq_decide]; omega
      split
      case isTrue => rw [ih, other]
      case isFalse => rw [joined, Nat.testBit_or, ih, Nat.mul_one, Nat.testBit_two_pow, other]; simp [Ne.symm hi]

end

theorem touched_getLsbD (mask : ByteMask) {i : Nat} (h : i < 32) : (touched mask).getLsbD i = !decide (bits mask (4 * i) 4 = 0) := by
  have bit := powersBut_testBit (fun j => bits mask (4 * j) 4 = 0) 32 i
  rw [touched, BitVec.getLsbD_ofNat, decide_eq_true h, Bool.true_and]
  rw [decide_eq_true h, Bool.true_and] at bit
  exact bit

/-- The words that hold n bytes from off on: those that begin before its end and end after its start. -/
theorem spanWords_getLsbD (off n : Nat) {i : Nat} (h : i < 32) (hn : 0 < n) :
    (spanWords off n).getLsbD i = true ↔ off < 4 * i + 4 ∧ 4 * i < off + n := by
  have bit (j : Nat) (hj : j < 4) : (bits (spanBytes off n) (4 * i) 4).getLsbD j = (decide (off ≤ 4 * i + j) && decide (4 * i + j < off + n)) := by
    rw [BitVec.getLsbD_extractLsb', spanBytes_getLsbD _ _ (by omega)]
    simp [hj]
  rw [spanWords, touched_getLsbD _ h, Bool.not_eq_true', decide_eq_false_iff_not]
  constructor
  · intro some
    by_contra none
    refine some (BitVec.eq_of_getLsbD_eq fun j hj => ?_)
    rw [bit j hj]
    simp
    omega
  · rintro ⟨hlo, hhi⟩ none
    have := bit (off - 4 * i) (by omega)
    rw [none] at this
    simp at this
    omega

/-! ## Bytes of the line -/

/-- Byte i of a line or a register as its number's. -/
theorem extractByte_toNat {w : Nat} (x : BitVec w) (i : Nat) : (x.extractLsb' (8 * i) 8).toNat = x.toNat / 2 ^ (8 * i) % 256 :=
  bits_toNat x (8 * i) 8

/-- Byte i of a line after n bytes from off on have become those of a register (R228). -/
theorem storedLine_byte (d : LineData) (v : Word) (off : Nat) {n i : Nat} (hi : i < 128) :
    (blend (byteBits (spanBytes off n)) d (placeBytes (v.toNat % 2 ^ (8 * n)) 0 off n)).extractLsb' (8 * i) 8 =
      if off ≤ i ∧ i < off + n then v.extractLsb' (8 * (i - off)) 8 else d.extractLsb' (8 * i) 8 := by
  refine BitVec.eq_of_toNat_eq ?_
  rw [extractByte_toNat, lineByte_blend _ _ _ hi]
  by_cases inside : off ≤ i ∧ i < off + n
  · have low : 8 * (i - off) + 8 ≤ 8 * n := by omega
    rw [if_pos inside, if_pos inside, extractByte_toNat, Nat.zero_add]
    refine Nat.eq_of_testBit_eq fun j => ?_
    rw [show 256 = 2 ^ 8 by rfl, Nat.testBit_mod_two_pow, Nat.testBit_mod_two_pow, Nat.testBit_div_two_pow, Nat.testBit_div_two_pow,
      Nat.testBit_mod_two_pow]
    by_cases hj : j < 8
    · simp [show j + 8 * (i - off) < 8 * n by omega]
    · simp [hj]
  · rw [if_neg inside, if_neg inside, extractByte_toNat]

/-! ## What LDL gives -/

/-- A load extends the bytes of its size; those of the full size are the whole register. -/
theorem extendLoad_eq {k : Nat} (hk : k ≤ 3) (signed : Bool) (v : Word) :
    extendLoad (2 ^ k) signed v = if signed then sext (bits v 0 (8 * 2 ^ k)) else zext (bits v 0 (8 * 2 ^ k)) := by
  have whole : bits v 0 64 = v := BitVec.extractLsb'_eq_self
  have full : v = if signed then sext (bits v 0 64) else zext (bits v 0 64) := by
    rw [whole, sext, zext, BitVec.signExtend_eq, BitVec.setWidth_eq, ite_self]
  interval_cases k
  · rfl
  · rfl
  · rfl
  · exact full

/-- The low bits of a register that holds a small number are that number, with or without its sign. -/
theorem sext_low {w raw : Nat} (hw : w ≤ 64) (h : raw < 2 ^ w) : sext (bits (BitVec.ofNat 64 raw) 0 w) = BitVec.ofInt 64 ((raw : Int).bmod (2 ^ w)) := by
  have small : raw < 2 ^ 64 := Nat.lt_of_lt_of_le h (Nat.pow_le_pow_right (by decide) hw)
  rw [sext, BitVec.signExtend, BitVec.toInt_eq_toNat_bmod, bits_zero_toNat, BitVec.toNat_ofNat, Nat.mod_eq_of_lt small, Nat.mod_eq_of_lt h]
theorem zext_low {w raw : Nat} (hw : w ≤ 64) (h : raw < 2 ^ w) : zext (bits (BitVec.ofNat 64 raw) 0 w) = BitVec.ofInt 64 raw := by
  have small : raw < 2 ^ 64 := Nat.lt_of_lt_of_le h (Nat.pow_le_pow_right (by decide) hw)
  refine BitVec.eq_of_toNat_eq ?_
  rw [zext, BitVec.toNat_setWidth, bits_zero_toNat, BitVec.toNat_ofNat, Nat.mod_eq_of_lt small, Nat.mod_eq_of_lt h, BitVec.ofInt_natCast,
    BitVec.toNat_ofNat]

/-- The value of a load: its bytes, with the sign that its size code asks for (R228). -/
theorem extendLoad_value (sz : BitVec 3) {raw : Nat} (h : raw < 2 ^ (8 * 2 ^ (sz.toNat / 2))) :
    extendLoad (sizeOf sz) (sizeSigned sz) (BitVec.ofNat 64 raw) =
      BitVec.ofInt 64 (if sz.toNat % 2 = 0 then (raw : Int).bmod (2 ^ (8 * 2 ^ (sz.toNat / 2))) else raw) := by
  have small : sz.toNat / 2 ≤ 3 := by have := sz.isLt; omega
  have width : 8 * 2 ^ (sz.toNat / 2) ≤ 64 := Nat.mul_le_mul_left 8 (Nat.pow_le_pow_right (by decide) small : _ ≤ 2 ^ 3)
  rw [sizeOf, sizeSigned, extendLoad_eq small, sext_low width h, zext_low width h]
  by_cases even : sz.toNat % 2 = 0
  · simp [even]
  · simp [even]

/-! ## LDL and STL -/

theorem exec_ldl (f : CM) (s : State) : exec (.ldl f) s = finish (do
    let p ← accessPtr f (· = 1)
    afterStores p (sizeOf f.sz)
    let v ← loadLocal p (addrOf p) (sizeOf f.sz)
    wsLat 4 f.d (extendLoad (sizeOf f.sz) (sizeSigned f.sz) (BitVec.ofNat 64 v))) s := rfl
theorem exec_stl (f : CM) (s : State) : exec (.stl f) s = finish (do
    let v ← storeVal f
    let p ← accessPtr f (· = 1)
    afterStores p (sizeOf f.sz)
    storeLocal p (addrOf p) (sizeOf f.sz) v) s := rfl

/-- An aligned access touches one line: it is pinned with that line, and reads and writes that line (R114). -/
theorem pinnedSpan_aligned (x : Tile) {o : Nat} (sz : BitVec 3) (h : o % 2 ^ (sz.toNat / 2) = 0) : x.pinnedSpan o (sizeOf sz) = x.pinnedAt o := by
  rw [Tile.pinnedSpan, sizeOf, pieces_within (Nat.two_pow_pos _) (aligned_within sz h), List.all_cons, List.all_nil, Bool.and_true]
theorem localRead_aligned (x : Tile) {o : Nat} (sz : BitVec 3) (h : o % 2 ^ (sz.toNat / 2) = 0) :
    x.localRead o (sizeOf sz) = (x.pin (o / 128)).data.toNat / 2 ^ (8 * (o % 128)) % 2 ^ (8 * 2 ^ (sz.toNat / 2)) :=
  (localRead_eq ..).trans (bytesAt_line x (aligned_within sz h))
theorem localWrite_aligned (x : Tile) {o : Nat} (sz : BitVec 3) (h : o % 2 ^ (sz.toNat / 2) = 0) (v : Nat) : x.localWrite o (sizeOf sz) v =
    x.localLine (o / 128) (spanBytes (o % 128) (sizeOf sz)) (placeBytes v 0 (o % 128) (sizeOf sz)) := by
  rw [Tile.localWrite, sizeOf, pieces_within (Nat.two_pow_pos _) (aligned_within sz h), List.foldl_cons, List.foldl_nil]

section
variable {s : State} (val : Word) {o n : Nat}

theorem loadLocal_run (ha : (s.ctx.pend.any fun l => l.acq) = false) (h : (s.tile s.cur).pinnedSpan o n = true) :
    loadLocal val o n s = .ok ((s.tile s.cur).localRead o n, s) := by
  simp only [loadLocal, bind_run, acquired_run ha, getT_run, h, need_true, pure_run]
theorem loadLocal_page (ha : (s.ctx.pend.any fun l => l.acq) = false) (h : (s.tile s.cur).pinnedSpan o n = false) :
    loadLocal val o n s = .error (.trap cPAGE val) := by
  simp only [loadLocal, bind_run, acquired_run ha, getT_run, h, need_false]
theorem storeLocal_run (ha : (s.ctx.pend.any fun l => l.acq) = false) (h : (s.tile s.cur).pinnedSpan o n = true) (v : Nat) :
    storeLocal val o n v s = .ok ((), s.modTile s.cur fun x => x.localWrite o n v) := by
  simp only [storeLocal, bind_run, acquired_run ha, getT_run, h, need_true, modT_run]
theorem storeLocal_page (ha : (s.ctx.pend.any fun l => l.acq) = false) (h : (s.tile s.cur).pinnedSpan o n = false) (v : Nat) :
    storeLocal val o n v s = .error (.trap cPAGE val) := by
  simp only [storeLocal, bind_run, acquired_run ha, getT_run, h, need_false]
end

section
variable {f : CM} {s : State} {p : Word} (hp : padd? (s.ctx.sreg f.a) (f.off.toInt * 2 ^ (f.sz.toNat / 2)) = some p) (hs : spaceOf p = 1)
  (hn : addrOf p % 2 ^ (f.sz.toNat / 2) = 0) (hc : s.clear = true) (ha : s.ctx.readable f.a = true)
include hp hs hn hc ha

/-- An access to scratch that passes its checks, up to what it does there. -/
theorem localAccess_run (k : Word → M α) : (do let p ← accessPtr f (· = 1); afterStores p (sizeOf f.sz); k p) s =
    k p { s with now := s.issueCycle [f.a] } := by
  obtain ⟨hv, hq, -⟩ := (clear_iff s).1 hc
  have pointer : accessPtr f (· = 1) s = .ok (p, { s with now := s.issueCycle [f.a] }) := accessPtr_run ha hp (decide_eq_true hs) hn
  have stores := afterStores_run (s := { s with now := s.issueCycle [f.a] }) hv hq p (sizeOf f.sz)
  simp only [bind_run, pointer, stores]

theorem ldl_reads (hd : s.ctx.pendingReg f.d = false) (pinned : (s.tile s.cur).pinnedAt (addrOf p) = true) :
    ∃ t, exec (.ldl f) s = .next t ∧ s.wrote t (s.issueCycle [f.a]) 4 f.d
      (extendLoad (sizeOf f.sz) (sizeSigned f.sz) (BitVec.ofNat 64 ((s.tile s.cur).localRead (addrOf p) (sizeOf f.sz)))) := by
  obtain ⟨-, -, hans⟩ := (clear_iff s).1 hc
  rw [← pinnedSpan_aligned _ f.sz hn] at pinned
  have load := loadLocal_run (s := { s with now := s.issueCycle [f.a] }) p ((answered_iff s).1 hans).2 pinned
  obtain ⟨u, run, wrote⟩ := wsLat_run (issued_now s (s.issueCycle [f.a])) 4 _ hd
  refine ⟨_, (exec_ldl f s).trans (finish_ok (t := u) ((localAccess_run hp hs hn hc ha _).trans ?_)), wrote⟩
  rw [bind_run, load]
  exact run

theorem ldl_page (unpinned : (s.tile s.cur).pinnedAt (addrOf p) = false) : s.traps (.ldl f) cPAGE p := by
  obtain ⟨-, -, hans⟩ := (clear_iff s).1 hc
  rw [← pinnedSpan_aligned _ f.sz hn] at unpinned
  have load := loadLocal_page (s := { s with now := s.issueCycle [f.a] }) p ((answered_iff s).1 hans).2 unpinned
  refine (exec_ldl f s).trans (finish_trap ((localAccess_run hp hs hn hc ha _).trans ?_))
  rw [bind_run, load]

variable (hd : s.ctx.readable f.d = true)
include hd

/-- STL is its access, once the register that it stores is ready too. -/
theorem stl_access : (do let v ← storeVal f; let p ← accessPtr f (· = 1); afterStores p (sizeOf f.sz); storeLocal p (addrOf p) (sizeOf f.sz) v) s =
    storeLocal p (addrOf p) (sizeOf f.sz) ((s.ctx.sreg f.d).toNat % 2 ^ (8 * sizeOf f.sz)) { s with now := s.issueCycle [f.d, f.a] } := by
  rw [bind_run, storeVal, bind_run, rs_now hd]
  exact localAccess_run (s := s.issueAt (s.ctx.sready.getD f.d.toNat 0)) hp hs hn hc ha _

theorem stl_writes (pinned : (s.tile s.cur).pinnedAt (addrOf p) = true) : ∃ t, exec (.stl f) s = .next t ∧
    (s.modTile s.cur fun x => x.localLine (addrOf p / 128) (spanBytes (addrOf p % 128) (sizeOf f.sz))
      (placeBytes ((s.ctx.sreg f.d).toNat % 2 ^ (8 * sizeOf f.sz)) 0 (addrOf p % 128) (sizeOf f.sz))).issued t (s.issueCycle [f.d, f.a]) := by
  obtain ⟨-, -, hans⟩ := (clear_iff s).1 hc
  rw [← pinnedSpan_aligned _ f.sz hn] at pinned
  have store := storeLocal_run (s := { s with now := s.issueCycle [f.d, f.a] }) p ((answered_iff s).1 hans).2 pinned
  simp only [localWrite_aligned _ f.sz hn] at store
  exact ⟨_, (exec_stl f s).trans (finish_ok ((stl_access hp hs hn hc ha hd).trans (store _))), issued_done (s.modTile ..) _⟩

theorem stl_page (unpinned : (s.tile s.cur).pinnedAt (addrOf p) = false) : s.traps (.stl f) cPAGE p := by
  obtain ⟨-, -, hans⟩ := (clear_iff s).1 hc
  rw [← pinnedSpan_aligned _ f.sz hn] at unpinned
  have store := storeLocal_page (s := { s with now := s.issueCycle [f.d, f.a] }) p ((answered_iff s).1 hans).2 unpinned
  exact (exec_stl f s).trans (finish_trap ((stl_access hp hs hn hc ha hd).trans (store _)))

end

end Sys2Proof.Machine
end

section
/-! CWB and CINV (R318). -/
namespace Sys2Proof.Machine

/-- CWB of a line: its dirty words are written back and stay owned. -/
def State.writeBack (s : State) (l : Line) : State :=
  ({ s with mem := writeLine s.mem l.gl (wordBytes l.dirty) l.data } : State).modTile s.cur fun x =>
    { x with lines := x.lines.map fun m => if m.gl = l.gl then { m with dirty := 0 } else m }

/-- A line leaves the tile's instruction cache. -/
def Tile.dropFetched (x : Tile) (va : Nat) : Tile := { x with icache := x.icache.filter fun l => l.va ≠ va }

theorem exec_cwb (f : CF) (s : State) : exec (.cwb f) s = finish (do
    let _ ← lineAct f fun l => upd fun s => s.writeBack l
    pure ()) s := rfl
theorem exec_cinv (f : CF) (s : State) : exec (.cinv f) s = finish (do
    let p ← lineAct f fun l => upd fun s => s.evict s.cur l
    modT fun x => x.dropFetched (addrOf p / 128)) s := rfl

/-! ## The line that they act on -/

/-- A part that reads one register issues once that is ready. -/
theorem rs_cycle {s : State} {r : BitVec 5} (h : s.ctx.readable r = true) : rs r s = .ok (s.ctx.sreg r, { s with now := s.issueCycle [r] }) := rs_now h

section
variable {f : CF} {s : State} (ha : s.ctx.readable f.a = true)
include ha

theorem lineAct_space (hs : spaceOf (s.ctx.sreg f.a) ≠ 0) (act : Line → M Unit) : lineAct f act s = .error (.trap cSPACE (s.ctx.sreg f.a)) := by
  simp only [lineAct, bind_run, rs_cycle ha, decide_eq_false hs, need_false]

variable (hs : spaceOf (s.ctx.sreg f.a) = 0)
include hs

theorem lineAct_absent (hn : (s.tile s.cur).line (addrOf (s.ctx.sreg f.a) / 128) s.ctx.asid = none) (act : Line → M Unit) :
    lineAct f act s = .ok (s.ctx.sreg f.a, { s with now := s.issueCycle [f.a] }) := by
  simp only [lineAct, bind_run, rs_cycle ha, decide_eq_true hs, need_true, getC_run, getT_run, with_now_ctx, with_now_tile, hn, pure_run]

variable {l : Line} (hl : (s.tile s.cur).line (addrOf (s.ctx.sreg f.a) / 128) s.ctx.asid = some l)
include hl

/-- A registration of the line is under way. -/
theorem lineAct_waits (hw : s.pendingWords s.cur l.gl ≠ 0) (act : Line → M Unit) :
    lineAct f act s = .error (.waitWith { s with now := s.issueCycle [f.a] }) := by
  have under : ({ s with now := s.issueCycle [f.a] } : State).pendingWords s.cur l.gl ≠ 0 := hw
  simp only [lineAct, bind_run, rs_cycle ha, decide_eq_true hs, need_true, getC_run, getT_run, with_now_ctx, with_now_tile, hl, get_run, if_pos under,
    waitKeep_run]

theorem lineAct_acts (hw : s.pendingWords s.cur l.gl = 0) {act : Line → M Unit} {t : State}
    (run : act l { s with now := s.issueCycle [f.a] } = .ok ((), t)) : lineAct f act s = .ok (s.ctx.sreg f.a, t) := by
  have settled : ¬ ({ s with now := s.issueCycle [f.a] } : State).pendingWords s.cur l.gl ≠ 0 := not_not.2 hw
  simp only [lineAct, bind_run, rs_cycle ha, decide_eq_true hs, need_true, getC_run, getT_run, with_now_ctx, with_now_tile, hl, get_run, if_neg settled,
    pure_run, run]

end

/-! ## Registrations of a line -/

theorem pendingWords_single {s : State} {h : Held} {t gl : Nat} (hs : s.held = [h]) (hr : h.registers t gl = true) : s.pendingWords t gl = h.words := by
  rw [State.pendingWords, hs, List.filter_singleton, hr]
  exact BitVec.zero_or
theorem pendingWords_unregistered {s : State} {t gl : Nat} (h : ∀ r ∈ s.held, r.registers t gl = false) : s.pendingWords t gl = 0 := by
  rw [State.pendingWords, List.filter_eq_nil_iff.2 fun r hr => by simp [h r hr]]
  rfl

/-! ## The line leaves the array -/

section
variable (s : State) (t : Nat) (l : Line)
theorem evict_cur : (s.evict t l).cur = s.cur := (congrArg State.cur (evict_pinned s t l).rest :)
theorem evict_now : (s.evict t l).now = s.now := (congrArg State.now (evict_pinned s t l).rest :)
theorem evict_ctx : (s.evict t l).ctx = s.ctx := by
  rw [State.ctx, evict_cur, show (s.evict t l).cid = s.cid from (congrArg State.cid (evict_pinned s t l).rest :)]
  exact (evict_pinned s t l).ctxAt ..
end

theorem evict_tile (s : State) (t : Nat) (l : Line) : (s.evict t l).tile t = { s.tile t with lines := (s.tile t).lines.filter fun m => m.gl ≠ l.gl } := by
  unfold State.evict
  rw [modTile_tile_same]
  simp only
  split <;> split <;> rfl

/-- What an evicted line leaves in memory: its dirty words, where none waits for its registration. -/
theorem evict_mem {s : State} {t : Nat} {l : Line} (h : s.pendingWords t l.gl = 0) :
    (s.evict t l).mem = if l.dirty = 0 then s.mem else writeLine s.mem l.gl (wordBytes l.dirty) l.data := by
  have all (w : WordMask) : w &&& ~~~0 = w := BitVec.and_allOnes
  unfold State.evict
  simp only [h, all]
  split <;> split <;> rfl

/-! ## CWB and CINV -/

section
variable {f : CF} {s : State} (ha : s.ctx.readable f.a = true)
include ha

theorem cwb_space (hs : spaceOf (s.ctx.sreg f.a) ≠ 0) : s.traps (.cwb f) cSPACE (s.ctx.sreg f.a) :=
  (exec_cwb f s).trans (finish_trap (by rw [bind_run, lineAct_space ha hs]))
theorem cinv_space (hs : spaceOf (s.ctx.sreg f.a) ≠ 0) : s.traps (.cinv f) cSPACE (s.ctx.sreg f.a) :=
  (exec_cinv f s).trans (finish_trap (by rw [bind_run, lineAct_space ha hs]))

variable (hs : spaceOf (s.ctx.sreg f.a) = 0)
include hs

theorem cwb_absent (hn : (s.tile s.cur).line (addrOf (s.ctx.sreg f.a) / 128) s.ctx.asid = none) :
    ∃ t, exec (.cwb f) s = .next t ∧ s.issued t (s.issueCycle [f.a]) :=
  ⟨_, (exec_cwb f s).trans (finish_ok (by rw [bind_run, lineAct_absent ha hs hn]; rfl)), issued_done s _⟩
theorem cinv_absent (hn : (s.tile s.cur).line (addrOf (s.ctx.sreg f.a) / 128) s.ctx.asid = none) :
    ∃ t, exec (.cinv f) s = .next t ∧ (s.modTile s.cur fun x => x.dropFetched (addrOf (s.ctx.sreg f.a) / 128)).issued t (s.issueCycle [f.a]) :=
  ⟨_, (exec_cinv f s).trans (finish_ok (by rw [bind_run, lineAct_absent ha hs hn]; exact modT_run ..)), issued_done (s.modTile ..) _⟩

variable {l : Line} (hl : (s.tile s.cur).line (addrOf (s.ctx.sreg f.a) / 128) s.ctx.asid = some l)
include hl

/-- Both wait for the home to acknowledge a registration of the line. -/
theorem cwb_waits (hw : s.pendingWords s.cur l.gl ≠ 0) : exec (.cwb f) s = .next { s with now := s.issueCycle [f.a], fate := .waited } :=
  (exec_cwb f s).trans (finish_waitWith (t := { s with now := s.issueCycle [f.a] }) (by rw [bind_run, lineAct_waits ha hs hl hw]))
theorem cinv_waits (hw : s.pendingWords s.cur l.gl ≠ 0) : exec (.cinv f) s = .next { s with now := s.issueCycle [f.a], fate := .waited } :=
  (exec_cinv f s).trans (finish_waitWith (t := { s with now := s.issueCycle [f.a] }) (by rw [bind_run, lineAct_waits ha hs hl hw]))

theorem cwb_writes (hw : s.pendingWords s.cur l.gl = 0) : ∃ t, exec (.cwb f) s = .next t ∧ (s.writeBack l).issued t (s.issueCycle [f.a]) :=
  ⟨_, (exec_cwb f s).trans (finish_ok (by rw [bind_run, lineAct_acts ha hs hl hw (upd_run ..)]; rfl)), issued_done (s.writeBack l) _⟩

theorem cinv_evicts (hw : s.pendingWords s.cur l.gl = 0) : ∃ t, exec (.cinv f) s = .next t ∧ t.fate = .done ∧ t.now = s.issueCycle [f.a] ∧
    t.ctx = s.ctx ∧ t.mem = (if l.dirty = 0 then s.mem else writeLine s.mem l.gl (wordBytes l.dirty) l.data) ∧
    t.tile s.cur = { s.tile s.cur with
      lines := (s.tile s.cur).lines.filter fun m => m.gl ≠ l.gl
      icache := (s.tile s.cur).icache.filter fun m => m.va ≠ addrOf (s.ctx.sreg f.a) / 128 } := by
  have run := lineAct_acts ha hs hl hw (act := fun l => upd fun s => s.evict s.cur l) rfl
  refine ⟨_, (exec_cinv f s).trans (finish_ok (t := (State.evict { s with now := s.issueCycle [f.a] } s.cur l).modTile s.cur
    fun x => x.dropFetched (addrOf (s.ctx.sreg f.a) / 128)) ?_), rfl, evict_now .., ?_, evict_mem (s := { s with now := s.issueCycle [f.a] }) hw, ?_⟩
  · rw [bind_run, run]
    simp only [modT_run, evict_cur]
  · rw [with_fate_ctx, modTile_ctx s.cur rfl]
    exact evict_ctx ..
  · rw [with_fate_tile, modTile_tile_same, evict_tile]
    rfl

end

/-- Settles O19: an aligned access of scratch is one of its line, and CWB and CINV act on the line that the array has, once no registration of it is
under way. -/
theorem localMemory : Obligations.LocalMemory := by
  unfold Obligations.LocalMemory
  refine ⟨fun f s p hp hs => ?_, fun f s ha => ?_⟩
  · intro n o q hn hc
    refine ⟨fun ho hpin => ?_, fun h => ?_⟩
    · have pinned : (s.tile s.cur).pinnedAt o = true := by rw [Tile.pinnedAt, hpin, decide_eq_true ho]; rfl
      refine ⟨fun hr => ?_, fun ha hd => ?_⟩
      · obtain ⟨ha, hd⟩ := canRun_cons hr
        obtain ⟨t, run, wrote⟩ := ldl_reads hp hs hn hc ha (canRun_nil hd) pinned
        rw [localRead_aligned _ f.sz hn, extendLoad_value f.sz (Nat.mod_lt _ (Nat.two_pow_pos _))] at wrote
        exact ⟨t, run, wrote⟩
      · obtain ⟨t, run, issued⟩ := stl_writes hp hs hn hc ha hd pinned
        exact ⟨t, _, spanWords (o % 128) n, run, issued, fun i hi => storedLine_byte q.data (s.ctx.sreg f.d) (o % 128) hi,
          fun i hi => spanWords_getLsbD _ _ hi (Nat.two_pow_pos _)⟩
    · have unpinned : (s.tile s.cur).pinnedAt o = false := by
        rcases h with h | h
        · rw [Tile.pinnedAt, h, Bool.and_false]
        · rw [Tile.pinnedAt, decide_eq_false (Nat.not_lt.2 h), Bool.false_and]
      exact ⟨fun ha => ldl_page hp hs hn hc ha unpinned, fun ha hd => stl_page hp hs hn hc ha hd unpinned⟩
  · intro p n
    refine ⟨fun hs => ⟨cwb_space ha hs, cinv_space ha hs⟩, fun hs => ⟨fun hnone => ⟨cwb_absent ha hs hnone, cinv_absent ha hs hnone⟩,
      fun l hl => ⟨fun h hheld hreg hwords => ?_, fun hreg => ?_, fun hreg => ?_⟩⟩⟩
    · have under : s.pendingWords s.cur l.gl ≠ 0 := by rwa [pendingWords_single hheld hreg]
      exact List.forall_mem_cons.2 ⟨⟨_, cwb_waits ha hs hl under, rfl, rfl, rfl⟩,
        List.forall_mem_singleton.2 ⟨_, cinv_waits ha hs hl under, rfl, rfl, rfl⟩⟩
    · exact cwb_writes ha hs hl (pendingWords_unregistered hreg)
    · obtain ⟨t, run, hfate, hnow, hctx, hmem, htile⟩ := cinv_evicts ha hs hl (pendingWords_unregistered fun r hr => (hreg r hr).2)
      refine ⟨t, run, hfate, hnow, hctx, hmem, ?_⟩
      rw [htile]

end Sys2Proof.Machine
end

section
/-! A mailbox for which two fills are in flight: one in the new tile of a moved context, one that waits on the tile that it has left (R177, R324). -/
namespace Sys2Proof.Machine

/-- A slot of a context of partition 1 that started on tile 1, for mailbox 0 of its control context. -/
def movedPip : Pip := { Pip.reset with st := .live, pid := 1, self := 1 }

/-- The context has moved from tile 1 to tile 0. Its slot 64 on tile 1 is LANDED, its slot 64 on tile 0 LIVE, and the mailbox empty. -/
def movedState : State := { State.reset with
  tiles := [
    (0, { Tile.reset with mode := .free, pid := 1, self := 1, origin := 1, ctxs := [(0, Ctx.reset)], pips := [(64, movedPip)] }),
    (1, { Tile.reset with pips := [(64, { movedPip with st := .landed, gen := 1, tag := 2 })] })] }

/-- The delivered value waits in its slot, behind the fill on tile 1. -/
theorem movedState_delivery_waits :
    (nextOf (exec (.pipDelivery 0 64 0 7 false) movedState)).map (fun u => ((u.tile 0).pip 64).st) = some .landed := by decide +kernel

/-- Refutes O50: its clause on a delivering store asks of the target's own tile alone that no fill waits there. A fill on the tile that the context has
left goes before (R177), and the delivered value then waits in its slot, which is not FREE. -/
theorem not_arrivalEvents : ¬ Obligations.ArrivalEvents := by
  unfold Obligations.ArrivalEvents
  intro h
  obtain ⟨-, -, pips, -⟩ := h
  obtain ⟨delivery, -⟩ := pips movedState 0 64 0 7 false
  obtain ⟨-, enters⟩ := delivery rfl rfl (by decide)
  obtain ⟨u, ⟨he, -⟩, -, hpip, -⟩ := enters (by decide +kernel) rfl rfl rfl (by decide +kernel)
  have waits := movedState_delivery_waits
  rw [he, nextOf_next, Option.map_some, hpip] at waits
  exact absurd waits (by decide +kernel)

end Sys2Proof.Machine
end

section
/-! A bound line of a compact whose home is in another package, given up where its set has no way free (R120, R126). -/
namespace Sys2Proof.Machine

/-- The first line of package 1's memory, bound to local line 0. -/
def strangeLine : PinLine := { PinLine.zero with kind := .compact, gl := some (2 ^ 45) }

/-- The lines that pre-empted partition 1 has pinned: every way of set 0. -/
def crowdedSet : Parked where
  pid := 1
  chans := Tile.reset.chans
  direct := []
  held := []
  gate := []
  joins := []
  member := none
  gang := none
  lines := (List.range 20).map fun i => (256 * i, { PinLine.zero with pid := 1 })

/-- A member whose boundary is complete. -/
def leavingMember : Member := ⟨0, 0, 0, 0, .complete false false, 0, false⟩

/-- Tile 0 is that member; its one line is HELD for it, and tile 0 owns its first word. -/
def strangeState : State := { State.reset with
  dirs := [(2 ^ 45, { Dir.reset with st := .held, owners := [⟨0, 1⟩] })]
  tiles := [(0, { Tile.reset with
    mode := .member, ctxs := [(0, Ctx.reset)], pins := [(0, strangeLine)], parked := [crowdedSet], member := some leavingMember })] }

/-- CDISS to s1. -/
def dissolveToS1 : CF := ⟨false, 1, 0, 0, 0⟩

/-- The tile's words are given back at its own package's record of the line, not at the line's home. -/
theorem strangeState_cdiss_owners :
    (nextOf (exec (.cdiss dissolveToS1) strangeState)).map (fun t => (t.dir (2 ^ 45)).owners) = some [⟨0, 1⟩] := by decide +kernel

/-- Refutes O39: its clause on CDISS does not ask that the bound line's home is in the member's package, as R120 does. Where it is not and the set has no
way free, the words leave the owner record at the visitor's slice (R84), and the home's keeps them. -/
theorem not_compacts : ¬ Obligations.Compacts := by
  unfold Obligations.Compacts
  intro h
  obtain ⟨-, -, steps⟩ := h
  obtain ⟨-, -, members⟩ := steps dissolveToS1 strangeState rfl (by decide +kernel)
  obtain ⟨complete, -⟩ := members leavingMember rfl rfl rfl
  obtain ⟨-, -, bound⟩ := complete false false rfl
  obtain ⟨t, he, -, -, -, -, -, -, -, -, -, full⟩ := bound 0 strangeLine (2 ^ 45) rfl rfl rfl rfl rfl rfl rfl (by decide)
  obtain ⟨-, howners⟩ := full (by decide +kernel)
  have kept := strangeState_cdiss_owners
  rw [he, nextOf_next, Option.map_some, howners] at kept
  exact absurd kept (by decide +kernel)

end Sys2Proof.Machine
end

section
/-! Parts that trap on an operand that is a pending load's, and accesses that fail a check before their translation (R140, R227, R230). -/
namespace Sys2Proof.Machine

/-- A meaning in sequence stops where its first part does, and goes on where that completes. -/
theorem bind_stops {x : M α} {f : α → M β} {s : State} {e : Stop} (h : x s = .error e) : (x >>= f) s = .error e := by rw [bind_run, h]

theorem bind_goes {x : M α} {f : α → M β} {s t : State} {a : α} (h : x s = .ok (a, t)) : (x >>= f) s = f a t := by rw [bind_run, h]

/-! ## Early reads -/

/-- The instruction begins by reading s[r]. -/
def readsFirst (i : Instr) (r : BitVec 5) : Prop := ∃ k : Word → M Unit, ∀ s, exec i s = finish (do let x ← rs r; k x) s

theorem readsFirst_early {i : Instr} {r : BitVec 5} (hi : readsFirst i r) {s : State} (ht : s.ctx.trust = false) (hr : s.ctx.pendingReg r = true) :
    s.traps i cEARLYREAD (BitVec.ofNat 64 r.toNat) := by
  obtain ⟨k, hk⟩ := hi
  have unreadable : s.ctx.readable r = false := by rw [Ctx.readable, hr, ht]; rfl
  rw [BitVec.ofNat_toNat]
  exact (hk s).trans (finish_trap (bind_stops (rs_early unreadable)))

/-! ## The checks of a C.M access -/

/-- The bytes of a size code, as a pointer's offset is scaled by them. -/
theorem sizeOf_int (sz : BitVec 3) : ((sizeOf sz : Nat) : Int) = 2 ^ (sz.toNat / 2) := by
  rw [sizeOf, Nat.cast_pow, Nat.cast_ofNat]

section
variable {f : CM} {s : State} (ha : s.ctx.readable f.a = true) (spaces : Nat → Bool)
include ha

theorem accessPtr_overflow (hp : padd? (s.ctx.sreg f.a) (f.off.toInt * 2 ^ (f.sz.toNat / 2)) = none) :
    accessPtr f spaces s = .error (.trap cPTROVF (s.ctx.sreg f.a)) := by
  rw [← sizeOf_int] at hp
  simp only [accessPtr, bind_run, rs_now ha, padd, hp, trap_run]

variable {p : Word} (hp : padd? (s.ctx.sreg f.a) (f.off.toInt * 2 ^ (f.sz.toNat / 2)) = some p)
include hp

theorem accessPtr_space (hs : spaces (spaceOf p) = false) : accessPtr f spaces s = .error (.trap cSPACE p) := by
  rw [← sizeOf_int] at hp
  simp only [accessPtr, bind_run, rs_now ha, padd, hp, pure_run, hs, need_false]

theorem accessPtr_align (hs : spaces (spaceOf p) = true) (hn : addrOf p % 2 ^ (f.sz.toNat / 2) ≠ 0) :
    accessPtr f spaces s = .error (.trap cALIGN p) := by
  rw [← sizeOf_int] at hp
  rw [← sizeOf] at hn
  simp only [accessPtr, bind_run, rs_now ha, padd, hp, pure_run, hs, need_true, decide_eq_false hn, need_false]

end

/-- The instruction checks the pointer of its C.M access, for the spaces that it takes, before it does anything else: it takes the trap of a failed
check, whenever it issues. -/
def checksAccess (i : Instr) (f : CM) (spaces : State → Nat → Bool) : Prop :=
  ∀ (s : State) (c : BitVec 8) (v : Word), s.ctx.readable f.d = true →
    (∀ n, accessPtr f (spaces { s with now := n }) { s with now := n } = .error (.trap c v)) → s.traps i c v

theorem checksAccess_load {i : Instr} {f : CM} {spaces : Nat → Bool} (k : Word → M Unit)
    (hi : ∀ s, exec i s = finish (do let p ← accessPtr f spaces; k p) s) : checksAccess i f fun _ => spaces := fun s _ _ _ failed =>
  (hi s).trans (finish_trap (bind_stops (failed s.now)))

theorem checksAccess_store {i : Instr} {f : CM} {spaces : State → Nat → Bool} {access : Nat → M Unit}
    (hi : ∀ s, exec i s = finish (do let v ← storeVal f; access v) s)
    (hk : ∀ v s e, accessPtr f (spaces s) s = .error e → access v s = .error e) : checksAccess i f spaces := by
  intro s c v hd failed
  have stored : storeVal f s = .ok ((s.ctx.sreg f.d).toNat % 2 ^ (8 * sizeOf f.sz), { s with now := s.issueCycle [f.d] }) := by
    rw [storeVal, bind_run, rs_cycle hd]; rfl
  exact (hi s).trans (finish_trap (by rw [bind_run, stored]; exact hk _ _ _ (failed _)))

/-- Where the value of a C.M store may go with STG (R228). -/
def stgSpaces (f : CM) (s : State) (sp : Nat) : Bool :=
  sp = 0 || (sp = 2 && sizeOf f.sz = 8) || (sp = 4 && (sizeOf f.sz = 4 || sizeOf f.sz = 8) && s.takesAperture)

theorem ldl_checks (f : CM) : checksAccess (.ldl f) f fun _ sp => sp = 1 := checksAccess_load _ fun _ => rfl
theorem stl_checks (f : CM) : checksAccess (.stl f) f fun _ sp => sp = 1 :=
  checksAccess_store (fun _ => rfl) fun _ _ _ failed => bind_stops failed
theorem ldg_checks (f : CM) : checksAccess (.ldg f) f fun _ sp => sp = 0 := checksAccess_load _ fun _ => rfl
theorem stg_checks (f : CM) : checksAccess (.stg f) f (stgSpaces f) :=
  checksAccess_store (spaces := stgSpaces f) (fun _ => rfl) fun _ _ _ failed => (bind_run ..).trans (bind_stops failed)
theorem ldacq_checks (f : CM) : checksAccess (.ldacq f) f fun _ sp => sp = 0 := checksAccess_load _ fun _ => rfl
theorem strel_checks (f : CM) : checksAccess (.strel f) f fun _ sp => sp = 0 :=
  checksAccess_store (fun _ => rfl) fun _ _ _ failed => bind_stops failed

section
variable {i : Instr} {f : CM} {spaces : State → Nat → Bool} (hi : checksAccess i f spaces) {s : State} (ha : s.ctx.readable f.a = true)
  (hd : s.ctx.readable f.d = true)
include hi ha hd

theorem checksAccess_overflow (hp : padd? (s.ctx.sreg f.a) (f.off.toInt * 2 ^ (f.sz.toNat / 2)) = none) :
    s.traps i cPTROVF (s.ctx.sreg f.a) := hi s _ _ hd fun n => accessPtr_overflow (s := { s with now := n }) ha _ hp

variable {p : Word} (hp : padd? (s.ctx.sreg f.a) (f.off.toInt * 2 ^ (f.sz.toNat / 2)) = some p)
include hp

theorem checksAccess_space (hs : ∀ t, spaces t (spaceOf p) = false) : s.traps i cSPACE p :=
  hi s _ _ hd fun n => accessPtr_space (s := { s with now := n }) ha _ hp (hs _)

theorem checksAccess_align (hs : ∀ t, spaces t (spaceOf p) = true) (hn : addrOf p % 2 ^ (f.sz.toNat / 2) ≠ 0) : s.traps i cALIGN p :=
  hi s _ _ hd fun n => accessPtr_align (s := { s with now := n }) ha _ hp (hs _) hn

end

/-! ## The checks of an AMO -/

section
variable {s : State} {f : AF} (op : Nat)

theorem amoTail_space {p : Word} (hs : spaceOf p ≠ 0) (n : Nat) (x c : Word) : amoTail op f n p x c s = .error (.trap cSPACE p) := by
  simp only [amoTail, bind_run, decide_eq_false hs, need_false]
theorem amoTail_align {p : Word} {n : Nat} (hs : spaceOf p = 0) (hn : addrOf p % n ≠ 0) (x c : Word) :
    amoTail op f n p x c s = .error (.trap cALIGN p) := by
  simp only [amoTail, bind_run, decide_eq_true hs, need_true, decide_eq_false hn, need_false]

/-- An AMO whose operands can be read traps as its checks do. -/
theorem amo_traps {c : BitVec 8} {v : Word} (ha : s.ctx.readable f.a = true) (hb : s.ctx.readable f.b = true) (hd : s.ctx.readable f.d = true)
    (failed : ∀ x y t, amoTail op f (amoSize f) (s.ctx.sreg f.a) x y t = .error (.trap c v)) :
    finish (amo op f) s = .next (s.takeTrap c v none) := by
  refine finish_trap ?_
  have third : ({ s with now := s.issueCycle [f.a, f.b] } : State).ctx.readable f.d = true := hd
  rw [amo_eq, rs_pair ha hb]
  split
  · rw [bind_run, rs_now third]
    exact failed ..
  · rw [bind_run, pure_run]
    exact failed ..

end

/-- Settles O9: an operand is read before anything else, a C.M access checks its pointer first, and an AMO once its operands are read. -/
theorem operandAndAccessChecks : Obligations.OperandAndAccessChecks := by
  unfold Obligations.OperandAndAccessChecks
  refine ⟨fun s ht => ?_, fun f s ha hd => ?_, fun f s ha hb hd => ?_⟩
  · refine ⟨fun f hr i hi => readsFirst_early ?_ ht hr, fun f hr i hi => readsFirst_early ?_ ht hr, fun f hr i hi => readsFirst_early ?_ ht hr⟩
    all_goals
      revert i
      simp only [List.forall_mem_cons, List.not_mem_nil, false_implies, implies_true, and_true]
      and_intros <;> exact ⟨_, fun _ => rfl⟩
  · intro n
    split
    case h_1 hp =>
      simp only [List.forall_mem_cons, List.not_mem_nil, false_implies, implies_true, and_true]
      exact ⟨checksAccess_overflow (ldl_checks f) ha hd hp, checksAccess_overflow (stl_checks f) ha hd hp,
        checksAccess_overflow (ldg_checks f) ha hd hp, checksAccess_overflow (stg_checks f) ha hd hp,
        checksAccess_overflow (ldacq_checks f) ha hd hp, checksAccess_overflow (strel_checks f) ha hd hp⟩
    case h_2 p hp =>
      refine ⟨fun h1 => ?_, fun h0 h2 h4 => ?_, fun h0 => ?_, fun misaligned => ?_⟩
      · have refused : ∀ t : State, decide (spaceOf p = 1) = false := fun _ => decide_eq_false h1
        exact ⟨checksAccess_space (ldl_checks f) ha hd hp refused, checksAccess_space (stl_checks f) ha hd hp refused⟩
      · exact checksAccess_space (stg_checks f) ha hd hp fun t => by simp [stgSpaces, h0, h2, h4]
      · have refused : ∀ t : State, decide (spaceOf p = 0) = false := fun _ => decide_eq_false h0
        exact ⟨checksAccess_space (ldg_checks f) ha hd hp refused, checksAccess_space (ldacq_checks f) ha hd hp refused,
          checksAccess_space (strel_checks f) ha hd hp refused⟩
      · have hn : addrOf p % 2 ^ (f.sz.toNat / 2) ≠ 0 := by
          have : ((addrOf p : Nat) : Int) % 2 ^ (f.sz.toNat / 2) ≠ 0 := misaligned
          exact_mod_cast this
        refine ⟨fun h1 => ?_, fun h0 => ?_⟩
        · have taken : ∀ t : State, decide (spaceOf p = 1) = true := fun _ => decide_eq_true h1
          exact ⟨checksAccess_align (ldl_checks f) ha hd hp taken hn, checksAccess_align (stl_checks f) ha hd hp taken hn⟩
        · have taken : ∀ t : State, decide (spaceOf p = 0) = true := fun _ => decide_eq_true h0
          simp only [List.forall_mem_cons, List.not_mem_nil, false_implies, implies_true, and_true]
          exact ⟨checksAccess_align (ldg_checks f) ha hd hp taken hn,
            checksAccess_align (stg_checks f) ha hd hp (fun t => by simp [stgSpaces, h0]) hn,
            checksAccess_align (ldacq_checks f) ha hd hp taken hn, checksAccess_align (strel_checks f) ha hd hp taken hn⟩
  · have space (op : Nat) (hs : spaceOf (s.ctx.sreg f.a) ≠ 0) := amo_traps op ha hb hd fun x y t => amoTail_space (s := t) op hs (amoSize f) x y
    have align (op : Nat) (hs : spaceOf (s.ctx.sreg f.a) = 0) (hn : addrOf (s.ctx.sreg f.a) % amoSize f ≠ 0) :=
      amo_traps op ha hb hd fun x y t => amoTail_align (s := t) op hs hn x y
    intro p
    simp only [List.forall_mem_cons, List.not_mem_nil, false_implies, implies_true, and_true]
    exact ⟨⟨space 0, align 0⟩, ⟨space 1, align 1⟩, ⟨space 2, align 2⟩, ⟨space 3, align 3⟩, ⟨space 4, align 4⟩, ⟨space 5, align 5⟩, ⟨space 6, align 6⟩,
      ⟨space 7, align 7⟩, ⟨space 8, align 8⟩, ⟨space 9, align 9⟩, ⟨space 10, align 10⟩, ⟨space 11, align 11⟩⟩

end Sys2Proof.Machine
end

section
/-! Mailboxes and masks on the scalar side: MBW, MBTEST, MBR, KGET and KSET (R132, R133, R235, R236). -/
namespace Sys2Proof.Machine

/-- MBR once its mailbox is there: it empties it, and writes value and tag. -/
def takeMailbox (f : CF) (m : Mailbox) : M Unit := do
  emptyMailbox f.p5.toNat
  ws f.d m.val
  ws f.b (zext m.tag)

theorem exec_mbw (f : CF) (s : State) : exec (.mbw f) s = finish (do
    let a ← rs f.a
    fillMailbox f.p5.toNat 2 a) s := rfl
theorem exec_mbtest (f : CF) (s : State) : exec (.mbtest f) s = finish (do
    let m ← mailbox f.p5.toNat
    upd fun s => s.issueAt m.ready
    ws f.d (ofBool m.full)) s := rfl
theorem exec_mbr (f : CF) (s : State) : exec (.mbr f) s = finish (do
    let m ← mailbox f.p5.toNat
    if !m.full then block (zext f.p5)
    upd fun s => s.issueAt m.ready
    if m.src && m.tag = 0 then flash
    takeMailbox f m) s := rfl
theorem exec_kget (f : CF) (s : State) : exec (.kget f) s = finish (do
    upd fun s => s.issueAt (s.ctx.kreg f.p5.toNat).ready
    let k ← getC
    ws f.d (k.kreg f.p5.toNat).val) s := rfl
theorem exec_kset (f : CF) (s : State) : exec (.kset f) s = finish (do
    let a ← rs f.a
    upd fun s => s.setCtx (s.ctx.writeKreg s.compute f.p5.toNat a s.now)) s := rfl

/-! ## Mailboxes -/

/-- Mailbox j of a context. -/
def Ctx.mailbox (k : Ctx) (j : Nat) : Mailbox := k.mbs.getD j Mailbox.reset

/-- A context whose mailbox j has been read (R132). -/
def Ctx.emptied (k : Ctx) (j : Nat) : Ctx := { k with mbs := k.mbs.setIfInBounds j { k.mailbox j with full := false } }

theorem ofBool_eq (b : Bool) : ofBool b = if b then 1 else 0 := by cases b <;> rfl

theorem mailbox_run (j : Nat) (s : State) : mailbox j s = .ok (s.ctx.mailbox j, s) := rfl

/-- MBW fills the mailbox, an event that wakes a context (R314). -/
theorem mbw_fills {f : CF} {s : State} (ha : s.ctx.readable f.a = true) : ∃ t, exec (.mbw f) s = .next t ∧
    (s.setCtx (s.ctx.setMailbox f.p5.toNat (s.ctx.sreg f.a) (s.issueCycle [f.a] + 2)).woken).issued t (s.issueCycle [f.a]) := by
  refine ⟨_, (exec_mbw f s).trans (finish_ok (t := { s.setCtx _ with now := s.issueCycle [f.a] }) ?_), issued_done (s.setCtx _) _⟩
  rw [bind_run, rs_cycle ha]
  exact (upd_run ..).trans (congrArg (fun t => Except.ok ((), t)) (wake_setCtx { s with now := s.issueCycle [f.a] } _))

theorem mbtest_reads {f : CF} {s : State} (hd : s.canRun [] f.d = true) : ∃ t, exec (.mbtest f) s = .next t ∧
    s.wrote t (max s.now (s.ctx.mailbox f.p5.toNat).ready) 1 f.d (ofBool (s.ctx.mailbox f.p5.toNat).full) := by
  obtain ⟨u, run, wrote⟩ := wsLat_run (issued_now s (max s.now (s.ctx.mailbox f.p5.toNat).ready)) 1 (ofBool (s.ctx.mailbox f.p5.toNat).full)
    (canRun_nil hd)
  refine ⟨_, (exec_mbtest f s).trans (finish_ok (t := u) ?_), wrote⟩
  rw [bind_run, mailbox_run]
  exact run

/-- MBR of an empty mailbox (R214, R235). -/
theorem mbr_empty {f : CF} {s : State} {e : Stop} (hm : (s.ctx.mailbox f.p5.toNat).full = false)
    (blocked : (block (zext f.p5) : M Unit) s = .error e) : exec (.mbr f) s = .next (settleStop s (.error e)) := by
  rw [exec_mbr, finish, bind_run, mailbox_run]
  simp only [hm, Bool.not_false, if_true]
  rw [bind_stops blocked]

/-- With no pip that has landed, a mailbox that is emptied stays empty. -/
theorem emptyMailbox_run {s : State} (hp : ((s.tile s.cur).pips.all fun e => e.2.st ≠ .landed) = true) (j : Nat) :
    emptyMailbox j s = .ok ((), s.setCtx (s.ctx.emptied j)) := by
  simp only [emptyMailbox, bind_run, modC_run, upd_run, setCtx_cur, setCtx_cid]
  rw [pipTurn_calm (by rw [setCtx_pips]; exact hp)]
  rfl

/-- A register that no pending load names is written after another write of the same part. -/
theorem wrote_again {s u : State} {n lat : Nat} {c d : BitVec 5} {v : Word} (h : s.wrote { u with fate := .done } n lat c v)
    (hd : s.ctx.pendingReg d = false) (w : Word) : ∃ t, wsLat lat d w u = .ok ((), t) ∧
      ({ u with fate := .done } : State).wrote { t with fate := .done } n lat d w := by
  obtain ⟨rest, own, -⟩ := h
  have now : u.now = n := congrArg State.now rest
  have free : u.ctx.pendingReg d = false := by
    rw [show u.ctx = _ from own]
    exact hd
  obtain ⟨t, run, wrote⟩ := wsLat_run (issued_refl u) lat w free
  exact ⟨t, run, now ▸ wrote⟩

theorem takeMailbox_run {f : CF} {e : State} (hd : e.ctx.pendingReg f.d = false) (hb : e.ctx.pendingReg f.b = false)
    (hp : ((e.tile e.cur).pips.all fun x => x.2.st ≠ .landed) = true) (m : Mailbox) (n : Nat) : ∃ u t : State,
    takeMailbox f m { e with now := n } = .ok ((), t) ∧ (e.setCtx (e.ctx.emptied f.p5.toNat)).wrote { u with fate := .done } n 1 f.d m.val ∧
      ({ u with fate := .done } : State).wrote { t with fate := .done } n 1 f.b (zext m.tag) := by
  obtain ⟨u, value, wrote⟩ := wsLat_run (issued_now (e.setCtx (e.ctx.emptied f.p5.toNat)) n) 1 m.val (by rw [setCtx_ctx]; exact hd)
  obtain ⟨t, tag, wroteTag⟩ := wrote_again wrote (d := f.b) (by rw [setCtx_ctx]; exact hb) (zext m.tag)
  refine ⟨u, t, ?_, wrote, wroteTag⟩
  rw [takeMailbox, bind_run, emptyMailbox_run (s := { e with now := n }) hp]
  exact (bind_goes value).trans tag

/-- The tile after MBR of mailbox m: a value of TAG 0 that a pip has delivered acquires (R235). -/
def State.acquiredFrom (s : State) (m : Mailbox) (n : Nat) : State := if m.src && m.tag = 0 then s.flashed n else s

/-- MBR of a full mailbox writes its value and its tag, and empties it. -/
theorem mbr_takes {f : CF} {s : State} (hm : (s.ctx.mailbox f.p5.toNat).full = true) (hd : s.canRun [] f.d = true) (hb : s.canRun [] f.b = true)
    (hp : ((s.tile s.cur).pips.all fun e => e.2.st ≠ .landed) = true) :
    let m := s.ctx.mailbox f.p5.toNat
    let n := max s.now m.ready
    ∃ u t, exec (.mbr f) s = .next t ∧ ((s.acquiredFrom m n).setCtx (s.ctx.emptied f.p5.toNat)).wrote u n 1 f.d m.val ∧
      u.wrote t n 1 f.b (zext m.tag) := by
  intro m n
  have goes {t : State} (h : (do
      if m.src && m.tag = 0 then flash
      takeMailbox f m) { s with now := n } = .ok ((), t)) : exec (.mbr f) s = .next { t with fate := .done } := by
    refine (exec_mbr f s).trans (finish_ok ?_)
    rw [bind_run, mailbox_run]
    simp only [hm, Bool.not_true, Bool.false_eq_true, if_false]
    exact h
  rw [State.acquiredFrom]
  split
  case isTrue acquires =>
    have ctx : (s.flashed n).ctx = s.ctx := modTile_ctx s.cur rfl
    have pips : ((s.flashed n).tile s.cur).pips = (s.tile s.cur).pips := by rw [State.flashed, modTile_tile_same]
    obtain ⟨u, t, run, value, tag⟩ := takeMailbox_run (e := s.flashed n) (ctx ▸ canRun_nil hd) (ctx ▸ canRun_nil hb) (pips ▸ hp) m n
    rw [ctx] at value
    exact ⟨_, _, goes (by rw [if_pos acquires]; exact run), value, tag⟩
  case isFalse none =>
    obtain ⟨u, t, run, value, tag⟩ := takeMailbox_run (canRun_nil hd) (canRun_nil hb) hp m n
    exact ⟨_, _, goes (by rw [if_neg none]; exact run), value, tag⟩

/-! ## Masks -/

theorem kget_reads {f : CF} {s : State} (hd : s.canRun [] f.d = true) : ∃ t, exec (.kget f) s = .next t ∧
    s.wrote t (max s.now (s.ctx.kreg f.p5.toNat).ready) 1 f.d (s.ctx.kreg f.p5.toNat).val := by
  obtain ⟨u, run, wrote⟩ := wsLat_run (issued_now s (max s.now (s.ctx.kreg f.p5.toNat).ready)) 1 (s.ctx.kreg f.p5.toNat).val (canRun_nil hd)
  exact ⟨_, (exec_kget f s).trans (finish_ok (t := u) run), wrote⟩

theorem kset_writes {f : CF} {s : State} (ha : s.ctx.readable f.a = true) : ∃ t, exec (.kset f) s = .next t ∧
    (s.setCtx (s.ctx.writeKreg s.compute f.p5.toNat (s.ctx.sreg f.a) (s.issueCycle [f.a]))).issued t (s.issueCycle [f.a]) := by
  refine ⟨_, (exec_kset f s).trans (finish_ok (t := { s.setCtx _ with now := s.issueCycle [f.a] }) ?_), issued_done (s.setCtx _) _⟩
  rw [bind_run, rs_cycle ha]
  rfl

/-- A mask's write, also in the registers that later units had before it (R137). -/
theorem writeKreg_eq (k : Ctx) (compute : Bool) (n : Nat) (v : Word) (ready : Nat) :
    let put := fun (ks : Vector KReg 3) => ks.setIfInBounds (n - 1) ⟨v, ready, (k.kreg n).val⟩
    k.writeKreg compute n v ready = { k with
      kregs := put k.kregs, backlog := if compute then k.backlog.map fun q => { q with kregs := put q.kregs } else k.backlog } := by
  cases compute <;> rfl

/-- Settles O14: each of the five is a read or a write of one register, with the mailbox or mask beside it. -/
theorem mailboxesAndMasks : Obligations.MailboxesAndMasks := by
  unfold Obligations.MailboxesAndMasks
  refine ⟨fun f s => ⟨fun ha _ => mbw_fills ha, fun hd => ?_, fun hm hd hb hp => ?_, fun hm hc => ?_, fun hm hc => ?_⟩,
    fun f s _ _ => ⟨kget_reads, fun ha => ?_⟩⟩
  · obtain ⟨t, run, wrote⟩ := mbtest_reads hd
    rw [ofBool_eq] at wrote
    exact ⟨t, run, wrote⟩
  · obtain ⟨u, t, run, value, tag⟩ := mbr_takes hm hd hb hp
    rw [zext_eq] at tag
    exact ⟨u, t, run, value, tag⟩
  · exact mbr_empty hm (block_control _ hc)
  · rw [← zext_eq]
    exact mbr_empty hm (block_helper _ hc)
  · obtain ⟨t, run, issued⟩ := kset_writes ha
    refine ⟨t, run, ?_⟩
    rw [writeKreg_eq] at issued
    exact issued

end Sys2Proof.Machine
end

section
/-! A pre-empted tile whose matrix engine has accepted an MSTORE to space 0 and knows where its lines lie (R150, R160, R281, R347). -/
namespace Sys2Proof.Machine

/-- MSTORE (LOP 0x14) of 2,048 i8 values at address 0, with the 16 lines that its acceptance found. -/
def acceptedStore : MCmd := ⟨0x85000000, 0, 0x0800000000000000, 0, 0, 0, 0, (List.range 16).map fun i => some (128 * i)⟩

/-- The cluster beside tile 0's, as a partition of its own: it has halted on every tile but tile 8. -/
def storingPartition : Partition := ⟨2, .live, 0, [], 0, 0, (List.range 8).map (· + 8), (List.range 7).map (· + 9), [], 0⟩

/-- The line with the shape of that cluster, and ASID 0. -/
def shapeLine : Line := ⟨1, 0, 1, BitVec.allOnes 32, 0, 0, 7, BitVec.ofNat 1024 (2 ^ 33 + 2 ^ 36 + 2 ^ 42)⟩

/-- The supervisor on tile 0 is to pre-empt the partition, whose shape s1 names. Tile 8 has the MSTORE in its queue. -/
def preemptingState : State := { State.reset with
  partitions := [storingPartition]
  tiles := (0, { Tile.reset with
      mode := .free, ctxs := [(0, { Ctx.reset with priv := true, sregs := (Vector.replicate 32 0).set 1 0x80 })], lines := [shapeLine] }) ::
    (8, { Tile.reset with
      mode := .free, pid := 2, self := 8, origin := 8, ctxs := [(0, Ctx.reset)], engine := { Engine.reset with queue := [acceptedStore] } }) ::
    (List.range 7).map fun i => (i + 9, { Tile.reset with pid := 2 }) }

/-- PREEMPT of the shape at s1, its outcome to s3. -/
def preemptShape : CF := ⟨false, 3, 1, 0, 0⟩

/-- MQUEUE has no field for the lines (R347): in the image the command is without them. -/
theorem preemptingState_saved_queue :
    (nextOf (exec (.preempt preemptShape) preemptingState)).map (fun t => (t.tile 8).save.map fun im => im.engine.queue) =
      some (some [{ acceptedStore with addrs := [] }]) := by decide +kernel

theorem preemptingState_cached : preemptingState.cached (preemptingState.ctx.sreg 1) 24 shapeLine := by
  unfold State.cached
  decide +kernel

/-- The partition's one context is at a unit boundary, with nothing under way. -/
theorem preemptingState_ctx {u c : Nat} (hu : u ∈ storingPartition.tiles) (hc : mhas (preemptingState.tile u).ctxs c = true) :
    preemptingState.ctxAt u c = Ctx.reset := by
  have tiles : ∀ u ∈ storingPartition.tiles, (preemptingState.tile u).ctxs = if u = 8 then [(0, Ctx.reset)] else [] := by decide +kernel
  rw [State.ctxAt, Tile.ctx, tiles u hu]
  rw [tiles u hu] at hc
  split at hc
  case isTrue e =>
    have main : c = 0 := by
      simp only [mhas, List.any_cons, List.any_nil, Bool.or_false, beq_iff_eq] at hc
      exact hc.symm
    rw [if_pos e, main]
    rfl
  case isFalse => exact absurd hc Bool.false_ne_true

/-- Refutes O46: its clause on PREEMPT has the image hold the tile's matrix engine as it is. An MSTORE or MLOAD to space 0 that the engine has accepted
keeps the lines that its acceptance found, and the image, which has no field for them, is without them: they are found anew after resumption. -/
theorem not_images : ¬ Obligations.Images := by
  unfold Obligations.Images
  intro h
  obtain ⟨-, -, preempt, -⟩ := h
  obtain ⟨-, -, goes⟩ := preempt preemptShape preemptingState shapeLine rfl (by decide +kernel)
  obtain ⟨-, saves⟩ := goes (by decide +kernel) preemptingState_cached (by decide +kernel)
  have calm : ∀ u ∈ storingPartition.tiles, (preemptingState.tile u).pid = storingPartition.pid ∧ (preemptingState.tile u).member = none ∧
      (preemptingState.tile u).engine.outgoing = none := by decide +kernel
  obtain ⟨t, he, -, -, -, -, images⟩ := saves storingPartition (by decide +kernel) (by decide +kernel) (by decide +kernel) (by decide +kernel)
    (fun u hu => by
      obtain ⟨hpid, hmember, hout⟩ := calm u hu
      refine ⟨hpid, hmember, hout, fun c hc => ?_⟩
      rw [preemptingState_ctx hu hc]
      decide +kernel)
    (by decide +kernel)
  obtain ⟨-, -, im, hsave, -, -, hengine, -⟩ := images 8 (by decide) (by decide +kernel)
  have saved := preemptingState_saved_queue
  rw [he, nextOf_next, Option.map_some, hsave, Option.map_some, hengine] at saved
  exact absurd saved (by decide +kernel)

end Sys2Proof.Machine
end

section
/-! The matrix engine's commands at their issue: what they check, wait for and enter (R150, R276 to R283). -/
namespace Sys2Proof.Machine

/-! ## The checks of a command -/

theorem needGeom_true {ok : Bool} (h : ok = true) (s : State) : needGeom ok s = .ok ((), s) := by rw [h]; rfl
theorem needGeom_false {ok : Bool} (h : ok = false) (s : State) : needGeom ok s = .error (.trap cBADGEOM s.ctx.unit) := by rw [h]; rfl

/-- Two checks of a command's operands, one after the other, are one. -/
theorem needGeom_and (a b : Bool) (k : Unit → M α) : (needGeom a >>= fun _ => needGeom b >>= k) = needGeom (a && b) >>= k := by
  funext s
  cases a <;> rfl

/-- A check that is left out where it does not apply. -/
theorem ite_then (c : Prop) [Decidable c] (x : M Unit) (k : Unit → M α) :
    (if c then x >>= k else k ()) = (if c then x else pure ()) >>= k := by
  split <;> rfl

/-- A range whose bytes are all pinned passes the check of its lines. -/
theorem pinnedRange_of_holds {x : Tile} {o n : Nat} (hn : 0 < n) (h : x.holds o n) : x.pinnedRange o n = true := by
  have last : o + n ≤ 0xA0000 := by
    have := (h (n - 1) (by omega)).1
    omega
  rw [Tile.pinnedRange, Bool.and_eq_true, decide_eq_true_eq, Tile.pinnedSpan, List.all_eq_true]
  refine ⟨last, fun q hq => ?_⟩
  rw [pieces_eq] at hq
  obtain ⟨m, hm, rfl⟩ := List.mem_map.1 hq
  have inside : pieceEnd o n m < n := by
    have := List.mem_range.1 hm
    unfold pieceCount at this
    unfold pieceEnd
    split at this <;> omega
  rw [Tile.pinnedAt, Bool.and_eq_true, decide_eq_true_eq]
  exact h _ inside

theorem needPinned_run {s : State} {p : Word} {n : Nat} (hn : 0 < n) (h : (s.tile s.cur).holds (addrOf p) n) : needPinned p n s = .ok ((), s) := by
  rw [needPinned, bind_run, getT_run]
  simp only [pinnedRange_of_holds hn h, need_true]

/-- A scale plane and the 64 bytes before it are pinned, or there is none. -/
def Tile.holdsPlane (x : Tile) (p n : Nat) : Prop := p = 0 ∨ x.holds (64 * p) (64 + n)

theorem addrOf_planePtr {p : Nat} (h : p < 4096) : addrOf (planePtr p) = 64 * p := by
  rw [addrOf, planePtr, bits_zero_toNat, BitVec.toNat_ofNat]
  omega

theorem needPlane_run {s : State} {p n : Nat} (hp : p < 4096) (h : (s.tile s.cur).holdsPlane p n) : needPlane p n s = .ok ((), s) := by
  rw [needPlane]
  split
  case isTrue => rfl
  case isFalse used =>
    refine needPinned_run (by omega) ?_
    rw [addrOf_planePtr hp]
    exact h.resolve_left used

/-! ## Entering the queue -/

/-- s with a command of the issuing unit at the end of its tile's queue, and the engine changed by g. -/
def State.queued (s : State) (g : Engine → Engine) (ra rb rc : Word) (addrs : List (Option Nat)) : State := s.modTile s.cur fun x =>
  { x with engine := g { x.engine with queue := x.engine.queue ++ [⟨s.ctx.unit, s.ctx.upc, ra, rb, rc, 0, s.ctx.useq, addrs⟩] } }

theorem queued_engine (s : State) (g : Engine → Engine) (ra rb rc : Word) (addrs : List (Option Nat)) :
    ((s.queued g ra rb rc addrs).tile s.cur).engine = g { (s.tile s.cur).engine with
      queue := (s.tile s.cur).engine.queue ++ [⟨s.ctx.unit, s.ctx.upc, ra, rb, rc, 0, s.ctx.useq, addrs⟩] } := by
  rw [State.queued, modTile_tile_same]

theorem accept_run (ra rb rc : Word) (addrs : List (Option Nat)) (s : State) : accept ra rb rc addrs s = .ok ((), s.queued id ra rb rc addrs) := rfl

/-- A command enters the queue, and changes its engine with that. -/
def acceptWith (g : Engine → Engine) (ra rb rc : Word) : M Unit := do
  accept ra rb rc []
  modT fun x => { x with engine := g x.engine }

theorem acceptWith_run (g : Engine → Engine) (ra rb rc : Word) (s : State) : acceptWith g ra rb rc s = .ok ((), s.queued g ra rb rc []) :=
  congrArg (fun t => Except.ok ((), t)) (modTile_modTile s s.cur _ _)

/-! ## From a command's operands to its outcome -/

/-- The instruction does what k does in cycle n, its operands read. -/
def State.does (s : State) (i : Instr) (n : Nat) (k : M Unit) : Prop := exec i s = .next (settleStop s (k { s with now := n }))

section
variable {i : Instr} {m k : M Unit} {s : State} {n : Nat}

theorem does_of_run (he : exec i s = finish m s) (run : m s = k { s with now := n }) : s.does i n k :=
  he.trans (congrArg (fun r => Host.Outcome.next (settleStop s r)) run)

variable (h : s.does i n k)
include h

theorem State.does.traps {c : BitVec 8} {v : Word} (hk : k { s with now := n } = .error (.trap c v)) : s.traps i c v :=
  Eq.trans h (congrArg (fun r => Host.Outcome.next (settleStop s r)) hk)

theorem State.does.next {t : State} (hk : k { s with now := n } = .ok ((), t)) : exec i s = .next { t with fate := .done } :=
  Eq.trans h (congrArg (fun r => Host.Outcome.next (settleStop s r)) hk)

theorem State.does.queues {g : Engine → Engine} {ra rb rc : Word} {addrs : List (Option Nat)}
    (hk : k { s with now := n } = .ok ((), ({ s with now := n } : State).queued g ra rb rc addrs)) :
    ∃ t, exec i s = .next t ∧ (s.queued g ra rb rc addrs).issued t n :=
  ⟨_, h.next hk, issued_done (s.queued g ra rb rc addrs) n⟩

end

/-- The control context may issue a matrix command: no vector store of it waits, and the queue has room. -/
structure State.TakesCommand (s : State) : Prop where
  control : s.cid = 0
  stores : s.ctx.vsta = []
  room : (s.tile s.cur).engine.queue.length < 2

theorem notHelper_run {s : State} (h : s.cid = 0) (group : Word) : notHelper group s = .ok ((), s) := by
  rw [notHelper, bind_run, inHelper_run, h]
  rfl

theorem matrixReady_full {s : State} (hc : s.cid = 0) (h : 2 ≤ (s.tile s.cur).engine.queue.length) : matrixReady s = .error .wait := by
  rw [matrixReady, bind_goes (notHelper_run hc _), bind_goes (getT_run s), if_pos h]
  rfl

theorem matrixReady_run {s : State} (h : s.TakesCommand) : matrixReady s = .ok ((), s) := by
  rw [matrixReady, bind_goes (notHelper_run h.control _), bind_goes (getT_run s), if_neg (Nat.not_le.2 h.room)]
  exact performPairs_none h.stores 8

/-- A command that finds the queue full waits, whatever it is. -/
theorem command_waits {i : Instr} {k : M Unit} {s : State} (he : exec i s = finish (do matrixReady; k) s) (hc : s.cid = 0)
    (h : 2 ≤ (s.tile s.cur).engine.queue.length) : s.waits i :=
  he.trans (finish_wait (bind_stops (matrixReady_full hc h)))

section
variable {i : Instr} {s : State} (h : s.TakesCommand)
include h

theorem command_does {k : M Unit} (he : exec i s = finish (do matrixReady; k) s) : s.does i s.now k :=
  does_of_run he (bind_goes (matrixReady_run h))

theorem command_does_one {a : BitVec 5} {k : Word → M Unit} (he : exec i s = finish (do matrixReady; let x ← rs a; k x) s)
    (ha : s.ctx.readable a = true) : s.does i (s.issueCycle [a]) (k (s.ctx.sreg a)) :=
  does_of_run he ((bind_goes (matrixReady_run h)).trans (bind_goes (rs_cycle ha)))

theorem command_does_two {a b : BitVec 5} {k : Word → Word → M Unit}
    (he : exec i s = finish (do matrixReady; let x ← rs a; let y ← rs b; k x y) s) (ha : s.ctx.readable a = true) (hb : s.ctx.readable b = true) :
    s.does i (s.issueCycle [a, b]) (k (s.ctx.sreg a) (s.ctx.sreg b)) :=
  does_of_run he ((bind_goes (matrixReady_run h)).trans (rs_pair ha hb k))

theorem command_does_three {a b c : BitVec 5} {k : Word → Word → Word → M Unit}
    (he : exec i s = finish (do matrixReady; let x ← rs a; let y ← rs b; let z ← rs c; k x y z) s)
    (ha : s.ctx.readable a = true) (hb : s.ctx.readable b = true) (hc : s.ctx.readable c = true) :
    s.does i (s.issueCycle [a, b, c]) (k (s.ctx.sreg a) (s.ctx.sreg b) (s.ctx.sreg c)) := by
  have third : rs c { s with now := s.issueCycle [a, b] } = .ok (s.ctx.sreg c, { s with now := s.issueCycle [a, b, c] }) :=
    rs_now (s := { s with now := s.issueCycle [a, b] }) hc
  refine does_of_run he ((bind_goes (matrixReady_run h)).trans ((rs_pair ha hb fun x y => do let z ← rs c; k x y z).trans ?_))
  exact bind_goes third

end

/-! ## Commands without operands: MBEGIN, MEND, MZERO, MROT and MSYNC (R157, R158, R280, R283) -/

/-- A command without operands, under a check of its engine. -/
def bareCommand (ok : Engine → Bool) (g : Engine → Engine) : M Unit := do
  let x ← getT
  needGeom (ok x.engine)
  acceptWith g 0 0 0

/-- MROT: a command of a tile whose ring is well formed (R153, R280). -/
def ringCommand : M Unit := do
  let s ← get
  needGeom (!(s.tile s.cur).engine.ringBad (memberOf s.cur))
  accept 0 0 0 []

theorem exec_mbegin (f : CF) (s : State) : exec (.mbegin f) s = finish (do
    matrixReady
    bareCommand (·.chain.isNone) fun e => { e with chain := some (f.p5.getLsbD 0) }) s := rfl
theorem exec_mend (f : CF) (s : State) : exec (.mend f) s = finish (do
    matrixReady
    bareCommand (·.chain.isSome) fun e => { e with chain := none }) s := rfl
theorem exec_mzero (f : CF) (s : State) : exec (.mzero f) s = finish (do matrixReady; accept 0 0 0 []) s := rfl
theorem exec_mrot (f : LF) (s : State) : exec (.mrot f) s = finish (do
    matrixReady
    ringCommand) s := rfl
theorem exec_msync (f : CF) (s : State) : exec (.msync f) s = finish (do
    notHelper 0x200
    let x ← getT
    if !x.engine.queue.isEmpty then wait) s := rfl

section
variable {s : State} {ok : Engine → Bool} {g : Engine → Engine}

theorem bareCommand_accepted (good : ok (s.tile s.cur).engine = true) : bareCommand ok g s = .ok ((), s.queued g 0 0 0 []) := by
  rw [bareCommand, bind_goes (getT_run s), bind_goes (needGeom_true good s)]
  exact acceptWith_run g 0 0 0 s

theorem bareCommand_refused (bad : ok (s.tile s.cur).engine = false) : bareCommand ok g s = .error (.trap cBADGEOM s.ctx.unit) := by
  rw [bareCommand, bind_goes (getT_run s)]
  exact bind_stops (needGeom_false bad s)

end

theorem ringCommand_accepted {s : State} (good : (s.tile s.cur).engine.ringBad (memberOf s.cur) = false) :
    ringCommand s = .ok ((), s.queued id 0 0 0 []) := by
  rw [ringCommand, bind_goes (get_run s), bind_goes (needGeom_true (by rw [good]; rfl) s)]
  rfl

theorem ringCommand_refused {s : State} (bad : (s.tile s.cur).engine.ringBad (memberOf s.cur) = true) :
    ringCommand s = .error (.trap cBADGEOM s.ctx.unit) := by
  rw [ringCommand, bind_goes (get_run s)]
  exact bind_stops (needGeom_false (by rw [bad]; rfl) s)

theorem msync_waits (f : CF) {s : State} (hc : s.cid = 0) (h : (s.tile s.cur).engine.queue ≠ []) : s.waits (.msync f) := by
  refine (exec_msync f s).trans (finish_wait ?_)
  rw [bind_goes (notHelper_run hc _), bind_goes (getT_run s), List.isEmpty_eq_false_iff.2 h]
  rfl

theorem msync_done (f : CF) {s : State} (hc : s.cid = 0) (h : (s.tile s.cur).engine.queue = []) : exec (.msync f) s = .next { s with fate := .done } := by
  refine (exec_msync f s).trans (finish_ok ?_)
  rw [bind_goes (notHelper_run hc _), bind_goes (getT_run s), h]
  rfl

end Sys2Proof.Machine
end

section
/-! MLDB, MSTORE and MLOAD: their checks, and the lines of a range in space 0 (R279, R281, R282). -/
namespace Sys2Proof.Machine

/-! ## MLDB (R279) -/

/-- The package's features that the issuing tile may use. -/
def State.feats (s : State) : BitVec 8 := (s.dev (pkgOf s.cur)).featAck

/-- MLDB's check of its format and scales. -/
def latchOk (feats : BitVec 8) (ra : Word) (plane : Nat) : Bool :=
  (kstepOf (fmtOf ra)).isSome && (fmtOf ra ≠ 11 || feats.getLsbD 1) && scaleOk (fmtOf ra) (blogOf ra) plane &&
    decide (blogOf ra = 0 || 2 ^ blogOf ra ≤ latchK (fmtOf ra))

/-- The engine has room for n more buffers. -/
def Engine.takesLatches (e : Engine) (n : Nat) : Bool := 1 ≤ n && n ≤ 2 && decide (n + e.full + e.reserved ≤ 2)

/-- MLDB of n buffers once its register is read. -/
def latchCommand (n plane : Nat) (ra : Word) : M Unit := do
  let s ← get
  need (spaceOf ra = 1) cSPACE ra
  needGeom (latchOk s.feats ra plane && (s.tile s.cur).engine.takesLatches n)
  needPinned ra (4096 * n)
  needPlane plane (64 * n * blocksOf (latchK (fmtOf ra)) (blogOf ra))
  acceptWith (fun e => { e with reserved := e.reserved + n }) ra 0 0

theorem exec_mldb (f : LF) (s : State) : exec (.mldb f) s = finish (do
    matrixReady
    let ra ← rs f.ra
    latchCommand (bits f.f0 0 6).toNat (bits f.f1 0 12).toNat ra) s := by
  simp only [latchCommand, ← needGeom_and]
  rfl

section
variable {s : State} {n p : Nat} {ra : Word}

theorem latchCommand_space (hs : spaceOf ra ≠ 1) : latchCommand n p ra s = .error (.trap cSPACE ra) := by
  rw [latchCommand, bind_goes (get_run s), decide_eq_false hs]
  rfl

variable (hs : spaceOf ra = 1)
include hs

theorem latchCommand_refused (bad : (s.tile s.cur).engine.takesLatches n = false) : latchCommand n p ra s = .error (.trap cBADGEOM s.ctx.unit) := by
  rw [latchCommand, bind_goes (get_run s), decide_eq_true hs, bind_goes (need_true ..), bad, Bool.and_false]
  exact bind_stops (needGeom_false rfl s)

theorem latchCommand_accepted (good : latchOk s.feats ra p = true) (room : (s.tile s.cur).engine.takesLatches n = true)
    (hn : 0 < n) (hp : p < 4096) (pinned : (s.tile s.cur).holds (addrOf ra) (4096 * n))
    (plane : (s.tile s.cur).holdsPlane p (64 * n * blocksOf (latchK (fmtOf ra)) (blogOf ra))) :
    latchCommand n p ra s = .ok ((), s.queued (fun e => { e with reserved := e.reserved + n }) ra 0 0 []) := by
  rw [latchCommand, bind_goes (get_run s), decide_eq_true hs, bind_goes (need_true ..), bind_goes (needGeom_true (by rw [good, room]; rfl) s),
    bind_goes (needPinned_run (by omega) pinned), bind_goes (needPlane_run hp plane)]
  exact acceptWith_run ..

end

/-! ## The lines of 2,048 values in space 0 (R150) -/

theorem State.Touched.trans {s t u : State} (h : s.Touched t) (g : t.Touched u) : s.Touched u where
  rest := by rw [g.rest, h.rest]
  trackers p hp := g.trackers p (h.trackers p hp)

/-- The global address of a virtual address that TLB entry e maps. -/
def State.mappedBy (s : State) (e : TlbEntry) (va : Nat) : Option Nat := s.globalAddr (pkgOf s.cur) (leafPa e.attr e.large va)

/-- One line of a command's range in space 0. -/
def acceptLine (ra : Word) (acc : Acc) (q : Nat × Nat × Nat × Nat) : M (Option Nat) := do
  let p := withAddr ra q.1
  let a ← translateM p q.1 acc
  let s ← get
  match acc, a with
  | .store, some a => need ((s.dir (a / 128)).st ≠ .held) cCOMPACTHELD p
  | _, _ => pure ()
  pure a

theorem acceptLines_eq (ra : Word) (acc : Acc) :
    acceptLines ra acc = (pieces (addrOf ra) (256 * fmtBits (fmtOf ra))).mapM (acceptLine ra acc) := rfl

theorem translateM_hit {s : State} {e : TlbEntry} {va : Nat} {acc : Acc} (h : s.tlbHit va = some e) (hp : permits e.attr acc s.ctx.priv = true)
    (val : Word) : translateM val va acc s = .ok (s.mappedBy e va, s.usedTlb e) := by
  have permitted : permits e.attr acc (s.usedTlb e).asker.priv = true := hp
  have place : (s.usedTlb e).globalAddr (pkgOf (s.usedTlb e).cur) (leafPa e.attr e.large va) = s.mappedBy e va := usedTlb_globalAddr ..
  simp only [translateM, translate_hit h val, permitted, place, Bool.not_true, Bool.false_eq_true, if_false]

/-- No compact holds the line, if the access is a store. -/
def State.lineFree (s : State) (acc : Acc) (a : Option Nat) : Prop := acc = .store → ∀ b, a = some b → (s.dir (b / 128)).st ≠ .held

section
variable {e : TlbEntry} {acc : Acc}

theorem acceptLine_run {s : State} (ra : Word) {q : Nat × Nat × Nat × Nat} (h : s.tlbHit q.1 = some e)
    (hp : permits e.attr acc s.ctx.priv = true) (free : s.lineFree acc (s.mappedBy e q.1)) :
    acceptLine ra acc q s = .ok (s.mappedBy e q.1, s.usedTlb e) := by
  rw [acceptLine, bind_goes (translateM_hit h hp _), bind_goes (get_run _)]
  cases place : s.mappedBy e q.1 with
  | none => cases acc <;> rfl
  | some b =>
    cases acc
    case store =>
      have unheld : ((s.usedTlb e).dir (b / 128)).st ≠ .held := free rfl b place
      simp only [decide_eq_true unheld, bind_run, need_true, pure_run]
    all_goals rfl

theorem acceptLineList_run (ra : Word) (qs : List (Nat × Nat × Nat × Nat)) : ∀ {s : State}, (∀ q ∈ qs, s.tlbHit q.1 = some e) →
    permits e.attr acc s.ctx.priv = true → (∀ q ∈ qs, s.lineFree acc (s.mappedBy e q.1)) →
    ∃ t, qs.mapM (acceptLine ra acc) s = .ok (qs.map fun q => s.mappedBy e q.1, t) ∧ s.Touched t := by
  induction qs with
  | nil => exact fun _ _ _ => ⟨_, rfl, .refl _⟩
  | cons q qs ih =>
    intro s hits hp free
    have here := hits q (List.mem_cons_self ..)
    have later : ∀ r ∈ qs, (s.usedTlb e).tlbHit r.1 = some e := fun r hr =>
      usedTlb_hit (List.find?_some (p := fun e => TlbEntry.hits e s.ctx.asid r.1) (hits r (List.mem_cons_of_mem _ hr)))
    have places (va : Nat) : (s.usedTlb e).mappedBy e va = s.mappedBy e va := usedTlb_globalAddr ..
    obtain ⟨t, run, touched⟩ := ih later hp fun r hr => by
      rw [places]
      exact free r (List.mem_cons_of_mem _ hr)
    refine ⟨t, ?_, (usedTlb_touched s e).trans touched⟩
    rw [List.mapM_cons, bind_goes (acceptLine_run ra here hp (free q (List.mem_cons_self ..))), bind_goes run]
    simp only [places, List.map_cons]
    rfl

/-- The entry that maps an address maps what follows it in its 64 KiB page. -/
theorem tlbHit_within {s : State} {a i : Nat} (h : a % 65536 + i < 65536) : s.tlbHit (a + i) = s.tlbHit a := by
  have small : (a + i) / 2 ^ 16 = a / 2 ^ 16 := by omega
  have large : (a + i) / 2 ^ 29 = a / 2 ^ 29 := by omega
  simp only [State.tlbHit, TlbEntry.hits, small, large]

/-- Whole lines from the start of a line on. -/
theorem pieces_lines {a n : Nat} (ha : a % 128 = 0) : (pieces a n).map (·.1) = (List.range ((n + 127) / 128)).map fun i => a + 128 * i := by
  have count : pieceCount a n = (n + 127) / 128 := by
    unfold pieceCount
    split <;> omega
  rw [pieces_eq, List.map_map, count]
  refine List.map_congr_left fun i hi => ?_
  have := List.mem_range.1 hi
  simp only [Function.comp, pieceEnd]
  omega

/-- A range within one mapped page is accepted with the address of each line. -/
theorem acceptLines_run {s : State} {ra : Word} (ha : addrOf ra % 128 = 0)
    (page : addrOf ra % 65536 + 256 * fmtBits (fmtOf ra) ≤ 65536) (h : s.tlbHit (addrOf ra) = some e)
    (hp : permits e.attr acc s.ctx.priv = true) (free : ∀ i, s.lineFree acc (s.mappedBy e (addrOf ra + 128 * i))) :
    ∃ t, acceptLines ra acc s = .ok ((List.range ((256 * fmtBits (fmtOf ra) + 127) / 128)).map fun i => s.mappedBy e (addrOf ra + 128 * i), t) ∧
      s.Touched t := by
  have lines {q} (hq : q ∈ pieces (addrOf ra) (256 * fmtBits (fmtOf ra))) :
      ∃ i < (256 * fmtBits (fmtOf ra) + 127) / 128, q.1 = addrOf ra + 128 * i := by
    have first := List.mem_map_of_mem (f := (·.1)) hq
    rw [pieces_lines ha] at first
    obtain ⟨i, hi, e⟩ := List.mem_map.1 first
    exact ⟨i, List.mem_range.1 hi, e.symm⟩
  obtain ⟨t, run, touched⟩ := acceptLineList_run (e := e) ra (pieces (addrOf ra) (256 * fmtBits (fmtOf ra)))
    (fun q hq => by
      obtain ⟨i, hi, first⟩ := lines hq
      rw [first, tlbHit_within (by omega)]
      exact h) hp
    (fun q hq => by
      obtain ⟨i, -, first⟩ := lines hq
      rw [first]
      exact free i)
  refine ⟨t, ?_, touched⟩
  have addrs := congrArg (List.map (s.mappedBy e)) (pieces_lines (n := 256 * fmtBits (fmtOf ra)) ha)
  rw [List.map_map, List.map_map] at addrs
  rw [acceptLines_eq, run]
  exact congrArg (fun l => Except.ok (l, t)) addrs

end

/-! ## MSTORE and MLOAD (R281, R282) -/

/-- MSTORE's check of its format and scales. -/
def storeOk (feats : BitVec 8) (ra : Word) (bs : Bool) (plane : Nat) : Bool :=
  (decide (addrOf ra % 128 = 0) && 1 ≤ fmtOf ra && fmtOf ra ≤ 12 && blogOk (blogOf ra) && (fmtOf ra ≠ 11 || feats.getLsbD 1)) &&
    if bs then blogOf ra ≠ 0 && decide (blogOf ra ≤ 6) && narrow (fmtOf ra) && plane ≠ 0 else blogOf ra = 0

/-- MLOAD's check of its format. -/
def loadOk (feats : BitVec 8) (ra : Word) (float : Bool) : Bool :=
  (decide (addrOf ra % 128 = 0) && blogOf ra = 0 && (fmtOf ra ≠ 11 || feats.getLsbD 1)) &&
    if float then (1 ≤ fmtOf ra && fmtOf ra ≤ 4) || (6 ≤ fmtOf ra && fmtOf ra ≤ 11) else fmtOf ra = 5 || fmtOf ra = 12

/-- The scale plane that a block-scaled MSTORE writes. -/
def storePlane (bs : Bool) (plane : Nat) (ra : Word) : M Unit := if bs then needPlane plane (32 * (64 / 2 ^ blogOf ra)) else pure ()

/-- A command on 2,048 values of memory, once its registers are read. -/
def memoryCommand (geom : BitVec 8 → Bool) (scales : M Unit) (acc : Acc) (ra rb : Word) : M Unit := do
  let s ← get
  need (decide (spaceOf ra ≤ 1)) cSPACE ra
  needGeom (geom s.feats)
  (if spaceOf ra = 1 then needPinned ra (256 * fmtBits (fmtOf ra)) else pure ())
  scales
  let addrs ← if spaceOf ra = 0 then acceptLines ra acc else pure []
  accept ra rb 0 addrs

theorem exec_mstore (f : LF) (s : State) : exec (.mstore f) s = finish (do
    matrixReady
    let ra ← rs f.ra
    let rb ← rs f.rb
    let plane := (bits f.f1 0 12).toNat
    memoryCommand (storeOk · ra (f.f0.getLsbD 6) plane) (storePlane (f.f0.getLsbD 6) plane ra) .store ra rb) s := by
  change execMstore f s = _
  rw [execMstore]
  simp only [memoryCommand, storeOk, storePlane, needGeom_and, ite_then]
  rfl

theorem exec_mload (f : LF) (s : State) : exec (.mload f) s = finish (do
    matrixReady
    let ra ← rs f.ra
    memoryCommand (loadOk · ra (f.f0.getLsbD 1)) (pure ()) .load ra 0) s := by
  change execMload f s = _
  rw [execMload]
  simp only [memoryCommand, loadOk, needGeom_and, ite_then]
  rfl

section
variable {s : State} {geom : BitVec 8 → Bool} {scales : M Unit} {acc : Acc} {ra rb : Word}

theorem memoryCommand_space (hs : 2 ≤ spaceOf ra) : memoryCommand geom scales acc ra rb s = .error (.trap cSPACE ra) := by
  rw [memoryCommand, bind_goes (get_run s), decide_eq_false (Nat.not_le.2 hs)]
  rfl

theorem memoryCommand_refused (hs : spaceOf ra ≤ 1) (bad : geom s.feats = false) :
    memoryCommand geom scales acc ra rb s = .error (.trap cBADGEOM s.ctx.unit) := by
  rw [memoryCommand, bind_goes (get_run s), decide_eq_true hs, bind_goes (need_true ..)]
  exact bind_stops (needGeom_false bad s)

variable (good : geom s.feats = true) (plane : scales s = .ok ((), s))
include good plane

theorem memoryCommand_local (hs : spaceOf ra = 1) (hf : 0 < fmtBits (fmtOf ra))
    (pinned : (s.tile s.cur).holds (addrOf ra) (256 * fmtBits (fmtOf ra))) :
    memoryCommand geom scales acc ra rb s = .ok ((), s.queued id ra rb 0 []) := by
  rw [memoryCommand, bind_goes (get_run s), decide_eq_true (by omega), bind_goes (need_true ..), bind_goes (needGeom_true good s), if_pos hs,
    bind_goes (needPinned_run (by omega) pinned), bind_goes plane, if_neg (by omega), bind_goes (pure_run ..)]
  rfl

theorem memoryCommand_global {e : TlbEntry} (hs : spaceOf ra = 0) (ha : addrOf ra % 128 = 0)
    (page : addrOf ra % 65536 + 256 * fmtBits (fmtOf ra) ≤ 65536) (h : s.tlbHit (addrOf ra) = some e)
    (hp : permits e.attr acc s.ctx.priv = true) (free : ∀ i, s.lineFree acc (s.mappedBy e (addrOf ra + 128 * i))) :
    ∃ t, memoryCommand geom scales acc ra rb s = .ok ((), t.queued id ra rb 0
      ((List.range ((256 * fmtBits (fmtOf ra) + 127) / 128)).map fun i => s.mappedBy e (addrOf ra + 128 * i))) ∧ s.Touched t := by
  obtain ⟨t, run, touched⟩ := acceptLines_run ha page h hp free
  refine ⟨t, ?_, touched⟩
  rw [memoryCommand, bind_goes (get_run s), decide_eq_true (by omega), bind_goes (need_true ..), bind_goes (needGeom_true good s), if_neg (by omega),
    bind_goes (pure_run ..), bind_goes plane, if_pos hs, bind_goes run]
  rfl

end

end Sys2Proof.Machine
end

section
/-! MMA: its operands in local memory, or B's from the ring (R277, R278). -/
namespace Sys2Proof.Machine

/-- MMA's check of its count, address, formats, A's scales and bank. -/
def State.mmaOk (s : State) (regCount : Bool) (ra rb rc : Word) : Bool :=
  let m := mmaF s.ctx.unit rc
  let e := (s.tile s.cur).engine
  (!(regCount && m.sp) && 0 < m.n && decide (m.n ≤ 65535) && decide (addrOf ra % 128 = 0)) &&
    (((!m.sp || s.feats.getLsbD 0) && (fmtOf ra ≠ 11 || s.feats.getLsbD 1) && (!m.loc || fmtOf rb ≠ 11 || s.feats.getLsbD 1)) &&
      (scaleOk (fmtOf ra) (blogOf ra) m.aPlane && (e.modeAhead m.bank = .empty || e.modeAhead m.bank = kindOf (fmtOf ra))))

/-- MMA from local memory, once those checks are passed. -/
def mmaLocal (m : MmaF) (ra rb rc : Word) : M Unit :=
  match kstepPair (fmtOf ra) (fmtOf rb) with
  | none => do
    needGeom false
    accept ra rb rc []
  | some ks => do
    needGeom ((decide (m.layout < 2) && scaleOk (fmtOf rb) (blogOf rb) m.bPlane) && (ks * m.n % 2 ^ blogOf ra = 0 && ks * m.n % 2 ^ blogOf rb = 0))
    let kper := if m.sp then 2 * ks else ks
    needPinned ra (m.n * aSlice ks (fmtOf ra))
    needPinned rb (m.n * bSlice kper (fmtOf rb))
    (if m.sp then needPinned rc (m.n * mSlice ks) else pure ())
    needPlane m.aPlane (32 * blocksOf (kper * m.n) (blogOf ra))
    needPlane m.bPlane (64 * blocksOf (kper * m.n) (blogOf rb))
    accept ra rb rc []

/-- MMA of the ring. -/
def mmaRing (e : Engine) (member : Nat) (m : MmaF) (ra rb rc : Word) : M Unit :=
  match kstepOf (fmtOf ra) with
  | none => do
    needGeom false
    accept ra rb rc []
  | some ks => do
    needGeom ((!e.ringBad member && !m.sp && decide (m.layout = 0) && decide (m.bPlane = 0)) && decide (blogOf ra = 0 || 2 ^ blogOf ra ≤ ks))
    needPinned ra (e.ringSize * aSlice ks (fmtOf ra))
    needPlane m.aPlane (32 * blocksOf (ks * e.ringSize) (blogOf ra))
    accept ra rb rc []

/-- MMA once its registers are read. -/
def mmaCommand (regCount : Bool) (ra rb rc : Word) : M Unit := do
  let s ← get
  let m := mmaF s.ctx.unit rc
  need (spaceOf ra = 1) cSPACE ra
  need (!m.loc || spaceOf rb = 1) cSPACE rb
  need (!m.sp || spaceOf rc = 1) cSPACE rc
  needGeom (s.mmaOk regCount ra rb rc)
  if m.loc then mmaLocal m ra rb rc else mmaRing (s.tile s.cur).engine (memberOf s.cur) m ra rb rc

theorem exec_mma (f : LF) (s : State) : exec (.mma f) s = finish (do
    matrixReady
    let ra ← rs f.ra
    let rb ← rs f.rb
    let rc ← rs f.rc
    mmaCommand (decide ((bits f.f0 6 6 : BitVec 6) = 0)) ra rb rc) s := by
  change execMma f s = _
  rw [execMma]
  simp only [mmaCommand, State.mmaOk, mmaLocal, mmaRing, needGeom_and, ite_then]
  rfl

/-! ## Sizes -/

theorem kstepOf_pos {f ks : Nat} (h : kstepOf f = some ks) : 0 < ks ∧ 0 < fmtBits f := by
  unfold kstepOf at h
  split at h <;> cases h <;> decide

theorem kstepPair_pos {a b ks : Nat} (h : kstepPair a b = some ks) : 0 < ks ∧ 0 < fmtBits a ∧ 0 < fmtBits b := by
  unfold kstepPair at h
  split at h
  case h_1 x y ha hb =>
    refine ⟨?_, (kstepOf_pos ha).2, (kstepOf_pos hb).2⟩
    have := (kstepOf_pos ha).1
    grind
  case h_2 => cases h

theorem aSlice_pos {ks f : Nat} (hk : 0 < ks) (hf : 0 < fmtBits f) : 0 < aSlice ks f := by
  rw [aSlice]
  have := Nat.mul_pos hk hf
  have : 32 * ks * fmtBits f = 32 * (ks * fmtBits f) := Nat.mul_assoc ..
  omega

theorem bSlice_pos {k f : Nat} (hk : 0 < k) (hf : 0 < fmtBits f) : 0 < bSlice k f := by
  rw [bSlice]
  have := Nat.mul_pos hk hf
  have : k * 64 * fmtBits f = 64 * (k * fmtBits f) := by ring
  omega

/-! ## What MMA does -/

/-- The operands of an MMA from local memory: a pair of formats with ks positions in a k-step, pinned with their scale planes. -/
structure State.LocalOperands (s : State) (m : MmaF) (ra rb rc : Word) (ks : Nat) : Prop where
  pair : kstepPair (fmtOf ra) (fmtOf rb) = some ks
  layout : m.layout < 2
  scales : scaleOk (fmtOf rb) (blogOf rb) m.bPlane = true
  blocksA : ks * m.n % 2 ^ blogOf ra = 0
  blocksB : ks * m.n % 2 ^ blogOf rb = 0
  pinnedA : (s.tile s.cur).holds (addrOf ra) (m.n * aSlice ks (fmtOf ra))
  pinnedB : (s.tile s.cur).holds (addrOf rb) (m.n * bSlice (if m.sp then 2 * ks else ks) (fmtOf rb))
  pinnedC : m.sp = true → (s.tile s.cur).holds (addrOf rc) (m.n * mSlice ks)
  planeA : (s.tile s.cur).holdsPlane m.aPlane (32 * blocksOf ((if m.sp then 2 * ks else ks) * m.n) (blogOf ra))
  planeB : (s.tile s.cur).holdsPlane m.bPlane (64 * blocksOf ((if m.sp then 2 * ks else ks) * m.n) (blogOf rb))

/-- A's operand of an MMA of the ring. -/
structure State.RingOperand (s : State) (m : MmaF) (ra : Word) (ks : Nat) : Prop where
  kstep : kstepOf (fmtOf ra) = some ks
  ring : (s.tile s.cur).engine.ringBad (memberOf s.cur) = false
  dense : m.sp = false
  layout : m.layout = 0
  plane : m.bPlane = 0
  block : blogOf ra = 0 ∨ 2 ^ blogOf ra ≤ ks
  pinned : (s.tile s.cur).holds (addrOf ra) ((s.tile s.cur).engine.ringSize * aSlice ks (fmtOf ra))
  scales : (s.tile s.cur).holdsPlane m.aPlane (32 * blocksOf (ks * (s.tile s.cur).engine.ringSize) (blogOf ra))

theorem mmaF_planes (u rc : Word) : (mmaF u rc).aPlane < 4096 ∧ (mmaF u rc).bPlane < 4096 :=
  ⟨(bits u 32 12 : BitVec 12).isLt, (bits u 44 12 : BitVec 12).isLt⟩

section
variable {s : State} {m : MmaF} {ra rb rc : Word} {ks : Nat}

theorem mmaLocal_accepted (hm : m.aPlane < 4096 ∧ m.bPlane < 4096) (hn : 0 < m.n) (h : s.LocalOperands m ra rb rc ks) :
    mmaLocal m ra rb rc s = .ok ((), s.queued id ra rb rc []) := by
  obtain ⟨hk, hfa, hfb⟩ := kstepPair_pos h.pair
  have kper : 0 < if m.sp then 2 * ks else ks := by split <;> omega
  have maskPinned : (if m.sp then needPinned rc (m.n * mSlice ks) else pure ()) s = .ok ((), s) := by
    split
    case isTrue sp => exact needPinned_run (Nat.mul_pos hn (Nat.mul_pos (by decide) hk)) (h.pinnedC sp)
    case isFalse => rfl
  have geometry : ((decide (m.layout < 2) && scaleOk (fmtOf rb) (blogOf rb) m.bPlane) &&
      (ks * m.n % 2 ^ blogOf ra = 0 && ks * m.n % 2 ^ blogOf rb = 0)) = true := by
    simp only [h.layout, h.scales, h.blocksA, h.blocksB, decide_true, Bool.and_self]
  simp only [mmaLocal, h.pair]
  rw [bind_goes (needGeom_true geometry s), bind_goes (needPinned_run (Nat.mul_pos hn (aSlice_pos hk hfa)) h.pinnedA),
    bind_goes (needPinned_run (Nat.mul_pos hn (bSlice_pos kper hfb)) h.pinnedB), bind_goes maskPinned, bind_goes (needPlane_run hm.1 h.planeA),
    bind_goes (needPlane_run hm.2 h.planeB)]
  rfl

theorem mmaRing_accepted (hm : m.aPlane < 4096) (h : s.RingOperand m ra ks) :
    mmaRing (s.tile s.cur).engine (memberOf s.cur) m ra rb rc s = .ok ((), s.queued id ra rb rc []) := by
  obtain ⟨hk, hfa⟩ := kstepOf_pos h.kstep
  have ring : 0 < (s.tile s.cur).engine.ringSize := Nat.two_pow_pos _
  have geometry : ((!(s.tile s.cur).engine.ringBad (memberOf s.cur) && !m.sp && decide (m.layout = 0) && decide (m.bPlane = 0)) &&
      decide (blogOf ra = 0 || 2 ^ blogOf ra ≤ ks)) = true := by
    simp [h.ring, h.dense, h.layout, h.plane, h.block]
  simp only [mmaRing, h.kstep]
  rw [bind_goes (needGeom_true geometry s), bind_goes (needPinned_run (Nat.mul_pos ring (aSlice_pos hk hfa)) h.pinned),
    bind_goes (needPlane_run hm h.scales)]
  rfl

end

section
variable {s : State} {regCount : Bool} {ra rb rc : Word}

theorem mmaCommand_spaceA (hs : spaceOf ra ≠ 1) : mmaCommand regCount ra rb rc s = .error (.trap cSPACE ra) := by
  rw [mmaCommand, bind_goes (get_run s), decide_eq_false hs]
  rfl

variable (ha : spaceOf ra = 1)
include ha

theorem mmaCommand_spaceB (hl : (mmaF s.ctx.unit rc).loc = true) (hs : spaceOf rb ≠ 1) :
    mmaCommand regCount ra rb rc s = .error (.trap cSPACE rb) := by
  rw [mmaCommand, bind_goes (get_run s), decide_eq_true ha, bind_goes (need_true ..), hl, decide_eq_false hs]
  rfl

variable (hb : (mmaF s.ctx.unit rc).loc = true → spaceOf rb = 1) (hc : (mmaF s.ctx.unit rc).sp = true → spaceOf rc = 1)
include hb hc

/-- MMA of operands that are all in local space, up to its checks. -/
theorem mmaCommand_run : mmaCommand regCount ra rb rc s = (do
    needGeom (s.mmaOk regCount ra rb rc)
    if (mmaF s.ctx.unit rc).loc then mmaLocal (mmaF s.ctx.unit rc) ra rb rc
    else mmaRing (s.tile s.cur).engine (memberOf s.cur) (mmaF s.ctx.unit rc) ra rb rc) s := by
  have spaceB : (!(mmaF s.ctx.unit rc).loc || decide (spaceOf rb = 1)) = true := by
    rw [Bool.or_eq_true, Bool.not_eq_true', decide_eq_true_eq]
    exact (Bool.eq_false_or_eq_true _).symm.imp_right hb
  have spaceC : (!(mmaF s.ctx.unit rc).sp || decide (spaceOf rc = 1)) = true := by
    rw [Bool.or_eq_true, Bool.not_eq_true', decide_eq_true_eq]
    exact (Bool.eq_false_or_eq_true _).symm.imp_right hc
  rw [mmaCommand, bind_goes (get_run s), decide_eq_true ha, bind_goes (need_true ..), spaceB, bind_goes (need_true ..), spaceC, bind_goes (need_true ..)]

theorem mmaCommand_refused (bad : s.mmaOk regCount ra rb rc = false) :
    mmaCommand regCount ra rb rc s = .error (.trap cBADGEOM s.ctx.unit) :=
  (mmaCommand_run ha hb hc).trans (bind_stops (needGeom_false bad s))

variable {ks : Nat} (good : s.mmaOk regCount ra rb rc = true)
include good

theorem mmaCommand_local (hl : (mmaF s.ctx.unit rc).loc = true) (hn : 0 < (mmaF s.ctx.unit rc).n)
    (h : s.LocalOperands (mmaF s.ctx.unit rc) ra rb rc ks) : mmaCommand regCount ra rb rc s = .ok ((), s.queued id ra rb rc []) := by
  rw [mmaCommand_run ha hb hc, bind_goes (needGeom_true good s), if_pos hl]
  exact mmaLocal_accepted (mmaF_planes ..) hn h

theorem mmaCommand_ring (hl : (mmaF s.ctx.unit rc).loc = false) (h : s.RingOperand (mmaF s.ctx.unit rc) ra ks) :
    mmaCommand regCount ra rb rc s = .ok ((), s.queued id ra rb rc []) := by
  rw [mmaCommand_run ha hb hc, bind_goes (needGeom_true good s), if_neg (by rw [hl]; exact Bool.false_ne_true)]
  exact mmaRing_accepted (mmaF_planes ..).1 h

end

end Sys2Proof.Machine
end

section
/-! When a matrix command is accepted, waits, or traps (R150, R276 to R283). -/
namespace Sys2Proof.Machine

/-! ## The checks as the rules state them -/

theorem mmaOk_iff (s : State) (f : LF) (ra rb rc : Word) : s.mmaOk (decide ((bits f.f0 6 6 : BitVec 6) = 0)) ra rb rc = true ↔
    let m := mmaF s.ctx.unit rc
    let e := (s.tile s.cur).engine
    (f.f0.toNat / 64 = 0 → m.sp = false) ∧ 0 < m.n ∧ m.n ≤ 65535 ∧ addrOf ra % 128 = 0 ∧ (m.sp = true → s.feats.getLsbD 0 = true) ∧
      (fmtOf ra = 11 → s.feats.getLsbD 1 = true) ∧ (m.loc = true → fmtOf rb = 11 → s.feats.getLsbD 1 = true) ∧
      scaleOk (fmtOf ra) (blogOf ra) m.aPlane = true ∧ (e.modeAhead m.bank = .empty ∨ e.modeAhead m.bank = kindOf (fmtOf ra)) := by
  have count : (bits f.f0 6 6 : BitVec 6) = 0 ↔ f.f0.toNat / 64 = 0 := by
    rw [← BitVec.toNat_inj, bits_toNat]
    have := f.f0.isLt
    change _ % 64 = 0 ↔ _
    omega
  simp only [State.mmaOk, count, Bool.and_eq_true, Bool.or_eq_true, Bool.not_eq_true', Bool.and_eq_false_iff, decide_eq_true_eq, decide_eq_false_iff_not,
    imp_iff_not_or, Bool.not_eq_true, ne_eq, or_assoc, and_assoc]

theorem latchOk_iff (feats : BitVec 8) (ra : Word) (p : Nat) : latchOk feats ra p = true ↔
    (kstepOf (fmtOf ra)).isSome = true ∧ (fmtOf ra = 11 → feats.getLsbD 1 = true) ∧ scaleOk (fmtOf ra) (blogOf ra) p = true ∧
      (blogOf ra = 0 ∨ 2 ^ blogOf ra ≤ latchK (fmtOf ra)) := by
  simp only [latchOk, Bool.and_eq_true, Bool.or_eq_true, decide_eq_true_eq, imp_iff_not_or, ne_eq, and_assoc]

theorem takesLatches_iff (e : Engine) (n : Nat) : e.takesLatches n = true ↔ 1 ≤ n ∧ n ≤ 2 ∧ n + e.full + e.reserved ≤ 2 := by
  simp only [Engine.takesLatches, Bool.and_eq_true, decide_eq_true_eq, and_assoc]

theorem storeOk_iff {ra : Word} (ha : addrOf ra % 128 = 0) (feats : BitVec 8) (bs : Bool) (p : Nat) : storeOk feats ra bs p = true ↔
    (1 ≤ fmtOf ra ∧ fmtOf ra ≤ 12 ∧ blogOk (blogOf ra) = true ∧ (fmtOf ra = 11 → feats.getLsbD 1 = true)) ∧
      if bs then blogOf ra ≠ 0 ∧ blogOf ra ≤ 6 ∧ narrow (fmtOf ra) = true ∧ p ≠ 0 else blogOf ra = 0 := by
  cases bs <;>
    simp only [storeOk, ha, Bool.and_eq_true, Bool.or_eq_true, decide_eq_true_eq, imp_iff_not_or, ne_eq, and_assoc, true_and, if_true,
      Bool.false_eq_true, if_false]

theorem loadOk_iff {ra : Word} (ha : addrOf ra % 128 = 0) (feats : BitVec 8) (float : Bool) : loadOk feats ra float = true ↔
    blogOf ra = 0 ∧ (fmtOf ra = 11 → feats.getLsbD 1 = true) ∧
      if float then (1 ≤ fmtOf ra ∧ fmtOf ra ≤ 4) ∨ (6 ≤ fmtOf ra ∧ fmtOf ra ≤ 11) else fmtOf ra = 5 ∨ fmtOf ra = 12 := by
  cases float <;>
    simp only [loadOk, ha, Bool.and_eq_true, Bool.or_eq_true, decide_eq_true_eq, imp_iff_not_or, ne_eq, and_assoc, true_and, if_true,
      Bool.false_eq_true, if_false]

theorem fmtBits_pos {f : Nat} (h : 1 ≤ f ∧ f ≤ 12) : 0 < fmtBits f := by
  obtain ⟨lo, hi⟩ := h
  interval_cases f <;> decide

theorem loadOk_format {ra : Word} {feats : BitVec 8} {float : Bool} (h : loadOk feats ra float = true) : 1 ≤ fmtOf ra ∧ fmtOf ra ≤ 12 := by
  rw [loadOk, Bool.and_eq_true] at h
  obtain ⟨-, format⟩ := h
  cases float <;> simp at format <;> omega

theorem storePlane_run {s : State} {bs : Bool} {p : Nat} {ra : Word} (hp : p < 4096)
    (h : bs = true → (s.tile s.cur).holdsPlane p (32 * (64 / 2 ^ blogOf ra))) : storePlane bs p ra s = .ok ((), s) := by
  cases bs with
  | false => rfl
  | true => exact needPlane_run hp (h rfl)

/-! ## A command that has found its lines in space 0 -/

/-- t has done a command of s whose lines lie at addrs: the command is in the queue, and memory, registers and flags are as they were. -/
def State.took (s t : State) (ra rb : Word) (addrs : List (Option Nat)) : Prop :=
  t.fate = .done ∧ t.mem = s.mem ∧ t.ctx.sregs = s.ctx.sregs ∧ t.ctx.flags = s.ctx.flags ∧
    (t.tile s.cur).engine = { (s.tile s.cur).engine with
      queue := (s.tile s.cur).engine.queue ++ [⟨s.ctx.unit, s.ctx.upc, ra, rb, 0, 0, s.ctx.useq, addrs⟩] }

theorem State.does.took {i : Instr} {k : M Unit} {s u : State} {n : Nat} {ra rb : Word} {addrs : List (Option Nat)} (h : s.does i n k)
    (hk : k { s with now := n } = .ok ((), u.queued id ra rb 0 addrs)) (touched : ({ s with now := n } : State).Touched u) :
    ∃ t, exec i s = .next t ∧ s.took t ra rb addrs := by
  have own : (u.queued id ra rb 0 addrs).ctx = s.ctx := (modTile_ctx u.cur rfl).trans touched.ctx
  refine ⟨_, h.next hk, rfl, touched.mem, congrArg Ctx.sregs own, congrArg Ctx.flags own, ?_⟩
  have cur : u.cur = s.cur := touched.cur
  have tile : u.tile u.cur = s.tile u.cur := touched.tile _
  have ctx : u.ctx = s.ctx := touched.ctx
  rw [← cur, ← tile, ← ctx]
  exact queued_engine u id ra rb 0 addrs

/-- MSTORE or MLOAD to a mapped page of space 0. -/
theorem State.does.accesses {i : Instr} {s : State} {n : Nat} {geom : BitVec 8 → Bool} {scales : M Unit} {acc : Acc} {ra rb : Word} {e : TlbEntry}
    (h : s.does i n (memoryCommand geom scales acc ra rb)) (good : geom s.feats = true)
    (plane : scales { s with now := n } = .ok ((), { s with now := n })) (hs : spaceOf ra = 0) (ha : addrOf ra % 128 = 0)
    (page : addrOf ra % 65536 + 256 * fmtBits (fmtOf ra) ≤ 65536) (hit : s.tlbHit (addrOf ra) = some e)
    (hp : permits e.attr acc s.ctx.priv = true) (free : ∀ i, s.lineFree acc (s.mappedBy e (addrOf ra + 128 * i))) :
    ∃ t, exec i s = .next t ∧ s.took t ra rb
      ((List.range ((256 * fmtBits (fmtOf ra) + 127) / 128)).map fun i => s.mappedBy e (addrOf ra + 128 * i)) := by
  obtain ⟨u, run, touched⟩ := memoryCommand_global (s := { s with now := n }) (rb := rb) good plane hs ha page hit hp free
  exact h.took run touched

/-! ## Commands with operands, from the cycle in which these are read -/

section
variable {s : State} (f : LF) (h : s.TakesCommand) (ha : s.ctx.readable f.ra = true)
include h ha

theorem mldb_does : s.does (.mldb f) (s.issueCycle [f.ra]) (latchCommand (f.f0.toNat % 64) (f.f1.toNat % 4096) (s.ctx.sreg f.ra)) := by
  have does := command_does_one h (exec_mldb f s) ha
  rwa [bits_zero_toNat, bits_zero_toNat] at does

theorem mload_does : s.does (.mload f) (s.issueCycle [f.ra])
    (memoryCommand (loadOk · (s.ctx.sreg f.ra) (f.f0.getLsbD 1)) (pure ()) .load (s.ctx.sreg f.ra) 0) :=
  command_does_one h (k := fun ra => memoryCommand (loadOk · ra (f.f0.getLsbD 1)) (pure ()) .load ra 0) (exec_mload f s) ha

variable (hb : s.ctx.readable f.rb = true)
include hb

theorem mstore_does : s.does (.mstore f) (s.issueCycle [f.ra, f.rb])
    (memoryCommand (storeOk · (s.ctx.sreg f.ra) (f.f0.getLsbD 6) (f.f1.toNat % 4096))
      (storePlane (f.f0.getLsbD 6) (f.f1.toNat % 4096) (s.ctx.sreg f.ra)) .store (s.ctx.sreg f.ra) (s.ctx.sreg f.rb)) := by
  have does := command_does_two h (exec_mstore f s) ha hb
  rwa [bits_zero_toNat] at does

variable (hc : s.ctx.readable f.rc = true)
include hc

theorem mma_does : s.does (.mma f) (s.issueCycle [f.ra, f.rb, f.rc])
    (mmaCommand (decide ((bits f.f0 6 6 : BitVec 6) = 0)) (s.ctx.sreg f.ra) (s.ctx.sreg f.rb) (s.ctx.sreg f.rc)) :=
  command_does_three h (exec_mma f s) ha hb hc

end

/-- A check that fails as the rules state it fails in the model. -/
theorem refused_of_not {ok : Bool} {p : Prop} (h : ok = true ↔ p) (bad : ¬ p) : ok = false := Bool.eq_false_iff.2 fun c => bad (h.1 c)

/-- Settles O42: once a command's operands are read, its checks come in the order of R150, and the first that fails is its trap; with all of them
passed it enters the queue. -/
theorem matrixCommands : Obligations.MatrixCommands := by
  unfold Obligations.MatrixCommands
  intro s control stores x e u feats queued plane
  have takes (room : e.queue.length < 2) : s.TakesCommand := ⟨control, stores, room⟩
  refine ⟨fun f => ⟨?_, msync_waits f control, msync_done f control, fun room => ?_⟩, fun f ha hb hc => ?_⟩
  · simp only [List.forall_mem_cons, List.not_mem_nil, false_implies, implies_true, and_true]
    exact ⟨command_waits (exec_mbegin f s) control, command_waits (exec_mend f s) control, command_waits (exec_mzero f s) control⟩
  · have mzero := command_does (takes room) (exec_mzero f s)
    have mbegin := command_does (takes room) (exec_mbegin f s)
    have mend := command_does (takes room) (exec_mend f s)
    exact ⟨mzero.queues (accept_run ..),
      fun closed => ⟨mbegin.queues (bareCommand_accepted (Option.isNone_iff_eq_none.2 closed)),
        mend.traps (bareCommand_refused (Option.isSome_eq_false_iff.2 (Option.isNone_iff_eq_none.2 closed)))⟩,
      fun opened => ⟨mend.queues (bareCommand_accepted (Option.isSome_iff_ne_none.2 opened)),
        mbegin.traps (bareCommand_refused (Option.isNone_eq_false_iff.2 (Option.isSome_iff_ne_none.2 opened)))⟩⟩
  intro ra rb rc fa fb ba a
  refine ⟨fun full => ?_, fun room _ => ?_, fun room => ?_⟩
  · simp only [List.forall_mem_cons, List.not_mem_nil, false_implies, implies_true, and_true]
    exact ⟨command_waits (exec_mma f s) control full, command_waits (exec_mldb f s) control full, command_waits (exec_mrot f s) control full,
      command_waits (exec_mstore f s) control full, command_waits (exec_mload f s) control full⟩
  · intro m n base
    have mma := mma_does f (takes room) ha hb hc
    have checks := mmaOk_iff s f ra rb rc
    refine ⟨fun outside => mma.traps (mmaCommand_spaceA outside), fun inA loc outside => mma.traps (mmaCommand_spaceB inA loc outside),
      fun inA inB inC => ⟨fun bad => mma.traps (mmaCommand_refused inA inB inC (refused_of_not checks bad)), ?_, ?_⟩⟩
    · intro good loc ks pair layout scales blocksA blocksB kper pinnedA pinnedB pinnedC planeA planeB
      obtain ⟨-, positive, -⟩ := id good
      exact mma.queues (mmaCommand_local inA inB inC (checks.2 good) loc positive
        ⟨pair, layout, scales, blocksA, blocksB, pinnedA, pinnedB, pinnedC, planeA, planeB⟩)
    · intro good ring ks kstep order dense layout bPlane block pinned planeA
      exact mma.queues (mmaCommand_ring inA inB inC (checks.2 good) ring ⟨kstep, order, dense, layout, bPlane, block, pinned, planeA⟩)
  have mrot := command_does (takes room) (exec_mrot f s)
  have mldb := mldb_does f (takes room) ha
  have mstore := mstore_does f (takes room) ha hb
  have mload := mload_does f (takes room) ha
  refine ⟨fun bad => mrot.traps (ringCommand_refused bad), fun good => mrot.queues (ringCommand_accepted good),
    fun outside => mldb.traps (latchCommand_space outside),
    fun outside => ⟨mstore.traps (memoryCommand_space outside), mload.traps (memoryCommand_space outside)⟩, ?_, ?_⟩
  · intro n p inLocal format feature scales block
    refine ⟨fun bad => mldb.traps (latchCommand_refused inLocal (refused_of_not (takesLatches_iff e n) (by omega))), fun least fits pinned hp => ?_⟩
    exact mldb.queues (latchCommand_accepted inLocal ((latchOk_iff feats ra p).2 ⟨format, feature, scales, block⟩)
      ((takesLatches_iff e n).2 ⟨least, by omega, fits⟩) least (Nat.mod_lt _ (by decide)) pinned hp)
  · intro bs p bytes stores loads aligned
    have storeChecks := storeOk_iff aligned feats bs p
    have loadChecks := loadOk_iff aligned feats (f.f0.getLsbD 1)
    have named : p < 4096 := Nat.mod_lt _ (by decide)
    refine ⟨fun space bad => mstore.traps (memoryCommand_refused space (refused_of_not storeChecks bad)),
      fun space bad => mload.traps (memoryCommand_refused space (refused_of_not loadChecks bad)), fun inLocal pinned => ⟨?_, ?_⟩, ?_⟩
    · intro good hp
      obtain ⟨⟨least, most, -⟩, -⟩ := id good
      exact mstore.queues (memoryCommand_local (storeChecks.2 good) (storePlane_run named hp) inLocal (fmtBits_pos ⟨least, most⟩) pinned)
    · intro good
      exact mload.queues (memoryCommand_local (loadChecks.2 good) (pure_run ..) inLocal (fmtBits_pos (loadOk_format (loadChecks.2 good))) pinned)
    · intro tl mapped page hit at' addrs took
      refine ⟨fun permitted good unscaled free => ?_, fun permitted good => ?_⟩
      · have plain := storePlane_run (s := { s with now := s.issueCycle [f.ra, f.rb] }) (ra := ra) named fun scaled : bs = true =>
          absurd (unscaled.symm.trans scaled) Bool.false_ne_true
        exact mstore.accesses (storeChecks.2 good) plain mapped aligned page hit permitted fun i _ b => free i b
      · exact mload.accesses (loadChecks.2 good) (pure_run ..) mapped aligned page hit permitted fun _ store => nomatch store

end Sys2Proof.Machine
end

section
/-! Pips: PMINT, PDROP and PSTAT (R173, R175, R291 to R293). -/
namespace Sys2Proof.Machine

theorem exec_pmint (f : CF) (s : State) : exec (.pmint f) s = execPmint f s := rfl
theorem exec_pdrop (f : CF) (s : State) : exec (.pdrop f) s = finish (do
    notHelper 0x202
    let p ← rs f.a
    ownPip p 64
    upd fun s =>
      let k := (s.tile s.cur).pip (pipSlot p)
      if k.st = .live && k.gen.toNat = pipGen p && k.cid = s.cid && k.pid = (s.tile s.cur).pid && k.self = (s.tile s.cur).self then
        s.pipLand s.cur (pipSlot p) 2 (s.pipPtr s.cur (pipSlot p)) false
      else s) s := rfl
theorem exec_pstat (f : CF) (s : State) : exec (.pstat f) s = finish (do
    let p ← rs f.a
    ownPip p 0
    let x ← getT
    let k := x.pip (pipSlot p)
    ws f.d (if k.st = .live && k.gen.toNat = pipGen p then 1
      else if k.st = .landed && k.delivered && (k.gen - 1).toNat = pipGen p then 2 else 0)) s := rfl

/-! ## The name of a slot -/

theorem append_toNat {m n : Nat} (x : BitVec m) (y : BitVec n) : (x ++ y).toNat = x.toNat * 2 ^ n + y.toNat := by
  rw [BitVec.toNat_append, ← Nat.shiftLeft_add_eq_or_of_lt y.isLt, Nat.shiftLeft_eq]

/-- R173: device, tile, slot and generation in a pointer of space 2. -/
theorem pipPtr_eq (s : State) (t : Nat) {j : Nat} (hj : j < 128) : s.pipPtr t j =
    BitVec.ofNat 64 (2 * 2 ^ 52 + s.devNum (pkgOf t) % 2 ^ 12 * 2 ^ 40 + numOf t * 2 ^ 28 + j * 2 ^ 21 + ((s.tile t).pip j).gen.toNat * 2 ^ 8) := by
  apply BitVec.eq_of_toNat_eq
  have tile : numOf t < 2 ^ 12 := Nat.mod_lt _ (by decide)
  have gen := ((s.tile t).pip j).gen.isLt
  simp only [State.pipPtr, append_toNat, BitVec.toNat_ofNat, Nat.mod_eq_of_lt tile]
  omega

/-! ## PMINT -/

/-- The pip slot that PMINT takes, if there is one. -/
def Tile.freePip (x : Tile) : Option Nat := ((List.range 64).map (· + 64)).find? fun n => (x.pip n).st = .free

theorem freePip_none {x : Tile} (h : ∀ j, 64 ≤ j → j < 128 → (x.pip j).st ≠ .free) : x.freePip = none := by
  rw [Tile.freePip, List.find?_eq_none]
  intro j hj
  obtain ⟨i, hi, rfl⟩ := List.mem_map.1 hj
  have : i < 64 := List.mem_range.1 hi
  simpa using h (i + 64) (by omega) (by omega)

theorem freePip_some {x : Tile} {j : Nat} (lo : 64 ≤ j) (hi : j < 128) (free : (x.pip j).st = .free)
    (before : ∀ i, 64 ≤ i → i < j → (x.pip i).st ≠ .free) : x.freePip = some j := by
  have found : (List.range 64).find? ((fun n => decide ((x.pip n).st = .free)) ∘ (· + 64)) = some (j - 64) := by
    rw [List.find?_range_eq_some]
    refine ⟨by simpa [show j - 64 + 64 = j by omega] using free, List.mem_range.2 (by omega), fun i hi => ?_⟩
    simpa using before (i + 64) (by omega) (by omega)
  rw [Tile.freePip, List.find?_map, found, Option.map_some, show j - 64 + 64 = j by omega]

section
variable {s : State} {f : CF}

/-- The expiry of a lifetime of 2^p µs from now; none for p = 0. -/
def State.pipExpiry (s : State) (p : BitVec 5) : Option Nat := if p = 0 then none else some (s.time (pkgOf s.cur) + 2 ^ p.toNat * 1000)

/-- The tile's slot j is LIVE, bound to mailbox mb of the issuing context. -/
def State.mintPip (s : State) (j mb : Nat) (expiry : Option Nat) : State :=
  let x := s.tile s.cur
  s.modPip s.cur j fun p =>
    { p with st := .live, pid := x.pid, self := x.self, cid := s.cid, mb := mb, expiry := expiry, tag := 0, delivered := false, val := 0 }

theorem pmint_helper (h : s.cid ≠ 0) : s.traps (.pmint f) cHELPERWAIT s.ctx.unit := by
  refine (exec_pmint f s).trans (finish_trap ?_)
  simp only [bind_run, inHelper_run, h, ne_eq, not_false_eq_true, decide_true, if_true]
  rfl

theorem pmint_full (h : s.canRun [] f.d = true) (hc : s.cid = 0) (full : (s.tile s.cur).freePip = none) :
    ∃ t, exec (.pmint f) s = .next t ∧ s.wrote t s.now 1 f.d 0 := by
  obtain ⟨t, run, wrote⟩ := wsLat_run (issued_refl s) 1 (0 : Word) (canRun_nil h)
  refine ⟨_, (exec_pmint f s).trans (finish_ok (t := t) ?_), wrote⟩
  simp only [bind_run, inHelper_run, hc, ne_eq, not_true_eq_false, decide_false, Bool.false_eq_true, if_false, get_run]
  generalize pick : List.find? _ _ = r
  cases pick.symm.trans full
  exact run

theorem pmint_mints (h : s.canRun [] f.d = true) (hc : s.cid = 0) {j : Nat} (hj : (s.tile s.cur).freePip = some j) :
    ∃ t, exec (.pmint f) s = .next t ∧ (s.mintPip j f.b.toNat (s.pipExpiry f.p5)).wrote t s.now 1 f.d (s.pipPtr s.cur j) := by
  let u := s.mintPip j f.b.toNat (s.pipExpiry f.p5)
  have own : u.ctx = s.ctx := modTile_ctx s.cur rfl
  obtain ⟨t, run, wrote⟩ := wsLat_run (issued_refl u) 1 (s.pipPtr s.cur j) (own ▸ canRun_nil h)
  refine ⟨_, (exec_pmint f s).trans (finish_ok (t := t) ?_), wrote⟩
  simp only [bind_run, inHelper_run, hc, ne_eq, not_true_eq_false, decide_false, Bool.false_eq_true, if_false, get_run]
  generalize pick : List.find? _ _ = r
  cases pick.symm.trans hj
  exact run

end

/-! ## The pip that PDROP and PSTAT name -/

/-- A pointer names a pip slot of the issuing tile (R173). -/
def State.namesPip (s : State) (p : Word) : Prop := spaceOf p = 2 ∧ ptrDev p = s.devNum (pkgOf s.cur) ∧ ptrTile p = numOf s.cur

section
variable {s : State} {p : Word}

theorem ownPip_space (h : spaceOf p ≠ 2) (lo : Nat) : ownPip p lo s = .error (.trap cSPACE p) := by
  simp only [ownPip, bind_run, get_run, h, decide_false, need_false]

theorem ownPip_stale (hs : spaceOf p = 2) (h : ¬ s.namesPip p) (lo : Nat) : ownPip p lo s = .error (.trap cBADHANDLE p) := by
  have other : (decide (ptrDev p = s.devNum (pkgOf s.cur)) && decide (ptrTile p = numOf s.cur) && decide (lo ≤ pipSlot p)) = false := by
    by_contra c
    simp only [Bool.not_eq_false, Bool.and_eq_true, decide_eq_true_eq] at c
    exact h ⟨hs, c.1⟩
  simp only [ownPip, bind_run, get_run, hs, decide_true, need_true, other, need_false]

theorem ownPip_own (h : s.namesPip p) {lo : Nat} (hl : lo ≤ pipSlot p) : ownPip p lo s = .ok ((), s) := by
  obtain ⟨space, dev, tile⟩ := h
  simp only [ownPip, bind_run, get_run, space, dev, tile, hl, decide_true, Bool.and_self, need_true]

end

/-! ## PSTAT -/

/-- What PSTAT tells of a slot: 1 LIVE, 2 LANDED, 0 spent (R293). -/
def Pip.stat (k : Pip) (gen : Nat) : Word :=
  if k.st = .live && k.gen.toNat = gen then 1 else if k.st = .landed && k.delivered && (k.gen - 1).toNat = gen then 2 else 0

theorem pstat_writes {s : State} {f : CF} (h : s.canRun [f.a] f.d = true) (own : s.namesPip (s.ctx.sreg f.a)) : ∃ t, exec (.pstat f) s = .next t ∧
    s.wrote t (s.issueCycle [f.a]) 1 f.d (((s.tile s.cur).pip (pipSlot (s.ctx.sreg f.a))).stat (pipGen (s.ctx.sreg f.a))) := by
  obtain ⟨ha, hd⟩ := canRun_cons h
  obtain ⟨t, run, wrote⟩ := wsLat_run (issued_now s (s.issueCycle [f.a])) 1
    (((s.tile s.cur).pip (pipSlot (s.ctx.sreg f.a))).stat (pipGen (s.ctx.sreg f.a))) (canRun_nil hd)
  refine ⟨_, (exec_pstat f s).trans (finish_ok (t := t) ?_), wrote⟩
  rw [bind_goes (rs_cycle ha), bind_goes (ownPip_own (s := { s with now := s.issueCycle [f.a] }) own (Nat.zero_le _)), bind_goes (getT_run _)]
  exact run

/-! ## PDROP -/

section
variable {s : State} {f : CF} (ha : s.ctx.readable f.a = true)
include ha

theorem pip_traps (hc : s.cid = 0) {c : BitVec 8}
    (bad : ∀ lo, ownPip (s.ctx.sreg f.a) lo { s with now := s.issueCycle [f.a] } = .error (.trap c (s.ctx.sreg f.a))) :
    s.traps (.pdrop f) c (s.ctx.sreg f.a) ∧ s.traps (.pstat f) c (s.ctx.sreg f.a) := by
  refine ⟨(exec_pdrop f s).trans (finish_trap ?_), (exec_pstat f s).trans (finish_trap ?_)⟩
  · rw [bind_goes (notHelper_control _ hc), bind_goes (rs_cycle ha), bind_stops (bad 64)]
  · rw [bind_goes (rs_cycle ha), bind_stops (bad 0)]

/-- PDROP of a pip of the tile: it ends if it is LIVE, of this generation, and of the issuing context (R175). -/
def State.dropPip (s : State) (p : Word) : State :=
  let k := (s.tile s.cur).pip (pipSlot p)
  if k.st = .live && k.gen.toNat = pipGen p && k.cid = s.cid && k.pid = (s.tile s.cur).pid && k.self = (s.tile s.cur).self then
    s.pipLand s.cur (pipSlot p) 2 (s.pipPtr s.cur (pipSlot p)) false
  else s

theorem pdrop_run (hc : s.cid = 0) (own : s.namesPip (s.ctx.sreg f.a)) (lo : 64 ≤ pipSlot (s.ctx.sreg f.a)) {t : State}
    (ht : ({ s with now := s.issueCycle [f.a] } : State).dropPip (s.ctx.sreg f.a) = t) : exec (.pdrop f) s = .next { t with fate := .done } := by
  refine (exec_pdrop f s).trans (finish_ok ?_)
  rw [bind_goes (notHelper_control _ hc), bind_goes (rs_cycle ha), bind_goes (ownPip_own (s := { s with now := s.issueCycle [f.a] }) own lo), ← ht]
  rfl

end

/-- A slot ends as one whose fill waits for its mailbox (R175). -/
def State.landPip (s : State) (t n : Nat) (tag : BitVec 2) (v : Word) (delivered : Bool) : State :=
  let x := s.tile t
  (s.modPip t n fun p => { p with
    st := .landed, gen := p.gen + 1, tag := tag, val := v, delivered := delivered, order := x.landings }).modTile t fun x =>
      { x with landings := x.landings + 1 }

theorem pipFrom_full {s : State} {t c mb : Nat} (h : (((s.tile t).ctx c).mbs.getD mb Mailbox.reset).full = true) (o : Nat) :
    s.pipFrom o t c mb = s := by
  unfold State.pipFrom
  exact if_pos (by simp only [h, Bool.true_or])

theorem landPip_ctxs (s : State) (t n : Nat) (tag : BitVec 2) (v : Word) (delivered : Bool) (u : Nat) :
    ((s.landPip t n tag v delivered).tile u).ctxs = (s.tile u).ctxs := by
  rw [State.landPip, State.modPip, modTile_modTile, modTile_tile]
  split
  case isTrue e => rw [e]
  case isFalse => rfl

theorem landPip_pip (s : State) (t n : Nat) (tag : BitVec 2) (v : Word) (delivered : Bool) :
    ((s.landPip t n tag v delivered).tile t).pip n = { (s.tile t).pip n with
      st := .landed, gen := ((s.tile t).pip n).gen + 1, tag := tag, val := v, delivered := delivered, order := (s.tile t).landings } := by
  simp only [State.landPip, State.modPip, modTile_tile_same]
  exact mget_mset_same ..

/-- While the mailbox is full the fill waits in the slot. -/
theorem pipLand_full {s : State} {t n : Nat}
    (h : (((s.tile t).ctx ((s.tile t).pip n).cid).mbs.getD ((s.tile t).pip n).mb Mailbox.reset).full = true)
    (tag : BitVec 2) (v : Word) (delivered : Bool) : s.pipLand t n tag v delivered = s.landPip t n tag v delivered := by
  have kept : (((s.landPip t n tag v delivered).tile t).ctx ((s.tile t).pip n).cid) = (s.tile t).ctx ((s.tile t).pip n).cid := by
    rw [Tile.ctx, landPip_ctxs]; rfl
  have stays : (s.landPip t n tag v delivered).pipTurn t ((s.tile t).pip n).cid ((s.tile t).pip n).mb = s.landPip t n tag v delivered :=
    pipFrom_full (by rw [kept]; exact h) t
  exact (if_congr Iff.rfl stays rfl).trans (ite_self _)

theorem dropPip_stays {s : State} {p : Word}
    (h : ¬ (((s.tile s.cur).pip (pipSlot p)).st = .live ∧ ((s.tile s.cur).pip (pipSlot p)).gen.toNat = pipGen p)) : s.dropPip p = s := by
  refine if_neg fun c => ?_
  simp only [Bool.and_eq_true, decide_eq_true_eq] at c
  exact h c.1.1.1

theorem dropPip_lands {s : State} {p : Word} (h : let k := (s.tile s.cur).pip (pipSlot p)
    (k.st = .live ∧ k.gen.toNat = pipGen p) ∧ k.cid = s.cid ∧ k.pid = (s.tile s.cur).pid ∧ k.self = (s.tile s.cur).self ∧
      (s.ctx.mbs.getD k.mb Mailbox.reset).full = true) :
    s.dropPip p = s.landPip s.cur (pipSlot p) 2 (s.pipPtr s.cur (pipSlot p)) false := by
  obtain ⟨live, cid, pid, self, full⟩ := h
  refine (if_pos ?_).trans (pipLand_full (by rw [cid]; exact full) ..)
  simp only [Bool.and_eq_true, decide_eq_true_eq]
  exact ⟨⟨⟨live, cid⟩, pid⟩, self⟩

/-- Settles O24: PMINT looks for the first free slot; PDROP and PSTAT check that the pip is the tile's, and look at its slot. -/
theorem pips : Obligations.Pips := by
  unfold Obligations.Pips
  refine ⟨fun f s h => ⟨pmint_helper, fun hc all => pmint_full h hc (freePip_none all), fun hc j lo hi free before => ?mint⟩,
    fun f s h hc => ?_⟩
  case mint =>
    intro p expiry
    obtain ⟨t, run, wrote⟩ := pmint_mints h hc (freePip_some lo hi free before)
    rw [pipPtr_eq s _ hi] at wrote
    refine ⟨t, run, ?_⟩
    have minted : s.mintPip j f.b.toNat expiry = s.modTile s.cur fun x => { x with
        pips := mset x.pips j ⟨.live, x.pid, x.self, p.gen, 0, f.b.toNat, expiry, p.quarEnd, p.order, 0, false, 0⟩ } := by
      rw [← hc]; rfl
    exact minted ▸ wrote
  intro p x j k n own live
  have ha := (canRun_cons h).1
  let u := ({ s with now := n } : State)
  refine ⟨fun space => pip_traps ha hc (ownPip_space space), fun space other => pip_traps ha hc (ownPip_stale (s := u) space other),
    fun mine lo alive mainCtx part start full => ?drop, fun mine lo dead => ?stays, fun mine => ?stat⟩
  case drop =>
    let v := u.landPip s.cur j 2 (s.pipPtr s.cur j) false
    have lands : u.dropPip p = v := dropPip_lands ⟨alive, mainCtx.trans hc.symm, part, start, full⟩
    have ctx : v.ctx = s.ctx := by
      rw [State.ctx, State.ctxAt, Tile.ctx, landPip_ctxs]; rfl
    refine ⟨_, pdrop_run ha hc mine lo lands, rfl, rfl, ?_, ?_, ?_⟩
    · rw [with_fate_ctx, ctx]
    · rw [with_fate_ctx, ctx]
    · rw [with_fate_tile]; exact landPip_pip u s.cur j ..
  case stays =>
    exact ⟨_, pdrop_run ha hc mine lo (dropPip_stays (s := u) dead), issued_done s n⟩
  case stat =>
    obtain ⟨t, run, wrote⟩ := pstat_writes h mine
    have tells {v : Word} (hv : k.stat (pipGen p) = v) : ∃ t, exec (.pstat f) s = .next t ∧ s.wrote t n 1 f.d v := ⟨t, run, hv ▸ wrote⟩
    refine ⟨fun ⟨st, gen⟩ => tells ?_, fun landed del gen => tells ?_, fun notLive notLanded => tells ?_⟩
    · simp only [Pip.stat, st, gen, decide_true, Bool.and_self, if_true]
    · simp [Pip.stat, landed, del, ← gen]
    · simp [Pip.stat, notLive, notLanded]

end Sys2Proof.Machine
end

section
/-! A stopped program whose step is part-way: what it has pulled it still takes (R181, R182). -/
namespace Sys2Proof.Machine

/-- Rank 0 of two: its step word is at 0x200, its buffer table at 0x100. PREEMPT has stopped it. -/
def stoppedProg : Prog where
  id := 3
  inst := 1
  tile := 0
  cid := 0
  pid := 0
  asid := 0
  priv := true
  prog := 0x200
  table := 0x100
  rank := 0
  nranks := 2
  pc := 0x200
  steps := 0
  ctrs := [0, 0, 0, 0]
  flags := 0
  checked := true
  halfway := false
  out := none
  applied := []
  forwards := []
  signals := 0
  aperBytes := []
  stopped := true

/-- The 64 bytes that rank 1, in region 1, sends to rank 0. They have been pulled, and are not acknowledged. -/
def pulledContrib : Contrib where
  dst := 0
  pkg := 0
  region := 0
  step := 0
  src := 1
  buf := 0x0010000000000000
  off := 0
  len := 64
  data := 5
  pulled := some 0
  via := none
  landed := []
  relay := []
  part := []
  acked := false

/-- Rank 1 waits in its SEND for the acknowledgement. -/
def sendingProg : Prog := { stoppedProg with tile := 336, rank := 1, halfway := true, out := some pulledContrib, stopped := false }

/-- The rank map at 0, in which rank 1 is of region 1; buffer 0 of 64 bytes at the start of scratch; and RECV of 64 bytes from rank + 1. -/
def receiveMem : List Host.Cell := [(5, 0x10), (0x116, 0x10), (0x118, 1), (0x200, 1), (0x205, 0x10), (0x207, 0x20)]

/-- Both programs, in mapped memory, with the first line of tile 0's scratch pinned. -/
def receivingState : State := { State.reset with
  mem := receiveMem
  devices := [(0, { Device.reset with
    clusters := [(0, { Cluster.reset with tlb := [⟨0, 0, true, identityLeaf⟩] })]
    regions := [(0, { Region.reset with progs := [stoppedProg] }), (1, { Region.reset with progs := [sendingProg] })] })]
  tiles := [(0, { Tile.reset with pins := [(0, PinLine.zero)] })] }

/-- The steps that the programs of region 0 have done. -/
def State.stepsDone (s : State) : List Nat := ((s.dev 0).region 0).progs.map fun g => g.steps

/-- The RECV is completed: its bytes are in the buffer, and the program is past it. -/
theorem receivingState_vetchStep :
    (nextOf (exec (.vetchStep 0 0 3) receivingState)).map (fun u => (u.stepsDone, (u.tile 0).byte 0)) = some ([1], 5) := by decide +kernel

/-- Refutes O51: its clause on a stopped program does not ask that no contribution is on its way into it. PREEMPT stops a program at a step's end
(R182), so the step in progress, whose source's contribution has been pulled, is completed. -/
theorem not_vetchEvents : ¬ Obligations.VetchEvents := by
  unfold Obligations.VetchEvents
  intro h
  obtain ⟨steps, -, -⟩ := h
  obtain ⟨idle, -⟩ := steps receivingState receivingState 0 0 0 stoppedProg rfl rfl
  have done := receivingState_vetchStep
  rw [show exec (.vetchStep 0 0 3) receivingState = _ from idle rfl, nextOf_next, Option.map_some] at done
  exact absurd done (by decide +kernel)

end Sys2Proof.Machine
end

section
/-! A request that waits for a relay whose position is not its package's number (R168, R359). -/
namespace Sys2Proof.Machine

/-- An aligned store of one byte by tile 0 to the first line of package 2, by the relay at position 2. -/
def relayedStore : Held where
  id := 0
  tile := 0
  pid := 1
  self := 0
  cid := 0
  unit := 0
  gl := 2 * 2 ^ 45
  words := 1
  work := .store 1 7
  ptr := 0
  seq := 0
  stage := .queue
  via := some 2
  slot := none
  fill := none
  mine := 0
  mineData := 0
  answer := none
  lost := false
  cause := 0

/-- A fabric that meets one position in its first slot, on port 0's eight lanes, and has that relay toward another. -/
def meetingFabric (peer target : Nat) : Fabric := { Fabric.reset with
  guard := 0
  slots := [(0, BitVec.ofNat 64 (2 ^ 15 + peer * 2 ^ 8))]
  paths := [(4 * target, BitVec.ofNat 64 (2 ^ 6 + peer))]
  allows := [(target, ⟨false, 4096, 0, 0, true⟩)]
  lanes := (List.range 8).map fun i => (i, { Lane.reset with st := 1 }) }

/-- Three packages of a domain. Package 1 is at position 2, and package 2 at position 1. -/
def crossedPositions : State := { State.reset with
  present := [0, 1, 2]
  held := [relayedStore]
  devices := [(0, { Device.reset with fabric := meetingFabric 2 1 }), (1, { Device.reset with pos := 2, fabric := meetingFabric 0 1 }),
    (2, { Device.reset with pos := 1 })] }

/-- The store goes to the package at position 2, which is package 1. -/
theorem crossedPositions_slotEdge :
    (nextOf (exec (.slotEdge 0 0) crossedPositions)).map (fun u => u.held.map fun h => h.stage) = some [.relay 1] := by decide +kernel

/-- Refutes O52: its clause on a request that goes to a relay takes the relay's position, which the request's path names, for the number of the relay's
package, which its stage names. Where the two differ, the request waits at the package and not at one of the position's number. -/
theorem not_fabricEvents : ¬ Obligations.FabricEvents := by
  unfold Obligations.FabricEvents
  intro h
  obtain ⟨-, run, -⟩ := h crossedPositions 0
  obtain ⟨-, relay, -⟩ := run rfl relayedStore 1 7 rfl rfl rfl rfl rfl rfl rfl (by decide +kernel) (by decide +kernel) (by decide +kernel) rfl rfl
  obtain ⟨u, ⟨he, -⟩, -, hheld⟩ := relay (by decide +kernel) 2 rfl (by decide +kernel)
  have goes := crossedPositions_slotEdge
  rw [show exec (.slotEdge 0 0) crossedPositions = .next u from he, nextOf_next, Option.map_some, hheld] at goes
  exact absurd goes (by decide +kernel)

end Sys2Proof.Machine
end

section
/-! A context that has yielded, of higher priority than another that is ready (R314, R336). -/
namespace Sys2Proof.Machine

/-- Two contexts of tile 0 at a unit of CNOP and ANOP, which is in the instruction cache. Context 1 has the higher priority and has yielded. -/
def yieldingState : State := { State.reset with
  slots := [0]
  tiles := [(0, { Tile.reset with
    mode := .free
    ctxs := [(0, Ctx.reset), (1, { Ctx.reset with prio := 3, yieldTo := 16 })]
    icache := [⟨0, 0, true, 0⟩] })] }

/-- The pc of each of the two contexts. -/
def State.pcs (s : State) : List Word := [0, 1].map fun c => (s.ctxAt 0 c).pc

/-- The slot is context 0's. -/
theorem yieldingState_step : (nextOf (step yieldingState)).map State.pcs = some [8, 0] := by decide +kernel

/-- Among all live contexts, it would be context 1's. -/
theorem yieldingState_slot :
    (nextOf (andThen (slot false 0 (yieldingState.liveCtxs 0) { yieldingState with slots := [] }) fun u => slot true 0 (u.liveCtxs 0) u)).map
      State.pcs = some [0, 8] := by decide +kernel

/-- Refutes O56: its clause on the slots of a tile grants them among all live contexts. The model leaves a context that has yielded out of both slots
while another is ready (R314, R336). -/
theorem not_stepRunsDecoded : ¬ Obligations.StepRunsDecoded := by
  unfold Obligations.StepRunsDecoded
  intro h
  obtain ⟨-, slots, -⟩ := h
  have granted := slots yieldingState 0 [] rfl rfl rfl (Option.isNone_iff_eq_none.mp (by decide +kernel)) (by decide +kernel)
  have issued := yieldingState_step
  rw [granted, yieldingState_slot] at issued
  exact absurd issued (by decide)

end Sys2Proof.Machine
end

section
/-! The fields of a word, read back from where the layouts of R192, R200 and R205 put them. -/
namespace Sys2Proof

/-! ## Fields of a concatenation -/

theorem bits_append_low {m n : Nat} (x : BitVec m) (y : BitVec n) {lo w : Nat} (h : lo + w ≤ n) :
    bits (no_index (x ++ y)) lo w = bits y lo w := BitVec.extractLsb'_append_eq_of_add_le h

theorem bits_append_high {m n : Nat} (x : BitVec m) (y : BitVec n) {lo w : Nat} (h : n ≤ lo) :
    bits (no_index (x ++ y)) lo w = bits x (lo - n) w := BitVec.extractLsb'_append_eq_of_le h

theorem getLsbD_append_low {m n : Nat} (x : BitVec m) (y : BitVec n) {i : Nat} (h : i < n) :
    (no_index (x ++ y)).getLsbD i = y.getLsbD i := by rw [BitVec.getLsbD_append, if_pos h]

theorem getLsbD_append_high {m n : Nat} (x : BitVec m) (y : BitVec n) {i : Nat} (h : n ≤ i) :
    (no_index (x ++ y)).getLsbD i = x.getLsbD (i - n) := by rw [BitVec.getLsbD_append, if_neg (by omega)]

/-- The words of a C-word or an A-word are its 32 bits. -/
@[simp] theorem bits_setWidth_64 (w : BitVec 32) : bits (w.setWidth 64 : Word) 0 32 = w := by
  refine BitVec.eq_of_toNat_eq ?_
  simp
  omega

/-! ## Fields of a packed word -/

section
variable (cop fn sub op aop lop : Nat)

@[simp] theorem getCR_packCR (f : CR) : getCR (packCR cop fn f) = f := by
  simp [packCR, getCR, bits_append_low, bits_append_high, getLsbD_append_low, getLsbD_append_high, -BitVec.getLsbD_eq_getElem]

@[simp] theorem getCI_packCI (f : CI) : getCI (packCI cop f) = f := by
  simp [packCI, getCI, bits_append_low, bits_append_high, getLsbD_append_low, getLsbD_append_high, -BitVec.getLsbD_eq_getElem]

@[simp] theorem getCB_packCB (f : CB) : getCB (packCB cop f) = f := by
  simp [packCB, getCB, bits_append_low, bits_append_high, getLsbD_append_low, getLsbD_append_high, -BitVec.getLsbD_eq_getElem]

@[simp] theorem getCM_packCM (f : CM) : getCM (packCM cop f) = f := by
  simp [packCM, getCM, bits_append_low, bits_append_high, getLsbD_append_low, getLsbD_append_high, -BitVec.getLsbD_eq_getElem]

@[simp] theorem getAF_packAF (f : AF) : getAF (packAF op f) = f := by
  simp [packAF, getAF, bits_append_low, bits_append_high, getLsbD_append_low, getLsbD_append_high, -BitVec.getLsbD_eq_getElem]

@[simp] theorem getCF_packCF (f : CF) : getCF (packCF cop sub f) = f := by
  simp [packCF, getCF, bits_append_low, bits_append_high, getLsbD_append_low, getLsbD_append_high, -BitVec.getLsbD_eq_getElem]

@[simp] theorem getAW_packAW (f : AW) : getAW (packAW aop f) = f := by
  simp [packAW, getAW, bits_append_low, bits_append_high]

@[simp] theorem getLF_packLF (f : LF) : getLF (packLF lop f) = f := by
  simp [packLF, getLF, bits_append_low, bits_append_high, getLsbD_append_low, getLsbD_append_high, -BitVec.getLsbD_eq_getElem]

@[simp] theorem cop_packCR (f : CR) : bits (packCR cop fn f) 24 6 = BitVec.ofNat 6 cop := by simp [packCR, bits_append_low, bits_append_high]
@[simp] theorem cop_packCI (f : CI) : bits (packCI cop f) 24 6 = BitVec.ofNat 6 cop := by simp [packCI, bits_append_low, bits_append_high]
@[simp] theorem cop_packCB (f : CB) : bits (packCB cop f) 24 6 = BitVec.ofNat 6 cop := by simp [packCB, bits_append_low, bits_append_high]
@[simp] theorem cop_packCM (f : CM) : bits (packCM cop f) 24 6 = BitVec.ofNat 6 cop := by simp [packCM, bits_append_low, bits_append_high]
@[simp] theorem cop_packAF (f : AF) : bits (packAF op f) 24 6 = 0x1B#6 := by simp [packAF, bits_append_low, bits_append_high]
@[simp] theorem cop_packCF (f : CF) : bits (packCF cop sub f) 24 6 = BitVec.ofNat 6 cop := by simp [packCF, bits_append_low, bits_append_high]
@[simp] theorem fn_packCR (f : CR) : bits (packCR cop fn f) 0 9 = BitVec.ofNat 9 fn := by simp [packCR, bits_append_low]
@[simp] theorem op_packAF (f : AF) : bits (packAF op f) 4 5 = BitVec.ofNat 5 op := by simp [packAF, bits_append_low, bits_append_high]
@[simp] theorem sub_packCF (f : CF) : bits (packCF cop sub f) 5 4 = BitVec.ofNat 4 sub := by simp [packCF, bits_append_low, bits_append_high]
@[simp] theorem aop_packAW (f : AW) : bits (packAW aop f) 23 6 = BitVec.ofNat 6 aop := by simp [packAW, bits_append_low, bits_append_high]
@[simp] theorem lop_packLF (f : LF) : bits (packLF lop f) 22 8 = BitVec.ofNat 8 lop := by simp [packLF, bits_append_low, bits_append_high]

end

end Sys2Proof
end

section
/-! Where the operation tables of R193 to R206 are defined. The tables of one COP do not meet. -/
namespace Sys2Proof

theorem aluOf_range {fn : Nat} {c : CR → Instr} (h : aluOf fn = some c) : fn < 30 := by
  unfold aluOf at h
  split at h <;> simp_all

theorem amoOf_range {op : Nat} {c : AF → Instr} (h : amoOf op = some c) : op < 12 := by
  unfold amoOf at h
  split at h <;> simp_all

theorem ciOf_range {cop : Nat} {c : CI → Instr} (h : ciOf cop = some c) : (2 ≤ cop ∧ cop < 13) ∨ cop = 20 := by
  unfold ciOf at h
  split at h <;> simp_all

theorem cbOf_range {cop : Nat} {c : CB → Instr} (h : cbOf cop = some c) : 13 ≤ cop ∧ cop < 20 := by
  unfold cbOf at h
  split at h <;> simp_all

theorem cmOf_range {cop : Nat} {c : CM → Instr} (h : cmOf cop = some c) : (21 ≤ cop ∧ cop < 27) ∨ cop = 31 ∨ cop = 32 := by
  unfold cmOf at h
  split at h <;> simp_all

theorem cfOf_range {key : Nat} {c : CF → Instr} (h : cfOf key = some c) :
    (28 * 16 ≤ key ∧ key < 31 * 16) ∨ (34 * 16 ≤ key ∧ key < 50 * 16) := by
  unfold cfOf at h
  split at h <;> simp_all

theorem aopOf_range {aop : Nat} {c : AW → Instr} (h : aopOf aop = some c) : aop ≠ 0 ∧ aop ≠ 53 ∧ aop < 55 := by
  unfold aopOf at h
  split at h <;> simp_all

theorem lopOf_range {lop : Nat} {c : LF → Instr} (h : lopOf lop = some c) : lop < 45 := by
  unfold lopOf at h
  split at h <;> simp_all

theorem ciOf_eq_none {cop : Nat} (h : ¬ ((2 ≤ cop ∧ cop < 13) ∨ cop = 20)) : ciOf cop = none :=
  Option.eq_none_iff_forall_ne_some.mpr fun _ g => h (ciOf_range g)

theorem cbOf_eq_none {cop : Nat} (h : ¬ (13 ≤ cop ∧ cop < 20)) : cbOf cop = none :=
  Option.eq_none_iff_forall_ne_some.mpr fun _ g => h (cbOf_range g)

theorem cmOf_eq_none {cop : Nat} (h : ¬ ((21 ≤ cop ∧ cop < 27) ∨ cop = 31 ∨ cop = 32)) : cmOf cop = none :=
  Option.eq_none_iff_forall_ne_some.mpr fun _ g => h (cmOf_range g)

/-- The CSRs whose SYSW is a row of its own are those of syswOf. -/
theorem syswOf_eq_none {n : Nat} (h : csrOwnRow n = false) : syswOf n = none := by
  unfold syswOf
  split <;> simp_all [csrOwnRow]

end Sys2Proof
end

section
/-! The operation that a packed word holds (R193 to R206). -/
namespace Sys2Proof

theorem rawC_packCR {fn : Nat} {c : CR → Instr} (f : CR) (h : aluOf fn = some c) : rawC (packCR 1 fn f) = some (c f) := by
  have := aluOf_range h
  simp [rawC, Laws.packCR_l, h, Nat.mod_eq_of_lt (show fn < 512 by omega), -BitVec.getLsbD_eq_getElem]

theorem rawC_packAF {op : Nat} {c : AF → Instr} (f : AF) (h : amoOf op = some c) : rawC (packAF op f) = some (c f) := by
  have := amoOf_range h
  simp [rawC, Laws.packAF_l, h, Nat.mod_eq_of_lt (show op < 32 by omega), -BitVec.getLsbD_eq_getElem]

/- The COP of a C.I, C.B, C.M or C.F word is none of those of CNOP, the ALU, the atomics and TFENCE, which rawC asks for first. -/

theorem rawC_packCI {cop : Nat} {c : CI → Instr} (f : CI) (h : ciOf cop = some c) : rawC (packCI cop f) = some (c f) := by
  have hc := ciOf_range h
  have hcop : cop < 64 ∧ cop ≠ 0 ∧ cop ≠ 1 ∧ cop ≠ 27 ∧ cop ≠ 33 := by omega
  simp [rawC, Laws.packCI_l, Nat.mod_eq_of_lt hcop.1, hcop, h, -BitVec.getLsbD_eq_getElem]

theorem rawC_packCB {cop : Nat} {c : CB → Instr} (f : CB) (h : cbOf cop = some c) : rawC (packCB cop f) = some (c f) := by
  have hc := cbOf_range h
  have hcop : cop < 64 ∧ cop ≠ 0 ∧ cop ≠ 1 ∧ cop ≠ 27 ∧ cop ≠ 33 := by omega
  simp [rawC, Laws.packCB_l, Nat.mod_eq_of_lt hcop.1, hcop, ciOf_eq_none (cop := cop) (by omega), h, -BitVec.getLsbD_eq_getElem]

theorem rawC_packCM {cop : Nat} {c : CM → Instr} (f : CM) (h : cmOf cop = some c) : rawC (packCM cop f) = some (c f) := by
  have hc := cmOf_range h
  have hcop : cop < 64 ∧ cop ≠ 0 ∧ cop ≠ 1 ∧ cop ≠ 27 ∧ cop ≠ 33 := by omega
  simp [rawC, Laws.packCM_l, Nat.mod_eq_of_lt hcop.1, hcop, ciOf_eq_none (cop := cop) (by omega), cbOf_eq_none (cop := cop) (by omega), h,
    -BitVec.getLsbD_eq_getElem]

theorem rawC_packCF {cop sub : Nat} {c : CF → Instr} (f : CF) (hsub : sub < 16) (h : cfOf (cop * 16 + sub) = some c)
    (hs : cop * 16 + sub ≠ 0x2E3 ∨ syswOf f.csr = none) : rawC (packCF cop sub f) = some (c f) := by
  have hc := cfOf_range h
  have hcop : cop < 64 ∧ cop ≠ 0 ∧ cop ≠ 1 ∧ cop ≠ 27 ∧ cop ≠ 33 := by omega
  have hsysw : (if cop * 16 + sub = 0x2E3 then syswOf f.csr else none) = none := ite_eq_right_iff.mpr hs.neg_resolve_left
  simp [rawC, Laws.packCF_l, Nat.mod_eq_of_lt hcop.1, Nat.mod_eq_of_lt hsub, hcop, ciOf_eq_none (cop := cop) (by omega),
    cbOf_eq_none (cop := cop) (by omega), cmOf_eq_none (cop := cop) (by omega), hsysw, h, -BitVec.getLsbD_eq_getElem]

/-- SYSW of a CSR that has a row of its own (R313). -/
theorem rawC_packCF_sysw {c : CF → Instr} (f : CF) (h : syswOf f.csr = some c) : rawC (packCF 46 3 f) = some (c f) := by
  simp [rawC, Laws.packCF_l, ciOf, cbOf, cmOf, h, -BitVec.getLsbD_eq_getElem]

theorem rawC_packTFENCE (mask : BitVec 11) : rawC (packTFENCE mask) = some (.tfence mask) := by
  simp [rawC, packTFENCE, bits_append_low, bits_append_high, getLsbD_append_high, -BitVec.getLsbD_eq_getElem]
  rfl

theorem rawA_packAW {aop : Nat} {c : AW → Instr} (f : AW) (hcvt : aop ≠ 30) (h : aopOf aop = some c) : rawA (packAW aop f) = some (c f) := by
  have ha := aopOf_range h
  simp [rawA, Nat.mod_eq_of_lt (show aop < 64 by omega), ha, hcvt, h]

theorem rawA_packAW_anop (w : BitVec 3) : rawA (packAW 0 ⟨w, 0, 0, 0, 0, 0⟩) = some (.anop w) := by
  have blank : bits (packAW 0 ⟨w, 0#2, 0#3, 0#6, 0#6, 0#6⟩) 0 29 = 0#29 := by
    revert w
    decide
  simp [rawA, blank]

theorem rawA_packAW_vcvt (f : AW) : rawA (packAW 30 f) = some (if f.dt == f.t then .vcvtNarrow f else .vcvt f) := by
  simp [rawA]

theorem rawA_packAW_kop {c : AW → Instr} (f : AW) (h : kopOf f.t.toNat = some c) : rawA (packAW 53 f) = some (c f) := by
  simp [rawA, h]

theorem rawLone_packLF {lop : Nat} {c : LF → Instr} (f : LF) (h : lopOf lop = some c) : rawLone (packLF lop f) = some (c f) := by
  have := lopOf_range h
  simp [rawLone, Laws.packLF_l, Nat.mod_eq_of_lt (show lop < 256 by omega), h, -BitVec.getLsbD_eq_getElem]

end Sys2Proof
end

section
/-! Decoding what is encoded. -/
namespace Sys2Proof

theorem decodeC_of_rawC {w : BitVec 32} {i : Instr} (h : rawC w = some i) (hw : i.wf = true) : decodeC w = some i := by
  rw [decodeC, h, Option.filter_some, if_pos hw]

theorem decodeA_of_rawA {w : BitVec 32} {i : Instr} (h : rawA w = some i) (hw : i.wf = true) : decodeA w = some i := by
  rw [decodeA, h, Option.filter_some, if_pos hw]

theorem decodeLone_of_rawLone {u : Word} {i : Instr} (h : rawLone u = some i) (hw : i.wf = true) : decodeLone u = some i := by
  rw [decodeLone, h, Option.filter_some, if_pos hw]

theorem decodeAs_cword {w : BitVec 32} {i : Instr} (h : rawC w = some i) (hw : i.wf = true) : decodeAs .cword (w.setWidth 64) = some i := by
  rw [decodeAs, bits_setWidth_64, decodeC_of_rawC h hw]

theorem decodeAs_aword {w : BitVec 32} {i : Instr} (h : rawA w = some i) (hw : i.wf = true) : decodeAs .aword (w.setWidth 64) = some i := by
  rw [decodeAs, bits_setWidth_64, decodeA_of_rawA h hw]

/-- Settles O58, by the format and table of each instruction: what the format packs, the table's operation takes back. -/
theorem roundTrip : Obligations.RoundTrip := by
  unfold Obligations.RoundTrip
  intro i hw hform
  cases i with
  | cnop => rfl
  | add f | sub f | and f | or f | xor f | andn f | shl f | shr f | sar f | mul f | mulh f | mulhu f | div f | divu f | rem f | remu f | min f
    | max f | minu f | maxu f | slt f | sltu f | seq f | clz f | ctz f | popc f | csel f | padd f | psub f | bfx f =>
    exact decodeAs_cword (rawC_packCR f rfl) hw
  | addi f | andi f | ori f | xori f | slti f | sltiu f | shli f | shri f | sari f | paddi f | ptag f | jr f =>
    exact decodeAs_cword (rawC_packCI f rfl) hw
  | beq f | bne f | blt f | bge f | bltu f | bgeu f | loop f => exact decodeAs_cword (rawC_packCB f rfl) hw
  | ldl f | stl f | ldg f | stg f | ldacq f | strel f | vld f | vsta f => exact decodeAs_cword (rawC_packCM f rfl) hw
  | amoadd f | amoand f | amoor f | amoxor f | amomin f | amomax f | amominu f | amomaxu f | amoswp f | amocas f | amofadd f | amofmax f =>
    exact decodeAs_cword (rawC_packAF f rfl) hw
  | tfence mask => exact decodeAs_cword (rawC_packTFENCE mask) hw
  | acq f | rel f | fence f | qwait f | mbw f | mbr f | mbtest f | binit f | bexpect f | barrive f | bwait f | btest f | bwany f | chtest f
    | chwait f | chclr f | lsalloc f | lsfree f | pmint f | pdrop f | pstat f | cpych f | cpystat f | cpywait f | cpykill f | trkset f | trkclr f
    | hstart f | hend f | hjoin f | hkill f | taskq f | gfuse f | gsplit f | csign f | cstep f | cdiss f | send f | recv f | recvt f | coll f
    | cwait f | mbegin f | mend f | mzero f | msync f | ecall f | eret f | sysr f | waiti f | yield f | brk f | halt f | snap f | tlbinv f
    | resize f | lineclr f | cwb f | cinv f | ctxsave f | ctxload f | preempt f | kget f | kset f =>
    exact decodeAs_cword (rawC_packCF f (by decide) rfl (.inl (by decide))) hw
  | sysw f =>
    obtain ⟨⟨-, own⟩, -⟩ : (_ ∧ csrOwnRow f.csr = false) ∧ _ := by simpa [Instr.wf] using hw
    exact decodeAs_cword (rawC_packCF f (by decide) rfl (.inr (syswOf_eq_none own))) hw
  | syswFlags f | syswRingcfg f | syswRecvbase f | syswRecvsize f | recvtailClr f | glDrainGo f | glRelockGo f =>
    obtain ⟨csr, -⟩ : f.csr = _ ∧ _ := by simpa only [Instr.wf, Bool.and_eq_true, beq_iff_eq] using hw
    exact decodeAs_cword (rawC_packCF_sysw f (by rw [csr]; rfl)) hw
  | glLanestatEn f | glAllowWithhold f =>
    have csr := eq_of_beq hw
    exact decodeAs_cword (rawC_packCF_sysw f (by rw [csr]; rfl)) hw
  | anop w => exact decodeAs_aword (rawA_packAW_anop w) hw
  | vadd f | vsub f | vmul f | vmulh f | vmin f | vmax f | vand f | vor f | vxor f | vandn f | vshl f | vshr f | vsar f | vabs f | vclz f | vpopc f
    | vadds f | vsubs f | vfadd f | vfsub f | vfmul f | vfma f | vfmin f | vfmax f | vrcp f | vrsq f | vexp2 f | vlog2 f | vsqrt f | vceq f
    | vcne f | vclt f | vcle f | vsel f | vrsum f | vrmax f | vrmin f | vshuf f | vrotl f | vbcast f | vcompr f | vexpnd f | vtmrg f | vtscl f
    | vhash f | vpart f | vrng f | vscan f | vrank f | vstd f | vmkmask f | kpopc f =>
    exact decodeAs_aword (rawA_packAW f (by decide) rfl) hw
  | vcvt f =>
    have other : (f.dt == f.t) = false := by simp_all [Instr.wf]
    exact decodeAs_aword (by rw [rawA_packAW_vcvt, other]; rfl) hw
  | vcvtNarrow f =>
    have same : (f.dt == f.t) = true := by simp_all [Instr.wf]
    exact decodeAs_aword (by rw [rawA_packAW_vcvt, same]; rfl) hw
  | kand f | kor f | kxor f | kandn f | knot f =>
    obtain ⟨type, -⟩ : f.t = _ ∧ _ := by simpa only [Instr.wf, Bool.and_eq_true, beq_iff_eq, and_assoc] using hw
    exact decodeAs_aword (rawA_packAW_kop f (by rw [type]; rfl)) hw
  | taskqLone f | collLone f | mma f | mldb f | mrot f | mstore f | mload f | li f | lih f | j f | jal f | lia f | cpy f | vgather f | vscatter f =>
    exact decodeLone_of_rawLone (rawLone_packLF f rfl) hw
  | _ => exact absurd rfl hform

/-- Settles O57: each word is its format's packing of an operation and its fields; the last two hold no operation. -/
theorem decodeWords : Obligations.DecodeWords := by
  unfold Obligations.DecodeWords
  refine ⟨decodeC_of_rawC (rawC_packCR ⟨false, 3, 4, 5⟩ rfl) rfl, decodeC_of_rawC (rawC_packCI ⟨true, 7, 8, 0x3FFF⟩ rfl) rfl,
    decodeC_of_rawC (rawC_packCB ⟨false, 1, 2, 5⟩ rfl) rfl, decodeC_of_rawC (rawC_packCM ⟨false, 9, 10, 6, 0x7FF⟩ rfl) rfl,
    decodeC_of_rawC (rawC_packAF ⟨false, 1, 2, 3, 3, 1⟩ rfl) rfl, decodeC_of_rawC (rawC_packCF_sysw ⟨false, 0, 6, 0, 9⟩ rfl) rfl,
    decodeC_of_rawC (rawC_packTFENCE 0x400) rfl, decodeA_of_rawA (rawA_packAW ⟨2, 1, 2, 20, 16, 17⟩ (by decide) rfl) rfl,
    decodeA_of_rawA (rawA_packAW_kop ⟨0, 0, 4, 57, 58, 56⟩ rfl) rfl,
    decodeLone_of_rawLone (rawLone_packLF ⟨false, 11, 0, 0x0AB, 1, 0, 0x123456⟩ rfl) rfl, ?_, ?_⟩
  · decide
  · decide

end Sys2Proof
end

section
/-! The operations on two registers: each writes one register with a function of its operands (R141, R215). -/
namespace Sys2Proof.Machine

/-! ## A part whose only effect on the registers is one write -/

/-- A part that has read its operands, and made of s what is e but for the clock, ends with a write of s[d]. -/
theorem finish_wsLat {m : M Unit} {s e : State} {n lat : Nat} {d : BitVec 5} {v : Word} (hm : m s = wsLat lat d v { e with now := n })
    (hd : e.ctx.pendingReg d = false) : ∃ t, finish m s = .next t ∧ e.wrote t n lat d v := by
  obtain ⟨t, run, wrote⟩ := wsLat_run (issued_now e n) lat v hd
  exact ⟨_, finish_ok (hm.trans run), wrote⟩

/-- The instruction is an operation of a latency on two registers, and what it computes is related to them by rel. -/
def Computes (i : CR → Instr) (lat : Nat) (rel : Word → Word → Word → Prop) : Prop :=
  ∃ op : Word → Word → Word, (∀ f s, exec (i f) s = finish (alu lat f op) s) ∧ ∀ a b, rel a b (op a b)

theorem Computes.run {i : CR → Instr} {lat : Nat} {rel : Word → Word → Word → Prop} (h : Computes i lat rel) {f : CR} {s : State}
    (can : s.canRun [f.a, f.b] f.d = true) : ∃ t v, exec (i f) s = .next t ∧ s.wrote t (s.issueCycle [f.a, f.b]) lat f.d v ∧
      rel (s.ctx.sreg f.a) (s.ctx.sreg f.b) v := by
  obtain ⟨op, meaning, related⟩ := h
  obtain ⟨t, run, wrote⟩ := alu_run lat f op can
  exact ⟨t, _, (meaning f s).trans run, wrote, related ..⟩

/-! ## What the operations compute -/

theorem shiftCount_eq (b : Word) : shiftCount b = b.toNat % 64 := bits_zero_toNat b 6

theorem sub_restores (a b : Word) : ((a - b).toNat + b.toNat) % 2 ^ 64 = a.toNat := by rw [← BitVec.toNat_add, BitVec.sub_add_cancel]

theorem andn_bit (a b : Word) : ∀ i < 64, (a &&& ~~~b).getLsbD i = (a.getLsbD i && !b.getLsbD i) := fun i hi => by
  rw [BitVec.getLsbD_and, BitVec.getLsbD_not, decide_eq_true hi, Bool.true_and]

theorem shl_toNat (a b : Word) : (a <<< shiftCount b).toNat = a.toNat * 2 ^ (b.toNat % 64) % 2 ^ 64 := by
  rw [BitVec.toNat_shiftLeft, Nat.shiftLeft_eq, shiftCount_eq]
theorem shr_toNat (a b : Word) : (a >>> shiftCount b).toNat = a.toNat / 2 ^ (b.toNat % 64) := by
  rw [BitVec.toNat_ushiftRight, Nat.shiftRight_eq_div_pow, shiftCount_eq]
theorem sar_toInt (a b : Word) : (a.sshiftRight (shiftCount b)).toInt = a.toInt / 2 ^ (b.toNat % 64) := by
  rw [BitVec.toInt_sshiftRight, Int.shiftRight_eq_div_pow, shiftCount_eq]
  norm_cast

/-- The product of two signed words, halved in width, is a signed word. -/
theorem mulh_toInt (a b : Word) : (highHalf (a.toInt * b.toInt)).toInt = a.toInt * b.toInt / 2 ^ 64 := by
  have product : |a.toInt * b.toInt| ≤ 2 ^ 63 * 2 ^ 63 := by
    have bound (x : Word) : |x.toInt| ≤ 2 ^ 63 := abs_le.mpr ⟨x.le_toInt, x.toInt_lt.le⟩
    rw [abs_mul]
    exact mul_le_mul (bound a) (bound b) (abs_nonneg _) (by norm_num)
  obtain ⟨low, high⟩ := abs_le.mp product
  rw [highHalf, BitVec.toInt_ofInt, Int.bmod_eq_of_le] <;> omega

theorem mulhu_toNat (a b : Word) : (highHalf ((a.toNat : Int) * (b.toNat : Int))).toNat = a.toNat * b.toNat / 2 ^ 64 := by
  have product : a.toNat * b.toNat < 2 ^ 64 * 2 ^ 64 := Nat.mul_lt_mul'' a.isLt b.isLt
  have half : ((a.toNat : Int) * (b.toNat : Int)) / 2 ^ 64 = ((a.toNat * b.toNat / 2 ^ 64 : Nat) : Int) := by norm_cast
  rw [highHalf, half, BitVec.ofInt_natCast, BitVec.toNat_ofNat, Nat.mod_eq_of_lt (by omega)]

/-- The value of a choice between two words. -/
theorem choice_value {α : Type} (value : Word → α) {b : Bool} {p : Prop} [Decidable p] (h : b = true ↔ p) (x y : Word) :
    value (if b then x else y) = if p then value x else value y := (apply_ite value (b = true) x y).trans (if_congr h rfl rfl)

theorem min_toInt (a b : Word) : (if a.slt b then a else b).toInt = min a.toInt b.toInt := by
  rw [choice_value BitVec.toInt BitVec.slt_iff_toInt_lt, min_def_lt]
theorem max_toInt (a b : Word) : (if a.slt b then b else a).toInt = max a.toInt b.toInt := by
  rw [choice_value BitVec.toInt BitVec.slt_iff_toInt_lt, max_def_lt]
theorem minu_toNat (a b : Word) : (if a.ult b then a else b).toNat = min a.toNat b.toNat := by
  rw [choice_value BitVec.toNat BitVec.ult_iff_lt, min_def_lt]; rfl
theorem maxu_toNat (a b : Word) : (if a.ult b then b else a).toNat = max a.toNat b.toNat := by
  rw [choice_value BitVec.toNat BitVec.ult_iff_lt, max_def_lt]; rfl

/-! A comparison gives 1 where it holds, and 0 where it does not. -/

theorem slt_word (a b : Word) : ofBool (a.slt b) = if a.toInt < b.toInt then 1 else 0 := choice_value id BitVec.slt_iff_toInt_lt 1 0
theorem sltu_word (a b : Word) : ofBool (a.ult b) = if a.toNat < b.toNat then 1 else 0 := choice_value id BitVec.ult_iff_lt 1 0
theorem seq_word (a b : Word) : ofBool (a == b) = if a = b then 1 else 0 := choice_value id beq_iff_eq 1 0

/-- Settles O2: each row is an operation on two registers, and what it computes is what the row says of it. -/
theorem aluResults : Obligations.AluResults := by
  unfold Obligations.AluResults
  intro f s can row listed
  refine Computes.run ?_ can
  revert row
  simp only [List.forall_mem_cons, List.not_mem_nil, false_implies, implies_true, and_true]
  exact ⟨⟨_, fun _ _ => rfl, BitVec.toNat_add⟩, ⟨_, fun _ _ => rfl, sub_restores⟩,
    ⟨_, fun _ _ => rfl, fun _ _ _ _ => BitVec.getLsbD_and⟩, ⟨_, fun _ _ => rfl, fun _ _ _ _ => BitVec.getLsbD_or⟩,
    ⟨_, fun _ _ => rfl, fun _ _ _ _ => BitVec.getLsbD_xor⟩, ⟨_, fun _ _ => rfl, andn_bit⟩,
    ⟨_, fun _ _ => rfl, shl_toNat⟩, ⟨_, fun _ _ => rfl, shr_toNat⟩, ⟨_, fun _ _ => rfl, sar_toInt⟩,
    ⟨_, fun _ _ => rfl, BitVec.toNat_mul⟩, ⟨_, fun _ _ => rfl, mulh_toInt⟩, ⟨_, fun _ _ => rfl, mulhu_toNat⟩,
    ⟨_, fun _ _ => rfl, min_toInt⟩, ⟨_, fun _ _ => rfl, max_toInt⟩, ⟨_, fun _ _ => rfl, minu_toNat⟩, ⟨_, fun _ _ => rfl, maxu_toNat⟩,
    ⟨_, fun _ _ => rfl, slt_word⟩, ⟨_, fun _ _ => rfl, sltu_word⟩, ⟨_, fun _ _ => rfl, seq_word⟩⟩

end Sys2Proof.Machine
end

section
/-! The counts of bits, the conditional select and the bit field (R215, R217). -/
namespace Sys2Proof.Machine

/-! ## Counts -/

/-- Every bit above the highest one is 0, and CLZ counts those (R215). -/
theorem leadingZeros_spec {n : Nat} (x : BitVec n) : leadingZeros x ≤ n ∧ (∀ i < leadingZeros x, x.getLsbD (n - 1 - i) = false) ∧
    (leadingZeros x < n → x.getLsbD (n - 1 - leadingZeros x) = true) := by
  rw [leadingZeros]
  split
  case isTrue zero =>
    subst zero
    exact ⟨Nat.le_refl n, fun i _ => BitVec.getLsbD_zero, fun h => absurd h (Nat.lt_irrefl n)⟩
  case isFalse nonzero =>
    have pos : x.toNat ≠ 0 := fun h => nonzero (BitVec.eq_of_toNat_eq h)
    have top : x.toNat.log2 < n := (Nat.log2_lt pos).mpr x.isLt
    refine ⟨by omega, fun i hi => ?_, fun _ => ?_⟩
    · refine Nat.testBit_lt_two_pow (Nat.lt_of_lt_of_le (Nat.lt_log2_self) (Nat.pow_le_pow_right (by decide) ?_))
      omega
    · rw [show n - 1 - (n - 1 - x.toNat.log2) = x.toNat.log2 by omega]
      exact Nat.testBit_log2 pos

theorem trailingZeros_spec (n : Nat) (x : BitVec n) : trailingZeros n x ≤ n ∧ (∀ i < trailingZeros n x, x.getLsbD i = false) ∧
    (trailingZeros n x < n → x.getLsbD (trailingZeros n x) = true) := by
  induction n with
  | zero => exact ⟨Nat.le_refl 0, fun i hi => absurd hi (Nat.not_lt_zero i), fun h => absurd h (Nat.lt_irrefl 0)⟩
  | succ n ih =>
    have rest (i : Nat) (hi : i < n) : (x.extractLsb' 1 n).getLsbD i = x.getLsbD (1 + i) := by
      rw [BitVec.getLsbD_extractLsb', decide_eq_true hi, Bool.true_and]
    obtain ⟨bound, zeros, one⟩ := ih (x.extractLsb' 1 n)
    rw [trailingZeros]
    split
    case isTrue low => exact ⟨Nat.zero_le _, fun i hi => absurd hi (Nat.not_lt_zero i), fun _ => low⟩
    case isFalse low =>
      refine ⟨by omega, fun i hi => ?_, fun h => ?_⟩
      · cases i with
        | zero => exact Bool.eq_false_iff.mpr low
        | succ i => rw [Nat.add_comm i 1, ← rest i (by omega)]; exact zeros i (by omega)
      · rw [← rest _ (by omega)]; exact one (by omega)

theorem popCount_eq {n : Nat} (x : BitVec n) : popCount x = (List.range n).countP fun i => x.getLsbD i := by
  have upTo (m : Nat) : (List.range m).foldl (fun acc i => if x.getLsbD i then acc + 1 else acc) 0 =
      (List.range m).countP fun i => x.getLsbD i := by
    induction m with
    | zero => rfl
    | succ m ih =>
      rw [List.range_succ, List.foldl_append, ih, List.countP_append, List.countP_singleton]
      rw [List.foldl_cons, List.foldl_nil]
      split <;> rfl
  exact upTo n

/-! ## The select -/

theorem csel_writes {f : CR} {s : State} (can : s.canRun [f.a, f.b] f.d = true) (hd : s.ctx.readable f.d = true) :
    ∃ t, exec (.csel f) s = .next t ∧ s.wrote t (s.issueCycle [f.a, f.b, f.d]) 1 f.d
      (if s.ctx.sreg f.b ≠ 0 then s.ctx.sreg f.a else s.ctx.sreg f.d) := by
  obtain ⟨ha, can⟩ := canRun_cons can
  obtain ⟨hb, can⟩ := canRun_cons can
  have third : ({ s with now := s.issueCycle [f.a, f.b] } : State).ctx.readable f.d = true := hd
  refine finish_wsLat ?_ (canRun_nil can)
  rw [rs_pair ha hb, bind_run, rs_now third]
  rfl

/-- Settles O3: each count is what its specification says of the bits; CSEL reads a third register. -/
theorem bitResults : Obligations.BitResults := by
  unfold Obligations.BitResults
  intro f s can a b n
  refine ⟨?_, ?_, ?_, csel_writes can⟩
  · obtain ⟨t, run, wrote⟩ := alu_run 1 f (fun a _ => BitVec.ofNat 64 (leadingZeros a)) can
    exact ⟨t, _, run, wrote, leadingZeros_spec a⟩
  · obtain ⟨t, run, wrote⟩ := alu_run 1 f (fun a _ => BitVec.ofNat 64 (trailingZeros 64 a)) can
    exact ⟨t, _, run, wrote, trailingZeros_spec 64 a⟩
  · rw [← popCount_eq]
    exact alu_run 1 f (fun a _ => BitVec.ofNat 64 (popCount a)) can

/-! ## The bit field -/

/-- The low len bits of a word. -/
theorem lowBits_bit (x : Word) (len : Nat) {i : Nat} (hi : i < 64) :
    (x &&& BitVec.ofNat 64 (2 ^ len - 1)).getLsbD i = (x.getLsbD i && decide (i < len)) := by
  rw [BitVec.getLsbD_and, BitVec.getLsbD_ofNat, Nat.testBit_two_pow_sub_one, decide_eq_true hi, Bool.true_and]

/-- A shift to the top of the word and an arithmetic shift back extend the sign of a field of len bits. -/
theorem extendSign_bit (x : Word) {len i : Nat} (hlen : 1 ≤ len ∧ len ≤ 64) (hi : i < 64) :
    ((x <<< (64 - len)).sshiftRight (64 - len)).getLsbD i = x.getLsbD (if i < len then i else len - 1) := by
  rw [BitVec.getLsbD_sshiftRight, BitVec.msb_eq_getLsbD_last, decide_eq_false (Nat.not_le.mpr hi), Bool.not_false, Bool.true_and]
  by_cases inside : i < len
  · rw [if_pos (by omega), if_pos inside, BitVec.getLsbD_shiftLeft, Nat.add_sub_cancel_left]
    simp
    omega
  · rw [if_neg (by omega), if_neg inside, BitVec.getLsbD_shiftLeft, show 64 - 1 - (64 - len) = len - 1 by omega]
    simp
    omega

theorem bitField_eq (a b : Word) : bitField a b =
    let len := b.toNat / 2 ^ 8 % 64 + 1
    let field := (a >>> (b.toNat % 64)) &&& BitVec.ofNat 64 (2 ^ len - 1)
    if b.getLsbD 16 then (field <<< (64 - len)).sshiftRight (64 - len) else field := by
  rw [bitField, bits_zero_toNat, bits_toNat]
  rfl

theorem bitField_bit (a b : Word) {i : Nat} (hi : i < 64) :
    let lo := b.toNat % 64
    let len := b.toNat / 2 ^ 8 % 64 + 1
    (bitField a b).getLsbD i = if i < len then a.getLsbD (lo + i) else b.getLsbD 16 && a.getLsbD (lo + (len - 1)) := by
  intro lo len
  have hlen : 1 ≤ len ∧ len ≤ 64 := ⟨Nat.le_add_left .., Nat.mod_lt _ (by decide)⟩
  have field (j : Nat) (hj : j < 64) : ((a >>> lo) &&& BitVec.ofNat 64 (2 ^ len - 1)).getLsbD j = (a.getLsbD (lo + j) && decide (j < len)) := by
    rw [lowBits_bit _ _ hj, BitVec.getLsbD_ushiftRight]
  rw [bitField_eq]
  cases sign : b.getLsbD 16 with
  | false =>
    refine (field i hi).trans ?_
    by_cases inside : i < len <;> simp [inside]
  | true =>
    refine (extendSign_bit _ hlen hi).trans ?_
    by_cases inside : i < len
    · rw [if_pos inside, if_pos inside, field i hi, decide_eq_true inside, Bool.and_true]
    · rw [if_neg inside, if_neg inside, field (len - 1) (by omega), decide_eq_true (by omega), Bool.and_true, Bool.true_and]

/-- Settles O4: bit by bit, with the sign for the bits past the field. -/
theorem bitFields : Obligations.BitFields := by
  unfold Obligations.BitFields
  intro f s can a b lo len
  obtain ⟨t, run, wrote⟩ := alu_run 1 f bitField can
  exact ⟨t, _, run, wrote, fun i hi => bitField_bit a b hi⟩

end Sys2Proof.Machine
end

section
/-! The division family (R216). -/
namespace Sys2Proof.Machine

/-- A context with a flag update by its part (R244). -/
def Ctx.flagged (k : Ctx) (compute : Bool) (fl : BitVec 11) : Ctx :=
  if compute || k.backlog.isEmpty then k.raise fl (unitAddr k.upc) else { k with late := k.late ||| fl }

theorem flagged_eq (s : State) (fl : BitVec 11) : s.flagged fl = s.setCtx (s.ctx.flagged s.compute fl) :=
  (apply_ite s.setCtx _ _ _).symm

/-- A flag update does not look at the clock. -/
theorem flagged_now (s : State) (fl : BitVec 11) (n : Nat) : ({ s with now := n } : State).flagged fl = { s.flagged fl with now := n } := by
  rw [flagged_eq, flagged_eq]
  rfl

section
variable {f : CR} {s : State} (can : s.canRun [f.a, f.b] f.d = true) (zero : Word → Word) (op : Word → Word → Word)
include can

/-- A division by anything but 0 is an operation of 24 cycles on two registers. -/
theorem divide_nonzero (hb : s.ctx.sreg f.b ≠ 0) : ∃ t, finish (divide f zero op) s = .next t ∧
    s.wrote t (s.issueCycle [f.a, f.b]) 24 f.d (op (s.ctx.sreg f.a) (s.ctx.sreg f.b)) := by
  obtain ⟨readA, can⟩ := canRun_cons can
  obtain ⟨readB, can⟩ := canRun_cons can
  refine finish_wsLat ?_ (canRun_nil can)
  rw [divide, rs_pair readA readB, if_neg hb, if_neg hb]

/-- A division by 0 raises DZ, once its operands are read. -/
theorem divide_zero (hb : s.ctx.sreg f.b = 0) : ∃ t, finish (divide f zero op) s = .next t ∧
    (s.flagged fDZ).wrote t (s.issueCycle [f.a, f.b]) 24 f.d (zero (s.ctx.sreg f.a)) := by
  obtain ⟨readA, can⟩ := canRun_cons can
  obtain ⟨readB, can⟩ := canRun_cons can
  have loads : (s.flagged fDZ).ctx.pendingReg f.d = s.ctx.pendingReg f.d := by
    obtain ⟨-, pend, -⟩ := flagged_fields s fDZ
    rw [Ctx.pendingReg, Ctx.pendingReg, pend]
  refine finish_wsLat ?_ (loads.trans (canRun_nil can))
  rw [divide, rs_pair readA readB, if_pos hb, if_pos hb, bind_goes (raise_run ..), flagged_now]

end

theorem sdiv_eq_tdiv (a b : Word) : a.sdiv b = BitVec.ofInt 64 (a.toInt.tdiv b.toInt) :=
  BitVec.eq_of_toInt_eq (by rw [BitVec.toInt_sdiv, BitVec.toInt_ofInt])
theorem srem_eq_tmod (a b : Word) : a.srem b = BitVec.ofInt 64 (a.toInt.tmod b.toInt) := by rw [← BitVec.toInt_srem, BitVec.ofInt_toInt]

/-- Settles O5: the four instructions are divisions that round toward zero; one by 0 is the same for both quotients and for both remainders. -/
theorem divisionResults : Obligations.DivisionResults := by
  unfold Obligations.DivisionResults
  intro f s can a b n
  refine ⟨fun nonzero => ?_, fun zero => ?_⟩
  · rw [← sdiv_eq_tdiv, ← srem_eq_tmod, ← BitVec.udiv_def, ← BitVec.umod_def]
    exact ⟨divide_nonzero can _ _ nonzero, divide_nonzero can _ _ nonzero, divide_nonzero can _ _ nonzero, divide_nonzero can _ _ nonzero⟩
  · exact ⟨divide_zero can (fun _ => BitVec.allOnes 64) _ zero, divide_zero can (fun _ => BitVec.allOnes 64) _ zero, divide_zero can id _ zero,
      divide_zero can id _ zero⟩

end Sys2Proof.Machine
end

section
/-! Pointer addition (R212), and the immediate operations, PTAG and the constants (R218, R220, R221). -/
namespace Sys2Proof.Machine

/-! ## Pointer addition -/

theorem addrOf_eq (p : Word) : addrOf p = p.toNat % 2 ^ 52 := bits_zero_toNat p 52

theorem append_eq_ofNat {m n : Nat} (x : BitVec m) (y : BitVec n) : x ++ y = BitVec.ofNat (m + n) (x.toNat * 2 ^ n + y.toNat) := by
  rw [← append_toNat, BitVec.ofNat_toNat, BitVec.setWidth_eq]

theorem withAddr_eq (p : Word) {a : Nat} (h : a < 2 ^ 52) : withAddr p a = BitVec.ofNat 64 (p.toNat / 2 ^ 52 * 2 ^ 52 + a) := by
  have tags : p.toNat / 2 ^ 52 < 2 ^ 12 := by have := p.isLt; omega
  rw [withAddr, append_eq_ofNat, bits_toNat, BitVec.toNat_ofNat, Nat.mod_eq_of_lt tags, Nat.mod_eq_of_lt h]

/-- R212: the sum of a pointer and an integer. -/
theorem padd?_eq (p : Word) (n : Int) :
    let t := (p.toNat % 2 ^ 52 : Nat) + n
    if 0 ≤ t ∧ t < 2 ^ 52 then padd? p n = some (BitVec.ofNat 64 (p.toNat / 2 ^ 52 * 2 ^ 52 + t.toNat)) else padd? p n = none := by
  intro t
  have sum : padd? p n = if t < 0 ∨ 2 ^ 52 ≤ t then none else some (withAddr p t.toNat) := by rw [padd?, addrOf_eq]
  rw [sum]
  split
  case isTrue inside => rw [if_neg (by omega), withAddr_eq p (by omega)]
  case isFalse outside => rw [if_pos (by omega)]

theorem padd_run {p q : Word} {n : Int} (h : padd? p n = some q) (v : Word) (s : State) : padd p n v s = .ok (q, s) := by rw [padd, h]; rfl
theorem padd_overflow {p : Word} {n : Int} (h : padd? p n = none) (v : Word) (s : State) : padd p n v s = .error (.trap cPTROVF v) := by
  rw [padd, h]; rfl

/-! ## Instructions that make a register of at most one other -/

/-- The instruction reads s[r] and writes g of it to s[d]. -/
theorem unary_writes {i : Instr} {s : State} {r d : BitVec 5} {v : Word} {g : Word → Word}
    (hi : exec i s = finish (do let x ← rs r; ws d (g x)) s) (hv : g (s.ctx.sreg r) = v) (can : s.canRun [r] d = true) :
    ∃ t, exec i s = .next t ∧ s.wrote t (s.issueCycle [r]) 1 d v := by
  obtain ⟨hr, can⟩ := canRun_cons can
  rw [hi, ← hv]
  refine finish_wsLat ?_ (canRun_nil can)
  rw [bind_run, rs_cycle hr]
  rfl

theorem li_writes {f : LF} {s : State} (can : s.canRun [] f.ra = true) :
    ∃ t, exec (.li f) s = .next t ∧ s.wrote t s.now 1 f.ra (f.imm32.signExtend 64) :=
  finish_wsLat (m := ws f.ra (sext f.imm32)) rfl (canRun_nil can)

/-- LIA with an address that does not carry out of bit 51. -/
theorem lia_writes {f : LF} {s : State} {p : Word} (can : s.canRun [] f.ra = true) (hp : padd? s.ctx.upc (8 * f.imm32.toInt) = some p) :
    ∃ t, exec (.lia f) s = .next t ∧ s.wrote t s.now 1 f.ra (BitVec.ofNat 64 (p.toNat % 2 ^ 52)) := by
  rw [← bits_zero_toNat, ← zext_eq]
  refine finish_wsLat (m := (do let k ← getC; let q ← padd k.upc (8 * f.imm32.toInt) k.upc; ws f.ra (zext (bits q 0 52)))) ?_ (canRun_nil can)
  rw [bind_run, getC_run]
  exact bind_goes (padd_run hp ..)

/-! ## Their values -/

theorem shl_eq_ofNat (a : Word) (n : Nat) : a <<< n = BitVec.ofNat 64 (a.toNat * 2 ^ n) :=
  BitVec.eq_of_toNat_eq (by rw [BitVec.toNat_shiftLeft, Nat.shiftLeft_eq, BitVec.toNat_ofNat])
theorem shr_eq_ofNat (a : Word) (n : Nat) : a >>> n = BitVec.ofNat 64 (a.toNat / 2 ^ n) := by
  rw [← Nat.shiftRight_eq_div_pow, ← BitVec.toNat_ushiftRight, BitVec.ofNat_toNat, BitVec.setWidth_eq]
theorem sar_eq_ofInt (a : Word) (n : Nat) : a.sshiftRight n = BitVec.ofInt 64 (a.toInt / 2 ^ n) := by
  rw [BitVec.sshiftRight, Int.shiftRight_eq_div_pow]
  norm_cast

/-- PTAG's twelve bits of tags over an address. -/
theorem ptag_word (imm : BitVec 14) (a : Word) : bits imm 2 12 ++ bits a 0 52 = BitVec.ofNat 64 (imm.toNat / 4 * 2 ^ 52 + a.toNat % 2 ^ 52) := by
  have tags : imm.toNat / 2 ^ 2 < 2 ^ 12 := by have := imm.isLt; omega
  rw [append_eq_ofNat, bits_toNat, bits_zero_toNat, Nat.mod_eq_of_lt tags]
  rfl

/-- LIH's upper half over the lower half of its register. -/
theorem lih_word (imm : BitVec 32) (a : Word) : imm ++ bits a 0 32 = BitVec.ofNat 64 (imm.toNat * 2 ^ 32 + a.toNat % 2 ^ 32) := by
  rw [append_eq_ofNat, bits_zero_toNat]

/-- Settles O6: each of them makes the register it writes of at most one that it reads. -/
theorem immediateResults : Obligations.ImmediateResults := by
  unfold Obligations.ImmediateResults
  refine ⟨fun f s can => ?_, fun f s => li_writes, fun f s => unary_writes rfl (lih_word ..), fun f s p => lia_writes⟩
  simp only [List.forall_mem_cons, List.not_mem_nil, false_implies, implies_true, and_true]
  exact ⟨unary_writes rfl rfl can, unary_writes rfl rfl can, unary_writes rfl rfl can, unary_writes rfl rfl can, unary_writes rfl (slt_word ..) can,
    unary_writes rfl (sltu_word ..) can, unary_writes rfl (shl_eq_ofNat ..) can, unary_writes rfl (shr_eq_ofNat ..) can,
    unary_writes rfl (sar_eq_ofInt ..) can, unary_writes rfl (ptag_word ..) can⟩

end Sys2Proof.Machine
end

section
/-! PADD, PSUB and PADDI (R219). -/
namespace Sys2Proof.Machine

/-- The sum of a pointer and an integer, written to s[d]. -/
def sumTo (d : BitVec 5) (p : Word) (k : Int) : M Unit := do
  ws d (← padd p k p)

section
variable {m : M Unit} {s : State} {n : Nat} {d : BitVec 5} {p : Word} {k : Int} (hm : m s = sumTo d p k { s with now := n })
include hm

theorem sumTo_writes {q : Word} (hd : s.ctx.pendingReg d = false) (hq : padd? p k = some q) :
    ∃ t, finish m s = .next t ∧ s.wrote t n 1 d q :=
  finish_wsLat (hm.trans (bind_goes (padd_run hq ..))) hd

theorem sumTo_overflows (hq : padd? p k = none) : finish m s = .next (s.takeTrap cPTROVF p none) :=
  finish_trap (hm.trans (bind_stops (padd_overflow hq ..)))

end

/-- Settles O7: once its operands are read, each of the three writes the sum of R212 or traps. -/
theorem pointerResults : Obligations.PointerResults := by
  unfold Obligations.PointerResults
  refine ⟨padd?_eq, ?_, ?_⟩
  · intro f s can a b n
    obtain ⟨ha, can⟩ := canRun_cons can
    obtain ⟨hb, can⟩ := canRun_cons can
    have add : (do let x ← rs f.a; let y ← rs f.b; sumTo f.d x y.toInt) s = sumTo f.d a b { s with now := n } := rs_pair ha hb _
    have sub : (do let x ← rs f.a; let y ← rs f.b; sumTo f.d x (-y.toInt)) s = sumTo f.d a (-b) { s with now := n } := rs_pair ha hb _
    refine ⟨?_, ?_⟩ <;> split
    · exact sumTo_writes add (canRun_nil can) ‹_›
    · exact sumTo_overflows add ‹_›
    · exact sumTo_writes sub (canRun_nil can) ‹_›
    · exact sumTo_overflows sub ‹_›
  · intro f s can a
    obtain ⟨ha, can⟩ := canRun_cons can
    have add : (do let x ← rs f.a; sumTo f.d x f.imm.toInt) s = sumTo f.d a f.imm.toInt { s with now := s.issueCycle [f.a] } :=
      bind_goes (rs_cycle ha)
    split
    · exact sumTo_writes add (canRun_nil can) ‹_›
    · exact sumTo_overflows add ‹_›

end Sys2Proof.Machine
end

section
/-! Branches, LOOP and the jumps (R222 to R225). -/
namespace Sys2Proof.Machine

/-! ## Jumps by an offset from the pc -/

/-- The part goes on k bytes from the unit at pc. -/
def jumpBy (pc : Word) (k : Int) : M Unit := do
  jumpTo (← padd pc k pc)

theorem toward_ctx (s : State) (p : Word) : (s.toward p).ctx = { s.ctx with npc := p } := setCtx_ctx ..

section
variable {pc : Word} {k : Int}

theorem jumpBy_run {p : Word} (h : padd? pc k = some p) (s : State) (n : Nat) :
    jumpBy pc k { s with now := n } = .ok ((), { s.toward p with now := n }) := bind_goes (padd_run h ..)
theorem jumpBy_overflow (h : padd? pc k = none) (s : State) : jumpBy pc k s = .error (.trap cPTROVF pc) := bind_stops (padd_overflow h ..)

/-- A part that ends with the jump. -/
theorem finish_jumps {m : M Unit} {s : State} {n : Nat} {p : Word} (hm : m s = jumpBy pc k { s with now := n }) (h : padd? pc k = some p) :
    ∃ t, finish m s = .next t ∧ (s.toward p).issued t n :=
  ⟨_, finish_ok (hm.trans (jumpBy_run h s n)), issued_done (s.toward p) n⟩

end

/-! ## Branches -/

/-- The instruction is a branch by f's offset, taken when taken holds of its operands. -/
def BranchesWhen (s : State) (i : Instr) (f : CB) (taken : Prop) : Prop :=
  ∃ cond : Word → Word → Bool, exec i s = finish (branch f cond) s ∧ (cond (s.ctx.sreg f.a) (s.ctx.sreg f.b) = true ↔ taken)

section
variable {s : State} {i : Instr} {f : CB} {taken : Prop} (h : BranchesWhen s i f taken) (ha : s.ctx.readable f.a = true)
  (hb : s.ctx.readable f.b = true)
include ha hb

theorem branch_run (cond : Word → Word → Bool) : branch f cond s =
    (if cond (s.ctx.sreg f.a) (s.ctx.sreg f.b) = true then jumpBy s.ctx.upc (8 * f.off.toInt) else pure ()) { s with now := s.issueCycle [f.a, f.b] } := by
  rw [branch, rs_pair ha hb]
  rfl

include h

theorem BranchesWhen.goes {p : Word} (ht : taken) (hp : padd? s.ctx.upc (8 * f.off.toInt) = some p) :
    ∃ t, exec i s = .next t ∧ (s.toward p).issued t (s.issueCycle [f.a, f.b]) := by
  obtain ⟨cond, meaning, iff⟩ := h
  rw [meaning]
  exact finish_jumps ((branch_run ha hb cond).trans (by rw [if_pos (iff.mpr ht)])) hp

theorem BranchesWhen.overflows (ht : taken) (hp : padd? s.ctx.upc (8 * f.off.toInt) = none) : s.traps i cPTROVF s.ctx.upc := by
  obtain ⟨cond, meaning, iff⟩ := h
  exact meaning.trans (finish_trap ((branch_run ha hb cond).trans (by rw [if_pos (iff.mpr ht)]; exact jumpBy_overflow hp _)))

theorem BranchesWhen.stays (ht : ¬ taken) : ∃ t, exec i s = .next t ∧ s.issued t (s.issueCycle [f.a, f.b]) := by
  obtain ⟨cond, meaning, iff⟩ := h
  rw [meaning]
  exact ⟨_, finish_ok ((branch_run ha hb cond).trans (by rw [if_neg (mt iff.mp ht)]; exact pure_run ..)), issued_done s _⟩

end

theorem bge_iff (a b : Word) : (!a.slt b) = true ↔ b.toInt ≤ a.toInt := by rw [BitVec.slt_eq_decide]; simp
theorem bgeu_iff (a b : Word) : (!a.ult b) = true ↔ b.toNat ≤ a.toNat := by rw [BitVec.ult_eq_decide]; simp

/-! ## LOOP -/

/-- LOOP once it has read its count. -/
def countDown (f : CB) (a : Word) : M Unit := do
  let k ← getC
  if a - 1 ≠ 0 then jumpTo (← padd k.upc (8 * f.off.toInt) k.upc)
  ws f.a (a - 1)

theorem exec_loop (f : CB) (s : State) : exec (.loop f) s = finish (do let a ← rs f.a; countDown f a) s := rfl

section
variable {f : CB} {s : State} (can : s.canRun [f.a] f.a = true)
include can

theorem loop_ends (ha : s.ctx.sreg f.a = 1) : ∃ t, exec (.loop f) s = .next t ∧ s.wrote t (s.issueCycle [f.a]) 1 f.a 0 := by
  obtain ⟨read, can⟩ := canRun_cons can
  refine finish_wsLat ((bind_goes (rs_cycle read)).trans ?_) (canRun_nil can)
  rw [ha, bind_goes (getC_run _)]
  rfl

theorem loop_run (ha : s.ctx.sreg f.a ≠ 1) : (do let a ← rs f.a; countDown f a) s =
    (do let p ← padd s.ctx.upc (8 * f.off.toInt) s.ctx.upc; jumpTo p; ws f.a (s.ctx.sreg f.a - 1)) { s with now := s.issueCycle [f.a] } := by
  obtain ⟨read, -⟩ := canRun_cons can
  have goes : s.ctx.sreg f.a - 1 ≠ 0 := mt sub_eq_zero.mp ha
  rw [bind_goes (rs_cycle read), countDown, bind_goes (getC_run _), if_pos goes]
  rfl

theorem loop_goes (ha : s.ctx.sreg f.a ≠ 1) {p : Word} (hp : padd? s.ctx.upc (8 * f.off.toInt) = some p) : ∃ t, exec (.loop f) s = .next t ∧
    (s.toward p).wrote t (s.issueCycle [f.a]) 1 f.a (s.ctx.sreg f.a - 1) := by
  have free : (s.toward p).ctx.pendingReg f.a = false := by
    rw [toward_ctx]
    exact canRun_nil (canRun_cons can).2
  exact finish_wsLat ((loop_run can ha).trans (bind_goes (padd_run hp ..))) free

theorem loop_overflows (ha : s.ctx.sreg f.a ≠ 1) (hp : padd? s.ctx.upc (8 * f.off.toInt) = none) : s.traps (.loop f) cPTROVF s.ctx.upc :=
  finish_trap ((loop_run can ha).trans (bind_stops (padd_overflow hp ..)))

end

/-! ## Jumps that link -/


/-- What a part that changes its context alone leaves, under any context. -/
theorem State.elseAs.setCtx {s t : State} {n : Nat} (h : s.elseAs t n) (k : Ctx) : t.setCtx k = { s.setCtx k with now := n, fate := .done } :=
  calc t.setCtx k = (t.setCtx t.ctx).setCtx k := (setCtx_setCtx ..).symm
    _ = ({ s.setCtx t.ctx with now := n, fate := .done } : State).setCtx k := congrArg (fun u : State => u.setCtx k) h
    _ = { (s.setCtx t.ctx).setCtx k with now := n, fate := .done } := rfl
    _ = { s.setCtx k with now := n, fate := .done } := by rw [setCtx_setCtx]

/-- A write of a register and a jump after it leave what the write would on the way to the target. -/
theorem State.wrote.toward {s t : State} {n lat : Nat} {d : BitVec 5} {v : Word} (h : s.wrote t n lat d v) (p : Word) :
    (s.toward p).wrote (t.toward p) n lat d v := by
  obtain ⟨rest, own, others, backlog, regs⟩ := h
  have moved : (s.toward p).elseAs (t.toward p) n := by
    rw [State.elseAs, toward_ctx, State.toward, State.toward, setCtx_setCtx, setCtx_setCtx]
    exact rest.setCtx _
  refine ⟨moved, ?_⟩
  rw [toward_ctx, toward_ctx]
  exact ⟨congrArg (fun k : Ctx => { k with npc := p }) own, others, backlog, regs⟩

/-- A part that ends with a link to s[d] and a jump to p. -/
theorem finish_links {m : M Unit} {s : State} {n : Nat} {d : BitVec 5} {p : Word} (hm : m s = (do linkTo d; jumpTo p) { s with now := n })
    (hd : s.ctx.pendingReg d = false) : ∃ t, finish m s = .next t ∧
      (s.toward p).wrote t n 1 d (BitVec.ofNat 64 ((s.ctx.upc + 8).toNat % 2 ^ 52)) := by
  obtain ⟨u, run, wrote⟩ := wsLat_run (issued_now s n) 1 (zext (bits (s.ctx.upc + 8) 0 52)) hd
  rw [zext_eq, bits_zero_toNat] at wrote
  exact ⟨_, finish_ok (hm.trans (bind_goes (t := u) run)), wrote.toward p⟩

/-! ## JR -/

/-- JR from its target on. -/
def jumpChecked (d : BitVec 5) (t : Word) : M Unit := do
  need (spaceOf t = 0) cSPACE t
  need (bits t 0 3 = 0) cALIGN t
  linkTo d
  jumpTo t

section
variable {f : CI} {s : State} (ha : s.ctx.readable f.a = true)
include ha

theorem jr_overflows (hp : padd? (s.ctx.sreg f.a) (8 * f.imm.toInt) = none) : s.traps (.jr f) cPTROVF (s.ctx.sreg f.a) :=
  finish_trap ((bind_goes (rs_cycle ha)).trans (bind_stops (padd_overflow hp ..)))

variable {p : Word} (hp : padd? (s.ctx.sreg f.a) (8 * f.imm.toInt) = some p)
include hp

theorem jr_run : (do let a ← rs f.a; let t ← padd a (8 * f.imm.toInt) a; jumpChecked f.d t) s =
    jumpChecked f.d p { s with now := s.issueCycle [f.a] } := (bind_goes (rs_cycle ha)).trans (bind_goes (padd_run hp ..))

theorem jr_space (hs : spaceOf p ≠ 0) : s.traps (.jr f) cSPACE p :=
  finish_trap ((jr_run ha hp).trans (by rw [jumpChecked, decide_eq_false hs]; exact bind_stops (need_false ..)))

theorem jr_align (hs : spaceOf p = 0) (hn : bits p 0 3 ≠ 0) : s.traps (.jr f) cALIGN p :=
  finish_trap ((jr_run ha hp).trans (by
    rw [jumpChecked, decide_eq_true hs, decide_eq_false hn, bind_goes (need_true ..)]
    exact bind_stops (need_false ..)))

theorem jr_goes (hd : s.ctx.pendingReg f.d = false) (hs : spaceOf p = 0) (hn : bits p 0 3 = 0) : ∃ t, exec (.jr f) s = .next t ∧
    (s.toward p).wrote t (s.issueCycle [f.a]) 1 f.d (BitVec.ofNat 64 ((s.ctx.upc + 8).toNat % 2 ^ 52)) :=
  finish_links ((jr_run ha hp).trans (by
    rw [jumpChecked, decide_eq_true hs, decide_eq_true hn, bind_goes (need_true ..), bind_goes (need_true ..)])) hd

end

theorem spaceOf_eq (p : Word) : spaceOf p = p.toNat / 2 ^ 52 % 8 := bits_toNat p 52 3

theorem aligned_iff (p : Word) : bits p 0 3 = 0 ↔ p.toNat % 8 = 0 := by
  rw [← BitVec.toNat_inj, bits_zero_toNat]
  rfl

/-! ## J and JAL -/

section
variable {f : LF} {s : State}

theorem j_goes {p : Word} (hp : padd? s.ctx.upc (8 * f.imm32.toInt) = some p) :
    ∃ t, exec (.j f) s = .next t ∧ (s.toward p).issued t s.now :=
  finish_jumps (bind_goes (getC_run s)) hp
theorem j_overflows (hp : padd? s.ctx.upc (8 * f.imm32.toInt) = none) : s.traps (.j f) cPTROVF s.ctx.upc :=
  finish_trap ((bind_goes (getC_run s)).trans (jumpBy_overflow hp s))

theorem jal_goes {p : Word} (hd : s.ctx.pendingReg f.ra = false) (hp : padd? s.ctx.upc (8 * f.imm32.toInt) = some p) :
    ∃ t, exec (.jal f) s = .next t ∧ (s.toward p).wrote t s.now 1 f.ra (BitVec.ofNat 64 ((s.ctx.upc + 8).toNat % 2 ^ 52)) :=
  finish_links ((bind_goes (getC_run s)).trans (bind_goes (padd_run hp ..))) hd
theorem jal_overflows (hp : padd? s.ctx.upc (8 * f.imm32.toInt) = none) : s.traps (.jal f) cPTROVF s.ctx.upc :=
  finish_trap ((bind_goes (getC_run s)).trans (bind_stops (padd_overflow hp ..)))

end

/-- Settles O8: a jump by an offset goes on or traps, alone in a branch, before the write of LOOP's count, after JR's and JAL's link. -/
theorem branchesAndJumps : Obligations.BranchesAndJumps := by
  unfold Obligations.BranchesAndJumps
  refine ⟨⟨?branch, ?loop⟩, ?jr, ?jal⟩
  case branch =>
    intro f s ha hb a b n row listed
    have branches : BranchesWhen s (row.1 f) f row.2 := by
      revert row
      simp only [List.forall_mem_cons, List.not_mem_nil, false_implies, implies_true, and_true]
      exact ⟨⟨_, rfl, beq_iff_eq⟩, ⟨_, rfl, bne_iff_ne⟩, ⟨_, rfl, BitVec.slt_iff_toInt_lt⟩, ⟨_, rfl, bge_iff ..⟩, ⟨_, rfl, BitVec.ult_iff_lt⟩,
        ⟨_, rfl, bgeu_iff ..⟩⟩
    refine ⟨fun taken => ?_, branches.stays ha hb⟩
    split
    · exact branches.goes ha hb taken ‹_›
    · exact branches.overflows ha hb taken ‹_›
  case loop =>
    intro f s _ can a n
    refine ⟨loop_ends can, fun more => ?_⟩
    split
    · exact loop_goes can more ‹_›
    · exact loop_overflows can more ‹_›
  case jr =>
    intro f s can a link
    obtain ⟨ha, can⟩ := canRun_cons can
    split
    case h_1 hp => exact jr_overflows ha hp
    case h_2 p hp =>
      rw [← spaceOf_eq]
      split
      case isTrue space => exact jr_space ha hp space
      case isFalse space =>
        have own : spaceOf p = 0 := not_not.mp space
        split
        case isTrue odd => exact jr_align ha hp own (mt (aligned_iff p).mp odd)
        case isFalse even => exact jr_goes ha hp (canRun_nil can) own ((aligned_iff p).mpr (not_not.mp even))
  case jal =>
    intro f s
    split
    case h_1 hp => exact ⟨j_overflows hp, jal_overflows hp⟩
    case h_2 p hp => exact ⟨j_goes hp, fun can => jal_goes (canRun_nil can) hp⟩

end Sys2Proof.Machine
end

section
set_option Elab.async false
/-! The snapshot trigger (R316, R379, R380). -/
namespace Sys2Proof.Machine

/-! ## What a snapshot does to the registers of its package -/

theorem modMgmt_mgmt (s : State) (p : Nat) (f : Mgmt → Mgmt) : ((s.modMgmt p f).dev p).mgmt = f (s.dev p).mgmt := by
  simp [modMgmt_eq]
theorem modMgmt_time (s : State) (p : Nat) (f : Mgmt → Mgmt) : (s.modMgmt p f).time p = s.time p := time_setDev rfl rfl
theorem logEvent_mgmt (s : State) (p cls source data : Nat) : ((s.logEvent p cls source data).dev p).mgmt =
    { (s.dev p).mgmt with
      events := if (s.dev p).mgmt.events.length < 1024 then (s.dev p).mgmt.events ++ [⟨s.time p, cls, source, data⟩] else (s.dev p).mgmt.events
      lostEvents := if (s.dev p).mgmt.events.length < 1024 then (s.dev p).mgmt.lostEvents else (s.dev p).mgmt.lostEvents + 1 } := by
  simp only [State.logEvent, modMgmt_mgmt]
  split
  case isTrue full => simp [Nat.not_lt.2 full]
  case isFalse room => simp [Nat.not_le.1 room]

/-- t is s but for the management registers of package p, which are m. -/
def State.managedTo (s t : State) (p : Nat) (m : Mgmt) : Prop := t.now = s.now ∧ t.mem = s.mem ∧ t.tiles = s.tiles ∧ (t.dev p).mgmt = m

section
variable {s : State} {p t : Nat}

theorem snapshotAt_same (h : (s.dev p).mgmt.snapAt = some t) : s.managedTo (s.snapshotAt p t) p (s.dev p).mgmt := by
  rw [State.snapshotAt, if_pos h]
  exact ⟨rfl, rfl, rfl, rfl⟩
theorem snapshotAt_first (h : (s.dev p).mgmt.snapAt ≠ some t) (hs : (s.dev p).mgmt.snap = none) :
    s.managedTo (s.snapshotAt p t) p { (s.dev p).mgmt with
      snap := some ⟨s.time p, t⟩, snapAt := some t
      events := if (s.dev p).mgmt.events.length < 1024 then (s.dev p).mgmt.events ++ [⟨s.time p, evSNAP, hubSource, 0⟩] else (s.dev p).mgmt.events
      lostEvents := if (s.dev p).mgmt.events.length < 1024 then (s.dev p).mgmt.lostEvents else (s.dev p).mgmt.lostEvents + 1 } := by
  have e : s.snapshotAt p t = (s.modMgmt p fun m => { m with snap := some ⟨s.time p, t⟩, snapAt := some t }).logEvent p evSNAP hubSource 0 := by
    simp [State.snapshotAt, h, hs]
  rw [e]
  refine ⟨rfl, rfl, rfl, ?_⟩
  rw [logEvent_mgmt, modMgmt_mgmt, modMgmt_time]
theorem snapshotAt_later (h : (s.dev p).mgmt.snapAt ≠ some t) (hs : (s.dev p).mgmt.snap ≠ none) :
    s.managedTo (s.snapshotAt p t) p { (s.dev p).mgmt with snapLost := (s.dev p).mgmt.snapLost + 1, snapAt := some t } := by
  obtain ⟨z, hs⟩ := Option.ne_none_iff_exists'.1 hs
  have e : s.snapshotAt p t = s.modMgmt p fun m => { m with snapLost := m.snapLost + 1, snapAt := some t } := by
    simp [State.snapshotAt, h, hs]
  rw [e]
  exact ⟨rfl, rfl, rfl, modMgmt_mgmt ..⟩

end

/-! ## The instruction -/

theorem snap_user {s : State} (f : CF) (h : s.ctx.priv = false) : s.traps (.snap f) cPRIV s.ctx.unit :=
  finish_trap (bind_stops (supervisor_user h))
theorem snap_fires {s : State} (f : CF) (h : s.ctx.priv = true) {m : Mgmt} (hm : s.managedTo (s.snapshot (pkgOf s.cur)) (pkgOf s.cur) m) :
    ∃ t, exec (.snap f) s = .next t ∧ t.fate = .done ∧ t.now = s.now ∧ t.mem = s.mem ∧ t.tiles = s.tiles ∧ (t.dev (pkgOf s.cur)).mgmt = m :=
  ⟨_, finish_ok (bind_goes (supervisor_ok h)), rfl, hm⟩

/-- Settles O45, by the three cases of a snapshot: in the hub cycle of the last one, the first, and one that is counted. -/
theorem snapshotTrigger : Obligations.SnapshotTrigger := by
  unfold Obligations.SnapshotTrigger
  refine ⟨by decide, fun f s => ⟨snap_user f, fun h => ⟨?_, ?_, ?_⟩⟩⟩
  · exact fun same => snap_fires f h (snapshotAt_same same)
  · exact fun other none => snap_fires f h (snapshotAt_first other none)
  · exact fun other some => snap_fires f h (snapshotAt_later other some)

end Sys2Proof.Machine
end

section
set_option Elab.async false
/-! Taking a trap (R343), and the instructions that take one or return from one (R207, R312, R313, R343). -/
namespace Sys2Proof.Machine

/-! ## Taking a trap -/

/-- R343: a trap in the address stream of a control context notes in PIX that the C-word is done when the unit was to skip it. -/
theorem takeTrap_pixC {s : State} (code : BitVec 8) (val : Word) (hc : s.cid = 0) (ht : s.ctx.tip = false) (ha : s.compute = false) :
    (s.takeTrap code val none).ctx.pixC = s.ctx.skipC := by
  unfold State.takeTrap
  rw [if_neg (not_not.2 hc), if_neg (by simp [ha, ht])]
  exact (congrArg Ctx.pixC (setCtx_ctx ..)).trans (by simp [State.cWordDone, ha])

/-- A control context at a unit whose C-word an earlier trap left done. -/
def skipping : State := State.reset.setCtx { State.reset.ctx with skipC := true }

/-- Refutes O10: PIX of a trap at a unit whose C-word is already done says so, and the statement says that it never does. -/
theorem not_trapEntry : ¬ Obligations.TrapEntry := by
  unfold Obligations.TrapEntry
  intro h
  have cid : skipping.cid = 0 := rfl
  have tip : skipping.ctx.tip = false := by decide +kernel
  have skip : skipping.ctx.skipC = true := by decide +kernel
  have said : (skipping.takeTrap cECALL 0 none).ctx.pixC = false := by rw [(h.1 skipping cECALL 0 cid tip rfl).2.1]
  rw [takeTrap_pixC cECALL 0 cid tip rfl, skip] at said
  cases said

/-! ## Instructions that trap -/

/-- What only a supervisor may run traps at user privilege (R313). -/
theorem finish_user {s : State} (h : s.ctx.priv = false) (m : Unit → M Unit) :
    finish (supervisor >>= m) s = .next (s.takeTrap cPRIV s.ctx.unit none) := finish_trap (bind_stops (supervisor_user h))
theorem privileged_traps {s : State} (h : s.ctx.priv = false) (f : CF) :
    ∀ i ∈ [Instr.eret, .snap, .tlbinv, .resize, .lineclr, .ctxsave, .ctxload, .preempt], s.traps (i f) cPRIV s.ctx.unit := by
  simp only [List.mem_cons, List.not_mem_nil, or_false]
  rintro _ (rfl | rfl | rfl | rfl | rfl | rfl | rfl | rfl) <;> exact finish_user h _

/-- ECALL and BRK carry p5 (R312). -/
theorem calls_trap (f : CF) (s : State) :
    s.traps (.ecall f) cECALL (BitVec.ofNat 64 f.p5.toNat) ∧ s.traps (.brk f) cBRK (BitVec.ofNat 64 f.p5.toNat) := by
  rw [BitVec.ofNat_toNat]
  exact ⟨finish_trap rfl, finish_trap rfl⟩

/-! ## The return from a trap -/

/-- A release that waits for less than REL does, and would not wait. -/
theorem releaseAfter_run {s : State} {waits : State → Bool} (h : s.releasable = true) (hw : waits s.touchCtx = false) :
    releaseAfter waits s = .ok ((), s.touchCtx) := by
  obtain ⟨hv, hq, hl, -, hloss⟩ := (releasable_iff s).1 h
  simp only [releaseAfter, bind_run, performPairs_none hv, upd_run, fillQueues_calm hq, get_run]
  rw [← State.touchCtx, touchCtx_loadsDone, hl, hw, touchCtx_ctx, hloss]
  rfl

/-- ERET's own wait: an engine that a trap stopped performs no more stores. -/
def eretWaits (s : State) : Bool := s.grantsOpen || (s.mstoresOpen && !(s.tile s.cur).engine.stopped)

theorem eretWaits_none {s : State} (h : s.storesOpen = false) : eretWaits s = false := by
  obtain ⟨hg, hm⟩ := Bool.or_eq_false_iff.1 h
  simp [eretWaits, hg, hm]

/-- The context after ERET from a trap of one unit, with nothing kept of a long instruction. -/
theorem eret_ctx {k : Ctx} (hm : k.mx = false) (hk : k.kept = none) : k.eret = { k with
    priv := k.ppriv, tip := false, pc := BitVec.ofNat 64 (k.trapPc.toNat * 8), npc := BitVec.ofNat 64 (k.trapPc.toNat * 8), skipC := k.pixC
    pixC := false, pixK := false, pixIndex := 0 } := by
  simp [Ctx.eret, hm, hk, entryWord_eq]

theorem eret_run {s : State} (f : CF) (hp : s.ctx.priv = true) (hm : s.ctx.mx = false) (hr : s.releasable = true) :
    exec (.eret f) s = .next { (s.flashTile s.cur).setCtx s.ctx.eret with fate := .done } := by
  have waits : eretWaits s.touchCtx = false := eretWaits_none (by rw [touchCtx_storesOpen]; exact ((releasable_iff s).1 hr).2.2.2.1)
  refine finish_ok (bind_goes (supervisor_ok hp) |>.trans <| (bind_goes (releaseAfter_run hr waits)).trans ?_)
  simp only [bind_run, flash_run, getC_run, flashTile_ctx, touchCtx_ctx, touchCtx_cur, hm, Bool.false_and, Bool.false_eq_true, if_false, modC_run]
  rw [State.touchCtx, flashTile_setCtx, setCtx_setCtx]

theorem eret_tile (s : State) (k : Ctx) : (((s.flashTile s.cur).setCtx k).tile s.cur) = Tile.setCtx { s.tile s.cur with
    lines := (s.tile s.cur).lines.map fun l => { l with valid := l.own }, flashUntil := s.now + 4 } s.cid k := by
  refine (setCtx_tile_cur ..).trans ?_
  simp [State.flashTile, Tile.flash]

/-- Settles O11, by what each part does first: it traps, or it checks the privilege; ERET then releases, flashes and restores. -/
theorem trapInstructions : Obligations.TrapInstructions := by
  unfold Obligations.TrapInstructions
  refine ⟨⟨calls_trap, fun f s h => privileged_traps h f, fun u s => rfl⟩, fun f s hp hm hk hr => ?_⟩
  exact ⟨_, eret_run f hp hm hr, rfl, rfl, rfl, congrArg Tile.flashUntil (eret_tile s s.ctx.eret), (setCtx_ctx ..).trans (eret_ctx hm hk),
    congrArg Tile.lines (eret_tile s s.ctx.eret)⟩

end Sys2Proof.Machine
end

section
set_option Elab.async false
/-! Control and status registers (R244, R313, R342, R363 to R365). -/
namespace Sys2Proof.Machine

/-! ## The checks of an access, and its operands -/

theorem csrCheck_run {s : State} {write : Bool} {n : Nat} {i : Word} (hp : s.ctx.priv = true ∨ (if write then csrWritePriv n else csrReadPriv n) = false)
    (hi : indexOk n i = true) (hr : (write && csrReadOnly n i) = false) : csrCheck write n i s = .ok ((), s) := by
  have hp : (s.ctx.priv || !(if write then csrWritePriv n else csrReadPriv n)) = true := by
    rcases hp with h | h <;> simp [h]
  simp only [csrCheck, bind_run, getC_run, hp, hi, hr, need_true, Bool.not_false]
theorem csrCheck_user {s : State} {n : Nat} (i : Word) (hp : s.ctx.priv = false) (hn : csrReadPriv n = true) :
    csrCheck false n i s = .error (.trap cPRIV s.ctx.unit) := by
  simp only [csrCheck, bind_run, getC_run, hp, hn, Bool.false_eq_true, if_false, Bool.not_true, Bool.or_false, need_false]
theorem csrCheck_index {s : State} {write : Bool} {n : Nat} {i : Word} (hp : s.ctx.priv = true) (hi : indexOk n i = false) :
    csrCheck write n i s = .error (.trap cILLEGAL s.ctx.unit) := by
  simp only [csrCheck, bind_run, getC_run, hp, hi, Bool.true_or, need_true, need_false]
theorem csrCheck_readOnly {s : State} {n : Nat} {i : Word} (hp : s.ctx.priv = true) (hi : indexOk n i = true) (hr : csrReadOnly n i = true) :
    csrCheck true n i s = .error (.trap cPRIV s.ctx.unit) := by
  simp only [csrCheck, bind_run, getC_run, hp, hi, hr, Bool.true_or, Bool.and_true, Bool.not_true, need_true, need_false]

theorem indexOk_plain {n : Nat} (h : csrIndexed n = false) (i : Word) : indexOk n i = true := by
  simp only [csrIndexed, Bool.or_eq_false_iff, beq_eq_false_iff_ne] at h
  unfold indexOk
  split <;> simp_all

theorem csrIndex_plain {n : Nat} (h : csrIndexed n = false) (r : BitVec 5) (s : State) : csrIndex n r s = .ok (0, s) := by
  rw [csrIndex, h]
  rfl
theorem csrIndex_indexed {n : Nat} (h : csrIndexed n = true) {r : BitVec 5} {s : State} (hr : s.ctx.readable r = true) :
    csrIndex n r s = .ok (s.ctx.sreg r, { s with now := s.issueCycle [r] }) := by
  rw [csrIndex, h]
  exact rs_cycle hr

section
variable {f : CF} {s : State} {n : Nat}

/-- A write of a register with no index, when nothing refuses it. -/
theorem syswArgs_run (hs : s.retired = true) (ha : s.ctx.readable f.a = true) (hn : csrIndexed n = false)
    (hp : s.ctx.priv = true ∨ csrWritePriv n = false) (hr : csrReadOnly n 0 = false) :
    syswArgs f n s = .ok ((s.ctx.sreg f.a, 0), { s with now := s.issueCycle [f.a] }) := by
  have check : csrCheck true n 0 { s with now := s.issueCycle [f.a] } = .ok ((), { s with now := s.issueCycle [f.a] }) :=
    csrCheck_run (by simpa using hp) (indexOk_plain hn 0) (by rw [hr]; rfl)
  simp only [syswArgs, bind_run, settled_run hs, rs_cycle ha, csrIndex_plain hn, check, pure_run]
theorem syswArgs_readOnly (hs : s.retired = true) (ha : s.ctx.readable f.a = true) (hn : csrIndexed n = false)
    (hp : s.ctx.priv = true) (hr : csrReadOnly n 0 = true) : syswArgs f n s = .error (.trap cPRIV s.ctx.unit) := by
  have check : csrCheck true n 0 { s with now := s.issueCycle [f.a] } = .error (.trap cPRIV s.ctx.unit) :=
    csrCheck_readOnly hp (indexOk_plain hn 0) hr
  simp only [syswArgs, bind_run, settled_run hs, rs_cycle ha, csrIndex_plain hn, check]

/-- A write of an entry of an indexed register. -/
theorem syswArgs_entry (hs : s.retired = true) (ha : s.ctx.readable f.a = true) (hd : s.ctx.readable f.d = true) (hn : csrIndexed n = true)
    (hp : s.ctx.priv = true) (hi : indexOk n (s.ctx.sreg f.d) = true) (hr : csrReadOnly n (s.ctx.sreg f.d) = false) :
    syswArgs f n s = .ok ((s.ctx.sreg f.a, s.ctx.sreg f.d), { s with now := s.issueCycle [f.a, f.d] }) := by
  have index : csrIndex n f.d { s with now := s.issueCycle [f.a] } = .ok (s.ctx.sreg f.d, { s with now := s.issueCycle [f.a, f.d] }) :=
    csrIndex_indexed hn hd
  have check : csrCheck true n (s.ctx.sreg f.d) { s with now := s.issueCycle [f.a, f.d] } = .ok ((), { s with now := s.issueCycle [f.a, f.d] }) :=
    csrCheck_run (.inl hp) hi (by rw [hr]; rfl)
  simp only [syswArgs, bind_run, settled_run hs, rs_cycle ha, index, check, pure_run]
theorem syswArgs_outside (hs : s.retired = true) (ha : s.ctx.readable f.a = true) (hd : s.ctx.readable f.d = true) (hn : csrIndexed n = true)
    (hp : s.ctx.priv = true) (hi : indexOk n (s.ctx.sreg f.d) = false) : syswArgs f n s = .error (.trap cILLEGAL s.ctx.unit) := by
  have index : csrIndex n f.d { s with now := s.issueCycle [f.a] } = .ok (s.ctx.sreg f.d, { s with now := s.issueCycle [f.a, f.d] }) :=
    csrIndex_indexed hn hd
  have check : csrCheck true n (s.ctx.sreg f.d) { s with now := s.issueCycle [f.a, f.d] } = .error (.trap cILLEGAL s.ctx.unit) :=
    csrCheck_index hp hi
  simp only [syswArgs, bind_run, settled_run hs, rs_cycle ha, index, check]

theorem csrOperand_run (hs : s.retired = true) (ha : s.ctx.readable f.a = true) (hn : csrIndexed n = false) (hp : csrWritePriv n = false)
    (hr : csrReadOnly n 0 = false) : csrOperand f n s = .ok (s.ctx.sreg f.a, { s with now := s.issueCycle [f.a] }) := by
  have check : csrCheck true n 0 s = .ok ((), s) := csrCheck_run (.inr hp) (indexOk_plain hn 0) (by rw [hr]; rfl)
  simp only [csrOperand, bind_run, settled_run hs, check, rs_cycle ha]

end

/-! ## SYSR -/

theorem sysr_reads {f : CF} {s : State} (hi : csrIndexed f.csr = false) (can : s.canRun [] f.d = true) (hs : s.retired = true)
    (hp : s.ctx.priv = true ∨ csrReadPriv f.csr = false) : ∃ t, exec (.sysr f) s = .next t ∧ s.wrote t s.now 1 f.d (s.csr f.csr 0) := by
  have check : csrCheck false f.csr 0 s = .ok ((), s) := csrCheck_run (by simpa using hp) (indexOk_plain hi 0) rfl
  refine finish_wsLat (e := s) ?_ (canRun_nil can)
  simp only [bind_run, settled_run hs, csrIndex_plain hi, check, get_run]
  rfl
theorem sysr_user {f : CF} {s : State} (hi : csrIndexed f.csr = false) (hs : s.retired = true) (hp : s.ctx.priv = false)
    (hn : csrReadPriv f.csr = true) : s.traps (.sysr f) cPRIV s.ctx.unit := by
  refine finish_trap ?_
  simp only [bind_run, settled_run hs, csrIndex_plain hi, csrCheck_user 0 hp hn]

/-! ## The bits of the context's registers -/

theorem bitAt_getLsbD (b : Bool) {n i : Nat} (hi : i < 64) : (bitAt b n).getLsbD i = (decide (i = n) && b) := by
  cases b
  · simp [bitAt]
  · rw [bitAt, if_pos rfl, BitVec.getLsbD_ofNat, Nat.testBit_two_pow]
    simp [hi, eq_comm]

/-- A word-aligned address as it is read. -/
theorem entry_getLsbD (e : BitVec 49) {i : Nat} (hi : i < 64) : (zext (e ++ 0#3)).getLsbD i = (decide (3 ≤ i) && e.getLsbD (i - 3)) := by
  rw [BitVec.getLsbD_setWidth, BitVec.getLsbD_append]
  by_cases h : i < 3
  · simp [h, Nat.not_le.2 h]
  · simp only [hi, h, Nat.not_lt.1 h, decide_true, Bool.true_and, if_false]

section
variable (s : State) {i : Nat} (hi : i < 64)
include hi

theorem status_bits : (s.csr 0x000 0).getLsbD i = ((i = 0 && s.ctx.priv) || (i = 1 && s.ctx.ppriv) || (i = 2 && s.ctx.tip) ||
    (i = 3 && s.cid = 0 && !(s.tile s.cur).posts.isEmpty) || (i = 4 && s.cid ≠ 0) || (i = 5 && s.ctx.nr)) := by
  simp only [State.csr, Ctx.statusWord, BitVec.getLsbD_or, bitAt_getLsbD _ hi, Bool.and_assoc]
theorem firstv_bits : (s.csr 0x003 0).getLsbD i = ((i = 63 && s.ctx.firstV) || (3 ≤ i && s.ctx.firstUnit.getLsbD (i - 3))) := by
  simp only [State.csr, Ctx.firstWord, BitVec.getLsbD_or, bitAt_getLsbD _ hi, entry_getLsbD _ hi]
theorem cause_bits : (s.csr 0x005 0).getLsbD i = ((i = 9 && s.ctx.mx) || (i = 8 && s.ctx.stream) || s.ctx.cause.getLsbD i) := by
  simp only [State.csr, Ctx.causeWord, BitVec.getLsbD_or, bitAt_getLsbD _ hi, BitVec.getLsbD_setWidth, hi, decide_true, Bool.true_and]
theorem pix_bits : (s.csr 0x007 0).getLsbD i = ((i = 63 && s.ctx.pixK) || (i = 62 && s.ctx.pixC) || s.ctx.pixIndex.getLsbD i) := by
  simp only [State.csr, Ctx.pixWord, BitVec.getLsbD_or, bitAt_getLsbD _ hi, BitVec.getLsbD_setWidth, hi, decide_true, Bool.true_and]

end

/-- Settles O12: SYSR's checks pass or trap, and each register's word is read bit by bit. -/
theorem csrReads : Obligations.CsrReads := by
  unfold Obligations.CsrReads
  refine ⟨fun f s hi can hs => ⟨sysr_reads hi can hs, sysr_user hi hs⟩, fun s i hi => ?_⟩
  refine ⟨status_bits s hi, ?_, ?_, firstv_bits s hi, entry_getLsbD _ hi, cause_bits s hi, rfl, pix_bits s hi, entry_getLsbD _ hi, ?_, rfl⟩
  all_goals simp [State.csr, hi]

/-! ## SYSW to the context's registers -/

theorem bits_ofNat (x : BitVec n) (lo w : Nat) : bits x lo w = BitVec.ofNat w (x.toNat / 2 ^ lo) :=
  congrArg (BitVec.ofNat w) (Nat.shiftRight_eq_div_pow ..)

/-- A part that does nothing but issue, after what made u of its state. -/
theorem finish_issued {m : M Unit} {s u : State} {n : Nat} (h : m s = .ok ((), { u with now := n })) : ∃ t, finish m s = .next t ∧ u.issued t n :=
  ⟨_, finish_ok h, issued_done u n⟩

/-- A write of a register with a row of its own: what follows the operand. -/
theorem sysw_then {i : Instr} {f : CF} {s u : State} {n : Nat} {k : Word × Word → M Unit} (e : exec i s = finish (syswArgs f n >>= k) s)
    (ha : s.ctx.readable f.a = true) (hs : s.retired = true) (hi : csrIndexed n = false) (hp : s.ctx.priv = true ∨ csrWritePriv n = false)
    (hr : csrReadOnly n 0 = false)
    (hk : k (s.ctx.sreg f.a, 0) { s with now := s.issueCycle [f.a] } = .ok ((), { u with now := s.issueCycle [f.a] })) :
    ∃ t, exec i s = .next t ∧ u.issued t (s.issueCycle [f.a]) := by
  rw [e]
  exact finish_issued ((bind_goes (syswArgs_run hs ha hi hp hr)).trans hk)
theorem sysw_entry {i : Instr} {f : CF} {s u : State} {n : Nat} {k : Word × Word → M Unit} (e : exec i s = finish (syswArgs f n >>= k) s)
    (ha : s.ctx.readable f.a = true) (hd : s.ctx.readable f.d = true) (hs : s.retired = true) (hi : csrIndexed n = true) (hp : s.ctx.priv = true)
    (ho : indexOk n (s.ctx.sreg f.d) = true) (hr : csrReadOnly n (s.ctx.sreg f.d) = false)
    (hk : k (s.ctx.sreg f.a, s.ctx.sreg f.d) { s with now := s.issueCycle [f.a, f.d] } = .ok ((), { u with now := s.issueCycle [f.a, f.d] })) :
    ∃ t, exec i s = .next t ∧ u.issued t (s.issueCycle [f.a, f.d]) := by
  rw [e]
  exact finish_issued ((bind_goes (syswArgs_entry hs ha hd hi hp ho hr)).trans hk)
theorem operand_then {i : Instr} {f : CF} {s u : State} {n : Nat} {k : Word → M Unit} (e : exec i s = finish (csrOperand f n >>= k) s)
    (ha : s.ctx.readable f.a = true) (hs : s.retired = true) (hi : csrIndexed n = false) (hp : csrWritePriv n = false) (hr : csrReadOnly n 0 = false)
    (hk : k (s.ctx.sreg f.a) { s with now := s.issueCycle [f.a] } = .ok ((), { u with now := s.issueCycle [f.a] })) :
    ∃ t, exec i s = .next t ∧ u.issued t (s.issueCycle [f.a]) := by
  rw [e]
  exact finish_issued ((bind_goes (csrOperand_run hs ha hi hp hr)).trans hk)

/-- A write of a register with no row of its own changes the context alone. -/
theorem sysw_writes {f : CF} {s : State} {n : Nat} (k : Ctx) (hp : s.ctx.priv = true) (ha : s.ctx.readable f.a = true) (hs : s.retired = true)
    (hn : f.csr = n) (hi : csrIndexed n = false) (hr : csrReadOnly n 0 = false)
    (hk : ({ s with now := s.issueCycle [f.a] } : State).setCsr n 0 (s.ctx.sreg f.a) = ({ s with now := s.issueCycle [f.a] } : State).setCtx k) :
    ∃ t, exec (.sysw f) s = .next t ∧ (s.setCtx k).issued t (s.issueCycle [f.a]) := by
  subst hn
  exact sysw_then rfl ha hs hi (.inl hp) hr (congrArg (fun u => Except.ok ((), u)) hk)
theorem sysw_readOnly {f : CF} {s : State} (hp : s.ctx.priv = true) (ha : s.ctx.readable f.a = true) (hs : s.retired = true)
    (hr : csrReadOnly f.csr 0 = true) (hi : csrIndexed f.csr = false) : s.traps (.sysw f) cPRIV s.ctx.unit :=
  finish_trap (bind_stops (syswArgs_readOnly hs ha hi hp hr))

theorem setCsr_fields (s : State) (v : Word) :
    s.setCsr 0x000 0 v = s.setCtx { s.ctx with tip := v.getLsbD 2, ppriv := v.getLsbD 1 } ∧
    s.setCsr 0x002 0 v = s.setCtx { s.ctx with frm := BitVec.ofNat 2 v.toNat } ∧
    s.setCsr 0x004 0 v = s.setCtx { s.ctx with trapPc := BitVec.ofNat 49 (v.toNat / 8) } ∧
    s.setCsr 0x006 0 v = s.setCtx { s.ctx with trapVal := v } ∧
    s.setCsr 0x007 0 v = s.setCtx { s.ctx with pixK := v.getLsbD 63, pixC := v.getLsbD 62, pixIndex := BitVec.ofNat 16 v.toNat } ∧
    s.setCsr 0x010 0 v = s.setCtx { s.ctx with evBase := BitVec.ofNat 49 (v.toNat / 8) } := by
  simp [State.setCsr, bits_ofNat]

/-- SIZE is held to 1,024 entries. -/
theorem holdSize_eq (v : Word) : holdSize v = BitVec.ofNat 11 (min 1024 (v.toNat % 2 ^ 11)) := by
  simp only [holdSize, bits_zero_toNat]
  split
  case isTrue h => rw [Nat.min_eq_left (Nat.le_of_lt h)]; rfl
  case isFalse h => rw [Nat.min_eq_right (Nat.not_lt.1 h), bits_ofNat]; simp [← BitVec.toNat_inj]

/-! ## SYSW to a register with a row of its own -/

section
variable {f : CF} {s : State}

section
variable (ha : s.ctx.readable f.a = true) (hs : s.retired = true)
include ha hs

theorem flags_writes : ∃ t, exec (.syswFlags f) s = .next t ∧
    (s.setCtx { s.ctx with flags := BitVec.ofNat 11 (s.ctx.sreg f.a).toNat, firstV := false }).issued t (s.issueCycle [f.a]) := by
  refine sysw_then (n := 1) rfl ha hs rfl (.inr rfl) rfl ?_
  rw [← bits_low]
  rfl
theorem ringcfg_writes (idle : (s.tile s.cur).engine.busy = false) (empty : (s.tile s.cur).engine.outgoing = none) :
    ∃ t, exec (.syswRingcfg f) s = .next t ∧ (s.modTile s.cur fun x => { x with engine := { x.engine with
      order := BitVec.ofNat 24 ((s.ctx.sreg f.a).toNat / 2 ^ 8), logp := BitVec.ofNat 2 ((s.ctx.sreg f.a).toNat / 2 ^ 3)
      en := (s.ctx.sreg f.a).getLsbD 0, rstep := 0, consume := none, receive := none } }).issued t (s.issueCycle [f.a]) := by
  refine sysw_then (n := 9) rfl ha hs rfl (.inr rfl) rfl ?_
  have go : ((s.tile s.cur).engine.busy || (s.tile s.cur).engine.outgoing.isSome) = false := by rw [idle, empty]; rfl
  simp only [bind_run, getT_run, with_now_tile, go, ← bits_ofNat]
  rfl
theorem recvbase_writes : ∃ t, exec (.syswRecvbase f) s = .next t ∧ (s.setCtx { s.ctx with
    recvBase := BitVec.ofNat 14 ((s.ctx.sreg f.a).toNat / 2 ^ 6), recvCount := 0, recvTail := 0 }).issued t (s.issueCycle [f.a]) := by
  refine operand_then (n := 0xC) rfl ha hs rfl rfl rfl ?_
  rw [← bits_ofNat]
  rfl
theorem recvsize_writes : ∃ t, exec (.syswRecvsize f) s = .next t ∧ (s.setCtx { s.ctx with
    recvSize := BitVec.ofNat 11 (min 1024 ((s.ctx.sreg f.a).toNat % 2 ^ 11)), recvCount := 0, recvTail := 0 }).issued t (s.issueCycle [f.a]) := by
  refine operand_then (n := 0xD) rfl ha hs rfl rfl rfl ?_
  rw [← holdSize_eq]
  rfl
omit ha hs in
/-- A part that leaves its context leaves it as it was written back. -/
theorem issued_rewritten (s : State) (n : Nat) : (s.setCtx s.ctx).issued { s with now := n, fate := .done } n := by
  refine ⟨?_, (setCtx_ctx ..).symm⟩
  rw [State.elseAs, setCtx_setCtx]
  rfl
theorem recvtail_writes : ∃ t, exec (.recvtailClr f) s = .next t ∧
    (s.setCtx (if (s.ctx.sreg f.a).getLsbD 63 then { s.ctx with recvCount := 0, recvTail := 0 } else s.ctx)).issued t (s.issueCycle [f.a]) := by
  cases clr : (s.ctx.sreg f.a).getLsbD 63
  · have run : (do let v ← csrOperand f 0xE; if v.getLsbD 63 then modC Ctx.emptyRing : M Unit) s = .ok ((), { s with now := s.issueCycle [f.a] }) := by
      rw [bind_goes (csrOperand_run hs ha rfl rfl rfl), clr]
      rfl
    exact ⟨_, finish_ok run, issued_rewritten s _⟩
  · refine operand_then (n := 0xE) rfl ha hs rfl rfl rfl ?_
    rw [clr]
    rfl

end

/-! ## The GL. registers that act -/

variable (hp : s.ctx.priv = true) (ha : s.ctx.readable f.a = true)
include hp ha

theorem drain_go (hs : s.retired = true) : ∃ t, exec (.glDrainGo f) s = .next t ∧
    (if (s.ctx.sreg f.a).getLsbD 0 = false then s else s.withFabric fun g =>
      if g.st = .run then { g with st := .drain, since := ({ s with now := s.issueCycle [f.a] } : State).time (pkgOf s.cur) }
      else { g with code := 1 }).issued t (s.issueCycle [f.a]) := by
  refine sysw_then (n := 0x207) rfl ha hs rfl (.inl hp) rfl ?_
  cases go : (s.ctx.sreg f.a).getLsbD 0 <;> simp only [bind_run, get_run, go] <;> rfl
theorem relock_go (hs : s.retired = true) : ∃ t, exec (.glRelockGo f) s = .next t ∧ (s.withFabric fun g =>
    let at' := BitVec.ofNat 48 (s.ctx.sreg f.a).toNat
    if (s.ctx.sreg f.a).getLsbD 63 = false then { g with at' := at' }
    else if g.st ≠ .dark then { g with code := 1 }
    else if g.badTable (s.dev (pkgOf s.cur)).pos.toNat then { g with at' := at', code := 4 }
    else { g with at' := at', relockGo := true, since := ({ s with now := s.issueCycle [f.a] } : State).time (pkgOf s.cur) }).issued t
      (s.issueCycle [f.a]) := by
  refine sysw_then (n := 0x209) rfl ha hs rfl (.inl hp) rfl ?_
  rw [← bits_low]
  cases go : (s.ctx.sreg f.a).getLsbD 63 <;> simp only [bind_run, get_run, go, Bool.true_and, decide_eq_true_eq]
  · rfl
  · rfl

variable (hd : s.ctx.readable f.d = true) (hs : s.retired = true)
include hd hs

theorem lanestat_en (hi : (s.ctx.sreg f.d).toNat < 128) : ∃ t, exec (.glLanestatEn f) s = .next t ∧ (s.withFabric fun g =>
    let l := mget Lane.reset g.lanes (s.ctx.sreg f.d).toNat
    { g with lanes := mset g.lanes (s.ctx.sreg f.d).toNat (if (s.ctx.sreg f.a).getLsbD 4
        then { l with en := true, pend := l.pend || l.st = 0 || l.st = 3 }
        else { l with en := false, pend := false, st := if l.st = 3 then 3 else 0 }) }).issued t (s.issueCycle [f.a, f.d]) := by
  refine sysw_entry (n := 0x204) rfl ha hd hs rfl hp (decide_eq_true hi) rfl ?_
  cases go : (s.ctx.sreg f.a).getLsbD 4 <;> simp only [go] <;> rfl
theorem allow_withhold (hi : (s.ctx.sreg f.d).toNat < 64) : ∃ t, exec (.glAllowWithhold f) s = .next t ∧ (s.withFabric fun g =>
    { g with allows := mset g.allows (s.ctx.sreg f.d).toNat { mget Allow.reset g.allows (s.ctx.sreg f.d).toNat with
      withhold := (s.ctx.sreg f.a).getLsbD 63 } }).issued t (s.issueCycle [f.a, f.d]) :=
  sysw_entry (n := 0x208) rfl ha hd hs rfl hp (decide_eq_true hi) rfl rfl
theorem lanestat_outside (hi : 128 ≤ (s.ctx.sreg f.d).toNat) : s.traps (.glLanestatEn f) cILLEGAL s.ctx.unit :=
  finish_trap (bind_stops (syswArgs_outside (n := 0x204) hs ha hd rfl hp (decide_eq_false (Nat.not_lt.2 hi))))
theorem allow_outside (hi : 64 ≤ (s.ctx.sreg f.d).toNat) : s.traps (.glAllowWithhold f) cILLEGAL s.ctx.unit :=
  finish_trap (bind_stops (syswArgs_outside (n := 0x208) hs ha hd rfl hp (decide_eq_false (Nat.not_lt.2 hi))))

end

/-- Settles O13. -/
theorem csrWrites : Obligations.CsrWrites := by
  unfold Obligations.CsrWrites
  refine ⟨⟨fun f s hp ha hs => ?fields, fun f s ha hs => ?own⟩, fun f s hp ha hd hs => ?fabric⟩
  case fields =>
    obtain ⟨status, frm, trappc, trapval, pix, evbase⟩ := setCsr_fields { s with now := s.issueCycle [f.a] } (s.ctx.sreg f.a)
    exact ⟨fun hn => sysw_writes _ hp ha hs hn rfl rfl status, fun hn => sysw_writes _ hp ha hs hn rfl rfl frm,
      fun hn => sysw_writes _ hp ha hs hn rfl rfl trappc, fun hn => sysw_writes _ hp ha hs hn rfl rfl trapval,
      fun hn => sysw_writes _ hp ha hs hn rfl rfl pix, fun hn => sysw_writes _ hp ha hs hn rfl rfl evbase, sysw_readOnly hp ha hs⟩
  case own =>
    refine ⟨flags_writes ha hs, ringcfg_writes ha hs, recvbase_writes ha hs, recvsize_writes ha hs, recvtail_writes ha hs⟩
  case fabric =>
    exact ⟨drain_go hp ha hs, relock_go hp ha hs, lanestat_en hp ha hd hs, allow_withhold hp ha hd hs, lanestat_outside hp ha hd hs,
      allow_outside hp ha hd hs⟩

end Sys2Proof.Machine
end

section
set_option Elab.async false
/-! The integer and bitwise A-words, element by element (R251). -/
namespace Sys2Proof.Machine

/-! ## Results that are packed elements -/

section
variable {s : State} {f : AW} {i : Instr} {lat : Nat}

/-- Two operands to a result, element by element. -/
theorem ints_next (h : s.canVector f true = true) {op : Nat → Nat → Nat} (hi : exec i s = finish (ints f lat op) s) :
    ∃ t r, exec i s = .next t ∧ (s.taken f true).vwrote t f.t f.d lat r (s.opK f) ∧ ∀ n < 2048 / elemWidth f.t,
      el (elemWidth f.t) r n = op (el (elemWidth f.t) (s.opA f) n) (el (elemWidth f.t) (s.opB f) n) % 2 ^ elemWidth f.t := by
  obtain ⟨t, ht, hw⟩ := vector_next_unflagged h hi (lat := lat) (k := s.opK f)
    (r := pack (elemWidth f.t) ((List.range (2048 / elemWidth f.t)).map fun n =>
      op (el (elemWidth f.t) (s.opA f) n) (el (elemWidth f.t) (s.opB f) n))) (by
      simp only [ints, bind_run, operands_run h no_acc, if_true, elems_eq, zipWith_map_range])
  exact ⟨t, _, ht, hw, fun n hn => el_pack_map hn _⟩

/-- One operand to a result. -/
theorem ints1_next (h : s.canVector f false = true) {op : Nat → Nat} (hi : exec i s = finish (ints1 f lat op) s) :
    ∃ t r, exec i s = .next t ∧ (s.taken f false).vwrote t f.t f.d lat r (s.opK f) ∧ ∀ n < 2048 / elemWidth f.t,
      el (elemWidth f.t) r n = op (el (elemWidth f.t) (s.opA f) n) % 2 ^ elemWidth f.t := by
  obtain ⟨t, ht, hw⟩ := vector_next_unflagged h hi (lat := lat) (k := s.opK f)
    (r := pack (elemWidth f.t) ((List.range (2048 / elemWidth f.t)).map fun n => op (el (elemWidth f.t) (s.opA f) n))) (by
      simp only [ints1, bind_run, operands_run h no_acc, elems_eq, List.map_map]
      rfl)
  exact ⟨t, _, ht, hw, fun n hn => el_pack_map hn _⟩

/-- The elements of a row's result are related to the operands', when its operation relates codes of the width. -/
theorem ints_related {row : (AW → Instr) × (Nat → Nat → Nat → Prop)} (h : s.canVector f true = true) {op : Nat → Nat → Nat}
    (hi : exec (row.1 f) s = finish (ints f lat op) s)
    (hr : ∀ a b, a < 2 ^ elemWidth f.t → b < 2 ^ elemWidth f.t → row.2 a b (op a b % 2 ^ elemWidth f.t)) :
    ∃ t r, exec (row.1 f) s = .next t ∧ (s.taken f true).vwrote t f.t f.d lat r (s.opK f) ∧ ∀ n < 2048 / elemWidth f.t,
      row.2 (el (elemWidth f.t) (s.opA f) n) (el (elemWidth f.t) (s.opB f) n) (el (elemWidth f.t) r n) := by
  obtain ⟨t, r, ht, hw, he⟩ := ints_next h hi
  exact ⟨t, r, ht, hw, fun n hn => he n hn ▸ hr _ _ (el_lt ..) (el_lt ..)⟩
theorem ints1_related {row : (AW → Instr) × (Nat → Nat → Prop)} (h : s.canVector f false = true) {op : Nat → Nat}
    (hi : exec (row.1 f) s = finish (ints1 f lat op) s) (hr : ∀ a, a < 2 ^ elemWidth f.t → row.2 a (op a % 2 ^ elemWidth f.t)) :
    ∃ t r, exec (row.1 f) s = .next t ∧ (s.taken f false).vwrote t f.t f.d lat r (s.opK f) ∧ ∀ n < 2048 / elemWidth f.t,
      row.2 (el (elemWidth f.t) (s.opA f) n) (el (elemWidth f.t) r n) := by
  obtain ⟨t, r, ht, hw, he⟩ := ints1_next h hi
  exact ⟨t, r, ht, hw, fun n hn => he n hn ▸ hr _ (el_lt ..)⟩

end

/-! ## The operations on codes of w bits -/

section
variable {w a b : Nat}

theorem wrap_mod (w : Nat) (x : Int) : wrap w x % 2 ^ w = wrap w x := Nat.mod_eq_of_lt (by
  have := Int.emod_lt_of_pos x (show (0 : Int) < 2 ^ w by positivity)
  have h0 := Int.emod_nonneg x (show (2 : Int) ^ w ≠ 0 by positivity)
  rw [wrap]
  zify
  omega)
theorem wrap_cast (w : Nat) (x : Int) : ((wrap w x : Nat) : Int) = x % 2 ^ w :=
  Int.toNat_of_nonneg (Int.emod_nonneg _ (by positivity))

theorem wrap_code (w : Nat) (x : Int) : ((wrap w x % 2 ^ w : Nat) : Int) = x % 2 ^ w := by rw [wrap_mod, wrap_cast]

theorem sub_code (ha : a < 2 ^ w) (hb : b < 2 ^ w) : ((a + 2 ^ w - b) % 2 ^ w + b) % 2 ^ w = a := by
  rw [Nat.mod_add_mod, show a + 2 ^ w - b + b = a + 2 ^ w by omega, Nat.add_mod_right, Nat.mod_eq_of_lt ha]
theorem testBit_code (j : Nat) (h : a < 2 ^ w) : (a % 2 ^ w).testBit j = a.testBit j := by rw [Nat.mod_eq_of_lt h]
theorem andn_code (ha : a < 2 ^ w) (hb : b < 2 ^ w) (j : Nat) : (a &&& (2 ^ w - 1 - b)).testBit j = (a.testBit j && !b.testBit j) := by
  rw [Nat.testBit_and, show 2 ^ w - 1 - b = 2 ^ w - (b + 1) by omega, Nat.testBit_two_pow_sub_succ hb]
  by_cases hj : j < w
  · simp [hj]
  · rw [Nat.testBit_lt_two_pow (Nat.lt_of_lt_of_le ha (Nat.pow_le_pow_right (by decide) (Nat.not_lt.1 hj)))]
    rfl

theorem asSigned_eq (hw : 0 < w) (ha : a < 2 ^ w) : asSigned w a = (a : Int).bmod (2 ^ w) := by
  have half : 2 ^ w = 2 * 2 ^ (w - 1) := by rw [← Nat.pow_succ', Nat.succ_eq_add_one, Nat.sub_add_cancel hw]
  have cast : ((2 ^ w : Nat) : Int) = 2 ^ w := by push_cast; rfl
  rw [Int.bmod_def, Int.emod_eq_of_lt (by omega) (by omega), asSigned, ← cast]
  split <;> split <;> omega

/-- A code that is an integer of its type, when the type holds it. -/
theorem elemInt_wrap (t : BitVec 3) {x : Int} (lo : (if t = 1 then 0 else -(2 ^ (elemWidth t - 1))) ≤ x)
    (hi : x ≤ if t = 1 then 2 ^ elemWidth t - 1 else 2 ^ (elemWidth t - 1) - 1) : elemInt t (wrap (elemWidth t) x) = x := by
  have whole : (2 : Int) ^ elemWidth t = 2 * (2 ^ (elemWidth t - 1) : Nat) := by exact_mod_cast pow_elemWidth t
  have half : (2 : Int) ^ (elemWidth t - 1) = (2 ^ (elemWidth t - 1) : Nat) := by push_cast; rfl
  rw [whole, half] at hi
  rw [half] at lo
  have code : ((wrap (elemWidth t) x : Nat) : Int) = if x < 0 then x + 2 * (2 ^ (elemWidth t - 1) : Nat) else x := by
    rw [wrap_cast, whole]
    split
    case isTrue neg => rw [← Int.add_emod_right, Int.emod_eq_of_lt (by split at lo <;> omega) (by omega)]
    case isFalse pos => rw [Int.emod_eq_of_lt (by omega) (by split at hi <;> omega)]
  have signed : isSigned t = true ↔ t ≠ 1 := by simp [isSigned]
  simp only [elemInt_eq, signed]
  by_cases h : t = 1
  · simp only [h, ne_eq, not_true, false_and, if_false, if_true] at *
    omega
  · simp only [h, if_false, ne_eq, not_false_eq_true, true_and] at *
    split <;> split at code <;> omega

/-- What saturates is held to the type's range. -/
theorem elemInt_clamp (t : BitVec 3) (x : Int) : elemInt t (clampTo t x % 2 ^ elemWidth t) =
    max (if t = 1 then 0 else -(2 ^ (elemWidth t - 1))) (min (if t = 1 then 2 ^ elemWidth t - 1 else 2 ^ (elemWidth t - 1) - 1) x) := by
  have range : (if t = 1 then 0 else -(2 ^ (elemWidth t - 1)) : Int) ≤ if t = 1 then 2 ^ elemWidth t - 1 else 2 ^ (elemWidth t - 1) - 1 := by
    have := Int.pow_pos (n := 2) (m := elemWidth t) (by decide)
    have := Int.pow_pos (n := 2) (m := elemWidth t - 1) (by decide)
    split <;> omega
  have held (lo hi : Int) (h : lo ≤ hi) : (if x < lo then lo else if hi < x then hi else x) = max lo (min hi x) := by
    split
    · omega
    · split <;> omega
  have clamp : clampTo t x = wrap (elemWidth t)
      (max (if t = 1 then 0 else -(2 ^ (elemWidth t - 1))) (min (if t = 1 then 2 ^ elemWidth t - 1 else 2 ^ (elemWidth t - 1) - 1) x)) := by
    rw [← held _ _ range]
    by_cases h : t = 1 <;> simp [clampTo, isSigned, h]
  rw [clamp, wrap_mod]
  exact elemInt_wrap t (le_max_left ..) (max_le range (min_le_left ..))

theorem pick2_lt {t : BitVec 3} {n : Nat} (larger : Bool) (ha : a < n) (hb : b < n) : pick2 t larger a b < n := by
  unfold pick2
  split <;> assumption
theorem pick2_min {t : BitVec 3} (ha : a < 2 ^ elemWidth t) (hb : b < 2 ^ elemWidth t) :
    elemInt t (pick2 t false a b % 2 ^ elemWidth t) = min (elemInt t a) (elemInt t b) := by
  rw [Nat.mod_eq_of_lt (pick2_lt false ha hb)]
  by_cases h : elemInt t a < elemInt t b <;> simp [pick2, h] <;> omega
theorem pick2_max {t : BitVec 3} (ha : a < 2 ^ elemWidth t) (hb : b < 2 ^ elemWidth t) :
    elemInt t (pick2 t true a b % 2 ^ elemWidth t) = max (elemInt t a) (elemInt t b) := by
  rw [Nat.mod_eq_of_lt (pick2_lt true ha hb)]
  by_cases h : elemInt t a < elemInt t b <;> simp [pick2, h] <;> omega

/-- The zeros above the highest set bit. -/
theorem leading_code (ha : a < 2 ^ w) : let r := if a = 0 then w else w - 1 - Nat.log2 a
    r ≤ w ∧ (∀ j < r, a.testBit (w - 1 - j) = false) ∧ (r < w → a.testBit (w - 1 - r) = true) := by
  dsimp only
  split
  case isTrue h => simp [h]
  case isFalse h =>
    have top : Nat.log2 a < w := (Nat.log2_lt h).2 ha
    refine ⟨by omega, fun j hj => ?_, fun _ => ?_⟩
    · exact Nat.testBit_lt_two_pow (Nat.lt_of_lt_of_le Nat.lt_log2_self (Nat.pow_le_pow_right (by decide) (by omega)))
    · rw [show w - 1 - (w - 1 - Nat.log2 a) = Nat.log2 a by omega, Nat.testBit_eq_decide_div_mod_eq]
      have one : a / 2 ^ Nat.log2 a = 1 := Nat.div_eq_of_lt_le (by simpa using Nat.log2_self_le h) (by
        simpa [Nat.pow_succ, Nat.mul_comm] using Nat.lt_log2_self (n := a))
      simp [one]

end

/-- A count of at most w is a code of w bits. -/
theorem count_mod {w n : Nat} (h : n ≤ w) : n % 2 ^ w = n := Nat.mod_eq_of_lt (Nat.lt_of_le_of_lt h Nat.lt_two_pow_self)
theorem popCount_code (w a : Nat) : popCount (BitVec.ofNat w a) % 2 ^ w = (List.range w).countP fun j => a.testBit j := by
  have bits : popCount (BitVec.ofNat w a) = (List.range w).countP fun j => a.testBit j := by
    rw [popCount_eq]
    exact List.countP_congr fun j hj => by rw [BitVec.getLsbD_ofNat, decide_eq_true (List.mem_range.1 hj), Bool.true_and]
  rw [bits, count_mod]
  simpa using List.countP_le_length (p := fun j => a.testBit j) (l := List.range w)

/-! ## The statement -/

theorem elemWidth_pos (t : BitVec 3) : 0 < elemWidth t := by
  have := elemWidth_cases t
  omega

/-- The code that VABS gives. -/
theorem abs_code (t : BitVec 3) {a : Nat} (ha : a < 2 ^ elemWidth t) : let w := elemWidth t
    let r := (if isFloat t then if ((fmtOfType t).decode a).isNan then (fmtOfType t).nan else a % 2 ^ (w - 1) else (asSigned w a).natAbs) % 2 ^ w
    if isFloat t then r = if ((fmtOfType t).decode a).isNan then (fmtOfType t).nan % 2 ^ w else a % 2 ^ (w - 1)
    else r = ((a : Int).bmod (2 ^ w)).natAbs := by
  have half : 2 ^ elemWidth t = 2 * 2 ^ (elemWidth t - 1) := pow_elemWidth t
  have low : a % 2 ^ (elemWidth t - 1) < 2 ^ (elemWidth t - 1) := Nat.mod_lt _ (by positivity)
  dsimp only
  cases isFloat t
  · simp only [Bool.false_eq_true, if_false]
    rw [← asSigned_eq (elemWidth_pos t) ha]
    refine Nat.mod_eq_of_lt ?_
    have cast : (2 : Int) ^ elemWidth t = (2 ^ elemWidth t : Nat) := by push_cast; rfl
    rw [asSigned, cast]
    split <;> omega
  · simp only [if_true]
    split
    · rfl
    · exact Nat.mod_eq_of_lt (by omega)

/-- Settles O27, operation by operation: each is its function on codes. -/
theorem vectorIntegers : Obligations.VectorIntegers := by
  unfold Obligations.VectorIntegers
  intro f s
  refine ⟨fun h => ?two, fun h => ?one⟩
  case two =>
    refine List.forall_mem_cons.2 ⟨?add, List.forall_mem_cons.2 ⟨?sub, List.forall_mem_cons.2 ⟨?mul, List.forall_mem_cons.2 ⟨?mulh, List.forall_mem_cons.2 ⟨?min, List.forall_mem_cons.2 ⟨?max, List.forall_mem_cons.2 ⟨?and, List.forall_mem_cons.2 ⟨?or, List.forall_mem_cons.2 ⟨?xor, List.forall_mem_cons.2 ⟨?andn, List.forall_mem_cons.2 ⟨?shl, List.forall_mem_cons.2 ⟨?shr, List.forall_mem_cons.2 ⟨?sar, List.forall_mem_cons.2 ⟨?adds, List.forall_mem_singleton.2 ?subs⟩⟩⟩⟩⟩⟩⟩⟩⟩⟩⟩⟩⟩⟩
    case add => exact ints_related h rfl fun a b _ _ => rfl
    case sub => exact ints_related h rfl fun a b ha hb => sub_code ha hb
    case mul => exact ints_related h rfl fun a b _ _ => rfl
    case mulh => exact ints_related h rfl fun a b _ _ => wrap_code _ _
    case min => exact ints_related h rfl fun a b ha hb => pick2_min ha hb
    case max => exact ints_related h rfl fun a b ha hb => pick2_max ha hb
    case and => exact ints_related h rfl fun a b ha _ j => by rw [testBit_code j (Nat.lt_of_le_of_lt Nat.and_le_left ha), Nat.testBit_and]
    case or => exact ints_related h rfl fun a b ha hb j => by rw [testBit_code j (Nat.or_lt_two_pow ha hb), Nat.testBit_or]
    case xor => exact ints_related h rfl fun a b ha hb j => by rw [testBit_code j (Nat.xor_lt_two_pow ha hb), Nat.testBit_xor]
    case andn => exact ints_related h rfl fun a b ha hb j => by rw [testBit_code j (Nat.lt_of_le_of_lt Nat.and_le_left ha), andn_code ha hb]
    case shl => exact ints_related h rfl fun a b _ _ => rfl
    case shr => exact ints_related h rfl fun a b ha _ => Nat.mod_eq_of_lt (Nat.lt_of_le_of_lt (Nat.div_le_self ..) ha)
    case sar => exact ints_related h rfl fun a b ha _ => asSigned_eq (elemWidth_pos f.t) ha ▸ wrap_code _ _
    case adds => exact ints_related h rfl fun a b _ _ => elemInt_clamp ..
    case subs => exact ints_related h rfl fun a b _ _ => elemInt_clamp ..
  case one =>
    refine List.forall_mem_cons.2 ⟨?abs, List.forall_mem_cons.2 ⟨?clz, List.forall_mem_singleton.2 ?popc⟩⟩
    case abs => exact ints1_related h rfl fun a ha => abs_code f.t ha
    case clz => exact ints1_related h rfl fun a ha => by rw [count_mod (leading_code ha).1]; exact leading_code ha
    case popc => exact ints1_related h rfl fun a _ => popCount_code _ a

end Sys2Proof.Machine
end

section
set_option Elab.async false
/-! The floating A-words, the special functions and the conversions (R204, R252 to R255, R378). -/
namespace Sys2Proof.Machine

/-! ## Elements with flags -/

/-- The flags of the active elements among n. -/
def flagsOf (w n : Nat) (m : Word) (g : Nat → BitVec 11) : BitVec 11 :=
  (List.range n).foldl (fun acc i => if activeBit w m i then acc ||| g i else acc) 0

theorem flagsOf_active (w n : Nat) (m : Word) (g : Nat → BitVec 11) : activeFlags w n m g (flagsOf w n m g) := fun j _ =>
  foldl_flags_range (activeBit w m) g n j

theorem withFlags_run (w n : Nat) (m : Word) (g : Nat → Nat × BitVec 11) (s : State) : withFlags w m ((List.range n).map g) s =
    .ok ((List.range n).map fun i => (g i).1, s.flagged (flagsOf w n m fun i => (g i).2)) := by
  simp only [withFlags, bind_run, raise_run, pure_run, List.length_map, List.length_range, zip_map_range, List.foldl_map, List.map_map]
  rfl

/-! ## Arithmetic -/

section
variable {s : State} {f : AW} {i : Instr}

/-- The dynamic rounding mode does not change when operands are taken. -/
theorem frm_taken (s : State) (f : AW) (two : Bool) : frm (s.taken f two) = .ok (s.ctx.frm.toNat, s.taken f two) := by
  simp only [frm, bind_run, getC_run, pure_run, taken_frm]

theorem floats_next (h : s.canVector f true = true) {op : Nat → FV → FV → FV × BitVec 11} (hi : exec i s = finish (floats f op) s) :
    let w := elemWidth f.t
    let fm := fmtOfType f.t
    let v := fun n => op s.ctx.frm.toNat (fm.decode (el w (s.opA f) n)) (fm.decode (el w (s.opB f) n))
    ∃ t r fl, exec i s = .next t ∧ ((s.taken f true).flagged fl).vwrote t f.t f.d 4 r (s.opK f) ∧
      (∀ n < 2048 / w, el w r n = (fm.round s.ctx.frm.toNat .arith (v n).1).1 % 2 ^ w) ∧
      activeFlags w (2048 / w) (s.opK f) (fun n => (v n).2 ||| (fm.round s.ctx.frm.toNat .arith (v n).1).2) fl := by
  intro w fm v
  obtain ⟨t, ht, hw⟩ := vector_next h hi (lat := 4) (k := s.opK f)
    (fl := flagsOf w (2048 / w) (s.opK f) fun n => (v n).2 ||| (fm.round s.ctx.frm.toNat .arith (v n).1).2)
    (r := pack w ((List.range (2048 / w)).map fun n => (fm.round s.ctx.frm.toNat .arith (v n).1).1)) (by
      simp only [floats, bind_run, operands_run h no_acc, if_true, frm_taken, elems_eq, zipWith_map_range, withFlags_run, raise_run]
      rfl)
  exact ⟨t, _, _, ht, hw, fun n hn => el_pack_map hn _, flagsOf_active _ _ _ _⟩

theorem vfma_next (h : s.canVector f true = true) (hl : s.canSource (accCode f.d) = true) :
    let w := elemWidth f.t
    let fm := fmtOfType f.t
    let v := fun n => FV.fma s.ctx.frm.toNat (fm.decode (el w (s.opA f) n)) (fm.decode (el w (s.opB f) n))
      (fm.decode (el w (s.source f.t (accCode f.d)) n))
    ∃ t r fl, exec (.vfma f) s = .next t ∧ ((s.taken f true).flagged fl).vwrote t f.t f.d 4 r (s.opK f) ∧
      (∀ n < 2048 / w, el w r n = (fm.round s.ctx.frm.toNat .arith (v n).1).1 % 2 ^ w) ∧
      activeFlags w (2048 / w) (s.opK f) (fun n => (v n).2 ||| (fm.round s.ctx.frm.toNat .arith (v n).1).2) fl := by
  intro w fm v
  obtain ⟨-, hready, -⟩ := (canSource_iff s (accCode f.d)).1 hl
  have third : ∀ c, some (accCode f.d) = some c → s.ctx.trust = true ∨ s.ctx.readyAt c ≤ s.now := fun _ hc => Option.some.inj hc ▸ hready
  obtain ⟨t, ht, hw⟩ := vector_next h (o := exec (.vfma f) s) rfl (lat := 4) (k := s.opK f)
    (fl := flagsOf w (2048 / w) (s.opK f) fun n => (v n).2 ||| (fm.round s.ctx.frm.toNat .arith (v n).1).2)
    (r := pack w ((List.range (2048 / w)).map fun n => (fm.round s.ctx.frm.toNat .arith (v n).1).1)) (by
      simp only [bind_run, readSrc_register s f.t (accCode_lt f.d), operands_run h third, if_true, frm_taken, elems_eq, List.zip, zipWith_map_range,
        withFlags_run, raise_run]
      rfl)
  exact ⟨t, _, _, ht, hw, fun n hn => el_pack_map hn _, flagsOf_active _ _ _ _⟩

/-- The element that VFMIN or VFMAX picks. -/
theorem floatPick_code (fm : Fmt) (larger : Bool) {w a b : Nat} (ha : a < 2 ^ w) (hb : b < 2 ^ w) : floatPick fm larger a b % 2 ^ w =
    if (fm.decode a).isNan || (fm.decode b).isNan then fm.nan % 2 ^ w
    else match (fm.decode a).cmp (fm.decode b) with
      | .lt => if larger then b else a
      | .gt => if larger then a else b
      | .eq => if ((fm.decode a).sign && !(fm.decode b).sign) = larger then b else a := by
  unfold floatPick
  dsimp only
  split
  case isTrue => rfl
  case isFalse =>
    have code {x : Nat} (h : x = a ∨ x = b) : x % 2 ^ w = x := Nat.mod_eq_of_lt (by rcases h with rfl | rfl <;> assumption)
    cases (fm.decode a).cmp (fm.decode b) <;> cases larger <;> simp [Nat.mod_eq_of_lt ha, Nat.mod_eq_of_lt hb]
    all_goals split <;> simp [Nat.mod_eq_of_lt ha, Nat.mod_eq_of_lt hb]

end

/-- An A-word that ends with flags and a result, in whatever state it has made. -/
theorem flagged_next {s e : State} {d : BitVec 6} (he : e.ctx.Takes d) {o : Host.Outcome State Fault Refusal} {m : M Unit} (ho : o = finish m s)
    {fl : BitVec 11} {ty : BitVec 3} {lat : Nat} {r : Vec} {k : Word} (hm : m s = (do raise fl; writeDest ty d lat r k : M Unit) e) :
    ∃ t, o = .next t ∧ (e.flagged fl).vwrote t ty d lat r k := by
  obtain ⟨u, hu, hw⟩ := writeDest_vwrote (takes_flagged he fl) ty lat r k
  exact ⟨_, ho.trans (finish_ok (t := u) (by rw [hm, bind_run, raise_run]; exact hu)), hw⟩

/-! ## The special functions -/

/-- s when the special-function unit is free. -/
def State.sfuFree (s : State) : State := s.issueAt (s.tile s.cur).sfuBusy
/-- e with the unit occupied by an A-word that issues in cycle n. -/
def State.sfuTaken (e : State) (t n : Nat) : State := e.modTile t fun x => { x with sfuBusy := n + 4 }

theorem sfuTaken_ctx (e : State) (t n : Nat) : (e.sfuTaken t n).ctx = e.ctx := modTile_ctx t rfl

theorem special_next {s : State} {f : AW} {row : (AW → Instr) × (FV → Nat × BitVec 11)} (h : s.sfuFree.canVector f false = true)
    (hi : exec (row.1 f) s = finish (special f row.2) s) : ∃ t r fl, exec (row.1 f) s = .next t ∧
      (((s.sfuFree.taken f false).sfuTaken s.cur s.sfuFree.now).flagged fl).vwrote t f.t f.d 8 r (s.sfuFree.opK f) ∧
      (∀ n < 64, el 32 r n = (row.2 (f32.decode (el 32 (s.sfuFree.opA f) n))).1 % 2 ^ 32) ∧
      activeFlags 32 64 (s.sfuFree.opK f) (fun n => (row.2 (f32.decode (el 32 (s.sfuFree.opA f) n))).2) fl := by
  have takes : ((s.sfuFree.taken f false).sfuTaken s.cur s.sfuFree.now).ctx.Takes f.d := by rw [sfuTaken_ctx]; exact takes_taken h
  have elements : (elems 32 (s.sfuFree.opA f)).map (fun a => row.2 (f32.decode a)) =
      (List.range 64).map fun n => row.2 (f32.decode (el 32 (s.sfuFree.opA f) n)) := by
    rw [elems_eq, List.map_map]
    rfl
  have occupied : (s.sfuFree.taken f false).modTile (s.sfuFree.taken f false).cur (fun t => { t with sfuBusy := (s.sfuFree.taken f false).now + 4 }) =
      (s.sfuFree.taken f false).sfuTaken s.cur s.sfuFree.now := rfl
  obtain ⟨t, ht, hw⟩ := flagged_next takes hi (ty := f.t) (lat := 8) (k := s.sfuFree.opK f)
    (fl := flagsOf 32 64 (s.sfuFree.opK f) fun n => (row.2 (f32.decode (el 32 (s.sfuFree.opA f) n))).2)
    (r := pack 32 ((List.range 64).map fun n => (row.2 (f32.decode (el 32 (s.sfuFree.opA f) n))).1)) (by
      rw [State.sfuFree] at h elements occupied
      simp only [special, bind_run, upd_run, operands_run h no_acc, elements, withFlags_run, raise_run, occupied]
      rfl)
  exact ⟨t, _, _, ht, hw, fun n hn => el_pack_map (w := 32) hn _, flagsOf_active _ _ _ _⟩

/-- Settles O28, by the shape that each kind of operation shares. -/
theorem vectorFloats : Obligations.VectorFloats := by
  unfold Obligations.VectorFloats
  intro f s
  refine ⟨fun h => ⟨floats_next (op := fun mode a b => a.add mode b) h rfl,
    floats_next (op := fun mode a b => a.add mode b.neg) h rfl, floats_next (op := fun _ a b => a.mul b) h rfl, fun hl => vfma_next h hl, ?picks⟩, fun h => ?special⟩
  case picks =>
    refine List.forall_mem_cons.2 ⟨?_, List.forall_mem_singleton.2 ?_⟩
    · obtain ⟨t, r, ht, hw, he⟩ := ints_next (i := .vfmin f) h rfl
      exact ⟨t, r, ht, hw, fun n hn => (he n hn).trans (floatPick_code _ _ (el_lt ..) (el_lt ..))⟩
    · obtain ⟨t, r, ht, hw, he⟩ := ints_next (i := .vfmax f) h rfl
      exact ⟨t, r, ht, hw, fun n hn => (he n hn).trans (floatPick_code _ _ (el_lt ..) (el_lt ..))⟩
  case special =>
    exact List.forall_mem_cons.2 ⟨special_next h rfl, List.forall_mem_cons.2 ⟨special_next h rfl, List.forall_mem_cons.2 ⟨special_next h rfl,
      List.forall_mem_cons.2 ⟨special_next h rfl, List.forall_mem_singleton.2 (special_next h rfl)⟩⟩⟩⟩

/-! ## Conversions -/

section
variable {s : State} {f : AW}

theorem convMode_taken (s : State) (f : AW) (two : Bool) (b : BitVec 6) :
    convMode b (s.taken f two) = .ok (if b.getLsbD 0 then s.ctx.frm.toNat else 0, s.taken f two) := by
  unfold convMode
  split
  · exact frm_taken s f two
  · rfl

/-- The first n elements. -/
theorem take_elems {w n : Nat} (hn : n ≤ 2048 / w) (x : Vec) : (elems w x).take n = (List.range n).map (el w x) := by
  rw [elems_eq, ← List.map_take, List.take_range, Nat.min_eq_left hn]

/-- Packed results of n elements: those above are 0. -/
theorem el_pack_range {w i : Nat} (h : i < 2048 / w) (n : Nat) (g : Nat → Nat) :
    el w (pack w ((List.range n).map g)) i = if i < n then g i % 2 ^ w else 0 := by
  rw [el_pack h]
  split
  case isTrue hi => rw [getD_map_range g 0 hi]
  case isFalse hi => simp [List.getD_eq_getElem?_getD, hi]

theorem vcvt_next (h : s.canVector f false = true) :
    let w := elemWidth f.t
    let u := elemWidth f.dt
    let n := min (2048 / w) (2048 / u)
    let c := fun i => convertElem f.t f.dt (if f.b.getLsbD 0 then s.ctx.frm.toNat else 0) (policyOf (f.b.extractLsb' 1 2).toNat) (el w (s.opA f) i)
    ∃ t r fl, exec (.vcvt f) s = .next t ∧ ((s.taken f false).flagged fl).vwrote t f.dt f.d 3 r (s.opK f) ∧
      (∀ i < 2048 / u, el u r i = if i < n then (c i).1 % 2 ^ u else 0) ∧ activeFlags u n (s.opK f) (fun i => (c i).2) fl := by
  intro w u n c
  have elements : ((elems w (s.opA f)).take n).map (convertElem f.t f.dt (if f.b.getLsbD 0 then s.ctx.frm.toNat else 0)
      (policyOf (bits f.b 1 2).toNat)) = (List.range n).map c := by
    rw [take_elems (Nat.min_le_left ..), List.map_map]
    rfl
  obtain ⟨t, ht, hw⟩ := flagged_next (takes_taken h) (o := exec (.vcvt f) s) rfl (ty := f.dt) (lat := 3) (k := s.opK f)
    (fl := flagsOf u n (s.opK f) fun i => (c i).2) (r := pack u ((List.range n).map fun i => (c i).1)) (by
      simp only [bind_run, operands_run h no_acc, convMode_taken, elements, withFlags_run, raise_run, w, n, u] at elements ⊢)
  exact ⟨t, _, _, ht, hw, fun i hi => el_pack_range hi _ _, flagsOf_active _ _ _ _⟩

/-- The format of the narrow side has elements of w bits. -/
def narrowWidth (f : AW) : Nat := if f.k.toNat = 2 then 4 else 8

/-- R378: the escape to e2m1 traps while its feature is not accepted. -/
theorem vcvtNarrow_traps (hn : f.k.toNat = 2) (hf : (s.dev (pkgOf s.cur)).featAck.getLsbD 1 = false) :
    s.traps (.vcvtNarrow f) cILLEGAL s.ctx.unit := by
  have off : (decide (f.k.toNat ≠ 2) || (s.dev (pkgOf s.cur)).featAck.getLsbD 1) = false := by
    rw [hn, hf]
    rfl
  refine finish_trap ?_
  simp only [bind_run, get_run, off]
  rfl

section
variable (hf : f.k.toNat = 2 → (s.dev (pkgOf s.cur)).featAck.getLsbD 1 = true) (h : s.canVector { f with k := 0 } false = true)
include hf h

/-- The escape's operand, when the feature that it needs is accepted. -/
theorem vcvtNarrow_run : exec (.vcvtNarrow f) s = finish (do
    let x := s.opA f
    set (s.taken f false)
    let all : Word := BitVec.allOnes 64
    if f.t = 6 then writeDest 2 f.d 3 (pack 32 (((elems (narrowWidth f) x).take 64).map (fromNarrow f.k.toNat))) all
    else
      let r ← withFlags (elemWidth f.t) all ((elems (elemWidth f.t) x).map fun a => toNarrow f.k.toNat
        (if f.b.getLsbD 0 then s.ctx.frm.toNat else 0) (policyOf (bits f.b 1 2).toNat) ((fmtOfType f.t).decode a))
      writeDest 2 f.d 3 (pack (narrowWidth f) r) all) s := by
  have on : (decide (f.k.toNat ≠ 2) || (s.dev (pkgOf s.cur)).featAck.getLsbD 1) = true := by
    by_cases hn : f.k.toNat = 2
    · rw [hf hn, Bool.or_true]
    · rw [decide_eq_true hn, Bool.true_or]
  refine finish_congr ?_
  have image : unitImage s = .ok (s.ctx.unit, s) := rfl
  have taken := operands_run h no_acc
  have mode : convMode f.b (s.taken { f with k := 0 } false) = _ := convMode_taken s { f with k := 0 } false f.b
  simp only [bind_run, get_run, image, on, need_true, taken, mode, set_run]
  rfl

theorem fromNarrow_next (ht : f.t = 6) : ∃ t r, exec (.vcvtNarrow f) s = .next t ∧ (s.taken f false).vwrote t 2 f.d 3 r (BitVec.allOnes 64) ∧
    ∀ i < 64, el 32 r i = fromNarrow f.k.toNat (el (narrowWidth f) (s.opA f) i) % 2 ^ 32 := by
  have room : 64 ≤ 2048 / narrowWidth f := by unfold narrowWidth; split <;> decide
  have takes : (s.taken f false).ctx.Takes f.d := takes_taken (f := { f with k := 0 }) h
  obtain ⟨u, hu, hw⟩ := writeDest_vwrote takes 2 3 (pack 32 ((List.range 64).map fun i => fromNarrow f.k.toNat (el (narrowWidth f) (s.opA f) i)))
    (BitVec.allOnes 64)
  refine ⟨_, _, (vcvtNarrow_run hf h).trans (finish_ok (t := u) ?_), hw, fun i hi => el_pack_map (w := 32) hi _⟩
  simp only [bind_run, set_run, ht, if_true, take_elems room, List.map_map]
  exact hu
theorem toNarrow_next (ht : f.t ≠ 6) :
    let v := elemWidth f.t
    let c := fun i => toNarrow f.k.toNat (if f.b.getLsbD 0 then s.ctx.frm.toNat else 0) (policyOf (f.b.extractLsb' 1 2).toNat)
      ((fmtOfType f.t).decode (el v (s.opA f) i))
    ∃ t r fl, exec (.vcvtNarrow f) s = .next t ∧ ((s.taken f false).flagged fl).vwrote t 2 f.d 3 r (BitVec.allOnes 64) ∧
      (∀ i < 2048 / narrowWidth f, el (narrowWidth f) r i = if i < 2048 / v then (c i).1 % 2 ^ narrowWidth f else 0) ∧
      activeFlags v (2048 / v) (BitVec.allOnes 64) (fun i => (c i).2) fl := by
  intro v c
  have elements : (elems v (s.opA f)).map (fun a => toNarrow f.k.toNat (if f.b.getLsbD 0 then s.ctx.frm.toNat else 0)
      (policyOf (bits f.b 1 2).toNat) ((fmtOfType f.t).decode a)) = (List.range (2048 / v)).map c := by
    rw [elems_eq, List.map_map]
    rfl
  have takes : (s.taken f false).ctx.Takes f.d := takes_taken (f := { f with k := 0 }) h
  obtain ⟨t, hn, hw⟩ := flagged_next takes (vcvtNarrow_run hf h) (ty := 2) (lat := 3) (k := BitVec.allOnes 64)
    (fl := flagsOf v (2048 / v) (BitVec.allOnes 64) fun i => (c i).2)
    (r := pack (narrowWidth f) ((List.range (2048 / v)).map fun i => (c i).1)) (by
      simp only [bind_run, set_run, if_neg ht, v] at elements ⊢
      simp only [elements, withFlags_run, raise_run])
  exact ⟨t, _, _, hn, hw, fun i hi => el_pack_range hi _ _, flagsOf_active _ _ _ _⟩

end
end

/-- Settles O29: VCVT by its elements, and its escape by the side that is narrow. -/
theorem vectorConversions : Obligations.VectorConversions := by
  unfold Obligations.VectorConversions
  exact fun f s => ⟨vcvt_next, vcvtNarrow_traps, fun hf h => ⟨fromNarrow_next hf h, toNarrow_next hf h⟩⟩

end Sys2Proof.Machine
end

section
set_option Elab.async false
/-! Lane selection, compares and masks (R256 to R258). -/
namespace Sys2Proof.Machine

/-! ## VSEL -/

/-- The mask of every lane makes every bit active. -/
theorem activeBits_allOnes (t : BitVec 3) {i : Nat} (hi : i < 2048) : (activeBits (elemWidth t) (BitVec.allOnes 64)).getLsbD i = true := by
  have lane : i / max (elemWidth t) 32 < 64 := Nat.div_lt_of_lt_mul (by
    have := Nat.le_max_right (elemWidth t) 32
    omega)
  rw [activeBits_getLsbD t _ hi, BitVec.getLsbD_allOnes]
  exact decide_eq_true lane

/-- Settles O30: VSEL writes every lane of a blend. -/
theorem laneSelect : Obligations.LaneSelect := by
  unfold Obligations.LaneSelect
  intro f s h lane
  obtain ⟨t, ht, hw⟩ := vector_next_unflagged h (o := exec (.vsel f) s) rfl (lat := 2) (k := BitVec.allOnes 64)
    (r := blend (activeBits (elemWidth f.t) (s.opK f)) (s.opB f) (s.opA f)) (by simp only [bind_run, operands_run h no_acc, if_true])
  refine ⟨t, _, ht, hw, fun i hi => ?_, fun hk => ?_⟩
  · rw [blend_getLsbD, activeBits_getLsbD f.t _ hi]
  · have all : s.opK f = BitVec.allOnes 64 := by
      rw [State.opK, hk]
      rfl
    refine BitVec.eq_of_getLsbD_eq fun i hi => ?_
    rw [blend_getLsbD, all, if_pos (activeBits_allOnes f.t hi)]

/-! ## Masks from predicates on elements -/

/-- The bits of a sum of distinct powers of two. -/
theorem testBit_sum_pow (p : Nat → Bool) (n : Nat) :
    let sum := (List.range n).foldl (fun acc i => if p i then acc + 2 ^ i else acc) 0
    sum < 2 ^ n ∧ ∀ i, sum.testBit i = (decide (i < n) && p i) := by
  induction n with
  | zero => simp
  | succ n ih =>
    obtain ⟨lt, bit⟩ := ih
    dsimp only at lt bit ⊢
    rw [List.range_succ, List.foldl_append, List.foldl_cons, List.foldl_nil]
    generalize (List.range n).foldl (fun acc i => if p i then acc + 2 ^ i else acc) 0 = acc at lt bit
    have double : 2 ^ (n + 1) = 2 ^ n + 2 ^ n := by rw [Nat.pow_succ]; omega
    cases hp : p n
    · refine ⟨by simp; omega, fun i => ?_⟩
      rw [if_neg Bool.false_ne_true, bit]
      by_cases hi : i = n <;> simp [hi, hp, Nat.le_iff_lt_or_eq]
    · refine ⟨by simp; omega, fun i => ?_⟩
      rw [if_pos rfl, Nat.add_comm acc]
      rcases Nat.lt_trichotomy i n with hi | rfl | hi
      · rw [Nat.testBit_two_pow_add_gt hi, bit]
        simp [hi, Nat.lt_succ_of_lt hi]
      · rw [Nat.testBit_two_pow_add_eq, bit]
        simp [hp]
      · rw [Nat.testBit_lt_two_pow (Nat.lt_of_lt_of_le (by omega : 2 ^ n + acc < 2 ^ (n + 1)) (Nat.pow_le_pow_right (by decide) hi))]
        simp; omega

/-- How many elements of a width share a mask bit. -/
def perLane (w : Nat) : Nat := if w = 64 then 1 else 32 / w

theorem perLane_spec (t : BitVec 3) : 0 < perLane (elemWidth t) ∧ 2048 / elemWidth t / perLane (elemWidth t) = 2048 / max (elemWidth t) 32 ∧
    perLane (elemWidth t) * (2048 / max (elemWidth t) 32) = 2048 / elemWidth t ∧ 2048 / max (elemWidth t) 32 ≤ 64 := by
  revert t
  decide

/-- The elements of lane i, among n. -/
theorem lane_all {n k i : Nat} (g : Nat → Bool) (h : k * i + k ≤ n) :
    ((((List.range n).map g).drop (k * i)).take k).all id = true ↔ ∀ j < k, g (k * i + j) = true := by
  rw [List.all_eq_true]
  constructor
  · intro all j hj
    refine all _ (List.mem_of_getElem? (i := j) ?_)
    simp [hj, List.getElem?_drop, show k * i + j < n by omega]
  · intro all b hb
    obtain ⟨j, hj, rfl⟩ := List.getElem_of_mem hb
    simp only [List.length_take, List.length_drop, List.length_map, List.length_range] at hj
    simp only [List.getElem_take, List.getElem_drop, List.getElem_map, List.getElem_range, id]
    exact all j (by omega)

/-- Bit i of a produced mask. -/
theorem laneMask_bit (t : BitVec 3) (g : Nat → Bool) {i : Nat} (hi : i < 64) :
    (laneMask (elemWidth t) ((List.range (2048 / elemWidth t)).map g)).getLsbD i = true ↔
      i < 2048 / max (elemWidth t) 32 ∧ ∀ j < perLane (elemWidth t), g (perLane (elemWidth t) * i + j) = true := by
  obtain ⟨pos, lanes, whole, -⟩ := perLane_spec t
  obtain ⟨-, bit⟩ := testBit_sum_pow (fun i => ((((List.range (2048 / elemWidth t)).map g).drop (perLane (elemWidth t) * i)).take
    (perLane (elemWidth t))).all id) (2048 / max (elemWidth t) 32)
  rw [laneMask, ← perLane, List.length_map, List.length_range, lanes, BitVec.getLsbD_ofNat, bit, decide_eq_true hi, Bool.true_and,
    Bool.and_eq_true, decide_eq_true_eq]
  refine and_congr_right fun hl => lane_all g ?_
  calc perLane (elemWidth t) * i + perLane (elemWidth t) = perLane (elemWidth t) * (i + 1) := rfl
    _ ≤ perLane (elemWidth t) * (2048 / max (elemWidth t) 32) := Nat.mul_le_mul_left _ hl
    _ = _ := whole

/-! ## Destinations of a mask -/

/-- The width of the lanes that a mask governs. -/
def laneWidth' (t : BitVec 3) : Nat := if elemWidth t = 64 then 64 else 32

theorem laneWidth'_eq (t : BitVec 3) : laneWidth' t = max (elemWidth t) 32 := by
  have := elemWidth_cases t
  unfold laneWidth'
  split <;> omega

/-- A produced mask, cut to the lanes that there are. -/
def cutMask (t : BitVec 3) (p : Word) : Word := if elemWidth t = 64 then zext (bits p 0 32) else p

theorem cutMask_getLsbD (t : BitVec 3) (p : Word) {i : Nat} (hi : i < 64) : (cutMask t p).getLsbD i = (decide (i < 2048 / laneWidth' t) && p.getLsbD i) := by
  unfold cutMask laneWidth'
  split
  · simp [hi]
  · simp [hi]

theorem cutMask_toNat (t : BitVec 3) (p m : Word) : cutMask t p &&& m = BitVec.ofNat 64 ((p &&& m).toNat % 2 ^ (2048 / laneWidth' t)) := by
  refine BitVec.eq_of_getLsbD_eq fun i hi => ?_
  rw [BitVec.getLsbD_and, cutMask_getLsbD t p hi, BitVec.getLsbD_ofNat, Nat.testBit_mod_two_pow, BitVec.testBit_toNat, BitVec.getLsbD_and,
    decide_eq_true hi, Bool.true_and, Bool.and_assoc]

/-- The mask as lanes, under the mask that governs it. -/
theorem maskLanes_getLsbD (t : BitVec 3) (p m : Word) {i : Nat} (hi : i < 2048) :
    (maskLanes (elemWidth t) (cutMask t p &&& m)).getLsbD i = (m.getLsbD (i / laneWidth' t) && p.getLsbD (i / laneWidth' t)) := by
  have lane : i / laneWidth' t < 64 := Nat.div_lt_of_lt_mul (by unfold laneWidth'; split <;> omega)
  have there : i / laneWidth' t < 2048 / laneWidth' t := by
    unfold laneWidth'
    split <;> omega
  rw [maskLanes, activeBits_getLsbD t _ hi, ← laneWidth'_eq, BitVec.getLsbD_and, cutMask_getLsbD t p lane, decide_eq_true there, Bool.true_and,
    Bool.and_comm]

/-- A place takes what another vector has there after it took r: the value r, or nothing where there is no such place. -/
theorem setIfInBounds_taken {α : Type} {n : Nat} (v u : Vector α n) (i : Nat) (r d : α) :
    v.setIfInBounds i ((u.setIfInBounds i r).getD i d) = v.setIfInBounds i r := by
  by_cases hi : i < n
  · rw [getD_setIfInBounds _ _ _ _ _ hi, if_pos rfl]
  · refine Vector.ext fun j hj => ?_
    rw [Vector.getElem_setIfInBounds, Vector.getElem_setIfInBounds, if_neg (by omega), if_neg (by omega)]

/-- A mask register takes the produced bits of the mask's lanes (R256). -/
theorem writeMask_register (e : State) (t : BitVec 3) {d : BitVec 6} (hd : 57 ≤ d.toNat) (lat : Nat) (p m : Word) :
    ∃ u, writeMask t d lat p m e = .ok ((), u) ∧ e.maskWrote { u with fate := .done } t d lat p m := by
  have run : writeMask t d lat p m e = .ok ((), e.setCtx (e.ctx.writeKreg e.compute (d.toNat - 56)
      (cutMask t (blend m (e.ctx.kreg (d.toNat - 56)).val p)) (e.now + lat))) := by
    simp only [writeMask, bind_run, get_run, if_pos hd, modC_run]
    rfl
  refine ⟨_, run, ?_⟩
  have own (k : Ctx) : ({ e.setCtx k with fate := .done } : State).ctx = k := setCtx_ctx ..
  rw [State.maskWrote, if_pos hd]
  refine ⟨elseAs_setCtx e _ e.now, ?_, fun n hn hn' => ?_⟩
  · rw [own, writeKreg_eq]
    simp only [Ctx.kreg, show d.toNat - 56 - 1 = d.toNat - 57 by omega, setIfInBounds_taken]
  · rw [own, writeKreg_eq]
    by_cases here : d.toNat = 56 + n
    · have value : (e.ctx.kregs.setIfInBounds (d.toNat - 56 - 1) ⟨cutMask t (blend m (e.ctx.kreg (d.toNat - 56)).val p), e.now + lat,
          (e.ctx.kreg (d.toNat - 56)).val⟩).getD (n - 1) KReg.reset = _ := getD_setIfInBounds _ _ _ _ _ (by omega)
      rw [if_pos here]
      simp only [Ctx.kreg] at value ⊢
      rw [value, if_pos (by omega), show d.toNat - 56 = n by omega]
      refine ⟨rfl, rfl, fun i hi => ?_⟩
      rw [cutMask_getLsbD t _ hi, blend_getLsbD]
      rfl
    · rw [if_neg here]
      simp only [Ctx.kreg]
      by_cases there : d.toNat - 56 - 1 < 3
      · rw [getD_setIfInBounds _ _ _ _ _ there, if_neg (by omega)]
      · rw [Vector.setIfInBounds_eq_of_size_le (by omega)]

/-- A delivery to a destination that is no mailbox says nothing of what a mailbox would take. -/
theorem delivers_box {e t : State} {d : BitVec 6} {lat : Nat} {v : Vec} {box : Word} (hd : isMb d = false) (h : e.delivers t d lat v box) (box' : Word) :
    e.delivers t d lat v box' := by
  obtain ⟨other, ctx, nowhere, queue, vregs, boxes⟩ := h
  refine ⟨other, ctx, nowhere, queue, vregs, fun n hn => ?_⟩
  have none : d.toNat ≠ 48 + n := fun he => Bool.false_ne_true (hd ▸ (isMb_iff d).2 (by omega))
  rw [boxes n hn, if_neg none, if_neg none]

theorem maskWrote_delivers {e u : State} {t : BitVec 3} {d : BitVec 6} {lat : Nat} {p m : Word} (hd : ¬ 57 ≤ d.toNat) {v : Vec}
    (hv : ∀ i < 2048, v.getLsbD i = if m.getLsbD (i / laneWidth' t) then p.getLsbD (i / laneWidth' t) else (e.ctx.kept' d).getLsbD i)
    (h : e.delivers u d lat v (cutMask t p &&& m)) : e.maskWrote u t d lat p m := by
  rw [State.maskWrote, if_neg hd]
  rw [cutMask_toNat] at h
  exact ⟨v, hv, h⟩

theorem writeMask_maskWrote {e : State} {d : BitVec 6} (h : e.ctx.Takes d) (t : BitVec 3) (lat : Nat) (p m : Word) :
    ∃ u, writeMask t d lat p m e = .ok ((), u) ∧ e.maskWrote { u with fate := .done } t d lat p m := by
  by_cases hd : 57 ≤ d.toNat
  · exact writeMask_register e t hd lat p m
  have lanes : ∀ i < 2048, (maskedResult e t d (maskLanes (elemWidth t) (cutMask t p &&& m)) m).getLsbD i =
      if m.getLsbD (i / laneWidth' t) then p.getLsbD (i / laneWidth' t) else (e.ctx.kept' d).getLsbD i := fun i hi => by
    rw [maskedResult, blend_getLsbD, activeBits_getLsbD t m hi, ← laneWidth'_eq, maskLanes_getLsbD t p m hi]
    cases m.getLsbD (i / laneWidth' t) <;> simp
  have cut : (if elemWidth t = 64 then zext (bits p 0 32) else p) = cutMask t p := rfl
  by_cases h56 : d = 56
  · subst h56
    refine ⟨e, ?_, maskWrote_delivers hd lanes (delivers_nowhere ..)⟩
    simp only [writeMask, bind_run, get_run, if_neg hd, if_true, pure_run]
  cases hm : isMb d with
  | true =>
    have notV : isV d = false := Bool.eq_false_iff.2 fun hv => by
      rw [isMb_iff] at hm
      rw [isV_iff] at hv
      omega
    have alone : ∀ i < 2048, (maskLanes (elemWidth t) (cutMask t p &&& m)).getLsbD i =
        if m.getLsbD (i / laneWidth' t) then p.getLsbD (i / laneWidth' t) else (e.ctx.kept' d).getLsbD i := fun i hi => by
      have kept : e.ctx.kept' d = 0 := by rw [Ctx.kept', notV]; rfl
      rw [maskLanes_getLsbD t p m hi, kept]
      cases m.getLsbD (i / laneWidth' t) <;> simp
    refine ⟨_, ?_, maskWrote_delivers hd alone (delivers_setCtx h h56 ..)⟩
    rw [delivered_steps]
    simp only [writeMask, cut, if_neg hd, if_neg h56, if_true, bind_run, get_run, modC_run, fillMailbox, upd_run, setCtx_ctx, setCtx_setCtx,
      setCtx_now, wake_setCtx, notV, hm, Bool.false_eq_true, if_false]
  | false =>
    have run := writeDest_run e t h56 lat (maskLanes (elemWidth t) (cutMask t p &&& m)) m
    refine ⟨_, Eq.trans ?_ run, maskWrote_delivers hd lanes (delivers_box hm (delivers_setCtx h h56 ..) _)⟩
    simp only [writeMask, cut, bind_run, get_run, if_neg hd, if_neg h56, hm, Bool.false_eq_true, if_false]

/-! ## Compares, and operations on masks -/

section
variable {s : State} {f : AW}

/-- An A-word that takes its operands and delivers a mask. -/
theorem mask_next {two : Bool} (h : s.canVector f two = true) {i : Instr} {m : M Unit} (hi : exec i s = finish m s) {lat : Nat} {p k : Word}
    (hm : m s = writeMask f.t f.d lat p k (s.taken f two)) : ∃ t, exec i s = .next t ∧ (s.taken f two).maskWrote t f.t f.d lat p k := by
  obtain ⟨u, hu, hw⟩ := writeMask_maskWrote (takes_taken h) f.t lat p k
  exact ⟨_, hi.trans (finish_ok (t := u) (by rw [hm, hu])), hw⟩

theorem compareLanes_next {row : (AW → Instr) × (Option Ordering → Prop)} (h : s.canVector f true = true) {rel : Option Ordering → Bool}
    (hi : exec (row.1 f) s = finish (compareLanes f rel) s) (hr : ∀ o, rel o = true ↔ row.2 o) :
    ∃ t p, exec (row.1 f) s = .next t ∧ (s.taken f true).maskWrote t f.t f.d 2 p (s.opK f) ∧
      ∀ i < 64, p.getLsbD i = true ↔ i < 2048 / max (elemWidth f.t) 32 ∧ ∀ j < perLane (elemWidth f.t),
        row.2 (orderOf f.t (el (elemWidth f.t) (s.opA f) (perLane (elemWidth f.t) * i + j)) (el (elemWidth f.t) (s.opB f) (perLane (elemWidth f.t) * i + j))) := by
  obtain ⟨t, ht, hw⟩ := mask_next h hi (lat := 2) (k := s.opK f) (p := laneMask (elemWidth f.t) ((List.range (2048 / elemWidth f.t)).map fun n =>
    rel (orderOf f.t (el (elemWidth f.t) (s.opA f) n) (el (elemWidth f.t) (s.opB f) n)))) (by
      simp only [compareLanes, bind_run, operands_run h no_acc, if_true, elems_eq, zipWith_map_range])
  refine ⟨t, _, ht, hw, fun i hi => ?_⟩
  rw [laneMask_bit f.t _ hi]
  simp only [hr]

theorem vmkmask_next (h : s.canVector f false = true) : ∃ t p, exec (.vmkmask f) s = .next t ∧ (s.taken f false).maskWrote t f.t f.d 2 p (s.opK f) ∧
    ∀ i < 64, p.getLsbD i = true ↔ i < 2048 / max (elemWidth f.t) 32 ∧ ∀ j < perLane (elemWidth f.t),
      el (elemWidth f.t) (s.opA f) (perLane (elemWidth f.t) * i + j) ≠ 0 := by
  obtain ⟨t, ht, hw⟩ := mask_next h (i := .vmkmask f) rfl (lat := 2) (k := s.opK f) (p := laneMask (elemWidth f.t)
    ((List.range (2048 / elemWidth f.t)).map fun n => decide (el (elemWidth f.t) (s.opA f) n ≠ 0))) (by
      simp only [bind_run, operands_run h no_acc, elems_eq, List.map_map]
      rfl)
  refine ⟨t, _, ht, hw, fun i hi => ?_⟩
  rw [laneMask_bit f.t _ hi]
  simp only [decide_eq_true_eq]

theorem maskOperand_run (field : Nat) {c : BitVec 6} (h : s.canMask (c.toNat - 56) = true) :
    maskOperand field c s = .ok (s.maskVal (c.toNat - 56), s) := by
  simp only [maskOperand, bind_run, checkMask_run field h, get_run, pure_run]

theorem maskOp_next {row : (AW → Instr) × Word} (ha : s.canMask (f.a.toNat - 56) = true) (hb : s.canMask (f.b.toNat - 56) = true)
    (hd : 57 ≤ f.d.toNat) {op : Word → Word → Word} (hi : exec (row.1 f) s = finish (maskOp f op) s)
    (hr : op (s.maskVal (f.a.toNat - 56)) (s.maskVal (f.b.toNat - 56)) = row.2) :
    ∃ t, exec (row.1 f) s = .next t ∧ s.maskWrote t 0 f.d 2 row.2 (BitVec.allOnes 64) := by
  obtain ⟨u, hu, hw⟩ := writeMask_register s 0 hd 2 row.2 (BitVec.allOnes 64)
  refine ⟨_, hi.trans (finish_ok (t := u) ?_), hw⟩
  simp only [maskOp, bind_run, maskOperand_run 0 ha, maskOperand_run 1 hb, hr, hu]

theorem knot_next (ha : s.canMask (f.a.toNat - 56) = true) (hd : 57 ≤ f.d.toNat) :
    ∃ t, exec (.knot f) s = .next t ∧ s.maskWrote t 0 f.d 2 (~~~ s.maskVal (f.a.toNat - 56)) (BitVec.allOnes 64) := by
  obtain ⟨u, hu, hw⟩ := writeMask_register s 0 hd 2 (~~~ s.maskVal (f.a.toNat - 56)) (BitVec.allOnes 64)
  refine ⟨_, finish_ok (t := u) ?_, hw⟩
  simp only [bind_run, maskOperand_run 0 ha, hu]

theorem kpopc_next (ha : s.canMask (f.a.toNat - 56) = true) (hr : s.ctx.rangeBad f.d = false) (hv : s.ctx.vregs.length = 8 * s.ctx.banks) :
    ∃ t r, exec (.kpopc f) s = .next t ∧ s.vwrote t 1 f.d 2 r (BitVec.allOnes 64) ∧
      ∀ i < 64, el 32 r i = (List.range 64).countP fun j => (s.maskVal (f.a.toNat - 56)).getLsbD j := by
  obtain ⟨u, hu, hw⟩ := writeDest_vwrote ⟨hr, hv⟩ 1 2 (pack 32 (List.replicate 64 (popCount (s.maskVal (f.a.toNat - 56))))) (BitVec.allOnes 64)
  have range : inRange [f.d] s = .ok ((), s) := inRange_run (by simpa using hr)
  have small : popCount (s.maskVal (f.a.toNat - 56)) < 2 ^ 32 := by
    rw [popCount_eq]
    exact Nat.lt_of_le_of_lt List.countP_le_length (by simp)
  refine ⟨_, _, finish_ok (t := u) ?_, hw, fun i hi => ?_⟩
  · simp only [bind_run, range, maskOperand_run 0 ha, hu]
  · rw [el_pack (w := 32) hi, List.getD_eq_getElem?_getD, List.getElem?_replicate, if_pos hi, Option.getD_some, Nat.mod_eq_of_lt small, popCount_eq]

end

/-- Settles O31: compares by the bits of their masks, the operations on masks by what the mask registers take. -/
theorem vectorMasks : Obligations.VectorMasks := by
  unfold Obligations.VectorMasks
  refine ⟨fun f s => ⟨fun h => ?compares, vmkmask_next⟩, fun f s _ _ ha => ⟨fun hd _ => ⟨fun _ _ hb => ?ops, knot_next ha hd⟩, kpopc_next ha⟩⟩
  case compares =>
    refine List.forall_mem_cons.2 ⟨?eq, List.forall_mem_cons.2 ⟨?ne, List.forall_mem_cons.2 ⟨?lt, List.forall_mem_singleton.2 ?le⟩⟩⟩
    case eq => exact compareLanes_next h rfl fun o => by simp
    case ne => exact compareLanes_next h rfl fun o => by simp
    case lt => exact compareLanes_next h rfl fun o => by simp
    case le => exact compareLanes_next h rfl fun o => by simp
  case ops =>
    exact List.forall_mem_cons.2 ⟨maskOp_next ha hb hd rfl rfl, List.forall_mem_cons.2 ⟨maskOp_next ha hb hd rfl rfl,
      List.forall_mem_cons.2 ⟨maskOp_next ha hb hd rfl rfl, List.forall_mem_singleton.2 (maskOp_next ha hb hd rfl rfl)⟩⟩⟩

end Sys2Proof.Machine
end

section
set_option Elab.async false
/-! Starting a collective and waiting for it (R308, R309). -/
namespace Sys2Proof.Machine

/-! ## Contexts written back -/

theorem wrote_touched {s t : State} {n lat : Nat} {d : BitVec 5} {v : Word} (h : s.touchCtx.wrote t n lat d v) : s.wrote t n lat d v := by
  simpa only [State.wrote, State.elseAs, touchCtx_ctx, State.touchCtx, setCtx_setCtx, setCtx_compute, setCtx_ctx] using h
theorem used_touched (s : State) (l : Line) : s.touchCtx.used l = (s.used l).touchCtx := by
  have own : (s.used l).ctx = s.ctx := (used_samePart s l).ctx
  rw [State.touchCtx, State.touchCtx, own]
  exact modTile_setCtx s.ctx fun _ _ _ => rfl
theorem touchCtx_answered (s : State) : s.touchCtx.answered = s.answered := by
  have tile : s.touchCtx.tile s.cur = (s.tile s.cur).setCtx s.cid s.ctx := setCtx_tile_cur ..
  simp only [State.answered, State.asks, touchCtx_ctx, touchCtx_cur, touchCtx_cid, tile]
  rfl
theorem cached_touched {s : State} {p : Word} {n : Nat} {l : Line} (h : s.cached p n l) : s.touchCtx.cached p n l := by
  obtain ⟨space, within, answered, effects, line, valid, readable⟩ := h
  have own : s.touchCtx.tile s.cur = (s.tile s.cur).setCtx s.cid s.ctx := setCtx_tile_cur ..
  refine ⟨space, within, (touchCtx_answered s).trans answered, ?_, ?_, valid, readable⟩
  · rw [touchCtx_ctx]; exact effects
  · rw [touchCtx_cur, own, touchCtx_ctx]; exact line

/-- A load of bytes that are in the array. -/
theorem loadNow_cached {s : State} {p : Word} {n : Nat} {l : Line} (hn : 0 < n) (h : s.cached p n l) :
    loadNow p (addrOf p) n s = .ok (l.data.toNat / 2 ^ (8 * (addrOf p % 128)) % 2 ^ (8 * n), s.used l) := by
  obtain ⟨-, within, answered, effects, line, valid, readable⟩ := h
  exact loadNow_of_loadGlobal (loadGlobal_line p hn within ((answered_iff s).1 answered).2 (loadLine_hit p answered effects line valid readable))

/-- Doubleword i of bytes read from a line. -/
theorem word_eq (l : Line) (p : Word) {n i : Nat} (h : 64 * i + 64 ≤ 8 * n) :
    BitVec.ofNat 64 (l.data.toNat / 2 ^ (8 * (addrOf p % 128)) % 2 ^ (8 * n) / 2 ^ (64 * i)) = l.word p i := by
  refine BitVec.eq_of_toNat_eq ?_
  rw [BitVec.toNat_ofNat, digit_mod h, Line.word, BitVec.toNat_ofNat, Nat.pow_add, Nat.div_div_eq_div_mul]

/-- The top bits of a word are 0. -/
theorem bits_top_zero {n lo w : Nat} (x : BitVec n) (h : n = lo + w) : bits x lo w = 0 ↔ x.toNat / 2 ^ lo = 0 := by
  have lt : x.toNat / 2 ^ lo < 2 ^ w := Nat.div_lt_of_lt_mul (by rw [← Nat.pow_add, ← h]; exact x.isLt)
  rw [← BitVec.toNat_inj, bits_toNat, Nat.mod_eq_of_lt lt]
  rfl

/-! ## What Vetch answers -/

/-- The arguments that Vetch starts (R308). -/
def collOk (prog table : Word) (rr : Nat) : Prop :=
  rr % 2 ^ 16 < rr / 2 ^ 16 % 2 ^ 16 + 1 ∧ rr / 2 ^ 16 % 2 ^ 16 < 32768 ∧ spaceOf prog = 0 ∧ addrOf prog % 8 = 0 ∧ spaceOf table = 0 ∧ addrOf table % 16 = 0

theorem collArgs_eq (prog table rr : Word) (id : Nat) :
    collArgs prog table rr id = ⟨prog, table, rr.toNat / 2 ^ 16 % 2 ^ 16 + 1, rr.toNat % 2 ^ 16, id⟩ := by
  simp only [collArgs, bits_toNat, Nat.pow_zero, Nat.div_one]

theorem collArgs_ok (prog table rr : Word) (id : Nat) : (collArgs prog table rr id).ok = true ↔ collOk prog table rr.toNat := by
  simp only [CollArgs.ok, collArgs, collOk, bits_toNat, Nat.pow_zero, Nat.div_one, Bool.and_eq_true, decide_eq_true_eq, and_assoc, Nat.succ_le_iff]

section
variable {s : State} {t : Nat} {a : CollArgs} {reserved : Bool}

theorem collAsk_busy (h : 16 ≤ ((s.dev (pkgOf t)).region (regionOf t)).progs.length) : s.collAsk t a reserved = .busy := if_pos h
theorem collAsk_dup (h : ((s.dev (pkgOf t)).region (regionOf t)).progs.length < 16) (hd : ∃ q ∈ ((s.dev (pkgOf t)).region (regionOf t)).progs, q.id = a.id) :
    s.collAsk t a reserved = .dup := by
  have dup : (((s.dev (pkgOf t)).region (regionOf t)).progs.any fun p => p.id = a.id) = true := by simpa using hd
  simp only [State.collAsk, Nat.not_le.2 h, if_false, dup, if_true]
theorem collAsk_free (h : ((s.dev (pkgOf t)).region (regionOf t)).progs.length < 16) (hd : ∀ q ∈ ((s.dev (pkgOf t)).region (regionOf t)).progs, q.id ≠ a.id) :
    s.collAsk t a reserved = if reserved || !a.ok then .bad else .started := by
  have none : (((s.dev (pkgOf t)).region (regionOf t)).progs.any fun p => p.id = a.id) = false := by simpa using hd
  simp only [State.collAsk, Nat.not_le.2 h, if_false, none, Bool.false_eq_true]

end

/-! ## COLL -/

/-- The program of a context of tile t, as it starts. -/
def State.newProg (s : State) (a : CollArgs) : Prog := {
  id := a.id, inst := ((s.dev (pkgOf s.cur)).region (regionOf s.cur)).insts + 1, tile := s.cur, cid := 0, pid := (s.tile s.cur).pid, asid := s.ctx.asid
  priv := s.ctx.priv, prog := a.prog, table := a.table, rank := a.rank, nranks := a.nranks, pc := a.prog, steps := 0, ctrs := [0, 0, 0, 0], flags := 0
  checked := false, halfway := false, out := none, applied := [], forwards := [], signals := 0, aperBytes := [], stopped := false }

/-- The region's Vetch with one more program. -/
def State.withProg (e : State) (g : Prog) : State :=
  e.modRegion (pkgOf e.cur) (regionOf e.cur) fun r => { r with insts := r.insts + 1, done := mdel r.done g.id, progs := r.progs ++ [g] }

theorem startProg_eq {s : State} (hc : s.cid = 0) (a : CollArgs) : s.startProg s.cur s.cid s.ctx a = s.withProg (s.newProg a) := by
  rw [hc]
  rfl

theorem startProg_touched {s : State} (hc : s.cid = 0) (a : CollArgs) :
    s.touchCtx.startProg s.cur s.cid s.touchCtx.ctx a = (s.withProg (s.newProg a)).touchCtx := by
  have pid : (s.touchCtx.tile s.cur).pid = (s.tile s.cur).pid := by
    rw [State.touchCtx, setCtx_tile_cur]
    rfl
  rw [State.startProg, pid, touchCtx_ctx, hc]
  rfl

/-- What COLL does with Vetch's answer. -/
def collThen (f : CF) (a : CollArgs) : CollRes → M Unit
  | .started => do
    upd fun s => s.startProg s.cur s.cid s.ctx a
    ws f.d 0
  | .busy => ws f.d 1
  | .dup => ws f.d 2
  | .bad => ws f.d 3

section
variable {f : CF} {s : State} {l : Line} (hc : s.cid = 0) (hr : s.releasable = true) (can : s.canRun [f.a] f.d = true)
  (h : s.cached (s.ctx.sreg f.a) 32 l)
include hc hr can h

/-- The arguments at the pointer. -/
def lineArgs (l : Line) (p : Word) : CollArgs := collArgs (l.word p 0) (l.word p 1) (l.word p 2) ((l.word p 3).toNat % 2 ^ 12)

/-- The reserved bits of the arguments are not 0. -/
def lineReserved (l : Line) (p : Word) : Bool := decide ((l.word p 2).toNat / 2 ^ 32 ≠ 0) || decide ((l.word p 3).toNat / 2 ^ 12 ≠ 0)

theorem coll_run : ∃ m, exec (.coll f) s = finish m s ∧
    m s = collThen f (lineArgs l (s.ctx.sreg f.a)) (s.collAsk s.cur (lineArgs l (s.ctx.sreg f.a)) (lineReserved l (s.ctx.sreg f.a)))
      { (s.used l).touchCtx with now := s.issueCycle [f.a] } := by
  refine ⟨_, rfl, ?_⟩
  obtain ⟨ha, -⟩ := canRun_cons can
  obtain ⟨space, within, -⟩ := id h
  have fits : decide (addrOf (s.ctx.sreg f.a) + 32 ≤ 2 ^ 52) = true := decide_eq_true (by
    have : addrOf (s.ctx.sreg f.a) < 2 ^ 52 := BitVec.isLt _
    omega)
  have release : release { s with now := s.issueCycle [f.a] } = .ok ((), ({ s with now := s.issueCycle [f.a] } : State).touchCtx) := release_run hr
  have load := loadNow_cached (s := ({ s with now := s.issueCycle [f.a] } : State).touchCtx) (by decide) (cached_touched h)
  have w2 := (bits_top_zero (lo := 32) (w := 32) (l.word (s.ctx.sreg f.a) 2) rfl).not
  have w3 := (bits_top_zero (lo := 12) (w := 52) (l.word (s.ctx.sreg f.a) 3) rfl).not
  simp only [lineArgs, lineReserved, bind_run, notHelper_control _ hc, rs_cycle ha, space, fits, decide_true, need_true, release, load, get_run,
    word_eq l (s.ctx.sreg f.a) (show 64 * 0 + 64 ≤ 8 * 32 by decide), word_eq l (s.ctx.sreg f.a) (show 64 * 1 + 64 ≤ 8 * 32 by decide),
    word_eq l (s.ctx.sreg f.a) (show 64 * 2 + 64 ≤ 8 * 32 by decide), word_eq l (s.ctx.sreg f.a) (show 64 * 3 + 64 ≤ 8 * 32 by decide), w2, w3,
    bits_zero_toNat]
  have touched : ({ s with now := s.issueCycle [f.a] } : State).touchCtx.used l = { (s.used l).touchCtx with now := s.issueCycle [f.a] } :=
    used_touched { s with now := s.issueCycle [f.a] } l
  have ask (u : State) (hu : u = { (s.used l).touchCtx with now := s.issueCycle [f.a] }) (a : CollArgs) (r : Bool) :
      u.collAsk u.cur a r = s.collAsk s.cur a r := by rw [hu]; rfl
  rw [touched, ask _ rfl]
  generalize s.collAsk s.cur _ _ = r
  cases r <;> dsimp only <;> rfl

end

/-- The number that an answer of Vetch's gives the program. -/
def CollRes.code : CollRes → Word
  | .started => 0
  | .busy => 1
  | .dup => 2
  | .bad => 3

/-- What an answer of Vetch's makes of a state. -/
def CollRes.after (e : State) (g : Prog) : CollRes → State
  | .started => e.withProg g
  | _ => e

/-- The pair form refuses its arguments. -/
theorem collPair_bad (l : Line) (p : Word) : (lineReserved l p || !(lineArgs l p).ok) = true ↔
    ¬ (collOk (l.word p 0) (l.word p 1) (l.word p 2).toNat ∧ (l.word p 2).toNat / 2 ^ 32 = 0 ∧ (l.word p 3).toNat / 2 ^ 12 = 0) := by
  rw [Bool.or_eq_true, lineReserved, Bool.not_eq_true', ← Bool.not_eq_true, lineArgs, collArgs_ok, Bool.or_eq_true, decide_eq_true_eq, decide_eq_true_eq]
  rw [or_comm, not_and_or, not_and_or]

/-- COLL's four answers. -/
theorem coll_answers {f : CF} {s : State} {l : Line} (hc : s.cid = 0) (hr : s.releasable = true) (can : s.canRun [f.a] f.d = true)
    (h : s.cached (s.ctx.sreg f.a) 32 l) {r : CollRes} (ask : s.collAsk s.cur (lineArgs l (s.ctx.sreg f.a)) (lineReserved l (s.ctx.sreg f.a)) = r) :
    ∃ t, exec (.coll f) s = .next t ∧
      (r.after (s.used l) (s.newProg (lineArgs l (s.ctx.sreg f.a)))).wrote t (s.issueCycle [f.a]) 1 f.d r.code := by
  obtain ⟨m, e, run⟩ := coll_run hc hr can h
  obtain ⟨-, can⟩ := canRun_cons can
  have free : (s.used l).touchCtx.ctx.pendingReg f.d = false := by
    rw [touchCtx_ctx, (used_samePart s l).ctx]
    exact canRun_nil can
  rw [ask] at run
  rw [e]
  cases r with
  | started =>
    have started := startProg_touched (s := s.used l) hc (lineArgs l (s.ctx.sreg f.a))
    have own : (s.used l).newProg (lineArgs l (s.ctx.sreg f.a)) = s.newProg (lineArgs l (s.ctx.sreg f.a)) := by
      have pid : ((s.used l).tile s.cur).pid = (s.tile s.cur).pid := by simp only [State.used, modTile_tile, if_true]
      rw [State.newProg, State.newProg, (used_samePart s l).ctx, ← pid]
      rfl
    rw [own] at started
    obtain ⟨t, next, wrote⟩ := finish_wsLat (e := ((s.used l).withProg (s.newProg (lineArgs l (s.ctx.sreg f.a)))).touchCtx)
      (run.trans (by rw [← started]; rfl))
      (by rw [touchCtx_ctx]; exact (congrArg (fun k : Ctx => k.pendingReg f.d) (used_samePart s l).ctx).trans (canRun_nil can))
    exact ⟨t, next, wrote_touched wrote⟩
  | busy =>
    obtain ⟨t, next, wrote⟩ := finish_wsLat run free
    exact ⟨t, next, wrote_touched wrote⟩
  | dup =>
    obtain ⟨t, next, wrote⟩ := finish_wsLat run free
    exact ⟨t, next, wrote_touched wrote⟩
  | bad =>
    obtain ⟨t, next, wrote⟩ := finish_wsLat run free
    exact ⟨t, next, wrote_touched wrote⟩

/-! ## The lone form -/

/-- What the lone form does with Vetch's answer. -/
def loneThen (a : CollArgs) : CollRes → M Unit
  | .started => upd fun s => s.startProg s.cur s.cid s.ctx a
  | .bad => upd fun s => s.refuseProg s.cur a.id
  | _ => wait

/-- The arguments in the registers of the lone form. -/
def loneArgs (g : LF) (k : Ctx) : CollArgs := collArgs (k.sreg g.ra) (k.sreg g.rb) (k.sreg g.rc) g.f0.toNat

/-- The lone form refuses its arguments. -/
theorem collLone_bad (g : LF) (s : State) : (decide ((s.ctx.sreg g.rc).toNat / 2 ^ 32 ≠ 0) || !(loneArgs g s.ctx).ok) = true ↔
    ¬ (collOk (s.ctx.sreg g.ra) (s.ctx.sreg g.rb) (s.ctx.sreg g.rc).toNat ∧ (s.ctx.sreg g.rc).toNat / 2 ^ 32 = 0) := by
  rw [Bool.or_eq_true, Bool.not_eq_true', ← Bool.not_eq_true, loneArgs, collArgs_ok, decide_eq_true_eq]
  rw [or_comm, not_and_or]

section
variable {g : LF} {s : State} (hc : s.cid = 0) (hr : s.releasable = true) (ra : s.ctx.readable g.ra = true) (rb : s.ctx.readable g.rb = true)
  (rc : s.ctx.readable g.rc = true)
include hc hr ra rb rc

theorem collLone_run : ∃ m, exec (.collLone g) s = finish m s ∧
    m s = loneThen (loneArgs g s.ctx) (s.collAsk s.cur (loneArgs g s.ctx) (decide ((s.ctx.sreg g.rc).toNat / 2 ^ 32 ≠ 0)))
      { s.touchCtx with now := s.issueCycle [g.ra, g.rb, g.rc] } := by
  refine ⟨_, rfl, ?_⟩
  have release : release { s with now := s.issueCycle [g.ra, g.rb, g.rc] } =
      .ok ((), ({ s with now := s.issueCycle [g.ra, g.rb, g.rc] } : State).touchCtx) := release_run hr
  have top := (bits_top_zero (lo := 32) (w := 32) (s.ctx.sreg g.rc) rfl).not
  have ask (u : State) (hu : u = ({ s with now := s.issueCycle [g.ra, g.rb, g.rc] } : State).touchCtx) (a : CollArgs) (r : Bool) :
      u.collAsk u.cur a r = s.collAsk s.cur a r := by rw [hu]; rfl
  have second : rs g.rb { s with now := s.issueCycle [g.ra] } = .ok (s.ctx.sreg g.rb, { s with now := s.issueCycle [g.ra, g.rb] }) := rs_now rb
  have third : rs g.rc { s with now := s.issueCycle [g.ra, g.rb] } = .ok (s.ctx.sreg g.rc, { s with now := s.issueCycle [g.ra, g.rb, g.rc] }) :=
    rs_now rc
  simp only [loneArgs, bind_run, notHelper_control _ hc, rs_cycle ra, second, third, release, get_run, top]
  rw [ask _ rfl]
  generalize s.collAsk s.cur _ _ = r
  cases r <;> dsimp only <;> rfl

/-- The lone form waits while Vetch is busy or the id is live. -/
theorem collLone_waits (ask : s.collAsk s.cur (loneArgs g s.ctx) (decide ((s.ctx.sreg g.rc).toNat / 2 ^ 32 ≠ 0)) = .busy ∨
    s.collAsk s.cur (loneArgs g s.ctx) (decide ((s.ctx.sreg g.rc).toNat / 2 ^ 32 ≠ 0)) = .dup) : s.waits (.collLone g) := by
  obtain ⟨m, e, run⟩ := collLone_run hc hr ra rb rc
  rw [State.waits, e]
  rcases ask with ask | ask <;> rw [ask] at run <;> exact finish_wait run

theorem collLone_starts (ask : s.collAsk s.cur (loneArgs g s.ctx) (decide ((s.ctx.sreg g.rc).toNat / 2 ^ 32 ≠ 0)) = .started) :
    ∃ t, exec (.collLone g) s = .next t ∧ (s.withProg (s.newProg (loneArgs g s.ctx))).issued t (s.issueCycle [g.ra, g.rb, g.rc]) := by
  obtain ⟨m, e, run⟩ := collLone_run hc hr ra rb rc
  rw [ask] at run
  have ran : m s = .ok ((), { (s.withProg (s.newProg (loneArgs g s.ctx))).touchCtx with now := s.issueCycle [g.ra, g.rb, g.rc] }) := by
    rw [run, ← startProg_touched hc (loneArgs g s.ctx)]
    rfl
  rw [e]
  exact ⟨_, finish_ok ran, issued_touched ..⟩

theorem collLone_refused (ask : s.collAsk s.cur (loneArgs g s.ctx) (decide ((s.ctx.sreg g.rc).toNat / 2 ^ 32 ≠ 0)) = .bad) :
    ∃ t, exec (.collLone g) s = .next t ∧ (s.modRegion (pkgOf s.cur) (regionOf s.cur) fun r => { r with done := mset r.done g.f0.toNat 4 }).issued t
      (s.issueCycle [g.ra, g.rb, g.rc]) := by
  obtain ⟨m, e, run⟩ := collLone_run hc hr ra rb rc
  rw [ask] at run
  rw [e]
  exact ⟨_, finish_ok run, issued_touched (s.refuseProg s.cur g.f0.toNat) _⟩

end

/-! ## CWAIT -/

theorem mget_absent {α : Type} {d : α} {m : Map α} {k : Nat} (h : mhas m k = false) : mget d m k = d :=
  mget_missing d k m fun e he same => by
    have : m.any (fun e => e.1 = k) = true := List.any_eq_true.2 ⟨e, he, decide_eq_true same⟩
    exact Bool.noConfusion (h.symm.trans this)


/-- The id that CWAIT names. -/
def waitId (f : CF) (s : State) : Nat := (s.ctx.sreg f.a).toNat % 4096

section
variable {f : CF} {s : State} (can : s.canRun [f.a] f.d = true)
include can

/-- CWAIT blocks while the program lives. -/
theorem cwait_live (h : ∃ q ∈ ((s.dev (pkgOf s.cur)).region (regionOf s.cur)).progs, q.id = waitId f s) :
    (s.cid = 0 → s.waits (.cwait f)) ∧ (s.cid ≠ 0 → s.traps (.cwait f) cHELPERWAIT (BitVec.ofNat 64 (waitId f s))) := by
  obtain ⟨ha, -⟩ := canRun_cons can
  have live : (((s.dev (pkgOf s.cur)).region (regionOf s.cur)).progs.any fun p => p.id = waitId f s) = true := by simpa using h
  have id : (bits (s.ctx.sreg f.a) 0 12).toNat = waitId f s := by rw [bits_low]; rfl
  obtain ⟨m, e, run⟩ : ∃ m, exec (.cwait f) s = finish m s ∧ ∀ x, (block (BitVec.ofNat 64 (waitId f s)) : M Unit) { s with now := s.issueCycle [f.a] } = .error x → m s = .error x := by
    refine ⟨_, rfl, fun x hx => ?_⟩
    simp only [bind_run, rs_cycle ha, id, get_run]
    refine (congrFun (if_pos live) _).trans ?_
    rw [bind_run, hx]
  constructor
  · intro hc
    rw [State.waits, e]
    exact finish_wait (run _ (block_control _ hc))
  · intro hc
    rw [State.traps, e]
    exact finish_trap (run _ (block_helper _ hc))

/-- The status that CWAIT gives. -/
def waitStatus (f : CF) (s : State) : Word := mget 8 ((s.dev (pkgOf s.cur)).region (regionOf s.cur)).done (waitId f s)

theorem cwait_run (h : ∀ q ∈ ((s.dev (pkgOf s.cur)).region (regionOf s.cur)).progs, q.id ≠ waitId f s) :
    ∃ m, exec (.cwait f) s = finish m s ∧
      m s = (do
        if mhas ((s.dev (pkgOf s.cur)).region (regionOf s.cur)).done (waitId f s) then flash
        raise (bits (waitStatus f s) 8 11)
        ws f.d (waitStatus f s) : M Unit) { s with now := s.issueCycle [f.a] } := by
  obtain ⟨ha, -⟩ := canRun_cons can
  have gone : ¬ (((s.dev (pkgOf s.cur)).region (regionOf s.cur)).progs.any fun p => p.id = waitId f s) = true := by simpa using h
  have id : (bits (s.ctx.sreg f.a) 0 12).toNat = waitId f s := by rw [bits_low]; rfl
  refine ⟨_, rfl, ?_⟩
  simp only [bind_run, rs_cycle ha, id, get_run]
  exact congrFun (if_neg gone) _

/-- CWAIT of an id that never was gives EMPTY's status and raises nothing. -/
theorem cwait_never (h : ∀ q ∈ ((s.dev (pkgOf s.cur)).region (regionOf s.cur)).progs, q.id ≠ waitId f s)
    (none : mhas ((s.dev (pkgOf s.cur)).region (regionOf s.cur)).done (waitId f s) = false) :
    ∃ t, exec (.cwait f) s = .next t ∧ (s.flagged 0).wrote t (s.issueCycle [f.a]) 1 f.d (waitStatus f s) := by
  obtain ⟨m, e, run⟩ := cwait_run can h
  obtain ⟨-, can⟩ := canRun_cons can
  have status : bits (waitStatus f s) 8 11 = 0 := by
    have absent : waitStatus f s = 8 := mget_absent none
    rw [absent]
    rfl
  rw [none, if_neg Bool.false_ne_true, status] at run
  rw [e]
  refine finish_wsLat (run.trans ?_) ?_
  · rw [← flagged_now]
    rfl
  · obtain ⟨-, pend, -⟩ := flagged_fields s 0
    rw [Ctx.pendingReg, pend]
    exact canRun_nil can

theorem cwait_ended (h : ∀ q ∈ ((s.dev (pkgOf s.cur)).region (regionOf s.cur)).progs, q.id ≠ waitId f s)
    (has : mhas ((s.dev (pkgOf s.cur)).region (regionOf s.cur)).done (waitId f s) = true) :
    ∃ t, exec (.cwait f) s = .next t ∧
      ((s.flashed (s.issueCycle [f.a])).flagged (bits (waitStatus f s) 8 11)).wrote t (s.issueCycle [f.a]) 1 f.d (waitStatus f s) := by
  obtain ⟨m, e, run⟩ := cwait_run can h
  obtain ⟨-, can⟩ := canRun_cons can
  rw [has, if_pos rfl] at run
  rw [e]
  refine finish_wsLat (run.trans ?_) ?_
  · rw [← flagged_now]
    rfl
  · obtain ⟨-, pend, -⟩ := flagged_fields (s.flashed (s.issueCycle [f.a])) (bits (waitStatus f s) 8 11)
    rw [Ctx.pendingReg, pend, flashed_ctx]
    exact canRun_nil can

end

/-- Settles O41: COLL does what Vetch's answer says, and CWAIT splits on the life of the program. -/
theorem collectives : Obligations.Collectives := by
  unfold Obligations.Collectives
  refine ⟨?_, ?_⟩
  · intro f g s l hc hr can ra rb rc p n e r ok prog started
    refine ⟨?_, ?_⟩
    · intro h w2 w3 good
      have bad : (lineReserved l p || !(lineArgs l p).ok) = true ↔ ¬ good := collPair_bad l p
      have same : s.newProg (lineArgs l p) = prog (l.word p 0) (l.word p 1) w2 (w3 % 2 ^ 12) := by
        rw [lineArgs, collArgs_eq]
        rfl
      refine ⟨fun busy => ?_, fun room dup => ?_, fun room fresh => ⟨fun bad' => ?_, fun ok' => ?_⟩⟩
      · exact coll_answers hc hr can h (collAsk_busy busy)
      · exact coll_answers hc hr can h (collAsk_dup room dup)
      · exact coll_answers hc hr can h ((collAsk_free room fresh).trans (if_pos (bad.2 bad')))
      · rw [← same]
        exact coll_answers hc hr can h ((collAsk_free room fresh).trans (if_neg fun b => bad.1 b ok'))
    · intro a b c m live
      have bad : (decide (c / 2 ^ 32 ≠ 0) || !(loneArgs g s.ctx).ok) = true ↔ ¬ (ok a b c ∧ c / 2 ^ 32 = 0) := collLone_bad g s
      have same : s.newProg (loneArgs g s.ctx) = prog a b c g.f0.toNat := by
        rw [loneArgs, collArgs_eq]
        rfl
      have free (h : ¬ live) : r.progs.length < 16 ∧ ∀ q ∈ r.progs, q.id ≠ g.f0.toNat :=
        ⟨Nat.not_le.1 fun busy => h (.inl busy), fun q hq e => h (.inr ⟨q, hq, e⟩)⟩
      refine ⟨?_, fun h good top => ?_, fun h refused => ?_⟩
      · rintro (busy | dup)
        · exact collLone_waits hc hr ra rb rc (.inl (collAsk_busy busy))
        · rcases Nat.lt_or_ge r.progs.length 16 with room | busy
          · exact collLone_waits hc hr ra rb rc (.inr (collAsk_dup room dup))
          · exact collLone_waits hc hr ra rb rc (.inl (collAsk_busy busy))
      · obtain ⟨room, fresh⟩ := free h
        rw [← same]
        exact collLone_starts hc hr ra rb rc ((collAsk_free room fresh).trans (if_neg fun b => bad.1 b ⟨good, top⟩))
      · obtain ⟨room, fresh⟩ := free h
        exact collLone_refused hc hr ra rb rc ((collAsk_free room fresh).trans (if_pos (bad.2 refused)))
  · intro f s can
    exact ⟨cwait_live can, fun h => ⟨cwait_never can h, cwait_ended can h⟩⟩

end Sys2Proof.Machine
end

section
set_option Elab.async false
/-! Messages between tiles: SEND, RECV and RECVT (R305 to R307). -/
namespace Sys2Proof.Machine

/-! ## Entries of 64 bytes -/

theorem entry_span (x : Tile) {o : Nat} (h : o % 64 = 0) : x.pinnedSpan o 64 = x.pinnedAt o := by
  rw [Tile.pinnedSpan, pieces_within (by decide) (by omega), List.all_cons, List.all_nil, Bool.and_true]
theorem entry_pinned {x : Tile} {o : Nat} (al : o % 64 = 0) (h : x.holds o 64) : x.pinnedSpan o 64 = true := by
  obtain ⟨low, pin⟩ := h 0 (by decide)
  rw [entry_span x al, Tile.pinnedAt, decide_eq_true (p := o < 0xA0000) low, Bool.true_and]
  exact pin
theorem entry_unpinned (x : Tile) {o : Nat} (al : o % 64 = 0) :
    (!x.pinnedSpan o 64) = true ↔ ∃ i < 64, 0xA0000 ≤ o + i ∨ mhas x.pins ((o + i) / 128) = false := by
  rw [entry_span x al, Tile.pinnedAt, Bool.not_and, Bool.or_eq_true, Bool.not_eq_true', Bool.not_eq_true', decide_eq_false_iff_not, Nat.not_lt]
  constructor
  · intro h
    exact ⟨0, by decide, h⟩
  · rintro ⟨i, hi, high | out⟩
    · left; omega
    · right
      rwa [show (o + i) / 128 = o / 128 by omega] at out

section
variable {p : Word} {s : State}

theorem entryBuffer_space (h : spaceOf p ≠ 1) : entryBuffer p s = .error (.trap cSPACE p) := by
  simp only [entryBuffer, bind_run, h, decide_false, need_false]
theorem entryBuffer_align (h : spaceOf p = 1) (al : addrOf p % 64 ≠ 0) : entryBuffer p s = .error (.trap cALIGN p) := by
  simp only [entryBuffer, bind_run, h, al, decide_true, decide_false, need_true, need_false]
theorem entryBuffer_run (h : spaceOf p = 1) (al : addrOf p % 64 = 0) (pin : (s.tile s.cur).holds (addrOf p) 64) : entryBuffer p s = .ok ((), s) := by
  simp only [entryBuffer, bind_run, h, al, decide_true, need_true, getT_run, entry_pinned al pin]

end

theorem devNum_lt (s : State) (p : Nat) : s.devNum p < 4096 := by
  have := (s.dev p).domain.isLt
  have := (s.dev p).pos.isLt
  rw [State.devNum, Device.number]
  omega

/-! ## What a tile's ring answers -/

section
variable {s : State} {t : Nat} {sender : Word} {body : BitVec 448}

/-- The offset of the entry that the ring of a tile's control context takes next. -/
def State.nextEntry (s : State) (t : Nat) : Nat := (s.ctxAt t 0).ringEntry (s.ctxAt t 0).recvTail.toNat

/-- The tile has no ring that could take a message. -/
def State.noRing (s : State) (t : Nat) : Prop :=
  mhas (s.tile t).ctxs 0 = false ∨ (s.ctxAt t 0).recvSize = 0 ∨
    ∃ i < 64, 0xA0000 ≤ s.nextEntry t + i ∨ mhas (s.tile t).pins ((s.nextEntry t + i) / 128) = false

/-- A control context whose ring has one more message. -/
def Ctx.oneMore (k : Ctx) : Ctx := { k with
  recvTail := BitVec.ofNat 11 ((k.recvTail.toNat + 1) % k.recvSize.toNat), recvCount := k.recvCount + 1, wakes := k.wakes + 1 }

/-- The tile with one more message in its ring. -/
def State.received (s : State) (t : Nat) (sender : Word) (body : BitVec 448) : State := s.modTile t fun x =>
  (x.localWrite (s.nextEntry t) 64 (body.toNat + sender.toNat * 2 ^ 448)).setCtx 0 (x.ctx 0).oneMore

theorem nextEntry_aligned (s : State) (t : Nat) : s.nextEntry t % 64 = 0 := by
  rw [State.nextEntry, Ctx.ringEntry]
  omega

theorem noRing_iff : (!mhas (s.tile t).ctxs 0 || decide ((s.ctxAt t 0).recvSize = 0) || !(s.tile t).pinnedSpan (s.nextEntry t) 64) = true ↔ s.noRing t := by
  rw [Bool.or_eq_true, Bool.or_eq_true, entry_unpinned _ (nextEntry_aligned s t), Bool.not_eq_true', decide_eq_true_eq, or_assoc, State.noRing]

theorem receive_gone (h : s.noRing t) : s.receive t sender body = (s, 2) := if_pos (noRing_iff.2 h)
theorem receive_full (h : ¬ s.noRing t) (full : (s.ctxAt t 0).recvCount = (s.ctxAt t 0).recvSize) : s.receive t sender body = (s, 1) :=
  (if_neg fun g => h (noRing_iff.1 g)).trans (if_pos full)
theorem receive_room (h : ¬ s.noRing t) (room : (s.ctxAt t 0).recvCount ≠ (s.ctxAt t 0).recvSize) :
    s.receive t sender body = (s.received t sender body, 0) := by
  have written (x : Tile) : (x.localWrite (s.nextEntry t) 64 (body.toNat + sender.toNat * 2 ^ 448)).ctx 0 = x.ctx 0 := by
    rw [Tile.ctx, localWrite_ctxs, Tile.ctx]
  refine (if_neg fun g => h (noRing_iff.1 g)).trans ((if_neg room).trans (congrArg (·, (0 : Word)) ?_))
  rw [State.wake, if_pos (by
    simp only [State.modCtxAt, State.setCtxAt, modTile_tile_same, Tile.setCtx, mhas_mset, decide_true, Bool.or_true])]
  simp only [State.modCtxAt, State.setCtxAt, State.ctxAt, modTile_tile_same, setCtx_tile_ctx, if_true, modTile_modTile, setCtx_setCtx_tile]
  exact congrArg (fun k : Ctx => s.setTile t (((s.tile t).localWrite (s.nextEntry t) 64 _).setCtx 0 k.oneMore)) (written _)

end

/-- A message within a package needs nothing of the fabric. -/
theorem sendNow_here (s : State) (p : Nat) (via : Option Nat) (n v : Nat) : s.sendNow p p via n v = (.ok (), s) := by
  have : s.crosses p p = false := by simp only [State.crosses, ne_eq, not_true_eq_false, decide_false, Bool.false_and]
  rw [State.sendNow, this]
  rfl
theorem touchCtx_tile (s : State) (t : Nat) : s.touchCtx.tile t = if t = s.cur then (s.tile t).setCtx s.cid s.ctx else s.tile t := by
  rw [State.touchCtx, State.setCtx, State.setCtxAt, modTile_tile]
  split
  case isTrue h => rw [h]
  case isFalse => rfl

/-! ## SEND -/

/-- The state in which the receiver is asked. -/
def State.asking (s : State) (n : Nat) : State := ({ s with now := n } : State).touchCtx

/-- The text of the message. -/
def sentText (f : CF) (s : State) : BitVec 448 := BitVec.ofNat 448 ((s.tile s.cur).localRead (addrOf (s.ctx.sreg f.b)) 56)


section
variable {f : CF} {s : State} (hc : s.cid = 0) (can : s.canRun [f.a, f.b] f.d = true)
include hc can

/-- SEND up to its entry, which it may refuse. -/
theorem send_traps {c : BitVec 8} (h : entryBuffer (s.ctx.sreg f.b) { s with now := s.issueCycle [f.a, f.b] } = .error (.trap c (s.ctx.sreg f.b))) :
    s.traps (.send f) c (s.ctx.sreg f.b) := by
  obtain ⟨ha, can⟩ := canRun_cons can
  obtain ⟨hb, can⟩ := canRun_cons can
  have second : rs f.b { s with now := s.issueCycle [f.a] } = .ok (s.ctx.sreg f.b, { s with now := s.issueCycle [f.a, f.b] }) := rs_now hb
  refine finish_trap ?_
  simp only [bind_run, notHelper_control _ hc, rs_cycle ha, second, h]

variable (pend : (s.ctx.pend.any fun l => l.acq) = false) (local' : spaceOf (s.ctx.sreg f.b) = 1) (al : addrOf (s.ctx.sreg f.b) % 64 = 0)
  (pin : (s.tile s.cur).holds (addrOf (s.ctx.sreg f.b)) 64)
include pend local' al pin

/-- SEND to a number that is no endpoint's. -/
theorem send_nowhere (h : 2 ^ 24 ≤ (s.ctx.sreg f.a).toNat ∨ 2688 ≤ (s.ctx.sreg f.a).toNat % 4096) :
    ∃ t, exec (.send f) s = .next t ∧ s.wrote t (s.issueCycle [f.a, f.b]) 1 f.d 4 := by
  obtain ⟨ha, can⟩ := canRun_cons can
  obtain ⟨hb, can⟩ := canRun_cons can
  have second : rs f.b { s with now := s.issueCycle [f.a] } = .ok (s.ctx.sreg f.b, { s with now := s.issueCycle [f.a, f.b] }) := rs_now hb
  have entry := entryBuffer_run (s := { s with now := s.issueCycle [f.a, f.b] }) local' al pin
  have acquired := acquired_run (s := { s with now := s.issueCycle [f.a, f.b] }) pend
  have none : (decide (bits (s.ctx.sreg f.a) 24 40 ≠ 0) || decide (2688 ≤ (bits (s.ctx.sreg f.a) 0 12).toNat)) = true := by
    rw [Bool.or_eq_true, decide_eq_true_eq, decide_eq_true_eq, Ne, bits_top_zero (lo := 24) (w := 40) (s.ctx.sreg f.a) rfl, bits_toNat]
    omega
  refine finish_wsLat (m := _) (lat := 1) (e := s) (n := s.issueCycle [f.a, f.b]) ?_ (canRun_nil can)
  simp only [bind_run, notHelper_control _ hc, rs_cycle ha, second, entry, acquired]
  exact congrFun (if_pos none) _

/-- SEND to a tile of the own package whose message the fabric takes at once. -/
theorem send_here {t : Nat} (num : (s.ctx.sreg f.a).toNat / 4096 = s.devNum (pkgOf s.cur)) (own : s.pkgOfDev (s.devNum (pkgOf s.cur)) = some (pkgOf s.cur))
    (tile : (s.ctx.sreg f.a).toNat % 4096 < 2688) (ht : t = pkgOf s.cur * 4096 + (s.ctx.sreg f.a).toNat % 4096) (rel : s.releasable = true)
    (open' : (s.tile t).fenced = false) :
    ∃ m, exec (.send f) s = finish m s ∧ ∀ u answer, (s.asking (s.issueCycle [f.a, f.b])).receive t (s.endpoint s.cur) (sentText f s) = (u, answer) →
      m s = wsLat 1 f.d answer u := by
  obtain ⟨ha, can⟩ := canRun_cons can
  obtain ⟨hb, can⟩ := canRun_cons can
  have second : rs f.b { s with now := s.issueCycle [f.a] } = .ok (s.ctx.sreg f.b, { s with now := s.issueCycle [f.a, f.b] }) := rs_now hb
  have entry := entryBuffer_run (s := { s with now := s.issueCycle [f.a, f.b] }) local' al pin
  have acquired := acquired_run (s := { s with now := s.issueCycle [f.a, f.b] }) pend
  have lt := devNum_lt s (pkgOf s.cur)
  have some' : ¬ (decide (bits (s.ctx.sreg f.a) 24 40 ≠ 0) || decide (2688 ≤ (bits (s.ctx.sreg f.a) 0 12).toNat)) = true := by
    rw [Bool.or_eq_true, decide_eq_true_eq, decide_eq_true_eq, Ne, bits_top_zero (lo := 24) (w := 40) (s.ctx.sreg f.a) rfl, bits_toNat]
    omega
  have dev : (bits (s.ctx.sreg f.a) 12 12).toNat = s.devNum (pkgOf s.cur) := by
    rw [bits_toNat]
    omega
  have low : (bits (s.ctx.sreg f.a) 0 12).toNat = (s.ctx.sreg f.a).toNat % 4096 := by
    rw [bits_low]
    rfl
  have release := release_run (s := { s with now := s.issueCycle [f.a, f.b] }) rel
  have reached : ({ s with now := s.issueCycle [f.a, f.b] } : State).touchCtx.tileReached (pkgOf s.cur) t = true := by
    have pkg : pkgOf t = pkgOf s.cur := by rw [ht, pkgOf]; omega
    have fence : (({ s with now := s.issueCycle [f.a, f.b] } : State).touchCtx.tile t).fenced = false := by
      rw [touchCtx_tile]
      split <;> exact open'
    rw [State.tileReached, pkg, fence, State.reaches, if_pos rfl]
    rfl
  refine ⟨_, rfl, fun u answer taken => ?_⟩
  simp only [bind_run, notHelper_control _ hc, rs_cycle ha, second, entry, acquired]
  refine (congrFun (if_neg some') _).trans ?_
  have found : ({ s with now := s.issueCycle [f.a, f.b] } : State).pkgOfDev (bits (s.ctx.sreg f.a) 12 12).toNat = some (pkgOf s.cur) := by
    rw [dev]
    exact own
  simp only [bind_run, get_run, found, release, low, ← ht, reached, sendNow_here]
  have text : (({ s with now := s.issueCycle [f.a, f.b] } : State).touchCtx.tile s.cur).localRead (addrOf (s.ctx.sreg f.b)) 56 =
      (s.tile s.cur).localRead (addrOf (s.ctx.sreg f.b)) 56 := by
    rw [touchCtx_tile, if_pos rfl]
    rfl
  have body : ({ s with now := s.issueCycle [f.a, f.b] } : State).touchCtx.receive t (({ s with now := s.issueCycle [f.a, f.b] } : State).touchCtx.endpoint s.cur)
      (BitVec.ofNat 448 ((s.tile s.cur).localRead (addrOf (s.ctx.sreg f.b)) 56)) = (u, answer) := taken
  simp only [touchCtx_cur, text, body]
  rfl

end

/-! ## What a written register leaves -/

section
variable {s t : State} {n lat : Nat} {d : BitVec 5} {v : Word} (h : s.wrote t n lat d v)
include h

theorem wrote_mem : t.mem = s.mem := (congrArg State.mem h.1 :)
theorem wrote_now : t.now = n := congrArg State.now h.1
theorem wrote_fate : t.fate = .done := congrArg State.fate h.1
theorem wrote_cur : t.cur = s.cur := (congrArg State.cur h.1 :)
theorem wrote_cid : t.cid = s.cid := (congrArg State.cid h.1 :)
theorem wrote_gives : s.ctx.gives d v t.ctx := fun r => (h.2.2.2.2 r).1

/-- All of a tile but its contexts. -/
theorem wrote_tile (u : Nat) : { t.tile u with ctxs := [] } = { s.tile u with ctxs := [] } := by
  have bare (s : State) (k : Ctx) : { (s.setCtx k).tile u with ctxs := [] } = { s.tile u with ctxs := [] } := by
    rw [State.setCtx, State.setCtxAt, modTile_tile]
    split
    case isTrue e => rw [e]; rfl
    case isFalse => rfl
  have rest := congrArg (fun z : State => { z.tile u with ctxs := [] }) h.1
  exact (bare t t.ctx).symm.trans (rest.trans (bare s t.ctx))
theorem wrote_byte (u a : Nat) : (t.tile u).byte a = (s.tile u).byte a :=
  (congrArg (fun x : Tile => x.byte a) (wrote_tile h u) :)
theorem wrote_lines (u : Nat) : (t.tile u).lines = (s.tile u).lines := (congrArg Tile.lines (wrote_tile h u) :)

/-- A context but for its registers. -/
theorem wrote_ctxAt (u c : Nat) : ∃ r q b, t.ctxAt u c = { s.ctxAt u c with sregs := r, sready := q, backlog := b } := by
  by_cases here : u = s.cur ∧ c = s.cid
  · obtain ⟨rfl, rfl⟩ := here
    have own : t.ctxAt s.cur s.cid = t.ctx := by rw [State.ctx, wrote_cur h, wrote_cid h]
    exact ⟨_, _, _, own.trans h.2.1⟩
  · have rest := congrArg (fun z : State => z.ctxAt u c) h.1
    have before : (t.setCtx t.ctx).ctxAt u c = t.ctxAt u c := by
      rw [State.setCtx, setCtxAt_ctxAt, wrote_cur h, wrote_cid h, if_neg here]
    have after : ({ s.setCtx t.ctx with now := n, fate := .done } : State).ctxAt u c = s.ctxAt u c :=
      (setCtxAt_ctxAt s s.cur s.cid t.ctx u c).trans (if_neg here)
    exact ⟨_, _, _, before.symm.trans (rest.trans after)⟩
theorem wrote_ring (u c : Nat) : (t.ctxAt u c).recvCount = (s.ctxAt u c).recvCount ∧ (t.ctxAt u c).recvTail = (s.ctxAt u c).recvTail := by
  obtain ⟨r, q, b, e⟩ := wrote_ctxAt h u c
  rw [e]
  exact ⟨rfl, rfl⟩
theorem wrote_upc (u c : Nat) : (t.ctxAt u c).upc = (s.ctxAt u c).upc := by
  obtain ⟨r, q, b, e⟩ := wrote_ctxAt h u c
  rw [e]

end

/-! ## What SEND gives -/

section
variable {s : State} (t : Nat) (hc : s.cid = 0) (has : mhas (s.tile s.cur).ctxs 0 = true) (n : Nat)

theorem asking_ctxAt (u c : Nat) : (s.asking n).ctxAt u c = s.ctxAt u c := by
  refine (setCtxAt_ctxAt ..).trans ?_
  split
  case isTrue here => rw [here.1, here.2]; rfl
  case isFalse => rfl
theorem asking_pins (u : Nat) : ((s.asking n).tile u).pins = (s.tile u).pins := by
  rw [State.asking, touchCtx_tile]
  split <;> rfl
include hc has in
theorem asking_has : mhas ((s.asking n).tile t).ctxs 0 = mhas (s.tile t).ctxs 0 := by
  rw [State.asking, touchCtx_tile]
  split
  case isTrue here =>
    have : ({ s with now := n } : State).cid = 0 := hc
    rw [this, Tile.setCtx, mhas_mset, decide_eq_true rfl, Bool.or_true, here]
    exact has.symm
  case isFalse => rfl
theorem asking_entry : (s.asking n).nextEntry t = s.nextEntry t := by rw [State.nextEntry, asking_ctxAt, State.nextEntry]
include hc has in
theorem asking_noRing : (s.asking n).noRing t ↔ s.noRing t := by
  simp only [State.noRing, asking_has t hc has, asking_ctxAt, asking_pins, asking_entry]

/-! ### The message that is taken -/

section
variable (sender : Word) (body : BitVec 448)

theorem received_ring : ((s.asking n).received t sender body).ctxAt t 0 = (s.ctxAt t 0).oneMore := by
  rw [State.received, State.ctxAt, modTile_tile_same, setCtx_tile_ctx, if_pos rfl, ← State.ctxAt, asking_ctxAt]
include hc in
theorem received_ctx : ((s.asking n).received t sender body).ctx = s.ctx ∨ ((s.asking n).received t sender body).ctx = s.ctx.oneMore := by
  have own (u : State) (h : u.cur = s.cur) (h0 : u.cid = s.cid) : u.ctx = u.ctxAt s.cur 0 := by rw [State.ctx, h, h0, hc]
  rw [own ((s.asking n).received t sender body) rfl rfl, own s rfl rfl]
  by_cases here : t = s.cur
  · right
    rw [← here, received_ring]
  · left
    rw [State.received, State.ctxAt, modTile_tile, if_neg (Ne.symm here), ← State.ctxAt, asking_ctxAt]

theorem received_byte (a : Nat) : (((s.asking n).received t sender body).tile t).byte a =
    if s.nextEntry t ≤ a ∧ a < s.nextEntry t + 64 then (body.toNat + sender.toNat * 2 ^ 448) / 2 ^ (8 * (a - s.nextEntry t)) % 256
    else (s.tile t).byte a := by
  have same : ((s.asking n).tile t).byte a = (s.tile t).byte a := by rw [Tile.byte, Tile.pin, asking_pins]; rfl
  rw [State.received, modTile_tile_same, asking_entry, ← same]
  exact localWrite_byte ..

end

end

/-- Bytes of a text with its sender after it. -/
theorem entry_text {i : Nat} (x : Tile) (o : Nat) (sender : Word) (h : i < 56) :
    ((BitVec.ofNat 448 (x.localRead o 56)).toNat + sender.toNat * 2 ^ 448) / 2 ^ (8 * i) % 256 = x.byte (o + i) := by
  have within : 8 * i + 8 ≤ 448 := by omega
  rw [← localRead_byte x o h, show (256 : Nat) = 2 ^ 8 from rfl, ← digit_mod within, Nat.add_mul_mod_self_right, BitVec.toNat_ofNat, Nat.mod_mod,
    digit_mod within]
theorem entry_sender {i : Nat} (body : BitVec 448) (sender : Word) : (body.toNat + sender.toNat * 2 ^ 448) / 2 ^ (8 * (56 + i)) = sender.toNat / 256 ^ i := by
  rw [show 8 * (56 + i) = 448 + 8 * i by omega, Nat.pow_add, ← Nat.div_div_eq_div_mul, Nat.add_mul_div_right _ _ (Nat.two_pow_pos _),
    Nat.div_eq_of_lt body.isLt, Nat.zero_add, Nat.pow_mul]

section
variable {f : CF} {s : State} {t : Nat}

/-- What SEND to the tile t of the own package needs, from a tile's control context and a full entry. -/
structure SendsTo (f : CF) (s : State) (t : Nat) : Prop where
  control : s.cid = 0
  placed : mhas (s.tile s.cur).ctxs 0 = true
  can : s.canRun [f.a, f.b] f.d = true
  pend : (s.ctx.pend.any fun l => l.acq) = false
  space : spaceOf (s.ctx.sreg f.b) = 1
  aligned : addrOf (s.ctx.sreg f.b) % 64 = 0
  pinned : (s.tile s.cur).holds (addrOf (s.ctx.sreg f.b)) 64
  number : (s.ctx.sreg f.a).toNat / 4096 = s.devNum (pkgOf s.cur)
  own : s.pkgOfDev (s.devNum (pkgOf s.cur)) = some (pkgOf s.cur)
  tile : (s.ctx.sreg f.a).toNat % 4096 < 2688
  place : t = pkgOf s.cur * 4096 + (s.ctx.sreg f.a).toNat % 4096
  releasable : s.releasable = true
  unfenced : (s.tile t).fenced = false

variable (g : SendsTo f s t)
include g

theorem SendsTo.free : s.ctx.pendingReg f.d = false := canRun_nil (canRun_cons (canRun_cons g.can).2).2

/-- What the receiver's answer makes of SEND. -/
theorem SendsTo.answer {u : State} {answer : Word}
    (h : (s.asking (s.issueCycle [f.a, f.b])).receive t (s.endpoint s.cur) (sentText f s) = (u, answer)) (now : u.now = s.issueCycle [f.a, f.b])
    (free : u.ctx.pendingReg f.d = false) : ∃ v, exec (.send f) s = .next v ∧ u.wrote v (s.issueCycle [f.a, f.b]) 1 f.d answer := by
  obtain ⟨m, e, run⟩ := send_here g.control g.can g.pend g.space g.aligned g.pinned g.number g.own g.tile g.place g.releasable g.unfenced
  rw [e]
  refine finish_wsLat ((run u answer h).trans ?_) free
  rw [← now]

theorem SendsTo.gone (h : s.noRing t) : ∃ u, exec (.send f) s = .next u ∧ s.wrote u (s.issueCycle [f.a, f.b]) 1 f.d 2 := by
  obtain ⟨u, next, wrote⟩ := g.answer (receive_gone ((asking_noRing t g.control g.placed _).2 h)) rfl
    (by rw [State.asking, touchCtx_ctx]; exact g.free)
  exact ⟨u, next, wrote_touched (s := s) wrote⟩

theorem SendsTo.full (h : ¬ s.noRing t) (full : (s.ctxAt t 0).recvCount = (s.ctxAt t 0).recvSize) :
    ∃ u, exec (.send f) s = .next u ∧ s.wrote u (s.issueCycle [f.a, f.b]) 1 f.d 1 := by
  obtain ⟨u, next, wrote⟩ := g.answer (receive_full (mt (asking_noRing t g.control g.placed _).1 h) (by rwa [asking_ctxAt])) rfl
    (by rw [State.asking, touchCtx_ctx]; exact g.free)
  exact ⟨u, next, wrote_touched (s := s) wrote⟩

theorem SendsTo.taken (h : ¬ s.noRing t) (room : (s.ctxAt t 0).recvCount ≠ (s.ctxAt t 0).recvSize) :
    ∃ u, exec (.send f) s = .next u ∧
      ((s.asking (s.issueCycle [f.a, f.b])).received t (s.endpoint s.cur) (sentText f s)).wrote u (s.issueCycle [f.a, f.b]) 1 f.d 0 := by
  refine g.answer (receive_room (mt (asking_noRing t g.control g.placed _).1 h) (by rwa [asking_ctxAt])) rfl ?_
  obtain same | same := received_ctx t g.control (s.issueCycle [f.a, f.b]) (s.endpoint s.cur) (sentText f s) <;> rw [same] <;> exact g.free

end

theorem endpoint_toNat (s : State) : (s.endpoint s.cur).toNat = s.devNum (pkgOf s.cur) * 4096 + s.cur % 4096 := by
  have := devNum_lt s (pkgOf s.cur)
  rw [State.endpoint, BitVec.toNat_ofNat, numOf]
  omega

/-- What the message has made of the receiving tile. -/
theorem taken_effects {f : CF} {s u : State} {t n : Nat} (hc : s.cid = 0)
    (h : ((s.asking n).received t (s.endpoint s.cur) (sentText f s)).wrote u n 1 f.d 0) :
    u.fate = .done ∧ u.mem = s.mem ∧ u.now = n ∧ s.ctx.gives f.d 0 u.ctx ∧ (u.ctxAt t 0).recvCount = (s.ctxAt t 0).recvCount + 1 ∧
      (u.ctxAt t 0).recvTail.toNat = ((s.ctxAt t 0).recvTail.toNat + 1) % (s.ctxAt t 0).recvSize.toNat % 2 ^ 11 ∧
      (∀ i < 56, (u.tile t).byte (s.nextEntry t + i) = (s.tile s.cur).byte (addrOf (s.ctx.sreg f.b) + i)) ∧
      ∀ i < 8, (u.tile t).byte (s.nextEntry t + 56 + i) = (s.devNum (pkgOf s.cur) * 4096 + s.cur % 4096) / 256 ^ i % 256 := by
  obtain ⟨count, tail⟩ := wrote_ring h t 0
  rw [received_ring] at count tail
  refine ⟨wrote_fate h, (wrote_mem h :), wrote_now h, ?_, count, (congrArg BitVec.toNat tail).trans (BitVec.toNat_ofNat ..), fun i hi => ?_, fun i hi => ?_⟩
  · have gives := wrote_gives h
    obtain same | same := received_ctx t hc n (s.endpoint s.cur) (sentText f s) <;> rw [same] at gives <;> exact gives
  · rw [wrote_byte h, received_byte, if_pos (by omega), Nat.add_sub_cancel_left]
    exact entry_text _ _ _ hi
  · rw [wrote_byte h, received_byte, if_pos (by omega), Nat.add_assoc, Nat.add_sub_cancel_left, entry_sender, endpoint_toNat]

/-! ## RECV and RECVT -/

/-- The offset of the oldest entry of the context's ring. -/
def State.oldest (s : State) : Nat :=
  s.ctx.ringEntry ((s.ctx.recvTail.toNat + s.ctx.recvSize.toNat - s.ctx.recvCount.toNat) % s.ctx.recvSize.toNat)

/-- The oldest entry of the context's ring. -/
def State.message (s : State) : Nat := (s.tile s.cur).localRead s.oldest 64

/-- The state with the oldest message taken to a local offset. -/
def State.taking (s : State) (o : Nat) : State :=
  (s.modTile s.cur fun x => x.localWrite o 64 s.message).setCtx { s.ctx with recvCount := s.ctx.recvCount - 1, timeFrom := none }

section
variable {f : CF} {s : State} {n : Nat}

theorem taking_tile (o : Nat) : ({ (s.taking o).tile s.cur with ctxs := [] } : Tile) = { (s.tile s.cur).localWrite o 64 s.message with ctxs := [] } := by
  have : (s.taking o).tile s.cur = ((s.modTile s.cur fun x => x.localWrite o 64 s.message).tile s.cur).setCtx s.cid _ := setCtx_tile_cur ..
  rw [this, modTile_tile_same]
  rfl
theorem taking_byte (o a : Nat) : ((s.taking o).tile s.cur).byte a = ((s.tile s.cur).localWrite o 64 s.message).byte a :=
  (congrArg (fun x : Tile => x.byte a) (taking_tile o) :)
theorem taking_lines (o : Nat) : ((s.taking o).tile s.cur).lines = (s.tile s.cur).lines :=
  ((congrArg Tile.lines (taking_tile o) :) : _ = ((s.tile s.cur).localWrite o 64 s.message).lines).trans (by rw [localWrite_eq])

/-- The message is taken in whatever cycle. -/
theorem taking_now (n o : Nat) {u : State} (hu : u = ({ s with now := n } : State).modTile s.cur fun x => x.localWrite o 64 s.message) :
    u.setCtx { u.ctx with recvCount := u.ctx.recvCount - 1, timeFrom := none } = { s.taking o with now := n } := by
  have kept : u.ctx = s.ctx := by
    rw [hu]
    exact modTile_ctx s.cur (localWrite_ctxs ..)
  rw [kept, hu]
  rfl

/-- What an instruction does that takes a message. -/
theorem takeMessage_run (ha : s.ctx.readable f.a = true) (pend : (s.ctx.pend.any fun l => l.acq) = false) (space : spaceOf (s.ctx.sreg f.a) = 1)
    (al : addrOf (s.ctx.sreg f.a) % 64 = 0) (pin : (s.tile s.cur).holds (addrOf (s.ctx.sreg f.a)) 64) (free : s.ctx.pendingReg f.d = false) :
    ∃ u : State, takeMessage f s = .ok ((), u.flashTile u.cur) ∧
      (s.taking (addrOf (s.ctx.sreg f.a))).wrote { u with fate := .done } (s.issueCycle [f.a]) 1 f.d (BitVec.ofNat 64 (s.message / 2 ^ 448)) := by
  have entry := entryBuffer_run (s := { s with now := s.issueCycle [f.a] }) space al pin
  have acquired := acquired_run (s := { s with now := s.issueCycle [f.a] }) pend
  have own : (s.taking (addrOf (s.ctx.sreg f.a))).ctx = { s.ctx with recvCount := s.ctx.recvCount - 1, timeFrom := none } := setCtx_ctx ..
  obtain ⟨u, run, wrote⟩ := wsLat_run (issued_now (s.taking (addrOf (s.ctx.sreg f.a))) (s.issueCycle [f.a])) 1 (d := f.d)
    (BitVec.ofNat 64 (s.message / 2 ^ 448)) (by rw [own]; exact free)
  refine ⟨u, ?_, wrote⟩
  refine (bind_goes (rs_cycle ha)).trans ((bind_goes entry).trans ((bind_goes acquired).trans ?_))
  refine (bind_goes (getT_run _)).trans ((bind_goes (getC_run _)).trans ((bind_goes (modT_run _ _)).trans ((bind_goes (modC_run _ _)).trans ?_)))
  refine (bind_goes (t := u) (a := ()) ?_).trans (flash_run u)
  exact (congrArg (wsLat 1 f.d (BitVec.ofNat 64 (s.message / 2 ^ 448))) (taking_now _ _ rfl)).trans run

/-- The bytes and the sender of the oldest message. -/
theorem message_byte (s : State) {j : Nat} (h : j < 64) : s.message / 2 ^ (8 * j) % 256 = (s.tile s.cur).byte (s.oldest + j) := localRead_byte _ _ h
theorem packNat_bytes (g : Nat → Nat) (h : ∀ j, g j < 256) (n : Nat) :
    packNat 8 ((List.range n).map g) = ((List.range n).map fun j => g j * 256 ^ j).sum := by
  induction n with
  | zero => rfl
  | succ n ih =>
    have one : packNat 8 [g n] = g n := by simp only [packNat, Nat.mul_zero, Nat.add_zero, Nat.mod_eq_of_lt (show g n < 2 ^ 8 from h n)]
    rw [List.range_succ, List.map_append, List.map_append, packNat_append, List.sum_append, ih, List.map_singleton, List.map_singleton, one,
      List.sum_singleton, List.length_map, List.length_range, Nat.pow_mul, Nat.mul_comm]
theorem message_sender (s : State) : s.message / 2 ^ 448 = ((List.range 8).map fun j => (s.tile s.cur).byte (s.oldest + 56 + j) * 256 ^ j).sum := by
  have text : (s.tile s.cur).bytesAt s.oldest 56 < 2 ^ 448 := by
    have := packNat_lt 8 ((List.range 56).map fun j => (s.tile s.cur).byte (s.oldest + j))
    rwa [List.length_map, List.length_range] at this
  rw [State.message, localRead_eq, show 64 = 56 + 8 from rfl, bytesAt_add, show 8 * 56 = 448 from rfl, Nat.add_mul_div_left _ _ (Nat.two_pow_pos _),
    Nat.div_eq_of_lt text, Nat.zero_add]
  exact packNat_bytes _ (fun j => byte_lt ..) 8

/-- What taking a message leaves. -/
theorem takeMessage_effects {u : State} {o : Nat}
    (h : (s.taking o).wrote { u with fate := .done } n 1 f.d (BitVec.ofNat 64 (s.message / 2 ^ 448))) :
    let t := { u.flashTile u.cur with fate := .done }
    t.mem = s.mem ∧ t.ctx.recvCount = s.ctx.recvCount - 1 ∧ t.ctx.recvTail = s.ctx.recvTail ∧ t.ctx.timeFrom = none ∧
      (∀ j < 64, (t.tile s.cur).byte (o + j) = (s.tile s.cur).byte (s.oldest + j)) ∧
      s.ctx.gives f.d (BitVec.ofNat 64 ((List.range 8).map fun j => (s.tile s.cur).byte (s.oldest + 56 + j) * 256 ^ j).sum) t.ctx ∧
      (t.tile s.cur).lines = (s.tile s.cur).lines.map fun l => { l with valid := l.own } := by
  intro t
  have own : (s.taking o).ctx = { s.ctx with recvCount := s.ctx.recvCount - 1, timeFrom := none } := setCtx_ctx ..
  have ctx : t.ctx = u.ctx := flashTile_ctx ..
  have cur : u.cur = s.cur := (wrote_cur h :)
  have tile : t.tile s.cur = { (u.tile s.cur).flash with flashUntil := u.now + 4 } := by
    rw [← cur]
    exact modTile_tile_same u u.cur fun x => { x.flash with flashUntil := u.now + 4 }
  have fields : u.ctx = { (s.taking o).ctx with sregs := u.ctx.sregs, sready := u.ctx.sready, backlog := u.ctx.backlog } := h.2.1
  have gives : _ := wrote_gives h
  rw [message_sender, own] at gives
  refine ⟨(wrote_mem h :), ?_, ?_, ?_, fun j hj => ?_, ?_, ?_⟩
  · rw [ctx, fields, own]
  · rw [ctx, fields, own]
  · rw [ctx, fields, own]
  · have kept : (t.tile s.cur).byte (o + j) = (u.tile s.cur).byte (o + j) := by rw [tile]; rfl
    rw [kept]
    refine (wrote_byte h s.cur (o + j)).trans ?_
    rw [taking_byte, localWrite_byte, if_pos (by omega), Nat.add_sub_cancel_left]
    exact message_byte s hj
  · rw [ctx]
    exact gives
  · rw [tile]
    exact congrArg (List.map _) ((wrote_lines h s.cur).trans (taking_lines o))

end

section
variable {f : CF} {s : State} (hc : s.cid = 0) (can : s.canRun [f.a, f.b] f.d = true)
include hc can

theorem recv_empty (h : s.ctx.recvCount = 0) : s.waits (.recv f) := by
  refine finish_wait ?_
  refine (bind_goes (notHelper_control _ hc)).trans ((bind_goes (getC_run _)).trans ?_)
  exact congrFun (if_pos h) _

/-- RECVT with an empty ring, at its first issue and after. -/
theorem recvt_empty (h : s.ctx.recvCount = 0) : let from' := s.ctx.timeFrom.getD (s.issueCycle [f.b])
    (from' + (s.ctx.sreg f.b).toNat ≤ s.issueCycle [f.b] → ∃ t, exec (.recvt f) s = .next t ∧
      (s.setCtx { s.ctx with timeFrom := none }).wrote t (s.issueCycle [f.b]) 1 f.d (BitVec.allOnes 64)) ∧
    (s.issueCycle [f.b] < from' + (s.ctx.sreg f.b).toNat → ∃ t, exec (.recvt f) s = .next t ∧ t.fate = .waited ∧ t.ctx.timeFrom = some from' ∧
      t.ctx.sregs = s.ctx.sregs ∧ t.mem = s.mem) := by
  obtain ⟨-, can⟩ := canRun_cons can
  obtain ⟨hb, can⟩ := canRun_cons can
  intro from'
  obtain ⟨m, e, run⟩ : ∃ m, exec (.recvt f) s = finish m s ∧ m s = (do
      if s.issueCycle [f.b] < from' + (s.ctx.sreg f.b).toNat then
        modC fun k => { k with timeFrom := some from' }
        waitKeep
      modC fun k => { k with timeFrom := none }
      ws f.d (BitVec.allOnes 64) : M Unit) { s with now := s.issueCycle [f.b] } := by
    refine ⟨_, rfl, (bind_goes (notHelper_control _ hc)).trans ((bind_goes (rs_cycle hb)).trans ((bind_goes (get_run _)).trans ?_))⟩
    exact congrFun (if_neg (not_not.2 h)) _
  rw [e]
  constructor
  · intro late
    rw [if_neg (Nat.not_lt.2 late)] at run
    refine finish_wsLat (run.trans ?_) (by rw [setCtx_ctx]; exact canRun_nil can)
    rfl
  · intro early
    rw [if_pos early] at run
    have own : ({ s with now := s.issueCycle [f.b] } : State).ctx = s.ctx := rfl
    have kept : (({ s with now := s.issueCycle [f.b] } : State).setCtx { s.ctx with timeFrom := some from' }).ctx = { s.ctx with timeFrom := some from' } :=
      setCtx_ctx ..
    refine ⟨_, finish_waitWith (run.trans rfl), rfl, (congrArg Ctx.timeFrom kept :), (congrArg Ctx.sregs kept :), rfl⟩

/-- RECV and RECVT take the oldest message. -/
theorem recv_takes (pend : (s.ctx.pend.any fun l => l.acq) = false) (some' : s.ctx.recvCount ≠ 0) (space : spaceOf (s.ctx.sreg f.a) = 1)
    (al : addrOf (s.ctx.sreg f.a) % 64 = 0) (pin : (s.tile s.cur).holds (addrOf (s.ctx.sreg f.a)) 64) :
    ∀ i ∈ [Instr.recv, .recvt], ∃ (u : State) (n : Nat), exec (i f) s = .next { u.flashTile u.cur with fate := .done } ∧
      (s.taking (addrOf (s.ctx.sreg f.a))).wrote { u with fate := .done } n 1 f.d (BitVec.ofNat 64 (s.message / 2 ^ 448)) := by
  obtain ⟨ha, can⟩ := canRun_cons can
  obtain ⟨hb, can⟩ := canRun_cons can
  refine List.forall_mem_cons.2 ⟨?recv, List.forall_mem_singleton.2 ?recvt⟩
  case recv =>
    obtain ⟨u, run, wrote⟩ := takeMessage_run ha pend space al pin (canRun_nil can)
    refine ⟨u, _, finish_ok ?_, wrote⟩
    refine (bind_goes (notHelper_control _ hc)).trans ((bind_goes (getC_run _)).trans ?_)
    exact (congrFun (if_neg some') _).trans run
  case recvt =>
    obtain ⟨u, run, wrote⟩ := takeMessage_run (s := { s with now := s.issueCycle [f.b] }) ha pend space al pin (canRun_nil can)
    refine ⟨u, _, finish_ok ?_, wrote⟩
    refine (bind_goes (notHelper_control _ hc)).trans ((bind_goes (rs_cycle hb)).trans ((bind_goes (get_run _)).trans ?_))
    exact (congrFun (if_pos some') _).trans run

end

/-- Settles O40: SEND by what the receiver's ring answers, RECV and RECVT by whether the own ring is empty. -/
theorem messages : Obligations.Messages := by
  unfold Obligations.Messages
  intro f s hc has can noAcq x
  have pend := (noAcquire_iff s.ctx).1 noAcq
  refine ⟨?_, ?_⟩
  · intro d p o q t k e n gone
    refine ⟨fun h => send_traps hc can (entryBuffer_space h), fun h al => send_traps hc can (entryBuffer_align h al), fun space al pin => ⟨?_, ?_⟩⟩
    · exact send_nowhere hc can pend space al pin
    · intro num own tile rel open'
      have g : SendsTo f s t := ⟨hc, has, can, pend, space, al, pin, num, own, tile, rfl, rel, open'⟩
      refine ⟨g.gone, g.full, fun here room => ?_⟩
      obtain ⟨u, next, wrote⟩ := g.taken here room
      exact ⟨u, next, taken_effects hc wrote⟩
  · intro p o k e
    refine ⟨fun empty => ⟨recv_empty hc can empty, recvt_empty hc can empty⟩, fun some' space al pin i hi => ?_⟩
    obtain ⟨u, n, next, wrote⟩ := recv_takes hc can pend some' space al pin i hi
    exact ⟨_, next, rfl, takeMessage_effects wrote⟩

end Sys2Proof.Machine
end

section
set_option Elab.async false
/-! Gangs: GFUSE and GSPLIT (R303, R304). -/
namespace Sys2Proof.Machine

/-! ## A member joins its gang -/

/-- A tile in the gang of a leader. -/
def Tile.inGang (x : Tile) (leader : Nat) : Tile := { x with gang := some leader, fuse := none }

/-- A member joins the gang of a leader; another tile's control context goes on at pc. -/
def State.enlists (leader : Nat) (pc : Word) (s : State) (m : Nat) : State :=
  if m = s.cur then s.modTile m (·.inGang leader) else (s.modTile m (·.inGang leader)).modCtxAt m 0 fun k => k.fused pc

theorem fused_pc (k : Ctx) (pc : Word) : (k.fused pc).pc = pc := by
  unfold Ctx.fused
  split <;> rfl

section
variable (leader : Nat) (pc : Word)

@[simp] theorem enlists_cur (s : State) (m : Nat) : (s.enlists leader pc m).cur = s.cur := by
  unfold State.enlists
  split <;> rfl
@[simp] theorem enlists_cid (s : State) (m : Nat) : (s.enlists leader pc m).cid = s.cid := by
  unfold State.enlists
  split <;> rfl
@[simp] theorem enlists_now (s : State) (m : Nat) : (s.enlists leader pc m).now = s.now := by
  unfold State.enlists
  split <;> rfl
@[simp] theorem enlists_mem (s : State) (m : Nat) : (s.enlists leader pc m).mem = s.mem := by
  unfold State.enlists
  split <;> rfl

/-- A member's tile, but for its contexts. -/
theorem enlists_tile (s : State) (m u : Nat) : (((s.enlists leader pc m).tile u).gang, ((s.enlists leader pc m).tile u).fuse) =
    if u = m then (some leader, none) else ((s.tile u).gang, (s.tile u).fuse) := by
  unfold State.enlists
  by_cases same : u = m
  · subst same
    rw [if_pos rfl]
    split
    · rw [modTile_tile_same]
      rfl
    · rw [State.modCtxAt, State.setCtxAt, modTile_tile_same, modTile_tile_same]
      rfl
  · rw [if_neg same]
    split
    · rw [modTile_tile, if_neg same]
    · rw [State.modCtxAt, State.setCtxAt, modTile_tile, if_neg same, modTile_tile, if_neg same]

/-- The contexts of the part's own tile stay. -/
theorem enlists_own (s : State) (m c : Nat) : (s.enlists leader pc m).ctxAt s.cur c = s.ctxAt s.cur c := by
  unfold State.enlists
  by_cases same : m = s.cur
  · rw [if_pos same]
    exact modTile_ctxAt (f := (·.inGang leader)) m (fun _ => rfl) s.cur c
  · rw [if_neg same, State.modCtxAt, setCtxAt_ctxAt, if_neg fun h => same h.1.symm]
    exact modTile_ctxAt (f := (·.inGang leader)) m (fun _ => rfl) s.cur c
theorem enlists_pc (s : State) (m u : Nat) (h : u ≠ s.cur) : ((s.enlists leader pc m).ctxAt u 0).pc = if u = m then pc else (s.ctxAt u 0).pc := by
  unfold State.enlists
  by_cases same : u = m
  · subst same
    rw [if_neg h, if_pos rfl, State.modCtxAt, setCtxAt_ctxAt_same, fused_pc]
  · rw [if_neg same]
    have kept : ((s.modTile m (·.inGang leader)).ctxAt u 0) = s.ctxAt u 0 := modTile_ctxAt (f := (·.inGang leader)) m (fun _ => rfl) u 0
    split
    · rw [kept]
    · rw [State.modCtxAt, setCtxAt_ctxAt, if_neg fun h => same h.1, kept]

/-! ## All members join -/

/-- Every member joins. -/
def State.gangs (leader : Nat) (pc : Word) (s : State) (ms : List Nat) : State := ms.foldl (State.enlists leader pc) s

@[simp] theorem gangs_cur (s : State) (ms : List Nat) : (s.gangs leader pc ms).cur = s.cur := by
  induction ms generalizing s with
  | nil => rfl
  | cons m ms ih => exact (ih _).trans (enlists_cur ..)
@[simp] theorem gangs_cid (s : State) (ms : List Nat) : (s.gangs leader pc ms).cid = s.cid := by
  induction ms generalizing s with
  | nil => rfl
  | cons m ms ih => exact (ih _).trans (enlists_cid ..)
@[simp] theorem gangs_now (s : State) (ms : List Nat) : (s.gangs leader pc ms).now = s.now := by
  induction ms generalizing s with
  | nil => rfl
  | cons m ms ih => exact (ih _).trans (enlists_now ..)
@[simp] theorem gangs_mem (s : State) (ms : List Nat) : (s.gangs leader pc ms).mem = s.mem := by
  induction ms generalizing s with
  | nil => rfl
  | cons m ms ih => exact (ih _).trans (enlists_mem ..)

theorem gangs_tile (s : State) (ms : List Nat) (u : Nat) : (((s.gangs leader pc ms).tile u).gang, ((s.gangs leader pc ms).tile u).fuse) =
    if u ∈ ms then (some leader, none) else ((s.tile u).gang, (s.tile u).fuse) := by
  induction ms generalizing s with
  | nil => rfl
  | cons m ms ih =>
    refine (ih _).trans ?_
    rw [enlists_tile]
    by_cases first : u = m <;> by_cases later : u ∈ ms <;> simp [first, later]
theorem gangs_own (s : State) (ms : List Nat) (c : Nat) : (s.gangs leader pc ms).ctxAt s.cur c = s.ctxAt s.cur c := by
  induction ms generalizing s with
  | nil => rfl
  | cons m ms ih =>
    have := ih (s.enlists leader pc m)
    rw [enlists_cur] at this
    exact this.trans (enlists_own ..)
theorem gangs_pc (s : State) (ms : List Nat) (u : Nat) (h : u ≠ s.cur) :
    ((s.gangs leader pc ms).ctxAt u 0).pc = if u ∈ ms then pc else (s.ctxAt u 0).pc := by
  induction ms generalizing s with
  | nil => rfl
  | cons m ms ih =>
    refine (ih _ (by rwa [enlists_cur])).trans ?_
    rw [enlists_pc _ _ _ _ _ h]
    by_cases first : u = m <;> by_cases later : u ∈ ms <;> simp [first, later]

end

/-! ## What GFUSE finds -/

/-- The mask does not name the tile, or names one that is not its partition's. -/
def State.badMask (s : State) (mask : BitVec 8) : Prop :=
  mask.getLsbD (s.cur % 4096 % 8) = false ∨ ∃ m ∈ maskTiles s.cur mask, s.inPartition m (s.tile s.cur).pid = false
/-- A tile of the mask is in a gang. -/
def State.inAGang (s : State) (mask : BitVec 8) : Prop := ∃ m ∈ maskTiles s.cur mask, (s.tile m).gang.isSome = true
/-- Another GFUSE of the cluster waits that names the tile and differs. -/
def State.clashes (s : State) (mask : BitVec 8) : Prop :=
  ∃ i < 8, ∃ o, (s.tile (s.cur - s.cur % 8 + i)).fuse = some o ∧ o ≠ mask ∧ o.getLsbD (s.cur % 4096 % 8) = true

section
variable (s : State) (mask : BitVec 8)

theorem badMask_iff : (!mask.getLsbD (memberOf s.cur) || (maskTiles s.cur mask).any fun m => !s.inPartition m (s.tile s.cur).pid) = true ↔ s.badMask mask := by
  rw [Bool.or_eq_true, Bool.not_eq_true', List.any_eq_true]
  simp only [Bool.not_eq_true']
  rfl
theorem inAGang_iff : ((maskTiles s.cur mask).any fun m => (s.tile m).gang.isSome) = true ↔ s.inAGang mask := List.any_eq_true
theorem clashes_iff : s.fuseClash s.cur mask = true ↔ s.clashes mask := by
  rw [State.fuseClash, List.any_eq_true]
  refine exists_congr fun i => and_congr List.mem_range ?_
  cases h : (s.tile (s.cur - s.cur % 8 + i)).fuse with
  | none => simp
  | some o => simp [memberOf, numOf]

end

/-! ## GFUSE -/

/-- What GFUSE does when its mask stands. -/
def fuseThen (f : CF) (mask : BitVec 8) (s : State) : M Unit := do
  modT fun x => { x with fuse := some mask }
  if (maskTiles s.cur mask).any fun m => m ≠ s.cur && (s.tile m).fuse ≠ some mask then waitKeep
  ws f.d 0
  formGang mask

section
variable {f : CF} {s : State} (hc : s.cid = 0) (can : s.canRun [f.a] f.d = true)
include hc can

/-- The mask that GFUSE names. -/
def fuseMask (f : CF) (s : State) : BitVec 8 := BitVec.ofNat 8 (s.ctx.sreg f.a).toNat

theorem gfuse_run : ∃ m, exec (.gfuse f) s = finish m s ∧
    m s = (let waiting := (s.tile s.cur).fuse = some (fuseMask f s)
      if !waiting && (!(fuseMask f s).getLsbD (memberOf s.cur) || (maskTiles s.cur (fuseMask f s)).any fun m => !s.inPartition m (s.tile s.cur).pid) then ws f.d 1
      else if !waiting && (maskTiles s.cur (fuseMask f s)).any fun m => (s.tile m).gang.isSome then ws f.d 2
      else if !waiting && s.fuseClash s.cur (fuseMask f s) then ws f.d 3
      else fuseThen f (fuseMask f s) s : M Unit) { s with now := s.issueCycle [f.a] } := by
  obtain ⟨ha, can⟩ := canRun_cons can
  have mask : bits (s.ctx.sreg f.a) 0 8 = fuseMask f s := by rw [bits_low]; rfl
  refine ⟨_, rfl, (bind_goes (notHelper_control _ hc)).trans ((bind_goes (rs_cycle ha)).trans ((bind_goes (get_run _)).trans ?_))⟩
  rw [mask]
  rfl

theorem gfuse_bad (h : (s.tile s.cur).fuse ≠ some (fuseMask f s)) (bad : s.badMask (fuseMask f s)) :
    ∃ t, exec (.gfuse f) s = .next t ∧ s.wrote t (s.issueCycle [f.a]) 1 f.d 1 := by
  obtain ⟨m, e, run⟩ := gfuse_run hc can
  rw [e]
  refine finish_wsLat (run.trans (congrFun (if_pos ?_) _)) (canRun_nil (canRun_cons can).2)
  rw [(badMask_iff s _).2 bad, decide_eq_false h]
  rfl
theorem gfuse_ganged (h : (s.tile s.cur).fuse ≠ some (fuseMask f s)) (good : ¬ s.badMask (fuseMask f s)) (ganged : s.inAGang (fuseMask f s)) :
    ∃ t, exec (.gfuse f) s = .next t ∧ s.wrote t (s.issueCycle [f.a]) 1 f.d 2 := by
  obtain ⟨m, e, run⟩ := gfuse_run hc can
  rw [e]
  refine finish_wsLat (run.trans (congrFun ((if_neg ?_).trans (if_pos ?_)) _)) (canRun_nil (canRun_cons can).2)
  · rw [Bool.and_eq_true, badMask_iff]
    exact fun b => good b.2
  · rw [(inAGang_iff s _).2 ganged, decide_eq_false h]
    rfl
theorem gfuse_clash (h : (s.tile s.cur).fuse ≠ some (fuseMask f s)) (good : ¬ s.badMask (fuseMask f s)) (free : ¬ s.inAGang (fuseMask f s))
    (clash : s.clashes (fuseMask f s)) : ∃ t, exec (.gfuse f) s = .next t ∧ s.wrote t (s.issueCycle [f.a]) 1 f.d 3 := by
  obtain ⟨m, e, run⟩ := gfuse_run hc can
  rw [e]
  refine finish_wsLat (run.trans (congrFun ((if_neg ?_).trans ((if_neg ?_).trans (if_pos ?_))) _)) (canRun_nil (canRun_cons can).2)
  · rw [Bool.and_eq_true, badMask_iff]
    exact fun b => good b.2
  · rw [Bool.and_eq_true, inAGang_iff]
    exact fun b => free b.2
  · rw [(clashes_iff s _).2 clash, decide_eq_false h]
    rfl

/-- GFUSE stands when it waits already, or when nothing speaks against its mask. -/
theorem gfuse_stands (h : (s.tile s.cur).fuse = some (fuseMask f s) ∨ ¬ s.badMask (fuseMask f s) ∧ ¬ s.inAGang (fuseMask f s) ∧ ¬ s.clashes (fuseMask f s)) :
    ∃ m, exec (.gfuse f) s = finish m s ∧ m s = fuseThen f (fuseMask f s) s { s with now := s.issueCycle [f.a] } := by
  obtain ⟨m, e, run⟩ := gfuse_run hc can
  refine ⟨m, e, run.trans (congrFun ((if_neg ?_).trans ((if_neg ?_).trans (if_neg ?_))) _)⟩
  all_goals
    rw [Bool.and_eq_true]
    rintro ⟨fresh, found⟩
    obtain same | ⟨good, free, clear⟩ := h
    · simp [same] at fresh
  · exact good ((badMask_iff s _).1 found)
  · exact free ((inAGang_iff s _).1 found)
  · exact clear ((clashes_iff s _).1 found)

variable (stands : (s.tile s.cur).fuse = some (fuseMask f s) ∨ ¬ s.badMask (fuseMask f s) ∧ ¬ s.inAGang (fuseMask f s) ∧ ¬ s.clashes (fuseMask f s))
include stands

/-- GFUSE waits for a member that has not asked. -/
theorem gfuse_waits (h : ∃ m ∈ maskTiles s.cur (fuseMask f s), m ≠ s.cur ∧ (s.tile m).fuse ≠ some (fuseMask f s)) :
    ∃ t, exec (.gfuse f) s = .next t ∧ t.fate = .waited ∧ t.mem = s.mem ∧ (t.tile s.cur).fuse = some (fuseMask f s) ∧ t.ctx.sregs = s.ctx.sregs := by
  obtain ⟨m, e, run⟩ := gfuse_stands hc can stands
  have missing : ((maskTiles s.cur (fuseMask f s)).any fun m => m ≠ s.cur && (s.tile m).fuse ≠ some (fuseMask f s)) = true := by
    obtain ⟨m, hm, away, silent⟩ := h
    exact List.any_eq_true.2 ⟨m, hm, by simp [away, silent]⟩
  have asked := modTile_tile_same { s with now := s.issueCycle [f.a] } s.cur fun x => { x with fuse := some (fuseMask f s) }
  have own := modTile_ctx (s := { s with now := s.issueCycle [f.a] }) (f := fun x => { x with fuse := some (fuseMask f s) }) s.cur rfl
  rw [e]
  refine ⟨_, finish_waitWith (run.trans ((bind_goes (modT_run _ _)).trans (congrFun (if_pos missing) _))), rfl, rfl, ?_, ?_⟩
  · exact (congrArg Tile.fuse asked :)
  · exact (congrArg Ctx.sregs own :)

/-- The last member's GFUSE forms the gang. -/
theorem gfuse_forms {leader : Nat} {rest : List Nat} (members : maskTiles s.cur (fuseMask f s) = leader :: rest)
    (h : ∀ m ∈ maskTiles s.cur (fuseMask f s), m ≠ s.cur → (s.tile m).fuse = some (fuseMask f s)) :
    ∃ u : State, (s.modTile s.cur fun x => { x with fuse := some (fuseMask f s) }).wrote { u with fate := .done } (s.issueCycle [f.a]) 1 f.d 0 ∧
      exec (.gfuse f) s = .next { (u.gangs leader ((s.ctxAt leader 0).upc + 8) (leader :: rest)).setCtx { u.ctx with npc := (s.ctxAt leader 0).upc + 8 } with
        fate := .done } := by
  obtain ⟨m, e, run⟩ := gfuse_stands hc can stands
  have all : ¬ ((maskTiles s.cur (fuseMask f s)).any fun m => m ≠ s.cur && (s.tile m).fuse ≠ some (fuseMask f s)) = true := by
    rw [List.any_eq_true]
    rintro ⟨m, hm, missing⟩
    rw [Bool.and_eq_true, decide_eq_true_eq, decide_eq_true_eq] at missing
    exact missing.2 (h m hm missing.1)
  have own : (s.modTile s.cur fun x => { x with fuse := some (fuseMask f s) }).ctx = s.ctx := modTile_ctx s.cur rfl
  obtain ⟨u, ran, wrote⟩ := wsLat_run (issued_now (s.modTile s.cur fun x => { x with fuse := some (fuseMask f s) }) (s.issueCycle [f.a])) 1 (d := f.d) 0
    (by rw [own]; exact canRun_nil (canRun_cons can).2)
  refine ⟨u, wrote, ?_⟩
  have cur : u.cur = s.cur := (wrote_cur wrote :)
  have upc : (u.ctxAt leader 0).upc = (s.ctxAt leader 0).upc :=
    (wrote_upc wrote leader 0 :).trans (congrArg Ctx.upc (modTile_ctxAt (f := fun x => { x with fuse := some (fuseMask f s) }) s.cur (fun _ => rfl) leader 0))
  have forms : formGang (fuseMask f s) u = .ok ((), (u.gangs leader ((s.ctxAt leader 0).upc + 8) (leader :: rest)).setCtx
      { u.ctx with npc := (s.ctxAt leader 0).upc + 8 }) := by
    have kept : (u.gangs leader ((s.ctxAt leader 0).upc + 8) (leader :: rest)).ctx = u.ctx := by
      rw [State.ctx, gangs_cur, gangs_cid, gangs_own]
      rfl
    refine (bind_goes (get_run _)).trans ?_
    rw [cur, members, List.headD_cons, upc]
    refine (bind_goes (upd_run _ _)).trans ?_
    rw [← kept]
    exact modC_run _ _
  rw [e]
  exact finish_ok (run.trans ((bind_goes (modT_run _ _)).trans ((congrFun (if_neg all) _).trans ((bind_goes ran).trans forms))))

end

/-- The tiles of a state with a context set. -/
theorem tile_setCtx (s : State) (k : Ctx) (u : Nat) : (s.setCtx k).tile u = if u = s.cur then (s.tile u).setCtx s.cid k else s.tile u := by
  rw [State.setCtx, State.setCtxAt, modTile_tile]
  split
  case isTrue same => rw [same]
  case isFalse => rfl

/-- What a formed gang leaves. -/
theorem formed_effects {s u : State} {n leader : Nat} {pc : Word} {mask : BitVec 8} {d : BitVec 5} {ms : List Nat} (hc : s.cid = 0) (here : s.cur ∈ ms)
    (h : (s.modTile s.cur fun x => { x with fuse := some mask }).wrote { u with fate := .done } n 1 d 0) :
    let t := { (u.gangs leader pc ms).setCtx { u.ctx with npc := pc } with fate := .done }
    t.now = n ∧ t.mem = s.mem ∧ s.ctx.gives d 0 t.ctx ∧ (∀ m ∈ ms, (t.tile m).gang = some leader ∧ (t.tile m).fuse = none) ∧
      t.ctx.npc = pc ∧ ∀ m ∈ ms, m ≠ s.cur → (t.ctxAt m 0).pc = pc := by
  intro t
  have cur : u.cur = s.cur := (wrote_cur h :)
  have ctx : t.ctx = { u.ctx with npc := pc } := (setCtx_ctx (u.gangs leader pc ms) { u.ctx with npc := pc } :)
  have own : (s.modTile s.cur fun x => { x with fuse := some mask }).ctx = s.ctx := modTile_ctx s.cur rfl
  refine ⟨(gangs_now ..).trans (wrote_now h :), (gangs_mem ..).trans (wrote_mem h :), ?_, fun m hm => ?_, ?_, fun m hm away => ?_⟩
  · have gives : _ := wrote_gives h
    rw [own] at gives
    rw [ctx]
    exact gives
  · have members := gangs_tile leader pc u ms m
    rw [if_pos hm] at members
    obtain ⟨gang, fuse⟩ := Prod.mk.inj members
    have tile : t.tile m = _ := tile_setCtx (u.gangs leader pc ms) { u.ctx with npc := pc } m
    rw [tile]
    split <;> exact ⟨gang, fuse⟩
  · rw [ctx]
  · have kept : t.ctxAt m 0 = (u.gangs leader pc ms).ctxAt m 0 :=
      (setCtxAt_ctxAt (u.gangs leader pc ms) _ _ _ m 0).trans (if_neg fun same => away (by rw [same.1, gangs_cur, cur]))
    rw [kept, gangs_pc _ _ _ _ _ (by rwa [cur]), if_pos hm]

/-- Settles O38: GFUSE by what it finds of its mask, and by whether a member has yet to ask. -/
theorem gangs : Obligations.Gangs := by
  unfold Obligations.Gangs
  intro f s hc has can mask n x base members asking bad ganged clash
  refine ⟨gfuse_bad hc can, gfuse_ganged hc can, gfuse_clash hc can, fun stands => ⟨gfuse_waits hc can stands, ?_⟩, ?_⟩
  · intro leader rest order here asked
    obtain ⟨u, wrote, next⟩ := gfuse_forms hc can stands order asked
    obtain ⟨now, mem, gives, joined, npc, pcs⟩ := formed_effects hc (ms := members) here wrote
    exact ⟨_, next, rfl, by rw [← order]; exact ⟨now, mem, gives, joined, npc, pcs⟩⟩
  · refine finish_issued ?_
    refine (bind_goes (notHelper_control _ hc)).trans ?_
    exact modT_run _ _

end Sys2Proof.Machine
end

section
set_option Elab.async false
/-! Helpers (R296): a start in a tile whose contexts do not stand in order. -/
namespace Sys2Proof.Machine

/-- A tile that lists its control context after eleven entries of a helper: a look-up of context 0 stops at the first of them, and to set context 0
again puts a second control context into the image. -/
def disordered : State := State.reset.modTile 0 fun x => { x with ctxs := List.replicate 11 (5, Ctx.reset) ++ [(0, Ctx.reset)] }

/-- HSTART with entry and argument s0, into s3. -/
def startAtZero : CF := ⟨false, 3, 0, 0, 0⟩

/-- The image has room for a helper before the release, and none after it. -/
theorem disordered_refused : ∃ t, exec (.hstart startAtZero) disordered = .next t ∧ t.ctx.sreg 3 = 0 := by
  refine ⟨_, rfl, ?_⟩
  decide +kernel

/-- Refutes O36: the release of HSTART writes the control context back, and in a tile whose contexts do not rise the image then holds it twice and has no
room; HSTART gives 0 where the statement has a helper start. -/
theorem not_helpers : ¬ Obligations.Helpers := by
  unfold Obligations.Helpers
  intro h
  obtain ⟨-, start, -⟩ := h
  obtain ⟨-, -, starts⟩ := start startAtZero disordered rfl (by decide +kernel) (by decide +kernel)
  obtain ⟨t, next, -, -, -, -, gives, -⟩ := (starts (by decide +kernel) (by decide +kernel) (by decide +kernel)).2 1 (by decide +kernel) (by decide) (by decide)
    (by decide +kernel) (fun j h1 h2 => absurd h2 (Nat.not_lt.2 h1))
  obtain ⟨u, next', zero⟩ := disordered_refused
  obtain rfl : t = u := by injection next.symm.trans next'
  have one := gives 3
  rw [zero] at one
  exact absurd one (by decide)

end Sys2Proof.Machine
end

section
set_option Elab.async false
/-! Tasks: TASKQ in both forms, and the start of a task (R301, R302, R335). -/
namespace Sys2Proof.Machine

/-! ## Loads within one line of the array -/

/-- Bytes va to va + n - 1 are in line l of the tile's array, and nothing keeps the context from reading them there. -/
structure State.Hits (s : State) (va n : Nat) (l : Line) : Prop where
  within : va % 128 + n ≤ 128
  answered : s.answered = true
  effects : s.ctx.effects = []
  line : (s.tile s.cur).line (va / 128) s.ctx.asid = some l
  valid : spanWords (va % 128) n &&& ~~~l.valid = 0
  readable : l.perm.getLsbD 0 = true

section
variable {s : State} {va n : Nat} {l : Line}

theorem cached_hits {p : Word} (h : s.cached p n l) : s.Hits (addrOf p) n l := by
  obtain ⟨-, within, answered, effects, line, valid, readable⟩ := h
  exact ⟨within, answered, effects, line, valid, readable⟩

/-- A mask within another. -/
theorem mask_within {a b : WordMask} : a &&& ~~~b = 0 ↔ ∀ i < 32, a.getLsbD i = true → b.getLsbD i = true := by
  have bit (i : Nat) (hi : i < 32) : (a &&& ~~~b).getLsbD i = (a.getLsbD i && !b.getLsbD i) := by
    rw [BitVec.getLsbD_and, BitVec.getLsbD_not, decide_eq_true hi, Bool.true_and]
  constructor
  · intro h i hi ha
    have none := bit i hi
    rw [h, ha, Bool.true_and] at none
    exact (Bool.not_eq_false' _).mp (none.symm.trans BitVec.getLsbD_zero)
  · intro h
    refine BitVec.eq_of_getLsbD_eq fun i hi => (bit i hi).trans ?_
    cases ha : a.getLsbD i with
    | false => exact BitVec.getLsbD_zero.symm
    | true =>
      rw [h i hi ha]
      exact BitVec.getLsbD_zero.symm

/-- A part of the bytes. -/
theorem State.Hits.part (h : s.Hits va n l) {a k : Nat} (hk : 0 < k) (ha : a + k ≤ n) : s.Hits (va + a) k l := by
  obtain ⟨within, answered, effects, line, valid, readable⟩ := h
  have same : (va + a) / 128 = va / 128 := by omega
  have off : (va + a) % 128 = va % 128 + a := by omega
  refine ⟨by omega, answered, effects, by rw [same]; exact line, ?_, readable⟩
  rw [off]
  refine mask_within.2 fun i hi bit => mask_within.1 valid i hi ?_
  have := (spanWords_getLsbD _ _ hi hk).1 bit
  exact (spanWords_getLsbD _ _ hi (by omega)).2 (by omega)

theorem State.Hits.touched (h : s.Hits va n l) : s.touchCtx.Hits va n l := by
  obtain ⟨within, answered, effects, line, valid, readable⟩ := h
  refine ⟨within, (touchCtx_answered s).trans answered, ?_, ?_, valid, readable⟩
  · rw [touchCtx_ctx]; exact effects
  · rw [touchCtx_cur, touchCtx_tile, if_pos rfl, touchCtx_ctx]; exact line

theorem used_tile (s : State) (l : Line) : (s.used l).tile s.cur = { s.tile s.cur with lines := l :: (s.tile s.cur).lines.filter fun m => m.gl ≠ l.gl } :=
  modTile_tile_same ..
theorem used_ctx (s : State) (l : Line) : (s.used l).ctx = s.ctx := (used_samePart s l).ctx

theorem State.Hits.used (h : s.Hits va n l) : (s.used l).Hits va n l := by
  obtain ⟨within, answered, effects, line, valid, readable⟩ := h
  refine ⟨within, ?_, by rw [used_ctx]; exact effects, ?_, valid, readable⟩
  · rw [← answered]
    simp only [State.answered, State.asks, used_ctx]
    have cur : (s.used l).cur = s.cur := rfl
    rw [cur, used_tile]
    rfl
  · have cur : (s.used l).cur = s.cur := rfl
    have found := List.find?_some line
    rw [cur, used_tile, used_ctx, Tile.line]
    exact List.find?_cons_of_pos found

theorem State.Hits.load (h : s.Hits va n l) (hn : 0 < n) (val : Word) :
    loadNow val va n s = .ok (l.data.toNat / 2 ^ (8 * (va % 128)) % 2 ^ (8 * n), s.used l) := by
  obtain ⟨within, answered, effects, line, valid, readable⟩ := h
  exact loadNow_of_loadGlobal (loadGlobal_line val hn within ((answered_iff s).1 answered).2 (loadLine_hit val answered effects line valid readable))

theorem used_used (s : State) (l : Line) : (s.used l).used l = s.used l := by
  refine (modTile_modTile ..).trans ?_
  refine congrArg (s.setTile s.cur) ?_
  simp only [List.filter_cons, List.filter_filter, Bool.and_self, ne_eq, not_true_eq_false, decide_false, Bool.false_eq_true, if_false]

end

/-! ## The input set -/

/-- The sets that a record of count inputs holds. -/
def recordSets (l : Line) (r : Word) (count : Nat) : List (Word × BitVec 128) := (List.range count).map fun i =>
  (l.word r (3 * i + 1), BitVec.ofNat 128 ((l.word r (3 * i + 2)).toNat + (l.word r (3 * i + 3)).toNat * 2 ^ 64))

/-- An input that is not one of the tile's own slots, or names chunks past its size. -/
def State.badInput (s : State) (q : Word × BitVec 128) : Bool := !(s.handleOk q.1 && ((s.tile s.cur).slot (hSlot q.1)).covers q.2)

theorem used_badInput (s : State) (l : Line) (q : Word × BitVec 128) : (s.used l).badInput q = s.badInput q := by
  have cur : (s.used l).cur = s.cur := rfl
  simp only [State.badInput, State.handleOk, cur, used_tile]
  rfl
theorem touched_badInput (s : State) (q : Word × BitVec 128) : s.touchCtx.badInput q = s.badInput q := by
  simp only [State.badInput, State.handleOk, touchCtx_cur, touchCtx_tile, if_true]
  rfl

/-- Low bits of a quotient do not see a reduction above them. -/
theorem ofNat_mod_div {n k w : Nat} (h : k + w ≤ n) (x : Nat) : BitVec.ofNat w (x % 2 ^ n / 2 ^ k) = BitVec.ofNat w (x / 2 ^ k) := by
  refine BitVec.eq_of_getLsbD_eq fun j hj => ?_
  rw [BitVec.getLsbD_ofNat, BitVec.getLsbD_ofNat, Nat.testBit_div_two_pow, Nat.testBit_div_two_pow, Nat.testBit_mod_two_pow,
    decide_eq_true (p := j + k < n) (by omega), Bool.true_and]

theorem recordSets_eq (l : Line) (r : Word) (count : Nat) : ((List.range count).map fun i =>
    ((BitVec.ofNat 64 (l.data.toNat / 2 ^ (8 * (addrOf r % 128 + 8)) % 2 ^ (8 * (24 * count)) / 2 ^ (192 * i)) : Word),
      BitVec.ofNat 128 (l.data.toNat / 2 ^ (8 * (addrOf r % 128 + 8)) % 2 ^ (8 * (24 * count)) / 2 ^ (192 * i + 64)))) = recordSets l r count := by
  refine List.map_congr_left fun i hi => ?_
  have hi := List.mem_range.1 hi
  rw [ofNat_mod_div (by omega), ofNat_mod_div (by omega), Nat.div_div_eq_div_mul, Nat.div_div_eq_div_mul, ← Nat.pow_add, ← Nat.pow_add]
  refine Prod.ext ?_ ?_
  · exact congrArg (fun e => BitVec.ofNat 64 (l.data.toNat / 2 ^ e)) (by omega)
  · have low : 8 * (addrOf r % 128 + 8) + (192 * i + 64) = 8 * (addrOf r % 128) + 64 * (3 * i + 2) := by omega
    have high : 8 * (addrOf r % 128) + 64 * (3 * i + 3) = 8 * (addrOf r % 128) + 64 * (3 * i + 2) + 64 := by omega
    refine BitVec.eq_of_toNat_eq ?_
    dsimp only
    rw [low, Line.word, Line.word, high, BitVec.toNat_ofNat, BitVec.toNat_ofNat, BitVec.toNat_ofNat, BitVec.toNat_ofNat, Nat.pow_add _ (_ + _) 64,
      ← Nat.div_div_eq_div_mul]
    generalize l.data.toNat / 2 ^ (8 * (addrOf r % 128) + 64 * (3 * i + 2)) = y
    omega

section
variable {s : State} {r : Word} {l : Line} (space : spaceOf r = 0) (al : addrOf r % 8 = 0)
include space al

/-- A record with more inputs than four. -/
theorem inputSet_many (h : s.Hits (addrOf r) 8 l) (many : 4 < (l.word r 0).toNat % 8) : inputSet r s = .ok (.error (Config.badSetVal r), s.used l) := by
  have count : l.data.toNat / 2 ^ (8 * (addrOf r % 128)) % 2 ^ (8 * 8) = (l.word r 0).toNat := by rw [Line.word, BitVec.toNat_ofNat]; rfl
  refine (bind_goes (s := s) (t := s) (a := ()) (by rw [decide_eq_true space]; rfl)).trans ?_
  refine (bind_goes (t := s) (a := ()) (by rw [decide_eq_true al]; rfl)).trans ((bind_goes (h.load (by decide) r)).trans ?_)
  rw [count]
  exact congrFun (if_pos many) _

theorem inputSet_run (h : s.Hits (addrOf r) (8 + 24 * ((l.word r 0).toNat % 8)) l) (few : (l.word r 0).toNat % 8 ≤ 4) :
    inputSet r s = .ok (((recordSets l r ((l.word r 0).toNat % 8)).find? s.badInput).elim (.ok (recordSets l r ((l.word r 0).toNat % 8))) fun q => .error q.1, s.used l) := by
  have count : l.data.toNat / 2 ^ (8 * (addrOf r % 128)) % 2 ^ (8 * 8) = (l.word r 0).toNat := by rw [Line.word, BitVec.toNat_ofNat]; rfl
  have first : s.Hits (addrOf r) 8 l := h.part (a := 0) (by decide) (by omega)
  refine (bind_goes (s := s) (t := s) (a := ()) (by rw [decide_eq_true space]; rfl)).trans ?_
  refine (bind_goes (t := s) (a := ()) (by rw [decide_eq_true al]; rfl)).trans ((bind_goes (first.load (by decide) r)).trans ?_)
  rw [count]
  refine (congrFun (if_neg (Nat.not_lt.2 few)) _).trans ((bind_goes (get_run _)).trans ?_)
  have small : addrOf r < 2 ^ 52 := BitVec.isLt _
  have within := h.within
  refine (congrFun (if_neg (by omega)) _).trans ?_
  have bad : (fun q : Word × BitVec 128 => !((s.used l).handleOk q.1 && (((s.used l).tile (s.used l).cur).slot (hSlot q.1)).covers q.2)) = s.badInput :=
    funext fun q => used_badInput s l q
  by_cases none : (l.word r 0).toNat % 8 = 0
  · refine (congrFun (if_pos none) _).trans ?_
    rw [none]
    rfl
  · have rest := ((h.part (a := 8) (k := 24 * ((l.word r 0).toNat % 8)) (by omega) (by omega)).used).load (by omega) r
    have off : (addrOf r + 8) % 128 = addrOf r % 128 + 8 := by omega
    refine (congrFun (if_neg none) _).trans ((bind_goes rest).trans ?_)
    rw [used_used, off]
    dsimp only
    rw [recordSets_eq, bad]
    cases (recordSets l r ((l.word r 0).toNat % 8)).find? s.badInput <;> rfl

end

/-! ## TASKQ -/

theorem entryOk_run {p : Word} (space : spaceOf p = 0) (al : addrOf p % 8 = 0) (s : State) : entryOk p s = .ok ((), s) := by
  simp only [entryOk, bind_run, space, al, decide_true, need_true]

/-- What the pair form does with an input set. -/
def taskThen (f : CF) (p r : Word) : Except Word (List (Word × BitVec 128)) → M Unit
  | .error _ => ws f.d 2
  | .ok sets => do
    let x ← getT
    if gateSize ≤ x.gate.length then ws f.d 1
    else
      queueTask p r sets (bits f.p5 0 3 : BitVec 3).toNat (bits f.p5 3 2 : BitVec 2).toNat
      ws f.d 0

/-- What the lone form does with an input set. -/
def taskLoneThen (g : LF) (p r : Word) : Except Word (List (Word × BitVec 128)) → M Unit
  | .error v => trap cBADHANDLE v
  | .ok sets => do
    let x ← getT
    if gateSize ≤ x.gate.length then wait
    queueTask p r sets (bits g.f0 0 4 : BitVec 4).toNat (bits g.f0 4 2 : BitVec 2).toNat

/-- The task that a part queues. -/
def State.taskOf (s : State) (p r : Word) (sets : List (Word × BitVec 128)) (banks prio : Nat) : Task :=
  ⟨p, r, sets, banks, prio, BitVec.ofNat 49 (s.ctx.upc.toNat / 8)⟩

/-- A tile whose gate holds one more task. -/
def State.gated (s : State) (k : Task) : State := s.modTile s.cur fun x => { x with gate := x.gate ++ [k] }

/-- What TASKQ needs of its control context and its entry. -/
structure Queues (a b : BitVec 5) (s : State) : Prop where
  control : s.cid = 0
  releasable : s.releasable = true
  readsEntry : s.ctx.readable a = true
  readsRecord : s.ctx.readable b = true
  space : spaceOf (s.ctx.sreg a) = 0
  aligned : addrOf (s.ctx.sreg a) % 8 = 0

section
variable {f : CF} {g : LF} {s u : State} {res : Except Word (List (Word × BitVec 128))}

theorem Queues.pair (q : Queues f.a f.b s) (h : inputSet (s.ctx.sreg f.b) (s.asking (s.issueCycle [f.a, f.b])) = .ok (res, u)) :
    ∃ m, exec (.taskq f) s = finish m s ∧ m s = taskThen f (s.ctx.sreg f.a) (s.ctx.sreg f.b) res u := by
  have second : rs f.b { s with now := s.issueCycle [f.a] } = .ok (s.ctx.sreg f.b, { s with now := s.issueCycle [f.a, f.b] }) := rs_now q.readsRecord
  have release : release { s with now := s.issueCycle [f.a, f.b] } = .ok ((), s.asking (s.issueCycle [f.a, f.b])) := release_run q.releasable
  refine ⟨_, rfl, (bind_goes (notHelper_control _ q.control)).trans ((bind_goes (rs_cycle q.readsEntry)).trans ((bind_goes second).trans ?_))⟩
  refine (bind_goes (entryOk_run q.space q.aligned _)).trans ((bind_goes release).trans ((bind_goes h).trans ?_))
  cases res <;> rfl
theorem Queues.lone (q : Queues g.ra g.rb s) (h : inputSet (s.ctx.sreg g.rb) (s.asking (s.issueCycle [g.ra, g.rb])) = .ok (res, u)) :
    ∃ m, exec (.taskqLone g) s = finish m s ∧ m s = taskLoneThen g (s.ctx.sreg g.ra) (s.ctx.sreg g.rb) res u := by
  have second : rs g.rb { s with now := s.issueCycle [g.ra] } = .ok (s.ctx.sreg g.rb, { s with now := s.issueCycle [g.ra, g.rb] }) := rs_now q.readsRecord
  have release : release { s with now := s.issueCycle [g.ra, g.rb] } = .ok ((), s.asking (s.issueCycle [g.ra, g.rb])) := release_run q.releasable
  refine ⟨_, rfl, (bind_goes (notHelper_control _ q.control)).trans ((bind_goes (rs_cycle q.readsEntry)).trans ((bind_goes second).trans ?_))⟩
  refine (bind_goes (entryOk_run q.space q.aligned _)).trans ((bind_goes release).trans ((bind_goes h).trans ?_))
  cases res <;> rfl

end

/-! ## What becomes of an input set -/

section
variable {f : CF} {g : LF} {s : State} {l : Line} {sets : List (Word × BitVec 128)}

/-- A bad input set. -/
theorem Queues.refused {v : Word} (q : Queues f.a f.b s) (can : s.ctx.pendingReg f.d = false)
    (h : inputSet (s.ctx.sreg f.b) (s.asking (s.issueCycle [f.a, f.b])) = .ok (.error v, (s.asking (s.issueCycle [f.a, f.b])).used l)) :
    ∃ t, exec (.taskq f) s = .next t ∧ (s.used l).wrote t (s.issueCycle [f.a, f.b]) 1 f.d 2 := by
  obtain ⟨m, e, run⟩ := q.pair h
  have touched : (s.asking (s.issueCycle [f.a, f.b])).used l = { (s.used l).touchCtx with now := s.issueCycle [f.a, f.b] } :=
    used_touched { s with now := s.issueCycle [f.a, f.b] } l
  rw [touched] at run
  rw [e]
  obtain ⟨t, next, wrote⟩ := finish_wsLat run (by rw [touchCtx_ctx, used_ctx]; exact can)
  exact ⟨t, next, wrote_touched wrote⟩
theorem Queues.traps {v : Word} (q : Queues g.ra g.rb s) {u : State}
    (h : inputSet (s.ctx.sreg g.rb) (s.asking (s.issueCycle [g.ra, g.rb])) = .ok (.error v, u)) : s.traps (.taskqLone g) cBADHANDLE v := by
  obtain ⟨m, e, run⟩ := q.lone h
  rw [State.traps, e]
  exact finish_trap run

theorem gated_touched (e : State) (k : Task) : e.touchCtx.gated k = (e.gated k).touchCtx := by
  have own : (e.gated k).ctx = e.ctx := modTile_ctx e.cur rfl
  rw [State.touchCtx, State.touchCtx, own]
  exact modTile_setCtx e.ctx fun _ _ _ => rfl

/-- The state with the record's line used, in which the gate is looked at. -/
theorem used_asking (s : State) (l : Line) (n : Nat) : (s.asking n).used l = { (s.used l).touchCtx with now := n } := used_touched { s with now := n } l
theorem used_gate (s : State) (l : Line) (n : Nat) : (((s.asking n).used l).tile s.cur).gate = (s.tile s.cur).gate := by
  have cur : (s.asking n).cur = s.cur := rfl
  rw [← cur, used_tile, cur]
  exact (congrArg Tile.gate ((touchCtx_tile { s with now := n } s.cur).trans (if_pos rfl)) :)

/-- A task enters the gate. -/
theorem queueTask_run (s : State) (l : Line) (n : Nat) (p r : Word) (sets : List (Word × BitVec 128)) (banks prio : Nat) :
    queueTask p r sets banks prio ((s.asking n).used l) = .ok ((), { ((s.used l).gated (s.taskOf p r sets banks prio)).touchCtx with now := n }) := by
  have own : ((s.asking n).used l).ctx = s.ctx := (used_ctx ..).trans (touchCtx_ctx { s with now := n })
  refine (bind_goes (getC_run _)).trans ((modT_run _ _).trans ?_)
  rw [own, unitAddr_eq, used_asking, ← gated_touched]
  rfl

section
variable (q : Queues f.a f.b s) (can : s.ctx.pendingReg f.d = false)
  (h : inputSet (s.ctx.sreg f.b) (s.asking (s.issueCycle [f.a, f.b])) = .ok (.ok sets, (s.asking (s.issueCycle [f.a, f.b])).used l))
include q can h

theorem Queues.full (full : 16 ≤ (s.tile s.cur).gate.length) :
    ∃ t, exec (.taskq f) s = .next t ∧ (s.used l).wrote t (s.issueCycle [f.a, f.b]) 1 f.d 1 := by
  obtain ⟨m, e, run⟩ := q.pair h
  have held : gateSize ≤ (((s.asking (s.issueCycle [f.a, f.b])).used l).tile s.cur).gate.length := by rw [used_gate]; exact full
  have ran := run.trans ((bind_goes (getT_run _)).trans (congrFun (if_pos held) _))
  rw [used_asking] at ran
  rw [e]
  obtain ⟨t, next, wrote⟩ := finish_wsLat ran (by rw [touchCtx_ctx, used_ctx]; exact can)
  exact ⟨t, next, wrote_touched wrote⟩
theorem Queues.room (room : (s.tile s.cur).gate.length < 16) : ∃ t, exec (.taskq f) s = .next t ∧
    ((s.used l).gated (s.taskOf (s.ctx.sreg f.a) (s.ctx.sreg f.b) sets (f.p5.toNat % 8) (f.p5.toNat / 8))).wrote t (s.issueCycle [f.a, f.b]) 1 f.d 0 := by
  obtain ⟨m, e, run⟩ := q.pair h
  have held : ¬ gateSize ≤ (((s.asking (s.issueCycle [f.a, f.b])).used l).tile s.cur).gate.length := by rw [used_gate]; exact Nat.not_le.2 room
  have banks : (bits f.p5 0 3).toNat = f.p5.toNat % 8 := by rw [bits_toNat]; omega
  have prio : (bits f.p5 3 2).toNat = f.p5.toNat / 8 := by rw [bits_toNat]; omega
  have ran := run.trans ((bind_goes (getT_run _)).trans ((congrFun (if_neg held) _).trans (bind_goes (queueTask_run ..))))
  rw [banks, prio] at ran
  rw [e]
  obtain ⟨t, next, wrote⟩ := finish_wsLat ran (by
    rw [touchCtx_ctx]
    exact (congrArg (fun k : Ctx => k.pendingReg f.d) ((modTile_ctx _ rfl).trans (used_ctx ..))).trans can)
  exact ⟨t, next, wrote_touched wrote⟩

end

section
variable (q : Queues g.ra g.rb s)
  (h : inputSet (s.ctx.sreg g.rb) (s.asking (s.issueCycle [g.ra, g.rb])) = .ok (.ok sets, (s.asking (s.issueCycle [g.ra, g.rb])).used l))
include q h

theorem Queues.waits (full : 16 ≤ (s.tile s.cur).gate.length) : s.waits (.taskqLone g) := by
  obtain ⟨m, e, run⟩ := q.lone h
  have held : gateSize ≤ (((s.asking (s.issueCycle [g.ra, g.rb])).used l).tile s.cur).gate.length := by rw [used_gate]; exact full
  rw [State.waits, e]
  exact finish_wait (run.trans ((bind_goes (getT_run _)).trans (congrFun (if_pos held) _)))
theorem Queues.issues (room : (s.tile s.cur).gate.length < 16) : ∃ t, exec (.taskqLone g) s = .next t ∧
    ((s.used l).gated (s.taskOf (s.ctx.sreg g.ra) (s.ctx.sreg g.rb) sets (g.f0.toNat % 16) (g.f0.toNat / 16 % 4))).issued t (s.issueCycle [g.ra, g.rb]) := by
  obtain ⟨m, e, run⟩ := q.lone h
  have held : ¬ gateSize ≤ (((s.asking (s.issueCycle [g.ra, g.rb])).used l).tile s.cur).gate.length := by rw [used_gate]; exact Nat.not_le.2 room
  have banks : (bits g.f0 0 4).toNat = g.f0.toNat % 16 := by rw [bits_toNat]; omega
  have prio : (bits g.f0 4 2).toNat = g.f0.toNat / 16 % 4 := by rw [bits_toNat]; rfl
  have ran := run.trans ((bind_goes (getT_run _)).trans ((congrFun (if_neg held) _).trans (queueTask_run ..)))
  rw [banks, prio] at ran
  rw [e]
  exact ⟨_, finish_ok ran, issued_touched ..⟩

end

end

/-! ## The start of a task -/

/-- The lowest CTXID that no context has. -/
theorem helperRoom_lowest {x : Tile} {banks c : Nat} (room : ¬ (8 < x.banksHeld + banks ∨ storeBytes x.pinLimit < x.imageBytes + acbBytes 1 banks))
    (low : 1 ≤ c) (high : c ≤ 10) (free : mhas x.ctxs c = false) (lower : ∀ j, 1 ≤ j → j < c → mhas x.ctxs j = true) : x.helperRoom banks = some c := by
  refine (if_neg (by rwa [Bool.or_eq_true, decide_eq_true_eq, decide_eq_true_eq])).trans ?_
  rw [List.find?_eq_some_iff_getElem]
  refine ⟨by rw [free]; rfl, c - 1, by simp; omega, ?_, fun j hj => ?_⟩
  · rw [List.getElem_map, List.getElem_range]
    omega
  · rw [List.getElem_map, List.getElem_range, lower (j + 1) (by omega) (by omega)]
    rfl

section
variable {s : State} {t c : Nat} {k : Task}

/-- The only task of a gate is next once its chunks have landed. -/
theorem nextTask_only (gate : (s.tile t).gate = [k]) (landed : ∀ i ∈ k.inputs, ((s.tile t).slot (hSlot i.1)).chunks &&& i.2 = i.2) :
    s.nextTask t = some k := by
  have all : (k.inputs.all fun i => s.landed t i.1 i.2) = true := List.all_eq_true.2 fun i hi => decide_eq_true (landed i hi)
  rw [State.nextTask, gate]
  simp only [List.filter_cons, all, if_true, List.filter_nil]
  rfl

/-- The state in which task k has started as helper c. -/
def State.taskStarted (s : State) (t c : Nat) (k : Task) : State :=
  ((s.modTile t fun x => { x with gate := x.gate.erase k }).startHelper t c k.entry k.record k.banks k.prio).modCtxAt t c fun h =>
    { h with startFrom := s.now + 2 }

theorem startTask_starts (placed : mhas (s.tile t).ctxs 0 = true) (unfenced : (s.tile t).fenced = false)
    (awake : (s.tile t).quiet = none) (from' : (s.tile t).gateFrom ≤ s.now) (next : s.nextTask t = some k) (room : (s.tile t).helperRoom k.banks = some c) :
    s.startTask t = s.taskStarted t c k := by
  have may : ¬ (!mhas (s.tile t).ctxs 0 || (s.tile t).fenced || (s.tile t).quiet.isSome || decide (s.now < (s.tile t).gateFrom)) = true := by
    rw [placed, unfenced, awake, decide_eq_false (Nat.not_lt.2 from')]
    decide
  rw [State.startTask, if_neg may, next]
  dsimp only
  rw [room]
  rfl

/-- The helper's context as it starts. -/
theorem taskStarted_ctx (s : State) (t c : Nat) (k : Task) : (s.taskStarted t c k).ctxAt t c =
    { (s.tile t).newHelper k.entry k.record k.banks k.prio with birth := s.heldIds + 1, startFrom := s.now + 2 } := by
  rw [State.taskStarted, State.modCtxAt, setCtxAt_ctxAt_same, State.startHelper, State.ctxAt, modTile_tile_same, Tile.ctx, mget_mset_same]
  have tile : ({ s.modTile t fun x => { x with gate := x.gate.erase k } with heldIds := s.heldIds + 1 } : State).tile t =
      { s.tile t with gate := (s.tile t).gate.erase k } := modTile_tile_same s t fun x => { x with gate := x.gate.erase k }
  refine Eq.trans ?_ (rfl : ({ ({ s.tile t with gate := (s.tile t).gate.erase k } : Tile).newHelper k.entry k.record k.banks k.prio with
    birth := s.heldIds + 1, startFrom := s.now + 2 } : Ctx) = _)
  rw [← tile]
  rfl
theorem taskStarted_tile (s : State) (t c : Nat) (k : Task) : ((s.taskStarted t c k).tile t).gate = (s.tile t).gate.erase k ∧
    ((s.taskStarted t c k).tile t).lines = (s.tile t).lines := by
  have tile : ({ s.modTile t fun x => { x with gate := x.gate.erase k } with heldIds := s.heldIds + 1 } : State).tile t =
      { s.tile t with gate := (s.tile t).gate.erase k } := modTile_tile_same s t fun x => { x with gate := x.gate.erase k }
  have outer : (s.taskStarted t c k).tile t = (((s.modTile t fun x => { x with gate := x.gate.erase k }).startHelper t c k.entry k.record k.banks k.prio).tile
    t).setCtx c _ := modTile_tile_same ..
  rw [outer, State.startHelper, modTile_tile_same]
  exact ⟨(congrArg Tile.gate tile :), (congrArg Tile.lines tile :)⟩

end

/-- Settles O37: TASKQ by what its record says and by the gate's room; the gate's only task starts under the lowest free CTXID. -/
theorem tasks : Obligations.Tasks := by
  unfold Obligations.Tasks
  refine ⟨?_, ?_⟩
  · intro f g s l hc rel can p r n x e count sets good task queued ha hb space al alr
    obtain ⟨readA, can⟩ := canRun_cons can
    obtain ⟨readB, can⟩ := canRun_cons can
    have pend := canRun_nil can
    have pair : Queues f.a f.b s := ⟨hc, rel, readA, readB, space, al⟩
    have lone : Queues g.ra g.rb s := by rw [ha, hb]; exact pair
    have asking {n : Nat} (h : s.Hits (addrOf r) n l) : (s.asking (s.issueCycle [f.a, f.b])).Hits (addrOf r) n l := by
      obtain ⟨within, answered, effects, line, valid, readable⟩ := h.touched
      exact ⟨within, answered, effects, line, valid, readable⟩
    have same {res} (h : inputSet r (s.asking (s.issueCycle [f.a, f.b])) = res) : inputSet (s.ctx.sreg g.rb) (s.asking (s.issueCycle [g.ra, g.rb])) = res := by
      rw [ha, hb]
      exact h
    refine ⟨fun many hit => ?_, fun few hit => ?_⟩
    · have input := inputSet_many hit.1 alr (asking (cached_hits hit)) many
      exact ⟨pair.refused pend input, lone.traps (same input)⟩
    have input := inputSet_run hit.1 alr (asking (cached_hits hit)) few
    have bad (q : Word × BitVec 128) : (s.asking (s.issueCycle [f.a, f.b])).badInput q = true ↔ ¬ good q := by
      refine (congrArg (· = true) (touched_badInput { s with now := s.issueCycle [f.a, f.b] } q)).to_iff.trans ?_
      simp only [State.badInput, Bool.not_eq_true', Slot.covers, ← Bool.not_eq_true, Bool.and_eq_true, decide_eq_true_eq]
      rfl
    refine ⟨fun front q rest order clean wrong => ?_, fun clean => ?_⟩
    · have first : (recordSets l r count).find? (s.asking (s.issueCycle [f.a, f.b])).badInput = some q := by
        have split : recordSets l r count = front ++ q :: rest := order
        have none : front.find? (s.asking (s.issueCycle [f.a, f.b])).badInput = none :=
          List.find?_eq_none.2 fun o ho h => (bad o).1 h (clean o ho)
        rw [split, List.find?_append, none, List.find?_cons_of_pos ((bad q).2 wrong)]
        rfl
      rw [first] at input
      exact ⟨pair.refused pend input, lone.traps (same input)⟩
    · have none : (recordSets l r count).find? (s.asking (s.issueCycle [f.a, f.b])).badInput = none :=
        List.find?_eq_none.2 fun o ho h => (bad o).1 h (clean o ho)
      rw [none] at input
      refine ⟨fun full => ⟨pair.full pend input full, ?_⟩, fun room => ⟨pair.room pend input room, ?_⟩⟩
      · exact lone.waits (l := l) (by rw [ha, hb]; exact input) full
      · have issues := lone.issues (l := l) (by rw [ha, hb]; exact input) room
        rw [ha, hb] at issues
        exact issues
  · intro s t c k x gate placed unfenced awake from' landed room low high free lower
    have starts := startTask_starts placed unfenced awake from' (nextTask_only gate landed) (helperRoom_lowest room low high free lower)
    obtain ⟨gates, lines⟩ := taskStarted_tile s t c k
    refine ⟨{ s.taskStarted t c k with fate := .done }, ⟨by rw [← starts]; rfl, rfl, rfl, rfl, rfl, rfl, rfl⟩, rfl, rfl, ?_, lines, ?_⟩
    · refine gates.trans ?_
      rw [show (s.tile t).gate = [k] from gate, List.erase_cons_head]
    · have ctx : ({ s.taskStarted t c k with fate := .done } : State).ctxAt t c = _ := taskStarted_ctx s t c k
      rw [ctx]
      exact ⟨rfl, rfl, rfl, rfl, rfl⟩

end Sys2Proof.Machine
end


section
set_option Elab.async false
/-! The canonical form of memory (SPEC: `Memory.wf`), as a predicate on states, on what a meaning leaves and on outcomes; how it passes through sequences. -/
namespace Sys2Proof.Machine

/-- The state's memory is in its canonical form. -/
abbrev State.formed (s : State) : Prop := Memory.wf s.mem = true

/-- What a stopped meaning leaves is in canonical form. -/
def Stop.formed : Stop → Prop
  | .trapWith _ _ s | .trapLong _ _ _ s | .waitWith s => s.formed
  | _ => True

/-- So is what a meaning leaves. -/
def resultFormed : Except Stop (α × State) → Prop
  | .ok (_, s) => s.formed
  | .error e => e.formed

/-- So is the next state of an outcome. -/
def outFormed : Out → Prop
  | .next s => s.formed
  | _ => True

/-- A meaning keeps the canonical form, whether it completes or stops. -/
def KeepsForm (m : M α) : Prop := ∀ s, s.formed → resultFormed (m s)

/-! ## Meanings in sequence -/

theorem KeepsForm.bind {x : M α} {f : α → M β} (hx : KeepsForm x) (hf : ∀ a, KeepsForm (f a)) : KeepsForm (x >>= f) := by
  intro s hs
  rw [bind_run]
  have := hx s hs
  cases h : x s with
  | error e => rw [h] at this; exact this
  | ok r => rw [h] at this; exact hf _ _ this
theorem KeepsForm.get_bind {f : State → M β} (hf : ∀ s, s.formed → KeepsForm (f s)) : KeepsForm (get >>= f) :=
  fun s hs => hf s hs s hs
theorem KeepsForm.unless {c : Prop} [Decidable c] {x : M PUnit} {f : PUnit → M α} (hx : KeepsForm x) (hf : ∀ a, KeepsForm (f a)) :
    KeepsForm (if c then x >>= f else f ⟨⟩) := by
  split
  · exact hx.bind hf
  · exact hf _
theorem KeepsForm.pure (a : α) : KeepsForm (Pure.pure a : M α) := fun _ h => h
theorem set_keepsForm {t : State} (h : t.formed) : KeepsForm (set t : M PUnit) := fun _ _ => h
theorem upd_keepsForm {f : State → State} (h : ∀ s, s.formed → (f s).formed) : KeepsForm (upd f) := h

/-! ## Sequences of changes -/

theorem foldl_formed {f : State → α → State} (hf : ∀ s a, s.formed → (f s a).formed) (l : List α) {s : State} (h : s.formed) :
    (l.foldl f s).formed := by
  induction l generalizing s with
  | nil => exact h
  | cons a l ih => exact ih (hf s a h)
theorem foldl_fst_formed {f : State × β → α → State × β} (hf : ∀ r a, r.1.formed → (f r a).1.formed) (l : List α) {r : State × β} (h : r.1.formed) :
    (l.foldl f r).1.formed := by
  induction l generalizing r with
  | nil => exact h
  | cons a l ih => exact ih (hf r a h)
theorem foldl_snd_formed {f : β × State → α → β × State} (hf : ∀ r a, r.2.formed → (f r a).2.formed) (l : List α) {r : β × State} (h : r.2.formed) :
    (l.foldl f r).2.formed := by
  induction l generalizing r with
  | nil => exact h
  | cons a l ih => exact ih (hf r a h)
theorem foldl_snd_snd_formed {f : β × γ × State → α → β × γ × State} (hf : ∀ r a, r.2.2.formed → (f r a).2.2.formed) (l : List α) {r : β × γ × State}
    (h : r.2.2.formed) : (l.foldl f r).2.2.formed := by
  induction l generalizing r with
  | nil => exact h
  | cons a l ih => exact ih (hf r a h)
theorem getD_formed {o : Option State} {d : State} (ho : ∀ z, o = some z → z.formed) (hd : d.formed) : (o.getD d).formed := by
  cases o
  · exact hd
  · exact ho _ rfl
theorem some_of_orElse {o : Option β} {f : Unit → Option β} {z : β} (h : o.orElse f = some z) : o = some z ∨ f () = some z := by
  cases o
  · exact .inr h
  · exact .inl h
theorem foldl_mid_formed {f : β × State × γ → α → β × State × γ} (hf : ∀ r a, r.2.1.formed → (f r a).2.1.formed) (l : List α) {r : β × State × γ}
    (h : r.2.1.formed) : (l.foldl f r).2.1.formed := by
  induction l generalizing r with
  | nil => exact h
  | cons a l ih => exact ih (hf r a h)
theorem foldlM_formed {f : State → α → Option State} (hf : ∀ s a z, s.formed → f s a = some z → z.formed) (l : List α) {s z : State} (h : s.formed)
    (e : l.foldlM f s = some z) : z.formed := by
  induction l generalizing s with
  | nil => cases e; exact h
  | cons a l ih =>
    rw [List.foldlM_cons, Option.bind_eq_bind, Option.bind_eq_some_iff] at e
    obtain ⟨t, ht, e⟩ := e
    exact ih (hf s a t h ht) e
theorem elim_formed {o : Option α} {d : State} {f : α → State} (hd : d.formed) (hf : ∀ a, (f a).formed) : (o.elim d f).formed := by
  cases o
  · exact hd
  · exact hf _
theorem KeepsForm.foldlM {f : β → α → M β} (hf : ∀ b a, KeepsForm (f b a)) (l : List α) (b : β) : KeepsForm (l.foldlM f b) := by
  induction l generalizing b with
  | nil => exact KeepsForm.pure b
  | cons a l ih => rw [List.foldlM_cons]; exact KeepsForm.bind (hf b a) ih

theorem KeepsForm.forM {f : α → M PUnit} (hf : ∀ a, KeepsForm (f a)) (l : List α) : KeepsForm (l.forM f) := by
  induction l with
  | nil => exact KeepsForm.pure (⟨⟩ : PUnit)
  | cons a l ih => exact KeepsForm.bind (hf a) fun _ => ih
theorem KeepsForm.mapM {f : α → M β} (hf : ∀ a, KeepsForm (f a)) (l : List α) : KeepsForm (l.mapM f) := by
  induction l with
  | nil => exact KeepsForm.pure []
  | cons a l ih => rw [List.mapM_cons]; exact KeepsForm.bind (hf a) fun _ => ih.bind fun _ => KeepsForm.pure _
theorem KeepsForm.filterMapM {f : α → M (Option β)} (hf : ∀ a, KeepsForm (f a)) (l : List α) : KeepsForm (l.filterMapM f) := by
  induction l with
  | nil => exact KeepsForm.pure []
  | cons a l ih =>
    rw [List.filterMapM_cons]
    refine KeepsForm.bind (hf a) fun b => ?_
    cases b
    · exact ih
    · exact ih.bind fun _ => KeepsForm.pure _

end Sys2Proof.Machine
end

section
set_option Elab.async false
/-! Every function of this part of the model keeps the canonical form of memory. Operations and the memory system. -/
namespace Sys2Proof.Machine

/-! ## The state's operations -/

theorem trap_keepsForm (code : BitVec 8) (val : Word) : KeepsForm (trap code val : M α) := fun _ _ => trivial
theorem trapKeep_keepsForm (code : BitVec 8) (val : Word) : KeepsForm (trapKeep code val : M α) := fun _ hs => hs
theorem wait_keepsForm : KeepsForm (wait : M α) := fun _ _ => trivial
theorem waitKeep_keepsForm : KeepsForm (waitKeep : M α) := fun _ hs => hs
theorem ask_keepsForm (f : State → α) : KeepsForm (ask f) := fun _ hs => hs
theorem need_keepsForm (ok : Bool) (code : BitVec 8) (val : Word) : KeepsForm (need ok code val) := by
  grind [need, trap_keepsForm, KeepsForm.pure]
theorem getC_keepsForm : KeepsForm getC := ask_keepsForm _
theorem modC_keepsForm (f : Ctx → Ctx) : KeepsForm (modC f) := fun _ hs => hs
theorem getT_keepsForm : KeepsForm getT := ask_keepsForm _
theorem modT_keepsForm (f : Tile → Tile) : KeepsForm (modT f) := fun _ hs => hs
theorem raise_keepsForm (f : BitVec 11) : KeepsForm (raise f) := by
  grind [raise, upd_keepsForm, setCtx_mem, KeepsForm.pure]
theorem modIssuer_formed {s : State} (a : Armer) (f : Ctx → Ctx) (hs : s.formed) : (s.modIssuer a f).formed := by
  unfold State.modIssuer
  grind [modCtxAt_mem]
theorem raiseIn_formed {s : State} (a : Armer) (f : BitVec 11) (hs : s.formed) : (s.raiseIn a f).formed := by
  unfold State.raiseIn
  grind [modIssuer_formed]
theorem armer_keepsForm : KeepsForm armer := by
  grind [armer, ask_keepsForm]
theorem dropDone_formed {s : State} (id : Nat) (hs : s.formed) : (s.dropDone id).formed := by
  unfold State.dropDone
  grind
theorem retireLoad_keepsForm : KeepsForm retireLoad := by
  grind [retireLoad, dropDone_formed, setCtx_mem, wait_keepsForm, upd_keepsForm, flashTile_mem, KeepsForm.bind, KeepsForm.get_bind, KeepsForm.pure,
      set_keepsForm, foldl_formed]
theorem retireLoads_keepsForm (n : Nat) : KeepsForm (retireLoads n) := by
  induction n with
  | zero => exact KeepsForm.pure ()
  | succ n ih => exact retireLoad_keepsForm.bind fun _ => ih
theorem rs_keepsForm (r : BitVec 5) : KeepsForm (rs r) := by
  grind [rs, getC_keepsForm, trap_keepsForm, upd_keepsForm, issueAt_mem, KeepsForm.bind, KeepsForm.pure]
theorem wsLat_keepsForm (lat : Nat) (r : BitVec 5) (v : Word) : KeepsForm (wsLat lat r v) := by
  grind [wsLat, getC_keepsForm, retireLoads_keepsForm, upd_keepsForm, setCtx_mem, KeepsForm.bind, KeepsForm.pure]
theorem ws_keepsForm (r : BitVec 5) (v : Word) : KeepsForm (ws r v) := by
  grind [ws, wsLat_keepsForm]
theorem padd_keepsForm (p : Word) (n : Int) (val : Word) : KeepsForm (padd p n val) := by
  grind [padd, trap_keepsForm, KeepsForm.pure]
theorem wake_formed {s : State} (t c : Nat) (hs : s.formed) : (s.wake t c).formed := by
  unfold State.wake
  grind [modCtxAt_mem]
theorem takeTrap_formed {s : State} (code : BitVec 8) (val : Word) (long : Option Nat) (hs : s.formed) : (s.takeTrap code val long).formed := by
  cases long <;> grind [State.takeTrap, setCtx_mem, modTile_mem, wake_formed]
theorem takeOuterTrap_formed {s : State} (t : Nat) (mx : Bool) (code : BitVec 8) (val : Word) (index : Option Nat) (hs : s.formed) : (s.takeOuterTrap t mx
    code val index).formed := by
  unfold State.takeOuterTrap
  grind [modTile_mem, setCtxAt_mem]
theorem settleStop_formed {s : State} {r : Except Stop (Unit × State)} (hs : s.formed) (hr : resultFormed r) : (settleStop s r).formed := by
  rcases r with (_ | _ | _ | _ | _) | ⟨_, t⟩ <;> grind [settleStop, resultFormed, Stop.formed, takeTrap_formed]
theorem finish_formed {m : M Unit} {s : State} (hm : KeepsForm m) (hs : s.formed) : outFormed (finish m s) := settleStop_formed hs (hm s hs)
theorem happen_formed {f : State → State} {s : State} (h : (f s).formed) : outFormed (happen f s) := h
theorem unitImage_keepsForm : KeepsForm unitImage := by
  grind [unitImage, ask_keepsForm]
theorem supervisor_keepsForm : KeepsForm supervisor := by
  grind [supervisor, getC_keepsForm, need_keepsForm, KeepsForm.bind, KeepsForm.pure]
theorem inHelper_keepsForm : KeepsForm inHelper := by
  grind [inHelper, ask_keepsForm]
theorem notHelper_keepsForm (group : Word) : KeepsForm (notHelper group) := by
  grind [notHelper, inHelper_keepsForm, trap_keepsForm, KeepsForm.bind, KeepsForm.pure]
theorem block_keepsForm (val : Word) : KeepsForm (block val : M α) := by
  grind [block, inHelper_keepsForm, trap_keepsForm, wait_keepsForm, KeepsForm.bind, KeepsForm.pure]

/-! ## Paths to a page -/

theorem modAllow_formed {s : State} (p n : Nat) (f : Allow → Allow) (hs : s.formed) : (s.modAllow p n f).formed := by
  unfold State.modAllow
  grind [modFabric_mem]
theorem chargePort_formed {s : State} (p port flits : Nat) (hs : s.formed) : (s.chargePort p port flits).formed := by
  unfold State.chargePort
  grind [modFabric_mem]
theorem charge_formed {s : State} (p n flits : Nat) (hs : s.formed) : (s.charge p n flits).formed := by
  unfold State.charge
  grind [chargePort_formed, foldl_formed, foldl_snd_formed]
theorem logEvent_formed {s : State} (p cls source data : Nat) (hs : s.formed) : (s.logEvent p cls source data).formed := by
  unfold State.logEvent
  grind [modMgmt_mem]
theorem transmit_formed {s : State} (p key : Nat) (o : SpanOwner) (n v : Nat) (hs : s.formed) : (s.transmit p key o n v).2.formed := by
  unfold State.transmit
  grind [modFabric_mem, logEvent_formed]
theorem deliverSpan_formed {s : State} (p key n v fuel : Nat) (hs : s.formed) : (s.deliverSpan p key n v fuel).2.formed := by
  induction fuel generalizing s with
  | zero => exact hs
  | succ fuel ih => grind [State.deliverSpan, transmit_formed]
theorem netSend_formed {s : State} (p q flits : Nat) (hs : s.formed) : (s.netSend p q flits).formed := by
  unfold State.netSend
  grind [modAllow_formed]
theorem netConsume_formed {s : State} (p q flits : Nat) (hs : s.formed) : (s.netConsume p q flits).formed := by
  unfold State.netConsume
  grind [modAllow_formed]
theorem netAllow_formed {s : State} (p q flits : Nat) (hs : s.formed) : (s.netAllow p q flits).formed := by
  unfold State.netAllow
  grind [netSend_formed, netConsume_formed]
theorem netPay_formed {s : State} (p q : Nat) (via : Option Nat) (flits : Nat) (hs : s.formed) : (s.netPay p q via flits).formed := by
  unfold State.netPay
  grind [charge_formed, netAllow_formed]
theorem crossLine_formed {s : State} (p q gl : Nat) (hs : s.formed) : (s.crossLine p q gl).formed := by
  unfold State.crossLine
  grind [deliverSpan_formed, netAllow_formed]

/-! ## The home of a line -/

theorem recallTile_formed {s : State} (t gl : Nat) (mask : WordMask) (inv : Bool) (hs : s.formed) : (s.recallTile t gl mask inv).formed := by
  unfold State.recallTile
  grind [modTile_mem, writeLine_wf]
theorem recallOwners_formed {s : State} (key gl : Nat) (mask : WordMask) (inv : Bool) (skip : Option Nat) (hs : s.formed) : (s.recallOwners key gl mask inv
    skip).formed := by
  unfold State.recallOwners
  grind [recallTile_formed, modDir_mem, foldl_formed]
theorem clearRemote_formed {s : State} (gl v : Nat) (write : Bool) (hs : s.formed) : (s.clearRemote gl v write).formed := by
  unfold State.clearRemote
  grind [crossLine_formed, modDir_mem, recallOwners_formed, foldl_formed]
theorem touchSlice_formed {s : State} (v gl : Nat) (hs : s.formed) : (s.touchSlice v gl).formed := by
  unfold State.touchSlice
  grind [modCluster_mem, recallOwners_formed, clearRemote_formed, modDir_mem, crossLine_formed]
theorem serveRead_formed {s : State} (t gl : Nat) (mask : WordMask) (hs : s.formed) : (s.serveRead t gl mask).formed := by
  unfold State.serveRead
  grind [clearRemote_formed, recallOwners_formed, touchSlice_formed, modDir_mem]
theorem addOwner_formed {s : State} (key gl t : Nat) (mask : WordMask) (hs : s.formed) : (s.addOwner key gl t mask).formed := by
  unfold State.addOwner
  grind [modDir_mem, recallTile_formed]
theorem serveRegister_formed {s : State} (t gl : Nat) (mask : WordMask) (hs : s.formed) : (s.serveRegister t gl mask).formed := by
  unfold State.serveRegister
  grind [clearRemote_formed, recallOwners_formed, modDir_mem, addOwner_formed, touchSlice_formed]
theorem clearOwner_formed {s : State} (t gl : Nat) (mask : WordMask) (hs : s.formed) : (s.clearOwner t gl mask).formed := by
  unfold State.clearOwner
  grind [modDir_mem]
theorem serveWrite_formed {s : State} (v gl : Nat) (mask : WordMask) (hs : s.formed) : (s.serveWrite v gl mask).formed := by
  unfold State.serveWrite
  grind [clearRemote_formed, recallOwners_formed, modDir_mem, touchSlice_formed]
theorem servePeek_formed {s : State} (gl : Nat) (mask : WordMask) (hs : s.formed) : (s.servePeek gl mask).formed := by
  unfold State.servePeek
  grind [clearRemote_formed, recallOwners_formed, touchSlice_formed]
theorem flushMerged_formed {s : State} (p : Nat) (hs : s.formed) : (s.flushMerged p).formed := by
  unfold State.flushMerged
  grind [modMgmt_mem, foldl_formed]
theorem countCorrected_formed {s : State} (p n source : Nat) (hs : s.formed) : (s.countCorrected p n source).formed := by
  unfold State.countCorrected
  grind [flushMerged_formed, modMgmt_mem]
theorem updateBar_formed {s : State} (name m : Nat) (b : BarV) (arr bytes : Nat) (hs : s.formed) : (s.updateBar name m b arr bytes).2.formed := by
  unfold State.updateBar
  grind
theorem restartBar_formed {s : State} (name : Nat) (b : BarV) (hs : s.formed) : (s.restartBar name b).formed := by
  unfold State.restartBar
  grind
theorem freeSlotOf_formed {s : State} (h : Held) (hs : s.formed) : (s.freeSlotOf h).formed := by
  unfold State.freeSlotOf
  grind [modTile_mem]
theorem modHeld_formed {s : State} (id : Nat) (f : Held → Held) (hs : s.formed) : (s.modHeld id f).formed := by
  unfold State.modHeld
  grind
theorem answerAwaits_formed {s : State} (a done : Nat) (init : Bool) (hs : s.formed) : (s.answerAwaits a done init).formed := by
  unfold State.answerAwaits
  grind [freeSlotOf_formed, modHeld_formed, foldl_formed]
theorem changeBarrier_formed {s : State} (a : Nat) (init : Bool) (f : BarV → BarV) (hs : s.formed) : (s.changeBarrier a init f).formed := by
  unfold State.changeBarrier
  grind [serveWrite_formed, restartBar_formed, answerAwaits_formed, writeNat_wf]
theorem countBarrier_formed {s : State} (a arr bytes : Nat) (hs : s.formed) : (s.countBarrier a arr bytes).formed := by
  unfold State.countBarrier
  grind [serveWrite_formed, updateBar_formed, answerAwaits_formed, writeNat_wf]
theorem holdFor_formed {s : State} (t gl : Nat) (words : WordMask) (work : HeldWork) (ptr : Word) (tag : Nat) (stage : Stage) (via : Option Nat) (hs :
    s.formed) : (s.holdFor t gl words work ptr tag stage via).formed := by
  unfold State.holdFor
  grind
theorem barrierUpdate_formed {s : State} (a arr bytes tag : Nat) (hs : s.formed) : (s.barrierUpdate a arr bytes tag).formed := by
  unfold State.barrierUpdate
  grind [holdFor_formed, countBarrier_formed]
theorem trackerCredit_formed {s : State} (p a bytes : Nat) (hs : s.formed) : (s.trackerCredit p a bytes).formed := by
  unfold State.trackerCredit
  grind [barrierUpdate_formed, holdFor_formed]
theorem localBarrier_formed {s : State} (t n arr bytes : Nat) (hs : s.formed) : (s.localBarrier t n arr bytes).formed := by
  unfold State.localBarrier
  grind [updateBar_formed, modTile_mem, wake_formed]
theorem nextUpdates_formed {s : State} (hs : s.formed) : (s.nextUpdates).formed := by
  unfold State.nextUpdates
  grind [localBarrier_formed, barrierUpdate_formed, foldl_formed]
theorem modPip_formed {s : State} (t n : Nat) (f : Pip → Pip) (hs : s.formed) : (s.modPip t n f).formed := by
  unfold State.modPip
  grind [modTile_mem]
theorem pipFrom_formed {s : State} (o t c mb : Nat) (hs : s.formed) : (s.pipFrom o t c mb).formed := by
  unfold State.pipFrom
  grind [modCtxAt_mem, modPip_formed, wake_formed, foldl_formed]
theorem pipTurn_formed {s : State} (t c mb : Nat) (hs : s.formed) : (s.pipTurn t c mb).formed := by
  unfold State.pipTurn
  grind [pipFrom_formed]
theorem pipLand_formed {s : State} (t n : Nat) (tag : BitVec 2) (v : Word) (delivered : Bool) (hs : s.formed) : (s.pipLand t n tag v delivered).formed := by
  unfold State.pipLand
  grind [modPip_formed, modTile_mem, pipTurn_formed]
theorem fillSaved_formed {s : State} (t n : Nat) (hs : s.formed) : (s.fillSaved t n).formed := by
  unfold State.fillSaved
  grind [modTile_mem, modPip_formed]
theorem pipDeliver_formed {s : State} (t n gen : Nat) (v : Word) (poison : Bool) (hs : s.formed) : (s.pipDeliver t n gen v poison).1.formed := by
  unfold State.pipDeliver
  grind [pipLand_formed]
theorem modChan_formed {s : State} (t n : Nat) (f : Chan → Chan) (hs : s.formed) : (s.modChan t n f).formed := by
  unfold State.modChan
  grind [modTile_mem]
theorem startWalk_formed {s : State} (t n : Nat) (head : Word) (a : Armer) (hs : s.formed) : (s.startWalk t n head a).formed := by
  unfold State.startWalk
  grind [modChan_formed, armer_keepsForm]
theorem markFired_formed {s : State} (desc code : Nat) (hs : s.formed) : (s.markFired desc code).formed := by
  unfold State.markFired
  grind [holdFor_formed, serveWrite_formed, writeNat_wf]
theorem modTracker_formed {s : State} (p cl n : Nat) (f : Tracker → Tracker) (hs : s.formed) : (s.modTracker p cl n f).formed := by
  unfold State.modTracker
  grind [modCluster_mem]
theorem trackerDeliver_formed {s : State} (p desc : Nat) (ptr v : Word) (hs : s.formed) : (s.trackerDeliver p desc ptr v).formed := by
  unfold State.trackerDeliver
  grind [markFired_formed, holdFor_formed, deliverSpan_formed, netPay_formed, pipDeliver_formed]
theorem fireTracker_formed {s : State} (p cl n : Nat) (hs : s.formed) : (s.fireTracker p cl n).formed := by
  unfold State.fireTracker
  grind [modTracker_formed, modTile_mem, startWalk_formed, markFired_formed, trackerCredit_formed, trackerDeliver_formed, modRegion_mem]
theorem countBytes_formed {s : State} (p cl n gl : Nat) (mask : ByteMask) (hs : s.formed) : (s.countBytes p cl n gl mask).formed := by
  unfold State.countBytes
  grind [modTracker_formed, fireTracker_formed]
theorem report_formed {s : State} (gl : Nat) (mask : ByteMask) (hs : s.formed) : (s.report gl mask).formed := by
  unfold State.report
  grind [countBytes_formed, foldl_formed]
theorem engineWrite_formed {s : State} (v gl : Nat) (mask : ByteMask) (data : LineData) (hs : s.formed) : (s.engineWrite v gl mask data).formed := by
  unfold State.engineWrite
  grind [serveWrite_formed, report_formed, writeLine_wf]

/-! ## Walks -/

theorem askHeld_formed {s : State} (k : Asker) (gl : Nat) (mask : WordMask) (p : Word) (seq : Nat) (stage : Stage) (hs : s.formed) :
    (s.askHeld k gl mask p seq stage).1.formed := by
  grind [State.askHeld]
theorem dropHeld_formed {s : State} (id : Nat) (hs : s.formed) : (s.dropHeld id).formed := by
  unfold State.dropHeld
  grind
theorem dropAsks_formed {s : State} (k : Asker) (p : Word) (lines : Nat → Bool) (hs : s.formed) : (s.dropAsks k p lines).formed := by
  unfold State.dropAsks
  grind
theorem sendNow_formed {s : State} (p q : Nat) (via : Option Nat) (n v : Nat) (hs : s.formed) : (s.sendNow p q via n v).2.formed := by
  unfold State.sendNow
  grind [deliverSpan_formed, netPay_formed]
theorem sendAsk_formed {s : State} (p q : Nat) (via : Option Nat) (n v : Nat) (hs : s.formed) : (s.sendAsk p q via n v).2.formed := by
  unfold State.sendAsk
  grind [sendNow_formed]
theorem sendLine_formed {s : State} (p gl : Nat) (hs : s.formed) : (s.sendLine p gl).2.formed := by
  unfold State.sendLine
  grind [sendNow_formed]
theorem askLine_formed {s : State} (p gl : Nat) (hs : s.formed) : (s.askLine p gl).2.formed := by
  unfold State.askLine
  grind [sendAsk_formed]
theorem peekLine_formed {s : State} (k : Asker) (gl : Nat) (mask : WordMask) (p : Word) (hs : s.formed) : (s.peekLine k gl mask p).2.formed := by
  unfold State.peekLine
  cases s.gate k false mask gl <;> grind [askHeld_formed, dropHeld_formed, askLine_formed, servePeek_formed, dropAsks_formed]
theorem readEntry_formed {s : State} (k : Asker) (pa : Nat) (p : Word) (hs : s.formed) : (s.readEntry k pa p).2.formed := by
  unfold State.readEntry
  grind [peekLine_formed]
theorem walkFrom_formed {s : State} (k : Asker) (va : Nat) (p : Word) (levels : List Nat) (e : Word) (hs : s.formed) : (s.walkFrom k va p levels
    e).2.formed := by
  induction levels generalizing s e with
  | nil => grind [State.walkFrom]
  | cons l levels ih => grind [State.walkFrom, readEntry_formed]
theorem walkAll_formed {s : State} (k : Asker) (va : Nat) (p : Word) (hs : s.formed) : (s.walkAll k va p).2.formed := by
  unfold State.walkAll
  grind [readEntry_formed, walkFrom_formed]
theorem endWalk_formed {s : State} (p reg : Nat) (w : Walk) (res : TRes) (hs : s.formed) : (s.endWalk p reg w res).formed := by
  unfold State.endWalk
  grind [modRegion_mem, modCluster_mem, foldl_formed]
theorem translate_formed {s : State} (k : Asker) (va : Nat) (p : Word) (hs : s.formed) : (s.translate k va p).2.formed := by
  unfold State.translate
  grind [modCluster_mem, modRegion_mem, walkAll_formed, endWalk_formed, dropAsks_formed]
theorem locate_formed {s : State} (k : Asker) (va : Nat) (acc : Acc) (p : Word) (hs : s.formed) : (s.locate k va acc p).2.formed := by
  unfold State.locate
  grind [translate_formed]
theorem resolve_formed {s : State} (k : Asker) (va : Nat) (acc : Acc) (p : Word) (hs : s.formed) : (s.resolve k va acc p).2.formed := by
  unfold State.resolve
  grind [locate_formed]
theorem readPiece_formed {k : Asker} {p : Word} {r : EngRes Nat × State} (q : Nat × Nat × Nat × Nat) (hs : r.2.formed) : (readPiece k p r q).2.formed := by
  rcases r with ⟨_ | _ | _, s⟩ <;> grind [readPiece, resolve_formed, peekLine_formed]
theorem engineRead_formed {s : State} (k : Asker) (p : Word) (va n : Nat) (hs : s.formed) : (s.engineRead k p va n).2.formed :=
  foldl_snd_formed (fun _ q h => readPiece_formed q h) _ hs
theorem engineWriteAt_formed {s : State} (k : Asker) (gl : Nat) (mask : ByteMask) (data : LineData) (hs : s.formed) : (s.engineWriteAt k gl mask
    data).2.formed := by
  unfold State.engineWriteAt
  grind [sendLine_formed, engineWrite_formed]
theorem engineStore_formed {s : State} (k : Asker) (p : Word) (va n v : Nat) (hs : s.formed) : (s.engineStore k p va n v).2.2.formed := by
  grind [State.engineStore, resolve_formed, engineWriteAt_formed, foldl_snd_snd_formed]

/-! ## The local array -/

theorem unregister_formed {s : State} (t gl : Nat) (hs : s.formed) : (s.unregister t gl).formed := by
  unfold State.unregister
  grind
theorem evict_formed {s : State} (t : Nat) (l : Line) (hs : s.formed) : (s.evict t l).formed := by
  unfold State.evict
  grind [unregister_formed, clearOwner_formed, modTile_mem, writeLine_wf]
theorem trimSet_formed {s : State} (t set n : Nat) (hs : s.formed) : (s.trimSet t set n).formed := by
  unfold State.trimSet
  grind [evict_formed, foldl_formed]
theorem pinLine_formed {s : State} (t l : Nat) (p : PinLine) (hs : s.formed) : (s.pinLine t l p).formed := by
  unfold State.pinLine
  grind [trimSet_formed, modTile_mem]
theorem unpinLine_formed {s : State} (t l : Nat) (hs : s.formed) : (s.unpinLine t l).formed := by
  unfold State.unpinLine
  grind [modTile_mem]
theorem pinLines_formed {s : State} (t : Nat) (kind : PinKind) (lines : List Nat) (hs : s.formed) : (s.pinLines t kind lines).formed := by
  unfold State.pinLines
  grind [pinLine_formed, foldl_formed]
theorem openLine_formed {s t : State} {l : Line} (u va gl : Nat) (asid : BitVec 16) (perm : BitVec 3) (hs : s.formed) (e : s.openLine u va gl asid perm =
    some (t, l)) : t.formed := by
  grind [State.openLine, foldl_formed, evict_formed, trimSet_formed]
theorem dropTasks_formed {s : State} (t n : Nat) (hs : s.formed) : (s.dropTasks t n).formed := by
  unfold State.dropTasks
  grind [raiseIn_formed, modTile_mem, foldl_formed]
theorem freeSlot_formed {s : State} (t n : Nat) (hs : s.formed) : (s.freeSlot t n).formed := by
  unfold State.freeSlot
  grind [modTile_mem, dropTasks_formed, foldl_formed]
theorem landChunk_formed {s : State} (t n : Nat) (gen : BitVec 7) (chunk off len v : Nat) (hs : s.formed) : (s.landChunk t n gen chunk off len v).1.formed
    := by
  unfold State.landChunk
  grind [modTile_mem, wake_formed]

/-! ## Requests to a home -/

theorem closeHeld_formed {s : State} (h : Held) (hs : s.formed) : (s.closeHeld h).formed := by
  unfold State.closeHeld
  grind [freeSlotOf_formed, dropHeld_formed]
theorem answerHeld_formed {s : State} (h : Held) (d : LineData) (hs : s.formed) : (s.answerHeld h d).formed := by
  unfold State.answerHeld
  grind [closeHeld_formed, freeSlotOf_formed, modHeld_formed]
theorem dropLost_formed {s : State} (h : Held) (hs : s.formed) : (s.dropLost h).formed := by
  unfold State.dropLost
  grind [modTile_mem]
theorem poisonVisitor_formed {s : State} (v gl : Nat) (hs : s.formed) : (s.poisonVisitor v gl).formed := by
  unfold State.poisonVisitor
  grind [modDir_mem]
theorem loseHeld_formed {s : State} (h : Held) (code : BitVec 8) (hs : s.formed) : (s.loseHeld h code).formed := by
  unfold State.loseHeld
  grind [freeSlotOf_formed, modHeld_formed, closeHeld_formed, dropLost_formed, modIssuer_formed, markFired_formed, poisonVisitor_formed]
theorem homeAmo_formed {s : State} (v a op w x cmp : Nat) (hs : s.formed) : (s.homeAmo v a op w x cmp).2.2.formed := by
  unfold State.homeAmo
  grind [serveWrite_formed, report_formed, writeNat_wf]
theorem fillRead_formed {s : State} (t gl : Nat) (f : Fill) (words : WordMask) (hs : s.formed) : (s.fillRead t gl f words).2.formed := by
  unfold State.fillRead
  grind [openLine_formed, servePeek_formed, need_keepsForm, serveRead_formed, modTile_mem]
theorem grant_formed {s : State} (h : Held) (g : Nat) (mask : ByteMask) (data : LineData) (hs : s.formed) : (s.grant h g mask data).formed := by
  unfold State.grant
  grind [closeHeld_formed, serveWrite_formed, report_formed, modTile_mem, serveRegister_formed, writeLine_wf]
theorem mergeInto_formed {s : State} (id : Nat) (mask : ByteMask) (data : LineData) (hs : s.formed) : (s.mergeInto id mask data).formed := by
  unfold State.mergeInto
  grind [modHeld_formed]
theorem applyUpdate_formed {s : State} (a kind arr bytes : Nat) (hs : s.formed) : (s.applyUpdate a kind arr bytes).formed := by
  unfold State.applyUpdate
  grind [countBarrier_formed, changeBarrier_formed]
theorem peekFor_formed {s : State} (t name g : Nat) (words : WordMask) (hs : s.formed) : (s.peekFor t name g words).formed := by
  unfold State.peekFor
  grind [servePeek_formed, modTile_mem]
theorem serveNow_formed {s : State} (h : Held) (g : Nat) (hs : s.formed) : (s.serveNow h g).formed := by
  unfold State.serveNow
  grind [fillRead_formed, answerHeld_formed, peekFor_formed, closeHeld_formed, serveWrite_formed, engineWrite_formed, modTile_mem, grant_formed,
      modDir_mem, homeAmo_formed, raiseIn_formed, applyUpdate_formed, servePeek_formed, modHeld_formed, loseHeld_formed, pipDeliver_formed,
      markFired_formed, writeLine_wf]
theorem queueAt_formed {s : State} (h : Held) (g : Nat) (hs : s.formed) : (s.queueAt h g).formed := by
  unfold State.queueAt
  grind
theorem meetsHold_formed {s z : State} (h : Held) (g : Nat) (hs : s.formed) (e : s.meetsHold h g = some z) : z.formed := by
  grind [State.meetsHold, answerHeld_formed, loseHeld_formed]
theorem serveOne_formed {s z : State} (h : Held) (hs : s.formed) (e : s.serveOne h = some z) : z.formed := by
  unfold State.serveOne at e
  grind [queueAt_formed, serveNow_formed, loseHeld_formed, meetsHold_formed, some_of_orElse]
theorem serveLine_formed {s : State} (gl : Nat) (hs : s.formed) : (s.serveLine gl).formed := by
  unfold State.serveLine
  grind [serveOne_formed, foldl_formed, foldl_fst_formed]
theorem arrive_formed {s : State} (h : Held) (hs : s.formed) : (s.arrive h).formed := by
  unfold State.arrive
  grind [serveNow_formed, loseHeld_formed, meetsHold_formed, queueAt_formed, getD_formed]
theorem publishReads_formed {s : State} (gl : Nat) (hs : s.formed) : (s.publishReads gl).formed := by
  unfold State.publishReads
  grind [answerHeld_formed, foldl_formed]
theorem poisonLine_formed {s : State} (gl : Nat) (hs : s.formed) : (s.poisonLine gl).formed := by
  unfold State.poisonLine
  grind [clearRemote_formed, recallOwners_formed, modDir_mem, serveLine_formed, logEvent_formed]
theorem releaseTent_formed {s : State} (a : Armer) (gl : Nat) (e : EffLine) (hs : s.formed) : (s.releaseTent a gl e).formed := by
  unfold State.releaseTent
  grind [modDir_mem, serveLine_formed]
theorem commitLine_formed {s : State} (a : Armer) (e : EffLine) (hs : s.formed) : (s.commitLine a e).formed := by
  unfold State.commitLine
  grind [sendLine_formed, modIssuer_formed, releaseTent_formed, modTile_mem, report_formed, writeLine_wf]
theorem sendUpdate_formed {s : State} (t a arr bytes tag : Nat) (hs : s.formed) : (s.sendUpdate t a arr bytes tag).formed := by
  unfold State.sendUpdate
  grind [askLine_formed, barrierUpdate_formed, holdFor_formed]
theorem commitEffects_formed {s : State} (t c : Nat) (hs : s.formed) : (s.commitEffects t c).formed := by
  unfold State.commitEffects
  grind [commitLine_formed, sendUpdate_formed, modCtxAt_mem, foldl_formed]
theorem dropLines_formed {s : State} (a : Armer) (es : List EffLine) (hs : s.formed) : (s.dropLines a es).formed := by
  unfold State.dropLines
  grind [releaseTent_formed, foldl_formed]
theorem endRequests_formed {s : State} (t c : Nat) (hs : s.formed) : (s.endRequests t c).formed := by
  unfold State.endRequests
  grind [closeHeld_formed, modHeld_formed, dropHeld_formed, foldl_formed]
theorem discardEffects_formed {s : State} (t c : Nat) (hs : s.formed) : (s.discardEffects t c).formed := by
  unfold State.discardEffects
  grind [closeHeld_formed, dropLines_formed, modCtxAt_mem, foldl_formed]
theorem goDirect_formed {s : State} (t c : Nat) (hs : s.formed) : (s.goDirect t c).formed := by
  unfold State.goDirect
  grind [commitEffects_formed, modCtxAt_mem]

end Sys2Proof.Machine
end

section
set_option Elab.async false
/-! Every function of this part of the model keeps the canonical form of memory. Programs of a Vetch, accesses, barriers and collectives. -/
namespace Sys2Proof.Machine

/-! ## The programs of a Vetch -/

theorem modProg_formed {s : State} (p r id : Nat) (f : Prog → Prog) (hs : s.formed) : (s.modProg p r id f).formed := by
  unfold State.modProg
  grind [modRegion_mem]
theorem endProg_formed {s : State} (p r : Nat) (g : Prog) (steps code : Nat) (hs : s.formed) : (s.endProg p r g steps code).formed := by
  unfold State.endProg
  grind [modRegion_mem]
theorem vetchRead_formed {s : State} (g : Prog) (p : Word) (off n : Nat) (hs : s.formed) : (s.vetchRead g p off n).2.formed := by
  unfold State.vetchRead
  grind [engineRead_formed]
theorem bufEntry_formed {s : State} (g : Prog) (i : Nat) (hs : s.formed) : (s.bufEntry g i).2.formed := by
  unfold State.bufEntry
  grind [vetchRead_formed]
theorem bufRead_formed {s : State} (g : Prog) (p : Word) (off n : Nat) (hs : s.formed) : (s.bufRead g p off n).2.formed := by
  unfold State.bufRead
  grind [vetchRead_formed]
theorem bufWrite_formed {s : State} (g : Prog) (p : Word) (off n v : Nat) (hs : s.formed) : (s.bufWrite g p off n v).2.formed := by
  unfold State.bufWrite
  grind [modTile_mem, engineStore_formed]
theorem rankPlace_formed {s : State} (g : Prog) (rank : Nat) (hs : s.formed) : (s.rankPlace g rank).2.formed := by
  unfold State.rankPlace
  grind [vetchRead_formed]
theorem apertureAt_formed {s : State} (p r : Nat) (g : Prog) (op buf off n : Nat) (mask v : Nat) (hs : s.formed) : (s.apertureAt p r g op buf off n mask
    v).2.formed := by
  unfold State.apertureAt
  grind [bufEntry_formed, endProg_formed, bufRead_formed, bufWrite_formed, modProg_formed]
theorem apertureApply_formed {s : State} (p r : Nat) (by' : Armer) (ptr : Word) (seq id inst op buf off n mask v : Nat) (hs : s.formed) : (s.apertureApply
    p r by' ptr seq id inst op buf off n mask v).2.formed := by
  unfold State.apertureApply
  grind [bufEntry_formed, endProg_formed, apertureAt_formed, modProg_formed]
theorem apertureCheck_formed {s : State} (t : Nat) (p : Word) (n : Nat) (hs : s.formed) : (s.apertureCheck t p n).2.formed := by
  unfold State.apertureCheck
  grind [bufEntry_formed]
theorem modOut_formed {s : State} (p r id : Nat) (f : Contrib → Contrib) (hs : s.formed) : (s.modOut p r id f).formed := by
  unfold State.modOut
  grind [modProg_formed]
theorem spanArrives_formed {s : State} (p r : Nat) (h : Prog) (c : Contrib) (k key : Nat) (hs : s.formed) : (s.spanArrives p r h c k key).2.formed := by
  unfold State.spanArrives
  grind [transmit_formed, modOut_formed]
theorem pushSpan_formed {s : State} (p r : Nat) (h : Prog) (c : Contrib) (k place room : Nat) {pay : State → Nat → State} {done : State → Crossed × State}
    (hp : ∀ s n, s.formed → (pay s n).formed) (hd : ∀ s, s.formed → (done s).2.formed) (hs : s.formed) : (s.pushSpan p r h c k place room pay
        done).2.formed := by
  grind [State.pushSpan, modOut_formed]
theorem moveSpan_formed {s : State} (p r : Nat) (h : Prog) (c : Contrib) (hs : s.formed) : (s.moveSpan p r h c).2.formed := by
  unfold State.moveSpan
  simp only [Option.bind_eq_bind]
  split
  case h_1 x e =>
    rcases some_of_orElse e with e | e <;> simp only [Option.bind_eq_some_iff] at e <;>
      grind [pushSpan_formed, chargePort_formed, netAllow_formed, spanArrives_formed, charge_formed, netConsume_formed]
  case h_2 =>
    repeat' split
    all_goals grind [pushSpan_formed, charge_formed, netSend_formed, modOut_formed]
theorem copyCrosses_formed {s : State} (p r q : Nat) (g : Prog) (n v : Nat) (hs : s.formed) : (s.copyCrosses p r q g n v).2.formed := by
  unfold State.copyCrosses
  grind [deliverSpan_formed, chargePort_formed, netAllow_formed, netPay_formed]
theorem forwardStep_formed {s : State} (p r : Nat) (g : Prog) (c : Forward) (cs : List Forward) (hs : s.formed) : (s.forwardStep p r g c cs).formed := by
  unfold State.forwardStep
  repeat' split
  all_goals grind [modProg_formed, rankPlace_formed, endProg_formed, copyCrosses_formed, apertureAt_formed]
theorem nextStep_formed {s : State} (p r : Nat) (g : Prog) (f : Prog → Prog) (hs : s.formed) : (s.nextStep p r g f).formed := by
  unfold State.nextStep
  grind [modProg_formed]
theorem failStep_formed {s : State} (p r : Nat) (g : Prog) (code : Nat) (hs : s.formed) : (s.failStep p r g code).formed := by
  unfold State.failStep
  grind [endProg_formed]
theorem vetchSend_formed {s : State} (p r : Nat) (g : Prog) (w : StepW) (b : Word) (q t : Nat) (hs : s.formed) : (s.vetchSend p r g w b q t).formed := by
  unfold State.vetchSend
  grind [modProg_formed]
theorem placeOr_formed {s : State} (p r : Nat) (g : Prog) (rank : Nat) {f : Nat → Nat → State → State} (hf : ∀ q t s, s.formed → (f q t s).formed)
    (hs : s.formed) : (s.placeOr p r g rank f).formed := by
  grind [State.placeOr, rankPlace_formed, failStep_formed]
theorem vetchApply_formed {s : State} (p r : Nat) (g : Prog) (w : StepW) (q t : Nat) (h : Prog) (c : Contrib) (b bw : Word) (op : Option Nat) (send :
    Option (Nat × Nat)) (hs : s.formed) : (s.vetchApply p r g w q t h c b bw op send).formed := by
  unfold State.vetchApply
  grind [bufRead_formed, failStep_formed, bufWrite_formed, modOut_formed, modProg_formed, vetchSend_formed, nextStep_formed]
theorem vetchTake_formed {s : State} (p r : Nat) (g : Prog) (w : StepW) (src : Nat) (op : Option Nat) (send : Option (Nat × Nat)) (hs : s.formed) :
    (s.vetchTake p r g w src op send).formed := by
  refine placeOr_formed p r g src (fun q t s hs => ?_) hs
  repeat' split
  all_goals grind [modOut_formed, bufRead_formed, failStep_formed, bufEntry_formed, vetchApply_formed, moveSpan_formed, bufWrite_formed, modProg_formed]
theorem vetchData_formed {s : State} (p r : Nat) (g : Prog) (w : StepW) (hs : s.formed) : (s.vetchData p r g w).formed := by
  unfold State.vetchData
  repeat' split
  all_goals grind [bufEntry_formed, failStep_formed, placeOr_formed, vetchSend_formed, vetchTake_formed, bufRead_formed, bufWrite_formed, nextStep_formed]
theorem vetchSignal_formed {s : State} (p r : Nat) (g : Prog) (w : StepW) (hs : s.formed) : (s.vetchSignal p r g w).formed := by
  unfold State.vetchSignal
  repeat' split
  all_goals grind [bufEntry_formed, failStep_formed, resolve_formed, sendLine_formed, barrierUpdate_formed, nextStep_formed]
theorem vetchWait_formed {s : State} (p r : Nat) (g : Prog) (w : StepW) (hs : s.formed) : (s.vetchWait p r g w).formed := by
  unfold State.vetchWait
  grind [nextStep_formed, failStep_formed]
theorem rankMapOk_formed {s : State} (g : Prog) (mp : Word) (hs : s.formed) : (s.rankMapOk g mp).2.formed := by
  unfold State.rankMapOk
  grind [vetchRead_formed]
theorem vetchCheck_formed {s : State} (p r : Nat) (g : Prog) (hs : s.formed) : (s.vetchCheck p r g).formed := by
  unfold State.vetchCheck
  dsimp only
  repeat' split
  all_goals grind [vetchRead_formed, endProg_formed, rankMapOk_formed, modProg_formed, foldl_formed]
theorem vetchStep_formed {s : State} (p r id : Nat) (hs : s.formed) : (s.vetchStep p r id).formed := by
  unfold State.vetchStep
  split
  case h_1 => exact hs
  case h_2 g _ =>
    extract_lets u
    have hu : u.formed := by grind [forwardStep_formed]
    clear_value u
    split
    case h_1 => exact hu
    case h_2 =>
      dsimp only
      repeat' split
      all_goals grind [vetchCheck_formed, vetchRead_formed, endProg_formed, nextStep_formed, failStep_formed, vetchWait_formed, vetchSignal_formed,
          modProg_formed, vetchData_formed]

/-! ## Loads, stores and probes -/

theorem engM_keepsForm (val : Word) {f : State → EngRes α × State} (hf : ∀ s, s.formed → (f s).2.formed) : KeepsForm (engM val f) := by
  grind [engM, KeepsForm, resultFormed, Stop.formed]
theorem locateM_keepsForm (val : Word) (va : Nat) (acc : Acc) : KeepsForm (locateM val va acc) := by
  grind [locateM, locate_formed, KeepsForm, resultFormed, Stop.formed]
theorem within_keepsForm (t c : Nat) {m : M α} (hm : KeepsForm m) : KeepsForm (within t c m) := by
  refine KeepsForm.get_bind fun s hs => KeepsForm.bind (set_keepsForm hs) fun _ => hm.bind fun r => KeepsForm.bind (upd_keepsForm ?_) fun _ =>
      KeepsForm.pure r
  exact fun _ h => h
theorem reachLines_keepsForm (val : Word) (write : Bool) (lines : List (Nat × WordMask)) : KeepsForm (reachLines val write lines) := by
  grind [reachLines, need_keepsForm, KeepsForm.bind, KeepsForm.pure, KeepsForm.get_bind]
theorem reachLine_keepsForm (val : Word) (write : Bool) (gl : Nat) (mask : WordMask) : KeepsForm (reachLine val write gl mask) := by
  grind [reachLine, reachLines_keepsForm, ask_keepsForm, KeepsForm.bind, KeepsForm.pure]
theorem needSlot_keepsForm (gl : Nat) : KeepsForm (needSlot gl) := by
  grind [needSlot, waitKeep_keepsForm, KeepsForm.bind, KeepsForm.pure, KeepsForm.get_bind]
theorem crosses_keepsForm (gl : Nat) : KeepsForm (crosses gl) := by
  grind [crosses, needSlot_keepsForm, askLine_formed, KeepsForm.bind, KeepsForm.pure, KeepsForm.get_bind, set_keepsForm]
theorem hold_keepsForm (stage : Stage) (gl : Nat) (words : WordMask) (work : HeldWork) (p : Word) (fill : Option Fill) (mine : ByteMask) (mineData :
    LineData) : KeepsForm (hold stage gl words work p fill mine mineData) := by
  grind [hold, modTile_mem, KeepsForm.bind, KeepsForm.pure, KeepsForm.get_bind, set_keepsForm]
theorem loseNow_keepsForm (id : Nat) : KeepsForm (loseNow id) := by
  grind [loseNow, upd_keepsForm, loseHeld_formed]
theorem storeHere_formed {s : State} (l : Line) (mask : ByteMask) (data : LineData) (hs : s.formed) : (s.storeHere l mask data).formed := by
  unfold State.storeHere
  grind [modTile_mem, mergeInto_formed, elim_formed]
theorem missLine_keepsForm (val : Word) (va : Nat) (mask : WordMask) (a : Nat) (leaf : Word) : KeepsForm (missLine val va mask a leaf) := by
  unfold missLine
  dsimp only
  repeat' first
    | with_reducible refine KeepsForm.get_bind fun s hs => ?_
    | with_reducible refine KeepsForm.bind ?_ fun _ => ?_
    | with_reducible refine KeepsForm.unless ?_ fun _ => ?_
    | split
  all_goals grind [reachLine_keepsForm, crosses_keepsForm, fillRead_formed, peekFor_formed, hold_keepsForm, loseNow_keepsForm, KeepsForm.bind,
      KeepsForm.pure, KeepsForm.get_bind, set_keepsForm]
theorem loadLine_keepsForm (val : Word) (va : Nat) (mask : WordMask) : KeepsForm (loadLine val va mask) := by
  grind [loadLine, waitKeep_keepsForm, modT_keepsForm, locateM_keepsForm, missLine_keepsForm, KeepsForm.bind, KeepsForm.pure, KeepsForm.get_bind]
theorem acquired_keepsForm : KeepsForm acquired := by
  grind [acquired, wait_keepsForm, upd_keepsForm, flashTile_mem, modC_keepsForm, KeepsForm.bind, KeepsForm.pure, KeepsForm.get_bind]
theorem checkLoad_keepsForm (val : Word) (va n : Nat) : KeepsForm (checkLoad val va n) := by
  grind [checkLoad, locateM_keepsForm, reachLines_keepsForm, KeepsForm.filterMapM, KeepsForm.bind, KeepsForm.pure, KeepsForm.get_bind]
theorem loadGlobal_keepsForm (val : Word) (va n : Nat) : KeepsForm (loadGlobal val va n) := by
  grind [loadGlobal, acquired_keepsForm, checkLoad_keepsForm, loadLine_keepsForm, KeepsForm.foldlM, KeepsForm.bind, KeepsForm.pure]
theorem loadLocal_keepsForm (val : Word) (o n : Nat) : KeepsForm (loadLocal val o n) := by
  grind [loadLocal, acquired_keepsForm, getT_keepsForm, need_keepsForm, KeepsForm.bind, KeepsForm.pure]
theorem placesOf_formed {s : State} (k : Asker) (p : Word) (va n : Nat) (hs : s.formed) : (s.placesOf k p va n).2.formed := by
  unfold State.placesOf
  grind [translate_formed, foldl_formed, foldl_snd_formed]
theorem places_keepsForm (p : Word) (va n : Nat) : KeepsForm (places p va n) := by
  grind [places, placesOf_formed, KeepsForm, resultFormed, Stop.formed]
theorem vstaPlaces_keepsForm (e : VstaEntry) : KeepsForm (vstaPlaces e) := by
  grind [vstaPlaces, places_keepsForm, KeepsForm.pure]
theorem afterStores_keepsForm (p : Word) (n : Nat) : KeepsForm (afterStores p n) := by
  unfold afterStores
  repeat' first
    | with_reducible refine KeepsForm.get_bind fun s hs => ?_
    | with_reducible refine KeepsForm.bind ?_ fun _ => ?_
    | with_reducible refine KeepsForm.unless ?_ fun _ => ?_
    | split
  all_goals grind [getC_keepsForm, getT_keepsForm, inHelper_keepsForm, wait_keepsForm, places_keepsForm, vstaPlaces_keepsForm, waitKeep_keepsForm,
      KeepsForm.forM, KeepsForm.bind, KeepsForm.pure]
theorem direct_keepsForm : KeepsForm direct := by
  grind [direct, waitKeep_keepsForm, goDirect_formed, KeepsForm.bind, KeepsForm.pure, KeepsForm.get_bind, set_keepsForm]
theorem bufferBytes_keepsForm (val : Word) (gl set : Nat) (mask : ByteMask) (data : LineData) : KeepsForm (bufferBytes val gl set mask data) := by
  grind [bufferBytes, modC_keepsForm, direct_keepsForm, upd_keepsForm, trimSet_formed, KeepsForm.bind, KeepsForm.pure, KeepsForm.get_bind, set_keepsForm]
theorem tentative_keepsForm (gl : Nat) (mask : ByteMask) : KeepsForm (tentative gl mask) := by
  grind [tentative, upd_keepsForm, serveWrite_formed, modDir_mem]
theorem homeStore_keepsForm (gl g : Nat) (mask : ByteMask) (data : LineData) : KeepsForm (homeStore gl g mask data) := by
  grind [homeStore, upd_keepsForm, engineWrite_formed, modTile_mem]
theorem cacheStore_keepsForm (f : Fill) (mask : ByteMask) (data : LineData) : KeepsForm (cacheStore f mask data) := by
  grind [cacheStore, openLine_formed, homeStore_keepsForm, need_keepsForm, serveRegister_formed, modTile_mem, report_formed, KeepsForm.bind,
      KeepsForm.pure, KeepsForm.get_bind, set_keepsForm]
theorem returnWords_formed {s : State} (t : Nat) (l : Line) (words : WordMask) (hs : s.formed) : (s.returnWords t l words).formed := by
  unfold State.returnWords
  grind [clearOwner_formed, writeLine_wf]
theorem pendingStore_keepsForm (val : Word) (stage : Stage) (at' : Nat) (f : Fill) (mask : ByteMask) (data : LineData) : KeepsForm (pendingStore val stage
    at' f mask data) := by
  grind [pendingStore, openLine_formed, hold_keepsForm, storeHere_formed, returnWords_formed, modTile_mem, KeepsForm.bind, KeepsForm.pure,
      KeepsForm.get_bind, set_keepsForm]
theorem passingStore_keepsForm (val : Word) (stage : Stage) (gl at' : Nat) (mask : ByteMask) (data : LineData) : KeepsForm (passingStore val stage gl at'
    mask data) := by
  grind [passingStore, modT_keepsForm, hold_keepsForm, KeepsForm.bind, KeepsForm.pure]
theorem storeAt_keepsForm (val : Word) (va : Nat) (mask : ByteMask) (data : LineData) (a : Nat) (leaf : Word) : KeepsForm (storeAt val va mask data a leaf)
    := by
  unfold storeAt
  repeat' first
    | with_reducible refine KeepsForm.get_bind fun s hs => ?_
    | with_reducible refine KeepsForm.bind ?_ fun _ => ?_
    | with_reducible refine KeepsForm.unless ?_ fun _ => ?_
    | split
  all_goals grind [reachLine_keepsForm, needSlot_keepsForm, bufferBytes_keepsForm, crosses_keepsForm, tentative_keepsForm, cacheStore_keepsForm,
      homeStore_keepsForm, hold_keepsForm, pendingStore_keepsForm, passingStore_keepsForm, loseNow_keepsForm, KeepsForm.bind, KeepsForm.pure,
      KeepsForm.get_bind]
theorem storeLine_keepsForm (val : Word) (va : Nat) (mask : ByteMask) (data : LineData) : KeepsForm (storeLine val va mask data) := by
  grind [storeLine, locateM_keepsForm, storeAt_keepsForm, storeHere_formed, KeepsForm.bind, KeepsForm.pure, KeepsForm.get_bind, set_keepsForm]
theorem storeGlobal_keepsForm (val : Word) (va n v : Nat) : KeepsForm (storeGlobal val va n v) := by
  grind [storeGlobal, acquired_keepsForm, storeLine_keepsForm, KeepsForm.forM, KeepsForm.bind, KeepsForm.pure]
theorem storeLocal_keepsForm (val : Word) (o n v : Nat) : KeepsForm (storeLocal val o n v) := by
  grind [storeLocal, acquired_keepsForm, getT_keepsForm, need_keepsForm, modT_keepsForm, KeepsForm.bind, KeepsForm.pure]
theorem lose_keepsForm (cause : BitVec 8) (p : Word) (seq : Nat) : KeepsForm (lose cause p seq) := by
  grind [lose, modC_keepsForm]
theorem orLose_keepsForm (p : Word) (seq : Nat) (gl : Option Nat) {m : M Unit} (hm : KeepsForm m) : KeepsForm (orLose p seq gl m) := by
  grind [orLose, KeepsForm, resultFormed, Stop.formed, lose_keepsForm, poisonVisitor_formed]
theorem applyAperture_keepsForm (p : Word) (seq inst n mask v : Nat) : KeepsForm (applyAperture p seq inst n mask v) := by
  grind [applyAperture, armer_keepsForm, engM_keepsForm, apertureApply_formed, KeepsForm.bind, KeepsForm.pure]
theorem storePlaces_keepsForm (a : VstaEntry) : KeepsForm (storePlaces a) := by
  grind [storePlaces, locate_formed, KeepsForm.mapM, KeepsForm.pure, KeepsForm, resultFormed, Stop.formed]
theorem performStore_keepsForm (a : VstaEntry) (d : VstdEntry) : KeepsForm (performStore a d) := by
  unfold performStore
  repeat' first
    | with_reducible refine KeepsForm.get_bind fun s hs => ?_
    | with_reducible refine KeepsForm.bind ?_ fun _ => ?_
    | with_reducible refine KeepsForm.unless ?_ fun _ => ?_
    | split
  all_goals grind [acquired_keepsForm, modT_keepsForm, direct_keepsForm, orLose_keepsForm, applyAperture_keepsForm, places_keepsForm,
      storePlaces_keepsForm, waitKeep_keepsForm, storeAt_keepsForm, lose_keepsForm, KeepsForm.forM, KeepsForm.bind, KeepsForm.pure, KeepsForm.get_bind]
theorem performPair_keepsForm : KeepsForm performPair := by
  grind [performPair, waitKeep_keepsForm, performStore_keepsForm, modC_keepsForm, KeepsForm.bind, KeepsForm.pure, KeepsForm.get_bind]
theorem performPairs_keepsForm (n : Nat) : KeepsForm (performPairs n) := by
  induction n with
  | zero => exact KeepsForm.pure ()
  | succ n ih => exact performPair_keepsForm.bind fun _ => ih
theorem loadNow_keepsForm (val : Word) (va n : Nat) : KeepsForm (loadNow val va n) := by
  grind [loadNow, loadGlobal_keepsForm, trap_keepsForm, dropDone_formed, waitKeep_keepsForm, foldl_formed, KeepsForm.bind, KeepsForm.pure,
      KeepsForm.get_bind, set_keepsForm]
theorem fillQueues_formed {s : State} (hs : s.formed) : (s.fillQueues).formed := by
  unfold State.fillQueues
  grind [setCtx_mem, dropDone_formed, foldl_formed]
theorem releaseAfter_keepsForm (storesWait : State → Bool) : KeepsForm (releaseAfter storesWait) := by
  unfold releaseAfter
  repeat' first
    | with_reducible refine KeepsForm.get_bind fun s hs => ?_
    | with_reducible refine KeepsForm.bind ?_ fun _ => ?_
    | with_reducible refine KeepsForm.unless ?_ fun _ => ?_
    | split
  all_goals grind [performPairs_keepsForm, upd_keepsForm, fillQueues_formed, waitKeep_keepsForm, modC_keepsForm, trapKeep_keepsForm, KeepsForm.bind,
      KeepsForm.pure, KeepsForm.get_bind]
theorem release_keepsForm : KeepsForm release := by
  grind [release, releaseAfter_keepsForm]
theorem flash_keepsForm : KeepsForm flash := by
  grind [flash, upd_keepsForm, flashTile_mem]
theorem amoAccess_keepsForm (p : Word) (op w x cmp : Nat) : KeepsForm (amoAccess p op w x cmp) := by
  unfold amoAccess
  repeat' first
    | with_reducible refine KeepsForm.get_bind fun s hs => ?_
    | with_reducible refine KeepsForm.bind ?_ fun _ => ?_
    | with_reducible refine KeepsForm.unless ?_ fun _ => ?_
    | split
  all_goals grind [acquired_keepsForm, locateM_keepsForm, reachLine_keepsForm, direct_keepsForm, crosses_keepsForm, homeAmo_formed, modTile_mem,
      raise_keepsForm, hold_keepsForm, modT_keepsForm, loseNow_keepsForm, KeepsForm.bind, KeepsForm.pure, KeepsForm.get_bind, set_keepsForm]
theorem answered_keepsForm (p : Word) (ok : Bool) : KeepsForm (answered p ok) := by
  grind [answered, trapKeep_keepsForm, KeepsForm.pure]
theorem afterProbe_keepsForm {m : M α} (hm : KeepsForm m) : KeepsForm (afterProbe m) := by
  grind [afterProbe, KeepsForm, resultFormed, Stop.formed, setCtx_mem]
theorem sendDelivery_keepsForm (q t : Nat) (p v : Word) : KeepsForm (sendDelivery q t p v) := by
  unfold sendDelivery
  repeat' first
    | with_reducible refine KeepsForm.get_bind fun s hs => ?_
    | with_reducible refine KeepsForm.bind ?_ fun _ => ?_
    | with_reducible refine KeepsForm.unless ?_ fun _ => ?_
    | split
  all_goals grind [sendAsk_formed, pipDeliver_formed, answered_keepsForm, lose_keepsForm, hold_keepsForm, upd_keepsForm, modHeld_formed,
      waitKeep_keepsForm, KeepsForm.bind, KeepsForm.pure, KeepsForm.get_bind, set_keepsForm]
theorem deliver_keepsForm (p : Word) (v : Word) : KeepsForm (deliver p v) := by
  unfold deliver
  repeat' first
    | with_reducible refine KeepsForm.get_bind fun s hs => ?_
    | with_reducible refine KeepsForm.bind ?_ fun _ => ?_
    | with_reducible refine KeepsForm.unless ?_ fun _ => ?_
    | split
  all_goals grind [need_keepsForm, waitKeep_keepsForm, dropHeld_formed, lose_keepsForm, answered_keepsForm, trap_keepsForm, modC_keepsForm,
      afterProbe_keepsForm, release_keepsForm, direct_keepsForm, needSlot_keepsForm, sendDelivery_keepsForm, KeepsForm.bind, KeepsForm.pure,
      KeepsForm.get_bind, set_keepsForm]
theorem apertureStore_keepsForm (p : Word) (n v : Nat) : KeepsForm (apertureStore p n v) := by
  grind [apertureStore, acquired_keepsForm, engM_keepsForm, apertureCheck_formed, direct_keepsForm, applyAperture_keepsForm, KeepsForm.bind,
      KeepsForm.pure, KeepsForm.get_bind]

/-! ## Landings, flags and fences -/

theorem setCsr_formed {s : State} (n : Nat) (i v : Word) (hs : s.formed) : (s.setCsr n i v).formed := by
  unfold State.setCsr
  grind [setCtx_mem, modDev_mem]
theorem settled_keepsForm : KeepsForm settled := by
  grind [settled, wait_keepsForm, KeepsForm.bind, KeepsForm.pure, KeepsForm.get_bind]
theorem csrCheck_keepsForm (write : Bool) (n : Nat) (i : Word) : KeepsForm (csrCheck write n i) := by
  grind [csrCheck, getC_keepsForm, need_keepsForm, KeepsForm.bind, KeepsForm.pure]

/-! ## Barrier 0 -/

theorem bar0_formed {s : State} (p off : Nat) (v : Word) (hs : s.formed) : (s.bar0 p off v).formed := by
  unfold State.bar0
  grind [modDev_mem]

/-! ## Operands -/

theorem inRange_keepsForm (cs : List (BitVec 6)) : KeepsForm (inRange cs) := by
  grind [inRange, getC_keepsForm, trap_keepsForm, KeepsForm.bind, KeepsForm.pure]
theorem awaitSources_keepsForm (cs : List (BitVec 6)) : KeepsForm (awaitSources cs) := by
  grind [awaitSources, upd_keepsForm, fillQueues_formed, getC_keepsForm, waitKeep_keepsForm, block_keepsForm, issueAt_mem, KeepsForm.bind, KeepsForm.pure]
theorem checkReady_keepsForm (field : Nat) (c : BitVec 6) : KeepsForm (checkReady field c) := by
  grind [checkReady, need_keepsForm, KeepsForm.bind, KeepsForm.pure, KeepsForm.get_bind]
theorem checkMask_keepsForm (field n : Nat) : KeepsForm (checkMask field n) := by
  grind [checkMask, need_keepsForm, KeepsForm.bind, KeepsForm.pure, KeepsForm.get_bind]
theorem emptyMailbox_keepsForm (n : Nat) : KeepsForm (emptyMailbox n) := by
  grind [emptyMailbox, modC_keepsForm, upd_keepsForm, pipTurn_formed, KeepsForm.bind, KeepsForm.pure]
theorem readSrc_keepsForm (t : BitVec 3) (c : BitVec 6) : KeepsForm (readSrc t c) := by
  grind [readSrc, emptyMailbox_keepsForm, modC_keepsForm, KeepsForm.bind, KeepsForm.pure, KeepsForm.get_bind]
theorem readTwo_keepsForm (t : BitVec 3) (a b : BitVec 6) : KeepsForm (readTwo t a b) := by
  grind [readTwo, readSrc_keepsForm, KeepsForm.bind, KeepsForm.pure]
theorem fillMailbox_keepsForm (n : Nat) (lat : Nat) (v : Word) : KeepsForm (fillMailbox n lat v) := by
  grind [fillMailbox, upd_keepsForm, setCtx_mem, wake_formed, KeepsForm.bind, KeepsForm.pure]
theorem writeDest_keepsForm (t : BitVec 3) (d : BitVec 6) (lat : Nat) (r : Vec) (m : Word) : KeepsForm (writeDest t d lat r m) := by
  grind [writeDest, modC_keepsForm, fillMailbox_keepsForm, KeepsForm.bind, KeepsForm.pure, KeepsForm.get_bind]
theorem writeMask_keepsForm (t : BitVec 3) (d : BitVec 6) (lat : Nat) (p m : Word) : KeepsForm (writeMask t d lat p m) := by
  grind [writeMask, modC_keepsForm, fillMailbox_keepsForm, writeDest_keepsForm, KeepsForm.bind, KeepsForm.pure, KeepsForm.get_bind]
theorem operands_keepsForm (w : AW) (two : Bool) (acc : Option (BitVec 6)) : KeepsForm (operands w two acc) := by
  unfold operands
  repeat' first
    | with_reducible refine KeepsForm.get_bind fun s hs => ?_
    | with_reducible refine KeepsForm.bind ?_ fun _ => ?_
    | with_reducible refine KeepsForm.unless ?_ fun _ => ?_
    | split
  all_goals grind [inRange_keepsForm, awaitSources_keepsForm, checkReady_keepsForm, checkMask_keepsForm, readTwo_keepsForm, readSrc_keepsForm,
      KeepsForm.bind, KeepsForm.pure, KeepsForm.get_bind]

/-! ## Barriers, trackers and pips -/

theorem mailbox_keepsForm (n : Nat) : KeepsForm (mailbox n) := by
  grind [mailbox, getC_keepsForm, KeepsForm.bind, KeepsForm.pure]
theorem execMbw_formed {s : State} (f : CF) (hs : s.formed) : outFormed (execMbw f s) := by
  grind [execMbw, finish_formed, rs_keepsForm, fillMailbox_keepsForm, KeepsForm.bind, KeepsForm.pure]
theorem execMbr_formed {s : State} (f : CF) (hs : s.formed) : outFormed (execMbr f s) := by
  grind [execMbr, finish_formed, mailbox_keepsForm, block_keepsForm, upd_keepsForm, issueAt_mem, flash_keepsForm, emptyMailbox_keepsForm, ws_keepsForm,
      KeepsForm.bind, KeepsForm.pure]
theorem execMbtest_formed {s : State} (f : CF) (hs : s.formed) : outFormed (execMbtest f s) := by
  grind [execMbtest, finish_formed, mailbox_keepsForm, upd_keepsForm, issueAt_mem, ws_keepsForm, KeepsForm.bind, KeepsForm.pure]
theorem execKget_formed {s : State} (f : CF) (hs : s.formed) : outFormed (execKget f s) := by
  grind [execKget, finish_formed, upd_keepsForm, issueAt_mem, getC_keepsForm, ws_keepsForm, KeepsForm.bind, KeepsForm.pure]
theorem execKset_formed {s : State} (f : CF) (hs : s.formed) : outFormed (execKset f s) := by
  grind [execKset, finish_formed, rs_keepsForm, upd_keepsForm, setCtx_mem, KeepsForm.bind, KeepsForm.pure]
theorem globalBarrier_keepsForm (p : Word) (acc : Acc) : KeepsForm (globalBarrier p acc) := by
  unfold globalBarrier
  repeat' first
    | with_reducible refine KeepsForm.get_bind fun s hs => ?_
    | with_reducible refine KeepsForm.bind ?_ fun _ => ?_
    | with_reducible refine KeepsForm.unless ?_ fun _ => ?_
    | split
  all_goals grind [need_keepsForm, acquired_keepsForm, locateM_keepsForm, trap_keepsForm, reachLine_keepsForm, KeepsForm.bind, KeepsForm.pure,
      KeepsForm.get_bind]
theorem peekDone_keepsForm (a : Nat) : KeepsForm (peekDone a) := by
  grind [peekDone, upd_keepsForm, servePeek_formed, KeepsForm.bind, KeepsForm.pure, KeepsForm.get_bind]
theorem updateBarrier_keepsForm (p : Word) (kind arr bytes : Nat) : KeepsForm (updateBarrier p kind arr bytes) := by
  grind [updateBarrier, globalBarrier_keepsForm, crosses_keepsForm, upd_keepsForm, applyUpdate_formed, hold_keepsForm, loseNow_keepsForm, modT_keepsForm,
      KeepsForm.bind, KeepsForm.pure]
theorem askDone_keepsForm (p : Word) (seen : Nat) : KeepsForm (askDone p seen) := by
  unfold askDone
  repeat' first
    | with_reducible refine KeepsForm.get_bind fun s hs => ?_
    | with_reducible refine KeepsForm.bind ?_ fun _ => ?_
    | with_reducible refine KeepsForm.unless ?_ fun _ => ?_
    | split
  all_goals grind [dropHeld_formed, trapKeep_keepsForm, peekDone_keepsForm, upd_keepsForm, closeHeld_formed, globalBarrier_keepsForm, crosses_keepsForm,
      ask_keepsForm, hold_keepsForm, loseNow_keepsForm, KeepsForm.bind, KeepsForm.pure, KeepsForm.get_bind, set_keepsForm]
theorem localBar_keepsForm (n : Nat) : KeepsForm (localBar n) := by
  grind [localBar, getT_keepsForm, KeepsForm.bind, KeepsForm.pure]
theorem observe_keepsForm (n : Nat) (done : BitVec 16) : KeepsForm (observe n done) := by
  grind [observe, modC_keepsForm]
theorem setBarrier_keepsForm (f : CF) (init : Bool) : KeepsForm (setBarrier f init) := by
  grind [setBarrier, rs_keepsForm, globalBarrier_keepsForm, direct_keepsForm, updateBarrier_keepsForm, getT_keepsForm, upd_keepsForm, restartBar_formed,
      modT_keepsForm, KeepsForm.bind, KeepsForm.pure]
theorem execBinit_formed {s : State} (f : CF) (hs : s.formed) : outFormed (execBinit f s) := by
  grind [execBinit, finish_formed, setBarrier_keepsForm, KeepsForm.bind, KeepsForm.pure]
theorem execBexpect_formed {s : State} (f : CF) (hs : s.formed) : outFormed (execBexpect f s) := by
  grind [execBexpect, finish_formed, setBarrier_keepsForm, KeepsForm.bind, KeepsForm.pure]
theorem execBarrive_formed {s : State} (f : CF) (hs : s.formed) : outFormed (execBarrive f s) := by
  grind [execBarrive, finish_formed, rs_keepsForm, globalBarrier_keepsForm, release_keepsForm, modC_keepsForm, updateBarrier_keepsForm, upd_keepsForm,
      localBarrier_formed, KeepsForm.bind, KeepsForm.pure, KeepsForm.get_bind]
theorem execBwait_formed {s : State} (f : CF) (hs : s.formed) : outFormed (execBwait f s) := by
  refine finish_formed ?_ hs
  repeat' first
    | with_reducible refine KeepsForm.get_bind fun s hs => ?_
    | with_reducible refine KeepsForm.bind ?_ fun _ => ?_
    | with_reducible refine KeepsForm.unless ?_ fun _ => ?_
    | split
  all_goals grind [rs_keepsForm, askDone_keepsForm, ws_keepsForm, flash_keepsForm, upd_keepsForm, closeHeld_formed, trapKeep_keepsForm, waitKeep_keepsForm,
      localBar_keepsForm, getC_keepsForm, block_keepsForm, observe_keepsForm, elim_formed, KeepsForm.bind, KeepsForm.pure, KeepsForm.get_bind]
theorem execBtest_formed {s : State} (f : CF) (hs : s.formed) : outFormed (execBtest f s) := by
  grind [execBtest, finish_formed, rs_keepsForm, askDone_keepsForm, ws_keepsForm, flash_keepsForm, waitKeep_keepsForm, localBar_keepsForm, getC_keepsForm,
      observe_keepsForm, KeepsForm.bind, KeepsForm.pure]
theorem execBwany_formed {s : State} (f : CF) (hs : s.formed) : outFormed (execBwany f s) := by
  refine finish_formed ?_ hs
  repeat' first
    | with_reducible refine KeepsForm.get_bind fun s hs => ?_
    | with_reducible refine KeepsForm.bind ?_ fun _ => ?_
    | with_reducible refine KeepsForm.unless ?_ fun _ => ?_
    | split
  all_goals grind [rs_keepsForm, getC_keepsForm, getT_keepsForm, ws_keepsForm, observe_keepsForm, modC_keepsForm, flash_keepsForm, KeepsForm.bind,
      KeepsForm.pure]
theorem chunkArgs_keepsForm (f : CF) : KeepsForm (chunkArgs f) := by
  grind [chunkArgs, rs_keepsForm, need_keepsForm, KeepsForm.bind, KeepsForm.pure, KeepsForm.get_bind]
theorem execChtest_formed {s : State} (f : CF) (hs : s.formed) : outFormed (execChtest f s) := by
  grind [execChtest, finish_formed, chunkArgs_keepsForm, ws_keepsForm, KeepsForm.bind, KeepsForm.pure, KeepsForm.get_bind]
theorem execChwait_formed {s : State} (f : CF) (hs : s.formed) : outFormed (execChwait f s) := by
  grind [execChwait, finish_formed, chunkArgs_keepsForm, block_keepsForm, KeepsForm.bind, KeepsForm.pure, KeepsForm.get_bind]
theorem execChclr_formed {s : State} (f : CF) (hs : s.formed) : outFormed (execChclr f s) := by
  grind [execChclr, finish_formed, chunkArgs_keepsForm, modT_keepsForm, KeepsForm.bind, KeepsForm.pure]
theorem execTfence_formed {s : State} (mask : BitVec 11) (hs : s.formed) : outFormed (execTfence mask s) := by
  grind [execTfence, finish_formed, settled_keepsForm, getC_keepsForm, need_keepsForm, KeepsForm.bind, KeepsForm.pure]

/-! ## Collective programs -/

theorem startProg_formed {s : State} (t c : Nat) (k : Ctx) (a : CollArgs) (hs : s.formed) : (s.startProg t c k a).formed := by
  unfold State.startProg
  grind [modRegion_mem]
theorem refuseProg_formed {s : State} (t id : Nat) (hs : s.formed) : (s.refuseProg t id).formed := by
  unfold State.refuseProg
  grind [modRegion_mem]
theorem execColl_formed {s : State} (f : CF) (hs : s.formed) : outFormed (execColl f s) := by
  refine finish_formed ?_ hs
  repeat' first
    | with_reducible refine KeepsForm.get_bind fun s hs => ?_
    | with_reducible refine KeepsForm.bind ?_ fun _ => ?_
    | with_reducible refine KeepsForm.unless ?_ fun _ => ?_
    | split
  all_goals grind [notHelper_keepsForm, rs_keepsForm, need_keepsForm, release_keepsForm, loadNow_keepsForm, upd_keepsForm, startProg_formed, ws_keepsForm,
      KeepsForm.bind, KeepsForm.pure, KeepsForm.get_bind]
theorem execCollLone_formed {s : State} (f : LF) (hs : s.formed) : outFormed (execCollLone f s) := by
  refine finish_formed ?_ hs
  repeat' first
    | with_reducible refine KeepsForm.get_bind fun s hs => ?_
    | with_reducible refine KeepsForm.bind ?_ fun _ => ?_
    | with_reducible refine KeepsForm.unless ?_ fun _ => ?_
    | split
  all_goals grind [notHelper_keepsForm, rs_keepsForm, release_keepsForm, upd_keepsForm, startProg_formed, refuseProg_formed, wait_keepsForm,
      KeepsForm.bind, KeepsForm.pure, KeepsForm.get_bind]
theorem execCwait_formed {s : State} (f : CF) (hs : s.formed) : outFormed (execCwait f s) := by
  grind [execCwait, finish_formed, rs_keepsForm, block_keepsForm, flash_keepsForm, raise_keepsForm, ws_keepsForm, KeepsForm.bind, KeepsForm.pure,
      KeepsForm.get_bind]
theorem execVetchStep_formed {s : State} (dev region id : Nat) (hs : s.formed) : outFormed (execVetchStep dev region id s) := by
  grind [execVetchStep, happen_formed, vetchStep_formed]
theorem execContributionArrival_formed {s : State} (dev region id : Nat) (hs : s.formed) : outFormed (execContributionArrival dev region id s) := by
  grind [execContributionArrival, happen_formed, vetchStep_formed]
theorem execApertureApply_formed {s : State} (dev region id inst op buf off len : Nat) (data : BitVec 2048) (hs : s.formed) : outFormed (execApertureApply
    dev region id inst op buf off len data s) := by
  grind [execApertureApply, happen_formed, apertureApply_formed]

end Sys2Proof.Machine
end

section
set_option Elab.async false
/-! Every function of this part of the model keeps the canonical form of memory. The engine, copies, compacts and helpers. -/
namespace Sys2Proof.Machine

/-! ## The engine -/

theorem needPinned_keepsForm (p : Word) (n : Nat) : KeepsForm (needPinned p n) := by
  grind [needPinned, getT_keepsForm, need_keepsForm, KeepsForm.bind, KeepsForm.pure]
theorem needPlane_keepsForm (plane n : Nat) : KeepsForm (needPlane plane n) := by
  grind [needPlane, needPinned_keepsForm, KeepsForm.pure]
theorem needGeom_keepsForm (ok : Bool) : KeepsForm (needGeom ok) := by
  grind [needGeom, unitImage_keepsForm, need_keepsForm, KeepsForm.bind, KeepsForm.pure]
theorem matrixReady_keepsForm : KeepsForm matrixReady := by
  grind [matrixReady, notHelper_keepsForm, getT_keepsForm, wait_keepsForm, performPairs_keepsForm, KeepsForm.bind, KeepsForm.pure]
theorem accept_keepsForm (ra rb rc : Word) (addrs : List (Option Nat)) : KeepsForm (accept ra rb rc addrs) := by
  grind [accept, getC_keepsForm, modT_keepsForm, KeepsForm.bind, KeepsForm.pure]
theorem translateM_keepsForm (val : Word) (va : Nat) (acc : Acc) : KeepsForm (translateM val va acc) := by
  grind [translateM, translate_formed, KeepsForm.pure, KeepsForm, resultFormed, Stop.formed]
theorem acceptLines_keepsForm (ra : Word) (acc : Acc) : KeepsForm (acceptLines ra acc) := by
  grind [acceptLines, translateM_keepsForm, need_keepsForm, KeepsForm.mapM, KeepsForm.bind, KeepsForm.pure, KeepsForm.get_bind]
theorem execMma_formed {s : State} (f : LF) (hs : s.formed) : outFormed (execMma f s) := by
  refine finish_formed ?_ hs
  repeat' first
    | with_reducible refine KeepsForm.get_bind fun s hs => ?_
    | with_reducible refine KeepsForm.bind ?_ fun _ => ?_
    | with_reducible refine KeepsForm.unless ?_ fun _ => ?_
    | split
  all_goals grind [matrixReady_keepsForm, rs_keepsForm, need_keepsForm, needGeom_keepsForm, needPinned_keepsForm, needPlane_keepsForm, accept_keepsForm,
      KeepsForm.bind, KeepsForm.pure, KeepsForm.get_bind]
theorem execMldb_formed {s : State} (f : LF) (hs : s.formed) : outFormed (execMldb f s) := by
  refine finish_formed ?_ hs
  repeat' first
    | with_reducible refine KeepsForm.get_bind fun s hs => ?_
    | with_reducible refine KeepsForm.bind ?_ fun _ => ?_
    | with_reducible refine KeepsForm.unless ?_ fun _ => ?_
    | split
  all_goals grind [matrixReady_keepsForm, rs_keepsForm, need_keepsForm, needGeom_keepsForm, needPinned_keepsForm, needPlane_keepsForm, accept_keepsForm,
      modT_keepsForm, KeepsForm.bind, KeepsForm.pure, KeepsForm.get_bind]
theorem execMrot_formed {s : State} (f : LF) (hs : s.formed) : outFormed (execMrot f s) := by
  grind [execMrot, finish_formed, matrixReady_keepsForm, needGeom_keepsForm, accept_keepsForm, KeepsForm.bind, KeepsForm.pure, KeepsForm.get_bind]
theorem execMstore_formed {s : State} (f : LF) (hs : s.formed) : outFormed (execMstore f s) := by
  refine finish_formed ?_ hs
  repeat' first
    | with_reducible refine KeepsForm.get_bind fun s hs => ?_
    | with_reducible refine KeepsForm.bind ?_ fun _ => ?_
    | with_reducible refine KeepsForm.unless ?_ fun _ => ?_
    | split
  all_goals grind [matrixReady_keepsForm, rs_keepsForm, need_keepsForm, needGeom_keepsForm, needPinned_keepsForm, needPlane_keepsForm,
      acceptLines_keepsForm, accept_keepsForm, KeepsForm.bind, KeepsForm.pure, KeepsForm.get_bind]
theorem execMload_formed {s : State} (f : LF) (hs : s.formed) : outFormed (execMload f s) := by
  refine finish_formed ?_ hs
  repeat' first
    | with_reducible refine KeepsForm.get_bind fun s hs => ?_
    | with_reducible refine KeepsForm.bind ?_ fun _ => ?_
    | with_reducible refine KeepsForm.unless ?_ fun _ => ?_
    | split
  all_goals grind [matrixReady_keepsForm, rs_keepsForm, need_keepsForm, needGeom_keepsForm, needPinned_keepsForm, acceptLines_keepsForm, accept_keepsForm,
      KeepsForm.bind, KeepsForm.pure, KeepsForm.get_bind]
theorem execMbegin_formed {s : State} (f : CF) (hs : s.formed) : outFormed (execMbegin f s) := by
  grind [execMbegin, finish_formed, matrixReady_keepsForm, getT_keepsForm, needGeom_keepsForm, accept_keepsForm, modT_keepsForm, KeepsForm.bind,
      KeepsForm.pure]
theorem execMend_formed {s : State} (f : CF) (hs : s.formed) : outFormed (execMend f s) := by
  grind [execMend, finish_formed, matrixReady_keepsForm, getT_keepsForm, needGeom_keepsForm, accept_keepsForm, modT_keepsForm, KeepsForm.bind, KeepsForm.pure]
theorem execMzero_formed {s : State} (f : CF) (hs : s.formed) : outFormed (execMzero f s) := by
  grind [execMzero, finish_formed, matrixReady_keepsForm, accept_keepsForm, KeepsForm.bind, KeepsForm.pure]
theorem execMsync_formed {s : State} (f : CF) (hs : s.formed) : outFormed (execMsync f s) := by
  grind [execMsync, finish_formed, notHelper_keepsForm, getT_keepsForm, wait_keepsForm, KeepsForm.bind, KeepsForm.pure]
theorem modEngine_formed {s : State} (t : Nat) (f : Engine → Engine) (hs : s.formed) : (s.modEngine t f).formed := by
  unfold State.modEngine
  grind [modTile_mem]
theorem raiseMatrix_formed {s : State} (t : Nat) (c : MCmd) (f : BitVec 11) (hs : s.formed) : (s.raiseMatrix t c f).formed := by
  unfold State.raiseMatrix
  grind [modCtxAt_mem]
theorem accumulate_formed {s : State} (t : Nat) (c : MCmd) (m : MmaF) (ks apos nb : Nat) (b : BSlice) (hs : s.formed) : (s.accumulate t c m ks apos nb
    b).formed := by
  unfold State.accumulate
  grind [modEngine_formed, raiseMatrix_formed]
theorem badOperand_formed {s : State} (t : Nat) (c : MCmd) (m : MmaF) (hs : s.formed) : (s.badOperand t c m).formed := by
  unfold State.badOperand
  grind [modEngine_formed, raiseMatrix_formed]
theorem kstep_formed {s : State} (t : Nat) (hs : s.formed) : (s.kstep t).formed := by
  unfold State.kstep
  grind [modEngine_formed, badOperand_formed, accumulate_formed]
theorem ringStep_formed {s : State} (t : Nat) (l : Latch) (hs : s.formed) : (s.ringStep t l).formed := by
  unfold State.ringStep
  grind [accumulate_formed]
theorem handover_formed {s : State} (t : Nat) (hs : s.formed) : (s.handover t).formed := by
  unfold State.handover
  grind [ringStep_formed, modEngine_formed]
theorem storeLine0_formed {s z : State} (t : Nat) (c : MCmd) (v : Nat) (q : Nat × Nat × Nat × Nat) (a : Option Nat) (hs : s.formed) (e : s.storeLine0 t c v
    q a = some z) : z.formed := by
  unfold State.storeLine0 at e
  grind [modCtxAt_mem, sendLine_formed, engineWrite_formed, modTile_mem]
theorem cmdLines_formed {s : State} (t : Nat) (c : MCmd) (acc : Acc) (hs : s.formed) : (s.cmdLines t c acc).2.formed := by
  unfold State.cmdLines
  grind [translate_formed, foldl_formed, foldl_snd_formed]
theorem retireStore_formed {s z : State} (t : Nat) (c : MCmd) (hs : s.formed) (e : s.retireStore t c = some z) : z.formed := by
  unfold State.retireStore at e
  simp only [Option.map_eq_some_iff] at e
  obtain ⟨u, e, rfl⟩ := e
  grind [modTile_mem, storeLine0_formed, raiseMatrix_formed, modEngine_formed, foldlM_formed]
theorem readLines0_formed {s : State} (t : Nat) (c : MCmd) (hs : s.formed) : (s.readLines0 t c).2.formed := by
  unfold State.readLines0
  grind [peekLine_formed, foldl_formed, foldl_snd_formed]
theorem retireLoad_formed {s : State} (t : Nat) (c : MCmd) (hs : s.formed) : (s.retireLoad t c).formed := by
  unfold State.retireLoad
  grind [readLines0_formed, modEngine_formed, raiseMatrix_formed, foldl_formed]
theorem retireCmd_formed {s : State} (t : Nat) (hs : s.formed) : (s.retireCmd t).formed := by
  unfold State.retireCmd
  grind [modEngine_formed, cmdLines_formed, retireStore_formed, retireLoad_formed, getD_formed]
theorem execMatrixKstep_formed {s : State} (t : Nat) (hs : s.formed) : outFormed (execMatrixKstep t s) := by
  grind [execMatrixKstep, happen_formed, kstep_formed]
theorem execRingHandover_formed {s : State} (t : Nat) (hs : s.formed) : outFormed (execRingHandover t s) := by
  grind [execRingHandover, happen_formed, handover_formed]
theorem execMatrixCommandRetirement_formed {s : State} (t : Nat) (hs : s.formed) : outFormed (execMatrixCommandRetirement t s) := by
  grind [execMatrixCommandRetirement, happen_formed, retireCmd_formed]

/-! ## Copies -/

theorem barCheck_formed {s : State} (k : Asker) (p : Word) (hs : s.formed) : (s.barCheck k p).2.formed := by
  unfold State.barCheck
  grind [locate_formed]
theorem copyCheck_formed {s : State} (t : Nat) (x : Xfer) (ap : Bool) (hs : s.formed) : (s.copyCheck t x ap).2.formed := by
  unfold State.copyCheck
  grind [apertureCheck_formed]
theorem creditXfer_formed {s : State} (t ch : Nat) (x : Xfer) (n : Nat) (hs : s.formed) : (s.creditXfer t ch x n).1.formed := by
  unfold State.creditXfer
  grind [localBarrier_formed, sendUpdate_formed]
theorem grantBytes_formed {s : State} (t ch : Nat) (x : Xfer) (n : Nat) (hs : s.formed) : (s.grantBytes t ch x n).1.formed := by
  unfold State.grantBytes
  grind [creditXfer_formed]
theorem readSource_formed {s : State} (t : Nat) (x : Xfer) (n : Nat) (hs : s.formed) : (s.readSource t x n).2.formed := by
  unfold State.readSource
  grind [engineRead_formed]
theorem writeGlobal_formed {s : State} (t ch : Nat) (x : Xfer) (n v : Nat) (hs : s.formed) : (s.writeGlobal t ch x n v).1.formed := by
  unfold State.writeGlobal
  grind [resolve_formed, engineWriteAt_formed, grantBytes_formed, foldl_formed, foldl_mid_formed]
theorem writeLanding_formed {s : State} (t ch : Nat) (x : Xfer) (n v : Nat) (hs : s.formed) : (s.writeLanding t ch x n v).1.formed := by
  unfold State.writeLanding
  grind [modTile_mem, grantBytes_formed, landChunk_formed, transmit_formed, netPay_formed]
theorem writeAperture_formed {s : State} (t ch : Nat) (x : Xfer) (n v : Nat) (hs : s.formed) : (s.writeAperture t ch x n v).1.formed := by
  unfold State.writeAperture
  grind [grantBytes_formed, apertureApply_formed]
theorem copyBytes_formed {s : State} (t ch : Nat) (x : Xfer) (hs : s.formed) : (s.copyBytes t ch x).1.formed := by
  unfold State.copyBytes
  grind [readSource_formed, writeGlobal_formed, modTile_mem, grantBytes_formed, writeLanding_formed, writeAperture_formed]
theorem bumpVersion_formed {s : State} (a : Nat) (hs : s.formed) : (s.bumpVersion a).formed := by
  unfold State.bumpVersion
  grind [serveWrite_formed, writeNat_wf]
theorem awaitVersion_formed {s : State} (a key : Nat) (hs : s.formed) : (s.awaitVersion a key).formed := by
  unfold State.awaitVersion
  grind
theorem dropWait_formed {s : State} (key : Nat) (hs : s.formed) : (s.dropWait key).formed := by
  unfold State.dropWait
  grind
theorem raiseOdd_formed {s z : State} (a key : Nat) (hs : s.formed) (e : s.raiseOdd a key = some z) : z.formed := by
  unfold State.raiseOdd at e
  grind [bumpVersion_formed, dropWait_formed]
theorem versionPlace_formed {s : State} (x : Xfer) (p : Word) (acc : Acc) (hs : s.formed) : (s.versionPlace x p acc).2.formed := by
  unfold State.versionPlace
  grind [resolve_formed, sendLine_formed]
theorem dropHolds_formed {s : State} (key : Nat) (hs : s.formed) : (s.dropHolds key).formed := by
  unfold State.dropHolds
  grind
theorem beginTry_formed {s : State} (t ch : Nat) (x : Xfer) (hs : s.formed) : (s.beginTry t ch x).1.formed := by
  unfold State.beginTry
  grind [versionPlace_formed, awaitVersion_formed, dropWait_formed]
theorem creditAll_formed {s : State} (t ch : Nat) (x : Xfer) (n : Nat) (hs : s.formed) : (s.creditAll t ch x n).1.formed := by
  unfold State.creditAll
  grind [landChunk_formed, creditXfer_formed, foldl_formed, foldl_fst_formed]
theorem creditStopped_formed {s : State} (t ch : Nat) (x : Xfer) (hs : s.formed) : (s.creditStopped t ch x).1.formed := by
  unfold State.creditStopped
  grind [creditAll_formed]
theorem endTry_formed {s : State} (t ch : Nat) (x : Xfer) (hs : s.formed) : (s.endTry t ch x).1.formed := by
  unfold State.endTry
  grind [versionPlace_formed, dropHolds_formed, creditAll_formed]
theorem copyStep_formed {s : State} (t ch : Nat) (x : Xfer) (hs : s.formed) : (s.copyStep t ch x).1.formed := by
  unfold State.copyStep
  grind [creditXfer_formed, versionPlace_formed, raiseOdd_formed, awaitVersion_formed, beginTry_formed, copyBytes_formed, endTry_formed]
theorem unmigrate_formed {s : State} (lines : List Nat) (hs : s.formed) : (s.unmigrate lines).formed := by
  unfold State.unmigrate
  grind [modDir_mem, serveLine_formed, foldl_formed]
theorem migrateLine_formed {s : State} (src dst : Nat) (hs : s.formed) : (s.migrateLine src dst).formed := by
  unfold State.migrateLine
  grind [clearRemote_formed, recallOwners_formed, serveWrite_formed, modDir_mem, serveLine_formed, writeLine_wf]
theorem beginMigrate_formed {s : State} (lines : List Nat) (hs : s.formed) : (s.beginMigrate lines).formed := by
  unfold State.beginMigrate
  grind [modDir_mem, foldl_formed]
theorem moveLine_formed {s : State} (t ch : Nat) (x : Xfer) (hs : s.formed) : (s.moveLine t ch x).1.formed := by
  unfold State.moveLine
  grind [creditXfer_formed, sendNow_formed, migrateLine_formed]
theorem migrateStep_formed {s : State} (t ch : Nat) (x : Xfer) (hs : s.formed) : (s.migrateStep t ch x).1.formed := by
  unfold State.migrateStep
  grind [unmigrate_formed, beginMigrate_formed, moveLine_formed, foldl_formed, foldl_fst_formed]
theorem retireStep_formed {s : State} (t ch : Nat) (x : Xfer) (hs : s.formed) : (s.retireStep t ch x).1.formed := by
  unfold State.retireStep
  grind [modDir_mem, creditXfer_formed, foldl_formed, foldl_snd_formed]
theorem xferStep_formed {s : State} (t ch : Nat) (x : Xfer) (hs : s.formed) : (s.xferStep t ch x).1.formed := by
  unfold State.xferStep
  grind [copyStep_formed, creditStopped_formed, migrateStep_formed, retireStep_formed]
theorem killXfer_formed {s : State} (t ch : Nat) (x : Xfer) (hs : s.formed) : (s.killXfer t ch x).1.formed := by
  unfold State.killXfer
  grind [creditStopped_formed]
theorem stopChan_formed {s : State} (t ch : Nat) (code : BitVec 8) (moved : Nat) (hs : s.formed) : (s.stopChan t ch code moved).formed := by
  unfold State.stopChan
  grind [modChan_formed, raiseIn_formed]
theorem checkRecord_formed {s : State} (t : Nat) (a : Armer) (r : Xfer × Option Word × Bool) (hs : s.formed) : (s.checkRecord t a r).2.formed := by
  unfold State.checkRecord
  grind [copyCheck_formed, barCheck_formed]
theorem loadRecord_formed {s : State} (t ch : Nat) (hs : s.formed) : (s.loadRecord t ch).formed := by
  unfold State.loadRecord
  grind [stopChan_formed, engineRead_formed, modChan_formed, checkRecord_formed]
theorem lowerVersion_formed {s : State} (x : Xfer) (hs : s.formed) : (s.lowerVersion x).1.formed := by
  unfold State.lowerVersion
  grind [bumpVersion_formed]
theorem completeRecord_formed {s : State} (t ch : Nat) (hs : s.formed) : (s.completeRecord t ch).formed := by
  unfold State.completeRecord
  grind [lowerVersion_formed, dropHolds_formed, modChan_formed, engineStore_formed, stopChan_formed]
theorem chanPiece_formed {s : State} (t ch : Nat) (hs : s.formed) : (s.chanPiece t ch).formed := by
  unfold State.chanPiece
  grind [loadRecord_formed, xferStep_formed, modChan_formed]
theorem directPiece_formed {s : State} (t : Nat) (hs : s.formed) : (s.directPiece t).formed := by
  unfold State.directPiece
  grind [direct_keepsForm, xferStep_formed, modTile_mem]
theorem endXfer_formed {s : State} (t : Nat) (x : Xfer) (hs : s.formed) : (s.endXfer t x).formed := by
  unfold State.endXfer
  grind [lowerVersion_formed, direct_keepsForm, dropHolds_formed, modTile_mem, modIssuer_formed, raiseIn_formed]
theorem endDirect_formed {s : State} (t : Nat) (hs : s.formed) : (s.endDirect t).formed := by
  unfold State.endDirect
  grind [endXfer_formed]
theorem storesGranted_keepsForm : KeepsForm storesGranted := by
  grind [storesGranted, performPairs_keepsForm, waitKeep_keepsForm, KeepsForm.bind, KeepsForm.pure, KeepsForm.get_bind]
theorem execCpy_formed {s : State} (f : LF) (hs : s.formed) : outFormed (execCpy f s) := by
  refine finish_formed ?_ hs
  repeat' first
    | with_reducible refine KeepsForm.get_bind fun s hs => ?_
    | with_reducible refine KeepsForm.bind ?_ fun _ => ?_
    | with_reducible refine KeepsForm.unless ?_ fun _ => ?_
    | split
  all_goals grind [rs_keepsForm, need_keepsForm, getT_keepsForm, direct_keepsForm, wait_keepsForm, storesGranted_keepsForm, armer_keepsForm,
      copyCheck_formed, waitKeep_keepsForm, modT_keepsForm, KeepsForm.bind, KeepsForm.pure, KeepsForm.get_bind, set_keepsForm]
theorem execCpych_formed {s : State} (f : CF) (hs : s.formed) : outFormed (execCpych f s) := by
  refine finish_formed ?_ hs
  repeat' first
    | with_reducible refine KeepsForm.get_bind fun s hs => ?_
    | with_reducible refine KeepsForm.bind ?_ fun _ => ?_
    | with_reducible refine KeepsForm.unless ?_ fun _ => ?_
    | split
  all_goals grind [notHelper_keepsForm, rs_keepsForm, getT_keepsForm, ws_keepsForm, storesGranted_keepsForm, armer_keepsForm, upd_keepsForm,
      startWalk_formed, KeepsForm.bind, KeepsForm.pure]
theorem execCpystat_formed {s : State} (f : CF) (hs : s.formed) : outFormed (execCpystat f s) := by
  grind [execCpystat, finish_formed, ws_keepsForm, modC_keepsForm, KeepsForm.bind, KeepsForm.pure, KeepsForm.get_bind]
theorem execCpywait_formed {s : State} (f : CF) (hs : s.formed) : outFormed (execCpywait f s) := by
  grind [execCpywait, finish_formed, wait_keepsForm, flash_keepsForm, KeepsForm.bind, KeepsForm.pure, KeepsForm.get_bind]
theorem killChan_formed {s : State} (t ch : Nat) (hs : s.formed) : (s.killChan t ch).formed := by
  unfold State.killChan
  grind [loadRecord_formed, killXfer_formed, modChan_formed, completeRecord_formed]
theorem killDirect_formed {s : State} (t : Nat) (d : Xfer) (hs : s.formed) : (s.killDirect t d).formed := by
  unfold State.killDirect
  grind [killXfer_formed, modTile_mem, direct_keepsForm, endXfer_formed]
theorem execCpykill_formed {s : State} (f : CF) (hs : s.formed) : outFormed (execCpykill f s) := by
  grind [execCpykill, finish_formed, notHelper_keepsForm, upd_keepsForm, killDirect_formed, killChan_formed, getT_keepsForm, waitKeep_keepsForm,
      foldl_formed, KeepsForm.bind, KeepsForm.pure, KeepsForm.get_bind, set_keepsForm]
theorem execCopyPiece_formed {s : State} (t ch : Nat) (hs : s.formed) : outFormed (execCopyPiece t ch s) := by
  grind [execCopyPiece, happen_formed, chanPiece_formed, directPiece_formed]
theorem execRecordComplete_formed {s : State} (t ch : Nat) (hs : s.formed) : outFormed (execRecordComplete t ch s) := by
  grind [execRecordComplete, happen_formed, completeRecord_formed]
theorem execDirectTransferDone_formed {s : State} (t : Nat) (hs : s.formed) : outFormed (execDirectTransferDone t s) := by
  grind [execDirectTransferDone, happen_formed, endDirect_formed]
theorem execAonVersionRaise_formed {s : State} (a : Nat) (hs : s.formed) : outFormed (execAonVersionRaise a s) := by
  grind [execAonVersionRaise, happen_formed, raiseOdd_formed, getD_formed]
theorem execSlotLanding_formed {s : State} (t slot gen chunk : Nat) (mask : BitVec 512) (data : BitVec 4096) (hs : s.formed) : outFormed (execSlotLanding t
    slot gen chunk mask data s) := by
  grind [execSlotLanding, happen_formed, modTile_mem, landChunk_formed, foldl_formed]
theorem execLsalloc_formed {s : State} (f : CF) (hs : s.formed) : outFormed (execLsalloc f s) := by
  grind [execLsalloc, finish_formed, rs_keepsForm, ws_keepsForm, upd_keepsForm, pinLines_formed, modTile_mem, KeepsForm.bind, KeepsForm.pure,
      KeepsForm.get_bind]
theorem execLsfree_formed {s : State} (f : CF) (hs : s.formed) : outFormed (execLsfree f s) := by
  grind [execLsfree, finish_formed, rs_keepsForm, need_keepsForm, wait_keepsForm, upd_keepsForm, freeSlot_formed, wake_formed, KeepsForm.bind,
      KeepsForm.pure, KeepsForm.get_bind]

/-! ## Compacts -/

theorem modCompact_formed {s : State} (m : Member) (f : Compact → Compact) (hs : s.formed) : (s.modCompact m f).formed := by
  unfold State.modCompact
  grind
theorem dropCompact_formed {s : State} (m : Member) (hs : s.formed) : (s.dropCompact m).formed := by
  unfold State.dropCompact
  grind
theorem modMember_formed {s : State} (t : Nat) (m : Member) (f : Member → Member) (hs : s.formed) : (s.modMember t m f).formed := by
  unfold State.modMember
  grind [modTile_mem]
theorem formIfDone_formed {s : State} (m : Member) (hs : s.formed) : (s.formIfDone m).formed := by
  unfold State.formIfDone
  grind [modTile_mem, modCompact_formed, foldl_formed]
theorem serveSign_formed {s : State} (t : Nat) (m : Member) (desc : Word) (members : List Nat) (hs : s.formed) : (s.serveSign t m desc members).2.formed := by
  unfold State.serveSign
  grind [modCompact_formed, formIfDone_formed]
theorem leaveCompact_formed {s : State} (t : Nat) (m : Member) (hs : s.formed) : (s.leaveCompact t m).formed := by
  unfold State.leaveCompact
  grind [modCompact_formed, dropCompact_formed]
theorem block32_keepsForm (p : Word) : KeepsForm (block32 p) := by
  grind [block32, need_keepsForm, loadNow_keepsForm, KeepsForm.bind, KeepsForm.pure]
theorem blockAt_keepsForm (p : Word) (i : Nat) : KeepsForm (blockAt p i) := by
  grind [blockAt, trap_keepsForm, block32_keepsForm, KeepsForm.bind, KeepsForm.pure]
theorem boundLeaf_keepsForm (gva : Word) (va : Nat) : KeepsForm (boundLeaf gva va) := by
  grind [boundLeaf, translate_formed, KeepsForm.pure, KeepsForm, resultFormed, Stop.formed]
theorem rangeSignLines_keepsForm (r : List Word) : KeepsForm (rangeSignLines r) := by
  grind [rangeSignLines, boundLeaf_keepsForm, KeepsForm.mapM, KeepsForm.bind, KeepsForm.pure, KeepsForm.get_bind]
theorem signCheck_keepsForm (p : Word) : KeepsForm (signCheck p) := by
  have rows (w : Word) (n : Nat) := KeepsForm.mapM (blockAt_keepsForm w) (List.range n)
  have lines := KeepsForm.mapM rangeSignLines_keepsForm
  unfold signCheck
  dsimp only
  repeat' first
    | with_reducible refine KeepsForm.get_bind fun s hs => ?_
    | with_reducible refine KeepsForm.bind ?_ fun _ => ?_
    | split
  all_goals grind [block32_keepsForm, getT_keepsForm, KeepsForm.pure]
theorem dissolveLine_formed {s : State} (t l : Nat) (asid : BitVec 16) (hs : s.formed) : (s.dissolveLine t l asid).formed := by
  unfold State.dissolveLine
  grind [unpinLine_formed, evict_formed, clearOwner_formed, trimSet_formed, modTile_mem, modDir_mem, serveLine_formed, foldl_formed]
theorem dissolve_formed {s : State} (t : Nat) (hs : s.formed) : (s.dissolve t).formed := by
  unfold State.dissolve
  grind [dissolveLine_formed, modTile_mem, foldl_formed]
theorem withdraw_formed {s : State} (t : Nat) (hs : s.formed) : (s.withdraw t).formed := by
  unfold State.withdraw
  grind [leaveCompact_formed, dissolve_formed]
theorem signReturn_keepsForm (d : BitVec 5) (code : Nat) : KeepsForm (signReturn d code) := by
  unfold signReturn
  repeat' first
    | with_reducible refine KeepsForm.get_bind fun s hs => ?_
    | with_reducible refine KeepsForm.bind ?_ fun _ => ?_
    | with_reducible refine KeepsForm.unless ?_ fun _ => ?_
    | split
  all_goals grind [flash_keepsForm, ws_keepsForm, KeepsForm.bind, KeepsForm.pure]
theorem notInHelper_keepsForm : KeepsForm notInHelper := by
  grind [notInHelper, inHelper_keepsForm, trap_keepsForm, unitImage_keepsForm, KeepsForm.bind, KeepsForm.pure]
theorem askCoordinator_keepsForm (d : BitVec 5) (m : Member) (desc : Word) (members : List Nat) : KeepsForm (askCoordinator d m desc members) := by
  unfold askCoordinator
  repeat' first
    | with_reducible refine KeepsForm.get_bind fun s hs => ?_
    | with_reducible refine KeepsForm.bind ?_ fun _ => ?_
    | with_reducible refine KeepsForm.unless ?_ fun _ => ?_
    | split
  all_goals grind [serveSign_formed, dissolve_formed, signReturn_keepsForm, waitKeep_keepsForm, KeepsForm.bind, KeepsForm.pure, KeepsForm.get_bind,
      set_keepsForm]
/-- What holding a line leaves is in canonical form. -/
def LineRes.formed : LineRes → Prop
  | .ok s | .code _ s => s.formed
  | .wait => True
theorem holdLine_formed {s : State} (t : Nat) (l : SignLine) (hs : s.formed) : (s.holdLine t l).formed := by
  unfold State.holdLine
  grind [LineRes.formed, modTile_mem, pinLine_formed, foldl_formed, evict_formed, serveRegister_formed, report_formed, modDir_mem]
theorem holdLines_formed {s : State} (t : Nat) (ls : List SignLine) (hs : s.formed) : (s.holdLines t ls).formed := by
  induction ls generalizing s with
  | nil => exact hs
  | cons l ls ih => grind [State.holdLines, holdLine_formed, LineRes.formed]
theorem execCsign_formed {s : State} (f : CF) (hs : s.formed) : outFormed (execCsign f s) := by
  refine finish_formed ?_ hs
  repeat' first
    | with_reducible refine KeepsForm.get_bind fun s hs => ?_
    | with_reducible refine KeepsForm.bind ?_ fun _ => ?_
    | split
  all_goals grind [notInHelper_keepsForm, rs_keepsForm, wait_keepsForm, askCoordinator_keepsForm, upd_keepsForm, modMember_formed, signReturn_keepsForm,
      release_keepsForm, signCheck_keepsForm, dissolve_formed, modTile_mem, KeepsForm.bind, KeepsForm.pure, KeepsForm.get_bind, set_keepsForm,
      holdLines_formed, LineRes.formed]
theorem publish_formed {s : State} (t : Nat) (hs : s.formed) : (s.publish t).formed := by
  unfold State.publish
  grind [modTile_mem, publishReads_formed, writeLine_wf, foldl_formed]
theorem treeArrive_formed {s : State} (t : Nat) (m : Member) (own leave : Bool) (hs : s.formed) : (s.treeArrive t m own leave).formed := by
  unfold State.treeArrive
  grind [modMember_formed, modCompact_formed, dropCompact_formed, foldl_formed]
theorem arrive_keepsForm (m : Member) (own leave : Bool) : KeepsForm (arrive m own leave : M α) := by
  grind [arrive, upd_keepsForm, treeArrive_formed, waitKeep_keepsForm, KeepsForm.bind, KeepsForm.pure]
theorem boundaryDone_keepsForm (m : Member) (any own : Bool) : KeepsForm (boundaryDone m any own) := by
  grind [boundaryDone, upd_keepsForm, modMember_formed, flash_keepsForm, KeepsForm.bind, KeepsForm.pure]
theorem boundary_keepsForm (chain : Option Word) (m : Member) : KeepsForm (boundary chain m) := by
  unfold boundary
  repeat' first
    | with_reducible refine KeepsForm.get_bind fun s hs => ?_
    | with_reducible refine KeepsForm.bind ?_ fun _ => ?_
    | with_reducible refine KeepsForm.unless ?_ fun _ => ?_
    | split
  all_goals grind [boundaryDone_keepsForm, wait_keepsForm, getT_keepsForm, arrive_keepsForm, armer_keepsForm, upd_keepsForm, startWalk_formed,
      modMember_formed, waitKeep_keepsForm, release_keepsForm, publish_formed, KeepsForm.bind, KeepsForm.pure, KeepsForm.get_bind]
theorem execCstep_formed {s : State} (f : CF) (hs : s.formed) : outFormed (execCstep f s) := by
  grind [execCstep, finish_formed, notInHelper_keepsForm, rs_keepsForm, getT_keepsForm, ws_keepsForm, boundary_keepsForm, KeepsForm.bind, KeepsForm.pure]
theorem execCdiss_formed {s : State} (f : CF) (hs : s.formed) : outFormed (execCdiss f s) := by
  refine finish_formed ?_ hs
  repeat' first
    | with_reducible refine KeepsForm.get_bind fun s hs => ?_
    | with_reducible refine KeepsForm.bind ?_ fun _ => ?_
    | with_reducible refine KeepsForm.unless ?_ fun _ => ?_
    | split
  all_goals grind [notInHelper_keepsForm, getT_keepsForm, ws_keepsForm, wait_keepsForm, boundary_keepsForm, upd_keepsForm, leaveCompact_formed,
      dissolve_formed, KeepsForm.bind, KeepsForm.pure]
theorem execCompactSignature_formed {s : State} (t : Nat) (hs : s.formed) : outFormed (execCompactSignature t s) := by
  grind [execCompactSignature, happen_formed, serveSign_formed]
theorem execCompactWithdrawal_formed {s : State} (t : Nat) (hs : s.formed) : outFormed (execCompactWithdrawal t s) := by
  grind [execCompactWithdrawal, happen_formed, withdraw_formed]
theorem execCompactTreeArrival_formed {s : State} (t : Nat) (own : Bool) (hs : s.formed) : outFormed (execCompactTreeArrival t own s) := by
  grind [execCompactTreeArrival, happen_formed, treeArrive_formed]
theorem loseIn_formed {s : State} (t : Nat) (m : Member) (hs : s.formed) : (s.loseIn t m).formed := by
  unfold State.loseIn
  grind [modCompact_formed, modMember_formed, foldl_formed]
theorem loseMembers_formed {s : State} (t : Nat) (which : Nat → Bool) (hs : s.formed) : (s.loseMembers t which).formed := by
  unfold State.loseMembers
  grind [loseIn_formed, poisonLine_formed, foldl_formed]
theorem execMemberLoss_formed {s : State} (t : Nat) (hs : s.formed) : outFormed (execMemberLoss t s) := by
  grind [execMemberLoss, happen_formed, loseMembers_formed]
theorem loseCompacts_formed {s : State} (t : Nat) (hs : s.formed) : (s.loseCompacts t).formed := by
  unfold State.loseCompacts
  grind [withdraw_formed, loseMembers_formed]

/-! ## Helpers, tasks and gangs -/

theorem startHelper_formed {s : State} (t c : Nat) (entry s1 : Word) (banks prio : Nat) (hs : s.formed) : (s.startHelper t c entry s1 banks prio).formed := by
  unfold State.startHelper
  grind [modTile_mem]
theorem endCtx_formed {s : State} (t c : Nat) (hs : s.formed) : (s.endCtx t c).formed := by
  unfold State.endCtx
  grind [endRequests_formed, modTile_mem]
theorem endHelper_formed {s : State} (t c status : Nat) (hs : s.formed) : (s.endHelper t c status).formed := by
  unfold State.endHelper
  grind [endCtx_formed, modTile_mem, wake_formed]
theorem killHelper_formed {s : State} (t c : Nat) (hs : s.formed) : (s.killHelper t c).formed := by
  unfold State.killHelper
  grind [discardEffects_formed, endHelper_formed]
theorem entryOk_keepsForm (p : Word) : KeepsForm (entryOk p) := by
  grind [entryOk, need_keepsForm, KeepsForm.bind, KeepsForm.pure]
theorem execHstart_formed {s : State} (f : CF) (hs : s.formed) : outFormed (execHstart f s) := by
  refine finish_formed ?_ hs
  repeat' first
    | with_reducible refine KeepsForm.get_bind fun s hs => ?_
    | with_reducible refine KeepsForm.bind ?_ fun _ => ?_
    | with_reducible refine KeepsForm.unless ?_ fun _ => ?_
    | split
  all_goals grind [notHelper_keepsForm, rs_keepsForm, entryOk_keepsForm, release_keepsForm, upd_keepsForm, modTile_mem, getT_keepsForm, ws_keepsForm,
      startHelper_formed, KeepsForm.bind, KeepsForm.pure]
theorem execHend_formed {s : State} (f : CF) (hs : s.formed) : outFormed (execHend f s) := by
  grind [execHend, finish_formed, inHelper_keepsForm, trap_keepsForm, release_keepsForm, waitKeep_keepsForm, commitEffects_formed, endHelper_formed,
      KeepsForm.bind, KeepsForm.pure, KeepsForm.get_bind, set_keepsForm]
theorem execHjoin_formed {s : State} (f : CF) (hs : s.formed) : outFormed (execHjoin f s) := by
  grind [execHjoin, finish_formed, notHelper_keepsForm, rs_keepsForm, getT_keepsForm, wait_keepsForm, modT_keepsForm, flash_keepsForm, ws_keepsForm,
      KeepsForm.bind, KeepsForm.pure]
theorem execHkill_formed {s : State} (f : CF) (hs : s.formed) : outFormed (execHkill f s) := by
  grind [execHkill, finish_formed, notHelper_keepsForm, rs_keepsForm, getT_keepsForm, upd_keepsForm, killHelper_formed, KeepsForm.bind, KeepsForm.pure]
theorem execTentativeCommit_formed {s : State} (t c : Nat) (hs : s.formed) : outFormed (execTentativeCommit t c s) := by
  grind [execTentativeCommit, happen_formed, commitEffects_formed]
theorem execTentativeDiscard_formed {s : State} (t c : Nat) (hs : s.formed) : outFormed (execTentativeDiscard t c s) := by
  grind [execTentativeDiscard, happen_formed, discardEffects_formed]
theorem inputSet_keepsForm (p : Word) : KeepsForm (inputSet p) := by
  unfold inputSet
  repeat' first
    | with_reducible refine KeepsForm.get_bind fun s hs => ?_
    | with_reducible refine KeepsForm.bind ?_ fun _ => ?_
    | with_reducible refine KeepsForm.unless ?_ fun _ => ?_
    | split
  all_goals grind [need_keepsForm, loadNow_keepsForm, trap_keepsForm, KeepsForm.bind, KeepsForm.pure, KeepsForm.get_bind]
theorem queueTask_keepsForm (entry record : Word) (sets : List (Word × BitVec 128)) (banks prio : Nat) : KeepsForm (queueTask entry record sets banks prio)
    := by
  grind [queueTask, getC_keepsForm, modT_keepsForm, KeepsForm.bind, KeepsForm.pure]
theorem execTaskq_formed {s : State} (f : CF) (hs : s.formed) : outFormed (execTaskq f s) := by
  refine finish_formed ?_ hs
  repeat' first
    | with_reducible refine KeepsForm.get_bind fun s hs => ?_
    | with_reducible refine KeepsForm.bind ?_ fun _ => ?_
    | with_reducible refine KeepsForm.unless ?_ fun _ => ?_
    | split
  all_goals grind [notHelper_keepsForm, rs_keepsForm, entryOk_keepsForm, release_keepsForm, inputSet_keepsForm, ws_keepsForm, getT_keepsForm,
      queueTask_keepsForm, KeepsForm.bind, KeepsForm.pure]
theorem execTaskqLone_formed {s : State} (f : LF) (hs : s.formed) : outFormed (execTaskqLone f s) := by
  refine finish_formed ?_ hs
  repeat' first
    | with_reducible refine KeepsForm.get_bind fun s hs => ?_
    | with_reducible refine KeepsForm.bind ?_ fun _ => ?_
    | with_reducible refine KeepsForm.unless ?_ fun _ => ?_
    | split
  all_goals grind [notHelper_keepsForm, rs_keepsForm, entryOk_keepsForm, release_keepsForm, inputSet_keepsForm, trap_keepsForm, getT_keepsForm,
      wait_keepsForm, queueTask_keepsForm, KeepsForm.bind, KeepsForm.pure]
theorem startTask_formed {s : State} (t : Nat) (hs : s.formed) : (s.startTask t).formed := by
  unfold State.startTask
  grind [modTile_mem, startHelper_formed, modCtxAt_mem]
theorem execTaskStart_formed {s : State} (t : Nat) (hs : s.formed) : outFormed (execTaskStart t s) := by
  grind [execTaskStart, happen_formed, startTask_formed]
theorem formGang_keepsForm (mask : BitVec 8) : KeepsForm (formGang mask) := by
  grind [formGang, upd_keepsForm, modTile_mem, modCtxAt_mem, modC_keepsForm, foldl_formed, KeepsForm.bind, KeepsForm.pure, KeepsForm.get_bind]
theorem execGfuse_formed {s : State} (f : CF) (hs : s.formed) : outFormed (execGfuse f s) := by
  grind [execGfuse, finish_formed, notHelper_keepsForm, rs_keepsForm, ws_keepsForm, modT_keepsForm, waitKeep_keepsForm, formGang_keepsForm, KeepsForm.bind,
      KeepsForm.pure, KeepsForm.get_bind]
theorem execGsplit_formed {s : State} (f : CF) (hs : s.formed) : outFormed (execGsplit f s) := by
  grind [execGsplit, finish_formed, notHelper_keepsForm, modT_keepsForm, KeepsForm.bind, KeepsForm.pure]

end Sys2Proof.Machine
end

section
set_option Elab.async false
/-! Every function of this part of the model keeps the canonical form of memory. Contexts, the fabric and the devices. -/
namespace Sys2Proof.Machine

/-! ## System instructions and events -/

theorem csrIndex_keepsForm (n : Nat) (r : BitVec 5) : KeepsForm (csrIndex n r) := by
  grind [csrIndex, rs_keepsForm, KeepsForm.pure]
theorem execSysr_formed {s : State} (f : CF) (hs : s.formed) : outFormed (execSysr f s) := by
  grind [execSysr, finish_formed, settled_keepsForm, csrIndex_keepsForm, csrCheck_keepsForm, ws_keepsForm, KeepsForm.bind, KeepsForm.pure, KeepsForm.get_bind]
theorem syswArgs_keepsForm (f : CF) (n : Nat) : KeepsForm (syswArgs f n) := by
  grind [syswArgs, settled_keepsForm, rs_keepsForm, csrIndex_keepsForm, csrCheck_keepsForm, KeepsForm.bind, KeepsForm.pure]
theorem execSysw_formed {s : State} (f : CF) (hs : s.formed) : outFormed (execSysw f s) := by
  grind [execSysw, finish_formed, syswArgs_keepsForm, upd_keepsForm, setCsr_formed, KeepsForm.bind, KeepsForm.pure]
theorem execSyswFlags_formed {s : State} (f : CF) (hs : s.formed) : outFormed (execSyswFlags f s) := by
  grind [execSyswFlags, finish_formed, syswArgs_keepsForm, modC_keepsForm, KeepsForm.bind, KeepsForm.pure]
theorem execSyswRingcfg_formed {s : State} (f : CF) (hs : s.formed) : outFormed (execSyswRingcfg f s) := by
  grind [execSyswRingcfg, finish_formed, syswArgs_keepsForm, getT_keepsForm, wait_keepsForm, modT_keepsForm, KeepsForm.bind, KeepsForm.pure]
theorem modF_keepsForm (f : Fabric → Fabric) : KeepsForm (modF f) := by
  grind [modF, upd_keepsForm, modFabric_mem]
theorem execGlDrainGo_formed {s : State} (f : CF) (hs : s.formed) : outFormed (execGlDrainGo f s) := by
  grind [execGlDrainGo, finish_formed, syswArgs_keepsForm, modF_keepsForm, KeepsForm.bind, KeepsForm.pure, KeepsForm.get_bind]
theorem execGlRelockGo_formed {s : State} (f : CF) (hs : s.formed) : outFormed (execGlRelockGo f s) := by
  grind [execGlRelockGo, finish_formed, syswArgs_keepsForm, modF_keepsForm, KeepsForm.bind, KeepsForm.pure, KeepsForm.get_bind]
theorem execGlLanestatEn_formed {s : State} (f : CF) (hs : s.formed) : outFormed (execGlLanestatEn f s) := by
  grind [execGlLanestatEn, finish_formed, syswArgs_keepsForm, modF_keepsForm, KeepsForm.bind, KeepsForm.pure]
theorem execGlAllowWithhold_formed {s : State} (f : CF) (hs : s.formed) : outFormed (execGlAllowWithhold f s) := by
  grind [execGlAllowWithhold, finish_formed, syswArgs_keepsForm, modF_keepsForm, KeepsForm.bind, KeepsForm.pure]
theorem yieldFor_keepsForm : KeepsForm yieldFor := by
  grind [yieldFor, upd_keepsForm, setCtx_mem]
theorem execYield_formed {s : State} (f : CF) (hs : s.formed) : outFormed (execYield f s) := by
  grind [execYield, finish_formed, yieldFor_keepsForm, KeepsForm.bind, KeepsForm.pure]
theorem execWaiti_formed {s : State} (f : CF) (hs : s.formed) : outFormed (execWaiti f s) := by
  grind [execWaiti, finish_formed, inHelper_keepsForm, yieldFor_keepsForm, getC_keepsForm, modC_keepsForm, waitKeep_keepsForm, wait_keepsForm,
      KeepsForm.bind, KeepsForm.pure]
theorem haltTile_formed {s : State} (t : Nat) (hs : s.formed) : (s.haltTile t).formed := by
  unfold State.haltTile
  grind [freeSlot_formed, endCtx_formed, modTile_mem, foldl_formed]
theorem execHalt_formed {s : State} (f : CF) (hs : s.formed) : outFormed (execHalt f s) := by
  refine finish_formed ?_ hs
  repeat' first
    | with_reducible refine KeepsForm.get_bind fun s hs => ?_
    | with_reducible refine KeepsForm.bind ?_ fun _ => ?_
    | with_reducible refine KeepsForm.unless ?_ fun _ => ?_
    | split
  all_goals grind [notHelper_keepsForm, getT_keepsForm, need_keepsForm, modT_keepsForm, upd_keepsForm, killHelper_formed, waitKeep_keepsForm,
      retireLoads_keepsForm, release_keepsForm, haltTile_formed, foldl_formed, KeepsForm.bind, KeepsForm.pure, KeepsForm.get_bind]
theorem snapshotAt_formed {s : State} (p t : Nat) (hs : s.formed) : (s.snapshotAt p t).formed := by
  unfold State.snapshotAt
  grind [modMgmt_mem, logEvent_formed]
theorem snapshot_formed {s : State} (p : Nat) (hs : s.formed) : (s.snapshot p).formed := by
  unfold State.snapshot
  grind [snapshotAt_formed]
theorem trigger_formed {s : State} (p n : Nat) (hs : s.formed) : (s.trigger p n).formed := by
  unfold State.trigger
  grind [modMgmt_mem]
theorem fireTriggers_formed {s : State} (p : Nat) (hs : s.formed) : (s.fireTriggers p).formed := by
  unfold State.fireTriggers
  grind [snapshotAt_formed, modMgmt_mem, foldl_formed]
theorem execSnap_formed {s : State} (f : CF) (hs : s.formed) : outFormed (execSnap f s) := by
  grind [execSnap, finish_formed, supervisor_keepsForm, upd_keepsForm, snapshot_formed, KeepsForm.bind, KeepsForm.pure]
theorem tlbInv_formed {s : State} (p r : Nat) (asid : BitVec 16) (va : Nat) (large : Bool) (hs : s.formed) : (s.tlbInv p r asid va large).formed := by
  unfold State.tlbInv
  grind [modDev_mem, modRegion_mem, evict_formed, foldl_formed]
theorem forgetStopped_formed {s : State} (p r va : Nat) (large : Bool) (hs : s.formed) : (s.forgetStopped p r va large).formed := by
  unfold State.forgetStopped
  grind
theorem execTlbinv_formed {s : State} (f : CF) (hs : s.formed) : outFormed (execTlbinv f s) := by
  refine finish_formed ?_ hs
  repeat' first
    | with_reducible refine KeepsForm.get_bind fun s hs => ?_
    | with_reducible refine KeepsForm.bind ?_ fun _ => ?_
    | with_reducible refine KeepsForm.unless ?_ fun _ => ?_
    | split
  all_goals grind [supervisor_keepsForm, rs_keepsForm, need_keepsForm, release_keepsForm, upd_keepsForm, tlbInv_formed, modC_keepsForm,
      forgetStopped_formed, waitKeep_keepsForm, KeepsForm.bind, KeepsForm.pure, KeepsForm.get_bind]
theorem execResize_formed {s : State} (f : CF) (hs : s.formed) : outFormed (execResize f s) := by
  refine finish_formed ?_ hs
  repeat' first
    | with_reducible refine KeepsForm.get_bind fun s hs => ?_
    | with_reducible refine KeepsForm.bind ?_ fun _ => ?_
    | with_reducible refine KeepsForm.unless ?_ fun _ => ?_
    | split
  all_goals grind [supervisor_keepsForm, getT_keepsForm, ws_keepsForm, release_keepsForm, upd_keepsForm, modTile_mem, waitKeep_keepsForm, evict_formed,
      modT_keepsForm, flash_keepsForm, foldl_formed, KeepsForm.bind, KeepsForm.pure]
theorem clearLine_formed {s : State} (gl : Nat) (hs : s.formed) : (s.clearLine gl).formed := by
  unfold State.clearLine
  grind [modTile_mem, modDir_mem, serveLine_formed, writeLine_wf, foldl_formed]
theorem execLineclr_formed {s : State} (f : CF) (hs : s.formed) : outFormed (execLineclr f s) := by
  refine finish_formed ?_ hs
  repeat' first
    | with_reducible refine KeepsForm.get_bind fun s hs => ?_
    | with_reducible refine KeepsForm.bind ?_ fun _ => ?_
    | with_reducible refine KeepsForm.unless ?_ fun _ => ?_
    | split
  all_goals grind [supervisor_keepsForm, rs_keepsForm, need_keepsForm, translate_formed, trap_keepsForm, wait_keepsForm, crosses_keepsForm, upd_keepsForm,
      clearLine_formed, waitKeep_keepsForm, KeepsForm.bind, KeepsForm.pure, KeepsForm.get_bind, KeepsForm, resultFormed, Stop.formed]
theorem execYieldExpiry_formed {s : State} (t c : Nat) (hs : s.formed) : outFormed (execYieldExpiry t c s) := by
  grind [execYieldExpiry, happen_formed, modCtxAt_mem]
theorem execIssuePriorityRaise_formed {s : State} (t c : Nat) (aSlot : Bool) (hs : s.formed) : outFormed (execIssuePriorityRaise t c aSlot s) := by
  grind [execIssuePriorityRaise, happen_formed, modCtxAt_mem]
theorem execBankRetention_formed {s : State} (t c : Nat) (hs : s.formed) : outFormed (execBankRetention t c s) := by
  grind [execBankRetention, happen_formed, modCtxAt_mem]

/-! ## Saving and loading a context -/

theorem finishLoad_formed {s : State} (t c : Nat) (l : PendLoad) (hs : s.formed) : (s.finishLoad t c l).formed := by
  unfold State.finishLoad
  grind [dropDone_formed, modCtxAt_mem, flashTile_mem, foldl_formed]
theorem finishLoads_formed {s : State} (t c : Nat) (hs : s.formed) : (s.finishLoads t c).formed := by
  unfold State.finishLoads
  grind [finishLoad_formed, fillQueues_formed, foldl_formed]
theorem store_formed {s : State} (t : Nat) (im : Image) (loaded : Bool) (hs : s.formed) : (s.store t im loaded).formed := by
  unfold State.store
  grind [modTile_mem, trimSet_formed, foldl_formed]
theorem withdrawAsks_formed {s : State} (t : Nat) (hs : s.formed) : (s.withdrawAsks t).formed := by
  unfold State.withdrawAsks
  grind [closeHeld_formed, foldl_formed]
theorem saveTile_formed {s : State} (t : Nat) (hs : s.formed) : (s.saveTile t).formed := by
  unfold State.saveTile
  grind [withdraw_formed, finishLoads_formed, withdrawAsks_formed, setTile_mem, store_formed, foldl_formed]
theorem modProgs_formed {s : State} (f : Prog → Prog) (hs : s.formed) : (s.modProgs f).formed := by
  unfold State.modProgs
  grind
theorem holdProgs_formed {s : State} (ts : List Nat) (hs : s.formed) : (s.holdProgs ts).formed := by
  unfold State.holdProgs
  grind [modProgs_formed]
theorem freeProgs_formed {s : State} (pid : Nat) (ts : List Nat) (hs : s.formed) : (s.freeProgs pid ts).formed := by
  unfold State.freeProgs
  grind [modProgs_formed]
theorem modPartition_formed {s : State} (pid : Nat) (f : Partition → Partition) (hs : s.formed) : (s.modPartition pid f).formed := by
  unfold State.modPartition
  grind
theorem stopContexts_formed {s : State} (ts : List Nat) (own : Nat × Nat) (hs : s.formed) : (s.stopContexts ts own).formed := by
  unfold State.stopContexts
  grind [modCtxAt_mem, foldl_formed]
theorem finishPairs_formed {s z : State} (t c : Nat) (hs : s.formed) (e : s.finishPairs t c = some z) : z.formed := by
  have h := within_keepsForm t c (performPairs_keepsForm 8) s hs
  grind [State.finishPairs, resultFormed]
theorem finishAllPairs_formed {s z : State} (ts : List Nat) (hs : s.formed) (e : s.finishAllPairs ts = some z) : z.formed := by
  unfold State.finishAllPairs at e
  grind [finishPairs_formed, foldlM_formed]
theorem preemptTiles_formed {s z : State} (tiles : List Nat) (own : Nat × Nat) (hs : s.formed) (e : s.preemptTiles tiles own = some z) : z.formed := by
  unfold State.preemptTiles at e
  grind [stopContexts_formed, finishAllPairs_formed, handover_formed, saveTile_formed, holdProgs_formed, foldl_formed]
theorem preempt_formed {s z : State} (p : Partition) (own : Nat × Nat) (hs : s.formed) (e : s.preempt p own = some z) : z.formed := by
  rw [State.preempt, Option.map_eq_some_iff] at e
  obtain ⟨u, e, rfl⟩ := e
  exact modPartition_formed _ _ (preemptTiles_formed _ _ hs e)
theorem descTiles_keepsForm (p : Word) : KeepsForm (descTiles p) := by
  grind [descTiles, block32_keepsForm, blockAt_keepsForm, KeepsForm.mapM, KeepsForm.bind, KeepsForm.pure, KeepsForm.get_bind]
theorem execPreempt_formed {s : State} (f : CF) (hs : s.formed) : outFormed (execPreempt f s) := by
  refine finish_formed ?_ hs
  repeat' first
    | with_reducible refine KeepsForm.get_bind fun s hs => ?_
    | with_reducible refine KeepsForm.bind ?_ fun _ => ?_
    | with_reducible refine KeepsForm.unless ?_ fun _ => ?_
    | split
  all_goals grind [supervisor_keepsForm, rs_keepsForm, need_keepsForm, loadNow_keepsForm, descTiles_keepsForm, preempt_formed, waitKeep_keepsForm,
      ws_keepsForm, upd_keepsForm, preemptTiles_formed, getD_formed, KeepsForm.bind, KeepsForm.pure, KeepsForm.get_bind]
theorem commitImage_formed {s : State} (t : Nat) (im : Image) (hs : s.formed) : (s.commitImage t im).formed := by
  unfold State.commitImage
  grind [commitLine_formed, sendUpdate_formed, modTile_mem, foldl_formed]
theorem moveLanding_formed {s : State} (t v fuel : Nat) (x : Xfer) (hs : s.formed) : (s.moveLanding t v fuel x).1.formed := by
  induction fuel generalizing s x with
  | zero => exact hs
  | succ fuel ih => grind [State.moveLanding, writeLanding_formed]
theorem execCtxsave_formed {s : State} (f : CF) (hs : s.formed) : outFormed (execCtxsave f s) := by
  refine finish_formed ?_ hs
  dsimp only
  repeat' first
    | with_reducible refine KeepsForm.get_bind fun s hs => ?_
    | with_reducible refine KeepsForm.bind ?_ fun _ => ?_
    | with_reducible refine KeepsForm.unless ?_ fun _ => ?_
    | split
  all_goals grind [supervisor_keepsForm, rs_keepsForm, need_keepsForm, ws_keepsForm, waitKeep_keepsForm, direct_keepsForm, upd_keepsForm,
      commitImage_formed, armer_keepsForm, trapKeep_keepsForm, moveLanding_formed, engineStore_formed, modTile_mem, modT_keepsForm, KeepsForm.bind,
      KeepsForm.pure, KeepsForm.get_bind, set_keepsForm]
theorem readAcbs_formed {s : State} (k : Asker) (p : Word) (pid off fuel : Nat) (acc : List (Nat × Nat)) (hs : s.formed) :
    (s.readAcbs k p pid off fuel acc).2.formed := by
  induction fuel generalizing s off acc with
  | zero => exact hs
  | succ fuel ih => grind [State.readAcbs, engineRead_formed]
theorem readImage_formed {s : State} (k : Asker) (p : Word) (hs : s.formed) : (s.readImage k p).2.formed := by
  unfold State.readImage
  grind [engineRead_formed, readAcbs_formed]
theorem execCtxload_formed {s : State} (f : CF) (hs : s.formed) : outFormed (execCtxload f s) := by
  refine finish_formed ?_ hs
  repeat' first
    | with_reducible refine KeepsForm.get_bind fun s hs => ?_
    | with_reducible refine KeepsForm.bind ?_ fun _ => ?_
    | with_reducible refine KeepsForm.unless ?_ fun _ => ?_
    | split
  all_goals grind [supervisor_keepsForm, rs_keepsForm, need_keepsForm, getT_keepsForm, ws_keepsForm, armer_keepsForm, readImage_formed, waitKeep_keepsForm,
      trap_keepsForm, store_formed, upd_keepsForm, modPartition_formed, KeepsForm.bind, KeepsForm.pure, KeepsForm.get_bind, set_keepsForm]
theorem reserveLines_formed {s : State} (t pid n : Nat) (hs : s.formed) : (s.reserveLines t pid n).formed := by
  unfold State.reserveLines
  grind [modTile_mem, pinLine_formed, foldl_formed]
theorem pipTurns_formed {s : State} (t : Nat) (hs : s.formed) : (s.pipTurns t).formed := by
  unfold State.pipTurns
  grind [pipTurn_formed, foldl_formed]
theorem serveWaiting_formed {s : State} (pid : Nat) (hs : s.formed) : (s.serveWaiting pid).formed := by
  unfold State.serveWaiting
  grind [serveLine_formed, foldl_formed]
theorem killParked_formed {s : State} (o pid : Nat) (hs : s.formed) : (s.killParked o pid).1.formed := by
  unfold State.killParked
  grind [modTile_mem, direct_keepsForm, killChan_formed, killDirect_formed, foldl_formed, foldl_snd_formed]
theorem leaveOrigin_formed {s : State} (o pid : Nat) (hs : s.formed) : (s.leaveOrigin o pid).formed := by
  unfold State.leaveOrigin
  grind [freeSlot_formed, modTile_mem, foldl_formed]
theorem leaveOrigins_formed {s : State} (pid : Nat) (ms : List (Nat × Nat)) (hs : s.formed) : (s.leaveOrigins pid ms).formed := by
  unfold State.leaveOrigins
  grind [modTile_mem, leaveOrigin_formed, foldl_formed]
theorem restoreTile_formed {s : State} (t : Nat) (hs : s.formed) : (s.restoreTile t).formed := by
  unfold State.restoreTile
  grind [modTile_mem, reserveLines_formed, pipTurns_formed, direct_keepsForm]
theorem resume_formed {s : State} (p : Partition) (hs : s.formed) : (s.resume p).formed := by
  unfold State.resume
  grind [killParked_formed, restoreTile_formed, leaveOrigins_formed, freeProgs_formed, serveWaiting_formed, modPartition_formed, foldl_formed,
      foldl_fst_formed]
theorem execPipEnd_formed {s : State} (origin t : Nat) (hs : s.formed) : outFormed (execPipEnd origin t s) := by
  grind [execPipEnd, happen_formed, pipLand_formed, pipFrom_formed, foldl_formed]

/-! ## The fabric -/

theorem lastHop_formed {s : State} (h : Held) (relayed : Bool) (hs : s.formed) : (s.lastHop h relayed).formed := by
  unfold State.lastHop
  grind [transmit_formed, netConsume_formed, netAllow_formed, arrive_formed, loseHeld_formed]
theorem slotSend_formed (d : Nat) {r : State × List (Nat × Nat)} (h : Held) (hs : r.1.formed) : (State.slotSend d r h).1.formed := by
  unfold State.slotSend
  repeat' split
  all_goals grind [charge_formed, lastHop_formed, netSend_formed, modHeld_formed]
theorem slotSends_formed {s : State} (d : Nat) (hs : s.formed) : (s.slotSends d).formed := by
  refine foldl_fst_formed (fun r h hr => ?_) _ hs
  split
  · exact slotSend_formed d _ hr
  · exact hr
theorem execRegisterGrant_formed {s : State} (h : Nat) (hs : s.formed) : outFormed (execRegisterGrant h s) := by
  grind [execRegisterGrant, happen_formed, serveLine_formed]
theorem execSpanReceive_formed {s : State} (h : Nat) (ok : Bool) (hs : s.formed) : outFormed (execSpanReceive h ok s) := by
  grind [execSpanReceive, happen_formed, charge_formed, modFabric_mem, lastHop_formed]
theorem drainCheck_formed {s : State} (p : Nat) (hs : s.formed) : (s.drainCheck p).formed := by
  unfold State.drainCheck
  grind [modFabric_mem]
theorem markerFrom_formed {s : State} (p n : Nat) (hs : s.formed) : (s.markerFrom p n).formed := by
  unfold State.markerFrom
  grind [modFabric_mem, drainCheck_formed]
theorem execDrainMarker_formed {s : State} (dev src : Nat) (hs : s.formed) : outFormed (execDrainMarker dev src s) := by
  grind [execDrainMarker, happen_formed, markerFrom_formed]
theorem sendMarkers_formed {s : State} (p : Nat) (hs : s.formed) : (s.sendMarkers p).formed := by
  unfold State.sendMarkers
  grind [markerFrom_formed, foldl_formed]
theorem loseRelayed_formed {s : State} (d : Nat) (hs : s.formed) : (s.loseRelayed d).formed := by
  unfold State.loseRelayed
  grind [loseHeld_formed, failStep_formed, foldl_formed]
theorem execDrainTimeout_formed {s : State} (dev : Nat) (hs : s.formed) : outFormed (execDrainTimeout dev s) := by
  grind [execDrainTimeout, happen_formed, modFabric_mem, loseRelayed_formed]
theorem execSlotEdge_formed {s : State} (dev k : Nat) (hs : s.formed) : outFormed (execSlotEdge dev k s) := by
  grind [execSlotEdge, happen_formed, modFabric_mem, slotSends_formed, sendMarkers_formed]
theorem execAllowanceReturn_formed {s : State} (dev pos n : Nat) (hs : s.formed) : outFormed (execAllowanceReturn dev pos n s) := by
  grind [execAllowanceReturn, happen_formed, modAllow_formed]
theorem execRelockRotation_formed {s : State} (dev : Nat) (hs : s.formed) : outFormed (execRelockRotation dev s) := by
  grind [execRelockRotation, happen_formed, modFabric_mem]
theorem openPath_formed {s : State} (p n : Nat) (hs : s.formed) : (s.openPath p n).formed := by
  unfold State.openPath
  grind [modAllow_formed]
theorem loseSpans_formed {s : State} (p : Nat) (hs : s.formed) : (s.loseSpans p).formed := by
  unfold State.loseSpans
  grind [failStep_formed, foldl_formed]
theorem losePeers_formed {s : State} (p : Nat) (hs : s.formed) : (s.losePeers p).formed := by
  unfold State.losePeers
  grind [poisonLine_formed, serveLine_formed, foldl_formed]
theorem execRelockDone_formed {s : State} (dev : Nat) (locked : BitVec 64) (hs : s.formed) : outFormed (execRelockDone dev locked s) := by
  grind [execRelockDone, happen_formed, modFabric_mem, openPath_formed, modHeld_formed, loseHeld_formed, loseSpans_formed, losePeers_formed, foldl_formed]
theorem symbols_formed {s : State} (dev lane n : Nat) (hs : s.formed) : (s.symbols dev lane n).formed := by
  unfold State.symbols
  grind [modFabric_mem]
theorem flitArrives_formed {s : State} (dev port : Nat) (f : BitVec 2048) (hs : s.formed) : (s.flitArrives dev port f).formed := by
  unfold State.flitArrives
  split
  · exact hs
  · exact hs
theorem garble_formed {s : State} (dev path n flip : Nat) (hs : s.formed) : (s.garble dev path n flip).formed := by
  unfold State.garble
  grind [modFabric_mem]
theorem execLaneRetrain_formed {s : State} (dev lane : Nat) (hs : s.formed) : outFormed (execLaneRetrain dev lane s) := by
  grind [execLaneRetrain, happen_formed, modFabric_mem, withdraw_formed, foldl_formed]
theorem execLaneHandback_formed {s : State} (dev lane : Nat) (locked : Bool) (hs : s.formed) : outFormed (execLaneHandback dev lane locked s) := by
  grind [execLaneHandback, happen_formed, modFabric_mem, logEvent_formed]

/-! ## Events at a home -/

theorem execHomeRead_formed {s : State} (t gl : Nat) (mask : WordMask) (hs : s.formed) : outFormed (execHomeRead t gl mask s) := by
  grind [execHomeRead, happen_formed, serveRead_formed, servePeek_formed]
theorem execHomeRegister_formed {s : State} (t gl : Nat) (mask : WordMask) (hs : s.formed) : outFormed (execHomeRegister t gl mask s) := by
  grind [execHomeRegister, happen_formed, serveRegister_formed, report_formed]
theorem execHomeWriteback_formed {s : State} (t gl : Nat) (mask : WordMask) (hs : s.formed) : outFormed (execHomeWriteback t gl mask s) := by
  grind [execHomeWriteback, happen_formed, recallTile_formed, clearOwner_formed]
theorem execHomeReturn_formed {s : State} (t gl : Nat) (mask : WordMask) (hs : s.formed) : outFormed (execHomeReturn t gl mask s) := by
  grind [execHomeReturn, happen_formed, recallTile_formed, clearOwner_formed]
theorem execHomeAmo_formed {s : State} (t addr op : Nat) (dbl : Bool) (x cmp : Word) (hs : s.formed) : outFormed (execHomeAmo t addr op dbl x cmp s) := by
  grind [execHomeAmo, happen_formed, homeAmo_formed]
theorem execReadRecall_formed {s : State} (t gl : Nat) (mask : WordMask) (hs : s.formed) : outFormed (execReadRecall t gl mask s) := by
  grind [execReadRecall, happen_formed, recallTile_formed, clearOwner_formed]
theorem execWriteRecall_formed {s : State} (t gl : Nat) (mask : WordMask) (hs : s.formed) : outFormed (execWriteRecall t gl mask s) := by
  grind [execWriteRecall, happen_formed, recallTile_formed, clearOwner_formed]
theorem execFillReturn_formed {s : State} (t c gl va : Nat) (perm : BitVec 3) (hs : s.formed) : outFormed (execFillReturn t c gl va perm s) := by
  grind [execFillReturn, happen_formed, fillRead_formed]
theorem execRemoteInvalidate_formed {s : State} (dev gl : Nat) (hs : s.formed) : outFormed (execRemoteInvalidate dev gl s) := by
  grind [execRemoteInvalidate, happen_formed, recallOwners_formed, modDir_mem, serveLine_formed]
theorem execOperationPacket_formed {s : State} (t gl : Nat) (mask : ByteMask) (data : LineData) (hs : s.formed) : outFormed (execOperationPacket t gl mask
    data s) := by
  grind [execOperationPacket, happen_formed, engineWrite_formed]
theorem setHost_formed {s : State} (gl : Nat) (c : HostCopy) (hs : s.formed) : (s.setHost gl c).formed := by
  unfold State.setHost
  grind [modDir_mem]
theorem execHostRead_formed {s : State} (gl : Nat) (hs : s.formed) : outFormed (execHostRead gl s) := by
  grind [execHostRead, happen_formed, servePeek_formed, setHost_formed]
theorem execHostWrite_formed {s : State} (gl : Nat) (own : Bool) (mask : ByteMask) (data : LineData) (hs : s.formed) : outFormed (execHostWrite gl own mask
    data s) := by
  grind [execHostWrite, happen_formed, serveWrite_formed, report_formed, setHost_formed, writeLine_wf]
theorem execHostSnoop_formed {s : State} (gl : Nat) (hs : s.formed) : outFormed (execHostSnoop gl s) := by
  grind [execHostSnoop, happen_formed, serveWrite_formed]
theorem execBackInvalidateAnswer_formed {s : State} (gl : Nat) (mask : ByteMask) (data : LineData) (hs : s.formed) : outFormed (execBackInvalidateAnswer gl
    mask data s) := by
  grind [execBackInvalidateAnswer, happen_formed, modDir_mem, serveLine_formed, writeLine_wf]
theorem corrected_formed {s : State} (p n : Nat) (hs : s.formed) : (s.corrected p n).formed := by
  unfold State.corrected
  grind [countCorrected_formed]
theorem execWalkComplete_formed {s : State} (dev region n : Nat) (hs : s.formed) : outFormed (execWalkComplete dev region n s) := by
  grind [execWalkComplete, happen_formed, walkAll_formed, endWalk_formed]
theorem execBarrierUpdate_formed {s : State} (glob : Bool) (a : Nat) (arr : Bool) (bytes : Nat) (hs : s.formed) : outFormed (execBarrierUpdate glob a arr
    bytes s) := by
  grind [execBarrierUpdate, happen_formed, barrierUpdate_formed, localBarrier_formed]
theorem execPatrolScrub_formed {s : State} (gl : Nat) (bad : Bool) (hs : s.formed) : outFormed (execPatrolScrub gl bad s) := by
  grind [execPatrolScrub, happen_formed, poisonLine_formed, corrected_formed]

/-! ## Yarrow and launches -/

theorem physRead_formed {s : State} (p pa n : Nat) (hs : s.formed) : (s.physRead p pa n).2.formed := by
  unfold State.physRead
  grind [peekLine_formed]
theorem physBytes_formed {s : State} (p pa n : Nat) (hs : s.formed) : (s.physBytes p pa n).2.formed := by
  unfold State.physBytes
  grind [physRead_formed, foldl_formed, foldl_snd_formed]
theorem physWrite_formed {s z : State} (p pa n v : Nat) (hs : s.formed) (e : s.physWrite p pa n v = some z) : z.formed := by
  unfold State.physWrite at e
  grind [engineWriteAt_formed]
theorem modYarrow_formed {s : State} (p : Nat) (f : Yarrow → Yarrow) (hs : s.formed) : (s.modYarrow p f).formed := by
  unfold State.modYarrow
  grind [modDev_mem]
theorem modQueue_formed {s : State} (p q : Nat) (f : YQueue → YQueue) (hs : s.formed) : (s.modQueue p q f).formed := by
  unfold State.modQueue
  grind [modYarrow_formed]
theorem execYqtbaseWrite_formed {s : State} (dev : Nat) (v : Word) (hs : s.formed) : outFormed (execYqtbaseWrite dev v s) := by
  grind [execYqtbaseWrite, happen_formed, modYarrow_formed]
theorem execFeatackWrite_formed {s : State} (dev : Nat) (v : Word) (hs : s.formed) : outFormed (execFeatackWrite dev v s) := by
  grind [execFeatackWrite, happen_formed, modDev_mem]
theorem readDesc_formed {s : State} (p q : Nat) (hs : s.formed) : (s.readDesc p q).2.formed := by
  unfold State.readDesc
  grind [physRead_formed]
theorem queueErr_formed {s : State} (p q head : Nat) (hs : s.formed) : (s.queueErr p q head).formed := by
  unfold State.queueErr
  grind [physWrite_formed, modQueue_formed, logEvent_formed]
theorem takeRecords_formed {s : State} (p q ring logn n head : Nat) (hs : s.formed) : (s.takeRecords p q ring logn n head).formed := by
  induction n generalizing s head with
  | zero => exact hs
  | succ n ih => grind [State.takeRecords, physRead_formed, physWrite_formed, queueErr_formed, modQueue_formed]
theorem tailLost_formed {s : State} (p q d : Nat) (hs : s.formed) : (s.tailLost p q d).formed := by
  unfold State.tailLost
  grind [queueErr_formed, modQueue_formed]
theorem execTailWake_formed {s : State} (dev q : Nat) (hs : s.formed) : outFormed (execTailWake dev q s) := by
  refine happen_formed ?_
  split
  · exact hs
  have hd := readDesc_formed dev q hs
  split
  case h_2 e => rw [e] at hd; exact hd
  case h_1 d s e =>
  rw [e] at hd
  dsimp only
  generalize hu : s.tailLost dev q d = u
  have hu : u.formed := hu ▸ tailLost_formed _ _ _ hd
  split
  · exact hu
  split
  · exact queueErr_formed _ _ _ hu
  have ht := physRead_formed dev (descTail d) 8 hu
  split
  case h_1 e => rw [e] at ht; exact queueErr_formed _ _ _ ht
  case h_2 e => rw [e] at ht; exact ht
  case h_3 e =>
    rw [e] at ht
    split
    · exact queueErr_formed _ _ _ ht
    · exact takeRecords_formed _ _ _ _ _ _ ht
theorem execCxlLinkDown_formed {s : State} (dev : Nat) (hs : s.formed) : outFormed (execCxlLinkDown dev s) := by
  grind [execCxlLinkDown, happen_formed, modDev_mem, poisonLine_formed, modDir_mem, serveLine_formed, foldl_formed]
theorem execCxlLinkUp_formed {s : State} (dev : Nat) (hs : s.formed) : outFormed (execCxlLinkUp dev s) := by
  grind [execCxlLinkUp, happen_formed, modDev_mem, modQueue_formed, readDesc_formed, tailLost_formed, foldl_formed]
theorem recMembers_formed {s : State} (p : Nat) (r : List Word) (hs : s.formed) : (s.recMembers p r).2.formed := by
  unfold State.recMembers
  grind [engineRead_formed]
/-- What holds of every value holds of this one. -/
theorem of_forall {α : Type} {motive : α → Prop} (a : α) (any : ∀ x, motive x) : motive a := any a
/- The kernel would compare `fenceList` with its body by evaluating the read of the table; its equation is therefore one of functions, and in
`fencesOk` the list of a package is any function. -/
theorem fenceList_formed {s : State} (p : Nat) (asid : BitVec 16) (hs : s.formed) : (s.fenceList p asid).2.formed := by
  have body : @State.fenceList = @State.fenceList := rfl
  conv at body => rhs; delta State.fenceList
  have read (pa : Nat) := physRead_formed p pa 8 hs
  revert body read
  induction @State.physRead using of_forall with
  | any reads =>
  intro body read
  rw [body]
  clear body
  beta_reduce
  have hr := read ((s.dev p).yarrow.ftBase.toNat * 2 ^ 19 + 8 * asid.toNat)
  generalize reads s p _ 8 = x at hr
  obtain ⟨a | _ | _, u⟩ := x
  case bad | wait => exact hr
  dsimp only
  split
  · exact hr
  have hb := physBytes_formed p a 128 hr
  generalize u.physBytes p a 128 = x at hb
  obtain ⟨_ | _ | v, w⟩ := x
  all_goals exact hb
theorem fencesOk_formed {s : State} (asid : BitVec 16) (ts qs : List Nat) (hs : s.formed)  : (s.fencesOk asid ts qs).2.formed := by
  have body : @State.fencesOk = @State.fencesOk := rfl
  conv at body => rhs; delta State.fencesOk State.fencesOk._f
  have listed (s : State) (q : Nat) (h : s.formed) := fenceList_formed q asid h
  revert body listed
  induction @State.fenceList using of_forall with
  | any fences =>
  intro body listed
  rw [body]
  clear body
  dsimp only
  induction qs generalizing s with
  | nil => exact hs
  | cons q qs ih =>
    have h := listed s q hs
    dsimp only
    generalize fences s q asid = x at h
    obtain ⟨_ | es, u⟩ := x
    · exact h
    dsimp only
    split
    · exact ih h
    · exact h
theorem checkLaunch_formed {s : State} (p : Nat) (r : List Word) (hs : s.formed) : (s.checkLaunch p r).2.formed := by
  unfold State.checkLaunch
  split
  · exact hs
  extract_lets
  split
  next ts u e =>
  have hu : u.formed := by
    split at e
    · have hm := recMembers_formed p r hs
      rwa [e] at hm
    · obtain ⟨-, rfl⟩ := Prod.mk.inj e
      exact hs
  split
  · exact hu
  · exact hu
  next ts =>
  split
  · exact hu
  split
  · exact hu
  have hf := fencesOk_formed (recAsid r) ts (p :: ((ts.map pkgOf).eraseDups.filter (· ≠ p))) hu
  split
  all_goals
    rename_i e
    rw [e] at hf
    exact hf
theorem complete_formed {s z : State} (p : Nat) (r : List Word) (code : Nat) (hs : s.formed) (e : s.complete p r code = some z) : z.formed := by
  unfold State.complete at e
  grind [logEvent_formed, engineStore_formed]
theorem startTile_formed {s : State} (t : Nat) (p : Partition) (hs : s.formed) : (s.startTile t p).formed := by
  unfold State.startTile
  grind [reserveLines_formed, modTile_mem]
theorem startOn_formed {s : State} (q pid : Nat) (hs : s.formed) : (s.startOn q pid).formed := by
  unfold State.startOn
  grind [startTile_formed, foldl_formed]
theorem popHead_formed {s : State} (p q : Nat) (hs : s.formed) : (s.popHead p q).formed := by
  unfold State.popHead
  grind [modQueue_formed, raise_keepsForm]
theorem serveCount_formed {s : State} (p : Nat) (h : Head) (hs : s.formed) : (s.serveCount p h).formed := by
  unfold State.serveCount
  grind [popHead_formed, modYarrow_formed, charge_formed, modQueue_formed]
theorem refuseHead_formed {s : State} (p : Nat) (h : Head) (code : Nat) (hs : s.formed) : (s.refuseHead p h code).formed := by
  unfold State.refuseHead
  grind [complete_formed, serveCount_formed]
theorem startHead_formed {s : State} (p : Nat) (h : Head) (ts : List Nat) (hs : s.formed) : (s.startHead p h ts).formed := by
  unfold State.startHead
  grind [serveCount_formed, modYarrow_formed, startOn_formed]
theorem execLaunchForward_formed {s : State} (dev pid : Nat) (hs : s.formed) : outFormed (execLaunchForward dev pid s) := by
  grind [execLaunchForward, happen_formed, startOn_formed]
theorem preemptFor_formed {s : State} (p : Nat) (h : Head) (ts : List Nat) (hs : s.formed) : (s.preemptFor p h ts).formed := by
  unfold State.preemptFor
  grind [preempt_formed, getD_formed, foldl_formed]
theorem tryStart_formed {s z : State} (p : Nat) (h : Head) (ts : List Nat) (hs : s.formed) (e : s.tryStart p h ts = some z) : z.formed := by
  unfold State.tryStart at e
  grind [refuseHead_formed, startHead_formed]
theorem serveHead_formed {s : State} (p : Nat) (h : Head) (mayReserve : Bool) (hs : s.formed) : (s.serveHead p h mayReserve).2.formed := by
  unfold State.serveHead
  grind [checkLaunch_formed, refuseHead_formed, tryStart_formed, modQueue_formed, preemptFor_formed]
theorem serveHeads_formed {s : State} (p : Nat) (classes : List Nat) (l : List Head) (hs : s.formed) : (s.serveHeads p classes l).formed := by
  induction l generalizing s classes with
  | nil => exact hs
  | cons h l ih =>
    have hh := serveHead_formed p h (!classes.contains h.eff) hs
    unfold State.serveHeads
    split
    case h_1 z e => rw [e] at hh; exact hh
    case h_2 z e => rw [e] at hh; exact ih _ hh
theorem execLaunchSelect_formed {s : State} (dev : Nat) (hs : s.formed) : outFormed (execLaunchSelect dev s) := by
  grind [execLaunchSelect, happen_formed, serveHeads_formed]
theorem execLaunchAging_formed {s : State} (dev q : Nat) (hs : s.formed) : outFormed (execLaunchAging dev q s) := by
  grind [execLaunchAging, happen_formed, modQueue_formed, raise_keepsForm]
theorem execLaunchStart_formed {s : State} (dev q : Nat) (hs : s.formed) : outFormed (execLaunchStart dev q s) := by
  grind [execLaunchStart, happen_formed, serveHead_formed]
theorem execLaunchComplete_formed {s : State} (pid : Nat) (hs : s.formed) : outFormed (execLaunchComplete pid s) := by
  grind [execLaunchComplete, happen_formed, complete_formed]
theorem execPartitionResume_formed {s : State} (pid : Nat) (hs : s.formed) : outFormed (execPartitionResume pid s) := by
  grind [execPartitionResume, happen_formed, resume_formed]
theorem execSaveServiceStart_formed {s : State} (t : Nat) (hs : s.formed) : outFormed (execSaveServiceStart t s) := by
  grind [execSaveServiceStart, happen_formed, modTile_mem]

/-! ## Fences of a rectangle -/

theorem discardLive_formed {s : State} (t : Nat) (hs : s.formed) : (s.discardLive t).formed := by
  unfold State.discardLive
  grind [discardEffects_formed, foldl_formed]
theorem discardSaved_formed {s : State} (t : Nat) (hs : s.formed) : (s.discardSaved t).formed := by
  unfold State.discardSaved
  grind [dropLines_formed, elim_formed, foldl_formed]
theorem discardTile_formed {s : State} (t : Nat) (hs : s.formed) : (s.discardTile t).formed := by
  unfold State.discardTile
  grind [discardLive_formed, discardSaved_formed]
theorem dropWhere_formed {s : State} (which : Held → Bool) (hs : s.formed) : (s.dropWhere which).formed := by
  unfold State.dropWhere
  grind [closeHeld_formed, foldl_formed]
theorem dropRequests_formed {s : State} (t : Nat) (hs : s.formed) : (s.dropRequests t).formed := by
  unfold State.dropRequests
  grind [dropWhere_formed]
theorem loseLines_formed {s : State} (t : Nat) (hs : s.formed) : (s.loseLines t).formed := by
  unfold State.loseLines
  grind [modTile_mem, clearOwner_formed, poisonLine_formed, foldl_formed]
theorem loseTile_formed {s : State} (t : Nat) (hs : s.formed) : (s.loseTile t).formed := by
  unfold State.loseTile
  grind
theorem fenceTile_formed {s : State} (t : Nat) (cause : Nat) (tiles : List Nat) (keep : Option Nat) (hs : s.formed) : (s.fenceTile t cause tiles
    keep).formed := by
  unfold State.fenceTile
  grind [discardTile_formed, dropRequests_formed, loseCompacts_formed, loseLines_formed, freeSlot_formed, loseTile_formed, modRegion_mem, modTile_mem,
      foldl_formed]
theorem fence_formed {s : State} (t cause : Nat) (tiles : List Nat) (keep : Option Nat) (hs : s.formed) : (s.fence t cause tiles keep).formed := by
  unfold State.fence
  grind [fenceTile_formed, logEvent_formed, foldl_formed]
theorem execFenceRectangle_formed {s : State} (t cause : Nat) (hs : s.formed) : outFormed (execFenceRectangle t cause s) := by
  grind [execFenceRectangle, happen_formed, fence_formed]
theorem execRectangleReady_formed {s : State} (t : Nat) (hs : s.formed) : outFormed (execRectangleReady t s) := by
  grind [execRectangleReady, happen_formed, modTile_mem, foldl_formed]
theorem takeOffline_formed {s : State} (t cause : Nat) (rects : List (List Nat)) (keep : Option Nat) (hs : s.formed) : (s.takeOffline t cause rects
    keep).formed := by
  unfold State.takeOffline
  grind [modCluster_mem, logEvent_formed, fence_formed, foldl_formed]
theorem shiftRow_formed {s : State} (t : Nat) (q : Nat) (moved : List Nat) (hs : s.formed) : (s.shiftRow t q moved).formed := by
  unfold State.shiftRow
  grind [evict_formed, modDev_mem, logEvent_formed, foldl_formed]
theorem suspect_formed {s : State} (t : Nat) (hs : s.formed) : (s.suspect t).formed := by
  unfold State.suspect
  grind [modCtxAt_mem]
theorem execQuarantine_formed {s : State} (t : Nat) (arrayError : Bool) (hs : s.formed) : outFormed (execQuarantine t arrayError s) := by
  grind [execQuarantine, happen_formed, suspect_formed, modTile_mem, preemptTiles_formed, takeOffline_formed, shiftRow_formed, fence_formed]
theorem endTile_formed {s : State} (t : Nat) (hs : s.formed) : (s.endTile t).formed := by
  unfold State.endTile
  grind [withdraw_formed, loseMembers_formed, killChan_formed, killDirect_formed, modTile_mem, killHelper_formed, discardLive_formed, dropWhere_formed,
      haltTile_formed, foldl_formed]
theorem endSaved_formed {s : State} (pid t : Nat) (hs : s.formed) : (s.endSaved pid t).formed := by
  unfold State.endSaved
  grind [discardSaved_formed, dropWhere_formed, modTile_mem, loseMembers_formed, killParked_formed, leaveOrigin_formed]
theorem endPartition_formed {s : State} (pid : Nat) (hs : s.formed) : (s.endPartition pid).formed := by
  unfold State.endPartition
  grind [endTile_formed, endSaved_formed, modPartition_formed, foldl_formed]
theorem mismatch_formed {s : State} (t : Nat) (hs : s.formed) : (s.mismatch t).formed := by
  unfold State.mismatch
  grind [modTile_mem]

/-! ## Management and security -/

theorem extendMeasure_formed {s : State} (p n : Nat) (d : BitVec 256) (hs : s.formed) : (s.extendMeasure p n d).formed := by
  unfold State.extendMeasure
  grind [modMgmt_mem]
theorem dropPackage_formed {s : State} (p : Nat) (hs : s.formed) : (s.dropPackage p).formed := by
  unfold State.dropPackage
  grind [discardTile_formed, loseCompacts_formed, loseLines_formed, loseTile_formed, loseHeld_formed, poisonLine_formed, foldl_formed]
theorem resetPackage_formed {s : State} (p : Nat) (hs : s.formed) : (s.resetPackage p).formed := by
  unfold State.resetPackage
  grind [dropPackage_formed, modDev_mem]
theorem bootFrom_formed {s : State} (p : Nat) (l : List Nat) (hs : s.formed) : (s.bootFrom p l).formed := by
  induction l generalizing s with
  | nil => exact hs
  | cons n l ih => grind [State.bootFrom, modMgmt_mem]
theorem execPowerOnReset_formed {s : State} (dev : Nat) (hs : s.formed) : outFormed (execPowerOnReset dev s) := by
  grind [execPowerOnReset, happen_formed, resetPackage_formed, bootFrom_formed]
theorem respond_formed {s : State} (p code : Nat) (payload : List Nat) (hs : s.formed) : (s.respond p code payload).formed := by
  unfold State.respond
  grind [modMgmt_mem]
theorem modSpdm_formed {s : State} (p : Nat) (f : Spdm → Spdm) (hs : s.formed) : (s.modSpdm p f).formed := by
  unfold State.modSpdm
  grind [modMgmt_mem]
theorem request_formed {s : State} (p : Nat) (ready : Spdm → Bool) {answer : State → State} (ha : ∀ s, s.formed → (answer s).formed) (hs : s.formed) :
    (s.request p ready answer).formed := by
  grind [State.request, respond_formed]
theorem signed_formed {s : State} (p code nonce : Nat) (payload : List Nat) (hs : s.formed) : (s.signed p code nonce payload).formed := by
  unfold State.signed
  grind [respond_formed, foldl_formed]
theorem execGetVersion_formed {s : State} (dev : Nat) (hs : s.formed) : outFormed (execGetVersion dev s) := by
  grind [execGetVersion, happen_formed, request_formed, modSpdm_formed, respond_formed]
theorem execGetCapabilities_formed {s : State} (dev : Nat) (hs : s.formed) : outFormed (execGetCapabilities dev s) := by
  grind [execGetCapabilities, happen_formed, request_formed, modSpdm_formed, respond_formed]
theorem execNegotiateAlgorithms_formed {s : State} (dev offer : Nat) (hs : s.formed) : outFormed (execNegotiateAlgorithms dev offer s) := by
  grind [execNegotiateAlgorithms, happen_formed, request_formed, modSpdm_formed, respond_formed]
theorem execGetDigests_formed {s : State} (dev : Nat) (hs : s.formed) : outFormed (execGetDigests dev s) := by
  grind [execGetDigests, happen_formed, request_formed, respond_formed]
theorem execGetCertificate_formed {s : State} (dev : Nat) (hs : s.formed) : outFormed (execGetCertificate dev s) := by
  grind [execGetCertificate, happen_formed, request_formed, respond_formed]
theorem execChallenge_formed {s : State} (dev nonce : Nat) (hs : s.formed) : outFormed (execChallenge dev nonce s) := by
  grind [execChallenge, happen_formed, request_formed, signed_formed]
theorem execGetMeasurements_formed {s : State} (dev nonce : Nat) (hs : s.formed) : outFormed (execGetMeasurements dev nonce s) := by
  grind [execGetMeasurements, happen_formed, request_formed, signed_formed]
theorem execKeyExchange_formed {s : State} (dev nonce : Nat) (hs : s.formed) : outFormed (execKeyExchange dev nonce s) := by
  grind [execKeyExchange, happen_formed, request_formed, modSpdm_formed, signed_formed]
theorem execFinish_formed {s : State} (dev : Nat) (hs : s.formed) : outFormed (execFinish dev s) := by
  grind [execFinish, happen_formed, request_formed, modSpdm_formed, respond_formed]
theorem execKeyUpdate_formed {s : State} (dev : Nat) (hs : s.formed) : outFormed (execKeyUpdate dev s) := by
  grind [execKeyUpdate, happen_formed, request_formed, modSpdm_formed, respond_formed]
theorem execHeartbeat_formed {s : State} (dev : Nat) (hs : s.formed) : outFormed (execHeartbeat dev s) := by
  grind [execHeartbeat, happen_formed, request_formed, respond_formed]
theorem execEndSession_formed {s : State} (dev : Nat) (hs : s.formed) : outFormed (execEndSession dev s) := by
  grind [execEndSession, happen_formed, request_formed, modSpdm_formed, respond_formed]
theorem managed_formed {s : State} (p : Nat) {f : State → State} (hf : ∀ s, s.formed → (f s).formed) (hs : s.formed) : (s.managed p f).formed := by
  grind [State.managed]
theorem execPldmFirmwareUpdate_formed {s : State} (dev kind image : Nat) (burn : Bool) (hs : s.formed) : outFormed (execPldmFirmwareUpdate dev kind image
    burn s) := by
  grind [execPldmFirmwareUpdate, happen_formed, managed_formed, modMgmt_mem, logEvent_formed]
theorem execMgmtEventSend_formed {s : State} (dev : Nat) (hs : s.formed) : outFormed (execMgmtEventSend dev s) := by
  grind [execMgmtEventSend, happen_formed, managed_formed, modMgmt_mem]
theorem execSnapTrigger_formed {s : State} (dev : Nat) (hs : s.formed) : outFormed (execSnapTrigger dev s) := by
  grind [execSnapTrigger, happen_formed, managed_formed, snapshot_formed]
theorem execSnapRead_formed {s : State} (dev : Nat) (hs : s.formed) : outFormed (execSnapRead dev s) := by
  grind [execSnapRead, happen_formed, managed_formed, modMgmt_mem]
theorem execPldmSetPcap_formed {s : State} (dev watts : Nat) (hs : s.formed) : outFormed (execPldmSetPcap dev watts s) := by
  grind [execPldmSetPcap, happen_formed, managed_formed, modMgmt_mem]
theorem setStep_formed {s : State} (p n : Nat) (hs : s.formed) : (s.setStep p n).formed := by
  unfold State.setStep
  grind [modDev_mem, modMgmt_mem]
theorem execPowerWindow_formed {s : State} (dev watts : Nat) (hs : s.formed) : outFormed (execPowerWindow dev watts s) := by
  grind [execPowerWindow, happen_formed, setStep_formed]
theorem execThermalTrip_formed {s : State} (dev celsius : Nat) (hs : s.formed) : outFormed (execThermalTrip dev celsius s) := by
  grind [execThermalTrip, happen_formed, resetPackage_formed, modMgmt_mem, setStep_formed, logEvent_formed]
theorem execIeee1588Synchronisation_formed {s : State} (dev ns : Nat) (hs : s.formed) : outFormed (execIeee1588Synchronisation dev ns s) := by
  grind [execIeee1588Synchronisation, happen_formed, modDev_mem]
theorem execDevidAssignment_formed {s : State} (dev domain pos : Nat) (hs : s.formed) : outFormed (execDevidAssignment dev domain pos s) := by
  grind [execDevidAssignment, happen_formed, modDev_mem]

end Sys2Proof.Machine
end

section
set_option Elab.async false
/-! Every function of this part of the model keeps the canonical form of memory. The other instructions. -/
namespace Sys2Proof.Machine

/-! ## Memory instructions -/

theorem accessPtr_keepsForm (f : CM) (spaces : Nat → Bool) : KeepsForm (accessPtr f spaces) := by
  grind [accessPtr, rs_keepsForm, padd_keepsForm, need_keepsForm, KeepsForm.bind, KeepsForm.pure]
theorem pendLoad_keepsForm (d : BitVec 5) (size : Nat) (signed : Bool) (p : Word) (acq : Bool) {get : M (Nat × List Await)} (hg : KeepsForm get) :
    KeepsForm (pendLoad d size signed p acq get) := by
  unfold pendLoad
  repeat' first
    | with_reducible refine KeepsForm.bind ?_ fun _ => ?_
    | with_reducible refine KeepsForm.unless ?_ fun _ => ?_
  all_goals grind [getC_keepsForm, retireLoad_keepsForm, retireLoads_keepsForm, flash_keepsForm, upd_keepsForm, setCtx_mem, KeepsForm.bind, KeepsForm.pure]
theorem storeVal_keepsForm (f : CM) : KeepsForm (storeVal f) := by
  grind [storeVal, rs_keepsForm, KeepsForm.bind, KeepsForm.pure]
theorem execLdl_formed {s : State} (f : CM) (hs : s.formed) : outFormed (execLdl f s) := by
  grind [execLdl, finish_formed, accessPtr_keepsForm, afterStores_keepsForm, loadLocal_keepsForm, wsLat_keepsForm, KeepsForm.bind, KeepsForm.pure]
theorem execStl_formed {s : State} (f : CM) (hs : s.formed) : outFormed (execStl f s) := by
  grind [execStl, finish_formed, storeVal_keepsForm, accessPtr_keepsForm, afterStores_keepsForm, storeLocal_keepsForm, KeepsForm.bind, KeepsForm.pure]
theorem execLdg_formed {s : State} (f : CM) (hs : s.formed) : outFormed (execLdg f s) := by
  grind [execLdg, finish_formed, accessPtr_keepsForm, afterStores_keepsForm, pendLoad_keepsForm, loadGlobal_keepsForm, KeepsForm.bind, KeepsForm.pure]
theorem execStg_formed {s : State} (f : CM) (hs : s.formed) : outFormed (execStg f s) := by
  grind [execStg, finish_formed, storeVal_keepsForm, accessPtr_keepsForm, afterStores_keepsForm, storeGlobal_keepsForm, deliver_keepsForm,
      apertureStore_keepsForm, KeepsForm.bind, KeepsForm.pure, KeepsForm.get_bind]
theorem execLdacq_formed {s : State} (f : CM) (hs : s.formed) : outFormed (execLdacq f s) := by
  grind [execLdacq, finish_formed, accessPtr_keepsForm, afterStores_keepsForm, pendLoad_keepsForm, loadGlobal_keepsForm, KeepsForm.bind, KeepsForm.pure]
theorem execStrel_formed {s : State} (f : CM) (hs : s.formed) : outFormed (execStrel f s) := by
  grind [execStrel, finish_formed, storeVal_keepsForm, accessPtr_keepsForm, afterStores_keepsForm, release_keepsForm, storeGlobal_keepsForm,
      KeepsForm.bind, KeepsForm.pure]
theorem amo_keepsForm (op : Nat) (f : AF) : KeepsForm (amo op f) := by
  unfold amo
  repeat' first
    | with_reducible refine KeepsForm.get_bind fun s hs => ?_
    | with_reducible refine KeepsForm.bind ?_ fun _ => ?_
    | with_reducible refine KeepsForm.unless ?_ fun _ => ?_
    | split
  all_goals grind [rs_keepsForm, need_keepsForm, afterStores_keepsForm, release_keepsForm, pendLoad_keepsForm, amoAccess_keepsForm, KeepsForm.bind,
      KeepsForm.pure]
theorem execAmoadd_formed {s : State} (f : AF) (hs : s.formed) : outFormed (execAmoadd f s) := by
  grind [execAmoadd, finish_formed, amo_keepsForm, KeepsForm.bind, KeepsForm.pure]
theorem execAmoand_formed {s : State} (f : AF) (hs : s.formed) : outFormed (execAmoand f s) := by
  grind [execAmoand, finish_formed, amo_keepsForm, KeepsForm.bind, KeepsForm.pure]
theorem execAmoor_formed {s : State} (f : AF) (hs : s.formed) : outFormed (execAmoor f s) := by
  grind [execAmoor, finish_formed, amo_keepsForm, KeepsForm.bind, KeepsForm.pure]
theorem execAmoxor_formed {s : State} (f : AF) (hs : s.formed) : outFormed (execAmoxor f s) := by
  grind [execAmoxor, finish_formed, amo_keepsForm, KeepsForm.bind, KeepsForm.pure]
theorem execAmomin_formed {s : State} (f : AF) (hs : s.formed) : outFormed (execAmomin f s) := by
  grind [execAmomin, finish_formed, amo_keepsForm, KeepsForm.bind, KeepsForm.pure]
theorem execAmomax_formed {s : State} (f : AF) (hs : s.formed) : outFormed (execAmomax f s) := by
  grind [execAmomax, finish_formed, amo_keepsForm, KeepsForm.bind, KeepsForm.pure]
theorem execAmominu_formed {s : State} (f : AF) (hs : s.formed) : outFormed (execAmominu f s) := by
  grind [execAmominu, finish_formed, amo_keepsForm, KeepsForm.bind, KeepsForm.pure]
theorem execAmomaxu_formed {s : State} (f : AF) (hs : s.formed) : outFormed (execAmomaxu f s) := by
  grind [execAmomaxu, finish_formed, amo_keepsForm, KeepsForm.bind, KeepsForm.pure]
theorem execAmoswp_formed {s : State} (f : AF) (hs : s.formed) : outFormed (execAmoswp f s) := by
  grind [execAmoswp, finish_formed, amo_keepsForm, KeepsForm.bind, KeepsForm.pure]
theorem execAmocas_formed {s : State} (f : AF) (hs : s.formed) : outFormed (execAmocas f s) := by
  grind [execAmocas, finish_formed, amo_keepsForm, KeepsForm.bind, KeepsForm.pure]
theorem execAmofadd_formed {s : State} (f : AF) (hs : s.formed) : outFormed (execAmofadd f s) := by
  grind [execAmofadd, finish_formed, amo_keepsForm, KeepsForm.bind, KeepsForm.pure]
theorem execAmofmax_formed {s : State} (f : AF) (hs : s.formed) : outFormed (execAmofmax f s) := by
  grind [execAmofmax, finish_formed, amo_keepsForm, KeepsForm.bind, KeepsForm.pure]
theorem execAcq_formed {s : State} (f : CF) (hs : s.formed) : outFormed (execAcq f s) := by
  grind [execAcq, finish_formed, acquired_keepsForm, flash_keepsForm, KeepsForm.bind, KeepsForm.pure]
theorem execRel_formed {s : State} (f : CF) (hs : s.formed) : outFormed (execRel f s) := by
  grind [execRel, finish_formed, release_keepsForm, KeepsForm.bind, KeepsForm.pure]
theorem execFence_formed {s : State} (f : CF) (hs : s.formed) : outFormed (execFence f s) := by
  grind [execFence, finish_formed, release_keepsForm, acquired_keepsForm, flash_keepsForm, modC_keepsForm, KeepsForm.bind, KeepsForm.pure]
theorem execQwait_formed {s : State} (f : CF) (hs : s.formed) : outFormed (execQwait f s) := by
  grind [execQwait, finish_formed, getC_keepsForm, retireLoads_keepsForm, modC_keepsForm, trapKeep_keepsForm, KeepsForm.bind, KeepsForm.pure]
theorem lineAct_keepsForm (f : CF) {act : Line → M Unit} (ha : ∀ l, KeepsForm (act l)) : KeepsForm (lineAct f act) := by
  unfold lineAct
  repeat' first
    | with_reducible refine KeepsForm.get_bind fun s hs => ?_
    | with_reducible refine KeepsForm.bind ?_ fun _ => ?_
    | with_reducible refine KeepsForm.unless ?_ fun _ => ?_
    | split
  all_goals grind [rs_keepsForm, need_keepsForm, getC_keepsForm, getT_keepsForm, waitKeep_keepsForm, KeepsForm.bind, KeepsForm.pure]
theorem execCwb_formed {s : State} (f : CF) (hs : s.formed) : outFormed (execCwb f s) := by
  grind [execCwb, finish_formed, lineAct_keepsForm, upd_keepsForm, modTile_mem, writeLine_wf, KeepsForm.bind, KeepsForm.pure]
theorem execCinv_formed {s : State} (f : CF) (hs : s.formed) : outFormed (execCinv f s) := by
  grind [execCinv, finish_formed, lineAct_keepsForm, upd_keepsForm, evict_formed, modT_keepsForm, KeepsForm.bind, KeepsForm.pure]

/-! ## Messages -/

theorem receive_formed {s : State} (t : Nat) (sender : Word) (body : BitVec 448) (hs : s.formed) : (s.receive t sender body).1.formed := by
  unfold State.receive
  grind [modTile_mem, modCtxAt_mem, wake_formed]
theorem execMessageArrival_formed {s : State} (t : Nat) (sender : Word) (body : BitVec 448) (hs : s.formed) : outFormed (execMessageArrival t sender body
    s) := by
  grind [execMessageArrival, happen_formed, receive_formed]
theorem entryBuffer_keepsForm (p : Word) : KeepsForm (entryBuffer p) := by
  grind [entryBuffer, need_keepsForm, getT_keepsForm, KeepsForm.bind, KeepsForm.pure]
theorem execSend_formed {s : State} (f : CF) (hs : s.formed) : outFormed (execSend f s) := by
  refine finish_formed ?_ hs
  repeat' first
    | with_reducible refine KeepsForm.get_bind fun s hs => ?_
    | with_reducible refine KeepsForm.bind ?_ fun _ => ?_
    | with_reducible refine KeepsForm.unless ?_ fun _ => ?_
    | split
  all_goals grind [notHelper_keepsForm, rs_keepsForm, entryBuffer_keepsForm, acquired_keepsForm, ws_keepsForm, release_keepsForm, sendNow_formed,
      waitKeep_keepsForm, receive_formed, KeepsForm.bind, KeepsForm.pure, KeepsForm.get_bind, set_keepsForm]
theorem takeMessage_keepsForm (f : CF) : KeepsForm (takeMessage f) := by
  unfold takeMessage
  repeat' first
    | with_reducible refine KeepsForm.get_bind fun s hs => ?_
    | with_reducible refine KeepsForm.bind ?_ fun _ => ?_
    | with_reducible refine KeepsForm.unless ?_ fun _ => ?_
    | split
  all_goals grind [rs_keepsForm, entryBuffer_keepsForm, acquired_keepsForm, getT_keepsForm, getC_keepsForm, modT_keepsForm, modC_keepsForm, ws_keepsForm,
      flash_keepsForm, KeepsForm.bind, KeepsForm.pure]
theorem execRecv_formed {s : State} (f : CF) (hs : s.formed) : outFormed (execRecv f s) := by
  grind [execRecv, finish_formed, notHelper_keepsForm, getC_keepsForm, wait_keepsForm, takeMessage_keepsForm, KeepsForm.bind, KeepsForm.pure]
theorem execRecvt_formed {s : State} (f : CF) (hs : s.formed) : outFormed (execRecvt f s) := by
  grind [execRecvt, finish_formed, notHelper_keepsForm, rs_keepsForm, takeMessage_keepsForm, modC_keepsForm, waitKeep_keepsForm, ws_keepsForm,
      KeepsForm.bind, KeepsForm.pure, KeepsForm.get_bind]
theorem execRecvtTimeout_formed {s : State} (t : Nat) (hs : s.formed) : outFormed (execRecvtTimeout t s) := by
  grind [execRecvtTimeout, happen_formed]
theorem csrOperand_keepsForm (f : CF) (n : Nat) : KeepsForm (csrOperand f n) := by
  grind [csrOperand, settled_keepsForm, csrCheck_keepsForm, rs_keepsForm, KeepsForm.bind, KeepsForm.pure]
theorem execSyswRecvbase_formed {s : State} (f : CF) (hs : s.formed) : outFormed (execSyswRecvbase f s) := by
  grind [execSyswRecvbase, finish_formed, csrOperand_keepsForm, modC_keepsForm, KeepsForm.bind, KeepsForm.pure]
theorem execSyswRecvsize_formed {s : State} (f : CF) (hs : s.formed) : outFormed (execSyswRecvsize f s) := by
  grind [execSyswRecvsize, finish_formed, csrOperand_keepsForm, modC_keepsForm, KeepsForm.bind, KeepsForm.pure]
theorem execRecvtailClr_formed {s : State} (f : CF) (hs : s.formed) : outFormed (execRecvtailClr f s) := by
  grind [execRecvtailClr, finish_formed, csrOperand_keepsForm, modC_keepsForm, KeepsForm.bind, KeepsForm.pure]

/-! ## Scalar instructions -/

theorem alu_keepsForm (lat : Nat) (f : CR) (op : Word → Word → Word) : KeepsForm (alu lat f op) := by
  grind [alu, rs_keepsForm, wsLat_keepsForm, KeepsForm.bind, KeepsForm.pure]
theorem aluImm_keepsForm (f : CI) (op : Word → Word → Word) : KeepsForm (aluImm f op) := by
  grind [aluImm, rs_keepsForm, ws_keepsForm, KeepsForm.bind, KeepsForm.pure]
theorem shiftImm_keepsForm (f : CI) (op : Word → Nat → Word) : KeepsForm (shiftImm f op) := by
  grind [shiftImm, rs_keepsForm, ws_keepsForm, KeepsForm.bind, KeepsForm.pure]
theorem divide_keepsForm (f : CR) (zero : Word → Word) (op : Word → Word → Word) : KeepsForm (divide f zero op) := by
  grind [divide, rs_keepsForm, raise_keepsForm, wsLat_keepsForm, KeepsForm.bind, KeepsForm.pure]
theorem execAdd_formed {s : State} (f : CR) (hs : s.formed) : outFormed (execAdd f s) := by
  grind [execAdd, finish_formed, alu_keepsForm, KeepsForm.bind, KeepsForm.pure]
theorem execSub_formed {s : State} (f : CR) (hs : s.formed) : outFormed (execSub f s) := by
  grind [execSub, finish_formed, alu_keepsForm, KeepsForm.bind, KeepsForm.pure]
theorem execAnd_formed {s : State} (f : CR) (hs : s.formed) : outFormed (execAnd f s) := by
  grind [execAnd, finish_formed, alu_keepsForm, KeepsForm.bind, KeepsForm.pure]
theorem execOr_formed {s : State} (f : CR) (hs : s.formed) : outFormed (execOr f s) := by
  grind [execOr, finish_formed, alu_keepsForm, KeepsForm.bind, KeepsForm.pure]
theorem execXor_formed {s : State} (f : CR) (hs : s.formed) : outFormed (execXor f s) := by
  grind [execXor, finish_formed, alu_keepsForm, KeepsForm.bind, KeepsForm.pure]
theorem execAndn_formed {s : State} (f : CR) (hs : s.formed) : outFormed (execAndn f s) := by
  grind [execAndn, finish_formed, alu_keepsForm, KeepsForm.bind, KeepsForm.pure]
theorem execShl_formed {s : State} (f : CR) (hs : s.formed) : outFormed (execShl f s) := by
  grind [execShl, finish_formed, alu_keepsForm, KeepsForm.bind, KeepsForm.pure]
theorem execShr_formed {s : State} (f : CR) (hs : s.formed) : outFormed (execShr f s) := by
  grind [execShr, finish_formed, alu_keepsForm, KeepsForm.bind, KeepsForm.pure]
theorem execSar_formed {s : State} (f : CR) (hs : s.formed) : outFormed (execSar f s) := by
  grind [execSar, finish_formed, alu_keepsForm, KeepsForm.bind, KeepsForm.pure]
theorem execMul_formed {s : State} (f : CR) (hs : s.formed) : outFormed (execMul f s) := by
  grind [execMul, finish_formed, alu_keepsForm, KeepsForm.bind, KeepsForm.pure]
theorem execMulh_formed {s : State} (f : CR) (hs : s.formed) : outFormed (execMulh f s) := by
  grind [execMulh, finish_formed, alu_keepsForm, KeepsForm.bind, KeepsForm.pure]
theorem execMulhu_formed {s : State} (f : CR) (hs : s.formed) : outFormed (execMulhu f s) := by
  grind [execMulhu, finish_formed, alu_keepsForm, KeepsForm.bind, KeepsForm.pure]
theorem execDiv_formed {s : State} (f : CR) (hs : s.formed) : outFormed (execDiv f s) := by
  grind [execDiv, finish_formed, divide_keepsForm, KeepsForm.bind, KeepsForm.pure]
theorem execDivu_formed {s : State} (f : CR) (hs : s.formed) : outFormed (execDivu f s) := by
  grind [execDivu, finish_formed, divide_keepsForm, KeepsForm.bind, KeepsForm.pure]
theorem execRem_formed {s : State} (f : CR) (hs : s.formed) : outFormed (execRem f s) := by
  grind [execRem, finish_formed, divide_keepsForm, KeepsForm.bind, KeepsForm.pure]
theorem execRemu_formed {s : State} (f : CR) (hs : s.formed) : outFormed (execRemu f s) := by
  grind [execRemu, finish_formed, divide_keepsForm, KeepsForm.bind, KeepsForm.pure]
theorem execMin_formed {s : State} (f : CR) (hs : s.formed) : outFormed (execMin f s) := by
  grind [execMin, finish_formed, alu_keepsForm, KeepsForm.bind, KeepsForm.pure]
theorem execMax_formed {s : State} (f : CR) (hs : s.formed) : outFormed (execMax f s) := by
  grind [execMax, finish_formed, alu_keepsForm, KeepsForm.bind, KeepsForm.pure]
theorem execMinu_formed {s : State} (f : CR) (hs : s.formed) : outFormed (execMinu f s) := by
  grind [execMinu, finish_formed, alu_keepsForm, KeepsForm.bind, KeepsForm.pure]
theorem execMaxu_formed {s : State} (f : CR) (hs : s.formed) : outFormed (execMaxu f s) := by
  grind [execMaxu, finish_formed, alu_keepsForm, KeepsForm.bind, KeepsForm.pure]
theorem execSlt_formed {s : State} (f : CR) (hs : s.formed) : outFormed (execSlt f s) := by
  grind [execSlt, finish_formed, alu_keepsForm, KeepsForm.bind, KeepsForm.pure]
theorem execSltu_formed {s : State} (f : CR) (hs : s.formed) : outFormed (execSltu f s) := by
  grind [execSltu, finish_formed, alu_keepsForm, KeepsForm.bind, KeepsForm.pure]
theorem execSeq_formed {s : State} (f : CR) (hs : s.formed) : outFormed (execSeq f s) := by
  grind [execSeq, finish_formed, alu_keepsForm, KeepsForm.bind, KeepsForm.pure]
theorem execClz_formed {s : State} (f : CR) (hs : s.formed) : outFormed (execClz f s) := by
  grind [execClz, finish_formed, alu_keepsForm, KeepsForm.bind, KeepsForm.pure]
theorem execCtz_formed {s : State} (f : CR) (hs : s.formed) : outFormed (execCtz f s) := by
  grind [execCtz, finish_formed, alu_keepsForm, KeepsForm.bind, KeepsForm.pure]
theorem execPopc_formed {s : State} (f : CR) (hs : s.formed) : outFormed (execPopc f s) := by
  grind [execPopc, finish_formed, alu_keepsForm, KeepsForm.bind, KeepsForm.pure]
theorem execCsel_formed {s : State} (f : CR) (hs : s.formed) : outFormed (execCsel f s) := by
  grind [execCsel, finish_formed, rs_keepsForm, ws_keepsForm, KeepsForm.bind, KeepsForm.pure]
theorem execBfx_formed {s : State} (f : CR) (hs : s.formed) : outFormed (execBfx f s) := by
  grind [execBfx, finish_formed, alu_keepsForm, KeepsForm.bind, KeepsForm.pure]
theorem execPadd_formed {s : State} (f : CR) (hs : s.formed) : outFormed (execPadd f s) := by
  grind [execPadd, finish_formed, rs_keepsForm, ws_keepsForm, padd_keepsForm, KeepsForm.bind, KeepsForm.pure]
theorem execPsub_formed {s : State} (f : CR) (hs : s.formed) : outFormed (execPsub f s) := by
  grind [execPsub, finish_formed, rs_keepsForm, ws_keepsForm, padd_keepsForm, KeepsForm.bind, KeepsForm.pure]
theorem execPaddi_formed {s : State} (f : CI) (hs : s.formed) : outFormed (execPaddi f s) := by
  grind [execPaddi, finish_formed, rs_keepsForm, ws_keepsForm, padd_keepsForm, KeepsForm.bind, KeepsForm.pure]
theorem execPtag_formed {s : State} (f : CI) (hs : s.formed) : outFormed (execPtag f s) := by
  grind [execPtag, finish_formed, rs_keepsForm, ws_keepsForm, KeepsForm.bind, KeepsForm.pure]
theorem execAddi_formed {s : State} (f : CI) (hs : s.formed) : outFormed (execAddi f s) := by
  grind [execAddi, finish_formed, aluImm_keepsForm, KeepsForm.bind, KeepsForm.pure]
theorem execAndi_formed {s : State} (f : CI) (hs : s.formed) : outFormed (execAndi f s) := by
  grind [execAndi, finish_formed, aluImm_keepsForm, KeepsForm.bind, KeepsForm.pure]
theorem execOri_formed {s : State} (f : CI) (hs : s.formed) : outFormed (execOri f s) := by
  grind [execOri, finish_formed, aluImm_keepsForm, KeepsForm.bind, KeepsForm.pure]
theorem execXori_formed {s : State} (f : CI) (hs : s.formed) : outFormed (execXori f s) := by
  grind [execXori, finish_formed, aluImm_keepsForm, KeepsForm.bind, KeepsForm.pure]
theorem execSlti_formed {s : State} (f : CI) (hs : s.formed) : outFormed (execSlti f s) := by
  grind [execSlti, finish_formed, aluImm_keepsForm, KeepsForm.bind, KeepsForm.pure]
theorem execSltiu_formed {s : State} (f : CI) (hs : s.formed) : outFormed (execSltiu f s) := by
  grind [execSltiu, finish_formed, aluImm_keepsForm, KeepsForm.bind, KeepsForm.pure]
theorem execShli_formed {s : State} (f : CI) (hs : s.formed) : outFormed (execShli f s) := by
  grind [execShli, finish_formed, shiftImm_keepsForm, KeepsForm.bind, KeepsForm.pure]
theorem execShri_formed {s : State} (f : CI) (hs : s.formed) : outFormed (execShri f s) := by
  grind [execShri, finish_formed, shiftImm_keepsForm, KeepsForm.bind, KeepsForm.pure]
theorem execSari_formed {s : State} (f : CI) (hs : s.formed) : outFormed (execSari f s) := by
  grind [execSari, finish_formed, shiftImm_keepsForm, KeepsForm.bind, KeepsForm.pure]
theorem execLi_formed {s : State} (f : LF) (hs : s.formed) : outFormed (execLi f s) := by
  grind [execLi, finish_formed, ws_keepsForm, KeepsForm.bind, KeepsForm.pure]
theorem execLih_formed {s : State} (f : LF) (hs : s.formed) : outFormed (execLih f s) := by
  grind [execLih, finish_formed, rs_keepsForm, ws_keepsForm, KeepsForm.bind, KeepsForm.pure]
theorem execLia_formed {s : State} (f : LF) (hs : s.formed) : outFormed (execLia f s) := by
  grind [execLia, finish_formed, getC_keepsForm, ws_keepsForm, padd_keepsForm, KeepsForm.bind, KeepsForm.pure]
theorem jumpTo_keepsForm (t : Word) : KeepsForm (jumpTo t) := by
  grind [jumpTo, modC_keepsForm]
theorem branch_keepsForm (f : CB) (cond : Word → Word → Bool) : KeepsForm (branch f cond) := by
  grind [branch, rs_keepsForm, getC_keepsForm, jumpTo_keepsForm, padd_keepsForm, KeepsForm.bind, KeepsForm.pure]
theorem linkTo_keepsForm (r : BitVec 5) : KeepsForm (linkTo r) := by
  grind [linkTo, getC_keepsForm, ws_keepsForm, KeepsForm.bind, KeepsForm.pure]
theorem execBeq_formed {s : State} (f : CB) (hs : s.formed) : outFormed (execBeq f s) := by
  grind [execBeq, finish_formed, branch_keepsForm, KeepsForm.bind, KeepsForm.pure]
theorem execBne_formed {s : State} (f : CB) (hs : s.formed) : outFormed (execBne f s) := by
  grind [execBne, finish_formed, branch_keepsForm, KeepsForm.bind, KeepsForm.pure]
theorem execBlt_formed {s : State} (f : CB) (hs : s.formed) : outFormed (execBlt f s) := by
  grind [execBlt, finish_formed, branch_keepsForm, KeepsForm.bind, KeepsForm.pure]
theorem execBge_formed {s : State} (f : CB) (hs : s.formed) : outFormed (execBge f s) := by
  grind [execBge, finish_formed, branch_keepsForm, KeepsForm.bind, KeepsForm.pure]
theorem execBltu_formed {s : State} (f : CB) (hs : s.formed) : outFormed (execBltu f s) := by
  grind [execBltu, finish_formed, branch_keepsForm, KeepsForm.bind, KeepsForm.pure]
theorem execBgeu_formed {s : State} (f : CB) (hs : s.formed) : outFormed (execBgeu f s) := by
  grind [execBgeu, finish_formed, branch_keepsForm, KeepsForm.bind, KeepsForm.pure]
theorem execLoop_formed {s : State} (f : CB) (hs : s.formed) : outFormed (execLoop f s) := by
  grind [execLoop, finish_formed, rs_keepsForm, getC_keepsForm, jumpTo_keepsForm, padd_keepsForm, ws_keepsForm, KeepsForm.bind, KeepsForm.pure]
theorem execJr_formed {s : State} (f : CI) (hs : s.formed) : outFormed (execJr f s) := by
  grind [execJr, finish_formed, rs_keepsForm, padd_keepsForm, need_keepsForm, linkTo_keepsForm, jumpTo_keepsForm, KeepsForm.bind, KeepsForm.pure]
theorem execJ_formed {s : State} (f : LF) (hs : s.formed) : outFormed (execJ f s) := by
  grind [execJ, finish_formed, getC_keepsForm, jumpTo_keepsForm, padd_keepsForm, KeepsForm.bind, KeepsForm.pure]
theorem execJal_formed {s : State} (f : LF) (hs : s.formed) : outFormed (execJal f s) := by
  grind [execJal, finish_formed, getC_keepsForm, padd_keepsForm, linkTo_keepsForm, jumpTo_keepsForm, KeepsForm.bind, KeepsForm.pure]
theorem execCnop_formed {s : State} (hs : s.formed) : outFormed (execCnop s) := by
  grind [execCnop, finish_formed, KeepsForm.bind, KeepsForm.pure]

/-! ## Tracker instructions -/

theorem execPmint_formed {s : State} (f : CF) (hs : s.formed) : outFormed (execPmint f s) := by
  refine finish_formed ?_ hs
  repeat' first
    | with_reducible refine KeepsForm.get_bind fun s hs => ?_
    | with_reducible refine KeepsForm.bind ?_ fun _ => ?_
    | with_reducible refine KeepsForm.unless ?_ fun _ => ?_
    | split
  all_goals grind [inHelper_keepsForm, trap_keepsForm, unitImage_keepsForm, ws_keepsForm, upd_keepsForm, modPip_formed, KeepsForm.bind, KeepsForm.pure,
      KeepsForm.get_bind]
theorem ownPip_keepsForm (p : Word) (lo : Nat) : KeepsForm (ownPip p lo) := by
  grind [ownPip, need_keepsForm, KeepsForm.bind, KeepsForm.pure, KeepsForm.get_bind]
theorem execPdrop_formed {s : State} (f : CF) (hs : s.formed) : outFormed (execPdrop f s) := by
  grind [execPdrop, finish_formed, notHelper_keepsForm, rs_keepsForm, ownPip_keepsForm, upd_keepsForm, pipLand_formed, KeepsForm.bind, KeepsForm.pure]
theorem execPstat_formed {s : State} (f : CF) (hs : s.formed) : outFormed (execPstat f s) := by
  grind [execPstat, finish_formed, rs_keepsForm, ownPip_keepsForm, getT_keepsForm, ws_keepsForm, KeepsForm.bind, KeepsForm.pure]
theorem execPipDelivery_formed {s : State} (t slot gen : Nat) (v : Word) (poison : Bool) (hs : s.formed) : outFormed (execPipDelivery t slot gen v poison
    s) := by
  grind [execPipDelivery, happen_formed, pipDeliver_formed]
theorem execPipExpiry_formed {s : State} (t slot : Nat) (hs : s.formed) : outFormed (execPipExpiry t slot s) := by
  grind [execPipExpiry, happen_formed, pipLand_formed, fillSaved_formed]
theorem execPipQuarEnd_formed {s : State} (t slot : Nat) (hs : s.formed) : outFormed (execPipQuarEnd t slot s) := by
  grind [execPipQuarEnd, happen_formed, modPip_formed]
theorem trackerBase_keepsForm (base : Word) : KeepsForm (trackerBase base) := by
  grind [trackerBase, translate_formed, KeepsForm.pure, KeepsForm, resultFormed, Stop.formed]
theorem trackerBar_keepsForm (p : Word) : KeepsForm (trackerBar p) := by
  unfold trackerBar
  repeat' first
    | with_reducible refine KeepsForm.get_bind fun s hs => ?_
    | with_reducible refine KeepsForm.bind ?_ fun _ => ?_
    | with_reducible refine KeepsForm.unless ?_ fun _ => ?_
    | split
  all_goals grind [need_keepsForm, locateM_keepsForm, ask_keepsForm, trap_keepsForm, KeepsForm.bind, KeepsForm.pure]
theorem execTrkset_formed {s : State} (f : CF) (hs : s.formed) : outFormed (execTrkset f s) := by
  refine finish_formed ?_ hs
  dsimp only
  repeat' first
    | with_reducible refine KeepsForm.get_bind fun s hs => ?_
    | with_reducible refine KeepsForm.bind ?_ fun _ => ?_
    | with_reducible refine KeepsForm.unless ?_ fun _ => ?_
    | split
  all_goals grind [rs_keepsForm, need_keepsForm, afterStores_keepsForm, loadNow_keepsForm, locateM_keepsForm, ws_keepsForm, trackerBase_keepsForm,
      trackerBar_keepsForm, armer_keepsForm, direct_keepsForm, upd_keepsForm, modTracker_formed, fireTracker_formed, KeepsForm.bind, KeepsForm.pure,
      KeepsForm.get_bind, set_keepsForm]
theorem execTrkclr_formed {s : State} (f : CF) (hs : s.formed) : outFormed (execTrkclr f s) := by
  grind [execTrkclr, finish_formed, ws_keepsForm, direct_keepsForm, upd_keepsForm, modTracker_formed, KeepsForm.bind, KeepsForm.pure, KeepsForm.get_bind]
theorem execTrackerReport_formed {s : State} (cl gl : Nat) (mask : ByteMask) (hs : s.formed) : outFormed (execTrackerReport cl gl mask s) := by
  grind [execTrackerReport, happen_formed, countBytes_formed, foldl_formed]
theorem execTrackerHeldStart_formed {s : State} (t ch : Nat) (hs : s.formed) : outFormed (execTrackerHeldStart t ch s) := by
  grind [execTrackerHeldStart, happen_formed, modTile_mem, startWalk_formed, markFired_formed]

/-! ## Traps -/

theorem execEcall_formed {s : State} (f : CF) (hs : s.formed) : outFormed (execEcall f s) := by
  grind [execEcall, finish_formed, trap_keepsForm, KeepsForm.bind, KeepsForm.pure]
theorem execBrk_formed {s : State} (f : CF) (hs : s.formed) : outFormed (execBrk f s) := by
  grind [execBrk, finish_formed, trap_keepsForm, KeepsForm.bind, KeepsForm.pure]
theorem execEret_formed {s : State} (f : CF) (hs : s.formed) : outFormed (execEret f s) := by
  grind [execEret, finish_formed, supervisor_keepsForm, releaseAfter_keepsForm, flash_keepsForm, getC_keepsForm, modT_keepsForm, resume_formed,
      modC_keepsForm, KeepsForm.bind, KeepsForm.pure]
theorem execReservedEncoding_formed {s : State} (u : Word) (compute : Bool) (hs : s.formed) : outFormed (execReservedEncoding u compute s) :=
  finish_formed (KeepsForm.bind (upd_keepsForm fun _ h => h) fun _ => trapKeep_keepsForm _ _) hs
theorem execHelpertrap_formed {s : State} (t : Nat) (hs : s.formed) : outFormed (execHelpertrap t s) := by
  grind [execHelpertrap, happen_formed, modTile_mem, takeOuterTrap_formed]
theorem execMatrixTrap_formed {s : State} (t : Nat) (hs : s.formed) : outFormed (execMatrixTrap t s) := by
  grind [execMatrixTrap, happen_formed, trap_keepsForm, modTile_mem, takeOuterTrap_formed]
theorem execVstorePair_formed {s : State} (t c : Nat) (hs : s.formed) : outFormed (execVstorePair t c s) := by
  grind [execVstorePair, finish_formed, within_keepsForm, performPair_keepsForm, KeepsForm.bind, KeepsForm.pure]

/-! ## A-words -/

theorem ints_keepsForm (f : AW) (lat : Nat) (op : Nat → Nat → Nat) : KeepsForm (ints f lat op) := by
  grind [ints, operands_keepsForm, writeDest_keepsForm, KeepsForm.bind, KeepsForm.pure]
theorem ints1_keepsForm (f : AW) (lat : Nat) (op : Nat → Nat) : KeepsForm (ints1 f lat op) := by
  grind [ints1, operands_keepsForm, writeDest_keepsForm, KeepsForm.bind, KeepsForm.pure]
theorem withFlags_keepsForm (w : Nat) (m : Word) (l : List (Nat × BitVec 11)) : KeepsForm (withFlags w m l) := by
  grind [withFlags, raise_keepsForm, foldl_formed, KeepsForm.bind, KeepsForm.pure]
theorem frm_keepsForm : KeepsForm frm := by
  grind [frm, getC_keepsForm, KeepsForm.bind, KeepsForm.pure]
theorem floats_keepsForm (f : AW) (op : Nat → FV → FV → FV × BitVec 11) : KeepsForm (floats f op) := by
  grind [floats, operands_keepsForm, frm_keepsForm, withFlags_keepsForm, writeDest_keepsForm, KeepsForm.bind, KeepsForm.pure]
theorem execVadd_formed {s : State} (f : AW) (hs : s.formed) : outFormed (execVadd f s) := by
  grind [execVadd, finish_formed, ints_keepsForm, KeepsForm.bind, KeepsForm.pure]
theorem execVsub_formed {s : State} (f : AW) (hs : s.formed) : outFormed (execVsub f s) := by
  grind [execVsub, finish_formed, ints_keepsForm, KeepsForm.bind, KeepsForm.pure]
theorem execVmul_formed {s : State} (f : AW) (hs : s.formed) : outFormed (execVmul f s) := by
  grind [execVmul, finish_formed, ints_keepsForm, KeepsForm.bind, KeepsForm.pure]
theorem execVmulh_formed {s : State} (f : AW) (hs : s.formed) : outFormed (execVmulh f s) := by
  grind [execVmulh, finish_formed, ints_keepsForm, KeepsForm.bind, KeepsForm.pure]
theorem execVmin_formed {s : State} (f : AW) (hs : s.formed) : outFormed (execVmin f s) := by
  grind [execVmin, finish_formed, ints_keepsForm, KeepsForm.bind, KeepsForm.pure]
theorem execVmax_formed {s : State} (f : AW) (hs : s.formed) : outFormed (execVmax f s) := by
  grind [execVmax, finish_formed, ints_keepsForm, KeepsForm.bind, KeepsForm.pure]
theorem execVand_formed {s : State} (f : AW) (hs : s.formed) : outFormed (execVand f s) := by
  grind [execVand, finish_formed, ints_keepsForm, KeepsForm.bind, KeepsForm.pure]
theorem execVor_formed {s : State} (f : AW) (hs : s.formed) : outFormed (execVor f s) := by
  grind [execVor, finish_formed, ints_keepsForm, KeepsForm.bind, KeepsForm.pure]
theorem execVxor_formed {s : State} (f : AW) (hs : s.formed) : outFormed (execVxor f s) := by
  grind [execVxor, finish_formed, ints_keepsForm, KeepsForm.bind, KeepsForm.pure]
theorem execVandn_formed {s : State} (f : AW) (hs : s.formed) : outFormed (execVandn f s) := by
  grind [execVandn, finish_formed, ints_keepsForm, KeepsForm.bind, KeepsForm.pure]
theorem execVshl_formed {s : State} (f : AW) (hs : s.formed) : outFormed (execVshl f s) := by
  grind [execVshl, finish_formed, ints_keepsForm, KeepsForm.bind, KeepsForm.pure]
theorem execVshr_formed {s : State} (f : AW) (hs : s.formed) : outFormed (execVshr f s) := by
  grind [execVshr, finish_formed, ints_keepsForm, KeepsForm.bind, KeepsForm.pure]
theorem execVsar_formed {s : State} (f : AW) (hs : s.formed) : outFormed (execVsar f s) := by
  grind [execVsar, finish_formed, ints_keepsForm, KeepsForm.bind, KeepsForm.pure]
theorem execVabs_formed {s : State} (f : AW) (hs : s.formed) : outFormed (execVabs f s) := by
  grind [execVabs, finish_formed, ints1_keepsForm, KeepsForm.bind, KeepsForm.pure]
theorem execVclz_formed {s : State} (f : AW) (hs : s.formed) : outFormed (execVclz f s) := by
  grind [execVclz, finish_formed, ints1_keepsForm, KeepsForm.bind, KeepsForm.pure]
theorem execVpopc_formed {s : State} (f : AW) (hs : s.formed) : outFormed (execVpopc f s) := by
  grind [execVpopc, finish_formed, ints1_keepsForm, KeepsForm.bind, KeepsForm.pure]
theorem execVadds_formed {s : State} (f : AW) (hs : s.formed) : outFormed (execVadds f s) := by
  grind [execVadds, finish_formed, ints_keepsForm, KeepsForm.bind, KeepsForm.pure]
theorem execVsubs_formed {s : State} (f : AW) (hs : s.formed) : outFormed (execVsubs f s) := by
  grind [execVsubs, finish_formed, ints_keepsForm, KeepsForm.bind, KeepsForm.pure]
theorem execAnop_formed {s : State} (f : BitVec 3) (hs : s.formed) : outFormed (execAnop f s) := by
  grind [execAnop, finish_formed, KeepsForm.bind, KeepsForm.pure]
theorem execVfadd_formed {s : State} (f : AW) (hs : s.formed) : outFormed (execVfadd f s) := by
  grind [execVfadd, finish_formed, floats_keepsForm, KeepsForm.bind, KeepsForm.pure]
theorem execVfsub_formed {s : State} (f : AW) (hs : s.formed) : outFormed (execVfsub f s) := by
  grind [execVfsub, finish_formed, floats_keepsForm, KeepsForm.bind, KeepsForm.pure]
theorem execVfmul_formed {s : State} (f : AW) (hs : s.formed) : outFormed (execVfmul f s) := by
  grind [execVfmul, finish_formed, floats_keepsForm, KeepsForm.bind, KeepsForm.pure]
theorem execVfmin_formed {s : State} (f : AW) (hs : s.formed) : outFormed (execVfmin f s) := by
  grind [execVfmin, finish_formed, ints_keepsForm, KeepsForm.bind, KeepsForm.pure]
theorem execVfmax_formed {s : State} (f : AW) (hs : s.formed) : outFormed (execVfmax f s) := by
  grind [execVfmax, finish_formed, ints_keepsForm, KeepsForm.bind, KeepsForm.pure]
theorem execVfma_formed {s : State} (f : AW) (hs : s.formed) : outFormed (execVfma f s) := by
  grind [execVfma, finish_formed, readSrc_keepsForm, operands_keepsForm, frm_keepsForm, withFlags_keepsForm, writeDest_keepsForm, KeepsForm.bind,
      KeepsForm.pure]
theorem special_keepsForm (f : AW) (op : FV → Nat × BitVec 11) : KeepsForm (special f op) := by
  grind [special, upd_keepsForm, issueAt_mem, operands_keepsForm, modTile_mem, withFlags_keepsForm, writeDest_keepsForm, KeepsForm.bind, KeepsForm.pure]
theorem execVrcp_formed {s : State} (f : AW) (hs : s.formed) : outFormed (execVrcp f s) := by
  grind [execVrcp, finish_formed, special_keepsForm, KeepsForm.bind, KeepsForm.pure]
theorem execVrsq_formed {s : State} (f : AW) (hs : s.formed) : outFormed (execVrsq f s) := by
  grind [execVrsq, finish_formed, special_keepsForm, KeepsForm.bind, KeepsForm.pure]
theorem execVexp2_formed {s : State} (f : AW) (hs : s.formed) : outFormed (execVexp2 f s) := by
  grind [execVexp2, finish_formed, special_keepsForm, KeepsForm.bind, KeepsForm.pure]
theorem execVlog2_formed {s : State} (f : AW) (hs : s.formed) : outFormed (execVlog2 f s) := by
  grind [execVlog2, finish_formed, special_keepsForm, KeepsForm.bind, KeepsForm.pure]
theorem execVsqrt_formed {s : State} (f : AW) (hs : s.formed) : outFormed (execVsqrt f s) := by
  grind [execVsqrt, finish_formed, special_keepsForm, KeepsForm.bind, KeepsForm.pure]
theorem convMode_keepsForm (b : BitVec 6) : KeepsForm (convMode b) := by
  grind [convMode, frm_keepsForm, KeepsForm.bind, KeepsForm.pure]
theorem execVcvt_formed {s : State} (f : AW) (hs : s.formed) : outFormed (execVcvt f s) := by
  grind [execVcvt, finish_formed, operands_keepsForm, convMode_keepsForm, withFlags_keepsForm, writeDest_keepsForm, KeepsForm.bind, KeepsForm.pure]
theorem execVcvtNarrow_formed {s : State} (f : AW) (hs : s.formed) : outFormed (execVcvtNarrow f s) := by
  grind [execVcvtNarrow, finish_formed, need_keepsForm, unitImage_keepsForm, operands_keepsForm, convMode_keepsForm, writeDest_keepsForm,
      withFlags_keepsForm, KeepsForm.bind, KeepsForm.pure, KeepsForm.get_bind]

/-! ## Masks and reductions -/

theorem compareLanes_keepsForm (f : AW) (rel : Option Ordering → Bool) : KeepsForm (compareLanes f rel) := by
  grind [compareLanes, operands_keepsForm, writeMask_keepsForm, KeepsForm.bind, KeepsForm.pure]
theorem execVceq_formed {s : State} (f : AW) (hs : s.formed) : outFormed (execVceq f s) := by
  grind [execVceq, finish_formed, compareLanes_keepsForm, KeepsForm.bind, KeepsForm.pure]
theorem execVcne_formed {s : State} (f : AW) (hs : s.formed) : outFormed (execVcne f s) := by
  grind [execVcne, finish_formed, compareLanes_keepsForm, KeepsForm.bind, KeepsForm.pure]
theorem execVclt_formed {s : State} (f : AW) (hs : s.formed) : outFormed (execVclt f s) := by
  grind [execVclt, finish_formed, compareLanes_keepsForm, KeepsForm.bind, KeepsForm.pure]
theorem execVcle_formed {s : State} (f : AW) (hs : s.formed) : outFormed (execVcle f s) := by
  grind [execVcle, finish_formed, compareLanes_keepsForm, KeepsForm.bind, KeepsForm.pure]
theorem execVsel_formed {s : State} (f : AW) (hs : s.formed) : outFormed (execVsel f s) := by
  grind [execVsel, finish_formed, operands_keepsForm, writeDest_keepsForm, KeepsForm.bind, KeepsForm.pure]
theorem execVmkmask_formed {s : State} (f : AW) (hs : s.formed) : outFormed (execVmkmask f s) := by
  grind [execVmkmask, finish_formed, operands_keepsForm, writeMask_keepsForm, KeepsForm.bind, KeepsForm.pure]
theorem maskOperand_keepsForm (field : Nat) (c : BitVec 6) : KeepsForm (maskOperand field c) := by
  grind [maskOperand, checkMask_keepsForm, KeepsForm.bind, KeepsForm.pure, KeepsForm.get_bind]
theorem maskOp_keepsForm (f : AW) (op : Word → Word → Word) : KeepsForm (maskOp f op) := by
  grind [maskOp, maskOperand_keepsForm, writeMask_keepsForm, KeepsForm.bind, KeepsForm.pure]
theorem execKand_formed {s : State} (f : AW) (hs : s.formed) : outFormed (execKand f s) := by
  grind [execKand, finish_formed, maskOp_keepsForm, KeepsForm.bind, KeepsForm.pure]
theorem execKor_formed {s : State} (f : AW) (hs : s.formed) : outFormed (execKor f s) := by
  grind [execKor, finish_formed, maskOp_keepsForm, KeepsForm.bind, KeepsForm.pure]
theorem execKxor_formed {s : State} (f : AW) (hs : s.formed) : outFormed (execKxor f s) := by
  grind [execKxor, finish_formed, maskOp_keepsForm, KeepsForm.bind, KeepsForm.pure]
theorem execKandn_formed {s : State} (f : AW) (hs : s.formed) : outFormed (execKandn f s) := by
  grind [execKandn, finish_formed, maskOp_keepsForm, KeepsForm.bind, KeepsForm.pure]
theorem execKnot_formed {s : State} (f : AW) (hs : s.formed) : outFormed (execKnot f s) := by
  grind [execKnot, finish_formed, maskOperand_keepsForm, writeMask_keepsForm, KeepsForm.bind, KeepsForm.pure]
theorem execKpopc_formed {s : State} (f : AW) (hs : s.formed) : outFormed (execKpopc f s) := by
  grind [execKpopc, finish_formed, inRange_keepsForm, maskOperand_keepsForm, writeDest_keepsForm, KeepsForm.bind, KeepsForm.pure]
theorem reduceLanes_keepsForm (f : AW) (ident : Nat → Nat) (op : Nat → Nat → Nat → Nat × BitVec 11) : KeepsForm (reduceLanes f ident op) := by
  grind [reduceLanes, operands_keepsForm, getC_keepsForm, raise_keepsForm, writeDest_keepsForm, KeepsForm.bind, KeepsForm.pure]
theorem execVrsum_formed {s : State} (f : AW) (hs : s.formed) : outFormed (execVrsum f s) := by
  grind [execVrsum, finish_formed, reduceLanes_keepsForm, KeepsForm.bind, KeepsForm.pure]
theorem execVrmax_formed {s : State} (f : AW) (hs : s.formed) : outFormed (execVrmax f s) := by
  grind [execVrmax, finish_formed, reduceLanes_keepsForm, KeepsForm.bind, KeepsForm.pure]
theorem execVrmin_formed {s : State} (f : AW) (hs : s.formed) : outFormed (execVrmin f s) := by
  grind [execVrmin, finish_formed, reduceLanes_keepsForm, KeepsForm.bind, KeepsForm.pure]
theorem execVscan_formed {s : State} (f : AW) (hs : s.formed) : outFormed (execVscan f s) := by
  grind [execVscan, finish_formed, operands_keepsForm, getC_keepsForm, raise_keepsForm, writeDest_keepsForm, foldl_formed, KeepsForm.bind, KeepsForm.pure]
theorem execVrank_formed {s : State} (f : AW) (hs : s.formed) : outFormed (execVrank f s) := by
  grind [execVrank, finish_formed, operands_keepsForm, writeDest_keepsForm, KeepsForm.bind, KeepsForm.pure]
theorem moveLanes_keepsForm (f : AW) (src : List Nat → Nat → Nat → Nat) : KeepsForm (moveLanes f src) := by
  grind [moveLanes, operands_keepsForm, writeDest_keepsForm, KeepsForm.bind, KeepsForm.pure]
theorem execVshuf_formed {s : State} (f : AW) (hs : s.formed) : outFormed (execVshuf f s) := by
  grind [execVshuf, finish_formed, moveLanes_keepsForm, KeepsForm.bind, KeepsForm.pure]
theorem execVrotl_formed {s : State} (f : AW) (hs : s.formed) : outFormed (execVrotl f s) := by
  grind [execVrotl, finish_formed, moveLanes_keepsForm, KeepsForm.bind, KeepsForm.pure]
theorem execVbcast_formed {s : State} (f : AW) (hs : s.formed) : outFormed (execVbcast f s) := by
  grind [execVbcast, finish_formed, moveLanes_keepsForm, KeepsForm.bind, KeepsForm.pure]
theorem execVcompr_formed {s : State} (f : AW) (hs : s.formed) : outFormed (execVcompr f s) := by
  grind [execVcompr, finish_formed, operands_keepsForm, writeDest_keepsForm, KeepsForm.bind, KeepsForm.pure]
theorem execVexpnd_formed {s : State} (f : AW) (hs : s.formed) : outFormed (execVexpnd f s) := by
  grind [execVexpnd, finish_formed, operands_keepsForm, writeDest_keepsForm, KeepsForm.bind, KeepsForm.pure]
theorem hashLanes_keepsForm (f : AW) (op : Nat → Nat → Nat → Nat) : KeepsForm (hashLanes f op) := by
  grind [hashLanes, operands_keepsForm, writeDest_keepsForm, KeepsForm.bind, KeepsForm.pure]
theorem execVhash_formed {s : State} (f : AW) (hs : s.formed) : outFormed (execVhash f s) := by
  grind [execVhash, finish_formed, hashLanes_keepsForm, KeepsForm.bind, KeepsForm.pure]
theorem execVpart_formed {s : State} (f : AW) (hs : s.formed) : outFormed (execVpart f s) := by
  grind [execVpart, finish_formed, hashLanes_keepsForm, KeepsForm.bind, KeepsForm.pure]
theorem execVrng_formed {s : State} (f : AW) (hs : s.formed) : outFormed (execVrng f s) := by
  grind [execVrng, finish_formed, hashLanes_keepsForm, KeepsForm.bind, KeepsForm.pure]
theorem execVtmrg_formed {s : State} (f : AW) (hs : s.formed) : outFormed (execVtmrg f s) := by
  grind [execVtmrg, finish_formed, operands_keepsForm, raise_keepsForm, writeDest_keepsForm, foldl_formed, KeepsForm.bind, KeepsForm.pure]
theorem execVtscl_formed {s : State} (f : AW) (hs : s.formed) : outFormed (execVtscl f s) := by
  grind [execVtscl, finish_formed, readSrc_keepsForm, operands_keepsForm, raise_keepsForm, writeDest_keepsForm, foldl_formed, KeepsForm.bind, KeepsForm.pure]

/-! ## Vector loads and stores -/

theorem pushDq_keepsForm (dq : Nat) (e : DqEntry) : KeepsForm (pushDq dq e) := by
  grind [pushDq, modC_keepsForm]
theorem execVld_formed {s : State} (f : CM) (hs : s.formed) : outFormed (execVld f s) := by
  refine finish_formed ?_ hs
  repeat' first
    | with_reducible refine KeepsForm.get_bind fun s hs => ?_
    | with_reducible refine KeepsForm.bind ?_ fun _ => ?_
    | with_reducible refine KeepsForm.unless ?_ fun _ => ?_
    | split
  all_goals grind [rs_keepsForm, getC_keepsForm, wait_keepsForm, padd_keepsForm, need_keepsForm, afterStores_keepsForm, loadLocal_keepsForm,
      loadGlobal_keepsForm, pushDq_keepsForm, KeepsForm.bind, KeepsForm.pure]
theorem probeStore_keepsForm (p : Word) (n : Nat) : KeepsForm (probeStore p n) := by
  grind [probeStore, locateM_keepsForm, store_formed, reachLines_keepsForm, KeepsForm.mapM, KeepsForm.bind, KeepsForm.pure]
theorem execVsta_formed {s : State} (f : CM) (hs : s.formed) : outFormed (execVsta f s) := by
  refine finish_formed ?_ hs
  repeat' first
    | with_reducible refine KeepsForm.get_bind fun s hs => ?_
    | with_reducible refine KeepsForm.bind ?_ fun _ => ?_
    | with_reducible refine KeepsForm.unless ?_ fun _ => ?_
    | split
  all_goals grind [rs_keepsForm, getC_keepsForm, wait_keepsForm, padd_keepsForm, need_keepsForm, probeStore_keepsForm, getT_keepsForm, engM_keepsForm,
      apertureCheck_formed, modC_keepsForm, KeepsForm.bind, KeepsForm.pure, KeepsForm.get_bind]
theorem execVstd_formed {s : State} (f : AW) (hs : s.formed) : outFormed (execVstd f s) := by
  grind [execVstd, finish_formed, getC_keepsForm, wait_keepsForm, operands_keepsForm, modC_keepsForm, KeepsForm.bind, KeepsForm.pure]
theorem modOpen_keepsForm (dq : Nat) (f : DqEntry → DqEntry) : KeepsForm (modOpen dq f) := by
  grind [modOpen, modC_keepsForm]
theorem stopAt_formed {s : State} (i : Nat) (hs : s.formed) : (s.stopAt i).formed := hs
theorem lanesFrom_keepsForm {act : Nat → M Unit} (ha : ∀ i, KeepsForm (act i)) (n i : Nat) : KeepsForm (lanesFrom act n i) := by
  induction n generalizing i with
  | zero => exact KeepsForm.pure ()
  | succ n ih =>
    intro s hs
    have h := ha i s hs
    grind [lanesFrom, KeepsForm, resultFormed, Stop.formed, stopAt_formed]
theorem longOperands_keepsForm (srcs : List (BitVec 6)) (sel : Nat) (dq : Option Nat) : KeepsForm (longOperands srcs sel dq) := by
  unfold longOperands
  repeat' first
    | with_reducible refine KeepsForm.get_bind fun s hs => ?_
    | with_reducible refine KeepsForm.bind ?_ fun _ => ?_
    | with_reducible refine KeepsForm.unless ?_ fun _ => ?_
    | split
  all_goals grind [getC_keepsForm, inRange_keepsForm, modC_keepsForm, trap_keepsForm, awaitSources_keepsForm, checkReady_keepsForm, checkMask_keepsForm,
      readSrc_keepsForm, readTwo_keepsForm, KeepsForm.bind, KeepsForm.pure]
theorem longDone_keepsForm : KeepsForm longDone := by
  grind [longDone, modC_keepsForm]
theorem element_keepsForm (base : Word) (index : Vec) (i : Nat) : KeepsForm (element base index i) := by
  grind [element, padd_keepsForm, need_keepsForm, afterStores_keepsForm, KeepsForm.bind, KeepsForm.pure]
theorem execVgather_formed {s : State} (f : LF) (hs : s.formed) : outFormed (execVgather f s) := by
  refine finish_formed ?_ hs
  repeat' first
    | with_reducible refine KeepsForm.get_bind fun s hs => ?_
    | with_reducible refine KeepsForm.bind ?_ fun _ => ?_
    | with_reducible refine KeepsForm.unless ?_ fun _ => ?_
    | split
  all_goals grind [rs_keepsForm, longOperands_keepsForm, lanesFrom_keepsForm, element_keepsForm, loadLocal_keepsForm, loadGlobal_keepsForm,
      modOpen_keepsForm, longDone_keepsForm, KeepsForm.bind, KeepsForm.pure, KeepsForm.get_bind]
theorem execVscatter_formed {s : State} (f : LF) (hs : s.formed) : outFormed (execVscatter f s) := by
  refine finish_formed ?_ hs
  repeat' first
    | with_reducible refine KeepsForm.get_bind fun s hs => ?_
    | with_reducible refine KeepsForm.bind ?_ fun _ => ?_
    | with_reducible refine KeepsForm.unless ?_ fun _ => ?_
    | split
  all_goals grind [rs_keepsForm, longOperands_keepsForm, lanesFrom_keepsForm, element_keepsForm, storeLocal_keepsForm, storeGlobal_keepsForm,
      longDone_keepsForm, KeepsForm.bind, KeepsForm.pure, KeepsForm.get_bind]
theorem reserve_formed {s z : State} (hs : s.formed) (e : s.reserve = some z) : z.formed := by
  unfold State.reserve at e
  grind [setCtx_mem]

/-! ## Every instruction -/

theorem exec_formed {s : State} (i : Instr) (hs : s.formed) : outFormed (exec i s) := by
  cases i with
  | cnop => exact execCnop_formed hs
  | add f => exact execAdd_formed f hs
  | sub f => exact execSub_formed f hs
  | and f => exact execAnd_formed f hs
  | or f => exact execOr_formed f hs
  | xor f => exact execXor_formed f hs
  | andn f => exact execAndn_formed f hs
  | shl f => exact execShl_formed f hs
  | shr f => exact execShr_formed f hs
  | sar f => exact execSar_formed f hs
  | mul f => exact execMul_formed f hs
  | mulh f => exact execMulh_formed f hs
  | mulhu f => exact execMulhu_formed f hs
  | div f => exact execDiv_formed f hs
  | divu f => exact execDivu_formed f hs
  | rem f => exact execRem_formed f hs
  | remu f => exact execRemu_formed f hs
  | min f => exact execMin_formed f hs
  | max f => exact execMax_formed f hs
  | minu f => exact execMinu_formed f hs
  | maxu f => exact execMaxu_formed f hs
  | slt f => exact execSlt_formed f hs
  | sltu f => exact execSltu_formed f hs
  | seq f => exact execSeq_formed f hs
  | clz f => exact execClz_formed f hs
  | ctz f => exact execCtz_formed f hs
  | popc f => exact execPopc_formed f hs
  | csel f => exact execCsel_formed f hs
  | padd f => exact execPadd_formed f hs
  | psub f => exact execPsub_formed f hs
  | bfx f => exact execBfx_formed f hs
  | addi f => exact execAddi_formed f hs
  | andi f => exact execAndi_formed f hs
  | ori f => exact execOri_formed f hs
  | xori f => exact execXori_formed f hs
  | slti f => exact execSlti_formed f hs
  | sltiu f => exact execSltiu_formed f hs
  | shli f => exact execShli_formed f hs
  | shri f => exact execShri_formed f hs
  | sari f => exact execSari_formed f hs
  | paddi f => exact execPaddi_formed f hs
  | ptag f => exact execPtag_formed f hs
  | beq f => exact execBeq_formed f hs
  | bne f => exact execBne_formed f hs
  | blt f => exact execBlt_formed f hs
  | bge f => exact execBge_formed f hs
  | bltu f => exact execBltu_formed f hs
  | bgeu f => exact execBgeu_formed f hs
  | loop f => exact execLoop_formed f hs
  | jr f => exact execJr_formed f hs
  | ldl f => exact execLdl_formed f hs
  | stl f => exact execStl_formed f hs
  | ldg f => exact execLdg_formed f hs
  | stg f => exact execStg_formed f hs
  | ldacq f => exact execLdacq_formed f hs
  | strel f => exact execStrel_formed f hs
  | amoadd f => exact execAmoadd_formed f hs
  | amoand f => exact execAmoand_formed f hs
  | amoor f => exact execAmoor_formed f hs
  | amoxor f => exact execAmoxor_formed f hs
  | amomin f => exact execAmomin_formed f hs
  | amomax f => exact execAmomax_formed f hs
  | amominu f => exact execAmominu_formed f hs
  | amomaxu f => exact execAmomaxu_formed f hs
  | amoswp f => exact execAmoswp_formed f hs
  | amocas f => exact execAmocas_formed f hs
  | amofadd f => exact execAmofadd_formed f hs
  | amofmax f => exact execAmofmax_formed f hs
  | acq f => exact execAcq_formed f hs
  | rel f => exact execRel_formed f hs
  | fence f => exact execFence_formed f hs
  | qwait f => exact execQwait_formed f hs
  | mbw f => exact execMbw_formed f hs
  | mbr f => exact execMbr_formed f hs
  | mbtest f => exact execMbtest_formed f hs
  | tfence mask => exact execTfence_formed mask hs
  | binit f => exact execBinit_formed f hs
  | bexpect f => exact execBexpect_formed f hs
  | barrive f => exact execBarrive_formed f hs
  | bwait f => exact execBwait_formed f hs
  | btest f => exact execBtest_formed f hs
  | bwany f => exact execBwany_formed f hs
  | chtest f => exact execChtest_formed f hs
  | chwait f => exact execChwait_formed f hs
  | chclr f => exact execChclr_formed f hs
  | lsalloc f => exact execLsalloc_formed f hs
  | lsfree f => exact execLsfree_formed f hs
  | pmint f => exact execPmint_formed f hs
  | pdrop f => exact execPdrop_formed f hs
  | pstat f => exact execPstat_formed f hs
  | cpych f => exact execCpych_formed f hs
  | cpystat f => exact execCpystat_formed f hs
  | cpywait f => exact execCpywait_formed f hs
  | cpykill f => exact execCpykill_formed f hs
  | trkset f => exact execTrkset_formed f hs
  | trkclr f => exact execTrkclr_formed f hs
  | hstart f => exact execHstart_formed f hs
  | hend f => exact execHend_formed f hs
  | hjoin f => exact execHjoin_formed f hs
  | hkill f => exact execHkill_formed f hs
  | taskq f => exact execTaskq_formed f hs
  | taskqLone f => exact execTaskqLone_formed f hs
  | gfuse f => exact execGfuse_formed f hs
  | gsplit f => exact execGsplit_formed f hs
  | csign f => exact execCsign_formed f hs
  | cstep f => exact execCstep_formed f hs
  | cdiss f => exact execCdiss_formed f hs
  | send f => exact execSend_formed f hs
  | recv f => exact execRecv_formed f hs
  | recvt f => exact execRecvt_formed f hs
  | coll f => exact execColl_formed f hs
  | collLone f => exact execCollLone_formed f hs
  | cwait f => exact execCwait_formed f hs
  | mbegin f => exact execMbegin_formed f hs
  | mend f => exact execMend_formed f hs
  | mzero f => exact execMzero_formed f hs
  | msync f => exact execMsync_formed f hs
  | mma f => exact execMma_formed f hs
  | mldb f => exact execMldb_formed f hs
  | mrot f => exact execMrot_formed f hs
  | mstore f => exact execMstore_formed f hs
  | mload f => exact execMload_formed f hs
  | matrixKstep t => exact execMatrixKstep_formed t hs
  | ringHandover t => exact execRingHandover_formed t hs
  | matrixTrap t => exact execMatrixTrap_formed t hs
  | ecall f => exact execEcall_formed f hs
  | eret f => exact execEret_formed f hs
  | sysr f => exact execSysr_formed f hs
  | sysw f => exact execSysw_formed f hs
  | waiti f => exact execWaiti_formed f hs
  | yield f => exact execYield_formed f hs
  | brk f => exact execBrk_formed f hs
  | halt f => exact execHalt_formed f hs
  | snap f => exact execSnap_formed f hs
  | tlbinv f => exact execTlbinv_formed f hs
  | resize f => exact execResize_formed f hs
  | lineclr f => exact execLineclr_formed f hs
  | cwb f => exact execCwb_formed f hs
  | cinv f => exact execCinv_formed f hs
  | ctxsave f => exact execCtxsave_formed f hs
  | ctxload f => exact execCtxload_formed f hs
  | preempt f => exact execPreempt_formed f hs
  | kget f => exact execKget_formed f hs
  | kset f => exact execKset_formed f hs
  | vld f => exact execVld_formed f hs
  | vsta f => exact execVsta_formed f hs
  | vstorePair t c => exact execVstorePair_formed t c hs
  | li f => exact execLi_formed f hs
  | lih f => exact execLih_formed f hs
  | j f => exact execJ_formed f hs
  | jal f => exact execJal_formed f hs
  | lia f => exact execLia_formed f hs
  | cpy f => exact execCpy_formed f hs
  | vgather f => exact execVgather_formed f hs
  | vscatter f => exact execVscatter_formed f hs
  | anop w => exact execAnop_formed w hs
  | vadd f => exact execVadd_formed f hs
  | vsub f => exact execVsub_formed f hs
  | vmul f => exact execVmul_formed f hs
  | vmulh f => exact execVmulh_formed f hs
  | vmin f => exact execVmin_formed f hs
  | vmax f => exact execVmax_formed f hs
  | vand f => exact execVand_formed f hs
  | vor f => exact execVor_formed f hs
  | vxor f => exact execVxor_formed f hs
  | vandn f => exact execVandn_formed f hs
  | vshl f => exact execVshl_formed f hs
  | vshr f => exact execVshr_formed f hs
  | vsar f => exact execVsar_formed f hs
  | vabs f => exact execVabs_formed f hs
  | vclz f => exact execVclz_formed f hs
  | vpopc f => exact execVpopc_formed f hs
  | vadds f => exact execVadds_formed f hs
  | vsubs f => exact execVsubs_formed f hs
  | vfadd f => exact execVfadd_formed f hs
  | vfsub f => exact execVfsub_formed f hs
  | vfmul f => exact execVfmul_formed f hs
  | vfma f => exact execVfma_formed f hs
  | vfmin f => exact execVfmin_formed f hs
  | vfmax f => exact execVfmax_formed f hs
  | vrcp f => exact execVrcp_formed f hs
  | vrsq f => exact execVrsq_formed f hs
  | vexp2 f => exact execVexp2_formed f hs
  | vlog2 f => exact execVlog2_formed f hs
  | vsqrt f => exact execVsqrt_formed f hs
  | vcvt f => exact execVcvt_formed f hs
  | vcvtNarrow f => exact execVcvtNarrow_formed f hs
  | vceq f => exact execVceq_formed f hs
  | vcne f => exact execVcne_formed f hs
  | vclt f => exact execVclt_formed f hs
  | vcle f => exact execVcle_formed f hs
  | vsel f => exact execVsel_formed f hs
  | vrsum f => exact execVrsum_formed f hs
  | vrmax f => exact execVrmax_formed f hs
  | vrmin f => exact execVrmin_formed f hs
  | vshuf f => exact execVshuf_formed f hs
  | vrotl f => exact execVrotl_formed f hs
  | vbcast f => exact execVbcast_formed f hs
  | vcompr f => exact execVcompr_formed f hs
  | vexpnd f => exact execVexpnd_formed f hs
  | vtmrg f => exact execVtmrg_formed f hs
  | vtscl f => exact execVtscl_formed f hs
  | vhash f => exact execVhash_formed f hs
  | vpart f => exact execVpart_formed f hs
  | vrng f => exact execVrng_formed f hs
  | vscan f => exact execVscan_formed f hs
  | vrank f => exact execVrank_formed f hs
  | vstd f => exact execVstd_formed f hs
  | vmkmask f => exact execVmkmask_formed f hs
  | kand f => exact execKand_formed f hs
  | kor f => exact execKor_formed f hs
  | kxor f => exact execKxor_formed f hs
  | kandn f => exact execKandn_formed f hs
  | knot f => exact execKnot_formed f hs
  | kpopc f => exact execKpopc_formed f hs
  | syswFlags f => exact execSyswFlags_formed f hs
  | syswRingcfg f => exact execSyswRingcfg_formed f hs
  | syswRecvbase f => exact execSyswRecvbase_formed f hs
  | syswRecvsize f => exact execSyswRecvsize_formed f hs
  | recvtailClr f => exact execRecvtailClr_formed f hs
  | glDrainGo f => exact execGlDrainGo_formed f hs
  | glRelockGo f => exact execGlRelockGo_formed f hs
  | glLanestatEn f => exact execGlLanestatEn_formed f hs
  | glAllowWithhold f => exact execGlAllowWithhold_formed f hs
  | yqtbaseWrite dev v => exact execYqtbaseWrite_formed dev v hs
  | featackWrite dev v => exact execFeatackWrite_formed dev v hs
  | helpertrap t => exact execHelpertrap_formed t hs
  | quarantine t arrayError => exact execQuarantine_formed t arrayError hs
  | fenceRectangle t cause => exact execFenceRectangle_formed t cause hs
  | rectangleReady t => exact execRectangleReady_formed t hs
  | homeRead t gl mask => exact execHomeRead_formed t gl mask hs
  | homeRegister t gl mask => exact execHomeRegister_formed t gl mask hs
  | homeWriteback t gl mask => exact execHomeWriteback_formed t gl mask hs
  | homeReturn t gl mask => exact execHomeReturn_formed t gl mask hs
  | homeAmo t addr op dbl x cmp => exact execHomeAmo_formed t addr op dbl x cmp hs
  | readRecall t gl mask => exact execReadRecall_formed t gl mask hs
  | writeRecall t gl mask => exact execWriteRecall_formed t gl mask hs
  | registerGrant h => exact execRegisterGrant_formed h hs
  | fillReturn t c gl va perm => exact execFillReturn_formed t c gl va perm hs
  | remoteInvalidate dev gl => exact execRemoteInvalidate_formed dev gl hs
  | operationPacket t gl mask data => exact execOperationPacket_formed t gl mask data hs
  | hostRead gl => exact execHostRead_formed gl hs
  | hostWrite gl own mask data => exact execHostWrite_formed gl own mask data hs
  | hostSnoop gl => exact execHostSnoop_formed gl hs
  | backInvalidateAnswer gl mask data => exact execBackInvalidateAnswer_formed gl mask data hs
  | cxlLinkDown dev => exact execCxlLinkDown_formed dev hs
  | cxlLinkUp dev => exact execCxlLinkUp_formed dev hs
  | tentativeCommit t c => exact execTentativeCommit_formed t c hs
  | tentativeDiscard t c => exact execTentativeDiscard_formed t c hs
  | walkComplete dev region n => exact execWalkComplete_formed dev region n hs
  | patrolScrub gl bad => exact execPatrolScrub_formed gl bad hs
  | copyPiece t ch => exact execCopyPiece_formed t ch hs
  | recordComplete t ch => exact execRecordComplete_formed t ch hs
  | directTransferDone t => exact execDirectTransferDone_formed t hs
  | slotLanding t slot gen chunk mask data => exact execSlotLanding_formed t slot gen chunk mask data hs
  | barrierUpdate glob a arr bytes => exact execBarrierUpdate_formed glob a arr bytes hs
  | aonVersionRaise a => exact execAonVersionRaise_formed a hs
  | trackerReport cl gl mask => exact execTrackerReport_formed cl gl mask hs
  | trackerHeldStart t ch => exact execTrackerHeldStart_formed t ch hs
  | compactSignature t => exact execCompactSignature_formed t hs
  | compactWithdrawal t => exact execCompactWithdrawal_formed t hs
  | compactTreeArrival t own => exact execCompactTreeArrival_formed t own hs
  | memberLoss t => exact execMemberLoss_formed t hs
  | pipDelivery t slot gen v poison => exact execPipDelivery_formed t slot gen v poison hs
  | pipExpiry t slot => exact execPipExpiry_formed t slot hs
  | pipQuarEnd t slot => exact execPipQuarEnd_formed t slot hs
  | pipEnd origin t => exact execPipEnd_formed origin t hs
  | messageArrival t sender body => exact execMessageArrival_formed t sender body hs
  | recvtTimeout t => exact execRecvtTimeout_formed t hs
  | vetchStep dev region id => exact execVetchStep_formed dev region id hs
  | contributionArrival dev region id => exact execContributionArrival_formed dev region id hs
  | apertureApply dev region id inst op buf off len data => exact execApertureApply_formed dev region id inst op buf off len data hs
  | spanReceive h ok => exact execSpanReceive_formed h ok hs
  | slotEdge dev k => exact execSlotEdge_formed dev k hs
  | allowanceReturn dev pos n => exact execAllowanceReturn_formed dev pos n hs
  | drainMarker dev src => exact execDrainMarker_formed dev src hs
  | drainTimeout dev => exact execDrainTimeout_formed dev hs
  | relockRotation dev => exact execRelockRotation_formed dev hs
  | relockDone dev locked => exact execRelockDone_formed dev locked hs
  | laneRetrain dev lane => exact execLaneRetrain_formed dev lane hs
  | laneHandback dev lane locked => exact execLaneHandback_formed dev lane locked hs
  | tailWake dev q => exact execTailWake_formed dev q hs
  | launchSelect dev => exact execLaunchSelect_formed dev hs
  | launchAging dev q => exact execLaunchAging_formed dev q hs
  | launchStart dev q => exact execLaunchStart_formed dev q hs
  | launchForward dev pid => exact execLaunchForward_formed dev pid hs
  | launchComplete pid => exact execLaunchComplete_formed pid hs
  | saveServiceStart t => exact execSaveServiceStart_formed t hs
  | partitionResume pid => exact execPartitionResume_formed pid hs
  | taskStart t => exact execTaskStart_formed t hs
  | issuePriorityRaise t c aSlot => exact execIssuePriorityRaise_formed t c aSlot hs
  | yieldExpiry t c => exact execYieldExpiry_formed t c hs
  | powerOnReset dev => exact execPowerOnReset_formed dev hs
  | getVersion dev => exact execGetVersion_formed dev hs
  | getCapabilities dev => exact execGetCapabilities_formed dev hs
  | negotiateAlgorithms dev offer => exact execNegotiateAlgorithms_formed dev offer hs
  | getDigests dev => exact execGetDigests_formed dev hs
  | getCertificate dev => exact execGetCertificate_formed dev hs
  | challenge dev nonce => exact execChallenge_formed dev nonce hs
  | getMeasurements dev nonce => exact execGetMeasurements_formed dev nonce hs
  | keyExchange dev nonce => exact execKeyExchange_formed dev nonce hs
  | finish dev => exact execFinish_formed dev hs
  | keyUpdate dev => exact execKeyUpdate_formed dev hs
  | heartbeat dev => exact execHeartbeat_formed dev hs
  | endSession dev => exact execEndSession_formed dev hs
  | pldmFirmwareUpdate dev kind image burn => exact execPldmFirmwareUpdate_formed dev kind image burn hs
  | pldmSetPcap dev watts => exact execPldmSetPcap_formed dev watts hs
  | snapTrigger dev => exact execSnapTrigger_formed dev hs
  | snapRead dev => exact execSnapRead_formed dev hs
  | mgmtEventSend dev => exact execMgmtEventSend_formed dev hs
  | powerWindow dev watts => exact execPowerWindow_formed dev watts hs
  | thermalTrip dev celsius => exact execThermalTrip_formed dev celsius hs
  | reservedEncoding u compute => exact execReservedEncoding_formed u compute hs
  | matrixCommandRetirement t => exact execMatrixCommandRetirement_formed t hs
  | bankRetention t c => exact execBankRetention_formed t c hs
  | ieee1588Synchronisation dev ns => exact execIeee1588Synchronisation_formed dev ns hs
  | devidAssignment dev domain pos => exact execDevidAssignment_formed dev domain pos hs

end Sys2Proof.Machine
end

section
set_option Elab.async false
/-! A cycle keeps the canonical form of memory, and so does every step (O59). -/
namespace Sys2Proof.Machine

/-! ## Fetch -/

theorem fetchUnit_keepsForm : KeepsForm fetchUnit := by
  unfold fetchUnit
  refine KeepsForm.bind getC_keepsForm fun k => KeepsForm.bind getT_keepsForm fun x => ?_
  dsimp only
  split
  case h_1 => exact KeepsForm.bind (need_keepsForm _ _ _) fun _ => KeepsForm.pure _
  case h_2 =>
    refine KeepsForm.bind (locateM_keepsForm _ _ _) fun r => KeepsForm.bind (fun s hs => ?_) fun d =>
      KeepsForm.get_bind fun s _ => KeepsForm.unless (modT_keepsForm _) fun _ => KeepsForm.pure _
    have h := peekLine_formed s.asker (r.1 / 128) (BitVec.allOnes 32) k.pc hs
    split <;> rename_i e <;> rw [e] at h <;> exact h

/-! ## Issue -/

theorem asCtx_formed {s : State} (t c : Nat) (hs : s.formed) : (s.asCtx t c).formed := by
  unfold State.asCtx
  grind
theorem advance_formed {s : State} (hs : s.formed) : (s.advance).formed := by
  unfold State.advance
  grind [setCtx_mem]
theorem enqueue_formed {s : State} (onlyA held : Bool) (rules : Option (BitVec 2 × Bool)) (hs : s.formed) : (s.enqueue onlyA held rules).formed := by
  unfold State.enqueue
  grind [setCtx_mem]
theorem commit_formed {s : State} (p : Part) (hs : s.formed) : (s.commit p).formed := by
  unfold State.commit
  grind [setCtx_mem]
theorem atPart_formed {s : State} (p : Part) (hs : s.formed) : (s.atPart p).formed := by
  unfold State.atPart
  grind [setCtx_mem]
theorem afterMbw_formed {s : State} (now : Nat) (hs : s.formed) : (s.afterMbw now).formed := by
  unfold State.afterMbw
  grind [setCtx_mem]
theorem atPc_formed {s : State} (hs : s.formed) : (s.atPc).formed := by
  unfold State.atPc
  grind [setCtx_mem]
theorem fetchInto_keepsForm : KeepsForm fetchInto := by
  grind [fetchInto, fetchUnit_keepsForm, modC_keepsForm, KeepsForm.bind, KeepsForm.pure]
theorem aliased_formed {s : State} (p : Word) (n : Nat) (l : List (Word × Nat)) (hs : s.formed) : (s.aliased p n l).2.formed := by
  induction l generalizing s with
  | nil => exact hs
  | cons a l ih => grind [State.aliased, placesOf_formed]
theorem wakeBanks_formed {s : State} (hs : s.formed) : (s.wakeBanks).formed := by
  unfold State.wakeBanks
  grind [setCtx_mem, corrected_formed, countCorrected_formed]
theorem leaveGang_formed {s : State} (m : Nat) (hs : s.formed) : (s.leaveGang m).formed := by
  unfold State.leaveGang
  grind [modTile_mem, modCtxAt_mem]
theorem splitGang_formed {s : State} (did : List Did) (hs : s.formed) : (s.splitGang did).formed := by
  unfold State.splitGang
  grind [leaveGang_formed, modTile_mem, foldl_formed]
theorem ifCtx_formed {s : State} (t c : Nat) (f : Ctx → Ctx) (hs : s.formed) : (s.ifCtx t c f).formed := by
  unfold State.ifCtx
  grind [modCtxAt_mem]
theorem tick_formed {s : State} (hs : s.formed) : (s.tick).formed := by
  unfold State.tick
  grind [nextUpdates_formed]

/-- What trying a part leaves is in canonical form. -/
def Try.formed : Try → Prop
  | .goes s | .waits s => s.formed
  | .stuck => True
  | .ends o => outFormed o

/-! ## Outcomes in sequence -/

theorem andThen_formed {o : Out} {f : State → Out} (ho : outFormed o) (hf : ∀ s, s.formed → outFormed (f s)) : outFormed (andThen o f) := by
  cases o with
  | next s => exact hf s ho
  | fault r => trivial
  | refused r => trivial
theorem andEach_formed {f : α → State → Out} (hf : ∀ a s, s.formed → outFormed (f a s)) (l : List α) {s : State} (hs : s.formed) :
    outFormed (andEach f l s) := by
  induction l generalizing s with
  | nil => exact hs
  | cons a l ih => exact andThen_formed (hf a s hs) fun _ h => ih h
theorem outFormed_next {o : Out} {s : State} (ho : outFormed o) (e : o = .next s) : s.formed := by
  rwa [e] at ho

theorem outFormed_ite {c : Prop} [Decidable c] {o o' : Out} (ho : outFormed o) (ho' : outFormed o') : outFormed (if c then o else o') := by
  split
  · exact ho
  · exact ho'

/-! ## Parts of a unit -/

theorem runPart_formed {s : State} (i : Option Instr) (compute : Bool) (hs : s.formed) : outFormed (runPart i compute s) := by
  cases i with
  | none => exact execReservedEncoding_formed _ _ hs
  | some i => exact exec_formed i hs
theorem underRules_formed {s : State} (r : Option (BitVec 2 × Bool)) {f : State → Out} (hf : ∀ s, s.formed → outFormed (f s)) (hs : s.formed) :
    outFormed (underRules r f s) := by
  unfold underRules
  split
  · exact hf s hs
  · refine andThen_formed (hf _ hs) fun u hu => ?_
    grind [outFormed, modCtxAt_mem]
theorem computePart_formed {s : State} (p : Part) (hs : s.formed) : outFormed (computePart p s) := by
  have h0 := atPart_formed p hs
  have done (u : State) (hu : u.formed) : (if u.fate = .done then u.commit p else u).formed := by grind [commit_formed]
  unfold computePart
  split
  case h_1 => exact andThen_formed (runPart_formed _ _ h0) done
  case h_2 =>
    split
    case isTrue =>
      refine andThen_formed (runPart_formed _ _ h0) fun u hu => ?_
      split
      case isTrue => exact hu
      case isFalse =>
        refine andThen_formed (underRules_formed _ (fun _ h => runPart_formed _ _ h) hu) fun v hv => ?_
        grind [outFormed, takeTrap_formed, afterMbw_formed]
    case isFalse => exact andThen_formed (underRules_formed _ (fun _ h => runPart_formed _ _ h) h0) done
theorem addressUnit_formed {s : State} (hs : s.formed) : outFormed (addressUnit s) := by
  unfold addressUnit
  dsimp only
  split
  case h_1 i _ =>
    split
    case isTrue => grind [outFormed, reserve_formed, enqueue_formed, advance_formed]
    case isFalse => exact andThen_formed (runPart_formed _ _ hs) fun u hu => by grind [outFormed, advance_formed]
  case h_2 c _ _ =>
    split
    case isTrue => grind [outFormed, enqueue_formed, advance_formed, setCtx_mem]
    case isFalse =>
      split
      case isTrue => grind [outFormed, enqueue_formed, advance_formed]
      case isFalse => exact andThen_formed (runPart_formed _ _ hs) fun u hu => by grind [outFormed, enqueue_formed, advance_formed]

/-! ## A part in one cycle -/

theorem tryOf_formed {s : State} {o : Out} (hs : s.formed) (ho : outFormed o) : (Try.of s o).formed := by
  cases o <;> grind [Try.of, Try.formed, outFormed]
theorem addressFront_formed {s : State} (hs : s.formed) : (addressFront s).formed := by
  have hf := fetchInto_keepsForm _ (atPc_formed hs)
  unfold addressFront
  dsimp only
  split
  case h_1 e =>
    rw [e] at hf
    split
    · exact hf
    · exact tryOf_formed hf (addressUnit_formed hf)
  case h_2 e =>
    rw [e] at hf
    exact tryOf_formed (atPc_formed hs) (settleStop_formed (atPc_formed hs) hf)
theorem holdAhead_formed {s : State} (use : List (BitVec 5) × List (BitVec 5)) (hs : s.formed) : (holdAhead use s).formed := by
  grind [holdAhead, Try.formed, enqueue_formed, advance_formed]
theorem runAhead_formed {s : State} (i : Option Instr) (push full : Bool) (hs : s.formed) : (runAhead i push full s).formed := by
  have h := tryOf_formed hs (runPart_formed i false hs)
  unfold runAhead
  cases hr : Try.of s (runPart i false s) <;> grind [Try.formed, enqueue_formed, advance_formed]
theorem tryFormed_ite {c : Prop} [Decidable c] {r r' : Try} (hr : r.formed) (hr' : r'.formed) : (if c then r else r').formed := by
  split
  · exact hr
  · exact hr'
theorem aheadUnit_formed {s : State} (hs : s.formed) : (aheadUnit s).formed := by
  have stuck : Try.stuck.formed := trivial
  refine tryFormed_ite (tryFormed_ite ?gather ?lone) (tryFormed_ite ?held <| tryFormed_ite stuck <| tryFormed_ite (holdAhead_formed _ hs) <|
    tryFormed_ite stuck <| tryFormed_ite stuck <| tryFormed_ite stuck <| tryFormed_ite stuck <| tryFormed_ite stuck ?pair)
  case gather =>
    refine tryFormed_ite stuck ?_
    split <;> grind [Try.formed, reserve_formed, enqueue_formed, advance_formed]
  case lone =>
    exact tryFormed_ite stuck (tryFormed_ite (holdAhead_formed _ hs) (tryFormed_ite stuck (runAhead_formed _ _ _ hs)))
  case held => grind [Try.formed, enqueue_formed, advance_formed]
  case pair =>
    split
    · exact runAhead_formed _ _ _ hs
    · refine tryFormed_ite stuck ?_
      split <;> grind [Try.formed, runAhead_formed, aliased_formed]
theorem ahead_formed {s : State} (p : Part) (hs : s.formed) : (ahead p s).formed := by
  have hf := fetchInto_keepsForm _ (atPc_formed hs)
  grind [ahead, Try.formed, resultFormed, Stop.formed, aheadUnit_formed, atPc_formed]
theorem addressTry_formed {s : State} (hs : s.formed) : (addressTry s).formed := by
  grind [addressTry, addressFront_formed, ahead_formed]
theorem headWaits_formed {s t : State} (p : Part) (ht : t.formed) : (headWaits p s t).formed := by
  grind [headWaits, Try.formed, takeTrap_formed]
theorem computeTry_formed {s : State} (hs : s.formed) : (computeTry s).formed := by
  unfold computeTry
  split
  case h_1 => exact hs
  case h_2 p _ _ =>
    have h := tryOf_formed hs (computePart_formed p hs)
    grind [Try.formed, wakeBanks_formed, headWaits_formed]
theorem tryPart_formed {s : State} (compute : Bool) (t c : Nat) (hs : s.formed) : (tryPart compute t c s).formed := by
  grind [tryPart, computeTry_formed, addressTry_formed, asCtx_formed]
theorem performHeld_formed {s : State} (t c : Nat) (hs : s.formed) : outFormed (performHeld t c s) := by
  unfold performHeld
  dsimp only
  split
  case h_1 => exact hs
  case h_2 p _ _ =>
    split
    case isTrue => exact hs
    case isFalse =>
      generalize hr : runPart _ _ _ = o
      have ho : outFormed o := hr ▸ runPart_formed _ _ hs
      cases o <;> grind [outFormed, modCtxAt_mem, leaveGang_formed]

/-! ## The issue slots -/

theorem survey_formed {s : State} (compute : Bool) (t : Nat) (cs : List Nat) (hs : s.formed) : (survey compute t cs s).2.formed := by
  induction cs generalizing s with
  | nil => exact hs
  | cons c cs ih =>
    have h := tryPart_formed compute t c hs
    unfold survey
    cases hr : tryPart compute t c s <;> grind [Try.formed, modCtxAt_mem, ifCtx_formed]
theorem issuePart_formed {s : State} (compute : Bool) (t c : Nat) (hs : s.formed) : outFormed (issuePart compute t c s) := by
  have h := tryPart_formed compute t c hs
  unfold issuePart
  cases hr : tryPart compute t c s <;> grind [Try.formed, outFormed, ifCtx_formed]
theorem onlyPart_formed {s : State} (compute : Bool) (t c : Nat) (hs : s.formed) : outFormed (onlyPart compute t c s) := by
  have h := tryPart_formed compute t c hs
  unfold onlyPart
  cases hr : tryPart compute t c s <;> grind [Try.formed, outFormed, ifCtx_formed, modCtxAt_mem]
theorem slot_formed {s : State} (compute : Bool) (t : Nat) (cs : List Nat) (hs : s.formed) : outFormed (slot compute t cs s) := by
  have h := survey_formed compute t cs hs
  unfold slot
  grind [outFormed, onlyPart_formed, issuePart_formed]
theorem gangIssue_formed {s t : State} {did all : List Did} (compute : Bool) (ms : List Nat) (hs : s.formed)
    (e : gangIssue compute ms did s = some (.next (all, t))) : t.formed := by
  induction ms generalizing s did with
  | nil => cases e; exact hs
  | cons m ms ih =>
    have h := tryPart_formed compute m 0 hs
    unfold gangIssue at e
    split at e
    case h_1 z hz => rw [hz] at h; exact ih (ifCtx_formed _ _ _ h) e
    all_goals cases e
theorem gangSurvey_formed {s : State} (compute : Bool) (cs : Nat → List Nat) (ms : List Nat) (hs : s.formed) : (gangSurvey compute cs ms s).2.formed := by
  induction ms generalizing s with
  | nil => exact hs
  | cons m ms ih => exact ih (survey_formed compute m _ hs)
theorem gangSlot_formed {s : State} (compute : Bool) (cs : Nat → List Nat) (members : List Nat) (hs : s.formed) :
    outFormed (gangSlot compute cs members s) := by
  have hg := gangSurvey_formed compute cs members hs
  unfold gangSlot
  dsimp only
  generalize gangSurvey compute cs members s = r at *
  obtain ⟨asks, u⟩ := r
  have others : outFormed (andEach (fun (q : Nat × List Nat) s =>
      match s.choose compute q.1 (q.2.filter (· ≠ 0)) with
      | some c => issuePart compute q.1 c s
      | none => .next s) asks u) := by
    refine andEach_formed (fun q z hz => ?_) _ hg
    split
    · exact issuePart_formed _ _ _ hz
    · exact hz
  split
  case isTrue =>
    split
    case h_1 e => exact splitGang_formed _ (gangIssue_formed compute members hg e)
    case h_2 => trivial
    case h_3 => trivial
    case h_4 => exact others
  case isFalse => exact others

/-! ## One cycle of a tile -/

theorem outerTrap_formed {s u : State} {t : Nat} {act : State → Out} (h : s.outerTrap t = some act) (hu : u.formed) : outFormed (act u) := by
  unfold State.outerTrap at h
  dsimp only at h
  repeat' split at h
  all_goals cases h
  · exact execHelpertrap_formed t hu
  · exact execMatrixTrap_formed t hu
theorem beforeSlots_formed {s : State} (t : Nat) (hs : s.formed) : outFormed (beforeSlots t s) := by
  unfold beforeSlots
  refine andThen_formed ?_ fun u hu => andEach_formed (fun c z hz => andThen_formed ?_ fun _ h => performHeld_formed t c h) _ hu
  · split
    case h_1 e => exact andThen_formed (outerTrap_formed e hs) fun u hu => by grind [outFormed, leaveGang_formed]
    case h_2 => exact hs
  · split
    · exact execVstorePair_formed t c hz
    · exact hz
theorem groupSlot_formed {s : State} (compute : Bool) (cs : Nat → List Nat) (members : List Nat) (hs : s.formed) :
    outFormed (groupSlot compute cs members s) :=
  andThen_formed (gangSlot_formed _ _ _ hs) fun _ hu => andEach_formed (fun _ _ hz => slot_formed _ _ _ hz) _ hu
theorem tileCycle_formed {s : State} (t : Nat) (hs : s.formed) : outFormed (tileCycle t s) := by
  refine outFormed_ite ?gang ?alone
  case gang =>
    exact andThen_formed (andEach_formed (fun m _ hz => beforeSlots_formed m hz) _ hs) fun u hu =>
      andThen_formed (groupSlot_formed _ _ _ hu) fun _ hz => groupSlot_formed _ _ _ hz
  case alone =>
    exact andThen_formed (beforeSlots_formed t hs) fun u hu => andThen_formed (slot_formed _ _ _ hu) fun _ hz => slot_formed _ _ _ hz

/-! ## The hardware of a cycle -/

/-- Every one of these acts of the hardware keeps the canonical form. -/
def ActsKeepForm (l : List (State → Out)) : Prop := ∀ act ∈ l, ∀ s, s.formed → outFormed (act s)

theorem actsKeepForm_nil : ActsKeepForm [] := by simp [ActsKeepForm]
theorem actsKeepForm_cons {act : State → Out} {l : List (State → Out)} :
    ActsKeepForm (act :: l) ↔ (∀ s, s.formed → outFormed (act s)) ∧ ActsKeepForm l := by simp [ActsKeepForm]
theorem actsKeepForm_append {l m : List (State → Out)} : ActsKeepForm (l ++ m) ↔ ActsKeepForm l ∧ ActsKeepForm m := by
  simp [ActsKeepForm, or_imp, forall_and]
theorem actsKeepForm_map {l : List α} {f : α → State → Out} (h : ∀ a s, s.formed → outFormed (f a s)) : ActsKeepForm (l.map f) := by
  simp only [ActsKeepForm, List.forall_mem_map]
  exact fun a _ => h a
theorem actsKeepForm_flatMap {l : List α} {f : α → List (State → Out)} (h : ∀ a, ActsKeepForm (f a)) : ActsKeepForm (l.flatMap f) := by
  intro act hm
  obtain ⟨a, -, hm⟩ := List.mem_flatMap.1 hm
  exact h a act hm
theorem actsKeepForm_ite {c : Prop} [Decidable c] {l m : List (State → Out)} (hl : ActsKeepForm l) (hm : ActsKeepForm m) :
    ActsKeepForm (if c then l else m) := by
  split
  · exact hl
  · exact hm
theorem actsKeepForm_single {act : State → Out} (h : ∀ s, s.formed → outFormed (act s)) : ActsKeepForm [act] :=
  actsKeepForm_cons.2 ⟨h, actsKeepForm_nil⟩

theorem tileWorks_keepForm (s : State) (t : Nat) : ActsKeepForm (s.tileWorks t) := by
  unfold State.tileWorks
  simp only [actsKeepForm_append]
  refine ⟨⟨⟨⟨⟨⟨⟨⟨⟨⟨?matrix, ?ring⟩, ?chans⟩, ?direct⟩, ?held⟩, ?gate⟩, ?pips⟩, ?pairs⟩, ?signing⟩, ?save⟩, ?ends⟩
  case matrix => exact actsKeepForm_ite actsKeepForm_nil (actsKeepForm_cons.2
    ⟨fun _ h => execMatrixKstep_formed t h, actsKeepForm_single fun _ h => execMatrixCommandRetirement_formed t h⟩)
  case ring => exact actsKeepForm_ite (actsKeepForm_single fun _ h => execRingHandover_formed t h) actsKeepForm_nil
  case chans =>
    exact actsKeepForm_flatMap fun c => actsKeepForm_cons.2 ⟨fun _ h => execCopyPiece_formed t c h,
        actsKeepForm_single fun _ h => execRecordComplete_formed t c h⟩
  case direct => exact actsKeepForm_ite actsKeepForm_nil (actsKeepForm_cons.2
    ⟨fun _ h => execCopyPiece_formed t 4 h, actsKeepForm_single fun _ h => execDirectTransferDone_formed t h⟩)
  case held => exact actsKeepForm_map fun _ _ h => execTrackerHeldStart_formed t _ h
  case gate => exact actsKeepForm_ite actsKeepForm_nil (actsKeepForm_single fun _ h => execTaskStart_formed t h)
  case pips =>
    refine actsKeepForm_flatMap fun e => actsKeepForm_ite (actsKeepForm_single fun _ h => execPipExpiry_formed t e.1 h) ?_
    exact actsKeepForm_ite (actsKeepForm_single fun _ h => execPipQuarEnd_formed t e.1 h) actsKeepForm_nil
  case pairs => exact actsKeepForm_map fun _ _ h => execVstorePair_formed t _ h
  case signing => exact actsKeepForm_ite (actsKeepForm_single fun _ h => execCompactSignature_formed t h) actsKeepForm_nil
  case save => exact actsKeepForm_ite (actsKeepForm_single fun _ h => execSaveServiceStart_formed t h) actsKeepForm_nil
  case ends => exact actsKeepForm_ite (actsKeepForm_map fun _ _ h => execPipEnd_formed _ t h) actsKeepForm_nil
theorem yarrowWorks_keepForm (s : State) (p : Nat) : ActsKeepForm ((s.tableQueues p).map (fun q => execTailWake p q) ++
    (s.dev p).yarrow.queues.map (fun q => execLaunchAging p q.1) ++ [execLaunchSelect p]) := by
  simp only [actsKeepForm_append]
  exact ⟨⟨actsKeepForm_map fun _ _ h => execTailWake_formed p _ h, actsKeepForm_map fun _ _ h => execLaunchAging_formed p _ h⟩,
    actsKeepForm_single fun _ h => execLaunchSelect_formed p h⟩
theorem devWorks_keepForm (s : State) (p : Nat) : ActsKeepForm (s.devWorks p) := by
  unfold State.devWorks
  simp only [actsKeepForm_append]
  refine ⟨⟨⟨⟨⟨⟨⟨⟨⟨⟨⟨?regions, ?yarrow⟩, ?triggers⟩, ?merging⟩, ?events⟩, ?relock⟩, ?relocked⟩, ?lanes⟩, ?handback⟩, ?drain⟩, ?slot⟩, ?allows⟩
  case regions =>
    refine actsKeepForm_flatMap fun r => actsKeepForm_append.2 ⟨?_, ?_⟩
    · exact actsKeepForm_map fun _ _ h => execWalkComplete_formed p _ _ h
    · exact actsKeepForm_map fun _ _ h => execVetchStep_formed p _ _ h
  case yarrow => exact actsKeepForm_ite (by simpa only [actsKeepForm_append] using yarrowWorks_keepForm s p) actsKeepForm_nil
  case triggers => exact actsKeepForm_ite actsKeepForm_nil (actsKeepForm_single fun _ h => happen_formed (fireTriggers_formed p h))
  case merging => exact actsKeepForm_ite (actsKeepForm_single fun _ h => happen_formed (flushMerged_formed p h)) actsKeepForm_nil
  case events => exact actsKeepForm_ite actsKeepForm_nil (actsKeepForm_single fun _ h => execMgmtEventSend_formed p h)
  case relock => exact actsKeepForm_ite (actsKeepForm_single fun _ h => execRelockRotation_formed p h) actsKeepForm_nil
  case relocked => exact actsKeepForm_ite (actsKeepForm_single fun _ h => execRelockDone_formed p _ h) actsKeepForm_nil
  case lanes => exact actsKeepForm_map fun _ _ h => execLaneRetrain_formed p _ h
  case handback => exact actsKeepForm_map fun _ _ h => execLaneHandback_formed p _ _ h
  case drain => exact actsKeepForm_ite (actsKeepForm_single fun _ h => execDrainTimeout_formed p h) actsKeepForm_nil
  case slot => exact actsKeepForm_ite (actsKeepForm_single fun _ h => execSlotEdge_formed p _ h) actsKeepForm_nil
  case allows => exact actsKeepForm_map fun _ _ h => execAllowanceReturn_formed p _ _ h
theorem launchWorks_keepForm (s : State) : ActsKeepForm s.launchWorks := by
  refine actsKeepForm_flatMap fun q => actsKeepForm_append.2 ⟨actsKeepForm_map fun _ _ h => execLaunchForward_formed _ _ h, ?_⟩
  exact actsKeepForm_cons.2 ⟨fun _ h => execLaunchComplete_formed _ h, actsKeepForm_single fun _ h => execPartitionResume_formed _ h⟩
theorem works_keepForm (s : State) : ActsKeepForm s.works := by
  unfold State.works
  simp only [actsKeepForm_append]
  exact ⟨⟨⟨actsKeepForm_flatMap fun e => tileWorks_keepForm s e.1, actsKeepForm_flatMap fun e => devWorks_keepForm s e.1⟩,
    launchWorks_keepForm s⟩, actsKeepForm_map fun _ _ h => execRegisterGrant_formed _ h⟩
theorem take_formed {s : State} (turn : Turn) (hs : s.formed) : outFormed (take turn s) := by
  unfold take
  cases turn <;> grind [outFormed, exec_formed, tileCycle_formed, modTile_mem, wake_formed, ifCtx_formed, bar0_formed, symbols_formed, flitArrives_formed,
    garble_formed, mismatch_formed, trigger_formed, extendMeasure_formed, endPartition_formed, nextUpdates_formed]
theorem cycleTurn_formed {s : State} (hs : s.formed) : outFormed (cycleTurn s) := by
  unfold cycleTurn
  split
  case h_1 => exact tileCycle_formed _ hs
  case h_2 =>
    split
    case h_1 e => exact works_keepForm s _ (List.mem_of_getElem? e) _ hs
    case h_2 => exact tick_formed hs
theorem step_formed {s : State} (hs : s.formed) : outFormed (step s) := by
  unfold step turn
  split
  · exact take_formed _ hs
  · exact cycleTurn_formed hs

/-- Settles O59: what a step leaves is in canonical form, as every function that a step is made of leaves it. -/
theorem memoryFormKept : Obligations.MemoryFormKept := by
  unfold Obligations.MemoryFormKept
  intro s t hs e
  exact outFormed_next (step_formed hs) e

end Sys2Proof.Machine
end

section
set_option Elab.async false
/-! Gather and scatter in scratch (R271, R272). -/
namespace Sys2Proof.Machine

/-! ## Pinned words of a tile -/

theorem pinnedSpan_of_holds {x : Tile} {o n : Nat} (hn : 0 < n) (h : x.holds o n) : x.pinnedSpan o n = true := by
  have range := pinnedRange_of_holds hn h
  rw [Tile.pinnedRange, Bool.and_eq_true] at range
  exact range.2

theorem holds_word {x : Tile} {o : Nat} (ha : o % 4 = 0) (hb : o < 0xA0000) (hp : mhas x.pins (o / 128) = true) : x.holds o 4 := by
  intro i hi
  rw [show (o + i) / 128 = o / 128 by omega]
  exact ⟨by omega, hp⟩

/-- An aligned 32-bit word of the tile's scratch. -/
def Tile.word32 (x : Tile) (o : Nat) : Nat := (x.pin (o / 128)).data.toNat / 2 ^ (8 * (o % 128)) % 2 ^ 32

theorem word32_eq (x : Tile) {o : Nat} (h : o % 4 = 0) : x.word32 o = x.bytesAt o 4 := (bytesAt_line x (show o % 128 + 4 ≤ 128 by omega)).symm

theorem localRead_word (x : Tile) {o : Nat} (h : o % 4 = 0) : x.localRead o 4 = x.word32 o := (localRead_eq ..).trans (word32_eq x h).symm

/-- A word after a write of the words from o on. -/
theorem localWrite_word (x : Tile) {o a : Nat} (v : Nat) (ho : o % 4 = 0) (ha : a % 4 = 0) :
    (x.localWrite o 4 v).word32 a = if a = o then v % 2 ^ 32 else x.word32 a := by
  by_cases e : a = o
  · rw [if_pos e, e, ← localRead_word _ ho, localRead_localWrite]
  · rw [if_neg e, word32_eq _ ha, word32_eq _ ha, Tile.bytesAt, Tile.bytesAt]
    refine congrArg (packNat 8) (List.map_congr_left fun i hi => ?_)
    have := List.mem_range.1 hi
    rw [localWrite_byte, if_neg (by omega)]

/-- Writing keeps lines pinned. -/
theorem localWrite_pinned (x : Tile) (o n v : Nat) {l : Nat} (h : mhas x.pins l = true) : mhas (x.localWrite o n v).pins l = true := by
  unfold Tile.localWrite
  generalize pieces o n = ps
  induction ps generalizing x with
  | nil => exact h
  | cons q ps ih =>
    refine ih _ ?_
    simp only [Tile.localLine, mhas_mset, h, Bool.true_or]

/-! ## The operands of a long instruction -/

/-- The operands of a long instruction, named as an A-word names its own. -/
def longWord (f : LF) : AW := { w := 0, k := bits f.f1 6 2, t := 1, d := 56, a := gatherIndex f, b := scatterData f }

/-- A context that has read a long instruction's operands and keeps them. -/
def Ctx.keeping (k : Ctx) (x y : Vec) : Ctx := { k with kept := some ⟨unitAddr k.upc, x, y⟩, pixK := false, pixIndex := 0 }

/-- Entries that are filled, or reserved by this unit, stay. -/
theorem dqs_kept {k : Ctx} (h : ∀ j < 4, ∀ e ∈ k.dqs.getD j [], (e.filled || decide (k.useq ≤ e.seq)) = true) :
    (k.dqs.map fun q => q.filter fun e => e.filled || decide (k.useq ≤ e.seq)) = k.dqs := by
  refine Vector.ext fun i hi => ?_
  rw [Vector.getElem_map, List.filter_eq_self]
  have := h i hi
  rwa [show k.dqs.getD i [] = k.dqs[i] by simp [Vector.getD, hi]] at this

/-- Waiting again for sources that can be read changes nothing. -/
theorem awaitSources_again {s : State} {cs : List (BitVec 6)} (hq : s.ctx.queuesCalm = true) (h : s.Sources cs) :
    awaitSources cs (s.setCtx s.ctx) = .ok ((), s.setCtx s.ctx) := by
  obtain ⟨ranges, ready, boxes, pops⟩ := h
  have same : (s.setCtx s.ctx).Sources cs := ⟨by simpa using ranges, by simpa using ready, by simpa using boxes, by simpa using pops⟩
  have := awaitSources_run (by simpa using hq) same
  rwa [setCtx_ctx, setCtx_setCtx] at this

section
variable {s : State} {f : LF} (hr : s.ctx.resumes = false)
  (keep : ∀ j < 4, ∀ e ∈ s.ctx.dqs.getD j [], (e.filled || decide (s.ctx.useq ≤ e.seq)) = true)
include hr keep

theorem longOperands_gather (can : s.canVector (longWord f) false = true) :
    longOperands [gatherIndex f] (gatherMask f) (some (gatherQueue f)) s = .ok ((s.opA (longWord f), 0, 0),
      s.setCtx ((s.ctx.sourceTaken (gatherIndex f)).keeping (s.opA (longWord f)) 0)) := by
  obtain ⟨hcalm, ha, -, -, hk⟩ := (canVector_iff s (longWord f) false).1 can
  change s.canSource (gatherIndex f) = true at ha
  obtain ⟨hq, hp, -⟩ := (vectorCalm_iff s).1 hcalm
  obtain ⟨hrange, hready, -, hpop⟩ := (canSource_iff s (gatherIndex f)).1 ha
  have range : inRange [gatherIndex f] s = .ok ((), s) := inRange_run (by simpa using hrange)
  have await := awaitSources_again hq (sources_one hq ha)
  have closed : (([gatherIndex f].any fun c => c.toNat = 59 + gatherQueue f) && ((s.ctx.dqs.getD (gatherQueue f) []).head?.any fun e => !e.filled)) = false := by
    have small : gatherQueue f < 4 := (bits f.f0 0 2).isLt
    rw [Bool.and_eq_false_imp]
    intro he
    have at' : (gatherIndex f).toNat = 59 + gatherQueue f := by simpa using he
    have filled := hpop ((isPop_iff _).2 (by omega))
    rw [at', Nat.add_sub_cancel_left] at filled
    cases hd : (s.ctx.dqs.getD (gatherQueue f) []).head? with
    | none => rfl
    | some e =>
      rw [hd] at filled
      simpa using filled
  have check : checkReady 0 (gatherIndex f) (s.setCtx s.ctx) = .ok ((), s.setCtx s.ctx) := checkReady_run 0 (by simpa using hready)
  have mask : checkMask 3 (gatherMask f) (s.setCtx s.ctx) = .ok ((), s.setCtx s.ctx) :=
    checkMask_run 3 ((setCtx_canMask s _).trans hk)
  have read := readSrc_run hp 1 ((setCtx_canSource s (gatherIndex f)).symm ▸ ha)
  rw [setCtx_source] at read
  unfold longOperands
  simp only [bind_run, getC_run, hr, Bool.false_eq_true, if_false, range, modC_run, dqs_kept keep, setCtx_ctx, closed, await, check, mask, pure_run,
    read, setCtx_setCtx]
  rfl

theorem longOperands_scatter (can : s.canVector (longWord f) true = true) :
    longOperands [gatherIndex f, scatterData f] (gatherMask f) none s = .ok ((s.opA (longWord f), s.opB (longWord f), 0),
      (s.taken (longWord f) true).setCtx ((s.taken (longWord f) true).ctx.keeping (s.opA (longWord f)) (s.opB (longWord f)))) := by
  obtain ⟨hcalm, -, -, -, hk⟩ := (canVector_iff s (longWord f) true).1 can
  obtain ⟨hq, -⟩ := (vectorCalm_iff s).1 hcalm
  obtain ⟨⟨hrange, hready⟩, hrange', hready'⟩ := ready_of_canVector can
  have read : readTwo 1 (gatherIndex f) (scatterData f) (s.setCtx s.ctx) = .ok ((s.opA (longWord f), s.opB (longWord f)), s.taken (longWord f) true) :=
    readTwo_run can
  have range : inRange [gatherIndex f, scatterData f] s = .ok ((), s) := inRange_run (by
    simp only [List.mem_cons, List.not_mem_nil, or_false, forall_eq_or_imp, forall_eq]
    exact ⟨hrange, hrange'⟩)
  have await : awaitSources (if isMb (gatherIndex f) && gatherIndex f = scatterData f then [gatherIndex f] else [gatherIndex f, scatterData f])
      (s.setCtx s.ctx) = .ok ((), s.setCtx s.ctx) := by
    have := awaitSources_again hq (sources_of_canVector can)
    rw [sourcesOf_eq] at this
    exact this
  have first : checkReady 0 (gatherIndex f) (s.setCtx s.ctx) = .ok ((), s.setCtx s.ctx) := checkReady_run 0 (by rwa [setCtx_ctx, setCtx_now])
  have second : checkReady 1 (scatterData f) (s.setCtx s.ctx) = .ok ((), s.setCtx s.ctx) := checkReady_run 1 (by rwa [setCtx_ctx, setCtx_now])
  have mask : checkMask 3 (gatherMask f) (s.setCtx s.ctx) = .ok ((), s.setCtx s.ctx) :=
    checkMask_run 3 ((setCtx_canMask s _).trans hk)
  unfold longOperands
  simp only [bind_run, getC_run, hr, Bool.false_eq_true, if_false, range, modC_run, dqs_kept keep, setCtx_ctx, await, first, second, mask, pure_run,
    read]
  rfl
end

/-! ## Lanes in order -/

/-- Lanes that each take one state to the next are performed one after another. -/
theorem lanesFrom_run {act : Nat → M Unit} {g : Nat → State} {n start : Nat}
    (h : ∀ i, start ≤ i → i < start + n → act i (g i) = .ok ((), g (i + 1))) : lanesFrom act n start (g start) = .ok ((), g (start + n)) := by
  induction n generalizing start with
  | zero => rfl
  | succ n ih =>
    simp only [lanesFrom, h start (Nat.le_refl _) (by omega)]
    exact (ih fun i hi hn => h i (by omega) (by omega)).trans (by rw [Nat.add_right_comm, Nat.add_assoc])

/-- The word that a lane names in scratch. -/
def laneAt (base : Word) (index : Vec) (i : Nat) : Nat := addrOf base + 4 * el 32 index i

/-- A lane whose word is in scratch, with no earlier store to wait for, passes its checks. -/
theorem element_run {s : State} {base : Word} {index : Vec} {i : Nat} (hv : s.ctx.vsta = []) (hq : (s.tile s.cur).engine.queue = [])
    (hs : spaceOf base = 1) (ha : addrOf base % 4 = 0) (hi : laneAt base index i < 0xA0000) :
    ∃ e, element base index i s = .ok (e, s) ∧ spaceOf e = 1 ∧ addrOf e = laneAt base index i := by
  have small : laneAt base index i < 2 ^ 52 := by omega
  have sum : padd? base (4 * lane32 index i) = some (withAddr base (laneAt base index i)) := by
    have total : (addrOf base : Int) + 4 * lane32 index i = (laneAt base index i : Nat) := by
      rw [laneAt]; push_cast; rfl
    rw [padd?, total]
    exact if_neg (by omega)
  have addr : addrOf (withAddr base (laneAt base index i)) = laneAt base index i := by
    rw [addrOf_eq, withAddr_eq _ small, BitVec.toNat_ofNat]
    omega
  have space : spaceOf (withAddr base (laneAt base index i)) = 1 := by
    rw [← hs, spaceOf, spaceOf, bits_toNat, bits_toNat, withAddr_eq _ small, BitVec.toNat_ofNat]
    omega
  have aligned : addrOf (withAddr base (laneAt base index i)) % 4 = 0 := by
    rw [addr, laneAt]
    omega
  refine ⟨_, ?_, space, addr⟩
  simp only [element, bind_run, padd_run sum, space, aligned, decide_true, need_true, afterStores_run hv hq, pure_run, Nat.le_refl]

/-! ## Gathering -/

theorem changeOpen_append (g : DqEntry → DqEntry) {front : List DqEntry} (h : (front.all fun e => e.filled) = true) {e : DqEntry}
    (he : e.filled = false) : changeOpen g (front ++ [e]) = front ++ [g e] := by
  induction front with
  | nil => simp [changeOpen, he]
  | cons d front ih =>
    rw [List.all_cons, Bool.and_eq_true] at h
    rw [List.cons_append, changeOpen, if_pos h.1, ih h.2, List.cons_append]

/-- A context whose queue q ends in an entry that has the value v. -/
def Ctx.gathered (k : Ctx) (q : Nat) (v : Vec) (filled : Bool) : Ctx :=
  { k with dqs := k.dqs.setIfInBounds q ((k.dqs.getD q []).dropLast ++ [⟨v, filled, [], 0, k.useq⟩]) }

/-- Queue q of the context ends in the one entry that is not filled, which the unit in hand has reserved and which is empty. -/
def Ctx.Reserved (k : Ctx) (q : Nat) : Prop :=
  ∃ front, k.dqs.getD q [] = front ++ [⟨0, false, [], 0, k.useq⟩] ∧ (front.all fun e => e.filled) = true

theorem gathered_reserved {k : Ctx} {q : Nat} (h : k.Reserved q) : k.gathered q 0 false = k := by
  obtain ⟨front, hd, -⟩ := h
  have same : k.dqs.setIfInBounds q (k.dqs.getD q []) = k.dqs := by
    refine Vector.ext fun i hi => ?_
    rw [Vector.getElem_setIfInBounds hi]
    split
    case isTrue e => subst e; simp [Vector.getD, hi]
    case isFalse => rfl
  rw [Ctx.gathered, hd, List.dropLast_concat, ← hd, same]

theorem modOpen_gathered {s : State} {k : Ctx} {q : Nat} (hq : q < 4) (h : k.Reserved q) (v w : Vec) (filled : Bool) (g : DqEntry → DqEntry)
    (hg : g ⟨v, false, [], 0, k.useq⟩ = ⟨w, filled, [], 0, k.useq⟩) :
    modOpen q g (s.setCtx (k.gathered q v false)) = .ok ((), s.setCtx (k.gathered q w filled)) := by
  obtain ⟨front, hd, hf⟩ := h
  have before : k.gathered q v false = { k with dqs := k.dqs.setIfInBounds q (front ++ [⟨v, false, [], 0, k.useq⟩]) } := by
    rw [Ctx.gathered, hd, List.dropLast_concat]
  have after : k.gathered q w filled = { k with dqs := k.dqs.setIfInBounds q (front ++ [⟨w, filled, [], 0, k.useq⟩]) } := by
    rw [Ctx.gathered, hd, List.dropLast_concat]
  have changed : changeOpen g (front ++ [⟨v, false, [], 0, k.useq⟩]) = front ++ [⟨w, filled, [], 0, k.useq⟩] :=
    hg ▸ changeOpen_append g hf rfl
  rw [before, after, modOpen, modC_run, setCtx_ctx, setCtx_setCtx]
  simp only [getD_setIfInBounds _ _ _ _ _ hq, if_true, changed, Vector.setIfInBounds_setIfInBounds]

/-- What a gather does for lane i. -/
def gatherLane (f : LF) (base : Word) (index : Vec) (m : Word) (i : Nat) : M Unit :=
  if m.getLsbD i then do
    let e ← element base index i
    let (v, awaits) ←
      if spaceOf e = 1 then do
        let v ← loadLocal e (addrOf e) 4
        pure (v, ([] : List Await))
      else loadGlobal e (addrOf e) 4
    modOpen (gatherQueue f) fun d => { d with
      val := d.val ||| BitVec.ofNat 2048 (v * 2 ^ (32 * i))
      awaits := d.awaits ++ awaits.map fun a => { a with pos := a.pos + 4 * i } }
  else pure ()

theorem execVgather_eq (f : LF) (s : State) : exec (.vgather f) s = finish (do
    let base ← rs f.ra
    let (index, _, start) ← longOperands [gatherIndex f] (gatherMask f) (some (gatherQueue f))
    let s ← get
    lanesFrom (gatherLane f base index (s.maskVal (gatherMask f))) (64 - start) start
    modOpen (gatherQueue f) fun d => { d with filled := true }
    longDone) s := rfl

/-- The lanes below n that a gather has filled. -/
def gatherVal (word : Nat → Nat) (m : Word) : Nat → Vec
  | 0 => 0
  | n + 1 => if m.getLsbD n then gatherVal word m n ||| BitVec.ofNat 2048 (word n * 2 ^ (32 * n)) else gatherVal word m n

/-- The bits of one word at lane n of a vector. -/
theorem lane_testBit {w : Nat} (hw : w < 2 ^ 32) (n : Nat) {i j : Nat} (hi : i < 64) (hj : j < 32) :
    (BitVec.ofNat 2048 (w * 2 ^ (32 * n))).getLsbD (j + 32 * i) = (decide (i = n) && w.testBit j) := by
  rw [BitVec.getLsbD_ofNat, Nat.mul_comm w, Nat.testBit_two_pow_mul, decide_eq_true (show j + 32 * i < 2048 by omega), Bool.true_and]
  rcases Nat.lt_trichotomy i n with h | rfl | h
  · rw [decide_eq_false (show ¬ j + 32 * i ≥ 32 * n by omega), decide_eq_false (by omega), Bool.false_and, Bool.false_and]
  · rw [decide_eq_true (show j + 32 * i ≥ 32 * i by omega), decide_eq_true rfl, Nat.add_sub_cancel]
  · rw [Nat.testBit_lt_two_pow (Nat.lt_of_lt_of_le hw (Nat.pow_le_pow_right (by decide) (show 32 ≤ j + 32 * i - 32 * n by omega))),
      Bool.and_false, decide_eq_false (by omega), Bool.false_and]

theorem gatherVal_el {word : Nat → Nat} (hw : ∀ i, word i < 2 ^ 32) (m : Word) (n : Nat) {i : Nat} (hi : i < 64) :
    el 32 (gatherVal word m n) i = if i < n ∧ m.getLsbD i = true then word i else 0 := by
  refine Nat.eq_of_testBit_eq fun j => ?_
  rw [el, Nat.testBit_mod_two_pow, Nat.testBit_div_two_pow]
  by_cases hj : j < 32
  · rw [decide_eq_true hj, Bool.true_and]
    induction n with
    | zero => simp [gatherVal]
    | succ n ih =>
      rw [gatherVal]
      by_cases hm : m.getLsbD n = true
      · rw [if_pos hm, BitVec.toNat_or, Nat.testBit_or, ih]
        refine (congrArg _ (lane_testBit (hw n) n hi hj)).trans ?_
        by_cases e : i = n
        · subst e; simp [hm]
        · simp [e, show (i < n + 1) = (i < n) by simp only [eq_iff_iff]; omega]
      · rw [if_neg hm, ih]
        by_cases e : i = n
        · subst e; simp [hm]
        · simp only [show (i < n + 1) = (i < n) by simp only [eq_iff_iff]; omega]
  · have high : (if i < n ∧ m.getLsbD i = true then word i else 0) < 2 ^ j :=
      Nat.lt_of_lt_of_le (by split; exacts [hw i, by decide]) (Nat.pow_le_pow_right (by decide) (Nat.le_of_not_lt hj))
    rw [decide_eq_false hj, Bool.false_and, Nat.testBit_lt_two_pow high]

/-- An active lane's word is pinned, in a tile that has the pinned lines of x. -/
theorem lane_pinned {x y : Tile} {base : Word} {index : Vec} {i : Nat} (hb : addrOf base % 4 = 0)
    (h : laneAt base index i < 0xA0000 ∧ mhas x.pins (laneAt base index i / 128) = true)
    (hx : ∀ l, mhas x.pins l = true → mhas y.pins l = true) : y.pinnedSpan (laneAt base index i) 4 = true :=
  pinnedSpan_of_holds (by decide) (holds_word (by rw [laneAt]; omega) h.1 (hx _ h.2))

section
variable {s : State} {base : Word} {index : Vec} {m : Word} (hq : (s.tile s.cur).engine.queue = []) (hs : spaceOf base = 1) (hb : addrOf base % 4 = 0)
  (pinned : ∀ i < 64, m.getLsbD i = true → laneAt base index i < 0xA0000 ∧ mhas (s.tile s.cur).pins (laneAt base index i / 128) = true)
include hq hs hb pinned

/-- Lane i of a gather adds its word to the entry. -/
theorem gatherLane_run {f : LF} {k : Ctx} (hr : k.Reserved (gatherQueue f)) (hv : k.vsta = []) (ha : (k.pend.any fun l => l.acq) = false)
    {i : Nat} (hi : i < 64) :
    let g := fun n => s.setCtx (k.gathered (gatherQueue f) (gatherVal (fun i => (s.tile s.cur).word32 (laneAt base index i)) m n) false)
    gatherLane f base index m i (g i) = .ok ((), g (i + 1)) := by
  intro g
  unfold gatherLane
  by_cases hm : m.getLsbD i = true
  · have ctx : (g i).ctx = k.gathered (gatherQueue f) (gatherVal (fun i => (s.tile s.cur).word32 (laneAt base index i)) m i) false := setCtx_ctx ..
    have tile : (g i).tile (g i).cur = (s.tile s.cur).setCtx s.cid (g i).ctx := ctx ▸ setCtx_tile_cur ..
    obtain ⟨e, run, space, addr⟩ := element_run (s := g i) (by rw [ctx]; exact hv) (by rw [tile]; exact hq) hs hb (pinned i hi hm).1
    have span : ((g i).tile (g i).cur).pinnedSpan (addrOf e) 4 = true := by
      rw [addr]
      exact lane_pinned hb (pinned i hi hm) (by rw [tile]; exact fun l h => h)
    have load : loadLocal e (addrOf e) 4 (g i) = .ok ((s.tile s.cur).word32 (laneAt base index i), g i) := by
      rw [loadLocal_run e (by rw [ctx]; exact ha) span, localRead_word _ (by rw [addr, laneAt]; omega), addr, tile]
      rfl
    have value : gatherVal (fun i => (s.tile s.cur).word32 (laneAt base index i)) m (i + 1) =
        gatherVal (fun i => (s.tile s.cur).word32 (laneAt base index i)) m i |||
          BitVec.ofNat 2048 ((s.tile s.cur).word32 (laneAt base index i) * 2 ^ (32 * i)) := if_pos hm
    rw [if_pos hm]
    refine (bind_goes run).trans ?_
    simp only [space, if_true, bind_run, load, pure_run, List.map_nil]
    exact modOpen_gathered (bits f.f0 0 2).isLt hr _ _ _ _ (by rw [value]; rfl)
  · rw [if_neg hm]
    have same : g (i + 1) = g i := by simp only [g, gatherVal, if_neg hm]
    rw [same]
    rfl

theorem gatherLanes_run {f : LF} {k : Ctx} (hr : k.Reserved (gatherQueue f)) (hv : k.vsta = []) (ha : (k.pend.any fun l => l.acq) = false) :
    lanesFrom (gatherLane f base index m) 64 0 (s.setCtx k) = .ok ((), s.setCtx (k.gathered (gatherQueue f)
      (gatherVal (fun i => (s.tile s.cur).word32 (laneAt base index i)) m 64) false)) := by
  have lanes := lanesFrom_run (act := gatherLane f base index m) (n := 64) (start := 0)
    (g := fun n => s.setCtx (k.gathered (gatherQueue f) (gatherVal (fun i => (s.tile s.cur).word32 (laneAt base index i)) m n) false))
    fun i _ hi => gatherLane_run hq hs hb pinned hr hv ha (by omega)
  rwa [show gatherVal _ _ 0 = 0 from rfl, gathered_reserved hr] at lanes
end

/-- The queue of a gather, once its index is read, ends in the entry that the unit has reserved. -/
theorem reserved_taken {k : Ctx} {c : BitVec 6} {q : Nat} (hq : q < 4) {front : List DqEntry}
    (hd : k.dqs.getD q [] = front ++ [⟨0, false, [], 0, k.useq⟩]) (hf : (front.all fun e => e.filled) = true)
    (hc : c.toNat = 59 + q → ((k.dqs.getD q []).head?.any fun e => e.filled) = true) : (k.sourceTaken c).Reserved q := by
  have seq : (k.sourceTaken c).useq = k.useq := by rw [sourceTaken_eq]
  rw [Ctx.Reserved, sourceTaken_dqs _ _ hq, seq]
  split
  case isTrue e =>
    have := hc e
    cases front with
    | nil => rw [hd] at this; exact absurd this (by simp)
    | cons d front =>
      rw [List.all_cons, Bool.and_eq_true] at hf
      exact ⟨front, by rw [hd]; rfl, hf.2⟩
  case isFalse => exact ⟨front, hd, hf⟩

/-- A part that reads one register issues in its cycle. -/
theorem issueAt_issueCycle (s : State) (ops : List (BitVec 5)) : s.issueAt (s.issueCycle ops) = { s with now := s.issueCycle ops } := by
  have later (n : Nat) : n ≤ ops.foldl (fun n r => max n (s.ctx.sready.getD r.toNat 0)) n := by
    induction ops generalizing n with
    | nil => exact Nat.le_refl _
    | cons r ops ih => exact Nat.le_trans (Nat.le_max_left ..) (ih _)
  rw [State.issueAt, Nat.max_eq_right (show s.now ≤ s.issueCycle ops from later s.now)]

theorem longWord_can {u : State} {f : LF} (hcalm : u.vectorCalm = true) (hk : u.canMask (gatherMask f) = true) (ha : u.canSource (gatherIndex f) = true)
    {two : Bool} (hb : two = true → readOnce (longWord f) = false → (u.firstTaken (longWord f)).canSource (scatterData f) = true) :
    u.canVector (longWord f) two = true :=
  (canVector_iff u (longWord f) two).2 ⟨hcalm, ha, hb, by simp [longWord, Ctx.rangeBad, isV], hk⟩

/-- A long instruction that is complete. -/
def Ctx.longDone (k : Ctx) : Ctx := { k with kept := none, pixK := false, pixIndex := 0 }

section
variable {f : LF} {s : State} (hr : s.ctx.readable f.ra = true) (hcalm : s.vectorCalm = true) (hres : s.ctx.resumes = false) (hv : s.ctx.vsta = [])
  (hq : (s.tile s.cur).engine.queue = []) (hp : s.ctx.pend = [])
include hr hcalm hres hv hq hp

theorem vgather_fills {u : State} (hu : u = s.issueAt (s.issueCycle [f.ra])) (hk : u.canMask (gatherMask f) = true)
    (ha : u.canSource (gatherIndex f) = true) (hs : spaceOf (s.ctx.sreg f.ra) = 1) (hb : addrOf (s.ctx.sreg f.ra) % 4 = 0)
    (pinned : ∀ i < 64, (u.maskVal (gatherMask f)).getLsbD i = true → laneAt (s.ctx.sreg f.ra) (u.source 1 (gatherIndex f)) i < 0xA0000 ∧
      mhas (s.tile s.cur).pins (laneAt (s.ctx.sreg f.ra) (u.source 1 (gatherIndex f)) i / 128) = true)
    {front : List DqEntry} (hd : s.ctx.dqs.getD (gatherQueue f) [] = front ++ [⟨0, false, [], 0, s.ctx.useq⟩])
    (hf : (front.all fun e => e.filled) = true) (others : ∀ j < 4, j ≠ gatherQueue f → ((s.ctx.dqs.getD j []).all fun e => e.filled) = true) :
    exec (.vgather f) s = .next { u.setCtx ((u.ctx.sourceTaken (gatherIndex f)).gathered (gatherQueue f)
      (gatherVal (fun i => (s.tile s.cur).word32 (laneAt (s.ctx.sreg f.ra) (u.source 1 (gatherIndex f)) i)) (u.maskVal (gatherMask f)) 64) true).longDone
      with fate := .done } := by
  rw [issueAt_issueCycle] at hu
  have small : gatherQueue f < 4 := (bits f.f0 0 2).isLt
  have ctx : u.ctx = s.ctx := by rw [hu]; rfl
  have can : u.canVector (longWord f) false = true := longWord_can (by rw [hu]; exact hcalm) hk ha (fun h => absurd h Bool.false_ne_true)
  have keep : ∀ j < 4, ∀ e ∈ u.ctx.dqs.getD j [], (e.filled || decide (u.ctx.useq ≤ e.seq)) = true := by
    intro j hj e he
    rw [ctx] at he ⊢
    by_cases same : j = gatherQueue f
    · rw [same, hd, List.mem_append, List.mem_singleton] at he
      rcases he with he | rfl
      · rw [List.all_eq_true.1 hf e he, Bool.true_or]
      · simp
    · rw [List.all_eq_true.1 (others j hj same) e he, Bool.true_or]
  have operands := longOperands_gather (f := f) (by rw [ctx]; exact hres) keep can
  have reserved : ((u.ctx.sourceTaken (gatherIndex f)).keeping (u.opA (longWord f)) 0).Reserved (gatherQueue f) := by
    refine reserved_taken (k := u.ctx) small (by rw [ctx]; exact hd) hf fun e => ?_
    obtain ⟨-, -, -, hpop⟩ := (canSource_iff u (gatherIndex f)).1 ha
    have := hpop ((isPop_iff _).2 (by omega))
    rwa [e, Nat.add_sub_cancel_left] at this
  have taken : (u.ctx.sourceTaken (gatherIndex f)).keeping (u.opA (longWord f)) 0 = { u.ctx with
      mbs := (u.ctx.sourceTaken (gatherIndex f)).mbs, dqs := (u.ctx.sourceTaken (gatherIndex f)).dqs,
      kept := some ⟨unitAddr u.ctx.upc, u.opA (longWord f), 0⟩, pixK := false, pixIndex := 0 } := by
    rw [sourceTaken_eq]; rfl
  have mask : (u.setCtx ((u.ctx.sourceTaken (gatherIndex f)).keeping (u.opA (longWord f)) 0)).maskVal (gatherMask f) = u.maskVal (gatherMask f) := by
    rw [taken]
    simp only [State.maskVal, setCtx_ctx, setCtx_now]
    rfl
  have tile : u.tile u.cur = s.tile s.cur := by rw [hu]; rfl
  have lanes := gatherLanes_run (s := u) (by rw [tile]; exact hq) hs hb (tile ▸ pinned) reserved (by rw [taken, ctx]; exact hv)
    (by rw [taken, ctx, hp]; rfl)
  rw [tile] at lanes
  have last := modOpen_gathered (s := u) small reserved (gatherVal (fun i => (s.tile s.cur).word32 (laneAt (s.ctx.sreg f.ra)
    (u.source 1 (gatherIndex f)) i)) (u.maskVal (gatherMask f)) 64) _ true (fun d => { d with filled := true }) rfl
  rw [execVgather_eq]
  refine finish_ok ((bind_goes (rs_cycle hr)).trans ?_)
  rw [← hu]
  refine (bind_goes operands).trans ((bind_goes (get_run _)).trans ?_)
  rw [mask]
  refine (bind_goes lanes).trans ((bind_goes last).trans ((modC_run _ _).trans ?_))
  rw [setCtx_ctx, setCtx_setCtx]
  rfl
end

/-! ## Scattering -/

/-- What a scatter does for lane i. -/
def scatterLane (base : Word) (index data : Vec) (m : Word) (i : Nat) : M Unit :=
  if m.getLsbD i then do
    let e ← element base index i
    if spaceOf e = 1 then storeLocal e (addrOf e) 4 (lane32 data i)
    else storeGlobal e (addrOf e) 4 (lane32 data i)
  else pure ()

theorem execVscatter_eq (f : LF) (s : State) : exec (.vscatter f) s = finish (do
    let base ← rs f.ra
    let (index, data, start) ← longOperands [gatherIndex f, scatterData f] (gatherMask f) none
    let s ← get
    lanesFrom (scatterLane base index data (s.maskVal (gatherMask f))) (64 - start) start
    longDone) s := rfl

/-- s after the lanes below n of a scatter. -/
def State.scattered (s : State) (base : Word) (index data : Vec) (m : Word) : Nat → State
  | 0 => s
  | n + 1 => if m.getLsbD n then
      (s.scattered base index data m n).modTile s.cur fun x => x.localWrite (laneAt base index n) 4 (lane32 data n)
    else s.scattered base index data m n

section
variable (s : State) (base : Word) (index data : Vec) (m : Word)

/-- A scatter changes pinned bytes alone. -/
theorem scattered_rest (n : Nat) : let t := s.scattered base index data m n
    t.cur = s.cur ∧ t.cid = s.cid ∧ t.mem = s.mem ∧ t.now = s.now ∧ t.ctx = s.ctx ∧ (t.tile s.cur).engine = (s.tile s.cur).engine ∧
      ∀ l, mhas (s.tile s.cur).pins l = true → mhas (t.tile s.cur).pins l = true := by
  induction n with
  | zero => exact ⟨rfl, rfl, rfl, rfl, rfl, rfl, fun _ h => h⟩
  | succ n ih =>
    obtain ⟨hcur, hcid, hmem, hnow, hctx, heng, hpins⟩ := ih
    simp only [State.scattered]
    split
    · refine ⟨hcur, hcid, hmem, hnow, (modTile_ctx _ (localWrite_ctxs ..)).trans hctx, ?_, fun l h => ?_⟩
      · rw [modTile_tile_same, localWrite_engine, heng]
      · rw [modTile_tile_same]
        exact localWrite_pinned _ _ _ _ (hpins l h)
    · exact ⟨hcur, hcid, hmem, hnow, hctx, heng, hpins⟩

theorem scattered_word (hb : addrOf base % 4 = 0) (n : Nat) {o : Nat} (ho : o % 4 = 0) :
    ((∀ i < n, m.getLsbD i = true → laneAt base index i ≠ o) →
      ((s.scattered base index data m n).tile s.cur).word32 o = (s.tile s.cur).word32 o) ∧
    ∀ i < n, m.getLsbD i = true → laneAt base index i = o → (∀ j < n, i < j → m.getLsbD j = true → laneAt base index j ≠ o) →
      ((s.scattered base index data m n).tile s.cur).word32 o = el 32 data i := by
  induction n with
  | zero => exact ⟨fun _ => rfl, fun i hi => absurd hi (Nat.not_lt_zero i)⟩
  | succ n ih =>
    obtain ⟨other, named⟩ := ih
    have lane : laneAt base index n % 4 = 0 := by rw [laneAt]; omega
    simp only [State.scattered]
    by_cases hm : m.getLsbD n = true
    · rw [if_pos hm, modTile_tile_same, localWrite_word _ _ lane ho]
      refine ⟨fun h => ?_, fun i hi hi' at' last => ?_⟩
      · rw [if_neg fun e => h n (Nat.lt_succ_self n) hm e.symm]
        exact other fun i hi => h i (by omega)
      · by_cases e : i = n
        · subst e
          rw [if_pos at'.symm]
          exact Nat.mod_mod ..
        · rw [if_neg fun e' => last n (Nat.lt_succ_self n) (by omega) hm e'.symm]
          exact named i (by omega) hi' at' fun j hj => last j (by omega)
    · rw [if_neg hm]
      refine ⟨fun h => other fun i hi => h i (by omega), fun i hi hi' at' last => ?_⟩
      have : i ≠ n := fun e => hm (e ▸ hi')
      exact named i (by omega) hi' at' fun j hj => last j (by omega)
end

section
variable {s : State} {base : Word} {index data : Vec} {m : Word} (hv : s.ctx.vsta = []) (hq : (s.tile s.cur).engine.queue = [])
  (ha : (s.ctx.pend.any fun l => l.acq) = false) (hs : spaceOf base = 1) (hb : addrOf base % 4 = 0)
  (pinned : ∀ i < 64, m.getLsbD i = true → laneAt base index i < 0xA0000 ∧ mhas (s.tile s.cur).pins (laneAt base index i / 128) = true)
include hv hq ha hs hb pinned

/-- Lane i of a scatter stores its word. -/
theorem scatterLane_run {i : Nat} (hi : i < 64) :
    scatterLane base index data m i (s.scattered base index data m i) = .ok ((), s.scattered base index data m (i + 1)) := by
  unfold scatterLane
  by_cases hm : m.getLsbD i = true
  · obtain ⟨hcur, -, -, -, hctx, heng, hpins⟩ := scattered_rest s base index data m i
    obtain ⟨e, run, space, addr⟩ := element_run (s := s.scattered base index data m i) (by rw [hctx]; exact hv) (by rw [hcur, heng]; exact hq) hs hb
      (pinned i hi hm).1
    have span : ((s.scattered base index data m i).tile (s.scattered base index data m i).cur).pinnedSpan (addrOf e) 4 = true := by
      rw [addr, hcur]
      exact lane_pinned hb (pinned i hi hm) hpins
    rw [if_pos hm]
    refine (bind_goes run).trans ?_
    rw [if_pos space, storeLocal_run e (by rw [hctx]; exact ha) span, addr, hcur, State.scattered, if_pos hm]
  · rw [if_neg hm, State.scattered, if_neg hm]
    rfl

theorem scatterLanes_run : lanesFrom (scatterLane base index data m) 64 0 s = .ok ((), s.scattered base index data m 64) :=
  lanesFrom_run (act := scatterLane base index data m) (g := s.scattered base index data m) (n := 64) (start := 0)
    fun _ _ hi => scatterLane_run hv hq ha hs hb pinned (by omega)
end

/-- Reading operands changes the context alone. -/
theorem taken_eq (u : State) (w : AW) (two : Bool) : ∃ k, u.taken w two = u.setCtx k ∧ k = { u.ctx with mbs := k.mbs, dqs := k.dqs } := by
  unfold State.taken
  split
  · refine ⟨_, by rw [State.firstTaken, setCtx_setCtx], ?_⟩
    rw [setCtx_ctx, sourceTaken_eq, sourceTaken_eq u.ctx]
  · exact ⟨_, rfl, sourceTaken_eq ..⟩

section
variable {f : LF} {s : State} (hr : s.ctx.readable f.ra = true) (hres : s.ctx.resumes = false) (hv : s.ctx.vsta = [])
  (hq : (s.tile s.cur).engine.queue = []) (hp : s.ctx.pend = [])
include hr hres hv hq hp

theorem vscatter_stores {u : State} (hu : u = s.issueAt (s.issueCycle [f.ra])) (can : u.canVector (longWord f) true = true)
    (hs : spaceOf (s.ctx.sreg f.ra) = 1) (hb : addrOf (s.ctx.sreg f.ra) % 4 = 0)
    (pinned : ∀ i < 64, (u.maskVal (gatherMask f)).getLsbD i = true → laneAt (s.ctx.sreg f.ra) (u.opA (longWord f)) i < 0xA0000 ∧
      mhas (s.tile s.cur).pins (laneAt (s.ctx.sreg f.ra) (u.opA (longWord f)) i / 128) = true)
    (filled : ∀ j < 4, ((s.ctx.dqs.getD j []).all fun e => e.filled) = true) :
    ∃ v : State, exec (.vscatter f) s = .next { v.setCtx (u.taken (longWord f) true).ctx.longDone with fate := .done } ∧
      v = State.scattered ((u.taken (longWord f) true).setCtx
          ((u.taken (longWord f) true).ctx.keeping (u.opA (longWord f)) (u.opB (longWord f))))
        (s.ctx.sreg f.ra) (u.opA (longWord f)) (u.opB (longWord f)) (u.maskVal (gatherMask f)) 64 := by
  rw [issueAt_issueCycle] at hu
  have ctx : u.ctx = s.ctx := by rw [hu]; rfl
  have tile : u.tile u.cur = s.tile s.cur := by rw [hu]; rfl
  have keep : ∀ j < 4, ∀ e ∈ u.ctx.dqs.getD j [], (e.filled || decide (u.ctx.useq ≤ e.seq)) = true := by
    intro j hj e he
    rw [ctx] at he
    rw [List.all_eq_true.1 (filled j hj) e he, Bool.true_or]
  have operands := longOperands_scatter (f := f) (by rw [ctx]; exact hres) keep can
  obtain ⟨k, taken, hk⟩ := taken_eq u (longWord f) true
  simp only [taken, setCtx_ctx, setCtx_setCtx] at operands ⊢
  have kept : k.keeping (u.opA (longWord f)) (u.opB (longWord f)) = { u.ctx with
      mbs := k.mbs, dqs := k.dqs, kept := some ⟨unitAddr u.ctx.upc, u.opA (longWord f), u.opB (longWord f)⟩, pixK := false, pixIndex := 0 } := by
    rw [hk]; rfl
  have mask : (u.setCtx (k.keeping (u.opA (longWord f)) (u.opB (longWord f)))).maskVal (gatherMask f) = u.maskVal (gatherMask f) := by
    rw [kept]
    simp only [State.maskVal, setCtx_ctx, setCtx_now]
    rfl
  have here : (u.setCtx (k.keeping (u.opA (longWord f)) (u.opB (longWord f)))).tile u.cur =
      (s.tile s.cur).setCtx u.cid (k.keeping (u.opA (longWord f)) (u.opB (longWord f))) := tile ▸ setCtx_tile_cur ..
  have lanes := scatterLanes_run (data := u.opB (longWord f))
    (s := u.setCtx (k.keeping (u.opA (longWord f)) (u.opB (longWord f)))) (by rw [setCtx_ctx, kept, ctx]; exact hv)
    (by rw [setCtx_cur, here]; exact hq) (by rw [setCtx_ctx, kept, ctx, hp]; rfl) hs hb (by rw [setCtx_cur, here]; exact pinned)
  obtain ⟨-, -, -, -, hctx, -⟩ := scattered_rest (u.setCtx (k.keeping (u.opA (longWord f)) (u.opB (longWord f)))) (s.ctx.sreg f.ra)
    (u.opA (longWord f)) (u.opB (longWord f)) (u.maskVal (gatherMask f)) 64
  refine ⟨_, ?_, rfl⟩
  rw [execVscatter_eq]
  refine finish_ok ((bind_goes (rs_cycle hr)).trans ?_)
  rw [← hu]
  refine (bind_goes operands).trans ((bind_goes (get_run _)).trans ?_)
  rw [mask]
  refine (bind_goes lanes).trans ((modC_run _ _).trans ?_)
  rw [hctx, setCtx_ctx]
  rfl
end

/-! ## The obligation -/

theorem gatherFields (f : LF) : f.f0.extractLsb' 2 6 = gatherIndex f ∧ f.f0.toNat % 4 = gatherQueue f ∧ f.f1.toNat / 64 % 4 = gatherMask f ∧
    f.f1.extractLsb' 0 6 = scatterData f := by
  refine ⟨rfl, ?_, ?_, rfl⟩
  · rw [gatherQueue, bits_toNat, Nat.pow_zero, Nat.div_one]
    rfl
  · rw [gatherMask, bits_toNat]
    rfl

/-- What an active lane stores, and what no lane names. -/
theorem scattered_reads {s : State} {base : Word} (index data : Vec) (m : Word) (hb : addrOf base % 4 = 0) :
    let x := (s.scattered base index data m 64).tile s.cur
    (∀ i < 64, m.getLsbD i = true → (∀ j < 64, i < j → m.getLsbD j = true → laneAt base index j ≠ laneAt base index i) →
      x.word32 (laneAt base index i) = el 32 data i) ∧
    ∀ o, o % 4 = 0 → (∀ i < 64, m.getLsbD i = true → laneAt base index i ≠ o) → x.word32 o = (s.tile s.cur).word32 o := by
  refine ⟨fun i hi hm last => ?_, fun o ho other => (scattered_word s base index data m hb 64 ho).1 other⟩
  have lane : laneAt base index i % 4 = 0 := by rw [laneAt]; omega
  exact (scattered_word s base index data m hb 64 lane).2 i hi hm rfl last

theorem vscatter_run {f : LF} {s u : State} (hr : s.ctx.readable f.ra = true) (hres : s.ctx.resumes = false) (hv : s.ctx.vsta = [])
    (hq : (s.tile s.cur).engine.queue = []) (hp : s.ctx.pend = []) (hu : u = s.issueAt (s.issueCycle [f.ra]))
    (can : u.canVector (longWord f) true = true) (hs : spaceOf (s.ctx.sreg f.ra) = 1) (hb : addrOf (s.ctx.sreg f.ra) % 4 = 0)
    (pinned : ∀ i < 64, (u.maskVal (gatherMask f)).getLsbD i = true → laneAt (s.ctx.sreg f.ra) (u.opA (longWord f)) i < 0xA0000 ∧
      mhas (s.tile s.cur).pins (laneAt (s.ctx.sreg f.ra) (u.opA (longWord f)) i / 128) = true)
    (filled : ∀ j < 4, ((s.ctx.dqs.getD j []).all fun e => e.filled) = true) :
    let at' := laneAt (s.ctx.sreg f.ra) (u.opA (longWord f))
    let m := u.maskVal (gatherMask f)
    ∃ t, exec (.vscatter f) s = .next t ∧ t.fate = .done ∧ t.mem = s.mem ∧ t.now = u.now ∧ t.ctx = (u.taken (longWord f) true).ctx.longDone ∧
      (∀ i < 64, m.getLsbD i = true → (∀ j < 64, i < j → m.getLsbD j = true → at' j ≠ at' i) →
        (t.tile s.cur).word32 (at' i) = el 32 (u.opB (longWord f)) i) ∧
      ∀ o, o % 4 = 0 → (∀ i < 64, m.getLsbD i = true → at' i ≠ o) → (t.tile s.cur).word32 o = (s.tile s.cur).word32 o := by
  intro at' m
  obtain ⟨v, run, hv'⟩ := vscatter_stores hr hres hv hq hp hu can hs hb pinned filled
  obtain ⟨k, taken, -⟩ := taken_eq u (longWord f) true
  simp only [taken, setCtx_setCtx, setCtx_ctx] at hv' run ⊢
  have cur : (u.setCtx (k.keeping (u.opA (longWord f)) (u.opB (longWord f)))).cur = s.cur := by rw [setCtx_cur, hu]; rfl
  have pins (x : State) (k : Ctx) (o : Nat) : ((x.setCtx k).tile x.cur).word32 o = (x.tile x.cur).word32 o := by rw [setCtx_tile_cur]; rfl
  obtain ⟨hcur, -, hmem, hnow, -⟩ := scattered_rest (u.setCtx (k.keeping (u.opA (longWord f)) (u.opB (longWord f)))) (s.ctx.sreg f.ra)
    (u.opA (longWord f)) (u.opB (longWord f)) m 64
  obtain ⟨named, other⟩ := scattered_reads (s := u.setCtx (k.keeping (u.opA (longWord f)) (u.opB (longWord f)))) (u.opA (longWord f))
    (u.opB (longWord f)) m hb
  rw [← hv', cur] at hcur
  rw [← hv'] at hmem hnow
  rw [← hv', cur] at named other
  have same (o : Nat) : ((v.setCtx k.longDone).tile s.cur).word32 o = (v.tile s.cur).word32 o := hcur ▸ pins v _ o
  refine ⟨_, run, rfl, hmem.trans (by rw [setCtx_mem, hu]; rfl), hnow, setCtx_ctx .., fun i hi hm last => (same _).trans (named i hi hm last),
    fun o ho h => (same o).trans ((other o ho h).trans ?_)⟩
  have := pins u (k.keeping (u.opA (longWord f)) (u.opB (longWord f))) o
  rw [hu] at this ⊢
  exact this

/-- Settles O34: lanes of a long instruction are performed in order, each a word of scratch read into the reserved entry or written. -/
theorem gatherAndScatter : Obligations.GatherAndScatter := by
  unfold Obligations.GatherAndScatter
  intro f s hr hcalm hres hv hq hp
  obtain ⟨hic, hqueue, hsel, hdc⟩ := gatherFields f
  rw [hic, hqueue, hsel, hdc]
  intro base ic q sel u m word idx at' e hk ha hs hb pinned
  refine ⟨fun front hd hf others => ?_, ?_⟩
  · refine ⟨_, gatherVal (fun i => word s (at' i)) m 64, vgather_fills hr hcalm hres hv hq hp rfl hk ha hs hb pinned hd hf others, ?_, fun i hi => ?_⟩
    · let k := ((u.ctx.sourceTaken ic).gathered q (gatherVal (fun i => word s (at' i)) m 64) true).longDone
      have read : e.ctx = u.ctx.sourceTaken ic := setCtx_ctx ..
      have seq : s.ctx.useq = (u.ctx.sourceTaken ic).useq := by rw [sourceTaken_eq]; rfl
      have same : e.setCtx k = u.setCtx k := setCtx_setCtx ..
      rw [read, seq]
      change (e.setCtx k).issued _ _
      rw [same]
      exact issued_done (u.setCtx k) u.now
    · rw [gatherVal_el (word := fun i => word s (at' i)) (fun i => Nat.mod_lt _ (by decide)) m 64 hi]
      simp only [hi, true_and]
  · intro dc once data filled second
    have can : u.canVector (longWord f) true = true := longWord_can (u := u) hcalm hk ha fun _ hr => second hr
    obtain ⟨t, run, hfate, hmem, hnow, hctx, named, other⟩ := vscatter_run hr hres hv hq hp rfl can hs hb pinned filled
    have value : u.opB (longWord f) = data := rfl
    refine ⟨t, run, hfate, hmem, hnow, hctx.trans ?_, fun i hi hm last => (named i hi hm last).trans (by rw [value]), other⟩
    have read : (u.taken (longWord f) true).ctx = if once then e.ctx else e.ctx.sourceTaken dc := by
      cases ho : once with
      | true => exact congrArg State.ctx (if_neg (by rw [show readOnce (longWord f) = true from ho]; decide))
      | false => exact (congrArg State.ctx (if_pos (by rw [show readOnce (longWord f) = false from ho]; decide))).trans (setCtx_ctx ..)
    rw [read]
    rfl

end Sys2Proof.Machine
end

section
set_option Elab.async false
/-! VLD, VSTA, VSTD and the store of a pair (R138, R139, R268, R269). -/
namespace Sys2Proof.Machine

/-! ## Spans of local space -/

/-- The line of every byte of a span begins a piece of it, or the span begins there. -/
theorem piece_of_byte {o n i : Nat} (h : i < n) : ∃ q ∈ pieces o n, q.1 / 128 = (o + i) / 128 ∧ q.1 ≤ o + i := by
  rw [pieces_eq]
  have count : (o + i) / 128 - o / 128 < pieceCount o n := by
    unfold pieceCount
    split <;> omega
  refine ⟨_, List.mem_map.2 ⟨_, List.mem_range.2 count, rfl⟩, ?_, ?_⟩ <;>
  · dsimp only
    unfold pieceEnd
    omega

theorem holds_of_pinnedSpan {x : Tile} {o n : Nat} (h : x.pinnedSpan o n = true) : x.holds o n := by
  intro i hi
  obtain ⟨q, hq, line, -⟩ := piece_of_byte (o := o) hi
  have pinned := List.all_eq_true.1 h q hq
  rw [Tile.pinnedAt, Bool.and_eq_true, decide_eq_true_eq, line] at pinned
  exact ⟨by omega, pinned.2⟩

/-- A span with a byte that is not pinned. -/
theorem pinnedSpan_of_unpinned {x : Tile} {o n : Nat} (h : ∃ i < n, 0xA0000 ≤ o + i ∨ mhas x.pins ((o + i) / 128) = false) :
    x.pinnedSpan o n = false := by
  obtain ⟨i, hi, bad⟩ := h
  refine Bool.eq_false_iff.2 fun pinned => ?_
  obtain ⟨inside, pin⟩ := holds_of_pinnedSpan pinned i hi
  rcases bad with beyond | unpinned
  · omega
  · rw [pin] at unpinned
    exact Bool.noConfusion unpinned

/-! ## Copies -/

theorem repeatNat_testBit {w v : Nat} (hv : v < 2 ^ w) (c : Nat) {j : Nat} (hj : j < w * c) :
    (repeatNat w c v).testBit j = v.testBit (j % w) := by
  induction c generalizing j with
  | zero => exact absurd hj (Nat.not_lt_zero j)
  | succ c ih =>
    rw [repeatNat, Nat.add_comm, Nat.testBit_two_pow_mul_add _ hv]
    split
    case isTrue low => rw [Nat.mod_eq_of_lt low]
    case isFalse high =>
      rw [Nat.mul_succ] at hj
      rw [ih (by omega), ← Nat.mod_eq_sub_mod (Nat.le_of_not_lt high)]

/-- Byte i of c copies of n bytes. -/
theorem repeatNat_byte {n : Nat} (hn : 0 < n) {v : Nat} (hv : v < 2 ^ (8 * n)) {c i : Nat} (hi : i < n * c) :
    repeatNat (8 * n) c v / 2 ^ (8 * i) % 2 ^ 8 = v / 2 ^ (8 * (i % n)) % 2 ^ 8 := by
  refine Nat.eq_of_testBit_eq fun j => ?_
  simp only [Nat.testBit_mod_two_pow, Nat.testBit_div_two_pow]
  by_cases hj : j < 8
  · have inside : j + 8 * i < 8 * n * c := by
      rw [Nat.mul_assoc]
      omega
    have place : (j + 8 * i) % (8 * n) = j + 8 * (i % n) := by
      have below := Nat.mod_lt i hn
      have whole := Nat.div_add_mod i n
      rw [show j + 8 * i = j + 8 * (i % n) + 8 * n * (i / n) by rw [Nat.mul_assoc]; omega, Nat.add_mul_mod_self_left, Nat.mod_eq_of_lt (by omega)]
    rw [repeatNat_testBit hv c inside, place]
  · simp [hj]

/-- Bytes packed are the sum of their places. -/
theorem packNat_sum (g : Nat → Nat) (hg : ∀ i, g i < 256) (n : Nat) :
    packNat 8 ((List.range n).map g) = ((List.range n).map fun i => g i * 256 ^ i).sum := by
  induction n with
  | zero => rfl
  | succ n ih =>
    rw [List.range_succ, List.map_append, List.map_append, packNat_append, ih, List.sum_append, List.length_map, List.length_range,
      List.map_singleton, List.map_singleton, List.sum_singleton, packNat, packNat, Nat.mul_zero, Nat.add_zero,
      Nat.mod_eq_of_lt (show g n < 2 ^ 8 from hg n), Nat.mul_comm (g n), Nat.pow_mul]

/-! ## VLD -/

theorem decFmt_cases (p : Word) : decFmt p = none ∨ ∃ g, decFmt p = some g ∧ decOf (fmtOf p) = some g ∧ (64 * g.width / 8 = 64 ∨ 64 * g.width / 8 = 128) := by
  unfold decFmt
  dsimp only
  split
  case h_1 h =>
    split
    · exact .inr ⟨f16, rfl, by rw [h]; rfl, by decide⟩
    · exact .inl rfl
  case h_2 h =>
    split
    · exact .inr ⟨bf16, rfl, by rw [h]; rfl, by decide⟩
    · exact .inl rfl
  case h_3 h =>
    split
    · exact .inr ⟨e4m3, rfl, by rw [h]; rfl, by decide⟩
    · exact .inl rfl
  case h_4 h =>
    split
    · exact .inr ⟨e5m2, rfl, by rw [h]; rfl, by decide⟩
    · exact .inl rfl
  case h_5 => exact .inl rfl

/-- A decoded load reads one line or half of one, once. -/
theorem vldBytes_decoded {p : Word} {g : Fmt} (h : decFmt p = some g) :
    decOf (fmtOf p) = some g ∧ (vldBytes 6 p = 64 ∨ vldBytes 6 p = 128) ∧ vldCopies 6 = 1 := by
  obtain none' | ⟨g', some', of, width⟩ := decFmt_cases p
  · rw [none'] at h
    exact nomatch h
  · obtain rfl : g' = g := Option.some.inj (some'.symm.trans h)
    refine ⟨of, ?_, rfl⟩
    rw [vldBytes, if_pos rfl, some']
    exact width

/-- Sizes of a load that is not decoded: 4 or 8 bytes copied, or a part of an entry as it is. -/
theorem vldBytes_plain {sz : BitVec 3} (h : sz ≠ 6) (p : Word) :
    ((sz = 3 ∨ sz = 4) ∧ 0 < vldBytes sz p ∧ vldBytes sz p * vldCopies sz = 256) ∨
      (¬ (sz = 3 ∨ sz = 4) ∧ vldCopies sz = 1 ∧ 64 ≤ vldBytes sz p ∧ vldBytes sz p ≤ 256) := by
  rw [vldBytes, if_neg h]
  revert sz
  decide

/-- The sizes of loads. -/
theorem vldBytes_sizes (sz : BitVec 3) (p : Word) : vldBytes sz p ∈ [4, 8, 64, 128, 256] := by
  by_cases h : sz = 6
  · subst h
    obtain none' | ⟨g, some', -, width⟩ := decFmt_cases p
    · simp [vldBytes, none']
    · rw [vldBytes, if_pos rfl, some']
      rcases width with w | w <;> simp [w]
  · have widths : ∀ sz : BitVec 3, vldWidth sz ∈ [4, 8, 64, 128, 256] := by decide
    rw [vldBytes, if_neg h]
    exact widths sz

theorem vldBytes_pos (sz : BitVec 3) (p : Word) : 0 < vldBytes sz p := by
  have sizes := vldBytes_sizes sz p
  generalize vldBytes sz p = n at sizes ⊢
  fin_cases sizes <;> decide

/-- An aligned span of a power of two of at most a line lies within one. -/
theorem span_within {o n : Nat} (hn : n ∣ 128) (ha : o % n = 0) : o % 128 + n ≤ 128 := by
  obtain ⟨k, hk⟩ := hn
  obtain ⟨m, rfl⟩ := Nat.dvd_of_mod_eq_zero ha
  have below : n * m % 128 < 128 := Nat.mod_lt _ (by decide)
  rw [hk, Nat.mul_mod_mul_left] at below ⊢
  have := Nat.lt_of_mul_lt_mul_left below
  calc n * (m % k) + n = n * (m % k + 1) := (Nat.mul_succ ..).symm
    _ ≤ n * k := Nat.mul_le_mul_left n this

/-- A load of at most a line lies within one. -/
theorem vldBytes_within {sz : BitVec 3} {p : Word} (hn : vldBytes sz p ≤ 128) (ha : addrOf p % vldBytes sz p = 0) :
    0 < vldBytes sz p ∧ addrOf p % 128 + vldBytes sz p ≤ 128 := by
  refine ⟨vldBytes_pos sz p, span_within ?_ ha⟩
  have sizes := vldBytes_sizes sz p
  generalize vldBytes sz p = n at hn sizes ⊢
  fin_cases sizes <;> revert hn <;> decide

/-- The entry that the n bytes v make. -/
def vldEntry (sz : BitVec 3) (p : Word) (v : Nat) (seq : Nat) : DqEntry :=
  DqEntry.convert {
    val := BitVec.ofNat 2048 (repeatNat (8 * vldBytes sz p) (vldCopies sz) v), filled := true, awaits := []
    dec := if sz = 6 then fmtOf p else 0, seq := seq }

theorem vldEntry_decoded {p : Word} {g : Fmt} (h : decFmt p = some g) {v : Nat} (hv : v < 2 ^ (8 * vldBytes 6 p)) (seq : Nat) :
    vldEntry 6 p v seq = ⟨decodeLanes g v, true, [], 0, seq⟩ := by
  obtain ⟨of, bytes, copies⟩ := vldBytes_decoded h
  have short : v < 2 ^ 2048 := Nat.lt_of_lt_of_le hv (Nat.pow_le_pow_right (by decide) (by omega))
  have value : (BitVec.ofNat 2048 (repeatNat (8 * vldBytes 6 p) (vldCopies 6) v)).toNat = v := by
    rw [copies, repeatNat, repeatNat, Nat.mul_zero, Nat.add_zero, BitVec.toNat_ofNat, Nat.mod_eq_of_lt short]
  simp only [vldEntry, DqEntry.convert, if_true, of, value, List.isEmpty_nil]

theorem vldEntry_plain {sz : BitVec 3} (h : sz ≠ 6) (p : Word) (v seq : Nat) :
    vldEntry sz p v seq = ⟨BitVec.ofNat 2048 (repeatNat (8 * vldBytes sz p) (vldCopies sz) v), true, [], 0, seq⟩ := by
  simp only [vldEntry, if_neg h]
  rfl

/-- The bytes of an entry that is not decoded. -/
theorem vldEntry_byte {sz : BitVec 3} (h : sz ≠ 6) (p : Word) {v : Nat} (hv : v < 2 ^ (8 * vldBytes sz p)) (seq : Nat) {i : Nat} (hi : i < 256) :
    el 8 (vldEntry sz p v seq).val i =
      if (sz = 3 ∨ sz = 4) ∨ i < vldBytes sz p then v / 2 ^ (8 * (i % vldBytes sz p)) % 2 ^ 8 else 0 := by
  have whole : el 8 (vldEntry sz p v seq).val i = repeatNat (8 * vldBytes sz p) (vldCopies sz) v / 2 ^ (8 * i) % 2 ^ 8 := by
    rw [vldEntry_plain h, el, BitVec.toNat_ofNat]
    exact digit_mod (by omega) _
  rw [whole]
  obtain ⟨splat, pos, total⟩ | ⟨plain, copies, pos, -⟩ := vldBytes_plain h p
  · rw [if_pos (.inl splat), repeatNat_byte pos hv (by omega)]
  · by_cases inside : i < vldBytes sz p
    · rw [if_pos (.inr inside), repeatNat_byte (by omega) hv (by rw [copies]; omega)]
    · rw [if_neg (by tauto), copies, repeatNat, repeatNat, Nat.mul_zero, Nat.add_zero,
        Nat.div_eq_of_lt (Nat.lt_of_lt_of_le hv (Nat.pow_le_pow_right (by decide) (by omega)))]
      rfl

/-- What a VLD loads. -/
def vldLoad (p : Word) (n : Nat) : M (Nat × List Await) :=
  if spaceOf p = 1 then do
    let v ← loadLocal p (addrOf p) n
    pure (v, ([] : List Await))
  else loadGlobal p (addrOf p) n

/-- A VLD once its bytes are read, or awaited. -/
def vldPush (f : CM) (p : Word) (k : Ctx) (r : Nat × List Await) : M Unit :=
  pushDq (bits f.d 0 2).toNat (DqEntry.convert {
    val := BitVec.ofNat 2048 (repeatNat (8 * vldBytes f.sz p) (vldCopies f.sz) r.1), filled := true
    awaits := r.2.flatMap fun a => a.copies (vldCopies f.sz) (vldBytes f.sz p), dec := if f.sz = 6 then fmtOf p else 0, seq := k.useq })

theorem exec_vld (f : CM) (s : State) : exec (.vld f) s = finish (do
    let a ← rs f.a
    let k ← getC
    if 4 ≤ (k.dqs.getD (bits f.d 0 2).toNat []).length then wait
    let p ← padd a (f.off.toInt * vldWidth f.sz) a
    need (decide (spaceOf p ≤ 1)) cSPACE p
    need (f.sz ≠ 6 || (decFmt p).isSome) cBADGEOM p
    need (decide (addrOf p % vldBytes f.sz p = 0)) cALIGN p
    afterStores p (vldBytes f.sz p)
    let r ← if spaceOf p = 1 then do
        let v ← loadLocal p (addrOf p) (vldBytes f.sz p)
        pure (v, ([] : List Await))
      else loadGlobal p (addrOf p) (vldBytes f.sz p)
    vldPush f p k r) s := rfl

/-- s after a VLD pushes an entry. -/
def State.pushes (s : State) (q : Nat) (e : DqEntry) : State :=
  s.setCtx { s.ctx with dqs := s.ctx.dqs.setIfInBounds q (s.ctx.dqs.getD q [] ++ [e]) }

section
variable {f : CM} {s : State} {p : Word} (hr : s.ctx.readable f.a = true) (hp : padd? (s.ctx.sreg f.a) (f.off.toInt * vldWidth f.sz) = some p)
  (hd : (s.ctx.dqs.getD (bits f.d 0 2).toNat []).length < 4) (hc : s.clear = true) (hf : f.sz = 6 → (decFmt p).isSome = true)
  (ha : addrOf p % vldBytes f.sz p = 0) (hs : spaceOf p ≤ 1)
include hr hp hd hc hf ha hs

/-- A VLD that passes its checks is its load. -/
theorem vld_checked {r : Except Stop (Unit × State)}
    (h : (vldLoad p (vldBytes f.sz p) >>= vldPush f p s.ctx) { s with now := s.issueCycle [f.a] } = r) :
    (do
      let a ← rs f.a
      let k ← getC
      if 4 ≤ (k.dqs.getD (bits f.d 0 2).toNat []).length then wait
      let p ← padd a (f.off.toInt * vldWidth f.sz) a
      need (decide (spaceOf p ≤ 1)) cSPACE p
      need (f.sz ≠ 6 || (decFmt p).isSome) cBADGEOM p
      need (decide (addrOf p % vldBytes f.sz p = 0)) cALIGN p
      afterStores p (vldBytes f.sz p)
      let r ← if spaceOf p = 1 then do
        let v ← loadLocal p (addrOf p) (vldBytes f.sz p)
        pure (v, ([] : List Await))
      else loadGlobal p (addrOf p) (vldBytes f.sz p)
      vldPush f p k r) s = r := by
  obtain ⟨hv, hq, -⟩ := (clear_iff s).1 hc
  have format : (decide (f.sz ≠ 6) || (decFmt p).isSome) = true := by
    by_cases h : f.sz = 6
    · rw [hf h, Bool.or_true]
    · rw [decide_eq_true h, Bool.true_or]
  have stores : afterStores p (vldBytes f.sz p) { s with now := s.issueCycle [f.a] } = .ok ((), { s with now := s.issueCycle [f.a] }) :=
    afterStores_run (s := { s with now := s.issueCycle [f.a] }) hv hq p _
  refine (bind_goes (rs_cycle hr)).trans ((bind_goes (getC_run _)).trans ?_)
  refine (congrFun (if_neg (Nat.not_le.2 hd)) _).trans ((bind_goes (padd_run hp ..)).trans ?_)
  simp only [bind_run, hs, decide_true, need_true, format, ha, stores]
  rw [vldLoad] at h
  by_cases local' : spaceOf p = 1
  · rw [if_pos local'] at h ⊢
    simp only [bind_run] at h ⊢
    cases hl : loadLocal p (addrOf p) (vldBytes f.sz p) { s with now := s.issueCycle [f.a] } <;>
    · rw [hl] at h
      exact h
  · rw [if_neg local'] at h ⊢
    exact h

/-- A VLD from scratch or from a line of the array. -/
theorem vld_loads {v : Nat} {t : State} (hl : vldLoad p (vldBytes f.sz p) { s with now := s.issueCycle [f.a] } = .ok ((v, []), t)) :
    exec (.vld f) s = .next { t.pushes (bits f.d 0 2).toNat (vldEntry f.sz p v s.ctx.useq) with fate := .done } := by
  have push : vldPush f p s.ctx (v, []) t = .ok ((), t.pushes (bits f.d 0 2).toNat (vldEntry f.sz p v s.ctx.useq)) := rfl
  exact (exec_vld f s).trans (finish_ok (vld_checked hr hp hd hc hf ha hs ((bind_goes hl).trans push)))

theorem vld_page (h1 : spaceOf p = 1) (unpinned : (s.tile s.cur).pinnedSpan (addrOf p) (vldBytes f.sz p) = false) : s.traps (.vld f) cPAGE p := by
  obtain ⟨-, -, hans⟩ := (clear_iff s).1 hc
  refine (exec_vld f s).trans (finish_trap (vld_checked hr hp hd hc hf ha hs (bind_stops ?_)))
  rw [vldLoad, if_pos h1]
  exact bind_stops (loadLocal_page (s := { s with now := s.issueCycle [f.a] }) p ((answered_iff s).1 hans).2 unpinned)
/-- A VLD of pinned bytes. -/
theorem vld_local (h1 : spaceOf p = 1) (pinned : (s.tile s.cur).pinnedSpan (addrOf p) (vldBytes f.sz p) = true) :
    exec (.vld f) s = .next { ({ s with now := s.issueCycle [f.a] } : State).pushes (bits f.d 0 2).toNat
      (vldEntry f.sz p ((s.tile s.cur).localRead (addrOf p) (vldBytes f.sz p)) s.ctx.useq) with fate := .done } := by
  obtain ⟨-, -, hans⟩ := (clear_iff s).1 hc
  have load := loadLocal_run (s := { s with now := s.issueCycle [f.a] }) p ((answered_iff s).1 hans).2 pinned
  refine vld_loads hr hp hd hc hf ha hs ?_
  rw [vldLoad, if_pos h1]
  exact (bind_goes load).trans (pure_run _ _)

/-- A VLD within one line of the array. -/
theorem vld_line (h0 : spaceOf p = 0) (hn : vldBytes f.sz p ≤ 128) (he : s.ctx.effects = []) {l : Line}
    (hl : (s.tile s.cur).line (addrOf p / 128) s.ctx.asid = some l) (hv : spanWords (addrOf p % 128) (vldBytes f.sz p) &&& ~~~l.valid = 0)
    (hw : l.perm.getLsbD 0 = true) :
    exec (.vld f) s = .next { (({ s with now := s.issueCycle [f.a] } : State).used l).pushes (bits f.d 0 2).toNat
      (vldEntry f.sz p (l.data.toNat / 2 ^ (8 * (addrOf p % 128)) % 2 ^ (8 * vldBytes f.sz p)) s.ctx.useq) with fate := .done } := by
  obtain ⟨-, -, hans⟩ := (clear_iff s).1 hc
  have within := vldBytes_within hn ha
  refine vld_loads hr hp hd hc hf ha hs ?_
  rw [vldLoad, if_neg (by omega)]
  exact loadGlobal_line (s := { s with now := s.issueCycle [f.a] }) p within.1 within.2 ((answered_iff s).1 hans).2
    (loadLine_hit (s := { s with now := s.issueCycle [f.a] }) p hans he hl hv hw)
end

end Sys2Proof.Machine
end

section
set_option Elab.async false
/-! VSTA, VSTD and the store of a pair (R139, R269), and the obligation on vector loads and stores. -/
namespace Sys2Proof.Machine

/-! ## Masked writes of local bytes -/

/-- A byte of a line after the bytes of a span that m enables have changed. -/
theorem lineByte_masked (d : LineData) (v m pos : Nat) {off len r : Nat} (hr : r < 128) :
    (blend (byteBits (BitVec.ofNat 128 (m / 2 ^ pos % 2 ^ len * 2 ^ off))) d (placeBytes v pos off len)).toNat / 2 ^ (8 * r) % 256 =
      if (off ≤ r ∧ r < off + len) ∧ m.testBit (pos + (r - off)) = true then v / 2 ^ (8 * (pos + (r - off))) % 256
      else d.toNat / 2 ^ (8 * r) % 256 := by
  have enabled : (BitVec.ofNat 128 (m / 2 ^ pos % 2 ^ len * 2 ^ off)).getLsbD r =
      (decide (off ≤ r ∧ r < off + len) && m.testBit (pos + (r - off))) := by
    rw [BitVec.getLsbD_ofNat, Nat.mul_comm, Nat.testBit_two_pow_mul, Nat.testBit_mod_two_pow, Nat.testBit_div_two_pow, decide_eq_true hr,
      Bool.true_and, Nat.add_comm pos]
    by_cases low : off ≤ r
    · simp [low, show r - off < len ↔ r < off + len by omega]
    · simp [low]
  refine Nat.eq_of_testBit_eq fun j => ?_
  rw [lineByte_testBit]
  by_cases hj : j < 8
  · rw [blend_getLsbD, byteBits_getLsbD _ (by omega), show (8 * r + j) / 8 = r by omega, enabled]
    by_cases hin : (off ≤ r ∧ r < off + len) ∧ m.testBit (pos + (r - off)) = true
    · have place : (placeBytes v pos off len).getLsbD (8 * r + j) = v.testBit (8 * (pos + (r - off)) + j) := by
        rw [placeBytes, BitVec.getLsbD_ofNat, Nat.mul_comm _ (2 ^ (8 * off)), Nat.testBit_two_pow_mul, Nat.testBit_mod_two_pow, Nat.testBit_div_two_pow]
        simp only [show 8 * r + j < 1024 by omega, show 8 * off ≤ 8 * r + j by omega, show 8 * r + j - 8 * off < 8 * len by omega,
          decide_true, Bool.true_and]
        congr 1
        omega
      rw [if_pos hin, hin.2, decide_eq_true hin.1, show 256 = 2 ^ 8 by rfl, Nat.testBit_mod_two_pow, Nat.testBit_div_two_pow, Nat.add_comm j, place]
      simp [hj]
    · have off' : (decide (off ≤ r ∧ r < off + len) && m.testBit (pos + (r - off))) = false := by simpa using hin
      rw [off', if_neg hin, if_neg Bool.false_ne_true, lineByte_testBit, decide_eq_true hj, Bool.true_and]
  · rw [decide_eq_false hj, Bool.false_and]
    refine (Nat.testBit_lt_two_pow (Nat.lt_of_lt_of_le ?_ (Nat.pow_le_pow_right (by decide) (Nat.le_of_not_lt hj)))).symm
    split <;> exact Nat.mod_lt _ (by decide)

theorem localLine_masked (x : Tile) (l v m pos off len o : Nat) :
    (x.localLine l (BitVec.ofNat 128 (m / 2 ^ pos % 2 ^ len * 2 ^ off)) (placeBytes v pos off len)).byte o =
      if (o / 128 = l ∧ off ≤ o % 128 ∧ o % 128 < off + len) ∧ m.testBit (pos + (o % 128 - off)) = true
      then v / 2 ^ (8 * (pos + (o % 128 - off))) % 256 else x.byte o := by
  unfold Tile.byte Tile.localLine Tile.pin
  rw [mget_mset]
  by_cases hl : o / 128 = l
  · subst hl
    rw [if_pos rfl]
    simp only [true_and]
    exact lineByte_masked _ _ _ _ (Nat.mod_lt _ (by decide))
  · simp [hl]

/-- The bytes of the n at o that m enables become those of v. -/
def Tile.maskedWrite (x : Tile) (o n m v : Nat) : Tile :=
  (pieces o n).foldl (fun x q => x.localLine (q.1 / 128) (BitVec.ofNat 128 (m / 2 ^ q.2.2.2 % 2 ^ q.2.2.1 * 2 ^ q.2.1))
    (placeBytes v q.2.2.2 q.2.1 q.2.2.1)) x

theorem maskedWrite_byte (x : Tile) (o n m v a : Nat) :
    (x.maskedWrite o n m v).byte a = if (o ≤ a ∧ a < o + n) ∧ m.testBit (a - o) = true then v / 2 ^ (8 * (a - o)) % 256 else x.byte a := by
  have upTo (c : Nat) (hc : c ≤ pieceCount o n) : ((List.range c).foldl (fun x k =>
      x.localLine ((o + pieceEnd o n k) / 128)
        (BitVec.ofNat 128 (m / 2 ^ pieceEnd o n k % 2 ^ (pieceEnd o n (k + 1) - pieceEnd o n k) * 2 ^ ((o + pieceEnd o n k) % 128)))
        (placeBytes v (pieceEnd o n k) ((o + pieceEnd o n k) % 128) (pieceEnd o n (k + 1) - pieceEnd o n k))) x).byte a =
        if (o ≤ a ∧ a < o + pieceEnd o n c) ∧ m.testBit (a - o) = true then v / 2 ^ (8 * (a - o)) % 256 else x.byte a := by
    induction c with
    | zero => rw [pieceEnd_zero, if_neg (by omega)]; rfl
    | succ c ih =>
      obtain ⟨mono, inLine⟩ := pieceEnd_succ o n hc
      rw [List.range_succ, List.foldl_append, List.foldl_cons, List.foldl_nil, localLine_masked, ih (by omega)]
      generalize pieceEnd o n c = p at mono inLine
      generalize pieceEnd o n (c + 1) = q at mono inLine
      by_cases hin : o + p ≤ a ∧ a < o + q
      · rw [show p + (a % 128 - (o + p) % 128) = a - o by omega]
        by_cases hm : m.testBit (a - o) = true
        · rw [if_pos ⟨by omega, hm⟩, if_pos ⟨by omega, hm⟩]
        · rw [if_neg (fun h => hm h.2), if_neg (fun h => hm h.2), if_neg (fun h => hm h.2)]
      · rw [if_neg (fun h => by omega)]
        by_cases hb : o ≤ a ∧ a < o + p
        · simp only [hb, show o ≤ a ∧ a < o + q by omega]
        · rw [if_neg (fun h => hb h.1), if_neg (fun h => by omega)]
  rw [Tile.maskedWrite, pieces_eq, List.foldl_map, upTo _ (Nat.le_refl _), pieceEnd_count]

/-- A word of scratch after the enabled words of a span have changed: byte i of the span is enabled when the word that holds it is. -/
theorem maskedWrite_word (x : Tile) {o n m : Nat} (v : Nat) {lane : Nat → Bool} (ho : o % 4 = 0) (hn : n % 4 = 0)
    (hm : ∀ i < n, m.testBit i = lane (i / 4)) {a : Nat} (ha : a % 4 = 0) :
    (x.maskedWrite o n m v).word32 a =
      if o ≤ a ∧ a < o + n ∧ lane ((a - o) / 4) = true then v / 2 ^ (8 * (a - o)) % 2 ^ 32 else x.word32 a := by
  rw [word32_eq _ ha, word32_eq _ ha, Tile.bytesAt, Tile.bytesAt]
  by_cases hin : o ≤ a ∧ a < o + n ∧ lane ((a - o) / 4) = true
  · obtain ⟨low, high, on⟩ := hin
    rw [if_pos ⟨low, high, on⟩, ← packNat_digits 8 4, 
      ← packNat_map_mod 8 ((List.range 4).map fun i => v / 2 ^ (8 * (a - o)) / 2 ^ (8 * i)), List.map_map]
    refine congrArg (packNat 8) (List.map_congr_left fun i hi => ?_)
    have hi := List.mem_range.1 hi
    have bit : m.testBit (a + i - o) = true := by rw [hm _ (by omega), show (a + i - o) / 4 = (a - o) / 4 by omega, on]
    rw [maskedWrite_byte, if_pos ⟨by omega, bit⟩, Function.comp_apply, Nat.div_div_eq_div_mul, ← Nat.pow_add,
      show 8 * (a - o) + 8 * i = 8 * (a + i - o) by omega]
    rfl
  · rw [if_neg hin]
    refine congrArg (packNat 8) (List.map_congr_left fun i hi => ?_)
    have hi := List.mem_range.1 hi
    rw [maskedWrite_byte, if_neg]
    rintro ⟨⟨low, high⟩, bit⟩
    rw [hm _ (by omega), show (a + i - o) / 4 = (a - o) / 4 by omega] at bit
    exact hin ⟨by omega, by omega, bit⟩

/-! ## The store of a pair -/

/-- Lines of a pair's store at scratch, one after another. -/
theorem forM_modT {γ : Type} (g : γ → Tile → Tile) (l : List γ) (s : State) :
    (l.forM fun q => modT (g q)) s = .ok ((), l.foldl (fun s q => s.modTile s.cur (g q)) s) := by
  induction l generalizing s with
  | nil => rfl
  | cons q l ih => exact (bind_goes (modT_run ..)).trans (ih _)

/-- What a pair does to the bytes of one line. -/
def pairLine (m v : Nat) (q : Nat × Nat × Nat × Nat) (x : Tile) : Tile :=
  if !x.pinnedAt q.1 then x
  else x.localLine (q.1 / 128) (BitVec.ofNat 128 (m / 2 ^ q.2.2.2 % 2 ^ q.2.2.1 * 2 ^ q.2.1)) (placeBytes v q.2.2.2 q.2.1 q.2.2.1)

theorem pairLine_ctxs (m v : Nat) (q : Nat × Nat × Nat × Nat) (x : Tile) : (pairLine m v q x).ctxs = x.ctxs := by
  unfold pairLine
  split <;> rfl

theorem pairLines_rest (m v : Nat) (l : List (Nat × Nat × Nat × Nat)) (s : State) :
    let t := l.foldl (fun s q => s.modTile s.cur (pairLine m v q)) s
    t.cur = s.cur ∧ t.cid = s.cid ∧ t.mem = s.mem ∧ t.now = s.now ∧ t.ctx = s.ctx ∧
      t.tile s.cur = l.foldl (fun x q => pairLine m v q x) (s.tile s.cur) := by
  induction l generalizing s with
  | nil => exact ⟨rfl, rfl, rfl, rfl, rfl, rfl⟩
  | cons q l ih =>
    obtain ⟨hcur, hcid, hmem, hnow, hctx, htile⟩ := ih (s.modTile s.cur (pairLine m v q))
    refine ⟨hcur, hcid, hmem, hnow, hctx.trans (modTile_ctx _ (pairLine_ctxs ..)), htile.trans ?_⟩
    rw [modTile_cur, modTile_tile_same]
    rfl

/-- Where every byte is pinned, the lines' stores are one masked write. -/
theorem pairLines_pinned {x : Tile} {o n : Nat} (m v : Nat) (h : x.pinnedSpan o n = true) :
    (pieces o n).foldl (fun x q => pairLine m v q x) x = x.maskedWrite o n m v := by
  have lines : ∀ (l : List (Nat × Nat × Nat × Nat)) (x : Tile), (l.all fun q => x.pinnedAt q.1) = true →
      l.foldl (fun x q => pairLine m v q x) x = l.foldl (fun x q => x.localLine (q.1 / 128)
        (BitVec.ofNat 128 (m / 2 ^ q.2.2.2 % 2 ^ q.2.2.1 * 2 ^ q.2.1)) (placeBytes v q.2.2.2 q.2.1 q.2.2.1)) x := by
    intro l
    induction l with
    | nil => exact fun _ _ => rfl
    | cons q l ih =>
      intro x hx
      rw [List.all_cons, Bool.and_eq_true] at hx
      have first : pairLine m v q x = x.localLine (q.1 / 128) (BitVec.ofNat 128 (m / 2 ^ q.2.2.2 % 2 ^ q.2.2.1 * 2 ^ q.2.1))
          (placeBytes v q.2.2.2 q.2.1 q.2.2.1) := by rw [pairLine, hx.1]; rfl
      rw [List.foldl_cons, List.foldl_cons, first]
      refine ih _ (List.all_eq_true.2 fun r hr => ?_)
      have pinned := List.all_eq_true.1 hx.2 r hr
      rw [Tile.pinnedAt, Bool.and_eq_true] at pinned ⊢
      exact ⟨pinned.1, by simp only [Tile.localLine, mhas_mset, pinned.2, Bool.true_or]⟩
  exact lines _ _ h

/-- The enabled bytes of a pair are those of its active lanes. -/
theorem vstdBytes_testBit (d : VstdEntry) {width i : Nat} (hi : i < width) :
    (d.bytes width).testBit i = d.lanes.getLsbD (i / 4) := by
  rw [VstdEntry.bytes, Nat.testBit_mod_two_pow, decide_eq_true hi, Bool.true_and, spread_testBit (by decide)]

section
variable {s : State} {a : VstaEntry} {d : VstdEntry} {as : List VstaEntry} {ds : List VstdEntry} (ha : s.ctx.vsta = a :: as) (hd : s.ctx.vstd = d :: ds)
  (hb : s.ctx.backlog = []) (hp : (s.ctx.pend.any fun l => l.acq) = false) (hf : (s.tile s.cur).flashUntil ≤ s.now) (hs : spaceOf a.ptr = 1)
include ha hd hb hp hf hs

theorem performPair_scratch : performPair s = .ok ((),
    ((pieces (addrOf a.ptr) a.width).foldl (fun s q => s.modTile s.cur (pairLine (d.bytes a.width) d.data.toNat q)) s).setCtx
      { s.ctx with vsta := as, vstd := ds }) := by
  have ready : s.ctx.pairReady = true := by rw [Ctx.pairReady, ha, hd, hb]; rfl
  obtain ⟨-, -, -, -, hctx, -⟩ := pairLines_rest (d.bytes a.width) d.data.toNat (pieces (addrOf a.ptr) a.width) s
  have store : performStore a d s = .ok ((),
      (pieces (addrOf a.ptr) a.width).foldl (fun s q => s.modTile s.cur (pairLine (d.bytes a.width) d.data.toNat q)) s) := by
    unfold performStore
    simp only [hs]
    exact (bind_goes (acquired_run hp)).trans (forM_modT (pairLine (d.bytes a.width) d.data.toNat) _ s)
  simp only [performPair, bind_run, get_run, ready, if_true, ha, hd, if_neg (Nat.not_lt.2 hf), store, modC_run, hctx]
end

theorem exec_vstorePair (t c : Nat) (s : State) : exec (.vstorePair t c) s = finish (within t c performPair) s := rfl

/-- A meaning run as another context's. -/
theorem within_run {t c : Nat} {m : M Unit} {s u : State} (h : m { s with cur := t, cid := c } = .ok ((), u)) :
    within t c m s = .ok ((), { u with cur := s.cur, cid := s.cid }) := by
  simp only [within, bind_run, get_run, set_run, h, upd_run, pure_run]

theorem vstorePair_stores {s : State} {t c : Nat} {a : VstaEntry} {d : VstdEntry} {as : List VstaEntry} {ds : List VstdEntry}
    (ha : (s.ctxAt t c).vsta = a :: as) (hd : (s.ctxAt t c).vstd = d :: ds) (hb : (s.ctxAt t c).backlog = [])
    (hp : ((s.ctxAt t c).pend.all fun l => !l.acq) = true) (hf : (s.tile t).flashUntil ≤ s.now) (hs : spaceOf a.ptr = 1)
    (h4 : a.width % 4 = 0) (ho : addrOf a.ptr % a.width = 0) (pos : 0 < a.width) (pinned : (s.tile t).holds (addrOf a.ptr) a.width) :
    ∃ u, exec (.vstorePair t c) s = .next u ∧ u.fate = .done ∧ u.mem = s.mem ∧ u.now = s.now ∧ u.cur = s.cur ∧
      u.ctxAt t c = { s.ctxAt t c with vsta := as, vstd := ds } ∧
      ∀ i, i % 4 = 0 → (u.tile t).word32 i =
        if addrOf a.ptr ≤ i ∧ i < addrOf a.ptr + a.width ∧ d.lanes.getLsbD ((i - addrOf a.ptr) / 4) = true
        then el 32 d.data ((i - addrOf a.ptr) / 4) else (s.tile t).word32 i := by
  have noAcquire : ((s.ctxAt t c).pend.any fun l => l.acq) = false := by simpa using hp
  have run := performPair_scratch (s := { s with cur := t, cid := c }) ha hd hb noAcquire hf hs
  obtain ⟨hcur, hcid, hmem, hnow, -, htile⟩ := pairLines_rest (d.bytes a.width) d.data.toNat (pieces (addrOf a.ptr) a.width)
    ({ s with cur := t, cid := c } : State)
  replace htile := htile.trans (pairLines_pinned (x := s.tile t) _ _ (pinnedSpan_of_holds pos pinned))
  generalize (pieces (addrOf a.ptr) a.width).foldl (fun s q => s.modTile s.cur (pairLine (d.bytes a.width) d.data.toNat q))
    ({ s with cur := t, cid := c } : State) = u at run hcur hcid hmem hnow htile
  refine ⟨_, (exec_vstorePair t c s).trans (finish_ok (within_run run)), rfl, hmem, hnow, rfl, ?_, fun i hi => ?_⟩
  · have own := setCtx_ctx u ({ s.ctxAt t c with vsta := as, vstd := ds } : Ctx)
    rw [State.ctx, setCtx_cur, setCtx_cid, hcur, hcid] at own
    exact own
  · have kept : ((u.setCtx { s.ctxAt t c with vsta := as, vstd := ds }).tile t).word32 i = (u.tile t).word32 i := by
      have := setCtx_tile_cur u ({ s.ctxAt t c with vsta := as, vstd := ds } : Ctx)
      rw [hcur] at this
      rw [this]
      rfl
    have lanes : ∀ j < a.width, (d.bytes a.width).testBit j = d.lanes.getLsbD (j / 4) := fun j hj => vstdBytes_testBit d hj
    have aligned : addrOf a.ptr % 4 = 0 := Nat.mod_eq_zero_of_dvd ((Nat.dvd_of_mod_eq_zero h4).trans (Nat.dvd_of_mod_eq_zero ho))
    refine kept.trans ((congrArg (fun x : Tile => x.word32 i) htile :).trans ((maskedWrite_word _ _ aligned h4 lanes hi).trans ?_))
    refine if_ctx_congr Iff.rfl (fun hin => ?_) fun _ => rfl
    rw [el, show 32 * ((i - addrOf a.ptr) / 4) = 8 * (i - addrOf a.ptr) by omega]

/-! ## VSTA and VSTD -/

/-- The probe of a line that concerns no one else passes. -/
theorem probeStore_calm {p : Word} {u : State} {a : Nat} {leaf : Word} {n : Nat} (pos : 0 < n) (hn : addrOf p % 128 + n ≤ 128) (hm : u.mapped (addrOf p) .store a leaf)
    (hc : u.HomeCalm (a / 128)) : ∃ e, probeStore p n u = .ok ([(a, leaf)], u.usedTlb e) := by
  obtain ⟨e, located, reached⟩ := locateM_mapped hm p
  have calm := hc.usedTlb e
  have reach := reachLine_calm p true (spanWords (addrOf p % 128) n) calm ((usedTlb_lineReached ..).trans reached)
  have lines : reachLines p true [(a / 128, spanWords (addrOf p % 128) n)] (u.usedTlb e) = .ok ((), u.usedTlb e) := by
    rw [reachLine, bind_run] at reach
    cases h : reachLines p true [(a / 128, spanWords (addrOf p % 128) n)] (u.usedTlb e) with
    | ok r =>
      rw [h] at reach
      have := congrArg (fun x => x.toOption.map Prod.snd) reach
      exact congrArg _ (Prod.ext rfl (Option.some.inj this))
    | error x => rw [h] at reach; exact nomatch reach
  refine ⟨e, ?_⟩
  unfold probeStore
  rw [pieces_within pos hn]
  simp only [List.mapM_cons, List.mapM_nil, bind_run, pure_run, located, List.zip_cons_cons, List.zip_nil_right, List.map_cons, List.map_nil, lines]

theorem exec_vsta (f : CM) (s : State) : exec (.vsta f) s = execVsta f s := rfl

section
variable {f : CM} {s : State} {p : Word} (hr : s.ctx.readable f.a = true)
  (hp : padd? (s.ctx.sreg f.a) (f.off.toInt * vstaWidth f.sz) = some p) (hv : s.ctx.vsta.length < 8) (ha : addrOf p % vstaWidth f.sz = 0)
include hr hp hv ha

theorem vsta_local (hs : spaceOf p = 1) (pinned : (s.tile s.cur).pinnedSpan (addrOf p) (vstaWidth f.sz) = true) :
    ∃ t, exec (.vsta f) s = .next t ∧
      (s.setCtx { s.ctx with vsta := s.ctx.vsta ++ [⟨p, vstaWidth f.sz, [], 0, s.ctx.useq⟩] }).issued t (s.issueCycle [f.a]) := by
  refine ⟨_, (exec_vsta f s).trans (finish_ok
    (t := { s.setCtx { s.ctx with vsta := s.ctx.vsta ++ [⟨p, vstaWidth f.sz, [], 0, s.ctx.useq⟩] } with now := s.issueCycle [f.a] }) ?_),
    issued_done (s.setCtx _) _⟩
  refine (bind_goes (rs_cycle hr)).trans ((bind_goes (getC_run _)).trans ((congrFun (if_neg (Nat.not_le.2 hv)) _).trans ?_))
  refine (bind_goes (padd_run hp ..)).trans ((bind_goes (get_run _)).trans ?_)
  have here : (({ s with now := s.issueCycle [f.a] } : State).tile s.cur).pinnedSpan (addrOf p) (vstaWidth f.sz) = true := pinned
  simp only [bind_run, hs, ha, decide_true, Bool.or_true, Bool.true_or, need_true, show ¬ (1 = 0) from Nat.one_ne_zero, if_false, if_true, pure_run,
    getT_run, here, get_run, show ¬ (1 = 4) by decide, modC_run]
  rfl

theorem vsta_global {a : Nat} {leaf : Word} (hs : spaceOf p = 0) (pos : 0 < vstaWidth f.sz) (hn : addrOf p % 128 + vstaWidth f.sz ≤ 128)
    (hm : s.mapped (addrOf p) .store a leaf) (hc : s.calmLine a) :
    ∃ t, exec (.vsta f) s = .next t ∧ t.fate = .done ∧ t.mem = s.mem ∧ t.ctx.sregs = s.ctx.sregs ∧
      t.ctx.vsta = s.ctx.vsta ++ [⟨p, vstaWidth f.sz, [(a, leaf)], 0, s.ctx.useq⟩] := by
  obtain ⟨e, probe⟩ := probeStore_calm (p := p) (u := { s with now := s.issueCycle [f.a] }) pos hn hm
    (issueAt_issueCycle s [f.a] ▸ (homeCalm_of_calmLine hc).issueAt _)
  let u : State := ({ s with now := s.issueCycle [f.a] } : State).usedTlb e
  let k : Ctx := { s.ctx with vsta := s.ctx.vsta ++ [⟨p, vstaWidth f.sz, [(a, leaf)], 0, s.ctx.useq⟩] }
  have own : (u.setCtx k).ctx = k := setCtx_ctx ..
  refine ⟨_, (exec_vsta f s).trans (finish_ok (t := u.setCtx k) ?_), rfl, rfl, (congrArg Ctx.sregs own :), (congrArg Ctx.vsta own :)⟩
  refine (bind_goes (rs_cycle hr)).trans ((bind_goes (getC_run _)).trans ((congrFun (if_neg (Nat.not_le.2 hv)) _).trans ?_))
  refine (bind_goes (padd_run hp ..)).trans ((bind_goes (get_run _)).trans ?_)
  simp only [bind_run, hs, ha, decide_true, Bool.true_or, need_true, if_false, if_true, pure_run, probe, show ¬ (0 = 1) by decide, get_run,
    show ¬ (0 = 4) by decide, modC_run]
  rfl
end

theorem storeLanes_getLsbD (t : BitVec 3) (m : Word) {i : Nat} (hi : i < 64) :
    (storeLanes t m).getLsbD i = m.getLsbD (if elemWidth t = 64 then i / 2 else i) := by
  unfold storeLanes
  split
  · rw [BitVec.getLsbD_ofNat, decide_eq_true hi, Bool.true_and, spread_testBit (by decide), BitVec.getLsbD_extractLsb', Nat.zero_add,
      decide_eq_true (show i / 2 < 32 by omega), Bool.true_and]
  · rfl

theorem exec_vstd (f : AW) (s : State) : exec (.vstd f) s = execVstd f s := rfl

theorem vstd_pushes {f : AW} {s : State} (can : s.canVector f false = true) (hv : s.ctx.vstd.length < 8) :
    ∃ t, exec (.vstd f) s = .next t ∧ ((s.taken f false).setCtx { (s.taken f false).ctx with
      vstd := s.ctx.vstd ++ [⟨storeLanes f.t (s.opK f), s.opA f, s.ctx.useq⟩] }).issued t s.now := by
  obtain ⟨k, taken, hk⟩ := taken_eq s f false
  have operands := operands_run can (acc := none) (fun c h => nomatch h)
  refine ⟨_, (exec_vstd f s).trans (finish_ok (t := (s.taken f false).setCtx { (s.taken f false).ctx with
      vstd := s.ctx.vstd ++ [⟨storeLanes f.t (s.opK f), s.opA f, s.ctx.useq⟩] }) ?_), ?_⟩
  · refine (bind_goes (getC_run _)).trans ((congrFun (if_neg (Nat.not_le.2 hv)) _).trans ((bind_goes operands).trans ((modC_run _ _).trans ?_)))
    simp only [taken, setCtx_ctx]
    rw [hk]
  · have now : ((s.taken f false).setCtx { (s.taken f false).ctx with
        vstd := s.ctx.vstd ++ [⟨storeLanes f.t (s.opK f), s.opA f, s.ctx.useq⟩] }).now = s.now := by rw [taken]; rfl
    have := issued_done ((s.taken f false).setCtx { (s.taken f false).ctx with
        vstd := s.ctx.vstd ++ [⟨storeLanes f.t (s.opK f), s.opA f, s.ctx.useq⟩] }) s.now
    rw [← now] at this ⊢
    exact this

/-! ## The obligation -/

theorem queueOf_eq (d : BitVec 5) : d.toNat % 4 = (bits d 0 2).toNat := by
  rw [bits_toNat, Nat.pow_zero, Nat.div_one]
  rfl

theorem vstaWidth_dvd (sz : BitVec 3) (h : vstaWidth sz ≤ 128) : vstaWidth sz ∣ 128 := by
  revert sz
  decide

/-- A VLD's entry is filled, converted, and of its unit. -/
theorem vldEntry_made {sz : BitVec 3} {p : Word} (hf : sz = 6 → (decFmt p).isSome = true) {v : Nat} (hv : v < 2 ^ (8 * vldBytes sz p)) (seq : Nat) :
    vldEntry sz p v seq = ⟨(vldEntry sz p v seq).val, true, [], 0, seq⟩ := by
  by_cases h : sz = 6
  · subst h
    obtain ⟨g, hg⟩ := Option.isSome_iff_exists.1 (hf rfl)
    rw [vldEntry_decoded hg hv]
  · rw [vldEntry_plain h]

/-- What a VLD pushes is all that it changes but for the array's order of use. -/
theorem pushes_issued {s e : State} {n q : Nat} {d d' : DqEntry} (h : e.ctx = s.ctx) (hd : d = d') :
    (e.setCtx { s.ctx with dqs := s.ctx.dqs.setIfInBounds q (s.ctx.dqs.getD q [] ++ [d']) }).issued
      { ({ e with now := n } : State).pushes q d with fate := .done } n := by
  rw [← h, ← hd]
  exact issued_done (e.setCtx _) n

theorem localRead_lt (x : Tile) (o n : Nat) : x.localRead o n < 2 ^ (8 * n) := by
  rw [localRead_eq, Tile.bytesAt]
  exact (packNat_lt _ _).trans_eq (by rw [List.length_map, List.length_range])

/-- A part of a line, byte by byte. -/
theorem linePart_byte (d : LineData) {o n j : Nat} (hj : j < n) :
    d.toNat / 2 ^ (8 * o) % 2 ^ (8 * n) / 2 ^ (8 * j) % 2 ^ 8 = d.toNat / 2 ^ (8 * (o + j)) % 256 := by
  rw [digit_mod (by omega), Nat.div_div_eq_div_mul, ← Nat.pow_add, ← Nat.mul_add]
  rfl

/-- The bytes of a VLD's entry, from byte i of what it reads. -/
theorem vldEntry_bytes {sz : BitVec 3} (h : sz ≠ 6) {p : Word} {v : Nat} (hv : v < 2 ^ (8 * vldBytes sz p)) {byte : Nat → Nat}
    (hb : ∀ i < vldBytes sz p, v / 2 ^ (8 * i) % 2 ^ 8 = byte i) (seq : Nat) {i : Nat} (hi : i < 256) :
    el 8 (vldEntry sz p v seq).val i = if (sz = 3 ∨ sz = 4) ∨ i < vldBytes sz p then byte (i % vldBytes sz p) else 0 := by
  rw [vldEntry_byte h p hv seq hi, hb _ (Nat.mod_lt _ (vldBytes_pos sz p))]

/-- Settles O33: a load of each kind makes one entry from its bytes; a store pushes its half, and a complete pair writes its active lanes. -/
theorem vectorLoadsAndStores : Obligations.VectorLoadsAndStores := by
  unfold Obligations.VectorLoadsAndStores
  refine ⟨?_, ?_, ?_, ?_⟩
  · intro f s p hr
    simp only [queueOf_eq]
    intro hp hd hc hf ha
    have pos := vldBytes_pos f.sz p
    refine ⟨fun h1 pinned => ?_, fun h1 unpinned => ?_, fun l h0 hn he hl hv hw => ?_⟩
    · have load := vld_local hr hp hd hc hf ha (Nat.le_of_eq h1) h1 (pinnedSpan_of_holds pos pinned)
      have short := localRead_lt (s.tile s.cur) (addrOf p) (vldBytes f.sz p)
      have bytes : ∀ i < vldBytes f.sz p, (s.tile s.cur).localRead (addrOf p) (vldBytes f.sz p) / 2 ^ (8 * i) % 2 ^ 8 = (s.tile s.cur).byte (addrOf p + i) :=
        fun i hi => localRead_byte _ _ hi
      refine ⟨_, _, load, pushes_issued (e := s) rfl (vldEntry_made hf short _), fun h6 i hi => ?_, fun g h6 hg => ?_⟩
      · rw [vldEntry_bytes h6 short bytes s.ctx.useq hi]
        by_cases splat : f.sz = 3 ∨ f.sz = 4
        · rw [if_pos (.inl splat), if_pos splat]
          rfl
        · by_cases inside : i < vldBytes f.sz p
          · rw [if_pos (.inr inside), if_neg splat, if_pos inside, Nat.mod_eq_of_lt inside]
            rfl
          · rw [if_neg (by tauto), if_neg splat, if_neg inside]
      · revert short
        rw [h6]
        intro short
        rw [vldEntry_decoded hg short, localRead_eq, Tile.bytesAt, packNat_sum _ fun i => byte_lt ..]
        rfl
    · exact vld_page hr hp hd hc hf ha (Nat.le_of_eq h1) h1 (pinnedSpan_of_unpinned unpinned)
    · have load := vld_line hr hp hd hc hf ha (h0 ▸ Nat.zero_le 1) h0 hn he hl hv hw
      have short := Nat.mod_lt (l.data.toNat / 2 ^ (8 * (addrOf p % 128))) (Nat.two_pow_pos (8 * vldBytes f.sz p))
      refine ⟨_, _, load, pushes_issued (e := s.used l) (used_samePart s l).ctx (vldEntry_made hf short _), fun h6 i hi => ?_, fun g h6 hg => ?_⟩
      · exact vldEntry_bytes h6 short (fun j hj => linePart_byte l.data hj) s.ctx.useq hi
      · revert short
        rw [h6]
        intro short
        rw [vldEntry_decoded hg short]
  · intro f s p hr n o hp hv ha hz pushed
    have pos : 0 < vstaWidth f.sz := by
      have widths : ∀ sz : BitVec 3, 0 < vstaWidth sz := by decide
      exact widths f.sz
    refine ⟨fun h1 pinned => vsta_local hr hp hv ha h1 (pinnedSpan_of_holds pos pinned), fun a leaf h0 hn hm hc => ?_⟩
    have within : o % 128 + n ≤ 128 := span_within (vstaWidth_dvd f.sz hn) ha
    exact vsta_global hr hp hv ha h0 pos within hm hc
  · intro f s can hv
    obtain ⟨t, run, issued⟩ := vstd_pushes can hv
    exact ⟨t, _, run, issued, fun i hi => storeLanes_getLsbD f.t _ hi⟩
  · intro s t c a d as ds k o word ha hd hb hp hf hs h4 hw ho pos pinned
    obtain ⟨u, run, hfate, hmem, hnow, hcur, hctx, words⟩ := vstorePair_stores ha hd hb hp hf hs h4 ho pos pinned
    exact ⟨u, run, hfate, hmem, hnow, hcur, hctx, fun i hi _ => words i hi⟩

end Sys2Proof.Machine
end

section
set_option Elab.async false
/-! A read by an engine leaves the part's tile and cycle as they are (R35 to R39, R93). -/
namespace Sys2Proof.Machine

/-- Where and when the part in hand issues. -/
def State.place (s : State) : Nat × Nat := (s.cur, s.now)

theorem modTile_place (s : State) (t : Nat) (f : Tile → Tile) : (s.modTile t f).place = s.place := rfl
theorem modDir_place (s : State) (k : Nat) (f : Dir → Dir) : (s.modDir k f).place = s.place := rfl
theorem modCluster_place (s : State) (p n : Nat) (f : Cluster → Cluster) : (s.modCluster p n f).place = s.place := rfl
theorem modRegion_place (s : State) (p n : Nat) (f : Region → Region) : (s.modRegion p n f).place = s.place := rfl
theorem modFabric_place (s : State) (p : Nat) (f : Fabric → Fabric) : (s.modFabric p f).place = s.place := rfl
theorem modMgmt_place (s : State) (p : Nat) (f : Mgmt → Mgmt) : (s.modMgmt p f).place = s.place := rfl

theorem foldl_place {f : State → α → State} (hf : ∀ s a, (f s a).place = s.place) (l : List α) (s : State) : (l.foldl f s).place = s.place := by
  induction l generalizing s with
  | nil => rfl
  | cons a l ih => exact (ih _).trans (hf s a)
theorem foldl_snd_place {f : β × State → α → β × State} (hf : ∀ r a, (f r a).2.place = r.2.place) (l : List α) (r : β × State) :
    (l.foldl f r).2.place = r.2.place := by
  induction l generalizing r with
  | nil => rfl
  | cons a l ih => exact (ih _).trans (hf r a)

theorem modAllow_place (s : State) (p n : Nat) (f : Allow → Allow) : (s.modAllow p n f).place = s.place := by
  unfold State.modAllow
  grind [modFabric_place]
theorem chargePort_place (s : State) (p port flits : Nat) : (s.chargePort p port flits).place = s.place := by
  unfold State.chargePort
  grind [modFabric_place]
theorem charge_place (s : State) (p n flits : Nat) : (s.charge p n flits).place = s.place := by
  unfold State.charge
  grind [chargePort_place, foldl_place, foldl_snd_place]
theorem logEvent_place (s : State) (p cls source data : Nat) : (s.logEvent p cls source data).place = s.place := by
  unfold State.logEvent
  grind [modMgmt_place]
theorem transmit_place (s : State) (p key : Nat) (o : SpanOwner) (n v : Nat) : (s.transmit p key o n v).2.place = s.place := by
  unfold State.transmit
  grind [modFabric_place, logEvent_place]
theorem deliverSpan_place (s : State) (p key n v fuel : Nat) : (s.deliverSpan p key n v fuel).2.place = s.place := by
  induction fuel generalizing s with
  | zero => rfl
  | succ fuel ih => grind [State.deliverSpan, transmit_place]
theorem netSend_place (s : State) (p q flits : Nat) : (s.netSend p q flits).place = s.place := by
  unfold State.netSend
  grind [modAllow_place]
theorem netConsume_place (s : State) (p q flits : Nat) : (s.netConsume p q flits).place = s.place := by
  unfold State.netConsume
  grind [modAllow_place]
theorem netAllow_place (s : State) (p q flits : Nat) : (s.netAllow p q flits).place = s.place := by
  unfold State.netAllow
  grind [netSend_place, netConsume_place]
theorem netPay_place (s : State) (p q : Nat) (via : Option Nat) (flits : Nat) : (s.netPay p q via flits).place = s.place := by
  unfold State.netPay
  grind [charge_place, netAllow_place]
theorem crossLine_place (s : State) (p q gl : Nat) : (s.crossLine p q gl).place = s.place := by
  unfold State.crossLine
  grind [deliverSpan_place, netAllow_place]
theorem recallTile_place (s : State) (t gl : Nat) (mask : WordMask) (inv : Bool) : (s.recallTile t gl mask inv).place = s.place := by
  unfold State.recallTile
  grind [modTile_place, State.place]
theorem recallOwners_place (s : State) (key gl : Nat) (mask : WordMask) (inv : Bool) (skip : Option Nat) : (s.recallOwners
    key gl mask inv skip).place = s.place := by
  unfold State.recallOwners
  grind [recallTile_place, modDir_place, foldl_place]
theorem clearRemote_place (s : State) (gl v : Nat) (write : Bool) : (s.clearRemote gl v write).place = s.place := by
  unfold State.clearRemote
  grind [crossLine_place, modDir_place, recallOwners_place, foldl_place]
theorem touchSlice_place (s : State) (v gl : Nat) : (s.touchSlice v gl).place = s.place := by
  unfold State.touchSlice
  grind [modCluster_place, recallOwners_place, clearRemote_place, modDir_place, crossLine_place]
theorem servePeek_place (s : State) (gl : Nat) (mask : WordMask) : (s.servePeek gl mask).place = s.place := by
  unfold State.servePeek
  grind [clearRemote_place, recallOwners_place, touchSlice_place]
theorem askHeld_place (s : State) (k : Asker) (gl : Nat) (mask : WordMask) (p : Word) (seq : Nat) (stage : Stage) :
    (s.askHeld k gl mask p seq stage).1.place = s.place := by
  grind [State.askHeld, State.place]
theorem dropHeld_place (s : State) (id : Nat) : (s.dropHeld id).place = s.place := rfl
theorem dropAsks_place (s : State) (k : Asker) (p : Word) (lines : Nat → Bool) : (s.dropAsks k p lines).place = s.place := rfl
theorem sendNow_place (s : State) (p q : Nat) (via : Option Nat) (n v : Nat) : (s.sendNow p q via n v).2.place = s.place := by
  unfold State.sendNow
  grind [deliverSpan_place, netPay_place]
theorem sendAsk_place (s : State) (p q : Nat) (via : Option Nat) (n v : Nat) : (s.sendAsk p q via n v).2.place = s.place := by
  unfold State.sendAsk
  grind [sendNow_place]
theorem askLine_place (s : State) (p gl : Nat) : (s.askLine p gl).2.place = s.place := by
  unfold State.askLine
  grind [sendAsk_place]
theorem peekLine_place (s : State) (k : Asker) (gl : Nat) (mask : WordMask) (p : Word) : (s.peekLine k gl mask p).2.place = s.place := by
  unfold State.peekLine
  cases s.gate k false mask gl <;> grind [askHeld_place, dropHeld_place, askLine_place, servePeek_place, dropAsks_place]
theorem readEntry_place (s : State) (k : Asker) (pa : Nat) (p : Word) : (s.readEntry k pa p).2.place = s.place := by
  unfold State.readEntry
  grind [peekLine_place]
theorem walkFrom_place (s : State) (k : Asker) (va : Nat) (p : Word) (levels : List Nat) (e : Word) : (s.walkFrom k va p levels
    e).2.place = s.place := by
  induction levels generalizing s e with
  | nil => grind [State.walkFrom]
  | cons l levels ih => grind [State.walkFrom, readEntry_place]
theorem walkAll_place (s : State) (k : Asker) (va : Nat) (p : Word) : (s.walkAll k va p).2.place = s.place := by
  unfold State.walkAll
  grind [readEntry_place, walkFrom_place]
theorem endWalk_place (s : State) (p reg : Nat) (w : Walk) (res : TRes) : (s.endWalk p reg w res).place = s.place := by
  unfold State.endWalk
  grind [modRegion_place, modCluster_place, foldl_place]
theorem translate_place (s : State) (k : Asker) (va : Nat) (p : Word) : (s.translate k va p).2.place = s.place := by
  unfold State.translate
  grind [modCluster_place, modRegion_place, walkAll_place, endWalk_place, dropAsks_place]
theorem locate_place (s : State) (k : Asker) (va : Nat) (acc : Acc) (p : Word) : (s.locate k va acc p).2.place = s.place := by
  unfold State.locate
  grind [translate_place]
theorem resolve_place (s : State) (k : Asker) (va : Nat) (acc : Acc) (p : Word) : (s.resolve k va acc p).2.place = s.place := by
  unfold State.resolve
  grind [locate_place]
theorem readPiece_place (k : Asker) (p : Word) (r : EngRes Nat × State) (q : Nat × Nat × Nat × Nat) : (readPiece k p r q).2.place = r.2.place := by
  rcases r with ⟨_ | _ | _, s⟩ <;> grind [readPiece, resolve_place, peekLine_place]
theorem engineRead_place (s : State) (k : Asker) (p : Word) (va n : Nat) : (s.engineRead k p va n).2.place = s.place :=
  foldl_snd_place (fun r q => readPiece_place k p r q) _ _
theorem vetchRead_place (s : State) (g : Prog) (p : Word) (off n : Nat) : (s.vetchRead g p off n).2.place = s.place := by
  unfold State.vetchRead
  grind [engineRead_place]
theorem bufEntry_place (s : State) (g : Prog) (i : Nat) : (s.bufEntry g i).2.place = s.place := by
  unfold State.bufEntry
  grind [vetchRead_place]

theorem apertureCheck_place (s : State) (t : Nat) (p : Word) (n : Nat) : (s.apertureCheck t p n).2.place = s.place := by
  unfold State.apertureCheck
  grind [bufEntry_place]

end Sys2Proof.Machine
end

section
set_option Elab.async false
/-! CPY, CPYCH, CPYSTAT, CPYWAIT and CPYKILL (R284 to R287). -/
namespace Sys2Proof.Machine

/-! ## CPY -/

/-- The issuing context as the armer of what it starts. -/
def State.self (s : State) : Armer :=
  ⟨(s.tile s.cur).pid, s.cur, (s.tile s.cur).self, s.cid, BitVec.ofNat 49 (s.ctx.upc.toNat / 8), s.ctx.asid, s.ctx.priv, s.ctx.birth⟩

theorem armer_run (s : State) : armer s = .ok (s.self, s) := by
  rw [State.self, ← unitAddr_eq]
  rfl

theorem self_control {s : State} (h : s.cid = 0) : s.self = ⟨(s.tile s.cur).pid, s.cur, (s.tile s.cur).self, 0,
    BitVec.ofNat 49 (s.ctx.upc.toNat / 8), s.ctx.asid, s.ctx.priv, s.ctx.birth⟩ := by
  rw [State.self, h]

/-- Reading three registers. -/
theorem rs_three {s : State} {a b c : BitVec 5} (ha : s.ctx.readable a = true) (hb : s.ctx.readable b = true) (hc : s.ctx.readable c = true)
    {β : Type} (k : Word → Word → Word → M β) :
    (do let x ← rs a; let y ← rs b; let z ← rs c; k x y z) s =
      k (s.ctx.sreg a) (s.ctx.sreg b) (s.ctx.sreg c) { s with now := s.issueCycle [a, b, c] } := by
  have second : rs b { s with now := s.issueCycle [a] } = .ok (s.ctx.sreg b, { s with now := s.issueCycle [a, b] }) := rs_now (s := { s with now := _ }) hb
  have third : rs c { s with now := s.issueCycle [a, b] } = .ok (s.ctx.sreg c, { s with now := s.issueCycle [a, b, c] }) :=
    rs_now (s := { s with now := _ }) hc
  simp only [bind_run, rs_cycle ha, second, third]

/-- CPY after its operands and its checks. -/
def cpyQueue (f : LF) (dst src len : Word) : M Unit := do
  if f.f0.getLsbD 6 then storesGranted
  if spaceOf dst ≠ 1 then direct
  let a ← armer
  let x := Xfer.new 0 (f.f0.getLsbD 5) src dst (bits len 0 40).toNat (bits f.f0 0 5 : BitVec 5).toNat a
  let s ← get
  let (c, s) := s.copyCheck s.cur x true
  set s
  match c with
  | .wait => waitKeep
  | .bad e => modT fun y => { y with direct := y.direct ++ [x.finish e] }
  | .ok x => modT fun y => { y with direct := y.direct ++ [x] }

theorem exec_cpy (f : LF) (s : State) : exec (.cpy f) s = finish (do
    let dst ← rs f.ra
    let src ← rs f.rb
    let len ← rs f.rc
    need (spaceOf dst = 0 || spaceOf dst = 1 || spaceOf dst = 3 || spaceOf dst = 4) cSPACE dst
    need (decide (spaceOf src ≤ 1)) cSPACE src
    need (spaceOf dst ≠ 3 || decide (ptrTile dst < 2688)) cBADHANDLE dst
    let x ← getT
    if 2 ≤ x.direct.length then wait
    cpyQueue f dst src len) s := rfl

theorem storesGranted_run {s : State} (hv : s.ctx.vsta = []) (ho : s.storesOpen = false) : storesGranted s = .ok ((), s) := by
  simp only [storesGranted, bind_run, performPairs_none hv, get_run, ho, Bool.false_eq_true, if_false, pure_run]

/-- What CPY's checks give for a destination that is not the aperture (R97, R100). -/
def copyCode (s : State) (aon : Bool) (src dst : Word) (len : Nat) : BitVec 8 :=
  if aon ∧ spaceOf src ≠ 0 ∧ spaceOf dst ≠ 0 then 0x0B
  else if aon ∧ (spaceOf src = 0 ∧ addrOf src % 8 ≠ 0 ∨ spaceOf dst = 0 ∧ addrOf dst % 8 ≠ 0) then 0x08
  else if spaceOf dst = 3 then s.landingCheck s.cur dst len else 0

theorem copyCheck_code {s : State} {x : Xfer} (hsrc : spaceOf x.src ≤ 1) (hdst : spaceOf x.dst = 0 ∨ spaceOf x.dst = 1 ∨ spaceOf x.dst = 3) :
    s.copyCheck s.cur x true = (if copyCode s x.aon x.src x.dst x.len = 0 then .ok x else .bad (copyCode s x.aon x.src x.dst x.len), s) := by
  have place : (decide (1 < spaceOf x.src) || !(decide (spaceOf x.dst = 0) || decide (spaceOf x.dst = 1) || decide (spaceOf x.dst = 3) ||
      (true && decide (spaceOf x.dst = 4)))) = false := by
    rw [decide_eq_false (Nat.not_lt.2 hsrc)]
    rcases hdst with h | h | h <;> rw [h] <;> rfl
  have ne4 : ¬ spaceOf x.dst = 4 := by omega
  unfold State.copyCheck copyCode
  dsimp only
  rw [place, if_neg Bool.false_ne_true]
  simp only [Bool.and_eq_true, Bool.or_eq_true, decide_eq_true_eq, and_assoc]
  by_cases both : x.aon = true ∧ spaceOf x.src ≠ 0 ∧ spaceOf x.dst ≠ 0
  · simp only [if_pos both]
    rfl
  · by_cases odd : x.aon = true ∧ (spaceOf x.src = 0 ∧ addrOf x.src % 8 ≠ 0 ∨ spaceOf x.dst = 0 ∧ addrOf x.dst % 8 ≠ 0)
    · simp only [if_neg both, if_pos odd]
      rfl
    · simp only [if_neg both, if_neg odd]
      by_cases landing : spaceOf x.dst = 3
      · simp only [if_pos landing]
        by_cases ok : s.landingCheck s.cur x.dst x.len = xOK
        · rw [if_pos ok, if_pos (show s.landingCheck s.cur x.dst x.len = 0 from ok)]
        · rw [if_neg ok, if_neg (show ¬ s.landingCheck s.cur x.dst x.len = 0 from ok)]
      · simp only [if_neg landing, if_neg ne4, if_true]

section
variable {f : LF} {s : State} (hra : s.ctx.readable f.ra = true) (hrb : s.ctx.readable f.rb = true) (hrc : s.ctx.readable f.rc = true)
include hra hrb hrc

/-- A CPY whose destination is in no space that it can copy to. -/
theorem cpy_destination (h : (spaceOf (s.ctx.sreg f.ra) = 0 || spaceOf (s.ctx.sreg f.ra) = 1 || spaceOf (s.ctx.sreg f.ra) = 3 ||
    spaceOf (s.ctx.sreg f.ra) = 4) = false) :
    s.traps (.cpy f) cSPACE (s.ctx.sreg f.ra) := by
  refine (exec_cpy f s).trans (finish_trap ((rs_three hra hrb hrc _).trans ?_))
  rw [h]
  rfl

variable (hd : (spaceOf (s.ctx.sreg f.ra) = 0 || spaceOf (s.ctx.sreg f.ra) = 1 || spaceOf (s.ctx.sreg f.ra) = 3 || spaceOf (s.ctx.sreg f.ra) = 4) = true)
include hd

theorem cpy_source (h : 1 < spaceOf (s.ctx.sreg f.rb)) : s.traps (.cpy f) cSPACE (s.ctx.sreg f.rb) := by
  refine (exec_cpy f s).trans (finish_trap ((rs_three hra hrb hrc _).trans ?_))
  rw [hd, decide_eq_false (Nat.not_le.2 h)]
  rfl

variable (hs : spaceOf (s.ctx.sreg f.rb) ≤ 1)
include hs

theorem cpy_tile (h : spaceOf (s.ctx.sreg f.ra) = 3) (ht : 2688 ≤ ptrTile (s.ctx.sreg f.ra)) : s.traps (.cpy f) cBADHANDLE (s.ctx.sreg f.ra) := by
  refine (exec_cpy f s).trans (finish_trap ((rs_three hra hrb hrc _).trans ?_))
  have bad : (decide (spaceOf (s.ctx.sreg f.ra) ≠ 3) || decide (ptrTile (s.ctx.sreg f.ra) < 2688)) = false := by
    rw [h, decide_eq_false (Nat.not_lt.2 ht)]
    rfl
  rw [hd, decide_eq_true hs, bad]
  rfl

variable (ht : spaceOf (s.ctx.sreg f.ra) = 3 → ptrTile (s.ctx.sreg f.ra) < 2688)
include ht

/-- A CPY that passes the checks that trap. -/
theorem cpy_checked : (do
    let dst ← rs f.ra
    let src ← rs f.rb
    let len ← rs f.rc
    need (spaceOf dst = 0 || spaceOf dst = 1 || spaceOf dst = 3 || spaceOf dst = 4) cSPACE dst
    need (decide (spaceOf src ≤ 1)) cSPACE src
    need (spaceOf dst ≠ 3 || decide (ptrTile dst < 2688)) cBADHANDLE dst
    let x ← getT
    if 2 ≤ x.direct.length then wait
    cpyQueue f dst src len) s =
    (if 2 ≤ (s.tile s.cur).direct.length then .error .wait
    else cpyQueue f (s.ctx.sreg f.ra) (s.ctx.sreg f.rb) (s.ctx.sreg f.rc) { s with now := s.issueCycle [f.ra, f.rb, f.rc] }) := by
  refine (rs_three hra hrb hrc _).trans ?_
  have ok : (decide (spaceOf (s.ctx.sreg f.ra) ≠ 3) || decide (ptrTile (s.ctx.sreg f.ra) < 2688)) = true := by
    by_cases h : spaceOf (s.ctx.sreg f.ra) = 3
    · rw [decide_eq_true (ht h), Bool.or_true]
    · rw [decide_eq_true h, Bool.true_or]
  rw [hd, decide_eq_true hs, ok]
  by_cases full : 2 ≤ (s.tile s.cur).direct.length
  · rw [if_pos full]
    exact congrFun (if_pos full) _
  · rw [if_neg full]
    exact congrFun (if_neg full) _

theorem cpy_waits (full : 2 ≤ (s.tile s.cur).direct.length) : s.waits (.cpy f) :=
  (exec_cpy f s).trans (finish_wait ((cpy_checked hra hrb hrc hd hs ht).trans (if_pos full)))
end

/-! ### A CPY that is queued -/

/-- The transfer that a CPY asks for. -/
def State.asked (s : State) (f : LF) : Xfer :=
  Xfer.new 0 (f.f0.getLsbD 5) (s.ctx.sreg f.rb) (s.ctx.sreg f.ra) ((s.ctx.sreg f.rc).toNat % 2 ^ 40) (f.f0.toNat % 32) s.self

/-- What a copy's checks leave of it goes to the end of the direct queue. -/
def queueChecked (x : Xfer) (r : Check Xfer × State) : Except Stop (Unit × State) :=
  match r.1 with
  | .wait => .error (.waitWith r.2)
  | .bad e => .ok ((), r.2.modTile r.2.cur fun y => { y with direct := y.direct ++ [x.finish e] })
  | .ok x => .ok ((), r.2.modTile r.2.cur fun y => { y with direct := y.direct ++ [x] })

/-- Stores that have been granted, and a context that is no helper, leave CPY's checks. -/
theorem cpyQueue_run {f : LF} {s : State} {dst src len : Word} (hc : s.cid = 0) (hv : s.ctx.vsta = []) (ho : s.storesOpen = false) :
    cpyQueue f dst src len s =
      let x := Xfer.new 0 (f.f0.getLsbD 5) src dst (len.toNat % 2 ^ 40) (f.f0.toNat % 32) s.self
      queueChecked x (s.copyCheck s.cur x true) := by
  have last : ∀ x : Xfer, (do
      let s ← get
      let (c, s) := s.copyCheck s.cur x true
      set s
      match c with
      | .wait => waitKeep
      | .bad e => modT fun y => { y with direct := y.direct ++ [x.finish e] }
      | .ok x => modT fun y => { y with direct := y.direct ++ [x] } : M Unit) s = queueChecked x (s.copyCheck s.cur x true) := fun x => by
    simp only [bind_run, get_run]
    generalize s.copyCheck s.cur x true = r
    obtain ⟨c, u⟩ := r
    cases c <;> rfl
  have names : Xfer.new 0 (f.f0.getLsbD 5) src dst (bits len 0 40).toNat (bits f.f0 0 5 : BitVec 5).toNat s.self =
      Xfer.new 0 (f.f0.getLsbD 5) src dst (len.toNat % 2 ^ 40) (f.f0.toNat % 32) s.self := by
    rw [bits_toNat, bits_toNat, Nat.pow_zero, Nat.div_one, Nat.div_one]
    rfl
  rw [← names]
  unfold cpyQueue
  by_cases aon : f.f0.getLsbD 6 = true <;> by_cases far : spaceOf dst ≠ 1
  · rw [if_pos aon, if_pos far, bind_run, storesGranted_run hv ho]
    exact (bind_goes (direct_run hc)).trans ((bind_goes (armer_run s)).trans (last _))
  · rw [if_pos aon, if_neg far, bind_run, storesGranted_run hv ho]
    exact (bind_goes (armer_run s)).trans (last _)
  · rw [if_neg aon, if_pos far]
    exact (bind_goes (direct_run hc)).trans ((bind_goes (armer_run s)).trans (last _))
  · rw [if_neg aon, if_neg far]
    exact (bind_goes (armer_run s)).trans (last _)

/-- What CPY's checks give for a destination in the aperture. -/
theorem copyCheck_aperture {s u : State} {x : Xfer} {t i : Nat} (hsrc : spaceOf x.src ≤ 1) (hdst : spaceOf x.dst = 4) (haon : x.aon = false)
    (found : s.apertureCheck t x.dst x.len = (.ok i, u)) : s.copyCheck t x true = (.ok { x with inst := i }, u) := by
  have place : (decide (1 < spaceOf x.src) || !(decide (spaceOf x.dst = 0) || decide (spaceOf x.dst = 1) || decide (spaceOf x.dst = 3) ||
      (true && decide (spaceOf x.dst = 4)))) = false := by
    rw [decide_eq_false (Nat.not_lt.2 hsrc), hdst]
    rfl
  unfold State.copyCheck
  dsimp only
  rw [place, haon, if_neg Bool.false_ne_true]
  simp only [Bool.false_and, Bool.false_eq_true, if_false, found, hdst, Nat.reduceEqDiff, if_true]

section
variable {f : LF} {s : State} (hra : s.ctx.readable f.ra = true) (hrb : s.ctx.readable f.rb = true) (hrc : s.ctx.readable f.rc = true) (hc : s.cid = 0)
  (hd : (spaceOf (s.ctx.sreg f.ra) = 0 || spaceOf (s.ctx.sreg f.ra) = 1 || spaceOf (s.ctx.sreg f.ra) = 3 || spaceOf (s.ctx.sreg f.ra) = 4) = true)
  (hs : spaceOf (s.ctx.sreg f.rb) ≤ 1) (ht : spaceOf (s.ctx.sreg f.ra) = 3 → ptrTile (s.ctx.sreg f.ra) < 2688)
  (room : (s.tile s.cur).direct.length < 2) (hr : s.releasable = true)
include hra hrb hrc hc hd hs ht room hr

theorem cpy_queues : exec (.cpy f) s = .next (settleStop s (queueChecked (s.asked f)
    (({ s with now := s.issueCycle [f.ra, f.rb, f.rc] } : State).copyCheck s.cur (s.asked f) true))) := by
  obtain ⟨hv, -, -, ho, -⟩ := (releasable_iff s).1 hr
  have checked := (cpy_checked hra hrb hrc hd hs ht).trans (if_neg (Nat.not_le.2 room))
  have queued := cpyQueue_run (f := f) (s := { s with now := s.issueCycle [f.ra, f.rb, f.rc] }) (dst := s.ctx.sreg f.ra) (src := s.ctx.sreg f.rb)
    (len := s.ctx.sreg f.rc) hc hv ho
  rw [exec_cpy]
  unfold finish
  rw [checked, queued]
  rfl
/-- A transfer to an address or to a landing is queued with the code that its checks give. -/
theorem cpy_code (h : spaceOf (s.ctx.sreg f.ra) ≠ 4) : ∃ t, exec (.cpy f) s = .next t ∧
    (s.modTile s.cur fun x => { x with direct := x.direct ++ [
      if copyCode s (s.asked f).aon (s.asked f).src (s.asked f).dst (s.asked f).len = 0 then s.asked f
      else { s.asked f with code := copyCode s (s.asked f).aon (s.asked f).src (s.asked f).dst (s.asked f).len, finished := true }] }).issued t
      (s.issueCycle [f.ra, f.rb, f.rc]) := by
  have places : spaceOf (s.ctx.sreg f.ra) = 0 ∨ spaceOf (s.ctx.sreg f.ra) = 1 ∨ spaceOf (s.ctx.sreg f.ra) = 3 := by
    simp only [Bool.or_eq_true, decide_eq_true_eq] at hd
    omega
  have checked := copyCheck_code (s := { s with now := s.issueCycle [f.ra, f.rb, f.rc] }) (x := s.asked f) hs places
  refine ⟨_, (cpy_queues hra hrb hrc hc hd hs ht room hr).trans ?_, issued_done _ _⟩
  by_cases ok : copyCode s (s.asked f).aon (s.asked f).src (s.asked f).dst (s.asked f).len = 0
  · rw [checked.trans (congrArg (·, _) (if_pos ok)), if_pos ok]
    rfl
  · rw [checked.trans (congrArg (·, _) (if_neg ok)), if_neg ok]
    rfl

/-- One to the aperture is queued with the program that its check finds. -/
theorem cpy_aperture {i : Nat} {u : State} (h : spaceOf (s.ctx.sreg f.ra) = 4) (aon : f.f0.getLsbD 5 = false)
    (found : ({ s with now := s.issueCycle [f.ra, f.rb, f.rc] } : State).apertureCheck s.cur (s.ctx.sreg f.ra) ((s.ctx.sreg f.rc).toNat % 2 ^ 40) = (.ok i, u)) :
    ∃ t, exec (.cpy f) s = .next t ∧ t.fate = .done ∧ t.now = s.issueCycle [f.ra, f.rb, f.rc] ∧ t.mem = u.mem ∧
      (t.tile s.cur).direct = (u.tile s.cur).direct ++ [{ s.asked f with inst := i }] := by
  have place := apertureCheck_place { s with now := s.issueCycle [f.ra, f.rb, f.rc] } s.cur (s.ctx.sreg f.ra) ((s.ctx.sreg f.rc).toNat % 2 ^ 40)
  rw [found] at place
  obtain ⟨cur, now⟩ := Prod.mk.inj place
  have checked : ({ s with now := s.issueCycle [f.ra, f.rb, f.rc] } : State).copyCheck s.cur (s.asked f) true = (.ok { s.asked f with inst := i }, u) :=
    copyCheck_aperture hs h aon found
  have run := cpy_queues hra hrb hrc hc hd hs ht room hr
  rw [checked] at run
  refine ⟨_, run, rfl, now, rfl, ?_⟩
  change ((u.modTile u.cur fun y => { y with direct := y.direct ++ [{ s.asked f with inst := i }] }).tile s.cur).direct = _
  rw [show u.cur = s.cur from cur, modTile_tile_same]
end

/-! ## Channels -/

section
variable {f : CF} {s : State}

theorem chanBusy_iff (x : Tile) (j : Nat) :
    x.chanBusy j = true ↔ (x.chans.getD j Chan.reset).st = .running ∨ ∃ h ∈ x.held, h.chan = j := by
  simp only [Tile.chanBusy, Tile.chan, Bool.or_eq_true, List.any_eq_true, decide_eq_true_eq]
  exact or_congr decide_eq_true_iff Iff.rfl

theorem not_four (h : f.p5.toNat < 4) : ¬ f.p5 = 4 := fun e => by
  rw [e] at h
  exact absurd h (by decide)

theorem cpych_busy (hr : s.canRun [f.a] f.d = true) (hc : s.cid = 0) (busy : (s.tile s.cur).chanBusy f.p5.toNat = true) :
    ∃ t, exec (.cpych f) s = .next t ∧ s.wrote t (s.issueCycle [f.a]) 1 f.d 1 := by
  obtain ⟨ha, hd⟩ := canRun_cons hr
  refine finish_wsLat ?_ (canRun_nil hd)
  refine (bind_goes (notHelper_control _ hc)).trans ((bind_goes (rs_cycle ha)).trans ?_)
  exact congrFun (if_pos busy) _

/-- An idle channel starts. -/
theorem cpych_starts (hr : s.canRun [f.a] f.d = true) (hc : s.cid = 0) (idle : ¬ (s.tile s.cur).chanBusy f.p5.toNat = true)
    (hv : s.ctx.vsta = []) (ho : s.storesOpen = false) :
    ∃ t, exec (.cpych f) s = .next t ∧ (s.startWalk s.cur f.p5.toNat (s.ctx.sreg f.a) s.self).wrote t (s.issueCycle [f.a]) 1 f.d 0 := by
  obtain ⟨ha, hd⟩ := canRun_cons hr
  have own : (s.startWalk s.cur f.p5.toNat (s.ctx.sreg f.a) s.self).ctx = s.ctx := modTile_ctx _ rfl
  refine finish_wsLat ?_ ((congrArg (fun k : Ctx => k.pendingReg f.d) own).trans (canRun_nil hd))
  refine (bind_goes (notHelper_control _ hc)).trans ((bind_goes (rs_cycle ha)).trans ?_)
  refine (congrFun (if_neg idle) _).trans ?_
  refine (bind_goes (storesGranted_run (s := { s with now := s.issueCycle [f.a] }) hv ho)).trans ?_
  exact (bind_goes (armer_run _)).trans rfl

theorem cpywait_waits (hp : f.p5.toNat < 4) (busy : (s.tile s.cur).chanBusy f.p5.toNat = true) : s.waits (.cpywait f) := by
  refine finish_wait ?_
  exact (congrFun (if_neg (not_four hp)) s).trans (congrFun (if_pos busy) s)

theorem cpywait_goes (hp : f.p5.toNat < 4) (idle : ¬ (s.tile s.cur).chanBusy f.p5.toNat = true) :
    ∃ t, exec (.cpywait f) s = .next t ∧ (s.flashed s.now).issued t s.now := by
  refine ⟨_, finish_ok (t := s.flashTile s.cur) ?_, flashed_eq s ▸ issued_done _ _⟩
  exact (congrFun (if_neg (not_four hp)) s).trans (congrFun (if_neg idle) s)

theorem cpystat_run (hp : f.p5.toNat < 4) (hd : s.ctx.pendingReg f.d = false) :
    ∃ t, exec (.cpystat f) s = .next t ∧ s.wrote t s.now 1 f.d ((s.tile s.cur).copyStatus s.ctx s.cid f.p5.toNat) := by
  obtain ⟨t, run, wrote⟩ := wsLat_run (issued_refl s) 1 ((s.tile s.cur).copyStatus s.ctx s.cid f.p5.toNat) hd
  refine ⟨_, finish_ok (t := t) ?_, wrote⟩
  have body : ∀ m : M Unit, (do ws f.d ((s.tile s.cur).copyStatus s.ctx s.cid f.p5.toNat); if f.p5 = 4 then m) s = .ok ((), t) := fun m => by
    rw [if_neg (not_four hp)]
    exact bind_goes run
  exact body _

theorem copyStatus_chan (x : Tile) (k : Ctx) (c : Nat) {j : Nat} (hj : j < 4) : x.copyStatus k c j = match (x.chans.getD j Chan.reset).st with
    | .idle => 0
    | .running => BitVec.ofNat 64 (2 ^ 62 + (match (x.chans.getD j Chan.reset).cur with | some r => r.moved | none => 0) * 2 ^ 16)
    | .stopped code => BitVec.ofNat 64 (2 ^ 63 + (x.chans.getD j Chan.reset).moved * 2 ^ 16 + code.toNat) := by
  unfold Tile.copyStatus
  rw [if_neg (Nat.ne_of_lt hj)]
  unfold Tile.chan
  generalize x.chans.getD j Chan.reset = c
  obtain ⟨st, head, cur, moved, armer⟩ := c
  cases st <;> cases cur <;> rfl
end

/-! ## CPYKILL -/

/-- Tile t is listed, runs for a, and no other tile does. -/
structure State.Alone (s : State) (a : Armer) (t : Nat) : Prop where
  listed : (t, s.tile t) ∈ s.tiles
  runs : runsFor a (s.tile t)
  only : ∀ e ∈ s.tiles, runsFor a e.2 → e.1 = t

theorem alone_modTile {s : State} {a : Armer} {t : Nat} {f : Tile → Tile} (only : ∀ e ∈ s.tiles, runsFor a e.2 → e.1 = t)
    (h : runsFor a (f (s.tile t))) : (s.modTile t f).Alone a t where
  listed := mem_modTile s t f
  runs := by rwa [modTile_tile_same]
  only e he r := (mem_mset he).elim (congrArg Prod.fst) fun he => only e he r

theorem runsFor_setCtx {a : Armer} {x : Tile} (h : runsFor a x) (c : Nat) (k : Ctx) : runsFor a (x.setCtx c k) := by
  obtain ⟨pid, self, has⟩ := h
  exact ⟨pid, self, (mhas_mset ..).trans (by rw [has, Bool.true_or])⟩

/-- An armer's context changes where it alone runs. -/
theorem State.Alone.modIssuer {s : State} {a : Armer} {t : Nat} (h : s.Alone a t) (f : Ctx → Ctx) :
    s.modIssuer a f = s.modCtxAt t a.cid (a.change f) := by
  have unborn : ({ a with birth := 0 } : Armer).change (a.change f) = a.change f := funext fun k => by
    simp [Armer.change, Armer.is]
  have same : s.modIssuer a f = s.modIssuer { a with birth := 0 } (a.change f) := by
    simp only [State.modIssuer, unborn]
  exact same.trans (modIssuer_here (a := { a with birth := 0 }) h.listed h.runs h.only rfl _)

theorem State.Alone.modCtxAt {s : State} {a : Armer} {t : Nat} (h : s.Alone a t) (c : Nat) (f : Ctx → Ctx) : (s.modCtxAt t c f).Alone a t :=
  alone_modTile (f := fun x => x.setCtx c (f (s.ctxAt t c))) h.only (runsFor_setCtx h.runs c _)

/-- Two changes of it, one after the other. -/
theorem State.Alone.modIssuer_twice {s : State} {a : Armer} {t : Nat} (h : s.Alone a t) (f g : Ctx → Ctx) (his : a.is (s.ctxAt t a.cid) = true)
    (hf : a.is (f (s.ctxAt t a.cid)) = true) :
    ((s.modIssuer a f).modIssuer a g).ctxAt t a.cid = g (f (s.ctxAt t a.cid)) ∧ ((s.modIssuer a f).modIssuer a g).mem = s.mem ∧
      ((s.modIssuer a f).modIssuer a g).cur = s.cur ∧ ((s.modIssuer a f).modIssuer a g).cid = s.cid ∧
      (((s.modIssuer a f).modIssuer a g).tile t).direct = (s.tile t).direct := by
  rw [h.modIssuer, (h.modCtxAt _ _).modIssuer]
  refine ⟨?_, rfl, rfl, rfl, ?_⟩
  · rw [modCtxAt_ctxAt_same, modCtxAt_ctxAt_same, Armer.change, Armer.change, if_pos his, if_pos hf]
  · simp only [State.modCtxAt, State.setCtxAt, modTile_tile_same, Tile.setCtx]

/-- A transfer that writes no version ends killed: its context has the report, and EE is raised. -/
def killReport (x : Xfer) (k : Ctx) : Ctx :=
  { k with dirMoved := BitVec.ofNat 40 x.moved, dirCode := xKILLED, dirErr := k.dirErr || decide (xKILLED ≠ xOK) }

/-- A flag leaves the registers and the report of the direct transfers. -/
theorem raise_report (k : Ctx) (f : BitVec 11) (u : BitVec 49) : (k.raise f u).sregs = k.sregs ∧ (k.raise f u).dirCode = k.dirCode ∧
    (k.raise f u).dirErr = k.dirErr ∧ (k.raise f u).dirMoved = k.dirMoved := by
  unfold Ctx.raise
  dsimp only
  split
  · exact ⟨rfl, rfl, rfl, rfl⟩
  · split <;> exact ⟨rfl, rfl, rfl, rfl⟩

theorem dropHolds_modTile (u : State) (t key : Nat) (f : Tile → Tile) : (u.modTile t f).dropHolds key = (u.dropHolds key).modTile t f := rfl

/-- Changes of a tile that agree on what it is are one. -/
theorem modTile_congr {u : State} {t : Nat} {f g : Tile → Tile} (h : f (u.tile t) = g (u.tile t)) : u.modTile t f = u.modTile t g :=
  congrArg (u.setTile t) h

section
variable {s : State} {x : Xfer} (only : (s.tile s.cur).direct = [x]) (open_ : x.finished = false) (plain : x.ver = none) (aon : x.aon = false)
include open_ aon

theorem killXfer_plain (t ch : Nat) : s.killXfer t ch x = (s, x.finish xKILLED) := by
  have counted : ((x.finish xKILLED).finished && (x.finish xKILLED).kind = 0 && (x.finish xKILLED).quiet && (x.finish xKILLED).code ≠ xOK &&
      (x.finish xKILLED).code ≠ xSTALE && (x.finish xKILLED).moved = 0 && (x.finish xKILLED).wrote ≠ 0) = false := by
    simp [Xfer.finish, Xfer.quiet, aon]
  unfold State.killXfer State.creditStopped
  rw [open_, if_neg Bool.false_ne_true, counted, if_neg Bool.false_ne_true]

include only plain

theorem killDirect_alone : s.killDirect s.cur x =
    (((s.dropHolds (x.key s.cur 4)).modTile s.cur fun z => { z with direct := [] }).modIssuer x.armer (killReport x)).raiseIn x.armer fEE := by
  unfold State.killDirect
  rw [killXfer_plain open_ aon]
  dsimp only
  unfold State.endXfer State.lowerVersion
  rw [show (x.finish xKILLED).ver = none from plain]
  dsimp only
  rw [modTile_tile_same]
  dsimp only
  rw [only]
  simp only [List.map_cons, List.map_nil, if_true, List.head?_cons]
  have emptied : ∀ u : State, u.tile s.cur = s.tile s.cur → u.modTile s.cur (fun z => { z with
      direct := (z.direct.map fun e => if e = x then x.finish xKILLED else e).erase (x.finish xKILLED) }) =
      u.modTile s.cur fun z => { z with direct := [] } := fun u own => by
    refine modTile_congr ?_
    rw [own, only]
    simp
  rw [dropHolds_modTile, modTile_modTile, if_neg (show ¬ (x.finish xKILLED).code = xOK from (by decide : ¬ xKILLED = xOK))]
  dsimp only
  rw [emptied (s.dropHolds ((x.finish xKILLED).key s.cur 4)) rfl]
  rfl

variable (hc : s.cid = 0) (hcid : x.armer.cid = 0) (hpid : x.armer.pid = (s.tile s.cur).pid) (hself : x.armer.self = (s.tile s.cur).self)
  (his : x.armer.is s.ctx = true) (hhas : mhas (s.tile s.cur).ctxs 0 = true)
  (alone : ∀ e ∈ s.tiles, e.2.pid = x.armer.pid → e.2.self = x.armer.self → e.1 = s.cur)
include hc hcid hpid hself his hhas alone

theorem killDirect_killed : (s.killDirect s.cur x).ctx = (killReport x s.ctx).raise fEE x.armer.unit ∧ (s.killDirect s.cur x).mem = s.mem ∧
    ((s.killDirect s.cur x).tile s.cur).direct = [] := by
  have own : x.armer.is (s.ctxAt s.cur x.armer.cid) = true := by
    rw [hcid, ← hc]
    exact his
  have listed : ((s.dropHolds (x.key s.cur 4)).modTile s.cur fun z => { z with direct := [] }).Alone x.armer s.cur :=
    alone_modTile (fun e he r => alone e he r.1 r.2.1) ⟨hpid.symm, hself.symm, hcid ▸ hhas⟩
  have before : ((s.dropHolds (x.key s.cur 4)).modTile s.cur fun z => { z with direct := [] }).ctxAt s.cur x.armer.cid = s.ctx := by
    rw [State.ctxAt, modTile_tile_same, hcid, ← hc]
    rfl
  obtain ⟨ctx, mem, cur, cid, direct⟩ := listed.modIssuer_twice (killReport x) (fun k => k.raise fEE x.armer.unit) (before ▸ his) (before ▸ his)
  rw [killDirect_alone only open_ plain aon]
  refine ⟨?_, mem, direct.trans ?_⟩
  · unfold State.ctx
    rw [State.raiseIn, cur, cid]
    rw [before, hcid, ← hc] at ctx
    exact ctx
  · rw [modTile_tile_same]
end

theorem cpykill_run {f : CF} {s : State} {x : Xfer} (hc : s.cid = 0) (hp : f.p5 = 4) (only : (s.tile s.cur).direct = [x]) (hcid : x.armer.cid = 0)
    (his : x.armer.is s.ctx = true) : exec (.cpykill f) s = .next { s.killDirect s.cur x with fate := .done } := by
  have mine : (s.tile s.cur).directOf s.cid = [x] := by
    have own : x.armer.is ((s.tile s.cur).ctx s.cid) = true := his
    rw [Tile.directOf, only, List.filter_cons_of_pos (by rw [own, hcid, hc]; rfl), List.filter_nil]
  refine finish_ok ?_
  refine (bind_goes (notHelper_control _ hc)).trans ((congrFun (if_pos hp) s).trans ?_)
  refine congrArg (fun l => Except.ok ((), l.foldl (fun s d => s.killDirect s.cur d) s)) mine

/-! ## O25 -/

/-- Settles O25: each instruction's meaning, run to the state that it leaves; a kill's two changes of its context are on the one tile that runs it. -/
theorem copyInstructions : Obligations.CopyInstructions := by
  unfold Obligations.CopyInstructions
  refine ⟨fun f s hra hrb hrc hc => ?_, fun f s hr hc hp => ?_, fun f s x hc hp only open_ plain aon hcid hpid hself his hhas alone => ?_⟩
  · dsimp only
    have places : (spaceOf (s.ctx.sreg f.ra) = 0 || spaceOf (s.ctx.sreg f.ra) = 1 || spaceOf (s.ctx.sreg f.ra) = 3 || spaceOf (s.ctx.sreg f.ra) = 4) = true ↔
        (spaceOf (s.ctx.sreg f.ra) = 0 ∨ spaceOf (s.ctx.sreg f.ra) = 1 ∨ spaceOf (s.ctx.sreg f.ra) = 3 ∨ spaceOf (s.ctx.sreg f.ra) = 4) := by
      simp only [Bool.or_eq_true, decide_eq_true_eq, or_assoc]
    refine ⟨fun h => cpy_destination hra hrb hrc (Bool.eq_false_iff.2 fun t => h (places.1 t)), fun hd h => cpy_source hra hrb hrc (places.2 hd) h,
      fun h3 hs h => cpy_tile hra hrb hrc (places.2 (.inr (.inr (.inl h3)))) hs h3 h, fun hd hs ht full => cpy_waits hra hrb hrc (places.2 hd) hs ht full,
      fun hd hs ht room rel => ⟨fun h4 => ?_, fun i u h4 aon found => ?_⟩⟩
    · have queued := cpy_code hra hrb hrc hc (places.2 hd) hs ht room rel h4
      rw [State.asked, self_control hc] at queued
      exact queued
    · have queued := cpy_aperture hra hrb hrc hc (places.2 hd) hs ht room rel h4 aon found
      rw [State.asked, self_control hc] at queued
      exact queued
  · dsimp only
    refine ⟨fun busy => ?_, fun idle => ?_, fun idle hv ho => ?_, ?_⟩
    · rw [← chanBusy_iff] at busy
      exact ⟨cpych_busy hr hc busy, cpywait_waits hp busy⟩
    · rw [← chanBusy_iff] at idle
      exact cpywait_goes hp idle
    · rw [← chanBusy_iff] at idle
      have starts := cpych_starts hr hc idle hv ho
      rw [self_control hc] at starts
      exact starts
    · have status := cpystat_run hp (canRun_nil (canRun_cons hr).2)
      rw [copyStatus_chan _ _ _ hp] at status
      exact status
  · obtain ⟨ctx, mem, direct⟩ := killDirect_killed only open_ plain aon hc hcid hpid hself his hhas alone
    refine ⟨_, cpykill_run hc hp only hcid his, rfl, mem, direct, ?_⟩
    change (s.killDirect s.cur x).ctx.sregs = _ ∧ (s.killDirect s.cur x).ctx.dirCode = _ ∧ (s.killDirect s.cur x).ctx.dirErr = _ ∧
      (s.killDirect s.cur x).ctx.dirMoved = _ ∧ (s.killDirect s.cur x).ctx.flags = _
    obtain ⟨sregs, code, err, moved⟩ := raise_report (killReport x s.ctx) fEE x.armer.unit
    rw [ctx, raise_flags, sregs, code, err, moved]
    exact ⟨rfl, rfl, Bool.or_true _, rfl, rfl⟩

end Sys2Proof.Machine
end

section
set_option Elab.async false
/-! The launcher: its registers, its queues, and the launches that it starts and completes (R325 to R333, R368, R377). -/
namespace Sys2Proof.Machine

/-! ## Registers and aging -/

theorem sameIssue_modYarrow (s : State) (p : Nat) (f : Yarrow → Yarrow) : s.SameIssue (s.modYarrow p f) := ⟨rfl, rfl, rfl, rfl, rfl⟩
theorem modYarrow_dev (s : State) (p : Nat) (f : Yarrow → Yarrow) : (s.modYarrow p f).dev p = { s.dev p with yarrow := f (s.dev p).yarrow } :=
  modDev_dev_same ..
theorem modQueue_yarrow (s : State) (p q : Nat) (f : YQueue → YQueue) : ((s.modQueue p q f).dev p).yarrow =
    { (s.dev p).yarrow with queues := mset (s.dev p).yarrow.queues q (f ((s.dev p).yarrow.queue q)) } := by
  rw [State.modQueue, modYarrow_dev]
theorem modQueue_queue (s : State) (p q : Nat) (f : YQueue → YQueue) : ((s.modQueue p q f).dev p).yarrow.queue q = f ((s.dev p).yarrow.queue q) := by
  rw [modQueue_yarrow]
  exact mget_mset_same ..

theorem yqtbaseWrite_run {s : State} {p : Nat} (v : Word) (h : (s.dev p).barOpen = true) :
    ∃ u, s.happens u (.yqtbaseWrite p v) ∧ u.mem = s.mem ∧ u.dev p = { s.dev p with yarrow := { (s.dev p).yarrow with
      qtBase := if (s.dev p).yarrow.en = true then (s.dev p).yarrow.qtBase else v.extractLsb' 12 40, en := v.getLsbD 0 } } := by
  obtain ⟨u, hu, hm, -, hd⟩ := becomes_of_setDev (s := s) (p := p) (i := .yqtbaseWrite p v) (exec_of_happen (f := fun s =>
    if !(s.dev p).barOpen then s else s.modYarrow p fun y => { y with qtBase := if y.en then y.qtBase else bits v 12 40, en := v.getLsbD 0 }) rfl
    (if_neg (by rw [h]; exact Bool.false_ne_true)))
  exact ⟨u, hu, hm, hd⟩

/-- FEATACK_WRITE on the package's registers. -/
def Device.ackFeatures (d : Device) (v : Word) : Device :=
  if d.yarrow.en || !d.barOpen then d
  else { d with featAck := bits (v &&& feat0) 0 8, yarrow := { d.yarrow with acked := true } }

theorem featackWrite_run (s : State) (p : Nat) (v : Word) :
    ∃ u, s.happens u (.featackWrite p v) ∧ u.mem = s.mem ∧ u.dev p = (s.dev p).ackFeatures v := by
  obtain ⟨u, hu, hm, -, hd⟩ := becomes_of_setDev (s := s) (p := p) (i := .featackWrite p v) (exec_of_happen (f := fun s =>
    s.modDev p fun d => d.ackFeatures v) rfl rfl)
  exact ⟨u, hu, hm, hd⟩

theorem ackFeatures_closed {d : Device} (v : Word) (h : d.yarrow.en = true ∨ d.barOpen = false) : d.ackFeatures v = d := by
  refine if_pos ?_
  rcases h with h | h <;> rw [h]
  · rfl
  · exact Bool.or_true _
theorem ackFeatures_open {d : Device} (v : Word) (he : d.yarrow.en = false) (hb : d.barOpen = true) :
    d.ackFeatures v = { d with featAck := (v &&& feat0).extractLsb' 0 8, yarrow := { d.yarrow with acked := true } } := by
  refine if_neg ?_
  rw [he, hb]
  exact Bool.false_ne_true

/-- A head that waits has its time, and rises by the intervals that have passed. -/
def aged (time age : Nat) (y : YQueue) : YQueue :=
  if y.since = 0 then { y with since := time } else { y with raise := (time - y.since) / (age * 1000) }

theorem launchAging_run {s : State} {p q : Nat} {h : Head} (head : s.headOf p q = some h) :
    ∃ u, s.happens u (.launchAging p q) ∧ u.mem = s.mem ∧
      (u.dev p).yarrow.queue q = aged (s.time p + 1) (s.dev p).yarrow.age ((s.dev p).yarrow.queue q) := by
  have run : exec (.launchAging p q) s = .next { s.modQueue p q (aged (s.time p + 1) (s.dev p).yarrow.age) with fate := .done } := by
    refine (happen_run (fun s => match s.headOf p q with
      | none => s
      | some _ => s.modQueue p q (aged (s.time p + 1) (s.dev p).yarrow.age)) s).trans ?_
    rw [head]
  obtain ⟨u, hu, hm, -, hd⟩ := becomes_of_setDev (p := p) run
  refine ⟨u, hu, hm, ?_⟩
  rw [hd]
  exact mget_mset_same ..

/-! ## Descriptors -/

section
variable (x : Nat)
theorem descWord_toNat (i : Nat) : (descWord x i).toNat = x / 2 ^ (64 * i) % 2 ^ 64 := BitVec.toNat_ofNat ..
theorem descLogn_eq : descLogn x = x / 2 ^ (64 * 1) % 2 ^ 64 % 2 ^ 5 := by
  rw [descLogn, bits_toNat, descWord_toNat, Nat.pow_zero, Nat.div_one]
theorem descHead_eq : descHead x = x / 2 ^ (64 * 3) % 2 ^ 64 % 2 ^ 32 := by
  rw [descHead, bits_toNat, descWord_toNat, Nat.pow_zero, Nat.div_one]
theorem descQen_eq : descQen x = decide (x / 2 ^ (64 * 1) % 2 ^ 64 / 2 ^ 31 % 2 = 1) := by
  rw [descQen, ← BitVec.testBit_toNat, descWord_toNat, Nat.testBit_eq_decide_div_mod_eq]
theorem descErr_eq : descErr x = decide (x / 2 ^ (64 * 3) % 2 ^ 64 / 2 ^ 63 = 1) := by
  rw [descErr, ← BitVec.testBit_toNat, descWord_toNat, Nat.testBit_eq_decide_div_mod_eq]
  generalize x / 2 ^ (64 * 3) = n
  exact decide_eq_decide.2 (by omega)
end

/-! ## Tails -/

theorem queueErr_err {s : State} {p q head : Nat} (h : (s.physWrite p ((s.dev p).yarrow.descAt q + 0x18) 8 (head + 2 ^ 63)).isSome = true) :
    (((s.queueErr p q head).dev p).yarrow.queue q).err = true := by
  obtain ⟨u, hu⟩ := Option.isSome_iff_exists.1 h
  have logged : ∀ (v : State) (a b c : Nat), ((v.logEvent p a b c).dev p).yarrow = (v.dev p).yarrow := fun v a b c => by
    rw [State.logEvent, State.modMgmt, modDev_dev_same]
  unfold State.queueErr
  rw [hu]
  dsimp only
  rw [logged, modQueue_queue]

/-- A queue whose tail is watched. -/
def armed (y : YQueue) : YQueue := { y with watch := true, err := false }

/-- A record joins a queue, and HEAD passes it. -/
def recordTaken (next rec : Nat) (y : YQueue) : YQueue :=
  { y with head := next, records := y.records ++ [(List.range 8).map fun i => descWord rec i] }

/-- What a queue's descriptor x lets TAIL_WAKE do, the queue not being lost. -/
def State.tailTaken (s : State) (p q x : Nat) : State :=
  if descLogn x = 0 || 16 < descLogn x || s.hostAbsent p x then s.queueErr p q (descHead x)
  else match s.physRead p (descTail x) 8 with
    | (.bad, s) => s.queueErr p q (descHead x)
    | (.wait, s) => s
    | (.ok t, s) =>
      let n := (t % 2 ^ 32 + 2 ^ 32 - descHead x) % 2 ^ 32
      let s := s.modQueue p q armed
      if 2 ^ descLogn x < n then s.queueErr p q (descHead x) else s.takeRecords p q (descRing x) (descLogn x) n (descHead x)

section
variable {s u : State} {p q x : Nat} (serving : s.serving p = true) (hq : q < 131072) (read : s.readDesc p q = (.ok x, u))
  (found : ((u.dev p).yarrow.queue q).lost = false)
include serving hq read found

theorem tailWake_run : exec (.tailWake p q) s = .next { (if !descQen x || descErr x || (hostQueue p x && !(u.dev p).cxlUp) then u else u.tailTaken p q x)
    with fate := .done } := by
  have reached : u.tailLost p q x = u := by
    unfold State.tailLost
    rw [found]
    rfl
  have run : exec (.tailWake p q) s = happen (fun s =>
      if !s.serving p || decide (131072 ≤ q) then s
      else match s.readDesc p q with
        | (.ok d, s) =>
          let s := s.tailLost p q d
          if !descQen d || descErr d || ((s.dev p).yarrow.queue q).lost || (hostQueue p d && !(s.dev p).cxlUp) then s else s.tailTaken p q d
        | (_, s) => s) s := rfl
  rw [run, happen_run, serving, decide_eq_false (Nat.not_le.2 hq), if_neg (show ¬ (!true || false) = true from Bool.false_ne_true), read]
  dsimp only
  rw [reached, found, Bool.or_false]

/-- A queue that is off, or faulty, is left. -/
theorem tailWake_off (off : (!descQen x || descErr x) = true) : exec (.tailWake p q) s = .next { u with fate := .done } := by
  rw [tailWake_run serving hq read found, off, Bool.true_or, if_pos rfl]

variable (on : descQen x = true) (sound : descErr x = false) (up : hostQueue p x = true → (u.dev p).cxlUp = true)
include on sound up

theorem tailWake_on : exec (.tailWake p q) s = .next { u.tailTaken p q x with fate := .done } := by
  have linked : (hostQueue p x && !(u.dev p).cxlUp) = false := by
    cases host : hostQueue p x
    · rfl
    · rw [up host]
      rfl
  rw [tailWake_run serving hq read found, on, sound, linked]
  rfl

theorem tailWake_badSize (size : descLogn x = 0 ∨ 16 < descLogn x)
    (stored : (u.physWrite p ((u.dev p).yarrow.descAt q + 0x18) 8 (descHead x + 2 ^ 63)).isSome = true) :
    ∃ t, exec (.tailWake p q) s = .next t ∧ t.fate = .done ∧ ((t.dev p).yarrow.queue q).err = true := by
  have bad : (descLogn x = 0 || 16 < descLogn x || u.hostAbsent p x) = true := by
    rcases size with h | h
    · rw [decide_eq_true h, Bool.true_or, Bool.true_or]
    · rw [decide_eq_true h, Bool.or_true, Bool.true_or]
  have run := tailWake_on serving hq read found on sound up
  rw [State.tailTaken, if_pos bad] at run
  exact ⟨_, run, rfl, queueErr_err stored⟩

variable (small : 1 ≤ descLogn x) (big : descLogn x ≤ 16) (present : u.hostAbsent p x = false) {tail : Nat} {u1 : State}
  (readTail : u.physRead p (descTail x) 8 = (.ok tail, u1))
include small big present readTail

theorem tailWake_reads : exec (.tailWake p q) s = .next { (
    if 2 ^ descLogn x < (tail % 2 ^ 32 + 2 ^ 32 - descHead x) % 2 ^ 32 then (u1.modQueue p q armed).queueErr p q (descHead x)
    else (u1.modQueue p q armed).takeRecords p q (descRing x) (descLogn x) ((tail % 2 ^ 32 + 2 ^ 32 - descHead x) % 2 ^ 32) (descHead x)) with fate := .done } := by
  have good : (descLogn x = 0 || 16 < descLogn x || u.hostAbsent p x) = false := by
    rw [decide_eq_false (by omega), decide_eq_false (by omega), present]
    rfl
  have run := tailWake_on serving hq read found on sound up
  rw [State.tailTaken, good, if_neg Bool.false_ne_true, readTail] at run
  exact run

/-- A tail that has not moved only has its line watched. -/
theorem tailWake_same (same : tail % 2 ^ 32 = descHead x) : exec (.tailWake p q) s = .next { u1.modQueue p q armed with fate := .done } := by
  have none : (tail % 2 ^ 32 + 2 ^ 32 - descHead x) % 2 ^ 32 = 0 := by omega
  rw [tailWake_reads serving hq read found on sound up small big present readTail, none, if_neg (Nat.not_lt_zero _)]
  rfl

theorem tailWake_tooFar (far : 2 ^ descLogn x < (tail % 2 ^ 32 + 2 ^ 32 - descHead x) % 2 ^ 32)
    (stored : ((u1.modQueue p q armed).physWrite p (((u1.modQueue p q armed).dev p).yarrow.descAt q + 0x18) 8 (descHead x + 2 ^ 63)).isSome = true) :
    ∃ t, exec (.tailWake p q) s = .next t ∧ t.fate = .done ∧ ((t.dev p).yarrow.queue q).err = true := by
  have run := tailWake_reads serving hq read found on sound up small big present readTail
  rw [if_pos far] at run
  exact ⟨_, run, rfl, queueErr_err stored⟩

/-- A tail that has moved by one brings one record. -/
theorem tailWake_one {rec : Nat} {u3 u4 : State} (one : (tail % 2 ^ 32 + 2 ^ 32 - descHead x) % 2 ^ 32 = 1)
    (record : (u1.modQueue p q armed).physRead p (descRing x + 64 * (descHead x % 2 ^ descLogn x)) 64 = (.ok rec, u3))
    (stored : u3.physWrite p ((u3.dev p).yarrow.descAt q + 0x18) 8 ((descHead x + 1) % 2 ^ 32) = some u4) :
    exec (.tailWake p q) s = .next { u4.modQueue p q (recordTaken ((descHead x + 1) % 2 ^ 32) rec) with fate := .done } := by
  have room : ¬ 2 ^ descLogn x < 1 := Nat.not_lt.2 Nat.one_le_two_pow
  have run := tailWake_reads serving hq read found on sound up small big present readTail
  rw [one, if_neg room, State.takeRecords, record] at run
  dsimp only at run
  rw [stored] at run
  exact run
end

end Sys2Proof.Machine
end

section
set_option Elab.async false
/-! Starts and completions of launches (R329 to R333, R368). -/
namespace Sys2Proof.Machine

/-! ## A tile that starts -/

/-- u differs from s, beyond memory and directories, in tile t alone. -/
structure State.OnlyTile (s : State) (t : Nat) (u : State) : Prop where
  devices : u.devices = s.devices
  partitions : u.partitions = s.partitions
  issue : s.SameIssue u
  others : ∀ o, o ≠ t → u.tile o = s.tile o

theorem onlyTile_refl (s : State) (t : Nat) : s.OnlyTile t s := ⟨rfl, rfl, .refl s, fun _ _ => rfl⟩
theorem State.OnlyTile.trans {s u v : State} {t : Nat} (h : s.OnlyTile t u) (g : u.OnlyTile t v) : s.OnlyTile t v where
  devices := g.devices.trans h.devices
  partitions := g.partitions.trans h.partitions
  issue := h.issue.trans g.issue
  others o ho := (g.others o ho).trans (h.others o ho)

theorem onlyTile_modTile (s : State) (t : Nat) (f : Tile → Tile) : s.OnlyTile t (s.modTile t f) :=
  ⟨rfl, rfl, sameIssue_modTile s t f, fun o ho => by rw [modTile_tile, if_neg ho]⟩
theorem State.Pinned.onlyTile {s u : State} {t : Nat} (h : s.Pinned t u) : s.OnlyTile t u where
  devices := (congrArg State.devices h.rest :)
  partitions := (congrArg State.partitions h.rest :)
  issue := ⟨(congrArg State.cur h.rest :), (congrArg State.cid h.rest :), (congrArg State.compute h.rest :), (congrArg State.slots h.rest :),
    (congrArg State.turns h.rest :)⟩
  others := h.others

theorem reserveLines_onlyTile (s : State) (t pid n : Nat) : s.OnlyTile t (s.reserveLines t pid n) := by
  unfold State.reserveLines
  generalize List.range n = ls
  induction ls generalizing s with
  | nil => exact onlyTile_refl s t
  | cons l ls ih =>
    refine State.OnlyTile.trans ?_ (ih _)
    dsimp only
    split
    · exact onlyTile_modTile ..
    · refine State.OnlyTile.trans ?_ (pinLine_pinned _ t l _).onlyTile
      split
      · exact onlyTile_modTile ..
      · exact onlyTile_refl s t

theorem startTile_onlyTile (s : State) (t : Nat) (p : Partition) : s.OnlyTile t (s.startTile t p) := by
  unfold State.startTile
  exact (reserveLines_onlyTile s t p.pid p.lres).trans (onlyTile_modTile ..)

/-- The tile runs a partition's control context from its start. -/
structure Tile.Started (x : Tile) (p : Partition) (ev : BitVec 49) : Prop where
  mode : x.mode = .free
  pid : x.pid = p.pid
  ctxs : x.ctxs = [(0, launchCtx p.record ev)]

theorem startTile_started (s : State) (t : Nat) (p : Partition) : ((s.startTile t p).tile t).Started p (s.dev (pkgOf t)).yarrow.evWord := by
  have dev : (s.reserveLines t p.pid p.lres).dev (pkgOf t) = s.dev (pkgOf t) := by
    rw [State.dev, (reserveLines_onlyTile s t p.pid p.lres).devices]
    rfl
  unfold State.startTile
  dsimp only
  rw [modTile_tile_same, dev]
  exact ⟨rfl, rfl, rfl⟩

/-! ## Tiles that start -/

/-- Every tile of a list starts, and nothing else of the devices and partitions changes. -/
theorem startTiles (p : Partition) (ts : List Nat) (s : State) :
    (ts.foldl (fun s t => s.startTile t p) s).devices = s.devices ∧ (ts.foldl (fun s t => s.startTile t p) s).partitions = s.partitions ∧
      s.SameIssue (ts.foldl (fun s t => s.startTile t p) s) ∧
      ∀ t, t ∈ ts ∨ (s.tile t).Started p (s.dev (pkgOf t)).yarrow.evWord →
        ((ts.foldl (fun s t => s.startTile t p) s).tile t).Started p (s.dev (pkgOf t)).yarrow.evWord := by
  induction ts generalizing s with
  | nil => exact ⟨rfl, rfl, .refl s, fun t h => h.resolve_left List.not_mem_nil⟩
  | cons a ts ih =>
    obtain ⟨devices, partitions, issue, started⟩ := ih (s.startTile a p)
    have first := startTile_onlyTile s a p
    have dev : ∀ q, (s.startTile a p).dev q = s.dev q := fun q => by
      rw [State.dev, first.devices]
      rfl
    refine ⟨devices.trans first.devices, partitions.trans first.partitions, first.issue.trans issue, fun t h => ?_⟩
    rw [← dev]
    refine started t ?_
    by_cases here : t = a
    · right
      rw [here, dev]
      exact startTile_started s a p
    · rw [first.others t here, dev]
      exact h.imp_left fun m => (List.mem_cons.1 m).resolve_left here

/-- A partition's tiles on a package that have not started do. -/
theorem startOn_runs {s : State} {q : Nat} {p : Partition} (found : (s.partitions.find? fun r => r.pid = p.pid) = some p) (live : p.st = .live) :
    (s.startOn q p.pid).devices = s.devices ∧ (s.startOn q p.pid).partitions = s.partitions ∧ s.SameIssue (s.startOn q p.pid) ∧
      ∀ t ∈ p.tiles, pkgOf t = q → p.halted.contains t = false → mhas (s.tile t).ctxs 0 = false → (s.tile t).pid ≠ p.pid →
        (∀ r ∈ (s.tile t).parked, r.pid ≠ p.pid) → ((s.startOn q p.pid).tile t).Started p (s.dev (pkgOf t)).yarrow.evWord := by
  have run : s.startOn q p.pid = ((s.unstarted p).filter fun t => pkgOf t = q && !mhas (s.tile t).ctxs 0).foldl (fun s t => s.startTile t p) s := by
    unfold State.startOn
    rw [found]
    exact if_neg (fun h => h live)
  rw [run]
  obtain ⟨devices, partitions, issue, started⟩ := startTiles p ((s.unstarted p).filter fun t => pkgOf t = q && !mhas (s.tile t).ctxs 0) s
  refine ⟨devices, partitions, issue, fun t ht hq halted idle fresh parked => started t (.inl ?_)⟩
  have aside : ((s.tile t).parked.any fun r => r.pid = p.pid) = false := by
    rw [List.any_eq_false]
    exact fun r hr e => parked r hr (of_decide_eq_true e)
  refine List.mem_filter.2 ⟨List.mem_filter.2 ⟨ht, ?_⟩, ?_⟩
  · rw [halted, aside, decide_eq_true fresh]
    rfl
  · rw [decide_eq_true hq, idle]
    rfl

/-- A record's control context, written out (R333, R368). -/
theorem launchCtx_eq (r : List Word) (y : Yarrow) : launchCtx r y.evWord = { Ctx.reset with
    pc := dw r 3, npc := dw r 3, entry := dw r 3, arg := dw r 4, asid := recAsid r, evBase := if y.evEn then y.evEntry else 0
    sregs := ((Vector.replicate 32 0).setIfInBounds 1 (dw r 4)).setIfInBounds 30 (BitVec.ofNat 64 (2 ^ 52 + recLres r * 128))
    banks := recBanks r, vregs := List.replicate (8 * recBanks r) VReg.reset } := rfl

/-! ## A head that starts -/

section
variable (u : State) (p : Nat) (h : Head)

theorem serveCount_tile (t : Nat) : (u.serveCount p h).tile t = u.tile t := rfl
theorem serveCount_partitions : (u.serveCount p h).partitions = u.partitions := rfl
theorem serveCount_records : (((u.serveCount p h).dev p).yarrow.queue h.queue).records = ((u.dev p).yarrow.queue h.queue).records.drop 1 := by
  have charged : ∀ y : Yarrow, ({ y.charge h.eff h.group h.weight with serves := y.serves + 1 } : Yarrow).queue h.queue = y.queue h.queue := fun _ => rfl
  unfold State.serveCount
  dsimp only
  rw [modQueue_queue, modYarrow_dev]
  refine (congrArg YQueue.records (charged _)).trans ?_
  rw [State.popHead, modQueue_queue]
theorem serveCount_evWord : ((u.serveCount p h).dev p).yarrow.evWord = (u.dev p).yarrow.evWord := by
  unfold State.serveCount
  dsimp only
  rw [modQueue_yarrow, modYarrow_dev, State.popHead, modQueue_yarrow]
  rfl
theorem serveCount_issue : u.SameIssue (u.serveCount p h) := ⟨rfl, rfl, rfl, rfl, rfl⟩
end

/-- The partition that a head's launch becomes. -/
def State.launched (u : State) (p : Nat) (h : Head) (ts : List Nat) : Partition :=
  ⟨u.nextPid, .live, recAsid h.record, h.record, h.rclass, p, ts, [], [], 0⟩

section
variable {u : State} {p : Nat} {h : Head} {ts : List Nat} (fresh : ∀ r ∈ u.partitions, r.pid ≠ u.nextPid)
include fresh

theorem startHead_run : (((u.startHead p h ts).dev p).yarrow.queue h.queue).records = ((u.dev p).yarrow.queue h.queue).records.drop 1 ∧
    (u.startHead p h ts).partitions = u.partitions ++ [u.launched p h ts] ∧
    ∀ t ∈ ts, pkgOf t = p → mhas (u.tile t).ctxs 0 = false → (u.tile t).pid ≠ u.nextPid → (∀ r ∈ (u.tile t).parked, r.pid ≠ u.nextPid) →
      ((u.startHead p h ts).tile t).Started (u.launched p h ts) (u.dev p).yarrow.evWord := by
  have found : ((u.partitions ++ [u.launched p h ts]).find? fun r => r.pid = (u.launched p h ts).pid) = some (u.launched p h ts) := by
    have none : (u.partitions.find? fun r => r.pid = (u.launched p h ts).pid) = none :=
      List.find?_eq_none.2 fun r hr e => fresh r hr (of_decide_eq_true e)
    rw [List.find?_append, none, Option.none_or]
    exact List.find?_cons_of_pos (decide_eq_true rfl)
  obtain ⟨devices, partitions, -, started⟩ := startOn_runs (s := { (u.serveCount p h).modYarrow p fun y => { y with pids := u.nextPid + 1 } with
    partitions := u.partitions ++ [u.launched p h ts] }) (q := p) found rfl
  have dev : (u.startHead p h ts).dev p = ((u.serveCount p h).modYarrow p fun y => { y with pids := u.nextPid + 1 }).dev p :=
    congrArg (fun m => mget Device.reset m p) devices
  refine ⟨?_, partitions, fun t ht hp idle pid parked => ?_⟩
  · rw [dev, modYarrow_dev]
    exact serveCount_records u p h
  · have ev : (((u.serveCount p h).modYarrow p fun y => { y with pids := u.nextPid + 1 }).dev (pkgOf t)).yarrow.evWord = (u.dev p).yarrow.evWord := by
      rw [hp, modYarrow_dev]
      exact serveCount_evWord u p h
    rw [← ev]
    exact started t ht hp rfl idle pid parked
end

/-! ## Serving -/

section
variable {s u : State} {p : Nat} {h : Head} {ts : List Nat} (checked : s.checkLaunch p h.record = (.tiles ts, u))
  (pins : (ts.any fun t => (u.tile t).reserveBad u.nextPid (recLres h.record)) = false) (place : u.placeable ts h.rclass = true)
  (first : u.reserved p h ts = false)
include checked pins place first

theorem serveHead_starts (may : Bool) : s.serveHead p h may = (true, u.startHead p h ts) := by
  have start : u.tryStart p h ts = some (u.startHead p h ts) := by
    unfold State.tryStart
    rw [place, first, pins]
    rfl
  unfold State.serveHead
  rw [checked]
  dsimp only
  rw [start]

variable (serving : s.serving p = true) (only : s.heads p = [h])
include serving only

/-- The head that can start does, whether it is chosen or named. -/
theorem launch_starts : ∀ i ∈ [Instr.launchSelect p, .launchStart p h.queue], exec i s = .next { u.startHead p h ts with fate := .done } := by
  have select : exec (.launchSelect p) s = .next { u.startHead p h ts with fate := .done } := by
    have run : exec (.launchSelect p) s = happen (fun s => if s.serving p then s.serveHeads p [] (s.heads p) else s) s := rfl
    have first : s.serveHeads p [] [h] = u.startHead p h ts := by
      unfold State.serveHeads
      rw [serveHead_starts checked pins place first]
    rw [run, happen_run, if_pos serving, only, first]
  have start : exec (.launchStart p h.queue) s = .next { u.startHead p h ts with fate := .done } := by
    have run : exec (.launchStart p h.queue) s = happen (fun s => match (s.heads p).find? fun h => (s.serveHead p h false).1 with
      | some g => if s.serving p && g.queue = h.queue then (s.serveHead p g false).2 else s
      | none => s) s := rfl
    have served := serveHead_starts checked pins place first false
    have choice : ([h].find? fun h => (s.serveHead p h false).1) = some h := List.find?_cons_of_pos (congrArg Prod.fst served)
    rw [run, happen_run, only, choice]
    dsimp only
    rw [serving, served]
    simp
  intro i hi
  rcases List.mem_pair.1 hi with rfl | rfl
  · exact select
  · exact start
end

theorem placeable_idle {u : State} {ts : List Nat} {cls : Nat} (h : u.placeable ts cls = true) {t : Nat} (ht : t ∈ ts) :
    mhas (u.tile t).ctxs 0 = false := by
  have free := List.all_eq_true.1 (Bool.and_eq_true _ _ ▸ h).1 t ht
  simp only [Bool.and_eq_true, Bool.not_eq_true'] at free
  exact free.1.1

/-! ## Completion -/

theorem launchComplete_run {s u : State} {q : Partition} (only : s.partitions = [q]) (live : q.st = .live) (ended : ∀ t ∈ q.tiles, t ∈ q.halted)
    (done : s.complete q.dev q.record q.cplCode = some u) (kept : u.partitions = [q]) :
    exec (.launchComplete q.pid) s = .next { u with partitions := [], fate := .done } := by
  have all : (q.tiles.all fun t => q.halted.contains t) = true :=
    List.all_eq_true.2 fun t ht => List.contains_iff_mem.2 (ended t ht)
  have running : (q.st = .preempted || !q.tiles.all fun t => q.halted.contains t) = false := by
    rw [all, live]
    rfl
  have chosen : ([q].find? fun p => p.pid = q.pid) = some q := List.find?_cons_of_pos (decide_eq_true rfl)
  have run : exec (.launchComplete q.pid) s = happen (fun s => match s.partitions.find? fun p => p.pid = q.pid with
    | none => s
    | some p =>
      if p.st = .preempted || !p.tiles.all fun t => p.halted.contains t then s
      else match s.complete p.dev p.record p.cplCode with
        | none => s
        | some s => { s with partitions := s.partitions.filter fun r => r.pid ≠ q.pid }) s := rfl
  rw [run, happen_run, only, chosen]
  dsimp only
  rw [running, if_neg Bool.false_ne_true, done]
  dsimp only
  rw [kept, List.filter_cons_of_neg (by simp), List.filter_nil]

theorem complete_silent (s : State) (p code : Nat) {r : List Word} (h : dw r 7 = 0) : s.complete p r code = some s := if_pos h

/-! ## O53 -/

/-- Settles O53: the registers and the aging are one write each; a tail's cases follow the descriptor; a start changes one tile after the other, and
what starts one leaves the others, the queues and the partitions alone. -/
theorem launchEvents : Obligations.LaunchEvents := by
  unfold Obligations.LaunchEvents
  refine ⟨fun s p v => ?registers, fun s u p q x serving hq read => ?tails, fun s u p h ts serving only checked pins place first fresh _ away => ?starts,
    fun s p q h head => launchAging_run head, fun s p q only live halted => ?forward, fun s u q only live ended => ?completes⟩
  case registers =>
    refine ⟨fun bar => yqtbaseWrite_run v bar, fun closed => ?_, fun off bar => ?_⟩
    · have written := featackWrite_run s p v
      rwa [ackFeatures_closed v closed] at written
    · rw [← ackFeatures_open v off bar]
      exact featackWrite_run s p v
  case tails =>
    dsimp only
    intro found
    rw [← descLogn_eq, ← descHead_eq]
    refine ⟨fun off => tailWake_off serving hq read found ?_, fun on sound up => ?_⟩
    · rw [descQen_eq, descErr_eq]
      rcases off with h | h
      · rw [h]
        rfl
      · rw [decide_eq_true h, Bool.or_true]
    · have hon : descQen x = true := (descQen_eq x).trans (decide_eq_true on)
      have hsound : descErr x = false := (descErr_eq x).trans (decide_eq_false (by rw [sound]; decide))
      refine ⟨tailWake_badSize serving hq read found hon hsound up, fun small big present tail u1 readTail same =>
        ⟨fun still => ⟨_, tailWake_same serving hq read found hon hsound up small big present readTail still, rfl, rfl, ?_⟩, fun u2 hu2 => ?_⟩⟩
      · exact (modQueue_queue u1 p q armed).trans (congrArg armed same)
      · subst hu2
        refine ⟨tailWake_tooFar serving hq read found hon hsound up small big present readTail, fun rec u3 u4 one record stored kept =>
          ⟨_, tailWake_one serving hq read found hon hsound up small big present readTail one record stored, rfl, rfl, ?_⟩⟩
        refine (modQueue_queue u4 p q (recordTaken ((descHead x + 1) % 2 ^ 32) rec)).trans ?_
        rw [kept]
        rfl
  case starts =>
    intro i hi
    obtain ⟨records, partitions, started⟩ := startHead_run (h := h) (ts := ts) (p := p) fresh
    refine ⟨_, launch_starts checked pins place first serving only i hi, rfl, records, partitions, fun t ht hp => ?_⟩
    obtain ⟨mode, pid, ctxs⟩ := started t ht hp (placeable_idle place ht) (away t ht).1 (away t ht).2
    exact ⟨mode, pid, ctxs.trans (congrArg (fun k => [(0, k)]) (launchCtx_eq ..))⟩
  case forward =>
    have found : (s.partitions.find? fun r => r.pid = q.pid) = some q := by
      rw [only]
      exact List.find?_cons_of_pos (decide_eq_true rfl)
    obtain ⟨-, partitions, issue, started⟩ := startOn_runs (q := p) found live
    refine ⟨_, happens_of_exec (exec_of_happen (f := fun s => s.startOn p q.pid) rfl rfl) issue, partitions.trans only, fun t ht hp idle pid parked => ?_⟩
    obtain ⟨mode, own, ctxs⟩ := started t ht hp (by rw [halted]; rfl) idle pid parked
    exact ⟨mode, own, (congrArg (List.map fun e : Nat × Ctx => (e.1, e.2.pc)) ctxs).trans rfl⟩
  case completes =>
    refine ⟨fun silent => ?_, fun done kept => ⟨_, launchComplete_run only live ended done kept, rfl, rfl, rfl⟩⟩
    have run := launchComplete_run only live ended (complete_silent s q.dev q.cplCode silent) only
    exact ⟨_, happens_of_exec (t := { s with partitions := [] }) run ⟨rfl, rfl, rfl, rfl, rfl⟩, rfl, rfl⟩

end Sys2Proof.Machine
end
